-- ==== Sys2Proof/Word.lean ====
section
/-! DEFINITION. The words of the device: bytes, the sequencer's 16-bit words, 32-bit lanes and 64-bit registers (R3, R7, R84). -/

namespace Sys2Proof

abbrev Byte := BitVec 8
abbrev Half := BitVec 16
abbrev Word := BitVec 32
abbrev DWord := BitVec 64

end Sys2Proof
end

