-- ==== Sys2Proof/Shapes.lean ====
section
/-! DEFINITION. The shapes of the commands' operands: what comes to the device from outside its state (a message, a
measurement, a written value), and the fields of sequencer instructions and engine commands. -/

namespace Sys2Proof

/-! Operand shapes shared by several families. -/

/-- The shared status codes of R9. -/
inductive Status where
  | ok | invalidField | invalidState | refusedPolicy | refusedResource | targetReset | timeout
  | abortedPartitionReset | dataError | authFail | deferredEmergency | epochFault | versionMismatch
  | mixedStep | sheafAbandoned | notReady | busy
  deriving DecidableEq, Repr

/-- What the ECC of the accessed memory finds (R65, R216): nothing, a corrected error, an uncorrectable one. -/
inductive EccOutcome where
  | ok | ce | ue
  deriving DecidableEq, Repr

/-- Whether a BAR0 or a BAR2 register is written (R7, R309). -/
inductive Bar where
  | bar0 | bar2
  deriving DecidableEq, Repr

/-- The three lodge processors (R413). -/
inductive Lodge where
  | mgmt | power | sec
  deriving DecidableEq, Repr

/-! The mesh and the pavilions (03). -/

/-- A request that reaches the NI of logical pavilion `dst` (R67, R494): `ofs` is the byte offset in its scratch;
a write carries its bytes, a read the number of bytes wanted. `sown` says that it belongs to sown work. -/
structure MeshReq where
  dst : Fin 128
  gen : BitVec 8
  ofs : Nat
  wr : Option (List Byte)
  len : Nat
  ecc : EccOutcome
  sown : Bool
  deriving DecidableEq, Repr

/-- A response that reaches the NI of logical pavilion `dst` (R81): the NI generation it returns, the engine of
the pavilion whose request it answers, its status, and, for a read, the scratch line and its 64 bytes. -/
structure MeshRsp where
  dst : Fin 128
  gen : BitVec 8
  eng : Option (Fin 8)
  st : Status
  line : Option (Nat × List Byte)
  deriving DecidableEq, Repr

/-- An agent attached to a mesh stop (R57): a pavilion by its logical number, or one of the blocks of the edge stops. -/
inductive MeshAgent where
  | pav (l : Fin 128)
  | gddr (g : Fin 12)
  | fabPort (p : Fin 24)
  | downPort (d : Fin 8)
  | cxl (n : Fin 2)
  | upPcie | lodge | windows | troubleLog | bulkMove
  | ethPorts | parsing | classification | trafficControl | rdma | queueEngine
  | checkpoint | cipher
  deriving DecidableEq, Repr

/-- One ADD that reaches a semaphore (R69, R71): the agent that sent it, the semaphore and the signed amount. -/
structure SemAdd where
  src : MeshAgent
  sem : Fin 64
  amount : BitVec 16
  deriving DecidableEq, Repr

/-! Berin-16 (04). -/

/-- The second operand of an ALU instruction: a register (opcode 0x1) or a second word (opcode 0x6). -/
inductive AluB where
  | reg (s : Fin 16)
  | imm (w : BitVec 16)
  deriving DecidableEq, Repr

/-- The addressing modes of R91. -/
inductive EA where
  | disp (p : Fin 4) (x : Fin 16)
  | postInc (p s : Fin 4)
  | preDec (p s : Fin 4)
  | index (p : Fin 4) (i : Fin 16) (s : Fin 4) (d : BitVec 10)
  deriving DecidableEq, Repr

/-! Engine commands (R98 to R100): what their accesses find; their fields are those of the queued block. -/

/-- A scratch line, as the program numbers it (R78), whose read finds an ECC error: `ue` says an uncorrectable one (R65). -/
structure LineErr where
  line : Fin 65536
  ue : Bool
  deriving DecidableEq, Repr

/-- Line `i` of a mesh transfer whose access fails with a status (R104). -/
structure LineFail where
  i : Nat
  st : Status
  deriving DecidableEq, Repr

/-! Time base and schedule (05). -/

/-- A timestamp reply (R115, R169): the four stamps, and the parent's LOCKED and DEPTH. The stamps are in
picoseconds of the counter's time. -/
structure TsReply where
  t1 : Int
  t2 : Int
  t3 : Int
  t4 : Int
  locked : Bool
  depth : Nat
  deriving DecidableEq, Repr

/-- The fields of a NOTICE control flit (R169): origin, notice number and stamp, and the fields of its kind: image
(R135, R140), step, attempt, cause and replay time (R140), pace level (R143), device generation (R177). -/
structure Notice where
  origin : Fin 16384
  num : BitVec 16
  stamp : BitVec 64
  image : BitVec 64
  step : BitVec 32
  attempt : BitVec 8
  cause : Fin 16
  tr : BitVec 64
  level : Fin 16
  gen : BitVec 8
  deriving DecidableEq, Repr

/-! Fabric (06). -/

/-- A whole volunteer packet (R165, R167): source device and generation, destination, class, lane, path, payload. -/
structure VolPacket where
  src : Fin 16384
  gen : BitVec 8
  dst : Fin 16384
  vc : Fin 8
  hi : Bool
  path : BitVec 8
  payload : List Byte
  deriving DecidableEq, Repr

/-- A ROUTED control message (R167, R169). -/
structure RoutedMsg where
  src : Fin 16384
  gen : BitVec 8
  dst : Fin 16384
  data : List Byte
  deriving DecidableEq, Repr

/-- What the end of a training state finds (R172, R173): whether the state completed on all four lanes; in NEGOTIATE
the partner's offered version, device number, port, generation, and the measured one-way delay in ticks. -/
structure TrainX where
  ok : Bool
  peerVersion : Nat
  peerDev : Fin 16384
  peerPort : Fin 24
  peerGen : BitVec 8
  delay : Nat
  deriving DecidableEq, Repr


/-! Memory (08). -/

/-- A memory request (R216, R219, R223): whether it belongs to sown work, the partition whose command work it is, its
address, the bytes of a write or the length of a read, how many transfers fail their link CRC, what ECC finds in the memory
(poison is uncorrectable, R222), whether a controller buffer has an uncorrectable error, and for how many ticks the request is
outstanding. -/
structure MemReq where
  sown : Bool
  part : Option (Fin 65)
  addr : Nat
  wr : Option (List Byte)
  len : Nat
  crcFails : Nat
  ecc : EccOutcome
  bufUe : Bool
  ticks : Nat
  deriving DecidableEq, Repr

/-- The end of a GDDR7 training (R218): whether it passed, the devices found, their identifiers, their temperature. -/
structure GddrX where
  ok : Bool
  clamshell : Bool
  ident : Nat
  celsius : Int
  deriving DecidableEq, Repr

/-- The end of a CXL port's training (R221): trained at 64 GT/s x16, enumerated as Type 3, the device's capacity. -/
structure CxlX where
  trained : Bool
  type3 : Bool
  bytes : Nat
  deriving DecidableEq, Repr


/-! Checkpoints (09). -/

/-- What an NVMe-oF namespace holds, as a restore reads it: the namespace, a byte offset, the bytes there. -/
structure NsPiece where
  ns : Nat
  off : Nat
  data : List Byte
  deriving DecidableEq, Repr

/-! PCIe (10). -/

/-- A memory access that arrives on a PCIe link: an offset in BAR4 or a bus address of a slot, the bytes of a write or the
length of a read, EP set (R288), what ECC finds at its target. -/
structure TlpX where
  addr : Nat
  wr : Option (List Byte)
  len : Nat
  ep : Bool
  ecc : EccOutcome
  deriving DecidableEq, Repr

/-- The status of a PCIe completion; `crs` is Configuration Request Retry Status. -/
inductive CplSt where
  | sc | ur | ca | crs
  deriving DecidableEq, Repr

/-- A completion for a read that the device issued: its tag, status, data, EP. -/
structure CplX where
  tag : Nat
  st : CplSt
  data : BitVec 32
  ep : Bool
  deriving DecidableEq, Repr

/-- The fields of an upstream function's configuration space that R281 gives a value, or that hold what software writes. -/
inductive CfgField where
  | vendorId | deviceId | revisionId | classCode | subsysVendor | subsysId | intPin
  /-- bit 1 is Memory Space Enable, bit 2 Bus Master Enable -/
  | command
  /-- BAR0, BAR2 and BAR4 as 64-bit registers -/
  | bar (i : Fin 3)
  | romBar
  /-- bits [1:0]: 0 D0, 3 D3hot -/
  | powerState
  /-- the PCI Express Device Control register: bit 4 enables Relaxed Ordering, bit 11 No Snoop -/
  | deviceControl
  /-- Power Management: No_Soft_Reset, PME support -/
  | noSoftReset | pme
  /-- the PCI Express capability's Device/Port Type, Max Payload Size Supported, FLR Capable, Extended Tag and Flit Mode supported,
  Completion Timeout Ranges and Disable supported, ASPM support -/
  | portType | maxPayload | flr | extTag | flitMode | ctoRanges | ctoDisable | aspm
  /-- Device Capabilities 3: 14-bit tags as requester and as completer -/
  | tag14Requester | tag14Completer
  /-- the MSI-X Message Control register: bit 15 MSI-X Enable, bit 14 Function Mask -/
  | msixControl
  | msixTable | msixPba
  | serial
  /-- log2 of BAR4's size in bytes -/
  | bar4Size
  /-- the Uncorrectable Error Status register of Advanced Error Reporting: writing 1 clears -/
  | aerStatus
  /-- is Secondary PCIe, a Physical Layer capability (16, 32, 64, 128 GT/s), Lane Margining or Flit Logging present -/
  | secondaryPcie | physLayer (gts : Nat) | laneMargining | flitLogging
  /-- Data Link Feature: Scaled Flow Control supported -/
  | scaledFlow
  /-- Data Object Exchange: bit 0 of Control is DOE Abort, bit 31 is DOE Go; of Status, bit 0 is Busy, bit 2 Error; a write of the
  Write Data Mailbox is the next DWORD of an object -/
  | doeControl | doeStatus | doeWriteMailbox
  /-- Integrity and Data Encryption: Link IDE streams, Selective IDE streams -/
  | linkIdeStreams | selectiveIdeStreams
  /-- any field of a structure that is absent -/
  | absent
  deriving DecidableEq, Repr

/-- A configuration request: a read of a field, or a write. -/
inductive CfgX where
  | read (f : CfgField)
  | write (f : CfgField) (v : BitVec 64)
  deriving DecidableEq, Repr

/-- An SPDM request in a data object (R304): the object's DWORDs, the session whose secured message carries it, Param1 and
Param2, the offset and length of GET_CERTIFICATE, the algorithms offered (ECDSA P-256, SHA-256, AES-256-GCM), whether
the requester's verification data or message authentication verifies; the key of an IDE_KM KEY_PROG. -/
structure SpdmMsg where
  dwords : Nat
  session : Option Nat
  p1 : Nat
  p2 : Nat
  off : Nat
  len : Nat
  ecdsaP256 : Bool
  sha256 : Bool
  aes256Gcm : Bool
  authentic : Bool
  key : List (BitVec 8)
  deriving DecidableEq, Repr

/-- Error codes of an SPDM ERROR response. -/
inductive SpdmErr where
  | invalidRequest | unexpectedRequest | unsupportedRequest | decryptError | sessionRequired
  deriving DecidableEq, Repr

/-- An SPDM response; the fields that the spec gives. -/
inductive SpdmRsp where
  | version
  | capabilities
  | algorithms
  | digests (slots : Nat) (d : List Byte)
  | certificate (portion : List Byte) (remainder : Nat)
  | challengeAuth (chainDigest sig : List Byte)
  /-- the number of blocks -/
  | measurementCount (n : Nat)
  | measurements (blocks : List (Nat × List Byte)) (sig : Option (List Byte))
  | keyExchange (session : Nat) (sig : List Byte)
  | finish
  | heartbeat
  | keyUpdate
  | endSession
  | ideKm (ready : Bool)
  | error (e : SpdmErr)
  deriving DecidableEq, Repr

/-! RDMA and storage (12). -/

/-- The placement header of sprayed queue pairs and of the reliable-datagram mode (R351). -/
structure Placement where
  srcEp : BitVec 24
  imm : Option (BitVec 32)
  msg : BitVec 32
  msgLen : Nat
  off : Nat
  rkey : BitVec 32
  va : BitVec 64
  deriving DecidableEq, Repr

/-- Why a reliable connected peer refuses a packet. -/
inductive NakCode where
  | sequence | invalid | access | operation
  deriving DecidableEq, Repr

/-- The opcode of an RDMA packet with its extension headers (R338, R351, R353). -/
inductive RdmaOp where
  | send (first last : Bool) (imm : Option (BitVec 32))
  /-- a first packet carries the virtual address, the remote key and the length of the message -/
  | write (reth : Option (BitVec 64 × BitVec 32 × Nat)) (last : Bool) (imm : Option (BitVec 32))
  | readReq (va : BitVec 64) (rkey : BitVec 32) (len : Nat)
  | readRsp (first last : Bool)
  /-- compare-and-swap has a swap value, fetch-and-add none -/
  | atomic (va : BitVec 64) (rkey : BitVec 32) (opnd : BitVec 64) (swap : Option (BitVec 64))
  | atomicRsp (old : BitVec 64)
  | ack
  | nak (code : NakCode)
  | rnr (code : Fin 32)
  | ud (qkey : BitVec 32) (srcQp : BitVec 24) (imm : Option (BitVec 32))
  /-- 0xC8 and 0xC9, 0xC6, 0xC7 -/
  | sprayWrite (h : Placement)
  | sprayRead (h : Placement)
  | sprayRsp (h : Placement)
  /-- 0xC0 to 0xC3 -/
  | rdSend (h : Placement)
  | rdWrite (h : Placement)
  | rdAck (srcEp : BitVec 24) (msg : BitVec 32)
  | rdNak (srcEp : BitVec 24) (msg : BitVec 32) (reason : BitVec 11)
  | cnp
  deriving DecidableEq, Repr

/-- What the reads of the transport's tables find (R460): a corrected error, or an uncorrectable one in a place. -/
inductive RdmaUe where
  | none | corrected | context | trigger
  deriving DecidableEq, Repr

/-- An RDMA packet that arrives: the logical Ethernet port, or none for the fabric; its source; on the fabric the port on which it
came and the source's device generation (R178); the partition generation
that a response returns (R327); ECN-CE; the KiB in the Ethernet receive buffer; its bytes in the miss buffer; what the
device's tables give while it is handled. -/
structure RdmaPkt where
  port : Option (Fin 16)
  srcDev : Fin 16384
  srcGid : BitVec 128
  inPort : Fin 24
  srcGen : BitVec 8
  gen : BitVec 8
  destQp : BitVec 24
  psn : BitVec 24
  ackReq : Bool
  ecn : Bool
  bufKib : Nat
  size : Nat
  op : RdmaOp
  data : List Byte
  ue : RdmaUe
  deriving DecidableEq, Repr

/-- An RDMA packet that the device sends (R339): its port, or none for the fabric; the device or the GID that it goes to; its
class, path, UDP source port and DSCP. -/
structure RdmaTx where
  port : Option Nat
  dev : Nat
  gid : BitVec 128
  vc : Nat
  path : Nat
  sport : Nat
  dscp : Nat
  part : Nat
  gen : BitVec 8
  destQp : BitVec 24
  psn : BitVec 24
  ackReq : Bool
  op : RdmaOp
  data : List Byte
  deriving DecidableEq, Repr

/-- A namespace's association, once every connection stands (R362): LBA size log2, capacity in LBAs, the controller's maximum
data transfer size in bytes, the logical ports that carry the associations. -/
structure NsConn where
  lbaLog2 : Nat
  capacity : Nat
  mdts : Nat
  ports : List (Fin 16)
  deriving DecidableEq, Repr

/-- The outcome of one piece of an NVMe command (R363): the NVMe status field, and for a read the bytes that the target wrote. -/
structure NvmePiece where
  status : BitVec 16
  data : List Byte
  deriving DecidableEq, Repr

/-! Ethernet and traffic (13). -/

/-- A frame of the management processor (R369). Addresses are GIDs (an IPv4 address in its IPv6-mapped form). -/
inductive MgmtFrame where
  /-- an ARP request or a neighbour solicitation: for which address, from whom -/
  | query (target : BitVec 128) (from_ : BitVec 128) (mac : BitVec 48)
  /-- an ARP reply or a neighbour advertisement -/
  | answer (addr : BitVec 128) (mac : BitVec 48)
  | lldp
  deriving DecidableEq, Repr

/-- What a PTP event message gives (R370): the master's time of a Sync in ns, or the master's receive time of a Delay_Req;
`stamp` is the device's timestamp in 1/256 ticks. -/
inductive PtpMsg where
  | sync (t1 : Nat) (stamp : Nat)
  | delay (t4 : Nat) (stamp : Nat)
  deriving DecidableEq, Repr

/-- A frame that arrives (R367, R368): its bytes without the FCS, whether the FCS is good, the bytes in the receive buffer,
whether a corrected error is found in a table that it looks up, the entry that is found uncorrectable there (R460). -/
structure EthFrame where
  bytes : List Byte
  fcsOk : Bool
  used : Nat
  ce : Bool
  ue : Option (Fin 3 × Nat)
  deriving DecidableEq, Repr
/-- A path to the cipher engine (R394): the security processor, the management processor, or a host through a function's BAR0.
A firmware path carries what the firmware has placed in its own memory from the old tail of its ring on (R397). -/
inductive CipPath where
  | security (ring : List (BitVec 8))
  | management (ring : List (BitVec 8))
  | host (fn : Fin 2)
  deriving DecidableEq, Repr

/-- A redundancy check that fails (R393): the cores of the failing pair, each with whether it passes its known-answer test
(none for multipliers), and whether this is the second computation of its block. -/
structure CipCheck where
  cores : List (Fin 24 × Bool)
  second : Bool
  deriving DecidableEq, Repr

/-- What a cipher command meets: its failed checks, the status its source read ends with, and the line of an uncorrectable
error. -/
structure CipFault where
  checks : List CipCheck
  rd : Status
  ue : Option (BitVec 64)
  deriving DecidableEq, Repr

/-! Bring-up, firmware and the lodge processors (15). -/

/-- A copy of the flash directory (R414): SEQ, the active set (0 A, 1 B), the state of each set (0 EMPTY, 1 STAGED, 2 GOOD),
whether its CRC-32C checks. -/
structure FlashDir where
  seq : BitVec 32
  active : Fin 2
  stA : Fin 3
  stB : Fin 3
  ok : Bool
  deriving DecidableEq, Repr

/-- The xSPI flash (R413, R414, R421): the directory copies, the PUF helper data, the DeviceID certificate, the owner key, SKU
and defect records (empty where none is held), the DEV_GEN log's last value, the training records (a fabric port's with the
device number and port of its partner), the records of each firmware set by PART, the UEFI driver image. -/
structure Flash where
  dir0 : FlashDir
  dir1 : FlashDir
  helper : List (BitVec 8)
  devCert : List (BitVec 8)
  owner : List (BitVec 8)
  sku : List (BitVec 8)
  defect : List (BitVec 8)
  devGen : BitVec 8
  fabTrain : List (Fin 24 × BitVec 14 × BitVec 5)
  cxlTrain : List (Fin 2)
  ethTrain : List (Fin 16)
  setA : List (Nat × List (BitVec 8))
  setB : List (Nat × List (BitVec 8))
  uefi : List (BitVec 8)
  deriving DecidableEq, Repr

/-- What a cold reset finds on the board: the up_bif ball (R276), whether the PUF reads well enough to be reconstructed
(R407), and what an external programmer has put into the flash while por_n was low (R482), if it has. -/
structure BootIn where
  halves : Bool
  puf : Bool
  flash : Option Flash
  deriving DecidableEq, Repr

/-- What comes with a register write: the bits of the register that hardware sets, or the counters that it increments, in the same
cycle (R5); whether the TLP carries EP (R288); what a cold reset that the write begins finds (R16). -/
structure RegX where
  sets : BitVec 64
  ep : Bool
  boot : BootIn
  deriving DecidableEq, Repr

/-- A segment of a pavilion load as it arrives at a loader (R422, R423). -/
structure LoadSeg where
  index : Fin 48
  data : List (BitVec 8)
  crc : BitVec 32
  deriving DecidableEq, Repr

/-- A segment of a distributed image (R426): the port it arrives on, its index among the image's 4 KiB segments, the image's
bytes and SHA-256, the segment with its CRC-32C, and whether it is the last of its pass. -/
structure DistSeg where
  port : Fin 24
  index : Nat
  total : Nat
  digest : List (BitVec 8)
  data : List (BitVec 8)
  crc : BitVec 32
  last : Bool
  deriving DecidableEq, Repr

/-- Who writes a register without a row of its own: a function of the host, or a lodge processor by its internal path. -/
inductive Writer where
  | host (fn : Fin 2)
  | lodge (c : Lodge)
  deriving DecidableEq, Repr

/-! Power (16). -/

/-- What the power processor reads at 10 Hz (R456): the inlet and the outlet temperature in 1/16 °C, and the converter's state
of charge in % with whether it reports a fault; none where the read fails three times. -/
structure CoolIn where
  inlet : Option Int
  outlet : Option Int
  eb : Option (Nat × Bool)
  deriving DecidableEq, Repr

/-- What it reads at 100 Hz: the node's input in W, and the core regulator's voltage in mV, current in A and whether its
STATUS_WORD reports a fault. -/
structure NodeIn where
  pin : Option Nat
  vr : Option (Nat × Nat × Bool)
  deriving DecidableEq, Repr

/-! Management over MCTP (17). -/

/-- A binding of the MCTP endpoint (R472). -/
inductive MctpPort where
  | smbus | i3c | vdm (fn : Fin 2)
  deriving DecidableEq, Repr

/-- The PLDM sensors (R473): the numeric ones, and the state sensor of each condition of R452. -/
inductive PldmSensor where
  | tj | inlet | outlet | flow | pump | power | soc | vcore | icore
  | cond (n : Fin 13)
  deriving DecidableEq, Repr

/-- A PLDM request (R472): of Base Discovery (type 0), of Platform Monitoring and Control (type 2), or another. -/
inductive PldmReq where
  | getTypes
  | getTid
  | setTid (tid : BitVec 8)
  | setEventReceiver (address : Option (BitVec 8))
  | reading (x : PldmSensor)
  | other
  deriving DecidableEq, Repr

/-- A request on one of the endpoint's bindings. -/
structure MctpMsg where
  port : MctpPort
  req : PldmReq
  deriving DecidableEq, Repr

end Sys2Proof
end

