-- ==== Sys2Proof/Syntax.lean ====
section
/-! DEFINITION. The commands of the device: one constructor of `Instr` for each row of spec/opcode_table.json, with
the operands that the row's event carries. An operand names what comes from outside the state (an address, a value
written, a message, a measurement); what the device finds in its own state is no operand. -/

namespace Sys2Proof

/-- The commands, one for each row of the table, in the table's order; the rule cited is the row's. -/
inductive Instr where
  /-- POWER_ON (R480): Power is applied and the rails rise in sequence; por_n release starts a cold bring-up. -/
  | powerOn (b : BootIn)
  /-- POR_PIN_LOW (R483): A low pulse of 2 µs or more on por_n causes a cold reset; a pulse shorter than 0.5 µs is ignored. -/
  | porPinLow (ns : Nat) (b : BootIn)
  /-- ROOT_PLL_UNLOCK (R13): The root PLL loses lock; TOP_CLK_STATUS.ROOT_UNLOCK is set if the loss lasts less than 1 µs. -/
  | rootPllUnlock (ns : Nat) (b : BootIn)
  /-- ROOT_PLL_LOSS_TIMEOUT (R13): Loss of lock of the root PLL lasts more than 1 µs, and a cold reset follows with cause PLL_LOSS. -/
  | rootPllLossTimeout (b : BootIn)
  /-- SW_COLD (R16): A keyed TOP_RST_CTRL write with COLD = 1 causes a cold reset, and it takes precedence over WARM. -/
  | swCold (v : BitVec 32) (b : BootIn)
  /-- SW_WARM (R13): A keyed TOP_RST_CTRL write with WARM = 1 causes a warm reset. -/
  | swWarm (v : BitVec 32) (b : BootIn)
  /-- UPSTREAM_PERST (R280): Upstream PERST# causes a warm reset in ×16 mode, or when both halves assert it together; one half alone resets only its link and function. -/
  | upstreamPerst (h0 h1 : Bool)
  /-- POWER_DOWN (R481): por_n goes low and the rails fall; memory and trouble-log contents are lost. -/
  | powerDown
  /-- REGISTER_WRITE (R4): A write to a register without a row of its own acts by its access codes and range rules, W1C clears included. -/
  | registerWrite (w : Writer) (bar : Bar) (off size : Nat) (v : BitVec 64) (c : RegX)
  /-- LODGE_FW_START (R415): The security firmware verifies and starts the management and power firmware; CIP_BOOT.STAGE reads 3. -/
  | lodgeFwStart
  /-- GEN_HOLD_EXPIRE (R177): 16,000 ticks after the GEN notice, the device may send its own volunteer and ROUTED flits. -/
  | genHoldExpire
  /-- TERRACE_WAVE (R417): A terrace is ungated in its bring-up wave, 2t ms after step 7 begins. -/
  | terraceWave (t : Fin 16)
  /-- PAV_SELF_TEST_DONE (R418): A pavilion's self-test ends 4 ms after its ungating; a failing pavilion is mapped out. -/
  | pavSelfTestDone (p : Fin 144) (pass : Bool)
  /-- BRINGUP_READY (R415): LDG_STATE.READY is set once the terrace waves and GDDR7 training have ended. -/
  | bringupReady
  /-- UP_LINK_UP (R277): An upstream link finishes training at the highest common rate and width. -/
  | upLinkUp (h : Fin 2) (rate width : Nat)
  /-- MESH_REQUEST_ARRIVE (R67): A read or write request reaches a destination NI and is served in order per source and class. -/
  | meshRequestArrive (q : MeshReq)
  /-- MESH_RESPONSE_ARRIVE (R81): A response reaches its requesting NI; a response with a stale generation number is dropped and counted in PAV_STALE. -/
  | meshResponseArrive (r : MeshRsp)
  /-- MESH_WRITE_ACK (R68): A write is acknowledged, which may release fenced semaphore operations. -/
  | meshWriteAck (l : Fin 128) (gen : BitVec 8) (id : Nat)
  /-- SEMAPHORE_ADD (R71): A signed ADD reaches a semaphore; same-cycle ADDs apply in stop order and saturate by R70. -/
  | semaphoreAdd (l : Fin 128) (adds : List SemAdd)
  /-- MAP_COMMIT (R75): The management processor commits the shadow logical map to all NIs in one write. -/
  | mapCommit
  /-- PAVILION_RESET (R80): A keyed PAV_RST_CTRL write or a management request begins a pavilion reset: the NI refuses requests, the engines stop and the NI generation advances. -/
  | pavilionReset (v : BitVec 32)
  /-- PAV_RESET_COMPLETE (R80): The scratch clear ends, the sequencer enters its held reset state, the NI accepts requests again and BUSY clears. -/
  | pavResetComplete (l : Fin 128)
  /-- NOP (R93): The sequencer does nothing for one cycle. -/
  | nop (l : Fin 128)
  /-- TRAP (R110): The sequencer traps with cause 16 + n. -/
  | trap (l : Fin 128) (n : Fin 16)
  /-- RETT (R93): The sequencer returns from a trap to TPC or TNEXT, restores FLAGS and clears INTRAP. -/
  | rett (l : Fin 128) (k : Fin 2)
  /-- PUSH (R96): w15 is decremented and the register is stored; an address above 0x7FFF traps with cause ADDR. -/
  | push (l : Fin 128) (i : Fin 16)
  /-- POP (R93): A register is loaded from data memory at w15, and w15 is incremented. -/
  | pop (l : Fin 128) (i : Fin 16) (parity : Bool)
  /-- CSET (R103): A local counter is set from a register. -/
  | cset (l : Fin 128) (c i : Fin 16)
  /-- ALU_MOV (R94): rd takes the second operand; the immediate form is MOVW. -/
  | aluMov (l : Fin 128) (d : Fin 16) (b : AluB)
  /-- ALU_ADD (R94): rd takes rd + b, and the flags are set. -/
  | aluAdd (l : Fin 128) (d : Fin 16) (b : AluB)
  /-- ALU_ADC (R94): rd takes rd + b + C. -/
  | aluAdc (l : Fin 128) (d : Fin 16) (b : AluB)
  /-- ALU_SUB (R94): rd takes rd − b. -/
  | aluSub (l : Fin 128) (d : Fin 16) (b : AluB)
  /-- ALU_SBC (R94): rd takes rd + NOT b + C. -/
  | aluSbc (l : Fin 128) (d : Fin 16) (b : AluB)
  /-- ALU_AND (R94): rd takes rd AND b. -/
  | aluAnd (l : Fin 128) (d : Fin 16) (b : AluB)
  /-- ALU_OR (R94): rd takes rd OR b. -/
  | aluOr (l : Fin 128) (d : Fin 16) (b : AluB)
  /-- ALU_XOR (R94): rd takes rd XOR b. -/
  | aluXor (l : Fin 128) (d : Fin 16) (b : AluB)
  /-- ALU_CMP (R94): The flags are set from rd − b. -/
  | aluCmp (l : Fin 128) (d : Fin 16) (b : AluB)
  /-- ALU_TST (R94): The flags are set from rd AND b. -/
  | aluTst (l : Fin 128) (d : Fin 16) (b : AluB)
  /-- ALU_SHL (R94): rd is shifted left by b. -/
  | aluShl (l : Fin 128) (d : Fin 16) (b : AluB)
  /-- ALU_SHR (R94): rd is shifted right by b with zero fill. -/
  | aluShr (l : Fin 128) (d : Fin 16) (b : AluB)
  /-- ALU_SAR (R94): rd is shifted right by b with sign fill. -/
  | aluSar (l : Fin 128) (d : Fin 16) (b : AluB)
  /-- ALU_MUL (R94): rd takes the low 16 bits of rd × b. -/
  | aluMul (l : Fin 128) (d : Fin 16) (b : AluB)
  /-- ALU_MULHU (R94): rd takes the high 16 bits of the unsigned product rd × b. -/
  | aluMulhu (l : Fin 128) (d : Fin 16) (b : AluB)
  /-- ADDI (R93): rd takes rd plus a sign-extended immediate, and the flags are set. -/
  | addi (l : Fin 128) (d : Fin 16) (n : BitVec 8)
  /-- MOVI (R93): rd takes a sign-extended immediate. -/
  | movi (l : Fin 128) (d : Fin 16) (n : BitVec 8)
  /-- CMPI (R93): The flags are set from rd minus a sign-extended immediate. -/
  | cmpi (l : Fin 128) (d : Fin 16) (n : BitVec 8)
  /-- SHL_IMM (R93): rd is shifted left by an immediate amount. -/
  | shlImm (l : Fin 128) (d n : Fin 16)
  /-- SHR_IMM (R93): rd is shifted right by an immediate amount with zero fill. -/
  | shrImm (l : Fin 128) (d n : Fin 16)
  /-- SAR_IMM (R93): rd is shifted right by an immediate amount with sign fill. -/
  | sarImm (l : Fin 128) (d n : Fin 16)
  /-- ROR_IMM (R93): rd is rotated right by an immediate amount. -/
  | rorImm (l : Fin 128) (d n : Fin 16)
  /-- LD (R91): A word is loaded through an addressing mode from data memory, scratch or a control word. -/
  | ld (l : Fin 128) (d : Fin 16) (ea : EA) (ecc : EccOutcome)
  /-- ST (R91): A word is stored through an addressing mode. -/
  | st (l : Fin 128) (d : Fin 16) (ea : EA) (ecc : EccOutcome)
  /-- ADDP (R93): An address pair takes a sign-extended 8-bit immediate added. -/
  | addp (l : Fin 128) (p : Fin 4) (n : BitVec 8)
  /-- ADDPR (R93): An address pair takes a register added, sign- or zero-extended. -/
  | addpr (l : Fin 128) (p : Fin 4) (i : Fin 16) (sx : Bool)
  /-- ADDPW (R93): An address pair takes a sign-extended 16-bit immediate added. -/
  | addpw (l : Fin 128) (p : Fin 4) (n : BitVec 16)
  /-- CMPP (R93): The flags are set from p − q on 32 bits. -/
  | cmpp (l : Fin 128) (p q : Fin 4)
  /-- BCC (R95): The sequencer branches when the condition holds. -/
  | bcc (l : Fin 128) (cond : Fin 15) (n : BitVec 8)
  /-- JMP (R93): The sequencer jumps to an immediate address. -/
  | jmp (l : Fin 128) (t : BitVec 16)
  /-- CALL (R93): w14 takes the return address and the sequencer jumps to an immediate address. -/
  | call (l : Fin 128) (t : BitVec 16)
  /-- JMPR (R93): The sequencer jumps to the address in a register. -/
  | jmpr (l : Fin 128) (i : Fin 16)
  /-- CALLR (R93): The sequencer calls the address in a register. -/
  | callr (l : Fin 128) (i : Fin 16)
  /-- DBNZ (R93): rd is decremented, and the sequencer branches if rd is not zero. -/
  | dbnz (l : Fin 128) (d : Fin 16) (n : BitVec 8)
  /-- ISSUE (R97): A command block is checked and copied into an engine's queue, with a stall while the queue is full. -/
  | issue (l : Fin 128) (e i c : Fin 16) (parity : Bool)
  /-- ISSUE_RESUME (R97): A stalled ISSUE completes when its engine queue has room. -/
  | issueResume (l : Fin 128)
  /-- WAITE (R108): The sequencer waits for the next epoch boundary. -/
  | waite (l : Fin 128)
  /-- WAITC (R105): The sequencer waits until a local counter reaches a threshold, optionally consuming it. -/
  | waitc (l : Fin 128) (c t : Fin 16) (consume : Bool)
  /-- WAITS (R105): The sequencer waits until a semaphore reaches a threshold, optionally consuming it. -/
  | waits (l : Fin 128) (m : Fin 64) (t : Fin 16) (consume : Bool)
  /-- WAITIDLE (R105): The sequencer waits until ENGBUSY reads 0. -/
  | waitidle (l : Fin 128)
  /-- FENCE (R93): The sequencer waits until every earlier write of the pavilion is acknowledged. -/
  | fence (l : Fin 128)
  /-- SIGNAL (R106): An ADD to a semaphore is queued with a fence scope, or a SIGNAL trap is raised. -/
  | signal (l : Fin 128) (t a : Fin 16) (all : Bool)
  /-- WAIT_COMPLETE (R105): The condition of a pending WAITC, WAITS, WAITIDLE or FENCE holds, and execution continues. -/
  | waitComplete (l : Fin 128)
  /-- WAIT_TIMEOUT (R105): A wait still pending after WTO × 1,024 cycles traps with cause WAIT. -/
  | waitTimeout (l : Fin 128)
  /-- SIGNAL_SEND (R68): A held semaphore ADD leaves the NI once its scope's fence is met. -/
  | signalSend (l : Fin 128)
  /-- SEQUENCER_RELEASE (R113): The management processor releases a held, loaded sequencer into WAITE. -/
  | sequencerRelease (l : Fin 128)
  /-- ENGINE_COMMAND_COMPLETE (R102): An engine command's results are written; its counter rises, and its signal is sent if SIG = 1. -/
  | engineCommandComplete (l : Fin 128) (e : Fin 16) (i : Fin 4)
  /-- FADD (R44): Vector floating-point add, rounded once. -/
  | fadd (l : Fin 128) (e : Fin 16)
  /-- FSUB (R44): Vector floating-point subtract. -/
  | fsub (l : Fin 128) (e : Fin 16)
  /-- FMUL (R44): Vector floating-point multiply. -/
  | fmul (l : Fin 128) (e : Fin 16)
  /-- FFMA (R44): Vector fused multiply-add with one rounding. -/
  | ffma (l : Fin 128) (e : Fin 16)
  /-- FMIN (R36): Vector IEEE minimum. -/
  | fmin (l : Fin 128) (e : Fin 16)
  /-- FMAX (R36): Vector IEEE maximum. -/
  | fmax (l : Fin 128) (e : Fin 16)
  /-- FCMPEQ (R59): Vector compare for equality, giving a lane mask. -/
  | fcmpeq (l : Fin 128) (e : Fin 16)
  /-- FCMPLT (R59): Vector compare for less-than, giving a lane mask. -/
  | fcmplt (l : Fin 128) (e : Fin 16)
  /-- FCMPLE (R59): Vector compare for less-or-equal, giving a lane mask. -/
  | fcmple (l : Fin 128) (e : Fin 16)
  /-- FCMPUN (R59): Vector compare for unordered, giving a lane mask. -/
  | fcmpun (l : Fin 128) (e : Fin 16)
  /-- SEL (R100): Vector select by lane mask. -/
  | sel (l : Fin 128) (e : Fin 16)
  /-- FABS (R59): Vector absolute value. -/
  | fabs (l : Fin 128) (e : Fin 16)
  /-- FNEG (R59): Vector negation. -/
  | fneg (l : Fin 128) (e : Fin 16)
  /-- FCOPYSIGN (R59): Vector copy of sign. -/
  | fcopysign (l : Fin 128) (e : Fin 16)
  /-- FDIV (R59): Vector correctly rounded division. -/
  | fdiv (l : Fin 128) (e : Fin 16)
  /-- FSQRT (R59): Vector correctly rounded square root. -/
  | fsqrt (l : Fin 128) (e : Fin 16)
  /-- EXP2 (R60): Vector approximate base-2 exponential. -/
  | exp2 (l : Fin 128) (e : Fin 16)
  /-- LOG2 (R60): Vector approximate base-2 logarithm. -/
  | log2 (l : Fin 128) (e : Fin 16)
  /-- RCP (R60): Vector approximate reciprocal. -/
  | rcp (l : Fin 128) (e : Fin 16)
  /-- RSQRT (R60): Vector approximate reciprocal square root. -/
  | rsqrt (l : Fin 128) (e : Fin 16)
  /-- IADD (R59): Vector 32-bit integer add. -/
  | iadd (l : Fin 128) (e : Fin 16)
  /-- ISUB (R59): Vector integer subtract. -/
  | isub (l : Fin 128) (e : Fin 16)
  /-- IAND (R59): Vector integer AND. -/
  | iand (l : Fin 128) (e : Fin 16)
  /-- IOR (R59): Vector integer OR. -/
  | ior (l : Fin 128) (e : Fin 16)
  /-- IXOR (R59): Vector integer XOR. -/
  | ixor (l : Fin 128) (e : Fin 16)
  /-- ISHL (R100): Vector integer shift left. -/
  | ishl (l : Fin 128) (e : Fin 16)
  /-- ISHR (R100): Vector integer logical shift right. -/
  | ishr (l : Fin 128) (e : Fin 16)
  /-- ISAR (R100): Vector integer arithmetic shift right. -/
  | isar (l : Fin 128) (e : Fin 16)
  /-- ICMPEQ (R100): Vector integer compare for equality. -/
  | icmpeq (l : Fin 128) (e : Fin 16)
  /-- ICMPLT (R100): Vector signed integer compare for less-than. -/
  | icmplt (l : Fin 128) (e : Fin 16)
  /-- IMUL (R59): Vector integer multiply, low 32 bits. -/
  | imul (l : Fin 128) (e : Fin 16)
  /-- CVT (R42): Vector format conversion, with stochastic rounding where named. -/
  | cvt (l : Fin 128) (e : Fin 16)
  /-- MXQ (R39): Vector quantization of two 32-element blocks to an MX format. -/
  | mxq (l : Fin 128) (e : Fin 16)
  /-- MXD (R40): Vector decode of MX blocks to FP32. -/
  | mxd (l : Fin 128) (e : Fin 16)
  /-- REDSUM (R51): Fixed pairwise sum over the lanes. -/
  | redsum (l : Fin 128) (e : Fin 16)
  /-- REDMAX (R59): Tree maximum over the lanes. -/
  | redmax (l : Fin 128) (e : Fin 16)
  /-- REDMIN (R59): Tree minimum over the lanes. -/
  | redmin (l : Fin 128) (e : Fin 16)
  /-- IMM (R100): Every lane is set from a 32-bit immediate. -/
  | imm (l : Fin 128) (e : Fin 16)
  /-- ACC2V (R58): An accumulator is copied to four vector registers. -/
  | acc2v (l : Fin 128) (e : Fin 16)
  /-- V2ACC (R58): Four vector registers are copied to an accumulator. -/
  | v2acc (l : Fin 128) (e : Fin 16)
  /-- TILE_STEP (R61): One matrix tile step accumulates A × B into an accumulator. -/
  | tileStep (l : Fin 128) (e : Fin 16) (errs : List LineErr)
  /-- ACC_CLEAR (R99): An accumulator is cleared to +0. -/
  | accClear (l : Fin 128) (e : Fin 16)
  /-- VLOAD (R99): A vector register is loaded from four scratch lines. -/
  | vload (l : Fin 128) (e : Fin 16) (errs : List LineErr)
  /-- VSTORE (R99): A vector register is stored to four scratch lines. -/
  | vstore (l : Fin 128) (e : Fin 16)
  /-- ALOAD (R99): An accumulator is loaded from 16 scratch lines. -/
  | aload (l : Fin 128) (e : Fin 16) (errs : List LineErr)
  /-- ASTORE (R99): An accumulator is stored to 16 scratch lines. -/
  | astore (l : Fin 128) (e : Fin 16)
  /-- GET (R494): A mesh transfer reads COUNT lines from a device-physical address into scratch. -/
  | get (l : Fin 128) (e : Fin 16) (bad : List LineFail)
  /-- PUT (R208): A mesh transfer writes COUNT scratch lines to a device-physical address and issues them all once begun. -/
  | put (l : Fin 128) (e : Fin 16) (errs : List LineErr) (bad : List LineFail)
  /-- GEN_SETUP (R99): The engine's generator key, STEP and PURPOSE are loaded. -/
  | genSetup (l : Fin 128) (e : Fin 16)
  /-- TIMESYNC_EXCHANGE (R115): Every 1,024 ticks a non-root device sends a timestamp request to its parent. -/
  | timesyncExchange
  /-- TIMESYNC_REQUEST_RX (R115): A parent receives a timestamp request and replies with its stamps, LOCKED and DEPTH. -/
  | timesyncRequestRx (p : Fin 24) (t1 t2 : Int)
  /-- TIMESYNC_REPLY_RX (R115): A child computes θ and steps or slews its counter. -/
  | timesyncReplyRx (r : TsReply)
  /-- TB_HOLD_EXPIRE (R115): The hold of the counter for a negative θ ends, and the counter counts on. -/
  | tbHoldExpire
  /-- TIME_PULSE (R118): gpio[31] is driven high at each pulse-period tick while PULSE_EN is set. -/
  | timePulse
  /-- TIME_PULSE_END (R118): gpio[31] falls 8 ticks after the pulse started. -/
  | timePulseEnd
  /-- SCH_LOAD (R132): A keyed SCH_CTRL LOAD starts reading and checking the schedule image. -/
  | schLoad (v : BitVec 32)
  /-- SCH_LOAD_END (R135): A load ends: armed with an ARMED notice, or refused with a status and a report. -/
  | schLoadEnd (rd : Status) (chk : Fin 16)
  /-- SCH_ABORT (R145): A loading or armed image is discarded. -/
  | schAbort (v : BitVec 32)
  /-- SCH_STOP (R145): RUN becomes STOPPING, and the schedule stops at the next step boundary. -/
  | schStop (v : BitVec 32)
  /-- SCH_CLEAR (R145): RUN returns from HALTED to IDLE. -/
  | schClear (v : BitVec 32)
  /-- SCH_ACTIVATE (R136): At SCH_ACT_TB an armed image activates from IDLE, or is discarded, by the ARMED-notice test. -/
  | schActivate
  /-- EPOCH_BOUNDARY (R138): The closing epoch is checked, the step may commit, the pending table becomes active, the counters advance and the next fill begins. -/
  | epochBoundary
  /-- PENDING_FILL_END (R138): Filling of the pending table from the schedule store ends, or fails with cause FILL. -/
  | pendingFillEnd (ok : Bool)
  /-- REPLAY_BOUNDARY (R141): At T_r the faulted epoch is ended and the step is reopened with the attempt advanced. -/
  | replayBoundary
  /-- ARMED_NOTICE_RX (R170): An ARMED notice is accepted by its number, kept for the activation test and flooded on. -/
  | armedNoticeRx (p : Fin 24) (n : Notice)
  /-- FAULT_NOTICE_RX (R141): A FAULT notice is accepted for the current step and attempt, or handled as late, or discarded. -/
  | faultNoticeRx (p : Fin 24) (n : Notice)
  /-- PACE_NOTICE_RX (R143): A PACE notice updates the pace level of its origin, or faults with cause LATE_NOTICE. -/
  | paceNoticeRx (p : Fin 24) (n : Notice)
  /-- GEN_NOTICE_RX (R178): A GEN notice updates FAB_GEN, forgets the origin's notice numbers and fails requests held to the origin. -/
  | genNoticeRx (p : Fin 24) (n : Notice)
  /-- PACE_REQ_WRITE (R143): A write to SCH_PACE_REQ changes the device's level, which is flooded at once. -/
  | paceReqWrite (v : BitVec 32)
  /-- MOVE_START (R495): A free bulk-move channel takes a move whose START slot has come. -/
  | moveStart (i : Nat)
  /-- MOVE_COMPLETE (R495): Every write of a move is acknowledged; SIG is sent and the channel is freed. -/
  | moveComplete (i : Nat) (st : Status)
  /-- SLOT_TRANSMIT (R153): At each slot each port sends sown run flits and fills the free positions with retransmissions, control and volunteer flits. -/
  | slotTransmit
  /-- FLIT_RECEIVE (R151): A flit arrives; its CRC is checked or corrected, and missing SEQs are detected. -/
  | flitReceive (p : Fin 24) (slot : Nat) (pos : Fin 2) (q : Fin 1024) (bytes : List (BitVec 8))
  /-- FLIT_RELEASE (R159): The elastic buffer releases a flit in its receive slot, and it is handled by class. -/
  | flitRelease (p : Fin 24) (ecc tab : EccOutcome)
  /-- NAK_RECEIVE (R155): A NAK schedules retransmission of the named flits, or makes the port retrain. -/
  | nakReceive (p : Fin 24) (seqs : List (BitVec 10))
  /-- CREDIT_RECEIVE (R166): A CREDIT flit returns volunteer credits. -/
  | creditReceive (p : Fin 24) (n : List Nat)
  /-- VOLUNTEER_PACKET_RECEIVE (R167): A volunteer packet is delivered, forwarded by the routing table, or discarded. -/
  | volunteerPacketReceive (p : Fin 24) (k : VolPacket) (tab : EccOutcome)
  /-- ROUTED_MESSAGE_RECEIVE (R167): A ROUTED control message is delivered to the management processor or forwarded on CTRL_PORT. -/
  | routedMessageReceive (p : Fin 24) (m : RoutedMsg)
  /-- FAB_RT_COMMIT (R168): The inactive routing bank is committed, at once or at the next boundary. -/
  | fabRtCommit (v : BitVec 32)
  /-- FAB_PORT_ENABLE (R172): Writing ENABLE = 1 starts DETECT on a fabric port. -/
  | fabPortEnable (p : Fin 24) (v : BitVec 32)
  /-- FAB_PORT_DISABLE (R172): Writing ENABLE = 0 puts a fabric port in DISABLED. -/
  | fabPortDisable (p : Fin 24) (v : BitVec 32)
  /-- FAB_PORT_RETRAIN (R172): RETRAIN takes a port to EQUALIZE with its saved coefficients. -/
  | fabPortRetrain (p : Fin 24) (v : BitVec 32)
  /-- FAB_DETECT_POLL (R172): Every 1 ms a port in DETECT looks for a partner. -/
  | fabDetectPoll (p : Fin 24) (found : Bool)
  /-- FAB_TRAIN_STATE_DONE (R172): A training state completes: the port advances, or fails with a REASON. -/
  | fabTrainStateDone (p : Fin 24) (x : TrainX)
  /-- FAB_TRAIN_TIMEOUT (R172): A training state exceeds its longest time, and the port goes to FAILED with REASON 2. -/
  | fabTrainTimeout (p : Fin 24)
  /-- FAB_LANE_FAULT (R158): A loss of lock or a lane fault takes the port out of ACTIVE to retrain. -/
  | fabLaneFault (p : Fin 24) (lane : Fin 4)
  /-- FAB_DEVNUM_WRITE (R175): FAB_DEVNUM is written, or the write is ignored if any port is enabled. -/
  | fabDevnumWrite (v : BitVec 32)
  /-- MEM_REQUEST (R216): A GDDR7 request is served with sown priority, CRC retry and ECC handling. -/
  | memRequest (q : MemReq)
  /-- GDDR7_TRAIN_DONE (R218): GDDR7 training ends; READY is set or stays 0, and a failed fast start falls back to full training. -/
  | gddr7TrainDone (x : GddrX)
  /-- MEM_TRAIN_SAVE (R218): A keyed MEM_TRAIN_CTRL.SAVE stores the training settings in flash. -/
  | memTrainSave (v : BitVec 32)
  /-- GDDR7_REFRESH (R217): A refresh interval expires, and the devices are refreshed. -/
  | gddr7Refresh (g : Fin 12) (celsius : Int)
  /-- GDDR7_TRACKING (R217): Every 50 ms data-eye timing and PAM3 levels are re-centred. -/
  | gddr7Tracking (g : Fin 12)
  /-- PATROL_SCRUB (R217): Patrol scrub reads the populated range. -/
  | patrolScrub (addr : BitVec 64) (o : EccOutcome)
  /-- CXL_PORT_ENABLE (R221): Writing CXM_PORT_CTRL.ENABLE = 1 starts training of a CXL port. -/
  | cxlPortEnable (n : Fin 2) (v : BitVec 32)
  /-- CXL_PORT_DISABLE (R221): Writing ENABLE = 0 disables a CXL port. -/
  | cxlPortDisable (n : Fin 2) (v : BitVec 32)
  /-- CXL_PORT_ACTIVE (R221): A CXL port reaches ACTIVE or FAILED, and its populated range is fixed. -/
  | cxlPortActive (n : Fin 2) (x : CxlX)
  /-- CXL_LINK_DOWN (R222): A CXL port leaves ACTIVE; outstanding requests fail with TARGET_RESET. -/
  | cxlLinkDown (n : Fin 2)
  /-- CXL_EVENT_RECORD (R222): A CXL event record is copied into the trouble log. -/
  | cxlEventRecord (n : Fin 2) (rec : List (BitVec 8)) (ce : Nat)
  /-- CXL_REQUEST (R223): A CXL request is served under sown priority and partition credits; poison gives DATA_ERROR. -/
  | cxlRequest (q : MemReq)
  /-- CXM_CREDIT_WRITE (R223): A partition's CXL credit limit is set, or the write is ignored above 8,192 in total. -/
  | cxmCreditWrite (p : Fin 65) (v : BitVec 32)
  /-- CXM_SVC_MASK_WRITE (R235): The service pavilions are set and loaded, or the write is ignored while a schedule is present. -/
  | cxmSvcMaskWrite (k : Fin 2) (v : BitVec 64)
  /-- MEM_PT_WRITE (R226): A placement table register is written, or ignored unless the partition is frozen or unassigned. -/
  | memPtWrite (p : Fin 65) (len : Bool) (v : BitVec 64)
  /-- MIGRATE (R227): A partition-0 command starts copying a placement page to a new page. -/
  | migrate (c : Nat)
  /-- MIGRATE_COMPLETE (R228): The copy ends; the entry switches in one write and held writes proceed. -/
  | migrateComplete (c : Nat) (ue : Option (BitVec 64))
  /-- SEAL (R233): A granary page and its summary are written, and the sealed count advances for a full page. -/
  | seal (c : Nat) (rd : Status) (line : BitVec 64)
  /-- ATTEND (R236): Cold-context attention over the selected granary pages. -/
  | attend (c : Nat) (rd : Status) (line : BitVec 64)
  /-- SERVICE_REQUEST_START (R235): A waiting SEAL or ATTEND starts on a free service pavilion. -/
  | serviceRequestStart
  /-- SHEAF (R248): A checkpoint is accepted, with its snapshot at acceptance or at the next commit. -/
  | sheaf (c : Nat)
  /-- DIVERSION_COMPLETE (R255): The granule copy ends; the granule is SAVED and the held write is released. -/
  | diversionComplete (g : Nat) (st : Status) (line : Fin 1024)
  /-- RESERVE_SLOT_FREE (R256): A reserve slot frees, and a write waiting for a diversion proceeds. -/
  | reserveSlotFree (slot : Nat)
  /-- SHEAF_STALL_LIMIT (R256): The sown stall count reaches the allowance, and the sheaf is abandoned with cause RESERVE. -/
  | sheafStallLimit
  /-- GRANULE_BACKGROUND_READ (R254): The background copy captures a granule, which becomes SAVED. -/
  | granuleBackgroundRead (g : Nat) (st : Status) (line : Fin 1024)
  /-- SHARD_WRITE_DONE (R263): A compressed shard is written to the destination, or the sheaf is abandoned with cause SPACE or DEST. -/
  | shardWriteDone (ok : Bool)
  /-- SHEAF_SHARDS_DURABLE (R265): All shards are durable; the sheaf flushes and writes the signed manifest. -/
  | sheafShardsDurable (ok : Bool)
  /-- MANIFEST_DURABLE (R268): The manifest is durable, and the sheaf commits with OK. -/
  | manifestDurable (ok : Bool)
  /-- CKP_ABANDON (R252): A keyed CKP_CTRL.ABANDON abandons the open sheaf with cause OPERATOR. -/
  | ckpAbandon (v : BitVec 32)
  /-- CE_TRIGGER (R253): Corrected errors reach CKP_CE_LIMIT within a window, and an automatic sheaf starts or is skipped. -/
  | ceTrigger (ce : Nat)
  /-- CE_WINDOW_END (R253): A corrected-error window of CKP_CE_WINDOW ms ends, and the count restarts. -/
  | ceWindowEnd
  /-- RESTORE_SELECT (R270): The newest complete authentic manifest is chosen, and every slot is reported. -/
  | restoreSelect (c : Nat) (ns : List NsPiece)
  /-- RESTORE_LOAD (R273): A manifest's shards are verified and decoded to their destinations. -/
  | restoreLoad (c : Nat) (ns : List NsPiece)
  /-- HIF_CTRL_PF_WRITE (R279): The control function moves to the other function when the conditions hold. -/
  | hifCtrlPfWrite (fn : Fin 2) (v : BitVec 32)
  /-- BAR4_ACCESS (R284): A host access to BAR4 is translated by a window, or missed. -/
  | bar4Access (fn : Fin 2) (x : TlpX)
  /-- BAR4_RESIZE (R284): BAR4's size is changed while Memory Space Enable is 0. -/
  | bar4Resize (fn : Fin 2) (sizeLog2 : Nat)
  /-- ROM_READ (R285): An expansion ROM read is served from flash, suspending programming. -/
  | romRead (fn : Fin 2) (off len : Nat)
  /-- PCIE_COMPLETION_RX (R291): A completion for a device read is accepted, or discarded as late or stale. -/
  | pcieCompletionRx (k : Fin 18) (x : CplX)
  /-- COMPLETION_TIMEOUT (R290): A read's timeout expires; the operation fails with TIMEOUT and its tag is quarantined. -/
  | completionTimeout (k : Fin 18) (tag : Nat)
  /-- TAG_QUARANTINE_END (R290): A quarantined tag becomes free. -/
  | tagQuarantineEnd (k : Fin 18) (tag : Nat)
  /-- DCFG_READ (R295): An accelerator configuration read is started through HIF_DCFG_ADDR. -/
  | dcfgRead (v : BitVec 32)
  /-- DCFG_WRITE (R295): An accelerator configuration write is started through HIF_DCFG_ADDR. -/
  | dcfgWrite (v : BitVec 32)
  /-- DCFG_CRS_TIMEOUT (R292): Configuration Request Retry Status persists for 1 s, and the access fails with TIMEOUT. -/
  | dcfgCrsTimeout
  /-- DS_SPLIT_WRITE (R293): A downstream port's split is set, or the write is ignored outside EMPTY and OFF. -/
  | dsSplitWrite (n : Fin 8) (v : BitVec 32)
  /-- SLOT_PRESENCE_CHANGE (R300): Debounced presence changes: OFF on arrival, or surprise removal to EMPTY. -/
  | slotPresenceChange (a : Fin 16) (present button : Bool)
  /-- SLOT_BUTTON_PRESS (R300): An attention button press sets ABP and raises an event. -/
  | slotButtonPress (a : Fin 16)
  /-- SLOT_POWER_ON (R298): A slot in OFF is powered with its reset held, and enters POWERING. -/
  | slotPowerOn (a : Fin 16) (v : BitVec 32)
  /-- SLOT_POWER_OFF (R298): A slot's reset is asserted and the slot enters OFF. -/
  | slotPowerOff (a : Fin 16) (v : BitVec 32)
  /-- SLOT_POWER_REMOVE (R298): Slot power is removed 1 ms after power-off. -/
  | slotPowerRemove (a : Fin 16)
  /-- SLOT_RESET_RELEASE (R297): After 100 ms in POWERING the reset is released, and the slot enters TRAINING. -/
  | slotResetRelease (a : Fin 16)
  /-- SLOT_LINK_UP (R297): A slot's link comes up, and enumeration follows after 100 ms. -/
  | slotLinkUp (a : Fin 16) (rate width : Nat)
  /-- SLOT_ENUMERATE (R294): The accelerator's BARs are assigned, and the slot enters READY or FAILED. -/
  | slotEnumerate (a : Fin 16) (bars : Option (List Nat))
  /-- SLOT_TRAIN_TIMEOUT (R297): No link within 1 s, and the slot fails. -/
  | slotTrainTimeout (a : Fin 16)
  /-- SLOT_LINK_LOST (R299): A READY slot loses its link; GEN advances and its requests fail. -/
  | slotLinkLost (a : Fin 16)
  /-- WIN_COMMIT (R301): A keyed commit checks the shadow window and schedules it. -/
  | winCommit (v : BitVec 32)
  /-- WIN_SWITCH (R302): The committed window settings take effect between transactions, and BUSY clears. -/
  | winSwitch
  /-- INBOUND_ACCESS (R303): An accelerator access is translated by its slot's windows, or missed. -/
  | inboundAccess (a : Fin 16) (x : TlpX)
  /-- GET_VERSION (R304): SPDM GET_VERSION request. -/
  | getVersion (fn : Fin 2) (m : SpdmMsg)
  /-- GET_CAPABILITIES (R304): SPDM GET_CAPABILITIES request. -/
  | getCapabilities (fn : Fin 2) (m : SpdmMsg)
  /-- NEGOTIATE_ALGORITHMS (R304): SPDM NEGOTIATE_ALGORITHMS request. -/
  | negotiateAlgorithms (fn : Fin 2) (m : SpdmMsg)
  /-- GET_DIGESTS (R409): SPDM GET_DIGESTS request for the certificate chain. -/
  | getDigests (fn : Fin 2) (m : SpdmMsg)
  /-- GET_CERTIFICATE (R409): SPDM GET_CERTIFICATE request, returning slot 0's chain. -/
  | getCertificate (fn : Fin 2) (m : SpdmMsg)
  /-- CHALLENGE (R410): SPDM CHALLENGE, signed with the Alias L1 key. -/
  | challenge (fn : Fin 2) (m : SpdmMsg)
  /-- GET_MEASUREMENTS (R410): SPDM GET_MEASUREMENTS returns measurement blocks 1 to 9. -/
  | getMeasurements (fn : Fin 2) (m : SpdmMsg)
  /-- KEY_EXCHANGE (R304): SPDM KEY_EXCHANGE opens a secure session. -/
  | keyExchange (fn : Fin 2) (m : SpdmMsg)
  /-- FINISH (R304): SPDM FINISH completes session establishment. -/
  | finish (fn : Fin 2) (m : SpdmMsg)
  /-- HEARTBEAT (R304): SPDM HEARTBEAT request. -/
  | heartbeat (fn : Fin 2) (m : SpdmMsg)
  /-- KEY_UPDATE (R304): SPDM KEY_UPDATE request. -/
  | keyUpdate (fn : Fin 2) (m : SpdmMsg)
  /-- END_SESSION (R304): SPDM END_SESSION ends a session. -/
  | endSession (fn : Fin 2) (m : SpdmMsg)
  /-- DOE_ABORT (R304): A DOE Abort aborts the object in progress. -/
  | doeAbort (fn : Fin 2)
  /-- IDE_KM (R305): Link IDE keys are delivered by IDE_KM within a secure session. -/
  | ideKm (fn : Fin 2) (m : SpdmMsg)
  /-- SQ_DOORBELL (R310): A new SQ tail is taken, or the write is discarded, or the SQ enters ERROR. -/
  | sqDoorbell (fn : Fin 2) (p : Fin 65) (q : Nat) (v : BitVec 32)
  /-- CQ_DOORBELL (R311): A new CQ head is taken, or the CQ enters ERROR. -/
  | cqDoorbell (fn : Fin 2) (p : Fin 65) (q : Nat) (v : BitVec 32)
  /-- QUEUE_VERSION_WRITE (R319): A queue-interface version is negotiated through QUE_PW_VERSION. -/
  | queueVersionWrite (fn : Fin 2) (p : Fin 65) (v : BitVec 32)
  /-- PW_CTR_WRITE (R309): A partition counter is written, or the write is discarded while the partition is frozen. -/
  | pwCtrWrite (fn : Fin 2) (p : Fin 65) (i : Fin 16) (size : Nat) (v : BitVec 64)
  /-- DESCRIPTOR_FETCH (R312): The device fetches descriptors from an SQ when the fetch conditions hold, in service order. -/
  | descriptorFetch (late : Option (Fin 65 × Nat)) (st : Status)
  /-- COMMAND_START (R336): A fetched command starts once its fence and committed bucket allow, or is refused by policy. -/
  | commandStart (c : Nat) (buf : EccOutcome)
  /-- COMMAND_COMPLETE (R316): A command's completion entry is written with PHASE, status and wait. -/
  | commandComplete (c : Nat) (wr : Status)
  /-- MSIX_COALESCE_TIMEOUT (R317): COAL_US expires, and the CQ's MSI-X message is sent. -/
  | msixCoalesceTimeout (p : Fin 65) (q : Nat)
  /-- QUE_ADMIN_ENABLE (R323): Setting QUE_ADMIN_CTRL.ENABLE activates partition 0's admin pair. -/
  | queAdminEnable (v : BitVec 32)
  /-- CMD_NOP (R315): The NOP command completes OK with RESULT 0. -/
  | cmdNop (c : Nat)
  /-- PART_CREATE (R325): A tenant partition is created with its limits and vectors. -/
  | partCreate (c : Nat)
  /-- PART_DESTROY (R327): A partition is destroyed; its queues are freed and its placement and credits cleared. -/
  | partDestroy (c : Nat)
  /-- QUEUE_CREATE (R325): An SQ or CQ is created. -/
  | queueCreate (c : Nat)
  /-- QUEUE_DELETE (R321): An SQ starts draining, or a CQ is freed. -/
  | queueDelete (c : Nat)
  /-- SQ_DRAIN_DONE (R321): A draining SQ's fetched commands have all completed; it is FREE and the DELETE completes. -/
  | sqDrainDone (p : Fin 65) (q : Nat)
  /-- QUEUE_RESET (R321): A queue in ERROR returns to ACTIVE with zeroed indices. -/
  | queueReset (c : Nat)
  /-- PART_FREEZE (R330): A partition enters FREEZING, and a FREEZE_PENDING event is written. -/
  | partFreeze (c : Nat)
  /-- FREEZE_GRACE_END (R330): The grace period ends, and fetching stops. -/
  | freezeGraceEnd (p : Fin 65)
  /-- FREEZE_DRAINED (R330): The fetched commands have drained; the partition is FROZEN and the FREEZE completes OK. -/
  | freezeDrained (p : Fin 65)
  /-- FREEZE_DRAIN_TIMEOUT (R330): The drain exceeds DRAIN_MS; the FREEZE completes with TIMEOUT and the partition returns to ACTIVE. -/
  | freezeDrainTimeout (p : Fin 65)
  /-- PART_SAVE (R331): The partition state blob is written. -/
  | partSave (c : Nat)
  /-- PART_RESTORE (R333): A blob is checked and restored into an UNASSIGNED partition, which becomes FROZEN. -/
  | partRestore (c : Nat)
  /-- PART_RESUME (R334): A FROZEN partition becomes ACTIVE, and its recorded tails are acted on. -/
  | partResume (c : Nat)
  /-- PART_RESET (R328): A partition is reset: GEN advances and its fetched commands are cancelled. -/
  | partReset (c : Nat)
  /-- PART_LIMITS (R325): A partition's weight and rates are changed. -/
  | partLimits (c : Nat)
  /-- QP_CREATE (R341): A queue pair is created. -/
  | qpCreate (c : Nat)
  /-- QP_MODIFY (R342): A queue pair changes state and attributes. -/
  | qpModify (c : Nat)
  /-- QP_DESTROY (R341): A queue pair is destroyed, and its QPN is held. -/
  | qpDestroy (c : Nat)
  /-- QPN_HOLD_END (R341): 8 ms after destruction a QPN may be given out again. -/
  | qpnHoldEnd (qpn : Nat)
  /-- MR_REG (R344): A memory region is registered and its RKEY returned. -/
  | mrReg (c : Nat)
  /-- MR_DEREG (R344): A memory region is deregistered. -/
  | mrDereg (c : Nat)
  /-- SEND (R343): An RDMA SEND work request. -/
  | send (c : Nat) (rd : Status)
  /-- SEND_IMM (R343): An RDMA SEND with immediate. -/
  | sendImm (c : Nat) (rd : Status)
  /-- RDMA_WRITE (R343): An RDMA WRITE work request. -/
  | rdmaWrite (c : Nat) (rd : Status)
  /-- WRITE_IMM (R343): An RDMA WRITE with immediate. -/
  | writeImm (c : Nat) (rd : Status)
  /-- RDMA_READ (R343): An RDMA READ work request. -/
  | rdmaRead (c : Nat)
  /-- FETCH_ADD (R343): A 64-bit fetch-and-add atomic. -/
  | fetchAdd (c : Nat)
  /-- CMP_SWAP (R343): A 64-bit compare-and-swap atomic. -/
  | cmpSwap (c : Nat)
  /-- RECV (R340): A receive buffer is posted and completes when a message consumes it. -/
  | recv (c : Nat)
  /-- RDMA_PACKET_RECEIVE (R339): An RDMA packet arrives on Ethernet or the fabric and is placed, acknowledged or refused. -/
  | rdmaPacketReceive (k : RdmaPkt)
  /-- QPC_FETCH_DONE (R347): A QP context arrives on die, and the packets waiting for it are processed. -/
  | qpcFetchDone (qpn : Nat)
  /-- QPC_FETCH_TIMEOUT (R347): A context fetch exceeds 50 µs; its packets are dropped. -/
  | qpcFetchTimeout (qpn : Nat)
  /-- RETX_TIMEOUT (R349): The retransmission timer expires: retransmit, or fail with TIMEOUT. -/
  | retxTimeout (qpn : Nat)
  /-- RNR_TIMER_EXPIRE (R350): The RNR suspension ends, and unacknowledged packets are resent. -/
  | rnrTimerExpire (qpn : Nat)
  /-- RD_MESSAGE_ABANDON (R354): An in-progress reliable-datagram message is abandoned after 2 × KEEP_US. -/
  | rdMessageAbandon (k : Nat)
  /-- RD_KEEP_EXPIRE (R355): A sender's reliable-datagram message reaches KEEP_US unacknowledged, and completes with TIMEOUT. -/
  | rdKeepExpire (c : Nat)
  /-- WAIT_RELEASE (R356): A held WAIT work request starts when its CQ count reaches VAL. -/
  | waitRelease (c : Nat)
  /-- TRIG_HOLD_EXPIRE (R357): An early-trigger entry expires unused, and TRIG_EXPIRED is raised. -/
  | trigHoldExpire (p : Fin 65) (tag : BitVec 32)
  /-- CC_RECOVER (R358): After RECOVER_US without a CNP the sending rate rises by ADD. -/
  | ccRecover (qpn : Nat)
  /-- NS_ATTACH (R362): An NVMe-oF namespace association is connected. -/
  | nsAttach (c : Nat) (x : Option NsConn)
  /-- NS_DETACH (R362): A namespace association is removed. -/
  | nsDetach (c : Nat)
  /-- NS_ATTACH_TIMEOUT (R362): The target cannot be reached within 10 s, and NS_ATTACH completes with TIMEOUT. -/
  | nsAttachTimeout (c : Nat)
  /-- NS_ASSOC_LOST (R362): An association is lost; its commands fail and NS_DOWN is raised. -/
  | nsAssocLost (ns : Fin 256)
  /-- NS_RECONNECT (R362): A reconnection attempt every 1 s; NS_UP on success. -/
  | nsReconnect (ns : Fin 256) (ok : Bool)
  /-- NS_RECONNECT_GIVEUP (R362): After 60 s without success NS_FAILED is raised. -/
  | nsReconnectGiveup (ns : Fin 256)
  /-- NVME_READ (R363): An NVMe read is cut into pieces over the namespace's queue pairs. -/
  | nvmeRead (c : Nat) (pieces : List NvmePiece)
  /-- NVME_WRITE (R363): An NVMe write is cut into pieces over the namespace's queue pairs. -/
  | nvmeWrite (c : Nat) (pieces : List NvmePiece) (rd : Status)
  /-- NVME_FLUSH (R363): An NVMe flush of a namespace. -/
  | nvmeFlush (c : Nat) (st : BitVec 16)
  /-- ETH_FRAME_RECEIVE (R367): An Ethernet frame is received, checked, buffered, parsed, classified, policed and acted on. -/
  | ethFrameReceive (l : Fin 16) (f : EthFrame)
  /-- PFC_PAUSE_END (R367): The pause time of a received PFC frame expires, and the class transmits again. -/
  | pfcPauseEnd (l : Fin 16) (c : Fin 8)
  /-- MGMT_FRAME_RECEIVE (R369): An ARP, neighbour discovery, LLDP or PTP frame is taken by the management processor. -/
  | mgmtFrameReceive (l : Fin 16) (m : MgmtFrame)
  /-- NEXT_HOP_HOLD_EXPIRE (R369): A packet held 1 ms for an unresolved next hop is dropped. -/
  | nextHopHoldExpire (i : Nat)
  /-- PTP_EVENT_MESSAGE (R370): A PTP event message is timestamped and the PTP offset updated. -/
  | ptpEventMessage (l : Fin 16) (x : PtpMsg)
  /-- ETH_TX_SELECT (R386): At a transmit opportunity the scheduler chooses a frame and charges the shapers. -/
  | ethTxSelect (l : Fin 16) (sheaf : Option Nat)
  /-- BUCKET_REFILL (R384): Every 1,024 ticks the policer and shaper buckets are refilled. -/
  | bucketRefill
  /-- ETH_ENT_WRITE (R380): A staged table entry is written in VALID-last order. -/
  | ethEntWrite (v : BitVec 32)
  /-- ETH_ENT_READ (R379): A table entry is copied into the staging words. -/
  | ethEntRead (v : BitVec 32)
  /-- ETH_ENT_INVALIDATE (R380): A table entry's VALID is cleared. -/
  | ethEntInvalidate (v : BitVec 32)
  /-- ETH_ENT_DONE (R380): A table command ends, and BUSY clears. -/
  | ethEntDone
  /-- ETH_MODE_WRITE (R365): A physical port's mode is set, or the write is ignored while a logical port is enabled. -/
  | ethModeWrite (v : BitVec 32)
  /-- ETH_PROG_WRITE (R372): A parse program word is written, or the write is ignored if the program is in use. -/
  | ethProgWrite (n : Fin 2048) (v : BitVec 64)
  /-- ETH_GNODE_WRITE (R375): A graph node word is written while the graph parsers are disabled. -/
  | ethGnodeWrite (n : Fin 1024) (w : Fin 8) (v : BitVec 32)
  /-- ETH_PORT_ENABLE (R420): A logical Ethernet port trains, fully or from its saved record. -/
  | ethPortEnable (l : Fin 16) (v : BitVec 32)
  /-- ETH_LINK_CHANGE (R360): A logical port's link goes up or down, raising PORT_UP or PORT_DOWN. -/
  | ethLinkChange (l : Fin 16) (up : Bool)
  /-- SHAPER_WRITE (R389): A shaper register is written and takes effect at the next refill. -/
  | shaperWrite (i : Fin 4096) (v : BitVec 64)
  /-- POLICER_COMMIT (R389): A TRF_POL_SIZE write commits the policer's registers at the next refill. -/
  | policerCommit (i : Fin 4096) (v : BitVec 64)
  /-- CIP_ACQUIRE (R394): A path requests the cipher lock: granted, or waiting. -/
  | cipAcquire (path : CipPath) (v : BitVec 32)
  /-- CIP_RELEASE (R394): The holding path releases the lock, and it passes to a waiter. -/
  | cipRelease (path : CipPath) (v : BitVec 32)
  /-- CIP_LOCK_REVOKE (R395): The host's hold exceeds HOLD_MS while firmware waits; the lock passes to the waiter. -/
  | cipLockRevoke
  /-- CIP_TAIL_WRITE (R397): The holder announces descriptors by writing the tail. -/
  | cipTailWrite (path : CipPath) (v : BitVec 32)
  /-- CIP_RING_CTRL_WRITE (R397): The ring size is set and HEAD and TAIL are reset, unless a command is in flight. -/
  | cipRingCtrlWrite (path : CipPath) (v : BitVec 32)
  /-- ENC (R399): Raw AES encryption, checked on two cores. -/
  | enc (i : Nat) (f : CipFault)
  /-- DEC (R399): Raw AES decryption, checked on two cores. -/
  | dec (i : Nat) (f : CipFault)
  /-- GHASH (R399): GHASH accumulation. -/
  | ghash (i : Nat) (f : CipFault)
  /-- POLYVAL (R399): POLYVAL accumulation. -/
  | polyval (i : Nat) (f : CipFault)
  /-- KEY_LOAD (R399): A key slot is loaded in clear. -/
  | keyLoad (i : Nat) (f : CipFault)
  /-- KEY_UNWRAP (R399): A key slot is loaded by RFC 3394 unwrap. -/
  | keyUnwrap (i : Nat) (f : CipFault)
  /-- KEY_CLEAR (R399): A key slot is made invalid. -/
  | keyClear (i : Nat) (f : CipFault)
  /-- CTR (R399): CTR-mode stream. -/
  | ctr (i : Nat) (f : CipFault)
  /-- GCM_ENC (R399): GCM encryption with tag. -/
  | gcmEnc (i : Nat) (f : CipFault)
  /-- GCM_DEC (R401): GCM decryption through staging, with release only after the tag verifies. -/
  | gcmDec (i : Nat) (f : CipFault)
  /-- XTS_ENC (R399): XTS encryption. -/
  | xtsEnc (i : Nat) (f : CipFault)
  /-- XTS_DEC (R399): XTS decryption. -/
  | xtsDec (i : Nat) (f : CipFault)
  /-- CIP_CMD_DONE (R398): A cipher command writes STATUS, DETAIL and DONE, and the vector may follow. -/
  | cipCmdDone (i : Nat)
  /-- FW_STAGE (R435): A firmware package is checked and programmed into the inactive set. -/
  | fwStage
  /-- FW_ACTIVATE (R436): Activation of the staged set is scheduled. -/
  | fwActivate
  /-- FW_CANCEL (R438): A pending or deferred activation is withdrawn. -/
  | fwCancel
  /-- TRAIN_SAVE (R421): Training records of the selected active ports are saved. -/
  | trainSave
  /-- NET_CFG (R429): Gateways and prefixes of the logical ports are set. -/
  | netCfg
  /-- DIST_SEND (R426): A schedule image is sent down the timing tree. -/
  | distSend (full : List (BitVec 14))
  /-- DIST_RECV (R429): A receive area for distributed images is armed or disarmed. -/
  | distRecv
  /-- DIST_SEGMENT_RECEIVE (R426): A distributed image segment is checked, stored and forwarded to children. -/
  | distSegmentReceive (x : DistSeg)
  /-- EMU_CMD_DONE (R428): An EMU command writes its result and updates EMU_STATUS, and EMU_DONE is raised. -/
  | emuCmdDone
  /-- FW_ACTIVATION (R436): At the next boundary, or at once, the directory switches and the lodge processors restart into the new set. -/
  | fwActivation
  /-- FW_DEFERRED_ACTIVATE (R437): After the emergency has been clear for 5 s, a deferred activation takes place. -/
  | fwDeferredActivate
  /-- LODGE_WATCHDOG_EXPIRE (R439): A lodge watchdog expires and a restart begins, or escalates to a warm reset. -/
  | lodgeWatchdogExpire (c : Lodge)
  /-- LODGE_FAULT (R439): A double fault or memory error in a lodge processor starts a restart. -/
  | lodgeFault (c : Lodge) (mem : Bool)
  /-- LODGE_RESTART_DONE (R439): The processor is RUNNING again, and LODGE_RESTART is raised. -/
  | lodgeRestartDone (c : Lodge)
  /-- EVENT_SOURCE_INPUT (R430): An event source's level or edge updates PENDING. -/
  | eventSourceInput (n : Fin 512) (level : Bool)
  /-- EVENT_DELIVER (R431): The lowest enabled pending source is delivered to the core. -/
  | eventDeliver (c : Lodge)
  /-- CORE_WAKE (R432): A sleeping lodge core wakes on an enabled pending source. -/
  | coreWake (c : Lodge)
  /-- LDG_EV_SRC_WRITE (R430): A source's SENSE, ENABLE or PENDING is written; a SENSE change clears PENDING. -/
  | ldgEvSrcWrite (c : Lodge) (n : Fin 512) (v : BitVec 32)
  /-- LOADER_SEGMENT (R423): A pavilion loader checks and stores a segment. -/
  | loaderSegment (l : Fin 128) (x : LoadSeg)
  /-- LOADER_REPORT (R423): A loader verifies its digests and reports its bitmap. -/
  | loaderReport (l : Fin 128)
  /-- LOADER_REPORT_TIMEOUT (R423): 100 µs without a report counts the bitmap as empty. -/
  | loaderReportTimeout (l : Fin 128)
  /-- REPAIR_ROUND (R423): Missing segments are sent by unicast, and new reports are taken. -/
  | repairRound
  /-- VOLTAGE_LOOP (R442): The core voltage is trimmed to the timing monitors. -/
  | voltageLoop (low : List Nat)
  /-- VOUT_BOOST_STEP (R442): The core command rises one step before a rising-class boundary. -/
  | voutBoostStep
  /-- VOUT_BOOST_RELEASE (R442): 20 ms after the boundary the addition is lowered step by step. -/
  | voutBoostRelease
  /-- SENSOR_SCAN (R443): Every 10 µs the hardware reads all junction sensors. -/
  | sensorScan (r : List Int)
  /-- CLAMP_RELEASE (R444): After 10 ms below 102 °C the clamp is released. -/
  | clampRelease
  /-- TJ_SAMPLE (R443): Every 1 ms TJ is read into PWR_TJ. -/
  | tjSample
  /-- FEEDFORWARD_EVAL (R447): Every 100 ms the pump duty and buffer plan are computed from coming records. -/
  | feedforwardEval
  /-- JUNCTION_LOOP (R451): The 100 Hz PI loop turns TJ into a pace request. -/
  | junctionLoop
  /-- COOLANT_LOOP (R451): The 10 Hz PI loop trims the pump from the outlet temperature. -/
  | coolantLoop (x : CoolIn)
  /-- NODE_POWER_LOOP (R449): The 100 Hz loop commands the buffer converter. -/
  | nodePowerLoop (x : NodeIn)
  /-- PACE_LOWER (R450): Once per second a lower pace request is flooded one level down. -/
  | paceLower
  /-- TACH_FLOW_COUNT (R456): Each second the tachometer and flow pulses are counted. -/
  | tachFlowCount (tach flow : Nat)
  /-- MCTP_REQUEST (R472): A PLDM request over MCTP is answered by the management processor. -/
  | mctpRequest (m : MctpMsg)
  /-- LOG_READ_VDM (R474): A vendor-defined MCTP message reads up to 8 log entries. -/
  | logReadVdm (p : MctpPort) (start count : Nat)
  /-- RESERVED_INSTRUCTION (R96): The sequencer executes a reserved encoding, which traps with cause RESERVED and has no effect. -/
  | reservedInstruction (l : Fin 128) (parity : Bool)
  /-- SCH_TS_CTRL_WRITE (R116): A write to SCH_TS_CTRL that sets or clears ROOT or changes PARENT_PORT sets or clears LOCKED, or is refused with INVALID_STATE while RUN is not IDLE. -/
  | schTsCtrlWrite (v : BitVec 32)
  /-- PART_RESET_COMPLETE (R328): The partition reset ends within 1 ms: the partition leaves RESETTING for ACTIVE, a PART_RESET event is written and the command completes OK. -/
  | partResetComplete (p : Fin 65)
  /-- QPC_WRITEBACK_DONE (R348): The write-back of an evicted QP context ends, its space is reused, and a context wanted meanwhile is fetched again. -/
  | qpcWritebackDone (qpn : Nat)
  /-- UPSTREAM_LINK_DOWN (R280): An upstream link goes down without PERST#; requests to that host's range fail and the link-change event source fires. -/
  | upstreamLinkDown (h : Fin 2)
  /-- CONFIGURATION_REQUEST (R416): A host configuration request to an upstream function is served, or completed with Configuration Request Retry Status before bring-up step 6. -/
  | configurationRequest (fn : Fin 2) (x : CfgX)
  /-- NS_KEEP_ALIVE (R361): The NVMe-oF initiator sends Keep Alive on each association within its KATO. -/
  | nsKeepAlive (ns : Fin 256)
  deriving DecidableEq, Repr

end Sys2Proof
end

