-- ==== Sys2Proof/Config.lean ====
section
/-! DEFINITION. What the spec leaves open: constants without a body, of which nothing can be proved but what
holds for every value. A stream of free values is read at `State.freeCtr`, which every use advances. -/

namespace Sys2Proof

/-- The free values, one for each count of `State.freeCtr`: contents of GDDR7 and CXL memory after a warm reset
(R13), random nonces, signatures the device makes (R410), staged bytes whose values the spec does not state.
(DESIGN CHOICE: log 4.) -/
opaque Config.free : Nat → Nat

/-- The payload of a control flit of a type, by the fields that it carries (R169): the spec gives the fields, and no layout.
(DESIGN CHOICE: log 158.) -/
opaque Config.ctrlPayload : Nat → List Nat → List Byte

/-- The kind of notice that the payload of a NOTICE flit names (R169).
(DESIGN CHOICE: log 158.) -/
opaque Config.noticeKind : List Byte → Nat

/-- The seed that ALIGN gives the scrambler of a lane (R152): the port, the lane, the slot of the ALIGN.
(DESIGN CHOICE: log 158.) -/
opaque Config.scramSeed : Nat → Nat → Nat → BitVec 31

/-- Has the function of the accelerator in a slot enabled Relaxed Ordering at a time (R287)? Its configuration is the accelerator's.
(DESIGN CHOICE: log 163.) -/
opaque Config.accelRo : Nat → Nat → Bool

/-- The bytes of a packet's headers that neither RoCEv2 nor the spec fixes, by their place from the BTH on (R339): the opcode and
the rest of a reliable-datagram acknowledgement, the event and migration bits, message sequence numbers.
(DESIGN CHOICE: log 159.) -/
opaque Config.rdmaHeader : RdmaTx → Nat → Byte

/-- The bytes of a RoCEv2 frame's IP and UDP headers that the standards leave to the sender (R339): 0 to 3 the identification and
the fragment word, 4 the time to live or the hop limit, 5 to 7 the flow label, 8 and 9 the UDP checksum.
(DESIGN CHOICE: log 159.) -/
opaque Config.roceHeader : RdmaTx → Nat → Byte

/-- The encoder's choices for a chunk and a SPLIT (R261): the width of the size field, the blocks. The frame is a fixed function of
the two, and the spec leaves its bytes to the encoder.
(DEDUCED: log 72.) -/
opaque Config.zstdEncode : List Byte → Nat → Fin 4 × List Byte

/-- The UDS that the mask ROM reconstructs from the PUF and its helper record (R407): the die's own secret.
(DESIGN CHOICE: log 124.) -/
opaque Config.pufUds : List Byte → List Byte

/-- The vendor's public key, whose digest the mask ROM holds (R404); the spec prints neither.
(DESIGN CHOICE: log 124.) -/
opaque Config.vendorKey : Nat × Nat

/-- The digest of the mask ROM, measurement index 1 (R410).
(DESIGN CHOICE: log 124.) -/
opaque Config.romDigest : List Byte

/-- Contents of GDDR7 and CXL memory after a reset (R13, R481), one for each count of `State.freeCtr`: any cells.
(DESIGN CHOICE: log 4.) -/
opaque Config.freeCells : Nat → List (Nat × Byte)

/-- The granary program that the management processor loads into service pavilions (R235), instruction and data memory:
its words are the firmware's.
(DESIGN CHOICE: log 66.) -/
opaque Config.granaryImem : List Half
/-- (DESIGN CHOICE: log 66.) -/
opaque Config.granaryDmem : List Half

/-- An alias certificate (R409): the bytes that an issuer's key, a subject's key and the layer's measurements give.
(DEDUCED: log 89.) -/
opaque Config.aliasCert : List Byte → List Byte → List Byte → List Byte

/-- The index that R466 and R469 give a structure of R460, in the order in which R460 names them: the spec prints none.
(DEDUCED: log 27.) -/
opaque Config.structIndex : Nat → Nat

end Sys2Proof
end

