-- ==== Sys2Proof/Machine/RegTable.lean ====
section
/-! DEFINITION. The register map of BAR0, from the register and field tables of the spec's chapters
(R18, R83, R146, R181, R242, R243, R275, R306, R337, R364, R390, R391, R412, R440, R441, R457, R475): every
register's BAR0 offset (the block window's offset of R8 plus the register's), its width, its reset value, and its
fields with their access codes (R4) and stated ranges (R6). A register is named as the spec names it, behind `r`;
a field is named by its register and its name, behind `f`. -/

namespace Sys2Proof.Machine

/-- The access codes of R4. -/
inductive Access where
  | rw | ro | wo | w1c | rsv
  deriving DecidableEq, Repr

/-- Which values of an RW field are no reserved encoding (R6): any; a closed range; a multiple; an even value
up to a limit; a power of two in a range; a value bounded by another field of the same written word (`rangeTo lo l w`:
from `lo` to the field of width `w` at bit `l`; `atLeast l w`; `below l w`); sixteen 2-bit colours, 3 reserved. -/
inductive FieldRule where
  | any
  | range (lo hi : Nat)
  | mult (m : Nat)
  | multMax (m hi : Nat)
  | pow2 (lo hi : Nat)
  | rangeTo (lo l w : Nat)
  | atLeast (l w : Nat)
  | below (l w : Nat)
  | dscp
  deriving DecidableEq, Repr

/-- One field of a register. -/
structure FieldDesc where
  lo : Nat
  w : Nat
  acc : Access
  rule : FieldRule := .any
  deriving DecidableEq, Repr

/-- One row of a register map: `n1` registers at stride `s1`, each of them `n2` at stride `s2`. -/
structure RegRow where
  name : String
  off : Nat
  s1 : Nat := 0
  n1 : Nat := 1
  s2 : Nat := 0
  n2 : Nat := 1
  width : Nat
  reset : Nat
  fields : List FieldDesc
  deriving DecidableEq, Repr

/-- A field of one register: the register's BAR0 offset, the field's lowest bit and its width. -/
structure Fld where
  off : Nat
  lo : Nat
  w : Nat
  deriving DecidableEq, Repr

/-- TOP_ID (R1): Part number and stepping. -/
def rTOP_ID : Nat := 0x0
def fTOP_ID_PART : Fld := ⟨rTOP_ID, 16, 16⟩
def fTOP_ID_STEPPING : Fld := ⟨rTOP_ID, 8, 8⟩
/-- TOP_CLK_STATUS (R18): PLL lock and divider state. -/
def rTOP_CLK_STATUS : Nat := 0x10
def fTOP_CLK_STATUS_ROOT_UNLOCK : Fld := ⟨rTOP_CLK_STATUS, 3, 1⟩
def fTOP_CLK_STATUS_SERDES_REF_OK : Fld := ⟨rTOP_CLK_STATUS, 2, 1⟩
def fTOP_CLK_STATUS_DIV_RUN : Fld := ⟨rTOP_CLK_STATUS, 1, 1⟩
def fTOP_CLK_STATUS_ROOT_LOCK : Fld := ⟨rTOP_CLK_STATUS, 0, 1⟩
/-- TOP_RST_CTRL (R18): Software cold and warm reset. -/
def rTOP_RST_CTRL : Nat := 0x20
def fTOP_RST_CTRL_KEY : Fld := ⟨rTOP_RST_CTRL, 16, 16⟩
def fTOP_RST_CTRL_COLD : Fld := ⟨rTOP_RST_CTRL, 1, 1⟩
def fTOP_RST_CTRL_WARM : Fld := ⟨rTOP_RST_CTRL, 0, 1⟩
/-- TOP_RST_CAUSE (R18): Cause of the most recent cold or warm reset. -/
def rTOP_RST_CAUSE : Nat := 0x24
def fTOP_RST_CAUSE_LODGE : Fld := ⟨rTOP_RST_CAUSE, 6, 1⟩
def fTOP_RST_CAUSE_SW_WARM : Fld := ⟨rTOP_RST_CAUSE, 5, 1⟩
def fTOP_RST_CAUSE_PERST : Fld := ⟨rTOP_RST_CAUSE, 4, 1⟩
def fTOP_RST_CAUSE_SW_COLD : Fld := ⟨rTOP_RST_CAUSE, 3, 1⟩
def fTOP_RST_CAUSE_PLL_LOSS : Fld := ⟨rTOP_RST_CAUSE, 2, 1⟩
def fTOP_RST_CAUSE_POR_PIN : Fld := ⟨rTOP_RST_CAUSE, 1, 1⟩
def fTOP_RST_CAUSE_POWER_ON : Fld := ⟨rTOP_RST_CAUSE, 0, 1⟩
/-- TOP_GEN (R18): Device generation number. -/
def rTOP_GEN : Nat := 0x28
def fTOP_GEN_DEV_GEN : Fld := ⟨rTOP_GEN, 0, 8⟩
/-- PAV_CFG (R83): Counts of working, logical and spare pavilions. -/
def rPAV_CFG : Nat := 0x100000
def fPAV_CFG_PHYS_GOOD : Fld := ⟨rPAV_CFG, 16, 8⟩
def fPAV_CFG_LCOUNT : Fld := ⟨rPAV_CFG, 8, 8⟩
def fPAV_CFG_SPARE_LEFT : Fld := ⟨rPAV_CFG, 0, 5⟩
/-- PAV_PRESENT0 (R83): Present logical pavilions 0 to 63. -/
def rPAV_PRESENT0 : Nat := 0x100008
def fPAV_PRESENT0_BITS : Fld := ⟨rPAV_PRESENT0, 0, 64⟩
/-- PAV_PRESENT1 (R83): Present logical pavilions 64 to 127. -/
def rPAV_PRESENT1 : Nat := 0x100010
def fPAV_PRESENT1_BITS : Fld := ⟨rPAV_PRESENT1, 0, 64⟩
/-- PAV_PAIR_OK (R83): Pairs that can be coupled. -/
def rPAV_PAIR_OK : Nat := 0x100018
def fPAV_PAIR_OK_BITS : Fld := ⟨rPAV_PAIR_OK, 0, 64⟩
/-- PAV_PAIR (R83): Pairs coupled in the active epoch. -/
def rPAV_PAIR : Nat := 0x100020
def fPAV_PAIR_BITS : Fld := ⟨rPAV_PAIR, 0, 64⟩
/-- PAV_RST_CTRL (R83): Pavilion reset request. -/
def rPAV_RST_CTRL : Nat := 0x100030
def fPAV_RST_CTRL_KEY : Fld := ⟨rPAV_RST_CTRL, 16, 16⟩
def fPAV_RST_CTRL_LPAV : Fld := ⟨rPAV_RST_CTRL, 0, 8⟩
/-- PAV_RST_STATUS (R83): Pavilion reset progress. -/
def rPAV_RST_STATUS : Nat := 0x100034
def fPAV_RST_STATUS_BUSY : Fld := ⟨rPAV_RST_STATUS, 8, 1⟩
def fPAV_RST_STATUS_LAST : Fld := ⟨rPAV_RST_STATUS, 0, 8⟩
/-- PAV_ERR (R83): Error flags. -/
def rPAV_ERR : Nat := 0x100038
def fPAV_ERR_RST_BAD : Fld := ⟨rPAV_ERR, 4, 1⟩
def fPAV_ERR_RST_DROP : Fld := ⟨rPAV_ERR, 3, 1⟩
def fPAV_ERR_SEM_SAT : Fld := ⟨rPAV_ERR, 2, 1⟩
def fPAV_ERR_ECC_UE : Fld := ⟨rPAV_ERR, 1, 1⟩
def fPAV_ERR_ECC_CE : Fld := ⟨rPAV_ERR, 0, 1⟩
/-- PAV_MAP[n] (R83): Map entry of logical pavilion n, n = 0 to 127. -/
def rPAV_MAP (i : Nat) : Nat := 0x101000 + 4 * i
def fPAV_MAP_VALID (i : Nat) : Fld := ⟨rPAV_MAP i, 31, 1⟩
def fPAV_MAP_TERRACE (i : Nat) : Fld := ⟨rPAV_MAP i, 16, 4⟩
def fPAV_MAP_STOP_Y (i : Nat) : Fld := ⟨rPAV_MAP i, 12, 3⟩
def fPAV_MAP_STOP_X (i : Nat) : Fld := ⟨rPAV_MAP i, 8, 3⟩
def fPAV_MAP_PHYS (i : Nat) : Fld := ⟨rPAV_MAP i, 0, 8⟩
/-- PAV_CE[n] (R83): Corrected scratch errors of logical pavilion n. -/
def rPAV_CE (i : Nat) : Nat := 0x102000 + 16 * i
def fPAV_CE_COUNT (i : Nat) : Fld := ⟨rPAV_CE i, 0, 32⟩
/-- PAV_STALE[n] (R83): Responses dropped by generation number. -/
def rPAV_STALE (i : Nat) : Nat := 0x102004 + 16 * i
def fPAV_STALE_COUNT (i : Nat) : Fld := ⟨rPAV_STALE i, 0, 32⟩
/-- PAV_BSTALL[n] (R83): Core cycles with at least one bank request not granted. -/
def rPAV_BSTALL (i : Nat) : Nat := 0x102008 + 16 * i
def fPAV_BSTALL_COUNT (i : Nat) : Fld := ⟨rPAV_BSTALL i, 0, 64⟩
/-- SCH_CTRL (R146): Commands. -/
def rSCH_CTRL : Nat := 0x200000
def fSCH_CTRL_KEY : Fld := ⟨rSCH_CTRL, 16, 16⟩
def fSCH_CTRL_CLEAR : Fld := ⟨rSCH_CTRL, 3, 1⟩
def fSCH_CTRL_STOP : Fld := ⟨rSCH_CTRL, 2, 1⟩
def fSCH_CTRL_ABORT : Fld := ⟨rSCH_CTRL, 1, 1⟩
def fSCH_CTRL_LOAD : Fld := ⟨rSCH_CTRL, 0, 1⟩
/-- SCH_STATE (R146): Run and image state. -/
def rSCH_STATE : Nat := 0x200004
def fSCH_STATE_LAST_STATUS : Fld := ⟨rSCH_STATE, 16, 16⟩
def fSCH_STATE_LOAD_DONE : Fld := ⟨rSCH_STATE, 8, 1⟩
def fSCH_STATE_IMG : Fld := ⟨rSCH_STATE, 4, 2⟩
def fSCH_STATE_RUN : Fld := ⟨rSCH_STATE, 0, 3⟩
/-- SCH_LOAD_STATUS (R146): Status and detail of the latest load or activation. -/
def rSCH_LOAD_STATUS : Nat := 0x200008
def fSCH_LOAD_STATUS_DETAIL : Fld := ⟨rSCH_LOAD_STATUS, 16, 16⟩
def fSCH_LOAD_STATUS_STATUS : Fld := ⟨rSCH_LOAD_STATUS, 0, 16⟩
/-- SCH_CFG (R146): Signature requirement, replay limit. -/
def rSCH_CFG : Nat := 0x20000C
def fSCH_CFG_REQ_SIG : Fld := ⟨rSCH_CFG, 7, 1⟩
def fSCH_CFG_MAX_ATTEMPT : Fld := ⟨rSCH_CFG, 0, 3⟩
/-- SCH_IMG_ADDR (R146): Image address. -/
def rSCH_IMG_ADDR : Nat := 0x200010
def fSCH_IMG_ADDR_ADDR : Fld := ⟨rSCH_IMG_ADDR, 0, 64⟩
/-- SCH_IMG_LEN (R146): Bytes available at the image address. -/
def rSCH_IMG_LEN : Nat := 0x200018
def fSCH_IMG_LEN_LEN : Fld := ⟨rSCH_IMG_LEN, 0, 64⟩
/-- SCH_ACT_TB (R146): Activation time from IDLE. -/
def rSCH_ACT_TB : Nat := 0x200020
def fSCH_ACT_TB_TIME : Fld := ⟨rSCH_ACT_TB, 0, 64⟩
/-- SCH_ACT_EPOCH (R146): Epoch index at activation. -/
def rSCH_ACT_EPOCH : Nat := 0x200028
def fSCH_ACT_EPOCH_VALUE : Fld := ⟨rSCH_ACT_EPOCH, 0, 32⟩
/-- SCH_START_STEP (R146): Step number at activation. -/
def rSCH_START_STEP : Nat := 0x20002C
def fSCH_START_STEP_VALUE : Fld := ⟨rSCH_START_STEP, 0, 32⟩
/-- SCH_REPORT_ADDR (R146): Refusal report address. -/
def rSCH_REPORT_ADDR : Nat := 0x200030
def fSCH_REPORT_ADDR_ADDR : Fld := ⟨rSCH_REPORT_ADDR, 0, 64⟩
/-- SCH_STORE_BASE (R146): Schedule store base in GDDR7. -/
def rSCH_STORE_BASE : Nat := 0x200038
def fSCH_STORE_BASE_BASE : Fld := ⟨rSCH_STORE_BASE, 0, 64⟩
/-- SCH_STORE_SIZE (R146): Schedule store size. -/
def rSCH_STORE_SIZE : Nat := 0x200040
def fSCH_STORE_SIZE_SIZE : Fld := ⟨rSCH_STORE_SIZE, 0, 32⟩
/-- SCH_TB (R146): Time-base counter. -/
def rSCH_TB : Nat := 0x200050
def fSCH_TB_TB : Fld := ⟨rSCH_TB, 0, 64⟩
/-- SCH_EPOCH (R146): Epoch index. -/
def rSCH_EPOCH : Nat := 0x200058
def fSCH_EPOCH_VALUE : Fld := ⟨rSCH_EPOCH, 0, 32⟩
/-- SCH_RECORD (R146): Active record. -/
def rSCH_RECORD : Nat := 0x20005C
def fSCH_RECORD_VALUE : Fld := ⟨rSCH_RECORD, 0, 32⟩
/-- SCH_STEP (R146): Step number. -/
def rSCH_STEP : Nat := 0x200060
def fSCH_STEP_VALUE : Fld := ⟨rSCH_STEP, 0, 32⟩
/-- SCH_COMMITTED (R146): Last committed step. -/
def rSCH_COMMITTED : Nat := 0x200064
def fSCH_COMMITTED_VALUE : Fld := ⟨rSCH_COMMITTED, 0, 32⟩
/-- SCH_ATTEMPT (R146): Replay attempt. -/
def rSCH_ATTEMPT : Nat := 0x200068
def fSCH_ATTEMPT_ATTEMPT : Fld := ⟨rSCH_ATTEMPT, 0, 8⟩
/-- SCH_PACE (R146): Pace levels. -/
def rSCH_PACE : Nat := 0x20006C
def fSCH_PACE_OWN : Fld := ⟨rSCH_PACE, 8, 4⟩
def fSCH_PACE_IN_FORCE : Fld := ⟨rSCH_PACE, 0, 4⟩
/-- SCH_PACE_REQ (R146): Operator's pace request. -/
def rSCH_PACE_REQ : Nat := 0x200070
def fSCH_PACE_REQ_LEVEL : Fld := ⟨rSCH_PACE_REQ, 0, 4⟩
/-- SCH_FAULT (R146): Latest epoch fault. -/
def rSCH_FAULT : Nat := 0x200074
def fSCH_FAULT_ORIGIN : Fld := ⟨rSCH_FAULT, 18, 14⟩
def fSCH_FAULT_ATTEMPT : Fld := ⟨rSCH_FAULT, 10, 8⟩
def fSCH_FAULT_CAUSE : Fld := ⟨rSCH_FAULT, 0, 4⟩
/-- SCH_FAULT_COUNT (R146): Epoch faults seen. -/
def rSCH_FAULT_COUNT : Nat := 0x200078
def fSCH_FAULT_COUNT_COUNT : Fld := ⟨rSCH_FAULT_COUNT, 0, 32⟩
/-- SCH_TS_CTRL (R146): Timing tree and pulse. -/
def rSCH_TS_CTRL : Nat := 0x200080
def fSCH_TS_CTRL_PULSE_SHIFT : Fld := ⟨rSCH_TS_CTRL, 8, 5⟩
def fSCH_TS_CTRL_PULSE_EN : Fld := ⟨rSCH_TS_CTRL, 7, 1⟩
def fSCH_TS_CTRL_ROOT : Fld := ⟨rSCH_TS_CTRL, 6, 1⟩
def fSCH_TS_CTRL_PARENT_PORT : Fld := ⟨rSCH_TS_CTRL, 0, 5⟩
/-- SCH_TS_STATUS (R146): Lock and depth. -/
def rSCH_TS_STATUS : Nat := 0x200084
def fSCH_TS_STATUS_DEPTH : Fld := ⟨rSCH_TS_STATUS, 4, 4⟩
def fSCH_TS_STATUS_LOSS : Fld := ⟨rSCH_TS_STATUS, 1, 1⟩
def fSCH_TS_STATUS_LOCKED : Fld := ⟨rSCH_TS_STATUS, 0, 1⟩
/-- SCH_TS_OFFSET (R146): Latest θ. -/
def rSCH_TS_OFFSET : Nat := 0x200088
def fSCH_TS_OFFSET_THETA : Fld := ⟨rSCH_TS_OFFSET, 0, 32⟩
/-- SCH_TS_MAXOFS (R146): Largest abs θ. -/
def rSCH_TS_MAXOFS : Nat := 0x20008C
def fSCH_TS_MAXOFS_MAX : Fld := ⟨rSCH_TS_MAXOFS, 0, 32⟩
/-- SCH_TS_ASYM[p] (R146): Asymmetry of port p, p = 0 to 23. -/
def rSCH_TS_ASYM (i : Nat) : Nat := 0x200100 + 4 * i
def fSCH_TS_ASYM_ASYM (i : Nat) : Fld := ⟨rSCH_TS_ASYM i, 0, 32⟩
/-- SCH_SLACK[b] (R146): Slack histogram bin b, b = 0 to 15. -/
def rSCH_SLACK (i : Nat) : Nat := 0x200200 + 8 * i
def fSCH_SLACK_COUNT (i : Nat) : Fld := ⟨rSCH_SLACK i, 0, 64⟩
/-- FAB_DEVNUM (R181): This device's fabric number. -/
def rFAB_DEVNUM : Nat := 0x300000
def fFAB_DEVNUM_DEV : Fld := ⟨rFAB_DEVNUM, 0, 14⟩
/-- FAB_RT_CTRL (R181): Routing bank commit. -/
def rFAB_RT_CTRL : Nat := 0x300004
def fFAB_RT_CTRL_KEY : Fld := ⟨rFAB_RT_CTRL, 16, 16⟩
def fFAB_RT_CTRL_PENDING : Fld := ⟨rFAB_RT_CTRL, 2, 1⟩
def fFAB_RT_CTRL_COMMIT : Fld := ⟨rFAB_RT_CTRL, 1, 1⟩
def fFAB_RT_CTRL_BANK : Fld := ⟨rFAB_RT_CTRL, 0, 1⟩
/-- FAB_ERR (R181): Error flags. -/
def rFAB_ERR : Nat := 0x300008
def fFAB_ERR_CLASH : Fld := ⟨rFAB_ERR, 3, 1⟩
def fFAB_ERR_CFG_DROP : Fld := ⟨rFAB_ERR, 2, 1⟩
def fFAB_ERR_NO_ROUTE : Fld := ⟨rFAB_ERR, 1, 1⟩
def fFAB_ERR_MISROUTE : Fld := ⟨rFAB_ERR, 0, 1⟩
/-- FAB_MISROUTE (R181): Local sown flits discarded (R162). -/
def rFAB_MISROUTE : Nat := 0x30000C
def fFAB_MISROUTE_COUNT : Fld := ⟨rFAB_MISROUTE, 0, 32⟩
/-- FAB_PORT_CTRL[p] (R181): Enable, version cap, DS. -/
def rFAB_PORT_CTRL (i : Nat) : Nat := 0x301000 + 64 * i
def fFAB_PORT_CTRL_DS (i : Nat) : Fld := ⟨rFAB_PORT_CTRL i, 8, 8⟩
def fFAB_PORT_CTRL_MAX_VERSION (i : Nat) : Fld := ⟨rFAB_PORT_CTRL i, 4, 4⟩
def fFAB_PORT_CTRL_RETRAIN (i : Nat) : Fld := ⟨rFAB_PORT_CTRL i, 1, 1⟩
def fFAB_PORT_CTRL_ENABLE (i : Nat) : Fld := ⟨rFAB_PORT_CTRL i, 0, 1⟩
/-- FAB_PORT_STATUS[p] (R181): State, version, delay. -/
def rFAB_PORT_STATUS (i : Nat) : Nat := 0x301004 + 64 * i
def fFAB_PORT_STATUS_DELAY (i : Nat) : Fld := ⟨rFAB_PORT_STATUS i, 16, 16⟩
def fFAB_PORT_STATUS_VERSION (i : Nat) : Fld := ⟨rFAB_PORT_STATUS i, 12, 4⟩
def fFAB_PORT_STATUS_SOWN_OK (i : Nat) : Fld := ⟨rFAB_PORT_STATUS i, 11, 1⟩
def fFAB_PORT_STATUS_LOSS (i : Nat) : Fld := ⟨rFAB_PORT_STATUS i, 10, 1⟩
def fFAB_PORT_STATUS_REASON (i : Nat) : Fld := ⟨rFAB_PORT_STATUS i, 4, 4⟩
def fFAB_PORT_STATUS_STATE (i : Nat) : Fld := ⟨rFAB_PORT_STATUS i, 0, 4⟩
/-- FAB_PORT_PEER[p] (R181): Partner device, port, generation. -/
def rFAB_PORT_PEER (i : Nat) : Nat := 0x301008 + 64 * i
def fFAB_PORT_PEER_GEN (i : Nat) : Fld := ⟨rFAB_PORT_PEER i, 24, 8⟩
def fFAB_PORT_PEER_PORT (i : Nat) : Fld := ⟨rFAB_PORT_PEER i, 16, 5⟩
def fFAB_PORT_PEER_VALID (i : Nat) : Fld := ⟨rFAB_PORT_PEER i, 15, 1⟩
def fFAB_PORT_PEER_DEV (i : Nat) : Fld := ⟨rFAB_PORT_PEER i, 0, 14⟩
/-- FAB_CORR[p] (R181): Flits corrected. -/
def rFAB_CORR (i : Nat) : Nat := 0x301010 + 64 * i
def fFAB_CORR_COUNT (i : Nat) : Fld := ⟨rFAB_CORR i, 0, 64⟩
/-- FAB_RETX[p] (R181): Sown flits retransmitted, counted against 2G. -/
def rFAB_RETX (i : Nat) : Nat := 0x301018 + 64 * i
def fFAB_RETX_COUNT (i : Nat) : Fld := ⟨rFAB_RETX i, 0, 64⟩
/-- FAB_DISCARD[p] (R181): Flits discarded on arrival. -/
def rFAB_DISCARD (i : Nat) : Nat := 0x301020 + 64 * i
def fFAB_DISCARD_COUNT (i : Nat) : Fld := ⟨rFAB_DISCARD i, 0, 64⟩
/-- FAB_LATE[p] (R181): Late transit forwards sent. -/
def rFAB_LATE (i : Nat) : Nat := 0x301028 + 64 * i
def fFAB_LATE_COUNT (i : Nat) : Fld := ⟨rFAB_LATE i, 0, 64⟩
/-- FAB_RETRAIN[p] (R181): Retrains. -/
def rFAB_RETRAIN (i : Nat) : Nat := 0x301030 + 64 * i
def fFAB_RETRAIN_COUNT (i : Nat) : Fld := ⟨rFAB_RETRAIN i, 0, 32⟩
/-- FAB_STALE[p] (R181): Flits dropped for a stale device generation (R178). -/
def rFAB_STALE (i : Nat) : Nat := 0x301034 + 64 * i
def fFAB_STALE_COUNT (i : Nat) : Fld := ⟨rFAB_STALE i, 0, 32⟩
/-- FAB_RT[d] (R181): Inactive-bank routing entry for device d, d = 0 to 16,383. -/
def rFAB_RT (i : Nat) : Nat := 0x310000 + 4 * i
def fFAB_RT_VALID (i : Nat) : Fld := ⟨rFAB_RT i, 31, 1⟩
def fFAB_RT_LOCAL (i : Nat) : Fld := ⟨rFAB_RT i, 30, 1⟩
def fFAB_RT_DATELINE (i : Nat) : Fld := ⟨rFAB_RT i, 29, 1⟩
def fFAB_RT_CTRL_PORT (i : Nat) : Fld := ⟨rFAB_RT i, 24, 5⟩
def fFAB_RT_PORTMASK (i : Nat) : Fld := ⟨rFAB_RT i, 0, 24⟩
/-- FAB_GEN[d] (R181): Known generation of device d, d = 0 to 16,383 (R178). -/
def rFAB_GEN (i : Nat) : Nat := 0x320000 + 4 * i
def fFAB_GEN_KNOWN (i : Nat) : Fld := ⟨rFAB_GEN i, 8, 1⟩
def fFAB_GEN_GEN (i : Nat) : Fld := ⟨rFAB_GEN i, 0, 8⟩
/-- MEM_CFG (R242): Configuration found at training. -/
def rMEM_CFG : Nat := 0x400000
def fMEM_CFG_RATE : Fld := ⟨rMEM_CFG, 16, 8⟩
def fMEM_CFG_DEVICES : Fld := ⟨rMEM_CFG, 8, 8⟩
def fMEM_CFG_CLAMSHELL : Fld := ⟨rMEM_CFG, 0, 1⟩
/-- MEM_STATUS (R242): Readiness. -/
def rMEM_STATUS : Nat := 0x400004
def fMEM_STATUS_HOT : Fld := ⟨rMEM_STATUS, 2, 1⟩
def fMEM_STATUS_FAST : Fld := ⟨rMEM_STATUS, 1, 1⟩
def fMEM_STATUS_READY : Fld := ⟨rMEM_STATUS, 0, 1⟩
/-- MEM_TRAIN_CTRL (R242): Training options. -/
def rMEM_TRAIN_CTRL : Nat := 0x400008
def fMEM_TRAIN_CTRL_KEY : Fld := ⟨rMEM_TRAIN_CTRL, 16, 16⟩
def fMEM_TRAIN_CTRL_SAVE : Fld := ⟨rMEM_TRAIN_CTRL, 1, 1⟩
def fMEM_TRAIN_CTRL_FORCE_FULL : Fld := ⟨rMEM_TRAIN_CTRL, 0, 1⟩
/-- MEM_ERR (R242): Error flags. -/
def rMEM_ERR : Nat := 0x40000C
def fMEM_ERR_CFG_DROP : Fld := ⟨rMEM_ERR, 3, 1⟩
def fMEM_ERR_CRC_FAIL : Fld := ⟨rMEM_ERR, 2, 1⟩
def fMEM_ERR_UE : Fld := ⟨rMEM_ERR, 1, 1⟩
def fMEM_ERR_CE : Fld := ⟨rMEM_ERR, 0, 1⟩
/-- MEM_UE_ADDR (R242): Line of the latest uncorrectable error. -/
def rMEM_UE_ADDR : Nat := 0x400010
def fMEM_UE_ADDR_ADDR : Fld := ⟨rMEM_UE_ADDR, 0, 64⟩
/-- MEM_CE[g] (R242): Corrected errors of group g. -/
def rMEM_CE (i : Nat) : Nat := 0x400100 + 16 * i
def fMEM_CE_COUNT (i : Nat) : Fld := ⟨rMEM_CE i, 0, 32⟩
/-- MEM_UE[g] (R242): Uncorrectable errors of group g. -/
def rMEM_UE (i : Nat) : Nat := 0x400104 + 16 * i
def fMEM_UE_COUNT (i : Nat) : Fld := ⟨rMEM_UE i, 0, 32⟩
/-- MEM_CRC_RETRY[g] (R242): CRC repeats of group g. -/
def rMEM_CRC_RETRY (i : Nat) : Nat := 0x400108 + 16 * i
def fMEM_CRC_RETRY_COUNT (i : Nat) : Fld := ⟨rMEM_CRC_RETRY i, 0, 32⟩
/-- MEM_PT_BASE[p] (R242): Placement table of partition p. -/
def rMEM_PT_BASE (i : Nat) : Nat := 0x401000 + 16 * i
def fMEM_PT_BASE_BASE (i : Nat) : Fld := ⟨rMEM_PT_BASE i, 0, 64⟩
/-- MEM_PT_LEN[p] (R242): Entries in that table. -/
def rMEM_PT_LEN (i : Nat) : Nat := 0x401008 + 16 * i
def fMEM_PT_LEN_LEN (i : Nat) : Fld := ⟨rMEM_PT_LEN i, 0, 32⟩
/-- CXM_ERR (R243): Error flags. -/
def rCXM_ERR : Nat := 0x500000
def fCXM_ERR_CFG_DROP : Fld := ⟨rCXM_ERR, 3, 1⟩
def fCXM_ERR_POISON : Fld := ⟨rCXM_ERR, 2, 1⟩
def fCXM_ERR_LINK_DOWN : Fld := ⟨rCXM_ERR, 1, 1⟩
def fCXM_ERR_MIG_FAIL : Fld := ⟨rCXM_ERR, 0, 1⟩
/-- CXM_MIG_STATUS (R243): Migrations in progress. -/
def rCXM_MIG_STATUS : Nat := 0x500004
def fCXM_MIG_STATUS_ACTIVE : Fld := ⟨rCXM_MIG_STATUS, 0, 5⟩
/-- CXM_SVC_MASK0 (R243): Service pavilions 0 to 63. -/
def rCXM_SVC_MASK0 : Nat := 0x500008
def fCXM_SVC_MASK0_BITS : Fld := ⟨rCXM_SVC_MASK0, 0, 64⟩
/-- CXM_SVC_MASK1 (R243): Service pavilions 64 to 127. -/
def rCXM_SVC_MASK1 : Nat := 0x500010
def fCXM_SVC_MASK1_BITS : Fld := ⟨rCXM_SVC_MASK1, 0, 64⟩
/-- CXM_PORT_CTRL[n] (R243): Port enable and flit mode. -/
def rCXM_PORT_CTRL (i : Nat) : Nat := 0x500100 + 32 * i
def fCXM_PORT_CTRL_LAT_OPT (i : Nat) : Fld := ⟨rCXM_PORT_CTRL i, 1, 1⟩
def fCXM_PORT_CTRL_ENABLE (i : Nat) : Fld := ⟨rCXM_PORT_CTRL i, 0, 1⟩
/-- CXM_PORT_STATUS[n] (R243): State and capacity. -/
def rCXM_PORT_STATUS (i : Nat) : Nat := 0x500104 + 32 * i
def fCXM_PORT_STATUS_CAP (i : Nat) : Fld := ⟨rCXM_PORT_STATUS i, 16, 15⟩
def fCXM_PORT_STATUS_STATE (i : Nat) : Fld := ⟨rCXM_PORT_STATUS i, 0, 4⟩
/-- CXM_POISON[n] (R243): Poisoned reads. -/
def rCXM_POISON (i : Nat) : Nat := 0x500108 + 32 * i
def fCXM_POISON_COUNT (i : Nat) : Fld := ⟨rCXM_POISON i, 0, 32⟩
/-- CXM_LINK_DOWN[n] (R243): Departures from ACTIVE. -/
def rCXM_LINK_DOWN (i : Nat) : Nat := 0x50010C + 32 * i
def fCXM_LINK_DOWN_COUNT (i : Nat) : Fld := ⟨rCXM_LINK_DOWN i, 0, 32⟩
/-- CXM_CREDIT[p] (R243): CXL request limit of partition p. -/
def rCXM_CREDIT (i : Nat) : Nat := 0x501000 + 4 * i
def fCXM_CREDIT_CREDITS (i : Nat) : Fld := ⟨rCXM_CREDIT i, 0, 13⟩
/-- CKP_CTRL (R275): Abandon command. -/
def rCKP_CTRL : Nat := 0x600000
def fCKP_CTRL_KEY : Fld := ⟨rCKP_CTRL, 16, 16⟩
def fCKP_CTRL_ABANDON : Fld := ⟨rCKP_CTRL, 0, 1⟩
/-- CKP_STATE (R275): Phase. -/
def rCKP_STATE : Nat := 0x600004
def fCKP_STATE_AUTO : Fld := ⟨rCKP_STATE, 3, 1⟩
def fCKP_STATE_PHASE : Fld := ⟨rCKP_STATE, 0, 3⟩
/-- CKP_CFG (R275): Triggers, holdoff, stall margin. -/
def rCKP_CFG : Nat := 0x600008
def fCKP_CFG_HOLDOFF : Fld := ⟨rCKP_CFG, 8, 8⟩
def fCKP_CFG_MARGIN_PCT : Fld := ⟨rCKP_CFG, 4, 4⟩
def fCKP_CFG_WARN_EN : Fld := ⟨rCKP_CFG, 1, 1⟩
def fCKP_CFG_CE_EN : Fld := ⟨rCKP_CFG, 0, 1⟩
/-- CKP_ERR (R275): Flags. -/
def rCKP_ERR : Nat := 0x60000C
def fCKP_ERR_CFG_DROP : Fld := ⟨rCKP_ERR, 2, 1⟩
def fCKP_ERR_AUTO_SKIP : Fld := ⟨rCKP_ERR, 1, 1⟩
def fCKP_ERR_ABANDONED : Fld := ⟨rCKP_ERR, 0, 1⟩
/-- CKP_RES_BASE (R275): Copy-before-write reserve. -/
def rCKP_RES_BASE : Nat := 0x600010
def fCKP_RES_BASE_BASE : Fld := ⟨rCKP_RES_BASE, 0, 64⟩
/-- CKP_WORK_BASE (R275): Bitmap and slot table. -/
def rCKP_WORK_BASE : Nat := 0x600018
def fCKP_WORK_BASE_BASE : Fld := ⟨rCKP_WORK_BASE, 0, 64⟩
/-- CKP_AUTO_DESC (R275): Descriptor for automatic sheaves. -/
def rCKP_AUTO_DESC : Nat := 0x600020
def fCKP_AUTO_DESC_ADDR : Fld := ⟨rCKP_AUTO_DESC, 0, 64⟩
/-- CKP_AUTO_COUNT (R275): Automatic sheaves started. -/
def rCKP_AUTO_COUNT : Nat := 0x600028
def fCKP_AUTO_COUNT_COUNT : Fld := ⟨rCKP_AUTO_COUNT, 0, 64⟩
/-- CKP_CE_LIMIT (R275): Corrected errors per window. -/
def rCKP_CE_LIMIT : Nat := 0x600030
def fCKP_CE_LIMIT_LIMIT : Fld := ⟨rCKP_CE_LIMIT, 0, 32⟩
/-- CKP_CE_WINDOW (R275): Window in ms. -/
def rCKP_CE_WINDOW : Nat := 0x600034
def fCKP_CE_WINDOW_WINDOW : Fld := ⟨rCKP_CE_WINDOW, 0, 32⟩
/-- CKP_SHEAF_ID (R275): Open or latest sheaf. -/
def rCKP_SHEAF_ID : Nat := 0x600038
def fCKP_SHEAF_ID_ID : Fld := ⟨rCKP_SHEAF_ID, 0, 64⟩
/-- CKP_STEP (R275): Its STEP. -/
def rCKP_STEP : Nat := 0x600040
def fCKP_STEP_STEP : Fld := ⟨rCKP_STEP, 0, 32⟩
/-- CKP_LAST (R275): Status and detail of the latest sheaf. -/
def rCKP_LAST : Nat := 0x600044
def fCKP_LAST_DETAIL : Fld := ⟨rCKP_LAST, 16, 16⟩
def fCKP_LAST_STATUS : Fld := ⟨rCKP_LAST, 0, 16⟩
/-- CKP_TOTAL (R275): Input bytes of the open sheaf. -/
def rCKP_TOTAL : Nat := 0x600048
def fCKP_TOTAL_BYTES : Fld := ⟨rCKP_TOTAL, 0, 64⟩
/-- CKP_DONE (R275): Input bytes captured. -/
def rCKP_DONE : Nat := 0x600050
def fCKP_DONE_BYTES : Fld := ⟨rCKP_DONE, 0, 64⟩
/-- CKP_RES (R275): Reserve slots in use. -/
def rCKP_RES : Nat := 0x600058
def fCKP_RES_PEAK : Fld := ⟨rCKP_RES, 16, 16⟩
def fCKP_RES_USED : Fld := ⟨rCKP_RES, 0, 16⟩
/-- CKP_DIVERT (R275): Granules diverted. -/
def rCKP_DIVERT : Nat := 0x600060
def fCKP_DIVERT_COUNT : Fld := ⟨rCKP_DIVERT, 0, 64⟩
/-- CKP_STALL (R275): Slots with a sown write stalled. -/
def rCKP_STALL : Nat := 0x600068
def fCKP_STALL_COUNT : Fld := ⟨rCKP_STALL, 0, 64⟩
/-- CKP_COMMITS (R275): Sheaves committed. -/
def rCKP_COMMITS : Nat := 0x600070
def fCKP_COMMITS_COUNT : Fld := ⟨rCKP_COMMITS, 0, 32⟩
/-- CKP_ABANDONS (R275): Sheaves abandoned. -/
def rCKP_ABANDONS : Nat := 0x600074
def fCKP_ABANDONS_COUNT : Fld := ⟨rCKP_ABANDONS, 0, 32⟩
/-- CKP_SKIPS (R275): Triggers skipped. -/
def rCKP_SKIPS : Nat := 0x600078
def fCKP_SKIPS_COUNT : Fld := ⟨rCKP_SKIPS, 0, 32⟩
/-- HIF_CFG (R306): Bifurcation, control function. -/
def rHIF_CFG : Nat := 0x700000
def fHIF_CFG_CTRL_PF : Fld := ⟨rHIF_CFG, 1, 1⟩
def fHIF_CFG_BIF : Fld := ⟨rHIF_CFG, 0, 1⟩
/-- HIF_ERR (R306): Error flags. -/
def rHIF_ERR : Nat := 0x700004
def fHIF_ERR_CFG_DROP : Fld := ⟨rHIF_ERR, 7, 1⟩
def fHIF_ERR_POISON_RX : Fld := ⟨rHIF_ERR, 6, 1⟩
def fHIF_ERR_P4_MISS : Fld := ⟨rHIF_ERR, 5, 1⟩
def fHIF_ERR_IW_MISS : Fld := ⟨rHIF_ERR, 4, 1⟩
def fHIF_ERR_LATE : Fld := ⟨rHIF_ERR, 3, 1⟩
def fHIF_ERR_CTO : Fld := ⟨rHIF_ERR, 2, 1⟩
def fHIF_ERR_RO_WRITE : Fld := ⟨rHIF_ERR, 1, 1⟩
def fHIF_ERR_WIN_FAIL : Fld := ⟨rHIF_ERR, 0, 1⟩
/-- HIF_UP_CTO (R306): Upstream completion timeout, µs. -/
def rHIF_UP_CTO : Nat := 0x700008
def fHIF_UP_CTO_MICROS : Fld := ⟨rHIF_UP_CTO, 0, 32⟩
/-- HIF_UP_STATUS[h] (R306): Upstream link h. -/
def rHIF_UP_STATUS (i : Nat) : Nat := 0x700010 + 4 * i
def fHIF_UP_STATUS_WIDTH (i : Nat) : Fld := ⟨rHIF_UP_STATUS i, 8, 8⟩
def fHIF_UP_STATUS_RATE (i : Nat) : Fld := ⟨rHIF_UP_STATUS i, 4, 4⟩
def fHIF_UP_STATUS_LINK_UP (i : Nat) : Fld := ⟨rHIF_UP_STATUS i, 3, 1⟩
def fHIF_UP_STATUS_IDE (i : Nat) : Fld := ⟨rHIF_UP_STATUS i, 2, 1⟩
/-- HIF_UP_TIMEOUT[h] (R306): Timeouts reported. -/
def rHIF_UP_TIMEOUT (i : Nat) : Nat := 0x700020 + 16 * i
def fHIF_UP_TIMEOUT_COUNT (i : Nat) : Fld := ⟨rHIF_UP_TIMEOUT i, 0, 32⟩
/-- HIF_UP_LATE[h] (R306): Late completions. -/
def rHIF_UP_LATE (i : Nat) : Nat := 0x700024 + 16 * i
def fHIF_UP_LATE_COUNT (i : Nat) : Fld := ⟨rHIF_UP_LATE i, 0, 32⟩
/-- HIF_UP_QTAGS[h] (R306): Tags now quarantined. -/
def rHIF_UP_QTAGS (i : Nat) : Nat := 0x700028 + 16 * i
def fHIF_UP_QTAGS_COUNT (i : Nat) : Fld := ⟨rHIF_UP_QTAGS i, 0, 13⟩
/-- HIF_WSH_SEL (R306): Window to write. -/
def rHIF_WSH_SEL : Nat := 0x700100
def fHIF_WSH_SEL_W : Fld := ⟨rHIF_WSH_SEL, 0, 9⟩
/-- HIF_WSH_BASE (R306): Shadow BASE. -/
def rHIF_WSH_BASE : Nat := 0x700108
def fHIF_WSH_BASE_BASE : Fld := ⟨rHIF_WSH_BASE, 0, 64⟩
/-- HIF_WSH_TARGET (R306): Shadow TARGET. -/
def rHIF_WSH_TARGET : Nat := 0x700110
def fHIF_WSH_TARGET_TARGET : Fld := ⟨rHIF_WSH_TARGET, 0, 64⟩
/-- HIF_WSH_CTRL (R306): Shadow size and permissions. -/
def rHIF_WSH_CTRL : Nat := 0x700118
def fHIF_WSH_CTRL_VALID : Fld := ⟨rHIF_WSH_CTRL, 31, 1⟩
def fHIF_WSH_CTRL_WR : Fld := ⟨rHIF_WSH_CTRL, 9, 1⟩
def fHIF_WSH_CTRL_RD : Fld := ⟨rHIF_WSH_CTRL, 8, 1⟩
def fHIF_WSH_CTRL_SIZE_LOG2 : Fld := ⟨rHIF_WSH_CTRL, 0, 6⟩
/-- HIF_WIN_COMMIT (R306): Commit. -/
def rHIF_WIN_COMMIT : Nat := 0x70011C
def fHIF_WIN_COMMIT_KEY : Fld := ⟨rHIF_WIN_COMMIT, 16, 16⟩
def fHIF_WIN_COMMIT_COMMIT : Fld := ⟨rHIF_WIN_COMMIT, 0, 1⟩
/-- HIF_WIN_STATUS (R306): Commit progress and result. -/
def rHIF_WIN_STATUS : Nat := 0x700120
def fHIF_WIN_STATUS_STATUS : Fld := ⟨rHIF_WIN_STATUS, 16, 16⟩
def fHIF_WIN_STATUS_BUSY : Fld := ⟨rHIF_WIN_STATUS, 0, 1⟩
/-- HIF_DCFG_ADDR (R306): Accelerator configuration address. -/
def rHIF_DCFG_ADDR : Nat := 0x700200
def fHIF_DCFG_ADDR_WRITE : Fld := ⟨rHIF_DCFG_ADDR, 31, 1⟩
def fHIF_DCFG_ADDR_SLOT : Fld := ⟨rHIF_DCFG_ADDR, 24, 4⟩
def fHIF_DCFG_ADDR_FUNC : Fld := ⟨rHIF_DCFG_ADDR, 16, 3⟩
def fHIF_DCFG_ADDR_DWORD : Fld := ⟨rHIF_DCFG_ADDR, 2, 10⟩
/-- HIF_DCFG_DATA (R306): Configuration data. -/
def rHIF_DCFG_DATA : Nat := 0x700204
def fHIF_DCFG_DATA_DATA : Fld := ⟨rHIF_DCFG_DATA, 0, 32⟩
/-- HIF_DCFG_STATUS (R306): Configuration access result. -/
def rHIF_DCFG_STATUS : Nat := 0x700208
def fHIF_DCFG_STATUS_STATUS : Fld := ⟨rHIF_DCFG_STATUS, 16, 16⟩
def fHIF_DCFG_STATUS_BUSY : Fld := ⟨rHIF_DCFG_STATUS, 0, 1⟩
/-- HIF_DS_CTRL[n] (R306): Port split. -/
def rHIF_DS_CTRL (i : Nat) : Nat := 0x701000 + 64 * i
def fHIF_DS_CTRL_SPLIT (i : Nat) : Fld := ⟨rHIF_DS_CTRL i, 0, 1⟩
/-- HIF_DS_CTO[n] (R306): Downstream completion timeout, µs. -/
def rHIF_DS_CTO (i : Nat) : Nat := 0x701004 + 64 * i
def fHIF_DS_CTO_MICROS (i : Nat) : Fld := ⟨rHIF_DS_CTO i, 0, 32⟩
/-- HIF_SLOT_CTRL[a] (R306): Slot command and indicator. -/
def rHIF_SLOT_CTRL (i : Nat) : Nat := 0x702000 + 64 * i
def fHIF_SLOT_CTRL_KEY (i : Nat) : Fld := ⟨rHIF_SLOT_CTRL i, 16, 16⟩
def fHIF_SLOT_CTRL_ATN_IND (i : Nat) : Fld := ⟨rHIF_SLOT_CTRL i, 4, 2⟩
def fHIF_SLOT_CTRL_CMD (i : Nat) : Fld := ⟨rHIF_SLOT_CTRL i, 0, 2⟩
/-- HIF_SLOT_STATUS[a] (R306): Slot state and events. -/
def rHIF_SLOT_STATUS (i : Nat) : Nat := 0x702004 + 64 * i
def fHIF_SLOT_STATUS_LAST_STATUS (i : Nat) : Fld := ⟨rHIF_SLOT_STATUS i, 16, 16⟩
def fHIF_SLOT_STATUS_GEN (i : Nat) : Fld := ⟨rHIF_SLOT_STATUS i, 8, 8⟩
def fHIF_SLOT_STATUS_PDC (i : Nat) : Fld := ⟨rHIF_SLOT_STATUS i, 7, 1⟩
def fHIF_SLOT_STATUS_ABP (i : Nat) : Fld := ⟨rHIF_SLOT_STATUS i, 6, 1⟩
def fHIF_SLOT_STATUS_LSC (i : Nat) : Fld := ⟨rHIF_SLOT_STATUS i, 5, 1⟩
def fHIF_SLOT_STATUS_PRESENT (i : Nat) : Fld := ⟨rHIF_SLOT_STATUS i, 4, 1⟩
def fHIF_SLOT_STATUS_STATE (i : Nat) : Fld := ⟨rHIF_SLOT_STATUS i, 0, 4⟩
/-- HIF_SLOT_LINK[a] (R306): Trained rate and width. -/
def rHIF_SLOT_LINK (i : Nat) : Nat := 0x702008 + 64 * i
def fHIF_SLOT_LINK_DEGRADED (i : Nat) : Fld := ⟨rHIF_SLOT_LINK i, 16, 1⟩
def fHIF_SLOT_LINK_WIDTH (i : Nat) : Fld := ⟨rHIF_SLOT_LINK i, 8, 8⟩
def fHIF_SLOT_LINK_RATE (i : Nat) : Fld := ⟨rHIF_SLOT_LINK i, 0, 4⟩
/-- HIF_SLOT_TIMEOUT[a] (R306): Timeouts reported. -/
def rHIF_SLOT_TIMEOUT (i : Nat) : Nat := 0x70200C + 64 * i
def fHIF_SLOT_TIMEOUT_COUNT (i : Nat) : Fld := ⟨rHIF_SLOT_TIMEOUT i, 0, 32⟩
/-- HIF_SLOT_LATE[a] (R306): Late completions. -/
def rHIF_SLOT_LATE (i : Nat) : Nat := 0x702010 + 64 * i
def fHIF_SLOT_LATE_COUNT (i : Nat) : Fld := ⟨rHIF_SLOT_LATE i, 0, 32⟩
/-- HIF_SLOT_STALE[a] (R306): Completions of an earlier generation. -/
def rHIF_SLOT_STALE (i : Nat) : Nat := 0x702014 + 64 * i
def fHIF_SLOT_STALE_COUNT (i : Nat) : Fld := ⟨rHIF_SLOT_STALE i, 0, 32⟩
/-- HIF_SLOT_IWMISS[a] (R306): Inbound accesses without a window. -/
def rHIF_SLOT_IWMISS (i : Nat) : Nat := 0x702018 + 64 * i
def fHIF_SLOT_IWMISS_COUNT (i : Nat) : Fld := ⟨rHIF_SLOT_IWMISS i, 0, 32⟩
/-- HIF_WIN_BASE[w] (R306): Committed BASE. -/
def rHIF_WIN_BASE (i : Nat) : Nat := 0x710000 + 32 * i
def fHIF_WIN_BASE_BASE (i : Nat) : Fld := ⟨rHIF_WIN_BASE i, 0, 64⟩
/-- HIF_WIN_TARGET[w] (R306): Committed TARGET. -/
def rHIF_WIN_TARGET (i : Nat) : Nat := 0x710008 + 32 * i
def fHIF_WIN_TARGET_TARGET (i : Nat) : Fld := ⟨rHIF_WIN_TARGET i, 0, 64⟩
/-- HIF_WIN_CTRL[w] (R306): Committed size and permissions. -/
def rHIF_WIN_CTRL (i : Nat) : Nat := 0x710010 + 32 * i
def fHIF_WIN_CTRL_VALID (i : Nat) : Fld := ⟨rHIF_WIN_CTRL i, 31, 1⟩
def fHIF_WIN_CTRL_WR (i : Nat) : Fld := ⟨rHIF_WIN_CTRL i, 9, 1⟩
def fHIF_WIN_CTRL_RD (i : Nat) : Fld := ⟨rHIF_WIN_CTRL i, 8, 1⟩
def fHIF_WIN_CTRL_SIZE_LOG2 (i : Nat) : Fld := ⟨rHIF_WIN_CTRL i, 0, 6⟩
/-- QUE_ADMIN_CTRL (R337): Admin pair enable and size. -/
def rQUE_ADMIN_CTRL : Nat := 0x800000
def fQUE_ADMIN_CTRL_SIZE_LOG2 : Fld := ⟨rQUE_ADMIN_CTRL, 8, 5⟩
def fQUE_ADMIN_CTRL_ENABLE : Fld := ⟨rQUE_ADMIN_CTRL, 0, 1⟩
/-- QUE_ERR (R337): Error flags. -/
def rQUE_ERR : Nat := 0x800004
def fQUE_ERR_ADMIN_ERR : Fld := ⟨rQUE_ERR, 1, 1⟩
def fQUE_ERR_CFG_DROP : Fld := ⟨rQUE_ERR, 0, 1⟩
/-- QUE_ADMIN_SQ (R337): Admin SQ base. -/
def rQUE_ADMIN_SQ : Nat := 0x800008
def fQUE_ADMIN_SQ_BASE : Fld := ⟨rQUE_ADMIN_SQ, 0, 64⟩
/-- QUE_ADMIN_CQ (R337): Admin CQ base. -/
def rQUE_ADMIN_CQ : Nat := 0x800010
def fQUE_ADMIN_CQ_BASE : Fld := ⟨rQUE_ADMIN_CQ, 0, 64⟩
/-- QUE_POOL (R337): Free SQs and CQs. -/
def rQUE_POOL : Nat := 0x800018
def fQUE_POOL_CQ_FREE : Fld := ⟨rQUE_POOL, 16, 15⟩
def fQUE_POOL_SQ_FREE : Fld := ⟨rQUE_POOL, 0, 15⟩
/-- QUE_PSTATE[p] (R337): State, generation, version. -/
def rQUE_PSTATE (i : Nat) : Nat := 0x801000 + 32 * i
def fQUE_PSTATE_QVER (i : Nat) : Fld := ⟨rQUE_PSTATE i, 16, 16⟩
def fQUE_PSTATE_GEN (i : Nat) : Fld := ⟨rQUE_PSTATE i, 8, 8⟩
def fQUE_PSTATE_STATE (i : Nat) : Fld := ⟨rQUE_PSTATE i, 0, 3⟩
/-- QUE_PSTALE[p] (R337): Stale responses dropped. -/
def rQUE_PSTALE (i : Nat) : Nat := 0x801004 + 32 * i
def fQUE_PSTALE_COUNT (i : Nat) : Fld := ⟨rQUE_PSTALE i, 0, 32⟩
/-- QUE_PREFUSED[p] (R337): REFUSED_POLICY completions. -/
def rQUE_PREFUSED (i : Nat) : Nat := 0x801008 + 32 * i
def fQUE_PREFUSED_COUNT (i : Nat) : Fld := ⟨rQUE_PREFUSED i, 0, 32⟩
/-- QUE_PDBMISS[p] (R337): Doorbell and window writes discarded. -/
def rQUE_PDBMISS (i : Nat) : Nat := 0x80100C + 32 * i
def fQUE_PDBMISS_COUNT (i : Nat) : Fld := ⟨rQUE_PDBMISS i, 0, 32⟩
/-- QUE_PEVDROP[p] (R337): Events not written. -/
def rQUE_PEVDROP (i : Nat) : Nat := 0x801010 + 32 * i
def fQUE_PEVDROP_COUNT (i : Nat) : Fld := ⟨rQUE_PEVDROP i, 0, 32⟩
/-- RDM_CFG (R364): Reliable-datagram keep time, trigger hold time. -/
def rRDM_CFG : Nat := 0x900000
def fRDM_CFG_KEEP_US : Fld := ⟨rRDM_CFG, 16, 16⟩
def fRDM_CFG_TRIG_HOLD_US : Fld := ⟨rRDM_CFG, 0, 16⟩
/-- RDM_ERR (R364): Error flags. -/
def rRDM_ERR : Nat := 0x900004
def fRDM_ERR_CFG_DROP : Fld := ⟨rRDM_ERR, 3, 1⟩
def fRDM_ERR_FETCH_FAIL : Fld := ⟨rRDM_ERR, 2, 1⟩
def fRDM_ERR_MISS_FULL : Fld := ⟨rRDM_ERR, 1, 1⟩
def fRDM_ERR_FLUSH : Fld := ⟨rRDM_ERR, 0, 1⟩
/-- RDM_CC_CFG (R364): Congestion-control parameters. -/
def rRDM_CC_CFG : Nat := 0x900008
def fRDM_CC_CFG_CUT : Fld := ⟨rRDM_CC_CFG, 24, 8⟩
def fRDM_CC_CFG_RECOVER_US : Fld := ⟨rRDM_CC_CFG, 12, 12⟩
def fRDM_CC_CFG_ADD : Fld := ⟨rRDM_CC_CFG, 0, 12⟩
/-- RDM_CC_THRESH (R364): Receive-buffer threshold for CNPs, KiB. -/
def rRDM_CC_THRESH : Nat := 0x90000C
def fRDM_CC_THRESH_KIB : Fld := ⟨rRDM_CC_THRESH, 0, 13⟩
/-- RDM_QPC_BASE (R364): Context store. -/
def rRDM_QPC_BASE : Nat := 0x900010
def fRDM_QPC_BASE_BASE : Fld := ⟨rRDM_QPC_BASE, 0, 64⟩
/-- RDM_QPC_COUNT (R364): Context store entries. -/
def rRDM_QPC_COUNT : Nat := 0x900018
def fRDM_QPC_COUNT_COUNT : Fld := ⟨rRDM_QPC_COUNT, 0, 32⟩
/-- RDM_MISS (R364): Miss buffer occupancy. -/
def rRDM_MISS : Nat := 0x90001C
def fRDM_MISS_PEAK : Fld := ⟨rRDM_MISS, 16, 13⟩
def fRDM_MISS_USED : Fld := ⟨rRDM_MISS, 0, 13⟩
/-- RDM_MR_BASE (R364): Memory-region table, 64 bytes per entry. -/
def rRDM_MR_BASE : Nat := 0x900020
def fRDM_MR_BASE_BASE : Fld := ⟨rRDM_MR_BASE, 0, 64⟩
/-- RDM_MR_COUNT (R364): Memory-region entries. -/
def rRDM_MR_COUNT : Nat := 0x900028
def fRDM_MR_COUNT_COUNT : Fld := ⟨rRDM_MR_COUNT, 0, 32⟩
/-- RDM_OUTSTANDING (R364): Outstanding requests. -/
def rRDM_OUTSTANDING : Nat := 0x90002C
def fRDM_OUTSTANDING_COUNT : Fld := ⟨rRDM_OUTSTANDING, 0, 18⟩
/-- RDM_MISS_REFUSE (R364): Packets refused by the full miss buffer. -/
def rRDM_MISS_REFUSE : Nat := 0x900100
def fRDM_MISS_REFUSE_COUNT : Fld := ⟨rRDM_MISS_REFUSE, 0, 32⟩
/-- RDM_FETCH_FAIL (R364): Abandoned context fetches. -/
def rRDM_FETCH_FAIL : Nat := 0x900104
def fRDM_FETCH_FAIL_COUNT : Fld := ⟨rRDM_FETCH_FAIL, 0, 32⟩
/-- RDM_TRIG (R364): Triggers matched. -/
def rRDM_TRIG : Nat := 0x900108
def fRDM_TRIG_COUNT : Fld := ⟨rRDM_TRIG, 0, 32⟩
/-- RDM_EVICT (R364): Contexts written back. -/
def rRDM_EVICT : Nat := 0x900110
def fRDM_EVICT_COUNT : Fld := ⟨rRDM_EVICT, 0, 64⟩
/-- RDM_RETX (R364): Packets retransmitted. -/
def rRDM_RETX : Nat := 0x900118
def fRDM_RETX_COUNT : Fld := ⟨rRDM_RETX, 0, 64⟩
/-- RDM_DUP (R364): Duplicate packets discarded. -/
def rRDM_DUP : Nat := 0x900120
def fRDM_DUP_COUNT : Fld := ⟨rRDM_DUP, 0, 64⟩
/-- RDM_CNP (R364): CNPs sent [63:32] and received [31:0]. -/
def rRDM_CNP : Nat := 0x900128
def fRDM_CNP_COUNT : Fld := ⟨rRDM_CNP, 0, 64⟩
/-- RDM_PQP_LIMIT[p] (R364): QPs partition p may hold. -/
def rRDM_PQP_LIMIT (i : Nat) : Nat := 0x901000 + 32 * i
def fRDM_PQP_LIMIT_QPS (i : Nat) : Fld := ⟨rRDM_PQP_LIMIT i, 0, 21⟩
/-- RDM_PQP_USED[p] (R364): QPs partition p holds. -/
def rRDM_PQP_USED (i : Nat) : Nat := 0x901004 + 32 * i
def fRDM_PQP_USED_QPS (i : Nat) : Fld := ⟨rRDM_PQP_USED i, 0, 21⟩
/-- RDM_SGID_LO[p] (R364): Source GID of partition p, bytes 8 to 15. -/
def rRDM_SGID_LO (i : Nat) : Nat := 0x901008 + 32 * i
def fRDM_SGID_LO_GID (i : Nat) : Fld := ⟨rRDM_SGID_LO i, 0, 64⟩
/-- RDM_SGID_HI[p] (R364): Source GID, bytes 0 to 7. -/
def rRDM_SGID_HI (i : Nat) : Nat := 0x901010 + 32 * i
def fRDM_SGID_HI_GID (i : Nat) : Fld := ⟨rRDM_SGID_HI i, 0, 64⟩
/-- ETH_CFG (R390): Port modes. -/
def rETH_CFG : Nat := 0xA00000
def fETH_CFG_MODE1 : Fld := ⟨rETH_CFG, 4, 2⟩
def fETH_CFG_MODE0 : Fld := ⟨rETH_CFG, 0, 2⟩
/-- ETH_ERR (R390): Error flags. -/
def rETH_ERR : Nat := 0xA00004
def fETH_ERR_CFG_DROP : Fld := ⟨rETH_ERR, 3, 1⟩
def fETH_ERR_RX_OVF : Fld := ⟨rETH_ERR, 2, 1⟩
def fETH_ERR_PARSE_EXC : Fld := ⟨rETH_ERR, 1, 1⟩
def fETH_ERR_ISOL : Fld := ⟨rETH_ERR, 0, 1⟩
/-- ETH_ENT_CMD (R390): Table command. -/
def rETH_ENT_CMD : Nat := 0xA00008
def fETH_ENT_CMD_OP : Fld := ⟨rETH_ENT_CMD, 30, 2⟩
def fETH_ENT_CMD_TABLE : Fld := ⟨rETH_ENT_CMD, 28, 2⟩
def fETH_ENT_CMD_INDEX : Fld := ⟨rETH_ENT_CMD, 0, 18⟩
/-- ETH_ENT_STATUS (R390): Table command result. -/
def rETH_ENT_STATUS : Nat := 0xA0000C
def fETH_ENT_STATUS_STATUS : Fld := ⟨rETH_ENT_STATUS, 16, 16⟩
def fETH_ENT_STATUS_BUSY : Fld := ⟨rETH_ENT_STATUS, 0, 1⟩
/-- ETH_GRAPH_CTRL (R390): Graph parsers. -/
def rETH_GRAPH_CTRL : Nat := 0xA00010
def fETH_GRAPH_CTRL_EN : Fld := ⟨rETH_GRAPH_CTRL, 31, 1⟩
def fETH_GRAPH_CTRL_START : Fld := ⟨rETH_GRAPH_CTRL, 0, 10⟩
/-- ETH_EXC_Q (R390): Exception queue of partition 0. -/
def rETH_EXC_Q : Nat := 0xA00014
def fETH_EXC_Q_Q : Fld := ⟨rETH_EXC_Q, 0, 16⟩
/-- ETH_PTP_TIME (R390): PTP time, ns. -/
def rETH_PTP_TIME : Nat := 0xA00018
def fETH_PTP_TIME_NS : Fld := ⟨rETH_PTP_TIME, 0, 64⟩
/-- ETH_ENT_DATA[i] (R390): Staging word i, i = 0 to 35. -/
def rETH_ENT_DATA (i : Nat) : Nat := 0xA00100 + 4 * i
def fETH_ENT_DATA_DATA (i : Nat) : Fld := ⟨rETH_ENT_DATA i, 0, 32⟩
/-- ETH_GVLAN[j] (R390): VIDs 32j to 32j + 31, j = 0 to 127. -/
def rETH_GVLAN (i : Nat) : Nat := 0xA00200 + 4 * i
def fETH_GVLAN_VIDS (i : Nat) : Fld := ⟨rETH_GVLAN i, 0, 32⟩
/-- ETH_PVLAN[p] (R390): [11:0] VID of partition p, p = 0 to 64. -/
def rETH_PVLAN (i : Nat) : Nat := 0xA00400 + 4 * i
def fETH_PVLAN_VID (i : Nat) : Fld := ⟨rETH_PVLAN i, 0, 12⟩
/-- ETH_LPORT_CTRL[l] (R390): Logical port control. -/
def rETH_LPORT_CTRL (i : Nat) : Nat := 0xA01000 + 64 * i
def fETH_LPORT_CTRL_PFC_RX (i : Nat) : Fld := ⟨rETH_LPORT_CTRL i, 24, 8⟩
def fETH_LPORT_CTRL_PROG (i : Nat) : Fld := ⟨rETH_LPORT_CTRL i, 8, 3⟩
def fETH_LPORT_CTRL_PTP (i : Nat) : Fld := ⟨rETH_LPORT_CTRL i, 5, 1⟩
def fETH_LPORT_CTRL_UNTAG_GRAPH (i : Nat) : Fld := ⟨rETH_LPORT_CTRL i, 4, 1⟩
def fETH_LPORT_CTRL_DEF_ACT (i : Nat) : Fld := ⟨rETH_LPORT_CTRL i, 3, 1⟩
def fETH_LPORT_CTRL_EXC_ACT (i : Nat) : Fld := ⟨rETH_LPORT_CTRL i, 2, 1⟩
def fETH_LPORT_CTRL_ENABLE (i : Nat) : Fld := ⟨rETH_LPORT_CTRL i, 0, 1⟩
/-- ETH_LPORT_STATUS[l] (R390): Link state. -/
def rETH_LPORT_STATUS (i : Nat) : Nat := 0xA01004 + 64 * i
def fETH_LPORT_STATUS_LOSS (i : Nat) : Fld := ⟨rETH_LPORT_STATUS i, 3, 1⟩
def fETH_LPORT_STATUS_PTP_LOCK (i : Nat) : Fld := ⟨rETH_LPORT_STATUS i, 2, 1⟩
def fETH_LPORT_STATUS_LINK (i : Nat) : Fld := ⟨rETH_LPORT_STATUS i, 0, 1⟩
/-- ETH_LPORT_MAC[l] (R390): [47:0] MAC address. -/
def rETH_LPORT_MAC (i : Nat) : Nat := 0xA01008 + 64 * i
def fETH_LPORT_MAC_MAC (i : Nat) : Fld := ⟨rETH_LPORT_MAC i, 0, 48⟩
/-- ETH_RX_FRAMES[l] (R390): Frames received. -/
def rETH_RX_FRAMES (i : Nat) : Nat := 0xA01010 + 64 * i
def fETH_RX_FRAMES_COUNT (i : Nat) : Fld := ⟨rETH_RX_FRAMES i, 0, 64⟩
/-- ETH_TX_FRAMES[l] (R390): Frames sent. -/
def rETH_TX_FRAMES (i : Nat) : Nat := 0xA01018 + 64 * i
def fETH_TX_FRAMES_COUNT (i : Nat) : Fld := ⟨rETH_TX_FRAMES i, 0, 64⟩
/-- ETH_RX_DROP[l] (R390): Frames dropped on receive. -/
def rETH_RX_DROP (i : Nat) : Nat := 0xA01020 + 64 * i
def fETH_RX_DROP_COUNT (i : Nat) : Fld := ⟨rETH_RX_DROP i, 0, 64⟩
/-- ETH_PARSE_EXC[l] (R390): Parse exceptions. -/
def rETH_PARSE_EXC (i : Nat) : Nat := 0xA01028 + 64 * i
def fETH_PARSE_EXC_COUNT (i : Nat) : Fld := ⟨rETH_PARSE_EXC i, 0, 32⟩
/-- ETH_ISOL_DROP[l] (R390): Frames dropped by R376 or R378. -/
def rETH_ISOL_DROP (i : Nat) : Nat := 0xA0102C + 64 * i
def fETH_ISOL_DROP_COUNT (i : Nat) : Fld := ⟨rETH_ISOL_DROP i, 0, 32⟩
/-- ETH_PROG[n] (R390): Instruction n mod 256 of program n / 256. -/
def rETH_PROG (i : Nat) : Nat := 0xA10000 + 8 * i
def fETH_PROG_INSTR (i : Nat) : Fld := ⟨rETH_PROG i, 0, 64⟩
/-- ETH_GNODE[n][w] (R390): Word w of graph node n. -/
def rETH_GNODE (i : Nat) (j : Nat) : Nat := 0xA20000 + 32 * i + 4 * j
def fETH_GNODE_WORD (i : Nat) (j : Nat) : Fld := ⟨rETH_GNODE i j, 0, 32⟩
/-- ETH_RULE_PKTS[c] (R390): Frames of counter c. -/
def rETH_RULE_PKTS (i : Nat) : Nat := 0xA30000 + 16 * i
def fETH_RULE_PKTS_COUNT (i : Nat) : Fld := ⟨rETH_RULE_PKTS i, 0, 64⟩
/-- ETH_RULE_BYTES[c] (R390): Bytes of counter c. -/
def rETH_RULE_BYTES (i : Nat) : Nat := 0xA30008 + 16 * i
def fETH_RULE_BYTES_COUNT (i : Nat) : Fld := ⟨rETH_RULE_BYTES i, 0, 64⟩
/-- TRF_ERR (R391): [0] CFG_DROP, W1C; [31:1] reserved. -/
def rTRF_ERR : Nat := 0xB00000
def fTRF_ERR_CFG_DROP : Fld := ⟨rTRF_ERR, 0, 1⟩
/-- TRF_DSCP_COLOUR[k] (R391): 2 bits per DSCP 16k to 16k + 15: 0 green, 1 yellow, 2 red, 3 reserved. -/
def rTRF_DSCP_COLOUR (i : Nat) : Nat := 0xB00010 + 4 * i
def fTRF_DSCP_COLOUR_COLOURS (i : Nat) : Fld := ⟨rTRF_DSCP_COLOUR i, 0, 32⟩
/-- TRF_LNODE[l] (R391): [11:0] SHAPER of port l. -/
def rTRF_LNODE (i : Nat) : Nat := 0xB01000 + 4 * i
def fTRF_LNODE_SHAPER (i : Nat) : Fld := ⟨rTRF_LNODE i, 0, 12⟩
/-- TRF_CNODE[8l + c] (R391): [24] STRICT; [23:16] WEIGHT; [11:0] SHAPER. -/
def rTRF_CNODE (i : Nat) : Nat := 0xB01100 + 4 * i
def fTRF_CNODE_STRICT (i : Nat) : Fld := ⟨rTRF_CNODE i, 24, 1⟩
def fTRF_CNODE_WEIGHT (i : Nat) : Fld := ⟨rTRF_CNODE i, 16, 8⟩
def fTRF_CNODE_SHAPER (i : Nat) : Fld := ⟨rTRF_CNODE i, 0, 12⟩
/-- TRF_PNODE[n] (R391): [23:16] WEIGHT; [11:0] SHAPER; n = (8l + c) × 65 + p. -/
def rTRF_PNODE (i : Nat) : Nat := 0xB10000 + 4 * i
def fTRF_PNODE_WEIGHT (i : Nat) : Fld := ⟨rTRF_PNODE i, 16, 8⟩
def fTRF_PNODE_SHAPER (i : Nat) : Fld := ⟨rTRF_PNODE i, 0, 12⟩
/-- TRF_SHP[s] (R391): RATE, BURST, OVERHEAD (R389). -/
def rTRF_SHP (i : Nat) : Nat := 0xB20000 + 16 * i
def fTRF_SHP_RATE (i : Nat) : Fld := ⟨rTRF_SHP i, 0, 32⟩
def fTRF_SHP_BURST (i : Nat) : Fld := ⟨rTRF_SHP i, 32, 24⟩
def fTRF_SHP_OVERHEAD (i : Nat) : Fld := ⟨rTRF_SHP i, 56, 7⟩
/-- TRF_SHP_LEVEL[s] (R391): Bucket level in bytes, two's complement, RO. -/
def rTRF_SHP_LEVEL (i : Nat) : Nat := 0xB20008 + 16 * i
def fTRF_SHP_LEVEL_LEVEL (i : Nat) : Fld := ⟨rTRF_SHP_LEVEL i, 0, 32⟩
/-- TRF_POL_RATE[i] (R391): [31:0] CIR; [63:32] PIR or EIR. -/
def rTRF_POL_RATE (i : Nat) : Nat := 0xB30000 + 32 * i
def fTRF_POL_RATE_CIR (i : Nat) : Fld := ⟨rTRF_POL_RATE i, 0, 32⟩
def fTRF_POL_RATE_PIR (i : Nat) : Fld := ⟨rTRF_POL_RATE i, 32, 32⟩
/-- TRF_POL_SIZE[i] (R391): [23:0] CBS; [47:24] PBS or EBS; [54:48] OVERHEAD; [56] AWARE; [58:57] MODE. -/
def rTRF_POL_SIZE (i : Nat) : Nat := 0xB30008 + 32 * i
def fTRF_POL_SIZE_CBS (i : Nat) : Fld := ⟨rTRF_POL_SIZE i, 0, 24⟩
def fTRF_POL_SIZE_PBS (i : Nat) : Fld := ⟨rTRF_POL_SIZE i, 24, 24⟩
def fTRF_POL_SIZE_OVERHEAD (i : Nat) : Fld := ⟨rTRF_POL_SIZE i, 48, 7⟩
def fTRF_POL_SIZE_AWARE (i : Nat) : Fld := ⟨rTRF_POL_SIZE i, 56, 1⟩
def fTRF_POL_SIZE_MODE (i : Nat) : Fld := ⟨rTRF_POL_SIZE i, 57, 2⟩
/-- TRF_POL_GREEN[i] (R391): Green frames. -/
def rTRF_POL_GREEN (i : Nat) : Nat := 0xB50000 + 32 * i
def fTRF_POL_GREEN_COUNT (i : Nat) : Fld := ⟨rTRF_POL_GREEN i, 0, 64⟩
/-- TRF_POL_YELLOW[i] (R391): Yellow frames. -/
def rTRF_POL_YELLOW (i : Nat) : Nat := 0xB50008 + 32 * i
def fTRF_POL_YELLOW_COUNT (i : Nat) : Fld := ⟨rTRF_POL_YELLOW i, 0, 64⟩
/-- TRF_POL_RED[i] (R391): Red frames. -/
def rTRF_POL_RED (i : Nat) : Nat := 0xB50010 + 32 * i
def fTRF_POL_RED_COUNT (i : Nat) : Fld := ⟨rTRF_POL_RED i, 0, 64⟩
/-- CIP_LOCK (R412): Lock. -/
def rCIP_LOCK : Nat := 0xC00000
def fCIP_LOCK_KEY : Fld := ⟨rCIP_LOCK, 16, 16⟩
def fCIP_LOCK_GEN : Fld := ⟨rCIP_LOCK, 8, 8⟩
def fCIP_LOCK_WAITING : Fld := ⟨rCIP_LOCK, 4, 1⟩
def fCIP_LOCK_OWNER : Fld := ⟨rCIP_LOCK, 2, 2⟩
def fCIP_LOCK_RELEASE : Fld := ⟨rCIP_LOCK, 1, 1⟩
def fCIP_LOCK_ACQUIRE : Fld := ⟨rCIP_LOCK, 0, 1⟩
/-- CIP_CFG (R412): Hold limit, completion vector. -/
def rCIP_CFG : Nat := 0xC00004
def fCIP_CFG_VEC_EN : Fld := ⟨rCIP_CFG, 31, 1⟩
def fCIP_CFG_VECTOR : Fld := ⟨rCIP_CFG, 16, 12⟩
def fCIP_CFG_HOLD_MS : Fld := ⟨rCIP_CFG, 0, 8⟩
/-- CIP_ERR (R412): Error flags. -/
def rCIP_ERR : Nat := 0xC00008
def fCIP_ERR_NOT_OWNER : Fld := ⟨rCIP_ERR, 4, 1⟩
def fCIP_ERR_REVOKED : Fld := ⟨rCIP_ERR, 3, 1⟩
def fCIP_ERR_CORE_OUT : Fld := ⟨rCIP_ERR, 2, 1⟩
def fCIP_ERR_TAG_FAIL : Fld := ⟨rCIP_ERR, 1, 1⟩
def fCIP_ERR_MISMATCH : Fld := ⟨rCIP_ERR, 0, 1⟩
/-- CIP_RING_BASE (R412): Ring base. -/
def rCIP_RING_BASE : Nat := 0xC00010
def fCIP_RING_BASE_BASE : Fld := ⟨rCIP_RING_BASE, 0, 64⟩
/-- CIP_RING_CTRL (R412): Ring size. -/
def rCIP_RING_CTRL : Nat := 0xC00018
def fCIP_RING_CTRL_SIZE_LOG2 : Fld := ⟨rCIP_RING_CTRL, 0, 5⟩
/-- CIP_TAIL (R412): Tail. -/
def rCIP_TAIL : Nat := 0xC0001C
def fCIP_TAIL_INDEX : Fld := ⟨rCIP_TAIL, 0, 16⟩
/-- CIP_HEAD (R412): Head. -/
def rCIP_HEAD : Nat := 0xC00020
def fCIP_HEAD_INDEX : Fld := ⟨rCIP_HEAD, 0, 16⟩
/-- CIP_CORES (R412): AES cores in service. -/
def rCIP_CORES : Nat := 0xC00024
def fCIP_CORES_IN_SERVICE : Fld := ⟨rCIP_CORES, 0, 24⟩
/-- CIP_FAULT (R412): Check failures. -/
def rCIP_FAULT : Nat := 0xC00028
def fCIP_FAULT_COUNT : Fld := ⟨rCIP_FAULT, 0, 32⟩
/-- CIP_TAGFAIL (R412): Tag failures. -/
def rCIP_TAGFAIL : Nat := 0xC0002C
def fCIP_TAGFAIL_COUNT : Fld := ⟨rCIP_TAGFAIL, 0, 32⟩
/-- CIP_BOOT (R412): Boot progress. -/
def rCIP_BOOT : Nat := 0xC00030
def fCIP_BOOT_SVN : Fld := ⟨rCIP_BOOT, 16, 8⟩
def fCIP_BOOT_CODE : Fld := ⟨rCIP_BOOT, 8, 8⟩
def fCIP_BOOT_IMG : Fld := ⟨rCIP_BOOT, 4, 1⟩
def fCIP_BOOT_STAGE : Fld := ⟨rCIP_BOOT, 0, 4⟩
/-- CIP_SLOT[n] (R412): State of key slot n, n = 0 to 1,023. -/
def rCIP_SLOT (i : Nat) : Nat := 0xC01000 + 4 * i
def fCIP_SLOT_VALID (i : Nat) : Fld := ⟨rCIP_SLOT i, 31, 1⟩
def fCIP_SLOT_SIZE (i : Nat) : Fld := ⟨rCIP_SLOT i, 4, 2⟩
def fCIP_SLOT_USE (i : Nat) : Fld := ⟨rCIP_SLOT i, 0, 4⟩
/-- LDG_STATE (R440): Processor states, device ready. -/
def rLDG_STATE : Nat := 0xD00000
def fLDG_STATE_READY : Fld := ⟨rLDG_STATE, 16, 1⟩
def fLDG_STATE_SEC : Fld := ⟨rLDG_STATE, 8, 4⟩
def fLDG_STATE_PWR : Fld := ⟨rLDG_STATE, 4, 4⟩
def fLDG_STATE_MGT : Fld := ⟨rLDG_STATE, 0, 4⟩
/-- LDG_ERR (R440): Error flags. -/
def rLDG_ERR : Nat := 0xD00004
def fLDG_ERR_MAPOUT : Fld := ⟨rLDG_ERR, 2, 1⟩
def fLDG_ERR_RESTART : Fld := ⟨rLDG_ERR, 1, 1⟩
def fLDG_ERR_EMU_DROP : Fld := ⟨rLDG_ERR, 0, 1⟩
/-- LDG_RESTARTS[c] (R440): Restarts of processor c. -/
def rLDG_RESTARTS (i : Nat) : Nat := 0xD00010 + 4 * i
def fLDG_RESTARTS_COUNT (i : Nat) : Fld := ⟨rLDG_RESTARTS i, 0, 32⟩
/-- LDG_CAUSE[c] (R440): Cause of the latest restart. -/
def rLDG_CAUSE (i : Nat) : Nat := 0xD00020 + 4 * i
def fLDG_CAUSE_CAUSE (i : Nat) : Fld := ⟨rLDG_CAUSE i, 0, 8⟩
/-- LDG_MAPOUT0 (R440): Physical pavilions 0 to 63 mapped out. -/
def rLDG_MAPOUT0 : Nat := 0xD00030
def fLDG_MAPOUT0_BITS : Fld := ⟨rLDG_MAPOUT0, 0, 64⟩
/-- LDG_MAPOUT1 (R440): Physical pavilions 64 to 127 mapped out. -/
def rLDG_MAPOUT1 : Nat := 0xD00038
def fLDG_MAPOUT1_BITS : Fld := ⟨rLDG_MAPOUT1, 0, 64⟩
/-- LDG_MAPOUT2 (R440): Physical pavilions 128 to 143 mapped out. -/
def rLDG_MAPOUT2 : Nat := 0xD00040
def fLDG_MAPOUT2_BITS : Fld := ⟨rLDG_MAPOUT2, 0, 64⟩
/-- LDG_EV_CTRL[c] (R440): Delivery control. -/
def rLDG_EV_CTRL (i : Nat) : Nat := 0xD01000 + 4096 * i
def fLDG_EV_CTRL_CORE_MASK (i : Nat) : Fld := ⟨rLDG_EV_CTRL i, 1, 1⟩
def fLDG_EV_CTRL_DELIVER_DIS (i : Nat) : Fld := ⟨rLDG_EV_CTRL i, 0, 1⟩
/-- LDG_EV_NEXT[c] (R440): Next source to deliver. -/
def rLDG_EV_NEXT (i : Nat) : Nat := 0xD01004 + 4096 * i
def fLDG_EV_NEXT_VALID (i : Nat) : Fld := ⟨rLDG_EV_NEXT i, 9, 1⟩
def fLDG_EV_NEXT_SRC (i : Nat) : Fld := ⟨rLDG_EV_NEXT i, 0, 9⟩
/-- LDG_EV_SRC[c][s] (R440): Source s. -/
def rLDG_EV_SRC (i : Nat) (j : Nat) : Nat := 0xD01100 + 4096 * i + 4 * j
def fLDG_EV_SRC_PENDING (i : Nat) (j : Nat) : Fld := ⟨rLDG_EV_SRC i j, 4, 1⟩
def fLDG_EV_SRC_RAW (i : Nat) (j : Nat) : Fld := ⟨rLDG_EV_SRC i j, 3, 1⟩
def fLDG_EV_SRC_ENABLE (i : Nat) (j : Nat) : Fld := ⟨rLDG_EV_SRC i j, 2, 1⟩
def fLDG_EV_SRC_SENSE (i : Nat) (j : Nat) : Fld := ⟨rLDG_EV_SRC i j, 0, 2⟩
/-- EMU_IF_VERSION (R441): Emulated-register interface version. -/
def rEMU_IF_VERSION : Nat := 0xF00000
def fEMU_IF_VERSION_BUSY : Fld := ⟨rEMU_IF_VERSION, 31, 1⟩
def fEMU_IF_VERSION_VERSION : Fld := ⟨rEMU_IF_VERSION, 0, 8⟩
/-- EMU_STATUS (R441): Command and firmware state. -/
def rEMU_STATUS : Nat := 0xF00004
def fEMU_STATUS_BUSY : Fld := ⟨rEMU_STATUS, 31, 1⟩
def fEMU_STATUS_RUNNING : Fld := ⟨rEMU_STATUS, 30, 1⟩
def fEMU_STATUS_FW_STATE : Fld := ⟨rEMU_STATUS, 27, 3⟩
def fEMU_STATUS_RUN_SET : Fld := ⟨rEMU_STATUS, 26, 1⟩
def fEMU_STATUS_LAST_CMD : Fld := ⟨rEMU_STATUS, 16, 8⟩
def fEMU_STATUS_LAST_STATUS : Fld := ⟨rEMU_STATUS, 0, 16⟩
/-- EMU_CMD_ADDR_LO (R441): Command block address, low part. -/
def rEMU_CMD_ADDR_LO : Nat := 0xF00008
def fEMU_CMD_ADDR_LO_BUSY : Fld := ⟨rEMU_CMD_ADDR_LO, 31, 1⟩
def fEMU_CMD_ADDR_LO_ADDR : Fld := ⟨rEMU_CMD_ADDR_LO, 0, 31⟩
/-- EMU_CMD_ADDR_HI (R441): Command block address, high part. -/
def rEMU_CMD_ADDR_HI : Nat := 0xF0000C
def fEMU_CMD_ADDR_HI_BUSY : Fld := ⟨rEMU_CMD_ADDR_HI, 31, 1⟩
def fEMU_CMD_ADDR_HI_ADDR : Fld := ⟨rEMU_CMD_ADDR_HI, 0, 27⟩
/-- EMU_CMD (R441): Start a command. -/
def rEMU_CMD : Nat := 0xF00010
def fEMU_CMD_BUSY : Fld := ⟨rEMU_CMD, 31, 1⟩
def fEMU_CMD_GO : Fld := ⟨rEMU_CMD, 0, 1⟩
/-- PWR_STATE (R457): Conditions, request, governor. -/
def rPWR_STATE : Nat := 0xE00000
def fPWR_STATE_COND : Fld := ⟨rPWR_STATE, 16, 13⟩
def fPWR_STATE_REQ : Fld := ⟨rPWR_STATE, 12, 4⟩
def fPWR_STATE_GOV : Fld := ⟨rPWR_STATE, 7, 1⟩
def fPWR_STATE_CLAMP_ACT : Fld := ⟨rPWR_STATE, 6, 1⟩
def fPWR_STATE_EMERG : Fld := ⟨rPWR_STATE, 0, 1⟩
/-- PWR_ERR (R457): Error flags. -/
def rPWR_ERR : Nat := 0xE00004
def fPWR_ERR_CFG_DROP : Fld := ⟨rPWR_ERR, 3, 1⟩
def fPWR_ERR_CLASS_OVER : Fld := ⟨rPWR_ERR, 2, 1⟩
def fPWR_ERR_PMBUS : Fld := ⟨rPWR_ERR, 1, 1⟩
def fPWR_ERR_COND : Fld := ⟨rPWR_ERR, 0, 1⟩
/-- PWR_CFG (R457): Loop enables. -/
def rPWR_CFG : Nat := 0xE00008
def fPWR_CFG_PACE_EN : Fld := ⟨rPWR_CFG, 8, 1⟩
def fPWR_CFG_EB_EN : Fld := ⟨rPWR_CFG, 4, 1⟩
def fPWR_CFG_COOL_EN : Fld := ⟨rPWR_CFG, 3, 1⟩
def fPWR_CFG_TJ_EN : Fld := ⟨rPWR_CFG, 2, 1⟩
def fPWR_CFG_FF_EN : Fld := ⟨rPWR_CFG, 1, 1⟩
def fPWR_CFG_PUMP_MAN : Fld := ⟨rPWR_CFG, 0, 1⟩
/-- PWR_TJ (R457): Junction temperature. -/
def rPWR_TJ : Nat := 0xE0000C
def fPWR_TJ_TJ : Fld := ⟨rPWR_TJ, 0, 16⟩
/-- PWR_TJ_CFG (R457): Junction thresholds. -/
def rPWR_TJ_CFG : Nat := 0xE00010
def fPWR_TJ_CFG_PACE_HOT : Fld := ⟨rPWR_TJ_CFG, 24, 4⟩
def fPWR_TJ_CFG_TJ_WARN : Fld := ⟨rPWR_TJ_CFG, 16, 8⟩
def fPWR_TJ_CFG_TJ_TARGET : Fld := ⟨rPWR_TJ_CFG, 8, 8⟩
/-- PWR_TJ_GAIN (R457): Junction loop gains. -/
def rPWR_TJ_GAIN : Nat := 0xE00014
def fPWR_TJ_GAIN_KI : Fld := ⟨rPWR_TJ_GAIN, 16, 16⟩
def fPWR_TJ_GAIN_KP : Fld := ⟨rPWR_TJ_GAIN, 0, 16⟩
/-- PWR_COOL (R457): Coolant readings. -/
def rPWR_COOL : Nat := 0xE00018
def fPWR_COOL_PUMP_RPM : Fld := ⟨rPWR_COOL, 48, 16⟩
def fPWR_COOL_FLOW : Fld := ⟨rPWR_COOL, 32, 16⟩
def fPWR_COOL_OUTLET : Fld := ⟨rPWR_COOL, 16, 16⟩
def fPWR_COOL_INLET : Fld := ⟨rPWR_COOL, 0, 16⟩
/-- PWR_COOL_CFG (R457): Coolant thresholds. -/
def rPWR_COOL_CFG : Nat := 0xE00020
def fPWR_COOL_CFG_TOUT_MAX : Fld := ⟨rPWR_COOL_CFG, 24, 8⟩
def fPWR_COOL_CFG_TOUT_WARN : Fld := ⟨rPWR_COOL_CFG, 16, 8⟩
def fPWR_COOL_CFG_TOUT_TARGET : Fld := ⟨rPWR_COOL_CFG, 8, 8⟩
/-- PWR_COOL_GAIN (R457): Coolant loop gains. -/
def rPWR_COOL_GAIN : Nat := 0xE00024
def fPWR_COOL_GAIN_KI : Fld := ⟨rPWR_COOL_GAIN, 16, 16⟩
def fPWR_COOL_GAIN_KP : Fld := ⟨rPWR_COOL_GAIN, 0, 16⟩
/-- PWR_FLOW_CFG (R457): Flow sensor and limits. -/
def rPWR_FLOW_CFG : Nat := 0xE00028
def fPWR_FLOW_CFG_K_FLOW : Fld := ⟨rPWR_FLOW_CFG, 32, 16⟩
def fPWR_FLOW_CFG_FLOW_MIN : Fld := ⟨rPWR_FLOW_CFG, 16, 16⟩
def fPWR_FLOW_CFG_FLOW_WARN : Fld := ⟨rPWR_FLOW_CFG, 0, 16⟩
/-- PWR_PUMP_CFG (R457): Pump limits. -/
def rPWR_PUMP_CFG : Nat := 0xE00030
def fPWR_PUMP_CFG_TACH_MIN : Fld := ⟨rPWR_PUMP_CFG, 16, 16⟩
def fPWR_PUMP_CFG_TACH_PPR : Fld := ⟨rPWR_PUMP_CFG, 12, 4⟩
def fPWR_PUMP_CFG_PUMP_MIN : Fld := ⟨rPWR_PUMP_CFG, 0, 8⟩
/-- PWR_PUMP (R457): Pump duty. -/
def rPWR_PUMP : Nat := 0xE00034
def fPWR_PUMP_DUTY : Fld := ⟨rPWR_PUMP, 16, 8⟩
def fPWR_PUMP_MAN_PCT : Fld := ⟨rPWR_PUMP, 0, 8⟩
/-- PWR_NODE (R457): Node limit and power. -/
def rPWR_NODE : Nat := 0xE00038
def fPWR_NODE_P_NOW : Fld := ⟨rPWR_NODE, 32, 16⟩
def fPWR_NODE_IDLE_W : Fld := ⟨rPWR_NODE, 16, 16⟩
def fPWR_NODE_LIMIT : Fld := ⟨rPWR_NODE, 0, 16⟩
/-- PWR_EB_CFG (R457): Buffer configuration. -/
def rPWR_EB_CFG : Nat := 0xE00040
def fPWR_EB_CFG_EB_WH : Fld := ⟨rPWR_EB_CFG, 32, 16⟩
def fPWR_EB_CFG_SOC_CMD : Fld := ⟨rPWR_EB_CFG, 24, 8⟩
def fPWR_EB_CFG_SOC_WARN : Fld := ⟨rPWR_EB_CFG, 16, 8⟩
def fPWR_EB_CFG_SOC_MAX : Fld := ⟨rPWR_EB_CFG, 8, 8⟩
def fPWR_EB_CFG_SOC_MIN : Fld := ⟨rPWR_EB_CFG, 0, 8⟩
/-- PWR_EB_POWER (R457): Buffer power limits. -/
def rPWR_EB_POWER : Nat := 0xE00048
def fPWR_EB_POWER_CHG_W : Fld := ⟨rPWR_EB_POWER, 16, 16⟩
def fPWR_EB_POWER_EB_PMAX : Fld := ⟨rPWR_EB_POWER, 0, 16⟩
/-- PWR_EB_STATUS (R457): Buffer state. -/
def rPWR_EB_STATUS : Nat := 0xE0004C
def fPWR_EB_STATUS_PLAN_MIN : Fld := ⟨rPWR_EB_STATUS, 16, 8⟩
def fPWR_EB_STATUS_MODE : Fld := ⟨rPWR_EB_STATUS, 8, 2⟩
def fPWR_EB_STATUS_SOC : Fld := ⟨rPWR_EB_STATUS, 0, 8⟩
/-- PWR_LEAD (R457): Feedforward lead times. -/
def rPWR_LEAD : Nat := 0xE00050
def fPWR_LEAD_LEAD_PUMP : Fld := ⟨rPWR_LEAD, 8, 8⟩
def fPWR_LEAD_LEAD_BUF : Fld := ⟨rPWR_LEAD, 0, 8⟩
/-- PWR_BUS (R457): Device addresses. -/
def rPWR_BUS : Nat := 0xE00054
def fPWR_BUS_TS_SMB : Fld := ⟨rPWR_BUS, 31, 1⟩
def fPWR_BUS_TS_ADDR : Fld := ⟨rPWR_BUS, 24, 7⟩
def fPWR_BUS_EB_ADDR : Fld := ⟨rPWR_BUS, 16, 7⟩
def fPWR_BUS_NODE_ADDR : Fld := ⟨rPWR_BUS, 8, 7⟩
def fPWR_BUS_VCORE_ADDR : Fld := ⟨rPWR_BUS, 0, 7⟩
/-- PWR_VCORE (R457): Core rail readings. -/
def rPWR_VCORE : Nat := 0xE00058
def fPWR_VCORE_IOUT : Fld := ⟨rPWR_VCORE, 16, 16⟩
def fPWR_VCORE_VOUT : Fld := ⟨rPWR_VCORE, 0, 16⟩
/-- PWR_CLAMPS (R457): Clamp actions. -/
def rPWR_CLAMPS : Nat := 0xE0005C
def fPWR_CLAMPS_COUNT : Fld := ⟨rPWR_CLAMPS, 0, 32⟩
/-- PWR_EMERG (R457): Emergencies entered. -/
def rPWR_EMERG : Nat := 0xE00060
def fPWR_EMERG_COUNT : Fld := ⟨rPWR_EMERG, 0, 32⟩
/-- PWR_CLASS[k] (R457): Power class k, k = 0 to 15. -/
def rPWR_CLASS (i : Nat) : Nat := 0xE00100 + 8 * i
def fPWR_CLASS_PUMP_PCT (i : Nat) : Fld := ⟨rPWR_CLASS i, 16, 8⟩
def fPWR_CLASS_NODE_W (i : Nat) : Fld := ⟨rPWR_CLASS i, 0, 16⟩
/-- LOG_WR (R475): Entries written since cold reset. -/
def rLOG_WR : Nat := 0x1000000
def fLOG_WR_COUNT : Fld := ⟨rLOG_WR, 0, 64⟩
/-- LOG_ERR (R475): Flags. -/
def rLOG_ERR : Nat := 0x1000008
def fLOG_ERR_WRAP : Fld := ⟨rLOG_ERR, 1, 1⟩
def fLOG_ERR_DEV_UE : Fld := ⟨rLOG_ERR, 0, 1⟩
/-- LOG_DEV_CE (R475): Corrected internal-structure errors. -/
def rLOG_DEV_CE : Nat := 0x100000C
def fLOG_DEV_CE_COUNT : Fld := ⟨rLOG_DEV_CE, 0, 32⟩
/-- LOG_DEV_UE (R475): Uncorrectable internal-structure errors. -/
def rLOG_DEV_UE : Nat := 0x1000010
def fLOG_DEV_UE_COUNT : Fld := ⟨rLOG_DEV_UE, 0, 32⟩
/-- LOG_MCTP (R475): MCTP addressing and enables. -/
def rLOG_MCTP : Nat := 0x1000014
def fLOG_MCTP_VDM_EN : Fld := ⟨rLOG_MCTP, 10, 1⟩
def fLOG_MCTP_I3C_EN : Fld := ⟨rLOG_MCTP, 9, 1⟩
def fLOG_MCTP_SMB_EN : Fld := ⟨rLOG_MCTP, 8, 1⟩
def fLOG_MCTP_SMB_ADDR : Fld := ⟨rLOG_MCTP, 0, 7⟩

/-- The register map of the TOP window. -/
def regRowsTOP : List RegRow := [
  { name := "TOP_ID", off := 0x0, width := 32, reset := 0x8800B000,
    fields := [⟨16, 16, .ro, .any⟩, ⟨8, 8, .ro, .any⟩] },
  { name := "TOP_CLK_STATUS", off := 0x10, width := 32, reset := 0x0,
    fields := [⟨3, 1, .w1c, .any⟩, ⟨2, 1, .ro, .any⟩, ⟨1, 1, .ro, .any⟩, ⟨0, 1, .ro, .any⟩] },
  { name := "TOP_RST_CTRL", off := 0x20, width := 32, reset := 0x0,
    fields := [⟨16, 16, .wo, .any⟩, ⟨1, 1, .wo, .any⟩, ⟨0, 1, .wo, .any⟩] },
  { name := "TOP_RST_CAUSE", off := 0x24, width := 32, reset := 0x1,
    fields := [⟨6, 1, .ro, .any⟩, ⟨5, 1, .ro, .any⟩, ⟨4, 1, .ro, .any⟩, ⟨3, 1, .ro, .any⟩, ⟨2, 1, .ro, .any⟩, ⟨1, 1, .ro, .any⟩, ⟨0, 1, .ro, .any⟩] },
  { name := "TOP_GEN", off := 0x28, width := 32, reset := 0x0,
    fields := [⟨0, 8, .ro, .any⟩] }]

/-- The register map of the PAV window. -/
def regRowsPAV : List RegRow := [
  { name := "PAV_CFG", off := 0x100000, width := 32, reset := 0x0,
    fields := [⟨16, 8, .ro, .any⟩, ⟨8, 8, .ro, .any⟩, ⟨0, 5, .ro, .any⟩] },
  { name := "PAV_PRESENT0", off := 0x100008, width := 64, reset := 0x0,
    fields := [⟨0, 64, .ro, .any⟩] },
  { name := "PAV_PRESENT1", off := 0x100010, width := 64, reset := 0x0,
    fields := [⟨0, 64, .ro, .any⟩] },
  { name := "PAV_PAIR_OK", off := 0x100018, width := 64, reset := 0x0,
    fields := [⟨0, 64, .ro, .any⟩] },
  { name := "PAV_PAIR", off := 0x100020, width := 64, reset := 0x0,
    fields := [⟨0, 64, .ro, .any⟩] },
  { name := "PAV_RST_CTRL", off := 0x100030, width := 32, reset := 0x0,
    fields := [⟨16, 16, .wo, .any⟩, ⟨0, 8, .wo, .any⟩] },
  { name := "PAV_RST_STATUS", off := 0x100034, width := 32, reset := 0x0,
    fields := [⟨8, 1, .ro, .any⟩, ⟨0, 8, .ro, .any⟩] },
  { name := "PAV_ERR", off := 0x100038, width := 32, reset := 0x0,
    fields := [⟨4, 1, .w1c, .any⟩, ⟨3, 1, .w1c, .any⟩, ⟨2, 1, .w1c, .any⟩, ⟨1, 1, .w1c, .any⟩, ⟨0, 1, .w1c, .any⟩] },
  { name := "PAV_MAP", off := 0x101000, s1 := 4, n1 := 128, width := 32, reset := 0x0,
    fields := [⟨31, 1, .ro, .any⟩, ⟨16, 4, .ro, .any⟩, ⟨12, 3, .ro, .any⟩, ⟨8, 3, .ro, .any⟩, ⟨0, 8, .ro, .any⟩] },
  { name := "PAV_CE", off := 0x102000, s1 := 16, n1 := 128, width := 32, reset := 0x0,
    fields := [⟨0, 32, .w1c, .any⟩] },
  { name := "PAV_STALE", off := 0x102004, s1 := 16, n1 := 128, width := 32, reset := 0x0,
    fields := [⟨0, 32, .w1c, .any⟩] },
  { name := "PAV_BSTALL", off := 0x102008, s1 := 16, n1 := 128, width := 64, reset := 0x0,
    fields := [⟨0, 64, .w1c, .any⟩] }]

/-- The register map of the SCH window. -/
def regRowsSCH : List RegRow := [
  { name := "SCH_CTRL", off := 0x200000, width := 32, reset := 0x0,
    fields := [⟨16, 16, .wo, .any⟩, ⟨3, 1, .wo, .any⟩, ⟨2, 1, .wo, .any⟩, ⟨1, 1, .wo, .any⟩, ⟨0, 1, .wo, .any⟩] },
  { name := "SCH_STATE", off := 0x200004, width := 32, reset := 0x0,
    fields := [⟨16, 16, .ro, .any⟩, ⟨8, 1, .w1c, .any⟩, ⟨4, 2, .ro, .any⟩, ⟨0, 3, .ro, .any⟩] },
  { name := "SCH_LOAD_STATUS", off := 0x200008, width := 32, reset := 0x0,
    fields := [⟨16, 16, .ro, .any⟩, ⟨0, 16, .ro, .any⟩] },
  { name := "SCH_CFG", off := 0x20000C, width := 32, reset := 0x3,
    fields := [⟨7, 1, .rw, .any⟩, ⟨0, 3, .rw, .any⟩] },
  { name := "SCH_IMG_ADDR", off := 0x200010, width := 64, reset := 0x0,
    fields := [⟨0, 64, .rw, .mult 64⟩] },
  { name := "SCH_IMG_LEN", off := 0x200018, width := 64, reset := 0x0,
    fields := [⟨0, 64, .rw, .any⟩] },
  { name := "SCH_ACT_TB", off := 0x200020, width := 64, reset := 0x0,
    fields := [⟨0, 64, .rw, .mult 8⟩] },
  { name := "SCH_ACT_EPOCH", off := 0x200028, width := 32, reset := 0x0,
    fields := [⟨0, 32, .rw, .any⟩] },
  { name := "SCH_START_STEP", off := 0x20002C, width := 32, reset := 0x0,
    fields := [⟨0, 32, .rw, .any⟩] },
  { name := "SCH_REPORT_ADDR", off := 0x200030, width := 64, reset := 0x0,
    fields := [⟨0, 64, .rw, .mult 64⟩] },
  { name := "SCH_STORE_BASE", off := 0x200038, width := 64, reset := 0x0,
    fields := [⟨0, 64, .rw, .mult 0x200000⟩] },
  { name := "SCH_STORE_SIZE", off := 0x200040, width := 32, reset := 0x0,
    fields := [⟨0, 32, .rw, .multMax 2 1024⟩] },
  { name := "SCH_TB", off := 0x200050, width := 64, reset := 0x0,
    fields := [⟨0, 64, .ro, .any⟩] },
  { name := "SCH_EPOCH", off := 0x200058, width := 32, reset := 0x0,
    fields := [⟨0, 32, .ro, .any⟩] },
  { name := "SCH_RECORD", off := 0x20005C, width := 32, reset := 0x0,
    fields := [⟨0, 32, .ro, .any⟩] },
  { name := "SCH_STEP", off := 0x200060, width := 32, reset := 0x0,
    fields := [⟨0, 32, .ro, .any⟩] },
  { name := "SCH_COMMITTED", off := 0x200064, width := 32, reset := 0x0,
    fields := [⟨0, 32, .ro, .any⟩] },
  { name := "SCH_ATTEMPT", off := 0x200068, width := 32, reset := 0x0,
    fields := [⟨0, 8, .ro, .any⟩] },
  { name := "SCH_PACE", off := 0x20006C, width := 32, reset := 0x0,
    fields := [⟨8, 4, .ro, .any⟩, ⟨0, 4, .ro, .any⟩] },
  { name := "SCH_PACE_REQ", off := 0x200070, width := 32, reset := 0x0,
    fields := [⟨0, 4, .rw, .any⟩] },
  { name := "SCH_FAULT", off := 0x200074, width := 32, reset := 0x0,
    fields := [⟨18, 14, .ro, .any⟩, ⟨10, 8, .ro, .any⟩, ⟨0, 4, .ro, .any⟩] },
  { name := "SCH_FAULT_COUNT", off := 0x200078, width := 32, reset := 0x0,
    fields := [⟨0, 32, .w1c, .any⟩] },
  { name := "SCH_TS_CTRL", off := 0x200080, width := 32, reset := 0xA00,
    fields := [⟨8, 5, .rw, .range 10 31⟩, ⟨7, 1, .rw, .any⟩, ⟨6, 1, .rw, .any⟩, ⟨0, 5, .rw, .range 0 23⟩] },
  { name := "SCH_TS_STATUS", off := 0x200084, width := 32, reset := 0x0,
    fields := [⟨4, 4, .ro, .any⟩, ⟨1, 1, .w1c, .any⟩, ⟨0, 1, .ro, .any⟩] },
  { name := "SCH_TS_OFFSET", off := 0x200088, width := 32, reset := 0x0,
    fields := [⟨0, 32, .ro, .any⟩] },
  { name := "SCH_TS_MAXOFS", off := 0x20008C, width := 32, reset := 0x0,
    fields := [⟨0, 32, .w1c, .any⟩] },
  { name := "SCH_TS_ASYM", off := 0x200100, s1 := 4, n1 := 24, width := 32, reset := 0x0,
    fields := [⟨0, 32, .rw, .any⟩] },
  { name := "SCH_SLACK", off := 0x200200, s1 := 8, n1 := 16, width := 64, reset := 0x0,
    fields := [⟨0, 64, .w1c, .any⟩] }]

/-- The register map of the FAB window. -/
def regRowsFAB : List RegRow := [
  { name := "FAB_DEVNUM", off := 0x300000, width := 32, reset := 0x0,
    fields := [⟨0, 14, .rw, .any⟩] },
  { name := "FAB_RT_CTRL", off := 0x300004, width := 32, reset := 0x0,
    fields := [⟨16, 16, .wo, .any⟩, ⟨2, 1, .ro, .any⟩, ⟨1, 1, .wo, .any⟩, ⟨0, 1, .ro, .any⟩] },
  { name := "FAB_ERR", off := 0x300008, width := 32, reset := 0x0,
    fields := [⟨3, 1, .w1c, .any⟩, ⟨2, 1, .w1c, .any⟩, ⟨1, 1, .w1c, .any⟩, ⟨0, 1, .w1c, .any⟩] },
  { name := "FAB_MISROUTE", off := 0x30000C, width := 32, reset := 0x0,
    fields := [⟨0, 32, .w1c, .any⟩] },
  { name := "FAB_PORT_CTRL", off := 0x301000, s1 := 64, n1 := 24, width := 32, reset := 0x30,
    fields := [⟨8, 8, .rw, .range 0 240⟩, ⟨4, 4, .rw, .range 2 3⟩, ⟨1, 1, .wo, .any⟩, ⟨0, 1, .rw, .any⟩] },
  { name := "FAB_PORT_STATUS", off := 0x301004, s1 := 64, n1 := 24, width := 32, reset := 0x0,
    fields := [⟨16, 16, .ro, .any⟩, ⟨12, 4, .ro, .any⟩, ⟨11, 1, .ro, .any⟩, ⟨10, 1, .w1c, .any⟩, ⟨4, 4, .ro, .any⟩, ⟨0, 4, .ro, .any⟩] },
  { name := "FAB_PORT_PEER", off := 0x301008, s1 := 64, n1 := 24, width := 32, reset := 0x0,
    fields := [⟨24, 8, .ro, .any⟩, ⟨16, 5, .ro, .any⟩, ⟨15, 1, .ro, .any⟩, ⟨0, 14, .ro, .any⟩] },
  { name := "FAB_CORR", off := 0x301010, s1 := 64, n1 := 24, width := 64, reset := 0x0,
    fields := [⟨0, 64, .w1c, .any⟩] },
  { name := "FAB_RETX", off := 0x301018, s1 := 64, n1 := 24, width := 64, reset := 0x0,
    fields := [⟨0, 64, .w1c, .any⟩] },
  { name := "FAB_DISCARD", off := 0x301020, s1 := 64, n1 := 24, width := 64, reset := 0x0,
    fields := [⟨0, 64, .w1c, .any⟩] },
  { name := "FAB_LATE", off := 0x301028, s1 := 64, n1 := 24, width := 64, reset := 0x0,
    fields := [⟨0, 64, .w1c, .any⟩] },
  { name := "FAB_RETRAIN", off := 0x301030, s1 := 64, n1 := 24, width := 32, reset := 0x0,
    fields := [⟨0, 32, .w1c, .any⟩] },
  { name := "FAB_STALE", off := 0x301034, s1 := 64, n1 := 24, width := 32, reset := 0x0,
    fields := [⟨0, 32, .w1c, .any⟩] },
  { name := "FAB_RT", off := 0x310000, s1 := 4, n1 := 16384, width := 32, reset := 0x0,
    fields := [⟨31, 1, .rw, .any⟩, ⟨30, 1, .rw, .any⟩, ⟨29, 1, .rw, .any⟩, ⟨24, 5, .rw, .range 0 23⟩, ⟨0, 24, .rw, .any⟩] },
  { name := "FAB_GEN", off := 0x320000, s1 := 4, n1 := 16384, width := 32, reset := 0x0,
    fields := [⟨8, 1, .ro, .any⟩, ⟨0, 8, .ro, .any⟩] }]

/-- The register map of the MEM window. -/
def regRowsMEM : List RegRow := [
  { name := "MEM_CFG", off := 0x400000, width := 32, reset := 0x0,
    fields := [⟨16, 8, .ro, .any⟩, ⟨8, 8, .ro, .any⟩, ⟨0, 1, .ro, .any⟩] },
  { name := "MEM_STATUS", off := 0x400004, width := 32, reset := 0x0,
    fields := [⟨2, 1, .ro, .any⟩, ⟨1, 1, .ro, .any⟩, ⟨0, 1, .ro, .any⟩] },
  { name := "MEM_TRAIN_CTRL", off := 0x400008, width := 32, reset := 0x0,
    fields := [⟨16, 16, .wo, .any⟩, ⟨1, 1, .wo, .any⟩, ⟨0, 1, .rw, .any⟩] },
  { name := "MEM_ERR", off := 0x40000C, width := 32, reset := 0x0,
    fields := [⟨3, 1, .w1c, .any⟩, ⟨2, 1, .w1c, .any⟩, ⟨1, 1, .w1c, .any⟩, ⟨0, 1, .w1c, .any⟩] },
  { name := "MEM_UE_ADDR", off := 0x400010, width := 64, reset := 0x0,
    fields := [⟨0, 64, .ro, .any⟩] },
  { name := "MEM_CE", off := 0x400100, s1 := 16, n1 := 12, width := 32, reset := 0x0,
    fields := [⟨0, 32, .w1c, .any⟩] },
  { name := "MEM_UE", off := 0x400104, s1 := 16, n1 := 12, width := 32, reset := 0x0,
    fields := [⟨0, 32, .w1c, .any⟩] },
  { name := "MEM_CRC_RETRY", off := 0x400108, s1 := 16, n1 := 12, width := 32, reset := 0x0,
    fields := [⟨0, 32, .w1c, .any⟩] },
  { name := "MEM_PT_BASE", off := 0x401000, s1 := 16, n1 := 65, width := 64, reset := 0x0,
    fields := [⟨0, 64, .rw, .mult 64⟩] },
  { name := "MEM_PT_LEN", off := 0x401008, s1 := 16, n1 := 65, width := 32, reset := 0x0,
    fields := [⟨0, 32, .rw, .range 0 0x8000000⟩] }]

/-- The register map of the CXM window. -/
def regRowsCXM : List RegRow := [
  { name := "CXM_ERR", off := 0x500000, width := 32, reset := 0x0,
    fields := [⟨3, 1, .w1c, .any⟩, ⟨2, 1, .w1c, .any⟩, ⟨1, 1, .w1c, .any⟩, ⟨0, 1, .w1c, .any⟩] },
  { name := "CXM_MIG_STATUS", off := 0x500004, width := 32, reset := 0x0,
    fields := [⟨0, 5, .ro, .any⟩] },
  { name := "CXM_SVC_MASK0", off := 0x500008, width := 64, reset := 0x0,
    fields := [⟨0, 64, .rw, .any⟩] },
  { name := "CXM_SVC_MASK1", off := 0x500010, width := 64, reset := 0x0,
    fields := [⟨0, 64, .rw, .any⟩] },
  { name := "CXM_PORT_CTRL", off := 0x500100, s1 := 32, n1 := 2, width := 32, reset := 0x0,
    fields := [⟨1, 1, .rw, .any⟩, ⟨0, 1, .rw, .any⟩] },
  { name := "CXM_PORT_STATUS", off := 0x500104, s1 := 32, n1 := 2, width := 32, reset := 0x0,
    fields := [⟨16, 15, .ro, .any⟩, ⟨0, 4, .ro, .any⟩] },
  { name := "CXM_POISON", off := 0x500108, s1 := 32, n1 := 2, width := 32, reset := 0x0,
    fields := [⟨0, 32, .w1c, .any⟩] },
  { name := "CXM_LINK_DOWN", off := 0x50010C, s1 := 32, n1 := 2, width := 32, reset := 0x0,
    fields := [⟨0, 32, .w1c, .any⟩] },
  { name := "CXM_CREDIT", off := 0x501000, s1 := 4, n1 := 65, width := 32, reset := 0x0,
    fields := [⟨0, 13, .rw, .range 0 4096⟩] }]

/-- The register map of the CKP window. -/
def regRowsCKP : List RegRow := [
  { name := "CKP_CTRL", off := 0x600000, width := 32, reset := 0x0,
    fields := [⟨16, 16, .wo, .any⟩, ⟨0, 1, .wo, .any⟩] },
  { name := "CKP_STATE", off := 0x600004, width := 32, reset := 0x0,
    fields := [⟨3, 1, .ro, .any⟩, ⟨0, 3, .ro, .any⟩] },
  { name := "CKP_CFG", off := 0x600008, width := 32, reset := 0x3C20,
    fields := [⟨8, 8, .rw, .range 1 255⟩, ⟨4, 4, .rw, .range 0 8⟩, ⟨1, 1, .rw, .any⟩, ⟨0, 1, .rw, .any⟩] },
  { name := "CKP_ERR", off := 0x60000C, width := 32, reset := 0x0,
    fields := [⟨2, 1, .w1c, .any⟩, ⟨1, 1, .w1c, .any⟩, ⟨0, 1, .w1c, .any⟩] },
  { name := "CKP_RES_BASE", off := 0x600010, width := 64, reset := 0x0,
    fields := [⟨0, 64, .rw, .mult 0x200000⟩] },
  { name := "CKP_WORK_BASE", off := 0x600018, width := 64, reset := 0x0,
    fields := [⟨0, 64, .rw, .mult 0x200000⟩] },
  { name := "CKP_AUTO_DESC", off := 0x600020, width := 64, reset := 0x0,
    fields := [⟨0, 64, .rw, .any⟩] },
  { name := "CKP_AUTO_COUNT", off := 0x600028, width := 64, reset := 0x0,
    fields := [⟨0, 64, .ro, .any⟩] },
  { name := "CKP_CE_LIMIT", off := 0x600030, width := 32, reset := 0x0,
    fields := [⟨0, 32, .rw, .any⟩] },
  { name := "CKP_CE_WINDOW", off := 0x600034, width := 32, reset := 0x3E8,
    fields := [⟨0, 32, .rw, .range 1 65535⟩] },
  { name := "CKP_SHEAF_ID", off := 0x600038, width := 64, reset := 0x0,
    fields := [⟨0, 64, .ro, .any⟩] },
  { name := "CKP_STEP", off := 0x600040, width := 32, reset := 0x0,
    fields := [⟨0, 32, .ro, .any⟩] },
  { name := "CKP_LAST", off := 0x600044, width := 32, reset := 0x0,
    fields := [⟨16, 16, .ro, .any⟩, ⟨0, 16, .ro, .any⟩] },
  { name := "CKP_TOTAL", off := 0x600048, width := 64, reset := 0x0,
    fields := [⟨0, 64, .ro, .any⟩] },
  { name := "CKP_DONE", off := 0x600050, width := 64, reset := 0x0,
    fields := [⟨0, 64, .ro, .any⟩] },
  { name := "CKP_RES", off := 0x600058, width := 32, reset := 0x0,
    fields := [⟨16, 16, .ro, .any⟩, ⟨0, 16, .ro, .any⟩] },
  { name := "CKP_DIVERT", off := 0x600060, width := 64, reset := 0x0,
    fields := [⟨0, 64, .w1c, .any⟩] },
  { name := "CKP_STALL", off := 0x600068, width := 64, reset := 0x0,
    fields := [⟨0, 64, .w1c, .any⟩] },
  { name := "CKP_COMMITS", off := 0x600070, width := 32, reset := 0x0,
    fields := [⟨0, 32, .w1c, .any⟩] },
  { name := "CKP_ABANDONS", off := 0x600074, width := 32, reset := 0x0,
    fields := [⟨0, 32, .w1c, .any⟩] },
  { name := "CKP_SKIPS", off := 0x600078, width := 32, reset := 0x0,
    fields := [⟨0, 32, .w1c, .any⟩] }]

/-- The register map of the HIF window. -/
def regRowsHIF : List RegRow := [
  { name := "HIF_CFG", off := 0x700000, width := 32, reset := 0x0,
    fields := [⟨1, 1, .rw, .any⟩, ⟨0, 1, .ro, .any⟩] },
  { name := "HIF_ERR", off := 0x700004, width := 32, reset := 0x0,
    fields := [⟨7, 1, .w1c, .any⟩, ⟨6, 1, .w1c, .any⟩, ⟨5, 1, .w1c, .any⟩, ⟨4, 1, .w1c, .any⟩, ⟨3, 1, .w1c, .any⟩, ⟨2, 1, .w1c, .any⟩, ⟨1, 1, .w1c, .any⟩, ⟨0, 1, .w1c, .any⟩] },
  { name := "HIF_UP_CTO", off := 0x700008, width := 32, reset := 0x2710,
    fields := [⟨0, 32, .rw, .range 50 4000000⟩] },
  { name := "HIF_UP_STATUS", off := 0x700010, s1 := 4, n1 := 2, width := 32, reset := 0x0,
    fields := [⟨8, 8, .ro, .any⟩, ⟨4, 4, .ro, .any⟩, ⟨3, 1, .ro, .any⟩, ⟨2, 1, .ro, .any⟩] },
  { name := "HIF_UP_TIMEOUT", off := 0x700020, s1 := 16, n1 := 2, width := 32, reset := 0x0,
    fields := [⟨0, 32, .w1c, .any⟩] },
  { name := "HIF_UP_LATE", off := 0x700024, s1 := 16, n1 := 2, width := 32, reset := 0x0,
    fields := [⟨0, 32, .w1c, .any⟩] },
  { name := "HIF_UP_QTAGS", off := 0x700028, s1 := 16, n1 := 2, width := 32, reset := 0x0,
    fields := [⟨0, 13, .ro, .any⟩] },
  { name := "HIF_WSH_SEL", off := 0x700100, width := 32, reset := 0x0,
    fields := [⟨0, 9, .rw, .range 0 319⟩] },
  { name := "HIF_WSH_BASE", off := 0x700108, width := 64, reset := 0x0,
    fields := [⟨0, 64, .rw, .any⟩] },
  { name := "HIF_WSH_TARGET", off := 0x700110, width := 64, reset := 0x0,
    fields := [⟨0, 64, .rw, .any⟩] },
  { name := "HIF_WSH_CTRL", off := 0x700118, width := 32, reset := 0x0,
    fields := [⟨31, 1, .rw, .any⟩, ⟨9, 1, .rw, .any⟩, ⟨8, 1, .rw, .any⟩, ⟨0, 6, .rw, .any⟩] },
  { name := "HIF_WIN_COMMIT", off := 0x70011C, width := 32, reset := 0x0,
    fields := [⟨16, 16, .wo, .any⟩, ⟨0, 1, .wo, .any⟩] },
  { name := "HIF_WIN_STATUS", off := 0x700120, width := 32, reset := 0x0,
    fields := [⟨16, 16, .ro, .any⟩, ⟨0, 1, .ro, .any⟩] },
  { name := "HIF_DCFG_ADDR", off := 0x700200, width := 32, reset := 0x0,
    fields := [⟨31, 1, .rw, .any⟩, ⟨24, 4, .rw, .any⟩, ⟨16, 3, .rw, .any⟩, ⟨2, 10, .rw, .any⟩] },
  { name := "HIF_DCFG_DATA", off := 0x700204, width := 32, reset := 0x0,
    fields := [⟨0, 32, .rw, .any⟩] },
  { name := "HIF_DCFG_STATUS", off := 0x700208, width := 32, reset := 0x0,
    fields := [⟨16, 16, .ro, .any⟩, ⟨0, 1, .ro, .any⟩] },
  { name := "HIF_DS_CTRL", off := 0x701000, s1 := 64, n1 := 8, width := 32, reset := 0x0,
    fields := [⟨0, 1, .rw, .any⟩] },
  { name := "HIF_DS_CTO", off := 0x701004, s1 := 64, n1 := 8, width := 32, reset := 0x2710,
    fields := [⟨0, 32, .rw, .range 50 4000000⟩] },
  { name := "HIF_SLOT_CTRL", off := 0x702000, s1 := 64, n1 := 16, width := 32, reset := 0x0,
    fields := [⟨16, 16, .wo, .any⟩, ⟨4, 2, .rw, .range 0 2⟩, ⟨0, 2, .wo, .any⟩] },
  { name := "HIF_SLOT_STATUS", off := 0x702004, s1 := 64, n1 := 16, width := 32, reset := 0x0,
    fields := [⟨16, 16, .ro, .any⟩, ⟨8, 8, .ro, .any⟩, ⟨7, 1, .w1c, .any⟩, ⟨6, 1, .w1c, .any⟩, ⟨5, 1, .w1c, .any⟩, ⟨4, 1, .ro, .any⟩, ⟨0, 4, .ro, .any⟩] },
  { name := "HIF_SLOT_LINK", off := 0x702008, s1 := 64, n1 := 16, width := 32, reset := 0x0,
    fields := [⟨16, 1, .ro, .any⟩, ⟨8, 8, .ro, .any⟩, ⟨0, 4, .ro, .any⟩] },
  { name := "HIF_SLOT_TIMEOUT", off := 0x70200C, s1 := 64, n1 := 16, width := 32, reset := 0x0,
    fields := [⟨0, 32, .w1c, .any⟩] },
  { name := "HIF_SLOT_LATE", off := 0x702010, s1 := 64, n1 := 16, width := 32, reset := 0x0,
    fields := [⟨0, 32, .w1c, .any⟩] },
  { name := "HIF_SLOT_STALE", off := 0x702014, s1 := 64, n1 := 16, width := 32, reset := 0x0,
    fields := [⟨0, 32, .w1c, .any⟩] },
  { name := "HIF_SLOT_IWMISS", off := 0x702018, s1 := 64, n1 := 16, width := 32, reset := 0x0,
    fields := [⟨0, 32, .w1c, .any⟩] },
  { name := "HIF_WIN_BASE", off := 0x710000, s1 := 32, n1 := 320, width := 64, reset := 0x0,
    fields := [⟨0, 64, .ro, .any⟩] },
  { name := "HIF_WIN_TARGET", off := 0x710008, s1 := 32, n1 := 320, width := 64, reset := 0x0,
    fields := [⟨0, 64, .ro, .any⟩] },
  { name := "HIF_WIN_CTRL", off := 0x710010, s1 := 32, n1 := 320, width := 32, reset := 0x0,
    fields := [⟨31, 1, .ro, .any⟩, ⟨9, 1, .ro, .any⟩, ⟨8, 1, .ro, .any⟩, ⟨0, 6, .ro, .any⟩] }]

/-- The register map of the QUE window. -/
def regRowsQUE : List RegRow := [
  { name := "QUE_ADMIN_CTRL", off := 0x800000, width := 32, reset := 0x0,
    fields := [⟨8, 5, .rw, .range 4 16⟩, ⟨0, 1, .rw, .any⟩] },
  { name := "QUE_ERR", off := 0x800004, width := 32, reset := 0x0,
    fields := [⟨1, 1, .w1c, .any⟩, ⟨0, 1, .w1c, .any⟩] },
  { name := "QUE_ADMIN_SQ", off := 0x800008, width := 64, reset := 0x0,
    fields := [⟨0, 64, .rw, .mult 4096⟩] },
  { name := "QUE_ADMIN_CQ", off := 0x800010, width := 64, reset := 0x0,
    fields := [⟨0, 64, .rw, .mult 4096⟩] },
  { name := "QUE_POOL", off := 0x800018, width := 32, reset := 0x40004000,
    fields := [⟨16, 15, .ro, .any⟩, ⟨0, 15, .ro, .any⟩] },
  { name := "QUE_PSTATE", off := 0x801000, s1 := 32, n1 := 65, width := 32, reset := 0x0,
    fields := [⟨16, 16, .ro, .any⟩, ⟨8, 8, .ro, .any⟩, ⟨0, 3, .ro, .any⟩] },
  { name := "QUE_PSTALE", off := 0x801004, s1 := 32, n1 := 65, width := 32, reset := 0x0,
    fields := [⟨0, 32, .w1c, .any⟩] },
  { name := "QUE_PREFUSED", off := 0x801008, s1 := 32, n1 := 65, width := 32, reset := 0x0,
    fields := [⟨0, 32, .w1c, .any⟩] },
  { name := "QUE_PDBMISS", off := 0x80100C, s1 := 32, n1 := 65, width := 32, reset := 0x0,
    fields := [⟨0, 32, .w1c, .any⟩] },
  { name := "QUE_PEVDROP", off := 0x801010, s1 := 32, n1 := 65, width := 32, reset := 0x0,
    fields := [⟨0, 32, .w1c, .any⟩] }]

/-- The register map of the RDM window. -/
def regRowsRDM : List RegRow := [
  { name := "RDM_CFG", off := 0x900000, width := 32, reset := 0xFA00064,
    fields := [⟨16, 16, .rw, .range 1000 65535⟩, ⟨0, 16, .rw, .range 1 65535⟩] },
  { name := "RDM_ERR", off := 0x900004, width := 32, reset := 0x0,
    fields := [⟨3, 1, .w1c, .any⟩, ⟨2, 1, .w1c, .any⟩, ⟨1, 1, .w1c, .any⟩, ⟨0, 1, .w1c, .any⟩] },
  { name := "RDM_CC_CFG", off := 0x900008, width := 32, reset := 0x4003200A,
    fields := [⟨24, 8, .rw, .range 1 255⟩, ⟨12, 12, .rw, .range 1 4095⟩, ⟨0, 12, .rw, .any⟩] },
  { name := "RDM_CC_THRESH", off := 0x90000C, width := 32, reset := 0x800,
    fields := [⟨0, 13, .rw, .range 1 8191⟩] },
  { name := "RDM_QPC_BASE", off := 0x900010, width := 64, reset := 0x0,
    fields := [⟨0, 64, .rw, .mult 0x200000⟩] },
  { name := "RDM_QPC_COUNT", off := 0x900018, width := 32, reset := 0x1000,
    fields := [⟨0, 32, .rw, .pow2 4096 1048576⟩] },
  { name := "RDM_MISS", off := 0x90001C, width := 32, reset := 0x0,
    fields := [⟨16, 13, .ro, .any⟩, ⟨0, 13, .ro, .any⟩] },
  { name := "RDM_MR_BASE", off := 0x900020, width := 64, reset := 0x0,
    fields := [⟨0, 64, .rw, .mult 0x200000⟩] },
  { name := "RDM_MR_COUNT", off := 0x900028, width := 32, reset := 0x0,
    fields := [⟨0, 32, .rw, .range 0 262144⟩] },
  { name := "RDM_OUTSTANDING", off := 0x90002C, width := 32, reset := 0x0,
    fields := [⟨0, 18, .ro, .any⟩] },
  { name := "RDM_MISS_REFUSE", off := 0x900100, width := 32, reset := 0x0,
    fields := [⟨0, 32, .w1c, .any⟩] },
  { name := "RDM_FETCH_FAIL", off := 0x900104, width := 32, reset := 0x0,
    fields := [⟨0, 32, .w1c, .any⟩] },
  { name := "RDM_TRIG", off := 0x900108, width := 32, reset := 0x0,
    fields := [⟨0, 32, .w1c, .any⟩] },
  { name := "RDM_EVICT", off := 0x900110, width := 64, reset := 0x0,
    fields := [⟨0, 64, .w1c, .any⟩] },
  { name := "RDM_RETX", off := 0x900118, width := 64, reset := 0x0,
    fields := [⟨0, 64, .w1c, .any⟩] },
  { name := "RDM_DUP", off := 0x900120, width := 64, reset := 0x0,
    fields := [⟨0, 64, .w1c, .any⟩] },
  { name := "RDM_CNP", off := 0x900128, width := 64, reset := 0x0,
    fields := [⟨0, 64, .w1c, .any⟩] },
  { name := "RDM_PQP_LIMIT", off := 0x901000, s1 := 32, n1 := 65, width := 32, reset := 0x0,
    fields := [⟨0, 21, .rw, .range 0 1048576⟩] },
  { name := "RDM_PQP_USED", off := 0x901004, s1 := 32, n1 := 65, width := 32, reset := 0x0,
    fields := [⟨0, 21, .ro, .any⟩] },
  { name := "RDM_SGID_LO", off := 0x901008, s1 := 32, n1 := 65, width := 64, reset := 0x0,
    fields := [⟨0, 64, .rw, .any⟩] },
  { name := "RDM_SGID_HI", off := 0x901010, s1 := 32, n1 := 65, width := 64, reset := 0x0,
    fields := [⟨0, 64, .rw, .any⟩] }]

/-- The register map of the ETH window. -/
def regRowsETH : List RegRow := [
  { name := "ETH_CFG", off := 0xA00000, width := 32, reset := 0x0,
    fields := [⟨4, 2, .rw, .range 0 2⟩, ⟨0, 2, .rw, .range 0 2⟩] },
  { name := "ETH_ERR", off := 0xA00004, width := 32, reset := 0x0,
    fields := [⟨3, 1, .w1c, .any⟩, ⟨2, 1, .w1c, .any⟩, ⟨1, 1, .w1c, .any⟩, ⟨0, 1, .w1c, .any⟩] },
  { name := "ETH_ENT_CMD", off := 0xA00008, width := 32, reset := 0x0,
    fields := [⟨30, 2, .wo, .any⟩, ⟨28, 2, .wo, .any⟩, ⟨0, 18, .wo, .any⟩] },
  { name := "ETH_ENT_STATUS", off := 0xA0000C, width := 32, reset := 0x0,
    fields := [⟨16, 16, .ro, .any⟩, ⟨0, 1, .ro, .any⟩] },
  { name := "ETH_GRAPH_CTRL", off := 0xA00010, width := 32, reset := 0x0,
    fields := [⟨31, 1, .rw, .any⟩, ⟨0, 10, .rw, .any⟩] },
  { name := "ETH_EXC_Q", off := 0xA00014, width := 32, reset := 0x0,
    fields := [⟨0, 16, .rw, .any⟩] },
  { name := "ETH_PTP_TIME", off := 0xA00018, width := 64, reset := 0x0,
    fields := [⟨0, 64, .ro, .any⟩] },
  { name := "ETH_ENT_DATA", off := 0xA00100, s1 := 4, n1 := 36, width := 32, reset := 0x0,
    fields := [⟨0, 32, .rw, .any⟩] },
  { name := "ETH_GVLAN", off := 0xA00200, s1 := 4, n1 := 128, width := 32, reset := 0x0,
    fields := [⟨0, 32, .rw, .any⟩] },
  { name := "ETH_PVLAN", off := 0xA00400, s1 := 4, n1 := 65, width := 32, reset := 0x0,
    fields := [⟨0, 12, .rw, .any⟩] },
  { name := "ETH_LPORT_CTRL", off := 0xA01000, s1 := 64, n1 := 16, width := 32, reset := 0x0,
    fields := [⟨24, 8, .rw, .any⟩, ⟨8, 3, .rw, .any⟩, ⟨5, 1, .rw, .any⟩, ⟨4, 1, .rw, .any⟩, ⟨3, 1, .rw, .any⟩, ⟨2, 1, .rw, .any⟩, ⟨0, 1, .rw, .any⟩] },
  { name := "ETH_LPORT_STATUS", off := 0xA01004, s1 := 64, n1 := 16, width := 32, reset := 0x0,
    fields := [⟨3, 1, .w1c, .any⟩, ⟨2, 1, .ro, .any⟩, ⟨0, 1, .ro, .any⟩] },
  { name := "ETH_LPORT_MAC", off := 0xA01008, s1 := 64, n1 := 16, width := 64, reset := 0x0,
    fields := [⟨0, 48, .rw, .any⟩] },
  { name := "ETH_RX_FRAMES", off := 0xA01010, s1 := 64, n1 := 16, width := 64, reset := 0x0,
    fields := [⟨0, 64, .w1c, .any⟩] },
  { name := "ETH_TX_FRAMES", off := 0xA01018, s1 := 64, n1 := 16, width := 64, reset := 0x0,
    fields := [⟨0, 64, .w1c, .any⟩] },
  { name := "ETH_RX_DROP", off := 0xA01020, s1 := 64, n1 := 16, width := 64, reset := 0x0,
    fields := [⟨0, 64, .w1c, .any⟩] },
  { name := "ETH_PARSE_EXC", off := 0xA01028, s1 := 64, n1 := 16, width := 32, reset := 0x0,
    fields := [⟨0, 32, .w1c, .any⟩] },
  { name := "ETH_ISOL_DROP", off := 0xA0102C, s1 := 64, n1 := 16, width := 32, reset := 0x0,
    fields := [⟨0, 32, .w1c, .any⟩] },
  { name := "ETH_PROG", off := 0xA10000, s1 := 8, n1 := 2048, width := 64, reset := 0x0,
    fields := [⟨0, 64, .rw, .any⟩] },
  { name := "ETH_GNODE", off := 0xA20000, s1 := 32, n1 := 1024, s2 := 4, n2 := 8, width := 32, reset := 0x0,
    fields := [⟨0, 32, .rw, .any⟩] },
  { name := "ETH_RULE_PKTS", off := 0xA30000, s1 := 16, n1 := 16384, width := 64, reset := 0x0,
    fields := [⟨0, 64, .w1c, .any⟩] },
  { name := "ETH_RULE_BYTES", off := 0xA30008, s1 := 16, n1 := 16384, width := 64, reset := 0x0,
    fields := [⟨0, 64, .w1c, .any⟩] }]

/-- The register map of the TRF window. -/
def regRowsTRF : List RegRow := [
  { name := "TRF_ERR", off := 0xB00000, width := 32, reset := 0x0,
    fields := [⟨0, 1, .w1c, .any⟩] },
  { name := "TRF_DSCP_COLOUR", off := 0xB00010, s1 := 4, n1 := 4, width := 32, reset := 0x0,
    fields := [⟨0, 32, .rw, .dscp⟩] },
  { name := "TRF_LNODE", off := 0xB01000, s1 := 4, n1 := 16, width := 32, reset := 0x0,
    fields := [⟨0, 12, .rw, .any⟩] },
  { name := "TRF_CNODE", off := 0xB01100, s1 := 4, n1 := 128, width := 32, reset := 0x10000,
    fields := [⟨24, 1, .rw, .any⟩, ⟨16, 8, .rw, .range 1 255⟩, ⟨0, 12, .rw, .any⟩] },
  { name := "TRF_PNODE", off := 0xB10000, s1 := 4, n1 := 8320, width := 32, reset := 0x10000,
    fields := [⟨16, 8, .rw, .range 1 255⟩, ⟨0, 12, .rw, .any⟩] },
  { name := "TRF_SHP", off := 0xB20010, s1 := 16, n1 := 4095, width := 64, reset := 0x0,
    fields := [⟨0, 32, .rw, .any⟩, ⟨32, 24, .rw, .any⟩, ⟨56, 7, .rw, .any⟩] },
  { name := "TRF_SHP_LEVEL", off := 0xB20018, s1 := 16, n1 := 4095, width := 32, reset := 0x0,
    fields := [⟨0, 32, .ro, .any⟩] },
  { name := "TRF_POL_RATE", off := 0xB30020, s1 := 32, n1 := 4095, width := 64, reset := 0x0,
    fields := [⟨0, 32, .rw, .any⟩, ⟨32, 32, .rw, .any⟩] },
  { name := "TRF_POL_SIZE", off := 0xB30028, s1 := 32, n1 := 4095, width := 64, reset := 0x0,
    fields := [⟨0, 24, .rw, .any⟩, ⟨24, 24, .rw, .any⟩, ⟨48, 7, .rw, .any⟩, ⟨56, 1, .rw, .any⟩, ⟨57, 2, .rw, .range 0 2⟩] },
  { name := "TRF_POL_GREEN", off := 0xB50020, s1 := 32, n1 := 4095, width := 64, reset := 0x0,
    fields := [⟨0, 64, .w1c, .any⟩] },
  { name := "TRF_POL_YELLOW", off := 0xB50028, s1 := 32, n1 := 4095, width := 64, reset := 0x0,
    fields := [⟨0, 64, .w1c, .any⟩] },
  { name := "TRF_POL_RED", off := 0xB50030, s1 := 32, n1 := 4095, width := 64, reset := 0x0,
    fields := [⟨0, 64, .w1c, .any⟩] }]

/-- The register map of the CIP window. -/
def regRowsCIP : List RegRow := [
  { name := "CIP_LOCK", off := 0xC00000, width := 32, reset := 0x0,
    fields := [⟨16, 16, .wo, .any⟩, ⟨8, 8, .ro, .any⟩, ⟨4, 1, .ro, .any⟩, ⟨2, 2, .ro, .any⟩, ⟨1, 1, .wo, .any⟩, ⟨0, 1, .wo, .any⟩] },
  { name := "CIP_CFG", off := 0xC00004, width := 32, reset := 0x14,
    fields := [⟨31, 1, .rw, .any⟩, ⟨16, 12, .rw, .any⟩, ⟨0, 8, .rw, .range 1 255⟩] },
  { name := "CIP_ERR", off := 0xC00008, width := 32, reset := 0x0,
    fields := [⟨4, 1, .w1c, .any⟩, ⟨3, 1, .w1c, .any⟩, ⟨2, 1, .w1c, .any⟩, ⟨1, 1, .w1c, .any⟩, ⟨0, 1, .w1c, .any⟩] },
  { name := "CIP_RING_BASE", off := 0xC00010, width := 64, reset := 0x0,
    fields := [⟨0, 64, .rw, .mult 4096⟩] },
  { name := "CIP_RING_CTRL", off := 0xC00018, width := 32, reset := 0x0,
    fields := [⟨0, 5, .rw, .range 4 12⟩] },
  { name := "CIP_TAIL", off := 0xC0001C, width := 32, reset := 0x0,
    fields := [⟨0, 16, .rw, .any⟩] },
  { name := "CIP_HEAD", off := 0xC00020, width := 32, reset := 0x0,
    fields := [⟨0, 16, .ro, .any⟩] },
  { name := "CIP_CORES", off := 0xC00024, width := 32, reset := 0x0,
    fields := [⟨0, 24, .ro, .any⟩] },
  { name := "CIP_FAULT", off := 0xC00028, width := 32, reset := 0x0,
    fields := [⟨0, 32, .w1c, .any⟩] },
  { name := "CIP_TAGFAIL", off := 0xC0002C, width := 32, reset := 0x0,
    fields := [⟨0, 32, .w1c, .any⟩] },
  { name := "CIP_BOOT", off := 0xC00030, width := 32, reset := 0x0,
    fields := [⟨16, 8, .ro, .any⟩, ⟨8, 8, .ro, .any⟩, ⟨4, 1, .ro, .any⟩, ⟨0, 4, .ro, .any⟩] },
  { name := "CIP_SLOT", off := 0xC01000, s1 := 4, n1 := 1024, width := 32, reset := 0x0,
    fields := [⟨31, 1, .ro, .any⟩, ⟨4, 2, .ro, .any⟩, ⟨0, 4, .ro, .any⟩] }]

/-- The register map of the LDG window. -/
def regRowsLDG : List RegRow := [
  { name := "LDG_STATE", off := 0xD00000, width := 32, reset := 0x0,
    fields := [⟨16, 1, .ro, .any⟩, ⟨8, 4, .ro, .any⟩, ⟨4, 4, .ro, .any⟩, ⟨0, 4, .ro, .any⟩] },
  { name := "LDG_ERR", off := 0xD00004, width := 32, reset := 0x0,
    fields := [⟨2, 1, .w1c, .any⟩, ⟨1, 1, .w1c, .any⟩, ⟨0, 1, .w1c, .any⟩] },
  { name := "LDG_RESTARTS", off := 0xD00010, s1 := 4, n1 := 3, width := 32, reset := 0x0,
    fields := [⟨0, 32, .w1c, .any⟩] },
  { name := "LDG_CAUSE", off := 0xD00020, s1 := 4, n1 := 3, width := 32, reset := 0x0,
    fields := [⟨0, 8, .ro, .any⟩] },
  { name := "LDG_MAPOUT0", off := 0xD00030, width := 64, reset := 0x0,
    fields := [⟨0, 64, .ro, .any⟩] },
  { name := "LDG_MAPOUT1", off := 0xD00038, width := 64, reset := 0x0,
    fields := [⟨0, 64, .ro, .any⟩] },
  { name := "LDG_MAPOUT2", off := 0xD00040, width := 64, reset := 0x0,
    fields := [⟨0, 64, .ro, .any⟩] },
  { name := "LDG_EV_CTRL", off := 0xD01000, s1 := 4096, n1 := 3, width := 32, reset := 0x1,
    fields := [⟨1, 1, .ro, .any⟩, ⟨0, 1, .rw, .any⟩] },
  { name := "LDG_EV_NEXT", off := 0xD01004, s1 := 4096, n1 := 3, width := 32, reset := 0x0,
    fields := [⟨9, 1, .ro, .any⟩, ⟨0, 9, .ro, .any⟩] },
  { name := "LDG_EV_SRC", off := 0xD01100, s1 := 4096, n1 := 3, s2 := 4, n2 := 512, width := 32, reset := 0x0,
    fields := [⟨4, 1, .w1c, .any⟩, ⟨3, 1, .ro, .any⟩, ⟨2, 1, .rw, .any⟩, ⟨0, 2, .rw, .any⟩] }]

/-- The register map of the EMU window. -/
def regRowsEMU : List RegRow := [
  { name := "EMU_IF_VERSION", off := 0xF00000, width := 32, reset := 0x80000000,
    fields := [⟨31, 1, .ro, .any⟩, ⟨0, 8, .ro, .any⟩] },
  { name := "EMU_STATUS", off := 0xF00004, width := 32, reset := 0x80000000,
    fields := [⟨31, 1, .ro, .any⟩, ⟨30, 1, .ro, .any⟩, ⟨27, 3, .ro, .any⟩, ⟨26, 1, .ro, .any⟩, ⟨16, 8, .ro, .any⟩, ⟨0, 16, .ro, .any⟩] },
  { name := "EMU_CMD_ADDR_LO", off := 0xF00008, width := 32, reset := 0x80000000,
    fields := [⟨31, 1, .ro, .any⟩, ⟨0, 31, .rw, .any⟩] },
  { name := "EMU_CMD_ADDR_HI", off := 0xF0000C, width := 32, reset := 0x80000000,
    fields := [⟨31, 1, .ro, .any⟩, ⟨0, 27, .rw, .any⟩] },
  { name := "EMU_CMD", off := 0xF00010, width := 32, reset := 0x80000000,
    fields := [⟨31, 1, .ro, .any⟩, ⟨0, 1, .wo, .any⟩] }]

/-- The register map of the PWR window. -/
def regRowsPWR : List RegRow := [
  { name := "PWR_STATE", off := 0xE00000, width := 32, reset := 0x0,
    fields := [⟨16, 13, .ro, .any⟩, ⟨12, 4, .ro, .any⟩, ⟨7, 1, .ro, .any⟩, ⟨6, 1, .ro, .any⟩, ⟨0, 1, .ro, .any⟩] },
  { name := "PWR_ERR", off := 0xE00004, width := 32, reset := 0x0,
    fields := [⟨3, 1, .w1c, .any⟩, ⟨2, 1, .w1c, .any⟩, ⟨1, 1, .w1c, .any⟩, ⟨0, 1, .w1c, .any⟩] },
  { name := "PWR_CFG", off := 0xE00008, width := 32, reset := 0x10E,
    fields := [⟨8, 1, .rw, .any⟩, ⟨4, 1, .rw, .any⟩, ⟨3, 1, .rw, .any⟩, ⟨2, 1, .rw, .any⟩, ⟨1, 1, .rw, .any⟩, ⟨0, 1, .rw, .any⟩] },
  { name := "PWR_TJ", off := 0xE0000C, width := 32, reset := 0x0,
    fields := [⟨0, 16, .ro, .any⟩] },
  { name := "PWR_TJ_CFG", off := 0xE00010, width := 32, reset := 0x85F5A00,
    fields := [⟨24, 4, .rw, .any⟩, ⟨16, 8, .rw, .range 60 99⟩, ⟨8, 8, .rw, .range 50 99⟩] },
  { name := "PWR_TJ_GAIN", off := 0xE00014, width := 32, reset := 0x800200,
    fields := [⟨16, 16, .rw, .any⟩, ⟨0, 16, .rw, .any⟩] },
  { name := "PWR_COOL", off := 0xE00018, width := 64, reset := 0x0,
    fields := [⟨48, 16, .ro, .any⟩, ⟨32, 16, .ro, .any⟩, ⟨16, 16, .ro, .any⟩, ⟨0, 16, .ro, .any⟩] },
  { name := "PWR_COOL_CFG", off := 0xE00020, width := 32, reset := 0x3C372D00,
    fields := [⟨24, 8, .rw, .range 30 80⟩, ⟨16, 8, .rw, .rangeTo 30 24 8⟩, ⟨8, 8, .rw, .rangeTo 20 16 8⟩] },
  { name := "PWR_COOL_GAIN", off := 0xE00024, width := 32, reset := 0x400400,
    fields := [⟨16, 16, .rw, .any⟩, ⟨0, 16, .rw, .any⟩] },
  { name := "PWR_FLOW_CFG", off := 0xE00028, width := 64, reset := 0x3E80014001E,
    fields := [⟨32, 16, .rw, .range 1 65535⟩, ⟨16, 16, .rw, .any⟩, ⟨0, 16, .rw, .atLeast 16 16⟩] },
  { name := "PWR_PUMP_CFG", off := 0xE00030, width := 32, reset := 0x1F4201E,
    fields := [⟨16, 16, .rw, .any⟩, ⟨12, 4, .rw, .range 1 15⟩, ⟨0, 8, .rw, .range 10 100⟩] },
  { name := "PWR_PUMP", off := 0xE00034, width := 32, reset := 0x64,
    fields := [⟨16, 8, .ro, .any⟩, ⟨0, 8, .rw, .range 0 100⟩] },
  { name := "PWR_NODE", off := 0xE00038, width := 64, reset := 0x0,
    fields := [⟨32, 16, .ro, .any⟩, ⟨16, 16, .rw, .any⟩, ⟨0, 16, .rw, .any⟩] },
  { name := "PWR_EB_CFG", off := 0xE00040, width := 64, reset := 0xD01E5A14,
    fields := [⟨32, 16, .rw, .any⟩, ⟨24, 8, .rw, .any⟩, ⟨16, 8, .rw, .range 0 100⟩, ⟨8, 8, .rw, .range 0 100⟩, ⟨0, 8, .rw, .below 16 8⟩] },
  { name := "PWR_EB_POWER", off := 0xE00048, width := 32, reset := 0x0,
    fields := [⟨16, 16, .rw, .any⟩, ⟨0, 16, .rw, .any⟩] },
  { name := "PWR_EB_STATUS", off := 0xE0004C, width := 32, reset := 0x0,
    fields := [⟨16, 8, .ro, .any⟩, ⟨8, 2, .ro, .any⟩, ⟨0, 8, .ro, .any⟩] },
  { name := "PWR_LEAD", off := 0xE00050, width := 32, reset := 0x502,
    fields := [⟨8, 8, .rw, .range 1 10⟩, ⟨0, 8, .rw, .range 1 10⟩] },
  { name := "PWR_BUS", off := 0xE00054, width := 32, reset := 0x0,
    fields := [⟨31, 1, .rw, .any⟩, ⟨24, 7, .rw, .any⟩, ⟨16, 7, .rw, .any⟩, ⟨8, 7, .rw, .any⟩, ⟨0, 7, .rw, .any⟩] },
  { name := "PWR_VCORE", off := 0xE00058, width := 32, reset := 0x0,
    fields := [⟨16, 16, .ro, .any⟩, ⟨0, 16, .ro, .any⟩] },
  { name := "PWR_CLAMPS", off := 0xE0005C, width := 32, reset := 0x0,
    fields := [⟨0, 32, .w1c, .any⟩] },
  { name := "PWR_EMERG", off := 0xE00060, width := 32, reset := 0x0,
    fields := [⟨0, 32, .w1c, .any⟩] },
  { name := "PWR_CLASS", off := 0xE00100, s1 := 8, n1 := 16, width := 64, reset := 0x640000,
    fields := [⟨16, 8, .rw, .range 0 100⟩, ⟨0, 16, .rw, .any⟩] }]

/-- The register map of the LOG window. -/
def regRowsLOG : List RegRow := [
  { name := "LOG_WR", off := 0x1000000, width := 64, reset := 0x0,
    fields := [⟨0, 64, .ro, .any⟩] },
  { name := "LOG_ERR", off := 0x1000008, width := 32, reset := 0x0,
    fields := [⟨1, 1, .w1c, .any⟩, ⟨0, 1, .w1c, .any⟩] },
  { name := "LOG_DEV_CE", off := 0x100000C, width := 32, reset := 0x0,
    fields := [⟨0, 32, .w1c, .any⟩] },
  { name := "LOG_DEV_UE", off := 0x1000010, width := 32, reset := 0x0,
    fields := [⟨0, 32, .w1c, .any⟩] },
  { name := "LOG_MCTP", off := 0x1000014, width := 32, reset := 0x0,
    fields := [⟨10, 1, .rw, .any⟩, ⟨9, 1, .rw, .any⟩, ⟨8, 1, .rw, .any⟩, ⟨0, 7, .rw, .any⟩] }]

/-- The block windows of R8 in the order of its table, which is the block index of R29: TOP 0 to LOG 16. -/
def regWindows : List (List RegRow) :=
  [regRowsTOP, regRowsPAV, regRowsSCH, regRowsFAB, regRowsMEM, regRowsCXM, regRowsCKP, regRowsHIF, regRowsQUE, regRowsRDM, regRowsETH, regRowsTRF, regRowsCIP, regRowsLDG, regRowsPWR, regRowsEMU, regRowsLOG]

/-- Does `off` name a register of the row? -/
def RegRow.covers (r : RegRow) (off : Nat) : Bool :=
  if off < r.off then false else
    let d := off - r.off
    let i := if r.n1 ≤ 1 then 0 else if r.s1 = 0 then 0 else min (d / r.s1) (r.n1 - 1)
    let e := d - i * r.s1
    let j := if r.n2 ≤ 1 then 0 else if r.s2 = 0 then 0 else e / r.s2
    decide (i < r.n1) && decide (j < r.n2) && decide (e - j * r.s2 = 0)

/-- The row that holds the register at BAR0 offset `off`, if any (R8: other offsets are unassigned). -/
def regRow? (off : Nat) : Option RegRow :=
  match regWindows[off / 0x100000]? with
  | some rows => rows.find? (fun r => r.covers off)
  | none => none

/-- The reset value of the register at `off`: that of its row; 0 at an unassigned offset (R8). -/
def regReset (off : Nat) : BitVec 64 :=
  match regRow? off with
  | some r => BitVec.ofNat 64 r.reset
  | none => 0

end Sys2Proof.Machine
end

