-- ==== Sys2Proof/Machine/StatePav.lean ====
section
/-! DEFINITION. The state of one physical pavilion: its Berin sequencer (R84 to R113), its eight engines (R58,
R97 to R104), its memories, its semaphores (R69) and its mesh NI (R67, R68, R80, R81). -/

namespace Sys2Proof.Machine

open Sys2Proof

/-- A sparse map with a default that its reader names: keys strictly rising, no entry equal to the default. -/
abbrev SMap (α : Type) := List (Nat × α)

/-- One vector register: 64 lanes of 32 bits (R58). -/
abbrev VReg := Vector (BitVec 32) 64

/-- One tile accumulator: 16 by 16 FP32 elements, row by row (R58). -/
abbrev AccReg := Vector (BitVec 32) 256

/-- What the sequencer does next. `held`: after a pavilion reset (R113); `waitE`: in WAITE (R108); a wait keeps its
operands and the time it began (R105); `issueStall`: an ISSUE whose queue is full (R97); `halted`: R112. -/
inductive SeqMode where
  | held
  | waitE
  | running
  | waitC (c t : Fin 16) (consume : Bool) (since : Nat)
  | waitS (m : Fin 64) (t : Fin 16) (consume : Bool) (since : Nat)
  | waitIdle (since : Nat)
  | fence (ids : List Nat) (since : Nat)
  | issueStall (e i c : Fin 16)
  | halted
  deriving DecidableEq, Repr

/-- The Berin sequencer: general registers, PC, flags, control words (R88) and local counters (R103). -/
structure Seq where
  w : Vector (BitVec 16) 16
  pc : BitVec 16
  n : Bool
  z : Bool
  c : Bool
  v : Bool
  engErr : Bool
  ctrSat : Bool
  inTrap : Bool
  tvec : BitVec 16
  tcause : BitVec 16
  tpc : BitVec 16
  tnext : BitVec 16
  tflags : BitVec 4
  tinst0 : BitVec 16
  tinst1 : BitVec 16
  tinfo : BitVec 16
  wto : BitVec 16
  tbLatch : BitVec 64
  ctr : Vector (BitVec 16) 16
  mode : SeqMode
  /-- a program has been loaded since the last reset (R113, R423) -/
  loaded : Bool
  deriving DecidableEq, Repr

/-- One command in an engine's queue: its 8 words and the local counter of its completion (R97); whether it has started, and the
identifiers of its own writes (R102). -/
structure QCmd where
  blk : List (BitVec 16)
  ctr : Fin 16
  ran : Bool
  ids : List Nat
  deriving DecidableEq, Repr

/-- One engine: vector registers, accumulators, queue (oldest first, at most 4) and generator set-up (R58, R97, R99). -/
structure Eng where
  v : Vector VReg 32
  a : Vector AccReg 4
  q : List QCmd
  seed : BitVec 64
  step : BitVec 32
  purpose : BitVec 8
  deriving DecidableEq, Repr

/-- Where a write of a pavilion went (R68): the scratch of a logical pavilion, or anywhere else. -/
inductive Dest where
  | pav (l : Fin 128)
  | other
  deriving DecidableEq, Repr

/-- A write not yet acknowledged (R68). -/
structure OutWrite where
  id : Nat
  dest : Dest
  deriving DecidableEq, Repr

/-- A semaphore ADD held in the NI until its fence is met, or sent and not yet delivered (R68, R106): its target, its
amount, and the identifiers of the writes it waits for. -/
structure HeldAdd where
  pav : Fin 128
  sem : Fin 64
  amount : BitVec 16
  waits : List Nat
  deriving DecidableEq, Repr

/-- One physical pavilion. -/
structure Pav where
  seq : Seq
  eng : Vector Eng 8
  /-- instruction memory, 64 Ki words; an unlisted word is 0 -/
  imem : SMap (BitVec 16)
  /-- data memory, 32 Ki words; an unlisted word is 0 -/
  dmem : SMap (BitVec 16)
  sems : Vector (BitVec 32) 64
  /-- NI generation number (R81) -/
  niGen : BitVec 8
  /-- the NI refuses requests: a reset is in progress (R80) -/
  refusing : Bool
  writes : List OutWrite
  /-- the identifier of the NI's next write; no reset but a cold one starts it anew -/
  nextWrite : Nat
  held : List HeldAdd
  flight : List HeldAdd
  /-- the engine that the bank arbiter's round-robin pointer names (R64) -/
  rr : Fin 8
  /-- its clock runs (R417) -/
  ungated : Bool
  /-- its self-test has ended (R418) -/
  tested : Bool
  /-- excluded by the defect record or mapped out (R73, R419, R424) -/
  excluded : Bool
  deriving DecidableEq, Repr

/-- The sequencer after a pavilion reset (R113). -/
def Seq.reset : Seq :=
  { w := Vector.replicate 16 0, pc := 0, n := false, z := false, c := false, v := false, engErr := false,
    ctrSat := false, inTrap := false, tvec := 0, tcause := 0, tpc := 0, tnext := 0, tflags := 0, tinst0 := 0,
    tinst1 := 0, tinfo := 0, wto := 0, tbLatch := 0, ctr := Vector.replicate 16 0, mode := .held, loaded := false }

/-- An engine after a pavilion reset (R80 step 4, R113). -/
def Eng.reset : Eng :=
  { v := Vector.replicate 32 (Vector.replicate 64 0), a := Vector.replicate 4 (Vector.replicate 256 0), q := [],
    seed := 0, step := 0, purpose := 0 }

/-- A pavilion at cold reset (R80, R81, R113, R417). -/
def Pav.reset : Pav :=
  { seq := Seq.reset, eng := Vector.replicate 8 Eng.reset, imem := [], dmem := [], sems := Vector.replicate 64 0,
    niGen := 0, refusing := false, writes := [], nextWrite := 0, held := [], flight := [], rr := 0,
    ungated := false, tested := false, excluded := false }

end Sys2Proof.Machine
end

