-- ==== Sys2Proof/Machine/StateSch.lean ====
section
/-! DEFINITION. The state of the time base and of the schedule unit (R114 to R146, R495, R498) that its registers
do not hold: the time-base counter, the held and the active image, the active and the pending table, the notices,
the bulk-move channels. -/

namespace Sys2Proof.Machine

open Sys2Proof

/-- An epoch record (R124). -/
structure EpochRec where
  len : Nat
  stepStart : Bool
  commit : Bool
  pclass : Nat
  glean : Nat
  deriving DecidableEq, Repr

/-- A slot run (R128): `kind` 1 LOCAL, 2 TRANSIT. -/
structure Run where
  start : Nat
  count : Nat
  port : Nat
  kind : Nat
  flits : Nat
  inPort : Nat
  stream : Nat
  deriving DecidableEq, Repr

/-- A sown stream (R128). -/
structure Strm where
  src : Nat
  dst : Nat
  len : Nat
  dev : Nat
  op : Nat
  sig : BitVec 16
  deriving DecidableEq, Repr

/-- A pavilion binding (R128). -/
structure Bind where
  lpav : Nat
  argKind : Nat
  entry : BitVec 16
  arg : BitVec 32
  deriving DecidableEq, Repr

/-- A bulk move (R128). -/
structure Mv where
  src : Nat
  dst : Nat
  len : Nat
  start : Nat
  sig : BitVec 16
  deriving DecidableEq, Repr

/-- A device epoch block (R127). -/
structure EpochBlock where
  runs : List Run
  streams : List Strm
  binds : List Bind
  moves : List Mv
  pairs : BitVec 64
  commitMap : Nat
  gddrBytes : Nat
  cxlBytes : Nat
  /-- its length in the image, in bytes (R133 kind 9) -/
  bytes : Nat
  deriving DecidableEq, Repr

/-- A program entry (R126). -/
structure Prog where
  mask : BitVec 128
  imem : List (BitVec 16)
  dmem : List (BitVec 16)
  deriving DecidableEq, Repr

/-- What a device keeps of a schedule image: the shared parts and its own section (R122 to R128). -/
structure Image where
  id : BitVec 64
  recs : List EpochRec
  loop : Nat
  devs : List Nat
  vrankLog2 : Nat
  progs : List Prog
  blocks : List (Option EpochBlock)
  deriving DecidableEq, Repr

/-- An image that LOAD has begun to read, or that is ARMED (R132, R136): the settings held with it, whether RUN was
IDLE at LOAD, whether it is to be discarded at the end of its load, and the pavilions a program load names. -/
structure HeldImage where
  img : Image
  idleLoad : Bool
  actTb : Nat
  actEpoch : BitVec 32
  startStep : BitVec 32
  armed : Bool
  doomed : Bool
  deriving DecidableEq, Repr

/-- The outcome of the checks of a load in progress (R132): `none` while all passed. -/
structure LoadFail where
  st : Status
  detail : Nat
  entries : Nat
  /-- the report's entries: record, kind, index, need, avail (R134) -/
  report : List (Nat × Nat × Nat × Nat × Nat)
  imageId : BitVec 64
  deriving DecidableEq, Repr

/-- An ARMED notice held (R135, R136). -/
structure ArmedN where
  image : BitVec 64
  dev : Nat
  stamp : Nat
  deriving DecidableEq, Repr

/-- A PACE notice held (R143). -/
structure PaceN where
  dev : Nat
  level : Nat
  stamp : Nat
  deriving DecidableEq, Repr

/-- A bulk move of the active epoch (R495): waiting, in a channel, in a channel with every write issued and one not yet
made, done. -/
inductive MoveSt where
  | waiting
  | running
  | copied
  | done
  deriving DecidableEq, Repr

/-- The epoch that is open (R138). -/
structure OpenEpoch where
  record : Nat
  /-- SCH_TB at its opening boundary -/
  opened : Nat
  /-- L′, the paced length in slots (R143) -/
  lenPaced : Nat
  /-- G of R139 -/
  glean : Nat
  blk : EpochBlock
  moves : List MoveSt
  /-- flits of each stream that the ports have sent -/
  sent : List Nat
  /-- SCH_TB when the last condition of R107 and R138 step 1 was met so far -/
  metAt : Nat
  /-- its boundary has passed with a fault: nothing opens until T_r (R138 step 1) -/
  closed : Bool
  deriving DecidableEq, Repr

/-- The schedule unit and the time base. -/
structure Sch where
  tb : BitVec 64
  /-- ticks for which the counter still holds its value (R115) -/
  hold : Nat
  /-- consecutive good exchanges, and consecutive exchanges with |θ| above 1 ns (R116) -/
  good : Nat
  bad : Nat
  /-- time of the latest slew, and of the latest exchange (R115) -/
  lastSlew : Nat
  lastExch : Nat
  /-- gpio[31] is high until this time (R118) -/
  pulse : Option Nat
  held : Option HeldImage
  load : Option LoadFail
  active : Option Image
  /-- the record that began the current step (R141) -/
  stepRec : Nat
  epoch : Option OpenEpoch
  /-- the pending table is filled (R138 step 5) -/
  filled : Bool
  /-- the fault of the current attempt has been recorded, and a FAULT notice of its own was sent (R498) -/
  recorded : Bool
  ownSent : Bool
  /-- the T_r of the FAULT notices held for the current step and attempt (R141) -/
  trs : List Nat
  armed : List ArmedN
  /-- the PACE notices held, the newest first -/
  paces : List PaceN
  /-- the opening boundaries since the activation from IDLE, the newest first, each with the number of PACE notices held
  at it (R143) -/
  opens : List (Nat × Nat)
  /-- the latest number of this device's own notices by kind, and the latest accepted by origin and kind (R170) -/
  ownNum : Vector Nat 5
  seenNum : List ((Nat × Nat) × Nat)
  /-- bulk-move channels in use: the index of the move in each (R495) -/
  chans : List Nat
  /-- the power processor's pace request (R143, R450) -/
  pacePwr : Nat
  /-- MAX_ATTEMPT as it stood at step 3 of the latest boundary (R138) -/
  maxAtt : Nat
  /-- the fabric ports on which a child has asked for the time (R115, R426) -/
  kids : List (Fin 24)
  deriving DecidableEq, Repr

/-- The schedule unit at cold reset: the counter at 0 (R114), nothing held. -/
def Sch.reset : Sch :=
  { tb := 0, hold := 0, good := 0, bad := 0, lastSlew := 0, lastExch := 0, pulse := none, held := none, load := none,
    active := none, stepRec := 0, epoch := none, filled := false, recorded := false, ownSent := false, trs := [], armed := [],
    paces := [], opens := [], ownNum := Vector.replicate 5 0, seenNum := [], chans := [], pacePwr := 0, maxAtt := 3, kids := [] }

end Sys2Proof.Machine
end

