-- ==== Sys2Proof/Machine/StateCip.lean ====
section
/-! DEFINITION. The state of the cipher engine (R392 to R403) that its registers do not hold. -/

namespace Sys2Proof.Machine

open Sys2Proof

/-- A command that has started (R397, R398): its ring index, the grant of the lock it belongs to, its path (the OWNER value),
the address of its descriptor and the descriptor itself, the keys taken into its cores (R403), the staging bytes it has
reserved (R401), and the status and detail it ended with. -/
structure CipRun where
  idx : Nat
  gen : Nat
  path : Nat
  at_ : Nat
  desc : List Byte
  k1 : List Byte
  k2 : List Byte
  staged : Nat
  result : Option (Status × Nat)
  deriving DecidableEq, Repr

/-- The cipher engine. -/
structure Cip where
  /-- the keys in the slots, which no operation reads out (R402); an empty list where the slot is not valid -/
  keys : SMap (List Byte)
  running : List CipRun
  /-- the paths that wait for the lock, by OWNER value, each with the time its wait began (R394, R395) -/
  waits : List (Nat × Nat)
  /-- the ring index of the next descriptor to start, and those DONE that CIP_HEAD has not passed (R397) -/
  next : Nat
  dones : List Nat
  /-- the lodge processors' own memory in which the firmware's rings lie: keyed by OWNER value × 2^64 + address -/
  fwMem : List Host.Cell
  deriving DecidableEq, Repr

/-- The cipher engine at reset. -/
def Cip.reset : Cip := { keys := [], running := [], waits := [], next := 0, dones := [], fwMem := [] }

end Sys2Proof.Machine
end

