-- ==== Sys2Proof/Machine/StateCkp.lean ====
section
/-! DEFINITION. The state of the checkpoint unit that its registers do not hold: the open sheaf (R244 to R268), the writes
that copy-before-write holds (R255, R256), the restore in progress (R250), the triggers (R253). -/

namespace Sys2Proof.Machine

open Sys2Proof

/-- A region entry (R246): `kind` 0 COPY, 1 REUSE. -/
structure SheafRegion where
  addr : Nat
  len : Nat
  kind : Nat
  split : Nat
  role : Nat
  vrank : Nat
  tensor : Nat
  shards : Nat
  reuseTab : Nat
  deriving DecidableEq, Repr

/-- What a manifest's header records of the snapshot (R267). -/
structure Snap where
  step : Nat
  device : Nat
  devGen : Nat
  imageId : Nat
  tb : Nat
  epoch : Nat
  record : Nat
  vrankLog2 : Nat
  /-- the USER record -/
  user : List Byte
  deriving DecidableEq, Repr

/-- The open sheaf: its command (none for an automatic one), what triggered it, its descriptor (R245), its snapshot, the
granules SAVED and captured (R254), the reserve slots (slot, granule) and the diversions under way (granule, slot), the
shards written, the next byte from DEST_BASE, and the shard-table entries (region, 80 bytes). -/
structure Sheaf where
  cmd : Option Nat
  trigger : Nat
  shardLog2 : Nat
  id : Nat
  stepHint : Nat
  destKind : Nat
  /-- percent of the destination path under load (R264) -/
  share : Nat
  target : Nat
  destBase : Nat
  destLimit : Nat
  manLoc : Nat
  userAddr : Nat
  regions : List SheafRegion
  snap : Option Snap
  saved : List Nat
  captured : List (Nat × List Byte)
  slots : List (Nat × Nat)
  diverting : List (Nat × Nat)
  next : Nat
  pos : Nat
  entries : List (Nat × List Byte)
  deriving DecidableEq, Repr

/-- Who waits for a held write: nobody that the state names; the acknowledgements of `n` writes of physical pavilion `p` from
identifier `first` on (R68); move `i` of the epoch (R495); a completion of a fabric port (R163); the requests of a PCIe link
behind it (R286); the response of a request to a memory controller. -/
inductive HeldFor where
  | plain
  | put (p : Fin 144) (first n : Nat)
  | move (i : Nat)
  | port (p : Fin 24)
  | link (k : Nat)
  | rsp
  | cip (idx gen : Nat)
  | done
  deriving DecidableEq, Repr

/-- A write that copy-before-write holds. -/
structure HeldWrite where
  addr : Nat
  data : List Byte
  sown : Bool
  owner : HeldFor
  deriving DecidableEq, Repr

/-- An ADD of +1 of a fabric port that waits for the port's earlier writes, of those that are held (R68, R163). -/
structure PortAdd where
  port : Fin 24
  lpav : Nat
  sem : Fin 64
  behind : List HeldWrite
  deriving DecidableEq, Repr

/-- The checkpoint unit. `ceCount` counts the corrected errors of the window and `ceFired` says that it has triggered;
`stallFrom` is the first slot, not yet counted, in which a sown write waits for a reserve slot, `stallSlots` the slots
counted in the epoch, `stallNext` the first slot not counted. -/
structure Ckp where
  sheaf : Option Sheaf
  held : List HeldWrite
  /-- ADDs of fabric ports that wait, oldest first -/
  adds : List PortAdd
  /-- the restore in progress: its command -/
  restore : Option Nat
  /-- the ranges that a LOAD in progress writes (R273) -/
  dests : List (Nat × Nat)
  ceCount : Nat
  ceFired : Bool
  lastAuto : Option Nat
  stallFrom : Option Nat
  stallSlots : Nat
  stallNext : Nat
  deriving DecidableEq, Repr

/-- The checkpoint unit at reset. -/
def Ckp.reset : Ckp :=
  { sheaf := none, held := [], adds := [], restore := none, dests := [], ceCount := 0, ceFired := false, lastAuto := none, stallFrom := none,
    stallSlots := 0, stallNext := 0 }

end Sys2Proof.Machine
end

