-- ==== Sys2Proof/Machine/StateEth.lean ====
section
/-! DEFINITION. The state of the Ethernet ports and of traffic control that their registers do not hold (R365 to R391): the
classification tables, the table command that runs, neighbours and held packets, PFC pauses, the PTP offset, policer and shaper
buckets, frames ready to leave, virtual times. -/

namespace Sys2Proof.Machine

open Sys2Proof

/-- A policer in force (R383, R384): its two registers, and its buckets in 1/256 byte. -/
structure Pol where
  rate : BitVec 64
  size : BitVec 64
  tc : Nat
  te : Nat
  deriving DecidableEq, Repr

/-- A shaper in force (R388, R389): its register, and its level in 1/256 byte. -/
structure Shp where
  cfg : BitVec 64
  level : Int
  deriving DecidableEq, Repr

/-- What a frame that is ready to leave holds. -/
inductive TxBody where
  /-- a packet, with its UDP destination port and its ECN field (R339) -/
  | rdma (k : RdmaTx) (dport ecn : Nat)
  /-- the answer of the management processor to a query for an address -/
  | mgmt (target : BitVec 128) (mac : BitVec 48)
  /-- a query of the management processor for the MAC address of a next hop -/
  | ask (target : BitVec 128)
  deriving DecidableEq, Repr

/-- A frame that is ready to leave a logical port (R386): a control frame or one of a queue; class, partition and queue; its
length with FCS; the work request that it belongs to, and since when a shaper alone holds it. -/
structure TxFrame where
  port : Nat
  ctrl : Bool
  cls : Nat
  part : Nat
  queue : Nat
  len : Nat
  body : TxBody
  cmd : Option Nat
  blocked : Bool
  deriving DecidableEq, Repr

/-- A gateway record of a logical port (R369, R427): IPv4 gateway and prefix length, IPv6 gateway and prefix length. -/
structure Gateway where
  v4 : List Byte
  v4Len : Nat
  v6 : List Byte
  v6Len : Nat
  deriving DecidableEq, Repr

/-- The clock of R370: the offset from the time base and the path delay in ns; the last Sync, as its times in ns. -/
structure Ptp where
  off : Int
  delay : Int
  sync : Option (Int × Int)
  deriving DecidableEq, Repr

/-- A table command that runs (R379, R380): 1 WRITE, 2 READ, 3 INVALIDATE; table, index, the staged words. -/
structure EntCmd where
  op : Nat
  table : Nat
  index : Nat
  data : List Byte
  deriving DecidableEq, Repr

/-- The Ethernet ports and traffic control. -/
structure Eth where
  /-- entries by table (0 exact, 1 ternary, 2 pattern) and index -/
  tables : List ((Nat × Nat) × List Byte)
  ent : Option EntCmd
  /-- neighbours, by address -/
  neigh : List (BitVec 128 × BitVec 48)
  /-- packets held for a next hop: the hop, the frame, since when -/
  hold : List (BitVec 128 × TxFrame × Nat)
  gateways : List (Nat × Gateway)
  /-- the end of a pause, by port and class (R367) -/
  pauses : List ((Nat × Nat) × Nat)
  ptp : Ptp
  pols : List (Nat × Pol)
  shps : List (Nat × Shp)
  /-- writes that take effect at the next refill: index, time base of the write, registers -/
  newPols : List (Nat × Nat × BitVec 64 × BitVec 64)
  newShps : List (Nat × Nat × BitVec 64)
  /-- time base of the latest refill, divided by 1,024 -/
  refill : Nat
  txq : List TxFrame
  /-- frames handed to the transport and not yet taken by it, oldest first: port, and whether the policer coloured it yellow (R385) -/
  handed : List (Nat × Bool)
  /-- F by level and child, V by level and parent (R387): levels 0 sheaf or tree, 1 class, 2 partition, 3 queue -/
  fin : List ((Nat × Nat) × Nat)
  virt : List ((Nat × Nat) × Nat)
  deriving DecidableEq, Repr

/-- Ethernet at reset. -/
def Eth.reset : Eth :=
  { tables := [], ent := none, neigh := [], hold := [], gateways := [], pauses := [], ptp := { off := 0, delay := 0, sync := none },
    pols := [], shps := [], newPols := [], newShps := [], refill := 0, txq := [], handed := [], fin := [], virt := [] }

end Sys2Proof.Machine
end

