-- ==== Sys2Proof/Machine/StateFab.lean ====
section
/-! DEFINITION. The state of the Quafin fabric ports that their registers do not hold (R147 to R178, R496): sequence
numbers and replay buffers, flits held for order, elastic buffers, credits, queues, stream-completion entries,
the active routing bank. -/

namespace Sys2Proof.Machine

open Sys2Proof

/-- A control message (R169). The spec gives the payloads' fields and, for most types, no byte layout. -/
inductive Ctrl where
  | idle
  | nak (seqs : List (BitVec 10))
  | credit (n : List Nat)
  | tsRequest (t1 : Int)
  | tsReply (t1 t2 t3 : Int) (locked : Bool) (depth : Nat)
  | notice (kind : Nat) (n : Notice)
  /-- a flit of a ROUTED message, the first, the last -/
  | routed (m : RoutedMsg) (first last : Bool)
  /-- NEGOTIATE: the version offered, device number, port and generation (R172) -/
  | train (offer dev port gen : Nat)
  deriving DecidableEq, Repr

/-- What a counted flit carries: a sown or volunteer flit's 316 bytes with a SEQ of 0 (R149), or a control message. -/
inductive Flit where
  | sown (bytes : List Byte)
  | vol (bytes : List Byte)
  | ctrl (m : Ctrl)
  deriving DecidableEq, Repr

/-- Is a flit sown? -/
def Flit.isSown : Flit → Bool
  | .sown _ => true
  | _ => false

/-- A counted flit in the replay buffer, with the epoch in whose slot it was first sent (R155, R496). -/
structure Sent where
  seq : Nat
  flit : Flit
  epoch : BitVec 32
  deriving DecidableEq, Repr

/-- A queued item and the first slot (SCH_TB divided by 8) in which it may leave. -/
structure Queued where
  flit : Flit
  slot : Nat
  /-- the input port it came from, 24 for the device's own; for a volunteer flit, the class-and-lane pair of the buffer that it
  holds there (R166) -/
  src : Nat := 24
  inPair : Nat := 0
  deriving DecidableEq, Repr

/-- A SEQ found missing: the port its flit was dealt to, if any, and the epoch (R160, R161, R496). -/
structure Missing where
  seq : Nat
  dealt : Option Nat
  epoch : BitVec 32
  deriving DecidableEq, Repr

/-- A flit in the elastic buffer (R159): its receive slot and position, and its bytes; `none` for an uncorrectable
flit, whose position is dealt all the same (R160). -/
structure Elastic where
  slot : Nat
  pos : Nat
  seq : Nat
  bytes : Option (List Byte)
  /-- for a retransmission, what was recorded of its missing SEQ -/
  miss : Option Missing
  deriving DecidableEq, Repr

/-- One fabric port. -/
structure FabPort where
  txSeq : Nat
  replay : List Sent
  /-- SEQs to be retransmitted, with the first slot for each (R155) -/
  retx : List (Nat × Nat)
  /-- flits that a TRANSIT run sends: output slot, position, bytes (R160) -/
  fwd : List (Nat × Nat × List Byte)
  /-- late forwards: first slot, epoch, bytes (R161) -/
  late : List (Nat × BitVec 32 × List Byte)
  ctrlQ : List Queued
  volQ : List Queued
  rxSeq : Nat
  missing : List Missing
  /-- control and volunteer flits held behind a missing SEQ (R156) -/
  holdRx : List (Nat × List Byte)
  elastic : List Elastic
  /-- consecutive uncorrectable flits (R158) -/
  badRun : Nat
  /-- credits held for the 16 class-and-lane pairs, and credits owed to the partner (R166) -/
  credits : Vector Nat 16
  owed : Vector Nat 16
  owedSince : Nat
  /-- coefficients are saved, so that a retrain is fast (R172) -/
  coeffs : Bool
  /-- time at which the training state was entered -/
  since : Nat
  /-- sown flits retransmitted in the active epoch (R139, R157) -/
  retxCount : Nat
  /-- by class, the input last served and whether its packet goes on (R165) -/
  rrIn : Vector (Nat × Bool) 8
  /-- DS and MAX_VERSION as they stood when the latest training began (R181) -/
  dsOn : Nat
  maxOn : Nat
  /-- the slot in which the latest ALIGN seeded the scramblers (R152) -/
  scramAt : Nat
  deriving DecidableEq, Repr

/-- A stream-completion entry (R163, R164). -/
structure Comp where
  first : Option Nat
  last : Option Nat
  sum : Nat
  scope : Bool
  clash : Bool
  deriving DecidableEq, Repr

/-- TRANSIT runs kept through a warm reset (R176): the runs, the opening of their epoch and its close, in ticks of SCH_TB, its
number. -/
structure KeptRuns where
  runs : List Run
  opened : Nat
  close : Nat
  epoch : Nat
  deriving DecidableEq, Repr

/-- The fabric block. -/
structure Fab where
  ports : Vector FabPort 24
  /-- the active routing bank (R168); an unlisted entry is 0; the inactive bank stands in FAB_RT -/
  rt : SMap (BitVec 32)
  /-- stream-completion entries by target, 64 × pavilion + semaphore -/
  comps : List (Nat × Comp)
  /-- the device's own volunteer and ROUTED flits wait until this time (R177) -/
  genHold : Option Nat
  /-- no GEN notice has been sent since the reset (R177) -/
  genDue : Bool
  kept : Option KeptRuns
  /-- a warm reset lasts: flits for the device itself are discarded (R176) -/
  resetting : Bool
  /-- ROUTED messages that await a reply, by device (R178) -/
  awaiting : List Nat
  /-- the slot after the one in which the ports sent last -/
  nextTx : Nat
  deriving DecidableEq, Repr

/-- A port at cold reset: no credits until it trains. -/
def FabPort.reset : FabPort :=
  { txSeq := 0, replay := [], retx := [], fwd := [], late := [], ctrlQ := [], volQ := [], rxSeq := 0, missing := [],
    holdRx := [], elastic := [], badRun := 0, credits := Vector.replicate 16 0, owed := Vector.replicate 16 0,
    owedSince := 0, coeffs := false, since := 0, retxCount := 0, rrIn := Vector.replicate 8 (24, false), dsOn := 0, maxOn := 3,
    scramAt := 0 }

/-- The fabric at cold reset. -/
def Fab.reset : Fab :=
  { ports := Vector.replicate 24 FabPort.reset, rt := [], comps := [], genHold := none, genDue := true, kept := none,
    resetting := false, awaiting := [], nextTx := 0 }

end Sys2Proof.Machine
end

