-- ==== Sys2Proof/Machine/StateHif.lean ====
section
/-! DEFINITION. The state of the PCIe ports that their registers do not hold (R276 to R305). -/

namespace Sys2Proof.Machine

open Sys2Proof

/-- One MSI-X table entry (R282). -/
structure MsixEntry where
  addr : BitVec 64
  data : BitVec 32
  mask : Bool
  deriving DecidableEq, Repr

/-- The MSI-X structure of a function: Enable and Function Mask of its capability, its table, its pending bits (R282). -/
structure FnMsix where
  enable : Bool
  fmask : Bool
  table : SMap MsixEntry
  pba : List Nat
  deriving DecidableEq, Repr

/-- An entry that nothing has written: masked, as PCIe gives. -/
def MsixEntry.reset (_ : Nat) : MsixEntry := { addr := 0, data := 0, mask := true }

/-- The MSI-X structure at reset. -/
def FnMsix.reset : FnMsix := { enable := false, fmask := false, table := [], pba := [] }

/-- What a function's configuration space holds of software's writes, beside MSI-X (R281): the Command register, the BARs,
the power state, Device Control, log2 of BAR4's size, Uncorrectable Error Status. -/
structure FnCfg where
  command : BitVec 16
  bars : Vector (BitVec 64) 3
  romBar : BitVec 32
  power : BitVec 2
  devCtl : BitVec 16
  bar4Log2 : Nat
  aer : BitVec 32
  deriving DecidableEq, Repr

/-- A function's configuration space at reset: BAR4 of 64 GiB (R281). -/
def FnCfg.reset : FnCfg :=
  { command := 0, bars := Vector.replicate 3 0, romBar := 0, power := 0, devCtl := 0, bar4Log2 := 36, aer := 0 }

/-- The SPDM responder of a function (R304): how far the connection has come (0 nothing, 1 version, 2 capabilities,
3 algorithms), its sessions and whether each is established, the number of the next one, the state of Link IDE (R305):
0 none, 1 keys delivered, 2 active. -/
structure Spdm where
  stage : Nat
  sessions : List (Nat × Bool)
  next : Nat
  ide : Nat
  /-- keys that IDE_KM has delivered, by the Param2 that names them (R305) -/
  keys : List (Nat × List Byte)
  /-- DWORDs of an object in progress in the mailbox -/
  obj : List (BitVec 32)
  /-- DOE Error: an object was refused or aborted, and DOE Abort has not been written -/
  aborted : Bool
  deriving DecidableEq, Repr

/-- The responder at reset. -/
def Spdm.reset : Spdm := { stage := 0, sessions := [], next := 1, ide := 0, keys := [], obj := [], aborted := false }

/-- A tag that is not free (R289, R290): a request issued at a time, with its timeout in µs and the slot's generation; or
quarantined until a time. -/
inductive TagSt where
  | out (issued timeout gen : Nat)
  | quar (till : Nat)
  deriving DecidableEq, Repr

/-- An accelerator configuration access in progress (R292, R295): its slot, the tag of its request, whether it writes, when
Configuration Request Retry Status was first met. -/
structure Dcfg where
  slot : Nat
  tag : Option Nat
  write : Bool
  crs : Option Nat
  deriving DecidableEq, Repr

/-- A downstream slot (R297): power enabled, reset asserted, when its state was entered, when its link came up, when power
is to be removed, the BARs assigned (bus address, bytes). -/
structure SlotX where
  power : Bool
  rst : Bool
  since : Nat
  linkAt : Option Nat
  offAt : Option Nat
  bars : List (Nat × Nat)
  deriving DecidableEq, Repr

/-- A slot at reset: unpowered, its reset asserted. -/
def SlotX.reset : SlotX := { power := false, rst := true, since := 0, linkAt := none, offAt := none, bars := [] }

/-- A committed window that waits for its switch (R302). -/
structure WinPend where
  w : Nat
  base : BitVec 64
  target : BitVec 64
  ctrl : BitVec 64
  deriving DecidableEq, Repr

/-- The PCIe ports. Tags are keyed by link (0 and 1 upstream, 2 + a slot a) and number; `split` is the split in force of
each downstream port (R293). -/
structure Hif where
  msix : Vector FnMsix 2
  cfg : Vector FnCfg 2
  spdm : Vector Spdm 2
  tags : List ((Nat × Nat) × TagSt)
  dcfg : Option Dcfg
  slots : Vector SlotX 16
  split : Vector Bool 8
  win : Option WinPend
  deriving DecidableEq, Repr

/-- The PCIe ports at reset. -/
def Hif.reset : Hif :=
  { msix := Vector.replicate 2 FnMsix.reset, cfg := Vector.replicate 2 FnCfg.reset, spdm := Vector.replicate 2 Spdm.reset,
    tags := [], dcfg := none, slots := Vector.replicate 16 SlotX.reset, split := Vector.replicate 8 false, win := none }

end Sys2Proof.Machine
end

