-- ==== Sys2Proof/Machine/StateLdg.lean ====
section
/-! DEFINITION. The state of the lodge processors (R413 to R439) that their registers do not hold: the flash, bring-up, pavilion
loads, EMU commands, activation of firmware, restarts, distribution of images, the PLDM endpoint. -/

namespace Sys2Proof.Machine

open Sys2Proof

/-- A pavilion being loaded (R422 to R424): for a schedule or for the granary service, the images, the loader's bitmap,
its report of the current round (full bitmap and matching digests), the round (0 broadcast, 1 to 3 unicast), the time of
the last segment. -/
structure PavLoad where
  lpav : Nat
  svc : Bool
  imem : List (BitVec 16)
  dmem : List (BitVec 16)
  bitmap : BitVec 48
  report : Option Bool
  round : Nat
  lastSeg : Nat
  deriving DecidableEq, Repr

/-- The EMU command in progress (R428): the address of its block, the block as it was read, and the status, detail and result
it ends with. -/
structure EmuRun where
  addr : Nat
  block : List Byte
  result : Option (Status × Nat × Nat)
  deriving DecidableEq, Repr

/-- An activation under way (R436): the set it restarts into, the set that ran before, the processors that have yet to finish,
the first of them restarting, and whether it is the fall-back to the previous set. -/
structure Act where
  set : Fin 2
  prev : Fin 2
  left : List Lodge
  fell : Bool
  deriving DecidableEq, Repr

/-- A receive area for distributed images (R426, R429): its address and bytes, the image that is coming (bytes, SHA-256), the
segments it holds. -/
structure Dist where
  base : Nat
  len : Nat
  img : Option (Nat × List Byte)
  got : List Nat
  deriving DecidableEq, Repr

/-- The lodge. -/
structure Ldg where
  flash : Flash
  /-- therm_trip_n is low and every clock is stopped, until power is removed (R445) -/
  tripped : Bool
  loads : List PavLoad
  /-- the steps of bring-up that have ended (R415) -/
  step : Nat
  /-- when step 7 began, and the terraces ungated with the time of each (R417) -/
  waveFrom : Nat
  waves : List (Nat × Nat)
  emu : Option EmuRun
  act : Option Act
  /-- a boundary has come at which a pending activation falls due (R436) -/
  fwDue : Bool
  /-- restarts within the last second that no activation made, each with its time (R15) -/
  restarts : List (Lodge × Nat)
  dist : Option Dist
  /-- the PLDM terminus ID and event receiver (R472, R473) -/
  tid : BitVec 8
  receiver : Option (BitVec 8)
  deriving DecidableEq, Repr

/-- A directory copy and a flash that nothing has programmed. -/
def dirEmpty : FlashDir := { seq := 0, active := 0, stA := 0, stB := 0, ok := false }
def flashEmpty : Flash :=
  { dir0 := dirEmpty, dir1 := dirEmpty, helper := [], devCert := [], owner := [], sku := [], defect := [], devGen := 0,
    fabTrain := [], cxlTrain := [], ethTrain := [], setA := [], setB := [], uefi := [] }

/-- The lodge at reset. -/
def Ldg.reset : Ldg :=
  { flash := flashEmpty, tripped := false, loads := [], step := 0, waveFrom := 0, waves := [], emu := none, act := none, fwDue := false, restarts := [],
    dist := none, tid := 0, receiver := none }

end Sys2Proof.Machine
end

