-- ==== Sys2Proof/Machine/StateMem.lean ====
section
/-! DEFINITION. The state of the memory controllers that their registers do not hold: GDDR7 training (R218), migrations in
progress (R227, R228), the granary service (R235), CXL requests outstanding (R223). -/

namespace Sys2Proof.Machine

open Sys2Proof

/-- A migration in progress: its command, the entry's address, the old and the new page. -/
structure Mig where
  cmd : Nat
  part : Nat
  entry : Nat
  src : Nat
  dst : Nat
  deriving DecidableEq, Repr

/-- The memory controllers. -/
structure Mem where
  /-- a training under way: a fast start or a full one, and when it began -/
  training : Option (Bool × Nat)
  /-- the devices' identifiers, and the temperature of each channel group's devices, in degrees Celsius -/
  ident : Nat
  temps : Vector Int 12
  /-- the record saved in flash: identifiers and temperature -/
  saved : Option (Nat × Int)
  migs : List Mig
  /-- a FORCE_FULL that was set when the reset began (R218) -/
  force : Bool
  /-- SEAL and ATTEND commands that run, with their service pavilion -/
  svcRun : List (Nat × Nat)
  /-- 64-byte CXL requests outstanding of command work: partition, and when each ends (R223) -/
  cxl : List (Nat × Nat)
  deriving DecidableEq, Repr

/-- The memory controllers at the first power-on. -/
def Mem.reset : Mem :=
  { training := none, ident := 0, temps := Vector.replicate 12 25, saved := none, migs := [], force := false,
    svcRun := [], cxl := [] }

end Sys2Proof.Machine
end

