-- ==== Sys2Proof/Machine/StatePwr.lean ====
section
/-! DEFINITION. The state of the power processor's loops and of the hardware around them (R442 to R456) that their registers
do not hold. -/

namespace Sys2Proof.Machine

open Sys2Proof

/-- Power, thermal and cooling control. -/
structure Pwr where
  /-- the latest run of each periodic action: voltage, scan, TJ, junction, coolant, node, feedforward, tachometer -/
  ran : Vector Nat 8
  /-- VOUT_COMMAND in mV; steps of the addition applied; when its hold ends; when the command last changed (R442) -/
  vcmd : Nat
  boost : Nat
  boostTill : Option Nat
  vstep : Nat
  /-- the sensors as last scanned, in 1/16 °C (R443), and since when every one has been below the release threshold (R444) -/
  sensors : List Int
  cool : Option Nat
  /-- the integrals of the junction loop, in 1/16 °C × 1/100 s, and of the coolant loop, in 1/16 °C × 1/10 s (R451) -/
  iTj : Int
  iCool : Int
  /-- the outputs: the pace level of the junction loop, the pump trim in 1/40,960 % -/
  paceTj : Nat
  trim : Int
  /-- FF_DUTY in %, the energy request, the lowest plan in % (R447, R448) -/
  ffDuty : Nat
  energy : Nat
  /-- the pump duty in 1/40,960 %, and when it was last changed (R447) -/
  duty : Nat
  dutyAt : Nat
  /-- classes that have been met above LIMIT + EB_PMAX (R449) -/
  over_ : List Nat
  /-- the converter's setpoint in W (R449, R451) -/
  setpoint : Nat
  /-- when the pace request was last lowered (R450) -/
  lowered : Nat
  /-- consecutive failed reads: inlet, outlet, node, regulator, converter (R452) -/
  fails : Vector Nat 5
  /-- since when node input is above LIMIT + EB_PMAX, above LIMIT at SOC_MIN, at or below LIMIT; counts of a low and of a good
  tachometer (R452) -/
  overSince : Option Nat
  minSince : Option Nat
  underSince : Option Nat
  tachLow : Nat
  tachOk : Nat
  /-- the loops that have run since the power processor is RUNNING (R454, R455) -/
  seen : List Nat
  /-- since when no emergency has been active (R437, R455) -/
  calm : Option Nat
  deriving DecidableEq, Repr

/-- The loops at reset: the core regulator at its start-up value (R480). -/
def Pwr.reset : Pwr :=
  { ran := Vector.replicate 8 0, vcmd := 750, boost := 0, boostTill := none, vstep := 0, sensors := [], cool := none,
    iTj := 0, iCool := 0, paceTj := 0, trim := 0, ffDuty := 0, energy := 0, duty := 0, dutyAt := 0, over_ := [], setpoint := 0,
    lowered := 0, fails := Vector.replicate 5 0, overSince := none, minSince := none, underSince := none, tachLow := 0, tachOk := 0,
    seen := [2, 3, 4, 5, 7], calm := some 0 }

end Sys2Proof.Machine
end

