-- ==== Sys2Proof/Machine/StateQue.lean ====
section
/-! DEFINITION. The state of the queue engine: partitions (R324 to R336), submission and completion queues (R307 to
R322), fetched commands (R312 to R316), pending events (R467), and the trouble log (R468). -/

namespace Sys2Proof.Machine

open Sys2Proof

/-- Partition states of R324. -/
inductive PartSt where
  | unassigned | active | freezing | frozen | resetting
  deriving DecidableEq, Repr

/-- SQ states of R321. -/
inductive SqSt where
  | active | draining | error
  deriving DecidableEq, Repr

/-- A submission queue that is not FREE. -/
structure Sq where
  st : SqSt
  /-- 0 COMMAND, 1 RECEIVE -/
  kind : Nat
  size : Nat
  cls : Nat
  cq : Nat
  base : Nat
  head : Nat
  tail : Nat
  /-- the QUEUE_DELETE that waits for it to drain -/
  delCmd : Option Nat
  deriving DecidableEq, Repr

/-- A completion queue that is not FREE: `err` says ERROR; `write` is the device's write index; `reserved` counts the
entries reserved at fetch (R312); `unsig` the entries written and not signalled, the first at `firstUnsig` (R317). -/
structure Cq where
  err : Bool
  size : Nat
  vec : Nat
  coalCount : Nat
  coalUs : Nat
  base : Nat
  head : Nat
  write : Nat
  phase : Bool
  reserved : Nat
  unsig : Nat
  firstUnsig : Nat
  /-- entries written since creation, for the WAIT of R356 -/
  count : Nat
  deriving DecidableEq, Repr

/-- The data of an event record (R318, R466). -/
structure EvRec where
  code : Nat
  result : Nat
  st : Status
  detail : Nat
  deriving DecidableEq, Repr

/-- A freeze in progress (R330). -/
structure Freeze where
  cmd : Nat
  graceEnd : Nat
  drainEnd : Nat
  graceOver : Bool
  deriving DecidableEq, Repr

/-- The weight, rates and depth of PART_LIMITS (R325). -/
structure Limits where
  weight : Nat
  cr : Nat
  pr : Nat
  burstUs : Nat
  deriving DecidableEq, Repr

/-- A partition. The token buckets hold cost units times 8 × 10^8 (ticks per second), so that a refill is exact (R336). -/
structure Part where
  st : PartSt
  gen : BitVec 8
  qver : BitVec 16
  /-- STATUS of the latest negotiation (R319) -/
  verSt : Status
  home : Nat
  sqMax : Nat
  cqMax : Nat
  vecBase : Nat
  vecCount : Nat
  weight : Nat
  classMax : Nat
  evq : Nat
  cr : Nat
  pr : Nat
  burstUs : Nat
  commit : Nat
  peak : Nat
  filledAt : Nat
  /-- virtual finish time F (R335) -/
  fin : Nat
  /-- commands completed since creation (R332) -/
  seq : Nat
  ctr : Vector (BitVec 64) 16
  freeze : Option Freeze
  /-- the PART_RESET command in progress (R328) -/
  resetCmd : Option Nat
  pendEv : List EvRec
  /-- the limits that apply from the next fetch (R325) -/
  newLimits : Option Limits
  deriving DecidableEq, Repr

/-- A fetched command: its descriptor (R314), the times of fetch and start, and, once it has ended, its status, detail
and result. `home` is where its generation stood at fetch (R327). -/
structure Cmd where
  id : Nat
  part : Nat
  gen : BitVec 8
  sq : Nat
  cid : Nat
  user : BitVec 64
  op : Nat
  fence : Bool
  /-- reserved bits of the descriptor were set (R314) -/
  rsvBad : Bool
  params : List Byte
  fetched : Nat
  started : Bool
  /-- its completion queue, unless that has been freed since -/
  cq : Option Nat
  /-- the fetch head of its SQ when the SQ was freed, if it was (R316, R321) -/
  freed : Option Nat
  /-- the wait of R28 in ticks, holds that have ended included -/
  wait : Nat
  done : Option (Status × Nat × BitVec 64)
  /-- since when the device holds it back -/
  held : Option Nat
  /-- what holds it: a page that migrates or a connection that is down (R228, R362), or a shaper or a pacing of its frames (R388) -/
  paged : Bool
  shaped : Bool
  /-- a work request held on a CQ's count: it occupies a count watch (R356) -/
  watch : Bool
  /-- the tag under which a work request is parked (R357) -/
  parked : Option Nat
  deriving DecidableEq, Repr

/-- A trouble-log entry (R468). -/
structure LogEntry where
  tb : BitVec 64
  seq : BitVec 32
  kind : Nat
  block : Nat
  part : Nat
  st : Status
  detail : Nat
  arg0 : BitVec 32
  arg1 : BitVec 64
  deriving DecidableEq, Repr

/-- The queue engine. Queues are keyed by partition and local number. -/
structure Que where
  parts : Vector Part 65
  sqs : List ((Nat × Nat) × Sq)
  cqs : List ((Nat × Nat) × Cq)
  cmds : List Cmd
  nextId : Nat
  /-- V of R335 for fetching, and for service pavilions -/
  virt : Nat
  virtSvc : Nat
  /-- the local SQ last served, by partition and class (R335): for fetching, and by service pavilions -/
  rr : List ((Nat × Nat) × Nat)
  rrSvc : List ((Nat × Nat) × Nat)
  /-- cancelled commands whose responses have not come: number, opcode, partition (R327) -/
  gone : List (Nat × Nat × Nat)
  deriving DecidableEq, Repr

/-- An unassigned partition. -/
def Part.reset : Part :=
  { st := .unassigned, gen := 0, qver := 0, verSt := .ok, home := 0, sqMax := 0, cqMax := 0, vecBase := 0, vecCount := 0,
    weight := 0, classMax := 0, evq := 0xFFFF, cr := 0, pr := 0, burstUs := 0, commit := 0, peak := 0, filledAt := 0,
    fin := 0, seq := 0, ctr := Vector.replicate 16 0, freeze := none, resetCmd := none, pendEv := [], newLimits := none }

/-- Partition 0: always ACTIVE, weight 255 (R324, R335), every local number and every class. -/
def Part.reset0 : Part :=
  { Part.reset with st := .active, weight := 255, classMax := 7, sqMax := 16384, cqMax := 16384 }

/-- The queue engine at reset (R14, R321, R322, R324). -/
def Que.reset : Que :=
  { parts := (Vector.replicate 65 Part.reset).set 0 Part.reset0, sqs := [], cqs := [], cmds := [], nextId := 0,
    virt := 0, virtSvc := 0, rr := [], rrSvc := [], gone := [] }

end Sys2Proof.Machine
end

