-- ==== Sys2Proof/Machine/StateRdm.lean ====
section
/-! DEFINITION. The state of the RDMA transport and of the NVMe-oF initiator (R338 to R363): queue pairs with their
requester and responder sides, the context cache and the miss buffer, memory regions, the tables of the reliable-datagram
mode and of the triggers, namespaces. -/

namespace Sys2Proof.Machine

open Sys2Proof

/-- States of a queue pair (R342). -/
inductive QpSt where
  | reset | init | rtr | rts | error
  deriving DecidableEq, Repr

/-- Types of a queue pair (R341). -/
inductive QpTy where
  | rc | spray | ud | rd
  deriving DecidableEq, Repr

/-- Where a context is (R346, R348): on die; in the store; being fetched since a time, none while the fetch waits for a place
on die; being written back. -/
inductive Die where
  | on
  | off
  | fetching (since : Option Nat)
  | writing
  deriving DecidableEq, Repr

/-- A work request in flight: its command, first PSN, PSNs, message number, length, where it goes, its path base; for a read
the offsets placed with their lengths. A reliable-datagram message has its own timer, and the last refusal. -/
structure Wr where
  cmd : Nat
  op : Nat
  psn : Nat
  span : Nat
  /-- packets sent so far, of a sprayed queue pair's window -/
  sent : Nat
  msg : Nat
  len : Nat
  got : List (Nat × Nat)
  dest : RdmaTx
  paths : Nat
  sport : Nat
  first : Nat
  n : Nat
  since : Nat
  reason : Option Nat
  deriving DecidableEq, Repr

/-- A message that arrives on a connected queue pair: a SEND with the receive it consumed, or a WRITE with its address, and the
bytes placed. -/
inductive Arriving where
  | send (recv : Nat) (got : Nat)
  | write (va : Nat) (rkey : BitVec 32) (left : Nat) (got : Nat)
  deriving DecidableEq, Repr

/-- A queue pair: its context. -/
structure Qp where
  num : Nat
  part : Nat
  ty : QpTy
  fabric : Bool
  trigRx : Bool
  resident : Bool
  port : Nat
  sq : Nat
  rq : Nat
  ahBase : Nat
  ahCount : Nat
  st : QpSt
  pmtu : Nat
  retry : Nat
  rnrRetry : Nat
  minRnr : Nat
  dscp : Nat
  paths : Nat
  dest : Nat
  sqPsn : Nat
  rqPsn : Nat
  destDev : Nat
  sport : Nat
  destGid : BitVec 128
  /-- requester: next PSN, oldest unacknowledged PSN, work requests in flight, next message number -/
  nextPsn : Nat
  una : Nat
  out : List Wr
  msg : Nat
  /-- consecutive timeouts, and the moment from which the timer runs (R349) -/
  timeouts : Nat
  since : Nat
  /-- RNR NAKs counted, the end of a suspension, the code of the last one (R350) -/
  rnrCount : Nat
  rnrUntil : Option Nat
  rnrCode : Nat
  /-- responder: next PSN expected, the message that arrives, results of atomics by PSN -/
  arriving : Option Arriving
  atomics : List (Nat × BitVec 64)
  /-- sprayed responder: PSNs recorded beyond the next one expected, bytes recorded by message -/
  recorded : List Nat
  /-- packets recorded since the last acknowledgement -/
  unAcked : Nat
  msgs : List (BitVec 32 × Nat)
  /-- congestion control (R358): the rate in kbit/s, none at the line rate; times of the last cut, of the last CNP or raise, of
  the last CNP sent -/
  rate : Option Nat
  cutAt : Option Nat
  raiseAt : Nat
  cnpAt : Option Nat
  /-- the moment before which the rate lets no further frame leave -/
  paceAt : Nat
  /-- where the context is, when it was last used, packets and work requests that wait for it -/
  die : Die
  used : Nat
  waiting : List RdmaPkt
  waitWr : List Nat
  deriving DecidableEq, Repr

/-- A memory region (R344). -/
structure Mr where
  part : Nat
  addr : Nat
  len : Nat
  access : Nat
  key : Nat
  deriving DecidableEq, Repr

/-- The identity of a reliable-datagram message (R353): its source's address, endpoint, number. -/
structure RdId where
  dev : Option Nat
  gid : BitVec 128
  ep : BitVec 24
  msg : BitVec 32
  deriving DecidableEq, Repr

/-- A reliable-datagram message in progress (R354): its receive, if a SEND, the packets placed, its start. -/
structure RdIn where
  id : RdId
  qpn : Nat
  recv : Option Nat
  pkts : List Nat
  got : Nat
  start : Nat
  deriving DecidableEq, Repr

/-- What became of an identifier in the recent-message table. -/
inductive RdFate where
  | open | done (t : Nat) | abandoned (t : Nat)
  deriving DecidableEq, Repr

/-- State of a namespace's association (R362): connecting since, up, lost since, given up. -/
inductive NsSt where
  | connecting (cmd since : Nat)
  | up
  | down (since tries : Nat)
  | failed
  deriving DecidableEq, Repr

/-- A namespace (R362). -/
structure Ns where
  st : NsSt
  owner : Nat
  qpairs : Nat
  depth : Nat
  nsid : Nat
  kato : Nat
  conn : Nat
  lbaLog2 : Nat
  capacity : Nat
  mdts : Nat
  /-- the logical ports that carry its associations -/
  ports : List (Fin 16)
  /-- when Keep Alive was last sent -/
  alive : Nat
  /-- the queue pair that takes the next piece (R363) -/
  next : Nat
  deriving DecidableEq, Repr

/-- The RDM block. -/
structure Rdm where
  qps : List (Nat × Qp)
  /-- QPNs destroyed less than 8 ms ago, with the time of destruction and the partition that held them (R341, R463) -/
  heldQpns : List (Nat × Nat × Nat)
  mrs : List (Nat × Mr)
  rdIn : List RdIn
  recent : List (RdId × RdFate)
  /-- early triggers: partition, tag, time (R357) -/
  early : List (Nat × Nat × Nat)
  ns : List (Nat × Ns)
  /-- counts uses of contexts, for the least recently used one -/
  uses : Nat
  /-- when MISS_FULL was last raised (R360) -/
  missFullAt : Option Nat
  /-- deliveries that wait for a page that migrates (R228): the receive, its address, the bytes, its result -/
  late : List (Nat × Nat × List Byte × Nat)
  deriving DecidableEq, Repr

/-- The RDM block at reset. -/
def Rdm.reset : Rdm :=
  { qps := [], heldQpns := [], mrs := [], rdIn := [], recent := [], early := [], ns := [], uses := 0, missFullAt := none, late := [] }

end Sys2Proof.Machine
end

