-- ==== Sys2Proof/Machine/StateTru.lean ====
section
/-! DEFINITION. The state of the root of trust (R404 to R411) that its registers do not hold. -/

namespace Sys2Proof.Machine

open Sys2Proof

/-- The root of trust: the ROM-only memory (UDS and CDI_L0, R408), the accepted records (R404, R405), the digests of the
measurement indices 1 to 8 (R410). -/
structure Tru where
  uds : Option (List Byte)
  cdi0 : Option (List Byte)
  owner : Option (List Byte)
  sku : Option (List Byte)
  defect : Option (List Byte)
  meas : List (Nat × List Byte)
  deriving DecidableEq, Repr

/-- The root of trust before its ROM has run. -/
def Tru.reset : Tru := { uds := none, cdi0 := none, owner := none, sku := none, defect := none, meas := [] }

end Sys2Proof.Machine
end

