-- ==== Sys2Proof/Machine/State.lean ====
section
/-! DEFINITION. The state of the device: its registers, its memories, the typed state of its blocks, what it has sent,
and the queue of waiting commands. -/

namespace Sys2Proof.Machine

open Sys2Proof

/-- Why the machine stops. No meaning of this model raises a fault: the spec gives every command an effect. -/
inductive Fault where
  /-- Raised by no command. Safe: nothing rests on it. -/
  | unreachable
  deriving DecidableEq, Repr

/-- Why a command has no meaning here. -/
inductive Refusal where
  /-- Raised by an arm of `exec` whose command has no meaning yet. Safe: it stops where the device would go on. -/
  | notModelled (mnemonic : String)
  deriving DecidableEq, Repr

/-- A PLDM response (R472, R473): the types supported, the terminus ID, a numeric reading, a state sensor, a plain success, or
an unsupported command. -/
inductive PldmRsp where
  | types (l : List Nat)
  | tid (t : BitVec 8)
  | reading (v : Int)
  | state (on : Bool)
  | ok
  | unsupported
  deriving DecidableEq, Repr

/-- What the device sends to the outside. -/
inductive Out where
  /-- an MSI-X message of an upstream function: a posted write of `data` to `addr` (R317) -/
  | msix (fn : Nat) (addr : BitVec 64) (data : BitVec 32)
  /-- a mesh response to a request: status, the NI generation it returns, the bytes of a read (R67, R81) -/
  | meshRsp (gen : BitVec 8) (st : Status) (data : List Byte)
  /-- a pin changes level -/
  | pin (name : String) (level : Bool)
  /-- a flit on a fabric port, in a position of a slot: the 80 bytes of each of its four lanes (R147, R149, R153) -/
  | flit (port slot pos : Nat) (lanes : List (List Byte))
  /-- a ROUTED message that awaited a reply ends (R178) -/
  | routedEnd (dev : Nat) (st : Status)
  /-- the answer to a memory request: its status, and the bytes of a read (R216, R223) -/
  | memRsp (st : Status) (data : List Byte)
  /-- a Read and a Write of an NVMe-oF namespace at a byte offset, and a Flush of it, on one of its queue pairs (R263, R265, R363) -/
  | nsRead (ns qpair off len : Nat)
  | nsWrite (ns qpair off : Nat) (data : List Byte)
  | nsFlush (ns qpair : Nat)
  /-- a memory write and a memory read that the device sends on a PCIe link (0 and 1 upstream, 2 + a slot a): the upstream function
  whose requester ID it carries (none: the root port's own), whether a write has Relaxed Ordering, whether Link IDE enciphers it
  (R287, R296, R305) -/
  | memWr (link : Nat) (fn : Option Nat) (ro ide : Bool) (addr : Nat) (data : List Byte)
  | memRd (link : Nat) (fn : Option Nat) (ide : Bool) (addr len : Nat)
  /-- the answer to a memory access on a PCIe link: the bytes of a read, Unsupported Request, or Completer Abort -/
  | cpl (data : List Byte)
  | cplUr
  | cplCa
  /-- the answer to a configuration request; `none` is Configuration Request Retry Status (R416) -/
  | cfgRsp (v : Option (BitVec 64))
  /-- a configuration request to the accelerator in a slot (R295) -/
  | cfgReq (slot func dword : Nat) (wr : Option (BitVec 32))
  /-- an SPDM response of a function (R304) -/
  | spdm (fn : Nat) (r : SpdmRsp)
  /-- an RDMA packet that the transport hands to its port (R339) -/
  | rdma (k : RdmaTx)
  /-- a packet to QP1, for the software of partition 0 (R338) -/
  | qp1 (k : RdmaPkt)
  /-- Keep Alive on the associations of a namespace (R361) -/
  | nsKeepAlive (ns : Nat)
  /-- a frame leaves a logical Ethernet port: VLAN and PCP, destination MAC, what it holds, and, of a packet of the transport, its
  bytes without FCS (R339, R369) -/
  | ethTx (port : Nat) (vid pcp : Nat) (mac : BitVec 48) (f : TxBody) (bytes : List Byte)
  /-- a frame of the sheaf flow leaves a port: its length (R386) -/
  | ethSheaf (port len : Nat)
  /-- an attempt to connect a namespace's associations -/
  | nsConnect (ns : Nat)
  /-- a segment of a schedule image sent down a port of the timing tree, and a report of a whole image sent up (R426) -/
  | dist (port : Nat) (index : Nat) (data : List Byte)
  | distReport (port : Nat) (whole : Bool)
  /-- an event source is delivered to a lodge core, and a sleeping core wakes (R431, R432) -/
  | evDeliver (core src : Nat)
  | coreWake (core : Nat)
  /-- a PLDM response, and a PlatformEventMessage for a condition (R473) -/
  | pldm (r : PldmRsp)
  | pldmEvent (cond : Nat) (on : Bool)
  /-- the answer to a log read: status, LOG_WR, the entries (R474) -/
  | logRsp (st : Status) (wr : Nat) (entries : List Byte)
  /-- commands to the node's devices: the core regulator in mV, the pump in %, the converter's setpoint in W (R442, R447, R449) -/
  | vout (mv : Nat)
  | pump (pct : Nat)
  | converter (w : Nat)
  deriving DecidableEq, Repr

structure State where
  pending : List Instr
  /-- registers that do not hold their reset value, by BAR0 offset -/
  regs : SMap (BitVec 64)
  /-- GDDR7, CXL, accelerator and host memory (R19); an unlisted byte reads 0 -/
  mem : List Host.Cell
  /-- scratch, keyed by physical pavilion × 2 MiB + offset (R57, R63); an unlisted byte reads 0 -/
  scratch : List Host.Cell
  /-- ticks of 1.25 ns since power was applied -/
  now : Nat
  /-- how many free values have been used (the model's own) -/
  freeCtr : Nat
  /-- what the device has sent, latest first (the model's own) -/
  out : List Out
  /-- the trouble log, by index (R468) -/
  log : List (Nat × LogEntry)
  pavs : Vector Pav 144
  sch : Sch
  fab : Fab
  que : Que
  hif : Hif
  ldg : Ldg
  gmem : Mem
  ckp : Ckp
  tru : Tru
  rdm : Rdm
  eth : Eth
  cip : Cip
  pwr : Pwr
  deriving DecidableEq, Repr

/-- The machine right after reset.
(DESIGN CHOICE: log 2, 4.) -/
def State.reset : State :=
  { pending := [], regs := [], mem := [], scratch := [], now := 0, freeCtr := 0, out := [], log := [],
    pavs := Vector.replicate 144 Pav.reset, sch := Sch.reset, fab := Fab.reset, que := Que.reset, hif := Hif.reset, ldg := Ldg.reset, gmem := Mem.reset,
    ckp := Ckp.reset, tru := Tru.reset, rdm := Rdm.reset, eth := Eth.reset, cip := Cip.reset,
    pwr := Pwr.reset }

end Sys2Proof.Machine
end

