-- ==== Sys2Proof/Machine/Ops.lean ====
section
/-! DEFINITION. The named operations over the state: sparse maps, registers and their fields (R4 to R8), the
device-physical address space (R19, R20), the trouble log (R468 to R470), completion and event records (R316 to R318,
R467), MSI-X messages (R317), free values, time, and the logical map of the pavilions (R73). -/

namespace Sys2Proof.Machine

open Sys2Proof

/-! ### Sparse maps and association lists -/

/-- The value at `k`: the first entry with that key, else the default. -/
def smGet {α : Type} (d : Nat → α) : SMap α → Nat → α
  | [], k => d k
  | (a, v) :: r, k => if a = k then v else smGet d r k

/-- Insert an entry before the first larger key. -/
def smInsert {α : Type} (k : Nat) (v : α) : SMap α → SMap α
  | [] => [(k, v)]
  | (a, b) :: r => if k < a then (k, v) :: (a, b) :: r else (a, b) :: smInsert k v r

/-- Drop the entries at `k`. -/
def smErase {α : Type} (k : Nat) : SMap α → SMap α
  | [] => []
  | (a, b) :: r => if a = k then smErase k r else (a, b) :: smErase k r

/-- Write `v` at `k`; the default value is not listed. -/
def smSet {α : Type} [DecidableEq α] (d : Nat → α) (m : SMap α) (k : Nat) (v : α) : SMap α :=
  if v = d k then smErase k m else smInsert k v (smErase k m)

/-- The canonical form: keys strictly rising, no default listed. -/
def smWf {α : Type} [DecidableEq α] (d : Nat → α) (m : SMap α) : Bool :=
  decide (m.Pairwise (fun x y => x.1 < y.1)) && m.all (fun e => decide (e.2 ≠ d e.1))

/-- The entry of an association list at `k`. -/
def alook {κ α : Type} [DecidableEq κ] (k : κ) : List (κ × α) → Option α
  | [] => none
  | (a, v) :: r => if a = k then some v else alook k r

/-- Drop the entries at `k`. -/
def adel {κ α : Type} [DecidableEq κ] (k : κ) (m : List (κ × α)) : List (κ × α) :=
  m.filter (fun e => decide (e.1 ≠ k))

/-- Put `v` at `k`: in the place of the entry it replaces, else at the end. -/
def aput {κ α : Type} [DecidableEq κ] (k : κ) (v : α) : List (κ × α) → List (κ × α)
  | [] => [(k, v)]
  | (a, b) :: r => if a = k then (k, v) :: r else (a, b) :: aput k v r

/-- Change the entry at `k`, if there is one. -/
def amod {κ α : Type} [DecidableEq κ] (k : κ) (f : α → α) (m : List (κ × α)) : List (κ × α) :=
  m.map (fun e => if e.1 = k then (e.1, f e.2) else e)

/-- Put an element before the first that does not precede it. -/
def insertBy {α : Type} (le : α → α → Bool) (x : α) : List α → List α
  | [] => [x]
  | y :: r => if le x y then x :: y :: r else y :: insertBy le x r

/-- A list in the order of `le`; equals keep their order. -/
def sortBy {α : Type} (le : α → α → Bool) : List α → List α
  | [] => []
  | x :: r => insertBy le x (sortBy le r)

/-! ### Numbers and bytes (R3: little-endian) -/

/-- Bits `lo` to `lo + w − 1` of a number. -/
def bitsOf (n lo w : Nat) : Nat := n / 2 ^ lo % 2 ^ w

/-- Bit `i` of a number. -/
def bitOf (n i : Nat) : Bool := n / 2 ^ i % 2 = 1

/-- The number that bytes spell, the first the least significant. -/
def leNat : List Byte → Nat
  | [] => 0
  | b :: r => b.toNat + 256 * leNat r

/-- The `n` low bytes of a number. -/
def leBytes : Nat → Nat → List Byte
  | 0, _ => []
  | n + 1, v => BitVec.ofNat 8 v :: leBytes n (v / 256)

/-- `n` bytes of a list from `o`, as a number; bytes beyond the end count as 0. -/
def fieldAt (b : List Byte) (o n : Nat) : Nat := leNat ((b.drop o).take n)

/-- The bit `Bool` as a number. -/
def b2n (b : Bool) : Nat := if b then 1 else 0

/-- `n` rounded up to a multiple of `m`. -/
def ceilTo (n m : Nat) : Nat := (n + m - 1) / m * m

/-- `n / m` rounded up. -/
def ceilDiv (n m : Nat) : Nat := (n + m - 1) / m

/-- A number read as two's complement of `w` bits. -/
def signedOf (w n : Nat) : Int := if n % 2 ^ w < 2 ^ (w - 1) then (n % 2 ^ w : Nat) else ((n % 2 ^ w : Nat) : Int) - 2 ^ w

/-- An integer as `w` bits of two's complement. -/
def twosOf (w : Nat) (i : Int) : Nat := (i % (2 ^ w : Nat)).toNat

/-- The status value of R9. -/
def statusCode : Status → Nat
  | .ok => 0x0 | .invalidField => 0x1 | .invalidState => 0x2 | .refusedPolicy => 0x3 | .refusedResource => 0x4
  | .targetReset => 0x5 | .timeout => 0x6 | .abortedPartitionReset => 0x7 | .dataError => 0x8 | .authFail => 0x9
  | .deferredEmergency => 0xA | .epochFault => 0xB | .versionMismatch => 0xC | .mixedStep => 0xD
  | .sheafAbandoned => 0xE | .notReady => 0xF | .busy => 0x10

/-! ### Registers -/

/-- The register at a BAR0 offset. -/
def State.reg (s : State) (off : Nat) : BitVec 64 := smGet regReset s.regs off

/-- Write a whole register. -/
def State.setReg (s : State) (off : Nat) (v : BitVec 64) : State :=
  { s with regs := smSet regReset s.regs off v }

/-- The value of a field. -/
def State.fld (s : State) (f : Fld) : Nat := bitsOf (s.reg f.off).toNat f.lo f.w

/-- A register's value with one field replaced, as numbers. -/
def putBits (old lo w v : Nat) : Nat := old - bitsOf old lo w * 2 ^ lo + v % 2 ^ w * 2 ^ lo

/-- Write a field. -/
def State.setFld (s : State) (f : Fld) (v : Nat) : State :=
  s.setReg f.off (BitVec.ofNat 64 (putBits (s.reg f.off).toNat f.lo f.w v))

/-- Is a one-bit field set? -/
def State.flag (s : State) (f : Fld) : Bool := s.fld f = 1

/-- Set a one-bit field. -/
def State.raise (s : State) (f : Fld) : State := s.setFld f 1

/-- Add to a counter, which saturates at all ones (R337, R465). -/
def State.count (s : State) (f : Fld) (k : Nat) : State := s.setFld f (min (s.fld f + k) (2 ^ f.w - 1))

/-! ### Time and free values -/

/-- Let `n` ticks pass: the time-base counter counts but for the ticks of its hold (R114, R115).
(DESIGN CHOICE: log 3, 7.) -/
def State.advance (s : State) (n : Nat) : State :=
  let h := min n s.sch.hold
  { s with now := s.now + n, sch := { s.sch with hold := s.sch.hold - h, tb := s.sch.tb + BitVec.ofNat 64 (n - h) } }

/-- Let time pass until `t`, if it has not come.
(DESIGN CHOICE: log 7.) -/
def State.atLeast (s : State) (t : Nat) : State := s.advance (t - s.now)

/-- Let time pass until the time-base counter reads `t`, if it reads less.
(DESIGN CHOICE: log 7.) -/
def State.atTb (s : State) (t : Nat) : State :=
  if s.sch.tb.toNat < t then s.advance (t - s.sch.tb.toNat + s.sch.hold) else s

/-- Ticks of 1.25 ns in a microsecond, a millisecond and a second (R10). -/
def usTicks : Nat := 800
def msTicks : Nat := 800000
def secTicks : Nat := 800000000

/-- The next free value, as `w` bits, and the state that has used it.
(DESIGN CHOICE: log 4.) -/
def State.takeFree (s : State) (w : Nat) : BitVec w × State :=
  (BitVec.ofNat w (Config.free s.freeCtr), { s with freeCtr := s.freeCtr + 1 })

/-- Send a message to the outside.
(DESIGN CHOICE: log 8, 153.) -/
def State.emit (s : State) (o : Out) : State := { s with out := o :: s.out }

/-- The queue pair of a namespace that takes its next piece of work: they serve it in turn (R363).
(DEDUCED: log 110.) -/
def State.nsTurn (s : State) (n : Nat) : Nat := match alook n s.rdm.ns with | some x => x.next | none => 0

/-- A piece of work goes to a namespace on the queue pair whose turn it is.
(DEDUCED: log 110.) -/
def State.nsPiece (s : State) (n : Nat) (f : Nat → Out) : State :=
  ({ s with rdm := { s.rdm with ns := amod n (fun x => { x with next := (x.next + 1) % max 1 x.qpairs }) s.rdm.ns } } : State).emit (f (s.nsTurn n))

/-! ### The logical map of the pavilions (R73) -/

/-- The physical pavilion of logical pavilion `l`, by the map entry in force; none where it is absent. -/
def State.phys? (s : State) (l : Nat) : Option (Fin 144) :=
  if s.flag (fPAV_MAP_VALID l) then
    (if h : s.fld (fPAV_MAP_PHYS l) < 144 then some ⟨s.fld (fPAV_MAP_PHYS l), h⟩ else none)
  else none

/-- Is logical pavilion `l` present? -/
def State.present (s : State) (l : Nat) : Bool := l < 128 && (s.phys? l).isSome

/-- The pavilion with physical number `p`. -/
def State.pav (s : State) (p : Fin 144) : Pav := s.pavs[p]

/-- Replace a pavilion. -/
def State.setPav (s : State) (p : Fin 144) (x : Pav) : State := { s with pavs := s.pavs.set p x }

/-- Is the pair of logical pavilion `l` coupled (R76, R77)? -/
def State.coupled (s : State) (l : Nat) : Bool := bitOf (s.fld fPAV_PAIR_BITS) (l / 2)

/-- The logical pavilion whose physical pavilion is `p`, if the map names it. -/
def State.logical? (s : State) (p : Fin 144) : Option (Fin 128) :=
  (List.finRange 128).find? (fun l => s.phys? l.val = some p)

/-! ### The device-physical address space (R19) -/

/-- The regions of R19. -/
inductive Region where
  | gddr
  | scratch (l : Nat)
  | log
  | cxl (p : Nat)
  | accel (slot : Nat)
  | host (h : Nat)
  deriving DecidableEq, Repr

/-- Populated bytes of GDDR7: 96 GiB, or 192 GiB in clamshell (R214). -/
def State.gddrBytes (s : State) : Nat := if s.flag fMEM_CFG_CLAMSHELL then 0x3000000000 else 0x1800000000

/-- Populated bytes of CXL port `p` (R221): CAP counts 256 MiB. -/
def State.cxlBytes (s : State) (p : Nat) : Nat := s.fld (fCXM_PORT_STATUS_CAP p) * 0x10000000

/-- The populated region that holds an address, with the region's first address and its populated length. Host 1
memory exists only in ×8 + ×8 mode.
(DEDUCED: log 87.) -/
def State.regionAt (s : State) (a : Nat) : Option (Region × Nat × Nat) :=
  if a < s.gddrBytes then some (.gddr, 0, s.gddrBytes)
  else if a < 0x4000000000 then none
  else if a < 0x4010000000 then
    let l := (a - 0x4000000000) / 0x200000
    if s.present l then some (.scratch l, 0x4000000000 + l * 0x200000, 0x200000) else none
  else if a < 0x4010200000 then some (.log, 0x4010000000, 0x200000)
  else if a < 0x100000000000 then none
  else if a < 0x140000000000 then
    if a - 0x100000000000 < s.cxlBytes 0 then some (.cxl 0, 0x100000000000, s.cxlBytes 0) else none
  else if a < 0x180000000000 then
    if a - 0x140000000000 < s.cxlBytes 1 then some (.cxl 1, 0x140000000000, s.cxlBytes 1) else none
  else if a < 0x1000000000000 then none
  else if a < 0x2000000000000 then
    let k := (a - 0x1000000000000) / 0x100000000000
    some (.accel k, 0x1000000000000 + k * 0x100000000000, 0x100000000000)
  else if a < 0x3000000000000 then some (.host 0, 0x2000000000000, 0x1000000000000)
  else if a < 0x4000000000000 then
    if s.flag fHIF_CFG_BIF then some (.host 1, 0x3000000000000, 0x1000000000000) else none
  else none

/-- The one populated region that holds all of `len` bytes at `a` (R20, R99, R128); an empty range needs its address.
(DEDUCED: log 87.) -/
def State.region? (s : State) (a len : Nat) : Option Region :=
  match s.regionAt a with
  | some (r, b, n) => if a + len ≤ b + n then some r else none
  | none => none

/-- The link that an address is reached by: a host's, or a slot's. -/
def State.linkOf (s : State) (a n : Nat) : Option Nat :=
  match s.region? a n with
  | some (.host h) => some h
  | some (.accel k) => some (2 + k)
  | _ => none

/-- The status with which an access to `n` bytes at `a` ends before any data moves: INVALID_FIELD outside one populated
region (R20), NOT_READY for GDDR7 that is not trained (R218), a CXL port that is not ACTIVE (R222), a slot that is not READY
(R299) and a host whose link is down (R280), TARGET_RESET for the scratch of a pavilion that is being reset (R80).
(DESIGN CHOICE: log 164.) -/
def State.accessSt (s : State) (a n : Nat) : Status :=
  match s.region? a n with
  | none => .invalidField
  | some .gddr => if s.flag fMEM_STATUS_READY then .ok else .notReady
  | some (.cxl p) => if s.fld (fCXM_PORT_STATUS_STATE p) = 3 then .ok else .notReady
  | some (.accel a) => if s.fld (fHIF_SLOT_STATUS_STATE a) = 5 then .ok else .notReady
  | some (.host h) => if s.flag (fHIF_UP_STATUS_LINK_UP h) then .ok else .notReady
  | some (.scratch l) => (match s.phys? l with | some p => if (s.pav p).refusing then .targetReset else .ok | none => .invalidField)
  | some .log => .ok

/-- Does Link IDE encipher what a link sends (R305)? -/
def State.ideOn (s : State) (link : Nat) : Bool := link < 2 && s.flag (fHIF_UP_STATUS_IDE link)

/-- The upstream function whose requester ID a request on a link carries, sent for the requester of link `from_` (R296): on an
upstream link its own function; on a slot's, that of the host for whom it is forwarded.
(DESIGN CHOICE: log 163.) -/
def reqFn (link : Nat) (from_ : Option Nat) : Option Nat :=
  if link < 2 then some link else from_.filter (fun k => decide (k < 2))

/-- Do the device's writes of bulk data on a link carry Relaxed Ordering (R287)?
(DESIGN CHOICE: log 163.) -/
def State.relaxed (s : State) (link : Nat) : Bool :=
  if h : link < 2 then (s.hif.cfg[(⟨link, h⟩ : Fin 2)]).devCtl.getLsbD 4 else Config.accelRo (link - 2) s.now

/-- A memory write leaves on the link of its address, if it has one.
(DESIGN CHOICE: log 163.) -/
def State.sendWr (s : State) (from_ : Option Nat) (ro : Nat → Bool) (a : Nat) (b : List Byte) : State :=
  match s.linkOf a b.length with
  | none => s
  | some k => s.emit (.memWr k (reqFn k from_) (ro k) (s.ideOn k) a b)

/-- A memory read leaves on the link of its address, if it has one.
(DESIGN CHOICE: log 163.) -/
def State.sendRd (s : State) (from_ : Option Nat) (a n : Nat) : State :=
  match s.linkOf a n with
  | none => s
  | some k => s.emit (.memRd k (reqFn k from_) (s.ideOn k) a n)

/-- A trouble-log entry as 32 bytes (R468). -/
def logBytes (e : LogEntry) : List Byte :=
  leBytes 8 e.tb.toNat ++ leBytes 4 e.seq.toNat ++ leBytes 2 e.kind ++ leBytes 1 e.block ++ leBytes 1 e.part ++
    leBytes 2 (statusCode e.st) ++ leBytes 2 e.detail ++ leBytes 4 e.arg0.toNat ++ leBytes 8 e.arg1.toNat

/-- A field of the SKU record's body (R405), at a byte offset; 0 without a record. -/
def State.skuField (s : State) (o n : Nat) : Nat := match s.tru.sku with | some b => fieldAt b (0x40 + o) n | none => 0

/-- Is a port gated by a mask of the SKU record (R405, R406)? -/
def State.gated (s : State) (mask i : Nat) : Bool := s.tru.sku.isSome && !bitOf mask i

/-- What an unlisted byte of memory or scratch reads as.
(DESIGN CHOICE: log 1.) -/
def memDefault : Nat → Byte := fun _ => 0

/-- The canonical form of a memory: addresses strictly rising, no byte listed that an unlisted one reads as.
(DESIGN CHOICE: log 1.) -/
def Memory.wf (m : List Host.Cell) : Bool := smWf memDefault m

/-- One byte of the device-physical address space.
(DESIGN CHOICE: log 1.) -/
def State.byte (s : State) (a : Nat) : Byte :=
  if 0x4000000000 ≤ a ∧ a < 0x4010000000 then
    match s.phys? ((a - 0x4000000000) / 0x200000) with
    | some p => smGet memDefault s.scratch (p.val * 0x200000 + (a - 0x4000000000) % 0x200000)
    | none => 0
  else if 0x4010000000 ≤ a ∧ a < 0x4010200000 then
    match alook ((a - 0x4010000000) / 32) s.log with
    | some e => (logBytes e).getD ((a - 0x4010000000) % 32) 0
    | none => 0
  else smGet memDefault s.mem a

/-- `n` bytes from `a`. -/
def State.bytes (s : State) (a : Nat) : Nat → List Byte
  | 0 => []
  | n + 1 => s.byte a :: s.bytes (a + 1) n

/-- A little-endian number of `n` bytes at `a`. -/
def State.readN (s : State) (a n : Nat) : Nat := leNat (s.bytes a n)

/-- Write one byte. The trouble log is read-only (R19).
(DESIGN CHOICE: log 1.) -/
def State.setByte (s : State) (a : Nat) (v : Byte) : State :=
  if 0x4000000000 ≤ a ∧ a < 0x4010000000 then
    match s.phys? ((a - 0x4000000000) / 0x200000) with
    | some p => { s with scratch := smSet memDefault s.scratch (p.val * 0x200000 + (a - 0x4000000000) % 0x200000) v }
    | none => s
  else if 0x4010000000 ≤ a ∧ a < 0x4010200000 then s
  else { s with mem := smSet memDefault s.mem a v }

/-- Write bytes from `a` upward. -/
def State.setBytes (s : State) (a : Nat) : List Byte → State
  | [] => s
  | b :: r => (s.setByte a b).setBytes (a + 1) r

/-- Copy `n` bytes; all are read before any is written. -/
def State.copy (s : State) (src dst n : Nat) : State := s.setBytes dst (s.bytes src n)

/-- Give the populated bytes among `n` from `a` free values.
(DESIGN CHOICE: log 4.) -/
def State.freeBytes (s : State) (a : Nat) : Nat → State
  | 0 => s
  | n + 1 =>
    let r := s.takeFree 8
    (if (s.regionAt a).isSome then r.2.setByte a r.1 else r.2).freeBytes (a + 1) n

/-- One byte of the scratch of physical pavilion `p`. -/
def State.sbyte (s : State) (p : Fin 144) (o : Nat) : Byte := smGet memDefault s.scratch (p.val * 0x200000 + o)

/-- `n` bytes of the scratch of physical pavilion `p`. -/
def State.sbytes (s : State) (p : Fin 144) (o : Nat) : Nat → List Byte
  | 0 => []
  | n + 1 => s.sbyte p o :: s.sbytes p (o + 1) n

/-- Write bytes into the scratch of physical pavilion `p`. -/
def State.setSbytes (s : State) (p : Fin 144) (o : Nat) : List Byte → State
  | [] => s
  | b :: r =>
    ({ s with scratch := smSet memDefault s.scratch (p.val * 0x200000 + o) b } : State).setSbytes p (o + 1) r

/-- Clear the scratch of physical pavilion `p` (R80). -/
def State.clearScratch (s : State) (p : Fin 144) : State :=
  { s with scratch := s.scratch.filter (fun e => decide (e.1 / 0x200000 ≠ p.val)) }

/-! ### The trouble log -/

/-- The number that stands for no partition in a log entry (R468). -/
def noPart : Nat := 0x7F

/-- Block indices in BAR0 window order (R8, R29). -/
def blkTOP : Nat := 0
def blkPAV : Nat := 1
def blkSCH : Nat := 2
def blkFAB : Nat := 3
def blkMEM : Nat := 4
def blkCXM : Nat := 5
def blkCKP : Nat := 6
def blkHIF : Nat := 7
def blkQUE : Nat := 8
def blkRDM : Nat := 9
def blkETH : Nat := 10
def blkTRF : Nat := 11
def blkCIP : Nat := 12
def blkLDG : Nat := 13
def blkPWR : Nat := 14
def blkEMU : Nat := 15
def blkLOG : Nat := 16

/-- Write a trouble-log entry at index SEQ mod 65,536, and count it in LOG_WR (R470).
(DESIGN CHOICE: log 25.) -/
def State.logWrite (s : State) (kind block part : Nat) (st : Status) (detail : Nat) (arg0 : Nat) (arg1 : Nat) : State :=
  let n := s.fld fLOG_WR_COUNT
  let e : LogEntry := { tb := s.sch.tb, seq := BitVec.ofNat 32 n, kind := kind, block := block, part := part, st := st,
                        detail := detail, arg0 := BitVec.ofNat 32 arg0, arg1 := BitVec.ofNat 64 arg1 }
  let s1 : State := { s with log := aput (n % 65536) e s.log }
  let s2 := s1.setFld fLOG_WR_COUNT (n + 1)
  if 65536 ≤ n then s2.raise fLOG_ERR_WRAP else s2

/-! ### MSI-X, completion entries, events -/

/-- Send the message of vector `v` of function `fn`, or set its pending bit while it is masked (R282, R317).
(DESIGN CHOICE: log 153.) -/
def State.msixSend (s : State) (fn : Fin 2) (v : Nat) : State :=
  let m := s.hif.msix[fn]
  let e := smGet MsixEntry.reset m.table v
  if m.enable && !m.fmask && !e.mask then s.emit (.msix fn e.addr e.data)
  else { s with hif := { s.hif with msix := s.hif.msix.set fn { m with pba := if m.pba.contains v then m.pba else v :: m.pba } } }

/-- Send the pending vectors that are no longer masked.
(DEDUCED: log 100.) -/
def State.msixFlush (s : State) (fn : Fin 2) : State :=
  let m := s.hif.msix[fn]
  m.pba.foldl (fun t v => t.msixSend fn v) { s with hif := { s.hif with msix := s.hif.msix.set fn { m with pba := [] } } }

/-- The control function (R278). -/
def State.ctrlFn (s : State) : Fin 2 := if s.flag fHIF_CFG_CTRL_PF then 1 else 0

/-- The home function of a partition (R283): that of partition 0 is the control function. -/
def State.homeFn (s : State) (p : Fin 65) : Fin 2 :=
  if p = 0 then s.ctrlFn else if s.que.parts[p].home = 1 then 1 else 0

/-- Replace a partition. -/
def State.setPart (s : State) (p : Fin 65) (x : Part) : State :=
  { s with que := { s.que with parts := s.que.parts.set p x } }

/-- The SQ or CQ with a local number in a partition. -/
def State.sq? (s : State) (p : Fin 65) (q : Nat) : Option Sq := alook (p.val, q) s.que.sqs
def State.cq? (s : State) (p : Fin 65) (q : Nat) : Option Cq := alook (p.val, q) s.que.cqs

/-- Replace a queue that exists. -/
def State.setSq (s : State) (p : Fin 65) (q : Nat) (x : Sq) : State :=
  { s with que := { s.que with sqs := aput (p.val, q) x s.que.sqs } }
def State.setCq (s : State) (p : Fin 65) (q : Nat) (x : Cq) : State :=
  { s with que := { s.que with cqs := aput (p.val, q) x s.que.cqs } }

/-- Entries written and not consumed, of a CQ. -/
def cqUsed (c : Cq) : Nat := (c.write + 2 ^ c.size - c.head) % 2 ^ c.size

/-- May one more entry be reserved or written (R312)? -/
def cqRoom (c : Cq) : Bool := cqUsed c + c.reserved + 1 ≤ 2 ^ c.size - 1

/-- A completion entry but for its PHASE (R316). -/
structure CqEntry where
  user : BitVec 64
  result : BitVec 64
  cid : Nat
  sq : Nat
  sqHead : Nat
  detail : Nat
  wait : Nat
  st : Status
  deriving DecidableEq, Repr

/-- The 32 bytes of a completion entry (R316). -/
def cqBytes (e : CqEntry) (phase : Bool) : List Byte :=
  leBytes 8 e.user.toNat ++ leBytes 8 e.result.toNat ++ leBytes 2 e.cid ++ leBytes 2 e.sq ++ leBytes 2 e.sqHead ++
    leBytes 2 e.detail ++ leBytes 2 e.wait ++ leBytes 2 0 ++ leBytes 2 (statusCode e.st) ++
    leBytes 2 (if phase then 0x8000 else 0)

/-- The vector of a CQ on its function: relative to the partition's first vector, absolute for partition 0 (R323, R325). -/
def State.cqVector (s : State) (p : Fin 65) (c : Cq) : Nat :=
  if p = 0 then c.vec else s.que.parts[p].vecBase + c.vec

/-- Signal a CQ: its message, and no entry unsignalled (R317).
(DEDUCED: log 100.) -/
def State.cqSignal (s : State) (p : Fin 65) (q : Nat) : State :=
  match s.cq? p q with
  | none => s
  | some c => (s.setCq p q { c with unsig := 0 }).msixSend (s.homeFn p) (s.cqVector p c)

/-- Write an entry to a CQ that is ACTIVE: one 32-byte write without Relaxed Ordering (R287), the index and PHASE moved on, the coalescing of R317.
(DEDUCED: log 98.) -/
def State.cqPost (s : State) (p : Fin 65) (q : Nat) (e : CqEntry) : State :=
  match s.cq? p q with
  | none => s
  | some c =>
    if c.err then s else
    let wrap := decide (c.write + 1 = 2 ^ c.size)
    let c1 := { c with write := if wrap then 0 else c.write + 1, phase := if wrap then !c.phase else c.phase,
                       unsig := c.unsig + 1, firstUnsig := if c.unsig = 0 then s.now else c.firstUnsig,
                       count := c.count + 1 }
    let s1 := ((s.setBytes (c.base + 32 * c.write) (cqBytes e c.phase)).sendWr none (fun _ => false) (c.base + 32 * c.write)
      (cqBytes e c.phase)).setCq p q c1
    if c.coalCount = 0 ∨ c.coalUs = 0 ∨ c.coalCount ≤ c1.unsig then s1.cqSignal p q else s1

/-- The entry of an event record (R318).
(DEDUCED: log 98.) -/
def evEntry (e : EvRec) : CqEntry :=
  { user := 0, result := BitVec.ofNat 64 e.result, cid := e.code, sq := 0xFFFF, sqHead := 0, detail := e.detail,
    wait := 0, st := e.st }

/-- An input of an event source changes, in the controller of each lodge processor (R430): RAW follows it, and PENDING by the
source's SENSE.
(DEDUCED: log 26.) -/
def State.srcLevel (s : State) (n : Nat) (level : Bool) : State :=
  (List.range 3).foldl (fun t c =>
    let was := t.flag (fLDG_EV_SRC_RAW c n)
    let t1 := t.setFld (fLDG_EV_SRC_RAW c n) (b2n level)
    let pend (b : Bool) : State := t1.setFld (fLDG_EV_SRC_PENDING c n) (b2n b)
    match t.fld (fLDG_EV_SRC_SENSE c n) with
    | 0 => pend level
    | 1 => if level && !was then pend true else t1
    | 2 => if !level && was then pend true else t1
    | _ => if level != was then pend true else t1) s

/-- An event source's input pulses (R434).
(DEDUCED: log 26.) -/
def State.pulse (s : State) (n : Nat) : State := (s.srcLevel n true).srcLevel n false

/-- The event source that an event's cause is wired to (R434).
(DEDUCED: log 138.) -/
def evSource (code result : Nat) : Option Nat :=
  match code with
  | 0x0101 => some 113
  | 0x0102 => some 115
  | 0x0105 => some (32 + result)
  | 0x0202 => some (244 + result / 4096 % 12)
  | 0x0203 => some (72 + result)
  | 0x0402 => some (74 + result)
  | 0x0403 => some (74 + result)
  | 0x0501 => some (109 + result)
  | 0x0701 => some (56 + result)
  | 0x0702 => some (56 + result)
  | 0x0703 => some (56 + result)
  | 0x0704 => some (56 + result)
  | 0x0705 => some (56 + result)
  | _ => none

/-- The partitions that a queue's error is reported to: the owner and partition 0 (R322, R466).
(DEDUCED: log 107.) -/
def ownerAnd0 (p : Fin 65) : List (Fin 65) := if p = 0 then [0] else [p, 0]

/-- A CQ enters ERROR, but for its event (R322). -/
def State.cqBreak (s : State) (p : Fin 65) (q : Nat) (x : Cq) : State :=
  let s1 := s.setCq p q { x with err := true }
  if p = 0 ∧ q = 0 then s1.raise fQUE_ERR_ADMIN_ERR else s1

/-- Write an event record to an EVQ that has room; a write that fails moves the EVQ to ERROR (R322), whose own event is handled by
`post`, and the record is dropped and counted.
(DEDUCED: log 26.) -/
def State.evWrite (s : State) (post : State → Fin 65 → EvRec → State) (p : Fin 65) (q : Nat) (c : Cq) (e : EvRec) : State :=
  let st := s.accessSt (c.base + 32 * c.write) 32
  if st = .ok then s.cqPost p q (evEntry e)
  else
    let r : EvRec := { code := 0x0302, result := q + 65536 * p.val, st := st, detail := 0 }
    let s1 := (s.count (fQUE_PEVDROP_COUNT p.val) 1).cqBreak p q c
    (ownerAnd0 p).foldl (fun t d => post t d r) (s1.logWrite 0x0302 blkQUE p.val st 0 0 r.result)

/-- An event for a partition: written to its EVQ, kept in its pending list, or dropped and counted (R318, R467). `n` bounds the EVQs
that may fail one because of the other: that of the partition, then that of partition 0.
(DEDUCED: log 26.) -/
def State.evPostN : Nat → State → Fin 65 → EvRec → State
  | n, s, p, e =>
    let x := s.que.parts[p]
    match s.cq? p x.evq with
    | none => s.count (fQUE_PEVDROP_COUNT p.val) 1
    | some c =>
      if x.evq = 0xFFFF ∨ c.err then s.count (fQUE_PEVDROP_COUNT p.val) 1
      else if x.pendEv = [] ∧ cqRoom c then
        (match n with
         | 0 => s.cqPost p x.evq (evEntry e)
         | m + 1 => s.evWrite (State.evPostN m) p x.evq c e)
      else if x.pendEv.length < 256 then s.setPart p { x with pendEv := x.pendEv ++ [e] }
      else s.count (fQUE_PEVDROP_COUNT p.val) 1

/-- An event for a partition.
(DEDUCED: log 26.) -/
def State.evPost (s : State) (p : Fin 65) (e : EvRec) : State := State.evPostN 3 s p e

/-- Write what the pending list holds while the EVQ has room (R467); at most `n` records.
(DEDUCED: log 26.) -/
def State.evDrain (s : State) (p : Fin 65) : Nat → State
  | 0 => s
  | n + 1 =>
    let x := s.que.parts[p]
    match x.pendEv, s.cq? p x.evq with
    | e :: r, some c =>
      if !c.err && cqRoom c then ((s.setPart p { x with pendEv := r }).evWrite (State.evPostN 2) p x.evq c e).evDrain p n else s
    | _, _ => s

/-- Raise an event (R466): the event source its cause is wired to, its trouble-log entry, then its record to each
partition named, the owner first.
(DESIGN CHOICE: log 25; DEDUCED: log 26.) -/
def State.event (s : State) (block : Nat) (dests : List (Fin 65)) (e : EvRec) (arg0 : Nat := 0) : State :=
  let part := match dests with | p :: _ => p.val | [] => noPart
  let s1 := match evSource e.code e.result with | some n => s.pulse n | none => s
  dests.foldl (fun t p => t.evPost p e) (s1.logWrite e.code block part e.st e.detail arg0 e.result)

/-- An event to partition 0.
(DESIGN CHOICE: log 25.) -/
def State.event0 (s : State) (block code result : Nat) (st : Status) (detail : Nat := 0) : State :=
  s.event block [0] { code := code, result := result, st := st, detail := detail }

/-- A register command refused with INVALID_STATE writes one entry of kind 0x0008 (R9, R469). -/
def State.logRefused (s : State) (block off v : Nat) : State :=
  s.logWrite 0x0008 block noPart .invalidState 0 off v

/-- An uncorrectable error writes one entry of kind 0x0003 with the address of the line, where one exists (R459). -/
def State.logUe (s : State) (block addr : Nat) : State :=
  s.logWrite 0x0003 block noPart .dataError 0 block addr

/-- An uncorrectable error in an internal table (R460): counted, flagged, logged with kind 0x0004, raised as DEV_ERROR. The
structures: 0 routing banks, 1 classification and pattern tables, 2 QP contexts, 3 trigger tables, 4 stream-completion
entries, 5 descriptor buffers.
(DEDUCED: log 27.) -/
def State.devUe (s : State) (block k entry : Nat) : State :=
  let n := Config.structIndex k
  (((s.count fLOG_DEV_UE_COUNT 1).raise fLOG_ERR_DEV_UE).logWrite 0x0004 block noPart .dataError 0 n entry).event0 block 0x0204 n
    .dataError

end Sys2Proof.Machine
end

