-- ==== Sys2Proof/Machine/Encode.lean ====
section
/-! DEFINITION. The encodings of Berin-16 (R90, R91, R93, R94): the instruction that one or two words spell, the encodings that are
reserved (R96), and the words of an instruction. -/

namespace Sys2Proof.Machine

open Sys2Proof

/-- An instruction of Berin-16 with its fields. `alu` holds the function code f of R94, `shift` the kind of R93 (0 SHL, 1 SHR,
2 SAR, 3 ROR). -/
inductive BOp where
  | nop
  | trap (n : Fin 16)
  | rett (k : Fin 2)
  | push (i : Fin 16)
  | pop (i : Fin 16)
  | cset (c i : Fin 16)
  | alu (f : Fin 15) (d : Fin 16) (b : AluB)
  | addi (d : Fin 16) (n : BitVec 8)
  | movi (d : Fin 16) (n : BitVec 8)
  | cmpi (d : Fin 16) (n : BitVec 8)
  | shift (kind : Fin 4) (d n : Fin 16)
  | ld (d : Fin 16) (m : EA)
  | st (d : Fin 16) (m : EA)
  | addp (p : Fin 4) (n : BitVec 8)
  | addpr (p : Fin 4) (i : Fin 16) (sx : Bool)
  | addpw (p : Fin 4) (n : BitVec 16)
  | cmpp (p q : Fin 4)
  | bcc (cond : Fin 15) (n : BitVec 8)
  | jmp (t : BitVec 16)
  | call (t : BitVec 16)
  | jmpr (i : Fin 16)
  | callr (i : Fin 16)
  | dbnz (d : Fin 16) (n : BitVec 8)
  | issue (e i c : Fin 16)
  | waite
  | waitc (c t : Fin 16) (consume : Bool)
  | waits (m : Fin 64) (t : Fin 16) (consume : Bool)
  | waitidle
  | fence
  | signal (t a : Fin 16) (all : Bool)
  deriving DecidableEq, Repr

/-- The length of an instruction by its first word (R90). -/
def instLen (w : BitVec 16) : Nat :=
  let n := w.toNat
  let op := bitsOf n 12 4
  if op = 0x6 then 2
  else if op = 0x7 ∨ op = 0x8 then (if bitsOf n 6 2 = 3 then 2 else 1)
  else if op = 0x9 then (if bitsOf n 8 2 = 2 then 2 else 1)
  else if op = 0xB then (if bitsOf n 10 2 ≤ 1 then 2 else 1)
  else if op = 0xE then (if bitsOf n 10 2 = 2 then 2 else 1)
  else 1

/-- The addressing mode of a load or a store (R91); none where a field that must be 0 is not. -/
def decodeEA (n v : Nat) : Option EA :=
  let p : Fin 4 := Fin.ofNat 4 (bitsOf n 4 2)
  match bitsOf n 6 2 with
  | 0 => some (.disp p (Fin.ofNat 16 n))
  | 1 => if bitsOf n 2 2 = 0 then some (.postInc p (Fin.ofNat 4 n)) else none
  | 2 => if bitsOf n 2 2 = 0 then some (.preDec p (Fin.ofNat 4 n)) else none
  | _ =>
    if bitsOf n 0 4 = 0 then
      some (.index p (Fin.ofNat 16 (bitsOf v 12 4)) (Fin.ofNat 4 (bitsOf v 10 2)) (BitVec.ofNat 10 v))
    else none

/-- Function f of opcodes 0x1 and 0x6 (R94): 0xF is reserved, and so is an immediate shift amount above 15. -/
def decodeAlu (f : Nat) (d : Fin 16) (b : AluB) : Option BOp :=
  let wide : Bool := match b with | .imm w => decide (15 < w.toNat) | .reg _ => false
  if f = 15 ∨ (10 ≤ f ∧ f ≤ 12 ∧ wide) then none else some (.alu (Fin.ofNat 15 f) d b)

/-- The instruction that the words spell (R93); none for a reserved encoding. -/
def decodeBerin (w0 w1 : BitVec 16) : Option BOp :=
  let n := w0.toNat
  let a := bitsOf n 8 4
  let b := bitsOf n 4 4
  let d : Fin 16 := Fin.ofNat 16 a
  let i : Fin 16 := Fin.ofNat 16 b
  let c : Fin 16 := Fin.ofNat 16 n
  let k : BitVec 8 := BitVec.ofNat 8 n
  match bitsOf n 12 4 with
  | 0x0 =>
    if n = 0 then some .nop
    else if a = 2 ∧ b = 0 then some (.trap c)
    else if a = 3 ∧ b = 0 ∧ n % 16 < 2 then some (.rett (Fin.ofNat 2 n))
    else if a = 4 ∧ n % 16 = 0 then some (.push i)
    else if a = 5 ∧ n % 16 = 0 then some (.pop i)
    else if a = 8 then some (.cset i c)
    else none
  | 0x1 => decodeAlu (n % 16) d (.reg i)
  | 0x2 => some (.addi d k)
  | 0x3 => some (.movi d k)
  | 0x4 => some (.cmpi d k)
  | 0x5 => if bitsOf n 4 2 = 0 then some (.shift (Fin.ofNat 4 (bitsOf n 6 2)) d c) else none
  | 0x6 => if b = 0 then decodeAlu (n % 16) d (.imm w1) else none
  | 0x7 => (decodeEA n w1.toNat).map (fun m => .ld d m)
  | 0x8 => (decodeEA n w1.toNat).map (fun m => .st d m)
  | 0x9 =>
    let p : Fin 4 := Fin.ofNat 4 (bitsOf n 10 2)
    match bitsOf n 8 2 with
    | 0 => some (.addp p k)
    | 1 => if n % 8 = 0 then some (.addpr p i (bitOf n 3)) else none
    | 2 => if n % 256 = 0 then some (.addpw p w1) else none
    | _ => if n % 64 = 0 then some (.cmpp p (Fin.ofNat 4 (bitsOf n 6 2))) else none
  | 0xA => if a = 15 then none else some (.bcc (Fin.ofNat 15 a) k)
  | 0xB =>
    if n = 0xB000 then some (.jmp w1)
    else if n = 0xB400 then some (.call w1)
    else if a = 8 ∧ n % 16 = 0 then some (.jmpr i)
    else if a = 12 ∧ n % 16 = 0 then some (.callr i)
    else none
  | 0xC => some (.dbnz d k)
  | 0xD => some (.issue d i c)
  | 0xE =>
    match bitsOf n 10 2 with
    | 0 => if n = 0xE000 then some .waite else none
    | 1 => if bitOf n 0 then none else some (.waitc (Fin.ofNat 16 (bitsOf n 5 4)) (Fin.ofNat 16 (bitsOf n 1 4)) (bitOf n 9))
    | 2 =>
      if n % 8 = 0 ∧ w1.toNat % 4096 = 0 then
        some (.waits (Fin.ofNat 64 (bitsOf n 3 6)) (Fin.ofNat 16 (bitsOf w1.toNat 12 4)) (bitOf n 9))
      else none
    | _ => if n = 0xEC00 then some .waitidle else if n = 0xED00 then some .fence else none
  | _ => if n % 8 = 0 then some (.signal d i (bitOf n 3)) else none

/-! ### The words of an instruction -/

/-- Four fields of four bits as a word. -/
def nib (a b c d : Nat) : BitVec 16 := BitVec.ofNat 16 (a * 4096 + b * 256 + c * 16 + d)

/-- The first word of an addressing mode with opcode `op` and data register `d`, and the second (0 where there is none). -/
def encEA (op d : Nat) (m : EA) : BitVec 16 × BitVec 16 :=
  match m with
  | .disp p x => (nib op d p.val x.val, 0)
  | .postInc p s => (nib op d (4 + p.val) s.val, 0)
  | .preDec p s => (nib op d (8 + p.val) s.val, 0)
  | .index p i s e => (nib op d (12 + p.val) 0, BitVec.ofNat 16 (i.val * 4096 + s.val * 1024 + e.toNat))

/-- The words of an instruction (R93); the second is 0 where the instruction has one. -/
def encodeBerin (o : BOp) : BitVec 16 × BitVec 16 :=
  match o with
  | .nop => (0, 0)
  | .trap n => (nib 0 2 0 n.val, 0)
  | .rett k => (nib 0 3 0 k.val, 0)
  | .push i => (nib 0 4 i.val 0, 0)
  | .pop i => (nib 0 5 i.val 0, 0)
  | .cset c i => (nib 0 8 c.val i.val, 0)
  | .alu f d (.reg s) => (nib 1 d.val s.val f.val, 0)
  | .alu f d (.imm w) => (nib 6 d.val 0 f.val, w)
  | .addi d n => (nib 2 d.val 0 n.toNat, 0)
  | .movi d n => (nib 3 d.val 0 n.toNat, 0)
  | .cmpi d n => (nib 4 d.val 0 n.toNat, 0)
  | .shift k d n => (nib 5 d.val (4 * k.val) n.val, 0)
  | .ld d m => encEA 7 d.val m
  | .st d m => encEA 8 d.val m
  | .addp p n => (nib 9 (4 * p.val) 0 n.toNat, 0)
  | .addpr p i sx => (nib 9 (4 * p.val + 1) i.val (8 * b2n sx), 0)
  | .addpw p n => (nib 9 (4 * p.val + 2) 0 0, n)
  | .cmpp p q => (nib 9 (4 * p.val + 3) (4 * q.val) 0, 0)
  | .bcc c n => (nib 10 c.val 0 n.toNat, 0)
  | .jmp t => (0xB000, t)
  | .call t => (0xB400, t)
  | .jmpr i => (nib 11 8 i.val 0, 0)
  | .callr i => (nib 11 12 i.val 0, 0)
  | .dbnz d n => (nib 12 d.val 0 n.toNat, 0)
  | .issue e i c => (nib 13 e.val i.val c.val, 0)
  | .waite => (0xE000, 0)
  | .waitc c t k => (BitVec.ofNat 16 (0xE400 + 512 * b2n k + 32 * c.val + 2 * t.val), 0)
  | .waits m t k => (BitVec.ofNat 16 (0xE800 + 512 * b2n k + 8 * m.val), BitVec.ofNat 16 (4096 * t.val))
  | .waitidle => (0xEC00, 0)
  | .fence => (0xED00, 0)
  | .signal t a all => (nib 15 t.val a.val (8 * b2n all), 0)

/-- The fields that an encoding admits: an immediate shift amount is below 16 (R94). -/
def BOp.wellFormed (o : BOp) : Bool :=
  match o with
  | .alu f _ (.imm w) => !(decide (10 ≤ f.val ∧ f.val ≤ 12) && decide (15 < w.toNat))
  | _ => true

end Sys2Proof.Machine
end

