-- ==== Sys2Proof/Machine/Fp.lean ====
section
/-! DEFINITION. Number formats, rounding and exact arithmetic (R30 to R36, R41 to R56, R60), on numbers: a finite
value is a sign, a magnitude and a power of two, and every result is rounded once from its exact value. -/

namespace Sys2Proof.Machine

open Sys2Proof

/-- A floating-point value: NaN, an infinity, or (−1)^sign × m × 2^e; m = 0 is a zero. -/
inductive FVal where
  | nan
  | inf (sign : Bool)
  | fin (sign : Bool) (m : Nat) (e : Int)
  deriving DecidableEq, Repr

/-- Which encodings of a format are infinities and NaNs (R31). -/
inductive Special where
  | ieee | e4m3 | none
  deriving DecidableEq, Repr

/-- A floating-point format: exponent and mantissa widths, bias, specials (R31). -/
structure Fmt where
  eb : Nat
  mb : Nat
  bias : Nat
  sp : Special
  deriving DecidableEq, Repr

def fmtFP32 : Fmt := ⟨8, 23, 127, .ieee⟩
def fmtBF16 : Fmt := ⟨8, 7, 127, .ieee⟩
def fmtFP16 : Fmt := ⟨5, 10, 15, .ieee⟩
def fmtE4M3 : Fmt := ⟨4, 3, 7, .e4m3⟩
def fmtE5M2 : Fmt := ⟨5, 2, 15, .ieee⟩
def fmtE2M3 : Fmt := ⟨2, 3, 1, .none⟩
def fmtE3M2 : Fmt := ⟨3, 2, 3, .none⟩
def fmtE2M1 : Fmt := ⟨2, 1, 1, .none⟩
/-- The set G of R60: FP32 with mantissa bits [1:0] zero. -/
def fmtG : Fmt := ⟨8, 21, 127, .ieee⟩

/-- The floating-point element format of a code of R30; INT8, INT32 and MXINT8 have none. -/
def fmtOf (c : Nat) : Option Fmt :=
  match c with
  | 0x0 => some fmtFP32 | 0x1 => some fmtBF16 | 0x2 => some fmtFP16
  | 0x3 => some fmtE4M3 | 0x4 => some fmtE5M2 | 0x5 => some fmtE2M3
  | 0x6 => some fmtE3M2 | 0x7 => some fmtE2M1
  | 0xA => some fmtE4M3 | 0xB => some fmtE5M2 | 0xC => some fmtE2M3
  | 0xD => some fmtE3M2 | 0xE => some fmtE2M1
  | _ => none

/-- Element bits of a format code (R30). -/
def fmtBits (c : Nat) : Nat :=
  match c with
  | 0x0 => 32 | 0x1 => 16 | 0x2 => 16 | 0x3 => 8 | 0x4 => 8 | 0x5 => 6 | 0x6 => 6 | 0x7 => 4 | 0x8 => 8 | 0x9 => 32
  | 0xA => 8 | 0xB => 8 | 0xC => 6 | 0xD => 6 | 0xE => 4 | _ => 8

/-- The code of a format's largest finite magnitude (R31). -/
def Fmt.maxCode (f : Fmt) : Nat :=
  match f.sp with
  | .ieee => (2 ^ f.eb - 1) * 2 ^ f.mb - 1
  | .e4m3 => 2 ^ (f.eb + f.mb) - 2
  | .none => 2 ^ (f.eb + f.mb) - 1

/-- The exponent of the spacing of the subnormals. -/
def Fmt.qmin (f : Fmt) : Int := 1 - (f.bias : Int) - (f.mb : Int)

/-- The value a code stands for (R31). -/
def Fmt.decode (f : Fmt) (n : Nat) : FVal :=
  let s := bitOf n (f.eb + f.mb)
  let e := bitsOf n f.mb f.eb
  let m := bitsOf n 0 f.mb
  let finite : FVal :=
    if e = 0 then .fin s m f.qmin else .fin s (2 ^ f.mb + m) (f.qmin + (e : Int) - 1)
  match f.sp with
  | .ieee => if e = 2 ^ f.eb - 1 then (if m = 0 then .inf s else .nan) else finite
  | .e4m3 => if e = 2 ^ f.eb - 1 ∧ m = 2 ^ f.mb - 1 then .nan else finite
  | .none => finite

/-- The sign bit of a code. -/
def Fmt.signBit (f : Fmt) (s : Bool) : Nat := if s then 2 ^ (f.eb + f.mb) else 0

/-- The canonical NaN of R34; +0 in a format without a NaN (R43). -/
def Fmt.nanCode (f : Fmt) : Nat :=
  match f.sp with
  | .ieee => (2 ^ f.eb - 1) * 2 ^ f.mb + 2 ^ (f.mb - 1)
  | .e4m3 => 2 ^ (f.eb + f.mb) - 1
  | .none => 0

/-- The infinity code of an IEEE-like format. -/
def Fmt.infCode (f : Fmt) : Nat := (2 ^ f.eb - 1) * 2 ^ f.mb

/-- How the magnitude is rounded: to nearest even, down, up, or stochastically with a 16-bit word (R41, R47). -/
inductive MagMode where
  | near
  | down
  | up
  | sr (r : Nat)
  deriving DecidableEq, Repr

/-- The magnitude mode of a rounding mode and a sign (R41); codes 5 to 7 are never used (R41). -/
def magMode (rm : Nat) (s : Bool) : MagMode :=
  match rm with
  | 0 => .near
  | 1 => .down
  | 2 => if s then .up else .down
  | 3 => if s then .down else .up
  | _ => .near

/-- Bit length of a number, minus one, for a positive number. -/
def log2Nat (n : Nat) : Nat := Nat.log2 n

/-- m × 2^e (m > 0), divided by 2^q and rounded to an integer. -/
def roundQuot (m : Nat) (e q : Int) (mode : MagMode) : Nat :=
  if q ≤ e then m * 2 ^ (e - q).toNat
  else
    let sh := (q - e).toNat
    let t := m / 2 ^ sh
    let rem := m % 2 ^ sh
    match mode with
    | .near => if 2 * rem > 2 ^ sh ∨ (2 * rem = 2 ^ sh ∧ t % 2 = 1) then t + 1 else t
    | .down => t
    | .up => if rem = 0 then t else t + 1
    | .sr r => if 65536 ≤ rem * 65536 / 2 ^ sh + r then t + 1 else t

/-- The code of the magnitude m × 2^e rounded to the format's precision, with the exponent unbounded above. -/
def Fmt.magCode (f : Fmt) (m : Nat) (e : Int) (mode : MagMode) : Nat :=
  if m = 0 then 0 else
    let q := max ((log2Nat m : Int) + e - f.mb) f.qmin
    (q - f.qmin).toNat * 2 ^ f.mb + roundQuot m e q mode

/-- Overflow of a format with infinities by IEEE 754-2019 for the mode (R43): SR overflows as RNE. -/
def overflowCode (f : Fmt) (rm : Nat) (s : Bool) : Nat :=
  match rm with
  | 1 => f.maxCode
  | 2 => if s then f.infCode else f.maxCode
  | 3 => if s then f.maxCode else f.infCode
  | _ => f.infCode

/-- The code of a value in a format, rounded once, with the edge cases of R43. `r` is the random word of SR. -/
def Fmt.encode (f : Fmt) (rm : Nat) (sat : Bool) (r : Nat) (v : FVal) : Nat :=
  match v with
  | .nan => f.nanCode
  | .inf s =>
    match f.sp with
    | .ieee => f.signBit s + (if sat then f.maxCode else f.infCode)
    | .e4m3 => if sat then f.signBit s + f.maxCode else f.nanCode
    | .none => f.signBit s + f.maxCode
  | .fin s m e =>
    let c := f.magCode m e (if rm = 4 then .sr r else magMode rm s)
    if c ≤ f.maxCode then f.signBit s + c
    else match f.sp with
      | .ieee => f.signBit s + (if sat then f.maxCode else overflowCode f rm s)
      | _ => f.signBit s + f.maxCode

/-- An FP32 result in a rounding mode: no saturation (R44). -/
def fp32 (rm : Nat) (v : FVal) : BitVec 32 := BitVec.ofNat 32 (fmtFP32.encode rm false 0 v)

/-- The value of an FP32 code. -/
def val32 (x : BitVec 32) : FVal := fmtFP32.decode x.toNat

/-- The value of a signed magnitude times a power of two; a zero result takes the sign given. -/
def ofInt (i : Int) (e : Int) (zeroSign : Bool) : FVal :=
  if i = 0 then .fin zeroSign 0 e else .fin (decide (i < 0)) i.natAbs e

/-- A signed magnitude. -/
def sgn (s : Bool) (m : Nat) : Int := if s then -(m : Int) else m

/-- An exact sum of two finite values (R35: an exact zero of operands of unlike sign is +0, or −0 under RD). -/
def addFin (rm : Nat) (s1 : Bool) (m1 : Nat) (e1 : Int) (s2 : Bool) (m2 : Nat) (e2 : Int) : FVal :=
  let e := min e1 e2
  let z := if s1 = s2 then s1 else decide (rm = 2)
  ofInt (sgn s1 (m1 * 2 ^ (e1 - e).toNat) + sgn s2 (m2 * 2 ^ (e2 - e).toNat)) e z

/-- The exact sum (R44, R56). -/
def addVal (rm : Nat) (a b : FVal) : FVal :=
  match a, b with
  | .nan, _ => .nan
  | _, .nan => .nan
  | .inf s, .inf t => if s = t then .inf s else .nan
  | .inf s, _ => .inf s
  | _, .inf t => .inf t
  | .fin s1 m1 e1, .fin s2 m2 e2 => addFin rm s1 m1 e1 s2 m2 e2

/-- The value negated. -/
def negVal : FVal → FVal
  | .nan => .nan
  | .inf s => .inf (!s)
  | .fin s m e => .fin (!s) m e

/-- The exact product (R45). -/
def mulVal (a b : FVal) : FVal :=
  match a, b with
  | .nan, _ => .nan
  | _, .nan => .nan
  | .inf s, .inf t => .inf (s != t)
  | .inf s, .fin t m _ => if m = 0 then .nan else .inf (s != t)
  | .fin s m _, .inf t => if m = 0 then .nan else .inf (s != t)
  | .fin s m e, .fin t n g => .fin (s != t) (m * n) (e + g)

def fadd (rm : Nat) (a b : BitVec 32) : BitVec 32 := fp32 rm (addVal rm (val32 a) (val32 b))
def fsub (rm : Nat) (a b : BitVec 32) : BitVec 32 := fp32 rm (addVal rm (val32 a) (negVal (val32 b)))
/-- (DEDUCED: log 18.) -/
def fmul (rm : Nat) (a b : BitVec 32) : BitVec 32 := fp32 rm (mulVal (val32 a) (val32 b))
/-- One rounding of a × b + c (R44).
(DEDUCED: log 18.) -/
def ffma (rm : Nat) (a b c : BitVec 32) : BitVec 32 :=
  fp32 rm (addVal rm (mulVal (val32 a) (val32 b)) (val32 c))

/-- Order of two values; none where one is NaN. Zeros are equal. -/
def cmpVal (a b : FVal) : Option Ordering :=
  match a, b with
  | .nan, _ => none
  | _, .nan => none
  | .inf s, .inf t => some (if s = t then .eq else if s then .lt else .gt)
  | .inf s, _ => some (if s then .lt else .gt)
  | _, .inf t => some (if t then .gt else .lt)
  | .fin s1 m1 e1, .fin s2 m2 e2 =>
    let e := min e1 e2
    some (compare (sgn s1 (m1 * 2 ^ (e1 - e).toNat)) (sgn s2 (m2 * 2 ^ (e2 - e).toNat)))

/-- A lane mask. -/
def mask32 (b : Bool) : BitVec 32 := if b then 0xFFFFFFFF else 0

/-- The canonical NaN of FP32 (R34). -/
def nan32 : BitVec 32 := 0x7FC00000

/-- IEEE 754-2019 minimum and maximum (R36): NaN wins, −0 is less than +0. -/
def fmin (a b : BitVec 32) : BitVec 32 :=
  match cmpVal (val32 a) (val32 b) with
  | none => nan32
  | some .lt => a
  | some .gt => b
  | some .eq => if a.msb then a else b
def fmax (a b : BitVec 32) : BitVec 32 :=
  match cmpVal (val32 a) (val32 b) with
  | none => nan32
  | some .lt => b
  | some .gt => a
  | some .eq => if a.msb then b else a

/-- A quotient of positive numbers scaled by 2^k, with a last bit that says whether it is inexact. -/
def quotSticky (a b k : Nat) : Nat := 2 * (a * 2 ^ k / b) + (if a * 2 ^ k % b = 0 then 0 else 1)

/-- The value of a / b to more bits than any format keeps, its last bit sticky (R59: correctly rounded). -/
def divVal (a b : FVal) : FVal :=
  match a, b with
  | .nan, _ => .nan
  | _, .nan => .nan
  | .inf _, .inf _ => .nan
  | .inf s, .fin t _ _ => .inf (s != t)
  | .fin s _ _, .inf t => .fin (s != t) 0 0
  | .fin s m e, .fin t n g =>
    if n = 0 then (if m = 0 then .nan else .inf (s != t))
    else .fin (s != t) (quotSticky m n 64) (e - g - 65)

/-- Integer square root, bit by bit from bit `i − 1` down. -/
def isqrtGo (n : Nat) : Nat → Nat → Nat
  | 0, r => r
  | i + 1, r => isqrtGo n i (if (r + 2 ^ i) * (r + 2 ^ i) ≤ n then r + 2 ^ i else r)

/-- The integer square root. -/
def isqrt (n : Nat) : Nat := isqrtGo n (log2Nat n / 2 + 1) 0

/-- The square root to more bits than FP32 keeps, its last bit sticky. -/
def sqrtVal (a : FVal) : FVal :=
  match a with
  | .nan => .nan
  | .inf s => if s then .nan else .inf false
  | .fin s m e =>
    if m = 0 then .fin s 0 0
    else if s then .nan
    else
      let m1 := if e % 2 = 0 then m else 2 * m
      let e1 := if e % 2 = 0 then e else e - 1
      let n := m1 * 2 ^ 128
      let r := isqrt n
      .fin false (2 * r + (if r * r = n then 0 else 1)) (e1 / 2 - 65)

def fdiv (rm : Nat) (a b : BitVec 32) : BitVec 32 := fp32 rm (divVal (val32 a) (val32 b))
def fsqrt (rm : Nat) (a : BitVec 32) : BitVec 32 := fp32 rm (sqrtVal (val32 a))

/-! ### The approximate functions (R60) -/

/-- A result rounded to the nearest member of G (R60), as an FP32 code. -/
def toG (v : FVal) : BitVec 32 :=
  match v with
  | .nan => nan32
  | v => BitVec.ofNat 32 (bitsOf (fmtG.encode 0 false 0 v) 0 29 * 4 + bitsOf (fmtG.encode 0 false 0 v) 29 1 * 2 ^ 31)

/-- Bits of the fixed-point fractions of EXP2 and LOG2. -/
def fixBits : Nat := 320

/-- ln 2 × 2^320: the sum of 2^320 / (k × 2^k), from `k` on, for `n` terms. -/
def ln2Sum : Nat → Nat → Nat
  | 0, _ => 0
  | n + 1, k => 2 ^ fixBits / (k * 2 ^ k) + ln2Sum n (k + 1)

/-- ln 2 in fixed point. -/
def ln2Fix : Nat := ln2Sum 330 1

/-- e^t for a fixed-point t below 1: terms t^k / k!, each from the one before it. -/
def expSum (t : Nat) : Nat → Nat → Nat → Nat
  | 0, _, _ => 0
  | n + 1, k, term => term + expSum t n (k + 1) (term * t / (2 ^ fixBits * (k + 1)))

/-- 2^f in fixed point, for a fixed-point f below 1.
(DEDUCED: log 17.) -/
def exp2Fix (f : Nat) : Nat := expSum (f * ln2Fix / 2 ^ fixBits) 90 0 (2 ^ fixBits)

/-- 2^x (R60). A result of an x that is no integer is irrational, so its last bit is sticky. DEDUCED: 320 fixed-point
bits decide every rounding to G.
(DEDUCED: log 17.) -/
def exp2Val (a : FVal) : FVal :=
  match a with
  | .nan => .nan
  | .inf s => if s then .fin false 0 0 else .inf false
  | .fin s m e =>
    if m = 0 then .fin false 1 0
    else if 9 ≤ (log2Nat m : Int) + e then
      (if s then .fin false 1 (-1000) else .fin false 1 1000)
    else
      -- x × 2^320, an integer for every FP32 x
      let x := sgn s (m * 2 ^ (e + fixBits).toNat)
      let n := x / (2 ^ fixBits : Nat)
      let f := (x % (2 ^ fixBits : Nat)).toNat
      if f = 0 then .fin false 1 n else .fin false (2 * exp2Fix f + 1) (n - fixBits - 1)

/-- 2 × atanh z for a fixed-point z: terms z^(2k+1) / (2k+1). -/
def atanhSum (z2 : Nat) : Nat → Nat → Nat → Nat
  | 0, _, _ => 0
  | n + 1, k, p => p / k + atanhSum z2 n (k + 2) (p * z2 / 2 ^ fixBits)

/-- log2 of y = m / 2^k, from 1 up to 2, in fixed point.
(DEDUCED: log 17.) -/
def log2Fix (m k : Nat) : Nat :=
  let z := (m - 2 ^ k) * 2 ^ fixBits / (m + 2 ^ k)
  2 * atanhSum (z * z / 2 ^ fixBits) 110 1 z * 2 ^ fixBits / ln2Fix

/-- log2 x (R60); exact for a power of two. DEDUCED: 320 fixed-point bits decide every rounding to G.
(DEDUCED: log 17.) -/
def log2Val (a : FVal) : FVal :=
  match a with
  | .nan => .nan
  | .inf s => if s then .nan else .inf false
  | .fin s m e =>
    if m = 0 then .inf true
    else if s then .nan
    else
      let k := log2Nat m
      let n : Int := (k : Int) + e
      if m = 2 ^ k then ofInt n 0 false
      else
        let v : Int := n * (2 ^ fixBits : Nat) + (log2Fix m k : Int)
        .fin (decide (v < 0)) (2 * v.natAbs + 1) (-(fixBits : Int) - 1)

/-- 1 / x (R60). -/
def rcpVal (a : FVal) : FVal :=
  match a with
  | .nan => .nan
  | .inf s => .fin s 0 0
  | .fin s m e => if m = 0 then .inf s else .fin s (quotSticky 1 m 96) (-e - 97)

/-- 1 / √x (R60). -/
def rsqrtVal (a : FVal) : FVal :=
  match a with
  | .nan => .nan
  | .inf s => if s then .nan else .fin false 0 0
  | .fin s m e =>
    if m = 0 then .inf s
    else if s then .nan
    else
      let m1 := if e % 2 = 0 then m else 2 * m
      let e1 := if e % 2 = 0 then e else e - 1
      let r := isqrt (2 ^ 256 / m1)
      .fin false (2 * r + (if r * r * m1 = 2 ^ 256 then 0 else 1)) (-(e1 / 2) - 129)

/-! ### Integers (R43) -/

/-- A value rounded to an integer and clamped to the range of INT8 or INT32 (R43). -/
def toIntCode (w : Nat) (rm : Nat) (v : FVal) : Nat :=
  let hi : Int := 2 ^ (w - 1) - 1
  let lo : Int := -(2 ^ (w - 1))
  match v with
  | .nan => 0
  | .inf s => twosOf w (if s then lo else hi)
  | .fin s m e =>
    let q := if m = 0 then 0 else roundQuot m e 0 (magMode rm s)
    twosOf w (max lo (min hi (sgn s q)))

/-- The value of an element of a format code that is no MX code (R31): its width's bits. -/
def codeVal (c n : Nat) : FVal :=
  match fmtOf c with
  | some f => f.decode n
  | none => ofInt (signedOf (fmtBits c) n) 0 false

/-- A value as an element of a format code that is no MX code (R42, R43). -/
def codeOf (c rm : Nat) (sat : Bool) (r : Nat) (v : FVal) : Nat :=
  match fmtOf c with
  | some f => f.encode rm sat r v
  | none => toIntCode (fmtBits c) rm v

/-! ### The generator (R48, R49) -/

/-- One round of Philox-4x32-10. -/
def philoxRound (c0 c1 c2 c3 k0 k1 : Nat) : Nat × Nat × Nat × Nat :=
  let p0 := 0xD2511F53 * c0
  let p1 := 0xCD9E8D57 * c2
  (Nat.xor (Nat.xor (p1 / 2 ^ 32) c1) k0, p1 % 2 ^ 32, Nat.xor (Nat.xor (p0 / 2 ^ 32) c3) k1, p0 % 2 ^ 32)

/-- `n` rounds, the key bumped between rounds. -/
def philoxRounds : Nat → Nat × Nat × Nat × Nat → Nat → Nat → Nat × Nat × Nat × Nat
  | 0, c, _, _ => c
  | n + 1, (c0, c1, c2, c3), k0, k1 =>
    philoxRounds n (philoxRound c0 c1 c2 c3 k0 k1) ((k0 + 0x9E3779B9) % 2 ^ 32) ((k1 + 0xBB67AE85) % 2 ^ 32)

/-- The random word of element `e` (R49): the key and the counter of R48. -/
def randomWord (seed tensor step purpose e : Nat) : Nat :=
  let g := e / 8 % 2 ^ 48
  let x := philoxRounds 10 (g % 2 ^ 32, g / 2 ^ 32 + 2 ^ 16 * tensor, step, purpose) (seed % 2 ^ 32) (seed / 2 ^ 32)
  let all := x.1 + 2 ^ 32 * x.2.1 + 2 ^ 64 * x.2.2.1 + 2 ^ 96 * x.2.2.2
  bitsOf all (16 * (e % 8)) 16

/-! ### The fixed pairwise sum (R51) -/

/-- One level: adjacent pairs combined, a last one alone kept. -/
def pairLevel {α : Type} (f : α → α → α) : List α → List α
  | a :: b :: r => f a b :: pairLevel f r
  | l => l

/-- Levels until one value remains, at most `n`. -/
def pairTree {α : Type} (f : α → α → α) : Nat → List α → List α
  | 0, l => l
  | n + 1, l => match l with
    | _ :: _ :: _ => pairTree f n (pairLevel f l)
    | l => l

/-- A tree over a list, with the value of the empty one. -/
def pairReduce {α : Type} (f : α → α → α) (z : α) (l : List α) : α := (pairTree f l.length l).headD z

/-- The fixed pairwise sum of FP32 values (R51), RNE at each node. -/
def psum (l : List (BitVec 32)) : BitVec 32 := pairReduce (fadd 0) 0 l

/-- The fixed pairwise sum of values held exactly at the leaves (R45): each node is an FP32 value. -/
def psumExact (l : List FVal) : FVal := pairReduce (fun a b => val32 (fp32 0 (addVal 0 a b))) (.fin false 0 0) l

end Sys2Proof.Machine
end

