-- ==== Sys2Proof/Machine/Mx.lean ====
section
/-! DEFINITION. Packed elements (R32), MX blocks (R37 to R40) and the matrix tile's step (R45, R46, R61, R62). -/

namespace Sys2Proof.Machine

open Sys2Proof

/-- A packed run of `w`-bit elements as a number (R32). -/
def packNat (w : Nat) : List Nat → Nat
  | [] => 0
  | x :: r => x % 2 ^ w + 2 ^ w * packNat w r

/-- The first `n` elements of width `w` of a packed run (R32). -/
def unpackNat (w : Nat) : Nat → Nat → List Nat
  | 0, _ => []
  | n + 1, v => v % 2 ^ w :: unpackNat w n (v / 2 ^ w)

/-- A vector register as one little-endian number, lane 0 lowest (R100). -/
def vregNat (v : VReg) : Nat := packNat 32 (v.toList.map BitVec.toNat)

/-- A number as a vector register; bits above are dropped. -/
def vregOf (n : Nat) : VReg := Vector.ofFn (fun i => BitVec.ofNat 32 (n / 2 ^ (32 * i.val)))

/-- The 64 elements of a register in a format's width (R100). -/
def vregElems (c : Nat) (v : VReg) : List Nat := unpackNat (fmtBits c) 64 (vregNat v)

/-- emax of R39 for the MX element formats. -/
def mxEmax (c : Nat) : Int :=
  match c with
  | 0xA => 8 | 0xB => 15 | 0xC => 2 | 0xD => 4 | 0xE => 2 | _ => 0

/-- Is a value NaN or infinite? -/
def FVal.special : FVal → Bool
  | .fin _ _ _ => false
  | _ => true

/-- floor(log2 |v|) of a finite non-zero value. -/
def FVal.exponent : FVal → Int
  | .fin _ m e => (log2Nat m : Int) + e
  | _ => 0

/-- Is a value a zero? -/
def FVal.isZero : FVal → Bool
  | .fin _ m _ => m = 0
  | _ => false

/-- The sign of a value. -/
def FVal.neg : FVal → Bool
  | .nan => false
  | .inf s => s
  | .fin s _ _ => s

/-- One element of a block with exponent `x` (R39 step 4): rounded in the mode and saturated; MXINT8 to −127 … 127. -/
def mxElem (c rm : Nat) (x : Int) (v : FVal) : Nat :=
  match v with
  | .fin s m e =>
    match fmtOf c with
    | some f => f.encode rm true 0 (.fin s m (e - x))
    | none =>
      let q := if m = 0 then 0 else roundQuot m (e - x + 6) 0 (magMode rm s)
      twosOf 8 (sgn s (min q 127))
  | _ => 0

/-- A block of 32 values in an MX format: the elements and the scale byte (R39). -/
def mxQuant (c rm : Nat) (l : List FVal) : List Nat × Nat :=
  if l.any FVal.special then (l.map (fun _ => 0), 0xFF)
  else if l.all FVal.isZero then
    (l.map (fun v => match fmtOf c with | some f => f.signBit v.neg | none => 0), 0)
  else
    let amax := (l.filter (fun v => !v.isZero)).foldl (fun a v => max a v.exponent) (-1000)
    let x := max (-127) (min 127 (amax - mxEmax c))
    (l.map (mxElem c rm x), (x + 127).toNat)

/-- The value of an MX element without its scale (R37). -/
def mxElemVal (c n : Nat) : FVal :=
  match fmtOf c with
  | some f => f.decode n
  | none => ofInt (signedOf 8 n) (-6) false

/-- A value times a power of two. -/
def FVal.scale (v : FVal) (x : Int) : FVal :=
  match v with
  | .fin s m e => .fin s m (e + x)
  | v => v

/-- An MX element decoded to FP32 (R37, R40). -/
def mxDecode (c sc n : Nat) : BitVec 32 :=
  if sc = 0xFF then nan32 else fp32 0 ((mxElemVal c n).scale ((sc : Int) - 127))

/-- K of a pair of tile operand formats (R61); none for a pair not in one row. -/
def tileK (a b : Nat) : Option Nat :=
  if (a = 0x1 ∧ b = 0x1) ∨ (a = 0x2 ∧ b = 0x2) then some 8
  else if ((a = 0x3 ∨ a = 0x4) ∧ (b = 0x3 ∨ b = 0x4)) ∨ (a = 0x8 ∧ b = 0x8) then some 16
  else if (a = 0x5 ∨ a = 0x6 ∨ a = 0x7) ∧ (b = 0x5 ∨ b = 0x6 ∨ b = 0x7) then some 32
  else if (a = 0xA ∨ a = 0xB ∨ a = 0xF) ∧ (b = 0xA ∨ b = 0xB ∨ b = 0xF) then some 32
  else if (a = 0xC ∨ a = 0xD ∨ a = 0xE) ∧ (b = 0xC ∨ b = 0xD ∨ b = 0xE) then some 32
  else none

/-- Is a format code an MX code? -/
def isMx (c : Nat) : Bool := 0xA ≤ c

/-- The value of a tile operand's element. -/
def tileVal (c n : Nat) : FVal := if isMx c then mxElemVal c n else codeVal c n

/-- One accumulator element after a step (R45, R46): `row` and `col` are the K elements of A and B, `sa` and `sb` the
block scales of an MX step. -/
def tileElem (fa fb : Nat) (acc : BitVec 32) (row col : List Nat) (sa sb : Nat) : BitVec 32 :=
  let prods := List.zipWith (fun x y => mulVal (tileVal fa x) (tileVal fb y)) row col
  let sum := psumExact prods
  if isMx fa then
    if sa = 0xFF ∨ sb = 0xFF then nan32
    else fadd 0 acc (fp32 0 (sum.scale ((sa : Int) + sb - 254)))
  else fp32 0 (addVal 0 (val32 acc) sum)

end Sys2Proof.Machine
end

