-- ==== Sys2Proof/Machine/Epoch.lean ====
section
/-! DEFINITION. What every block shares of the schedule: whether it runs, which pavilions it binds, how a notice is
flooded (R170), how an epoch fault is recorded (R140, R498), how an ADD reaches a semaphore (R69, R70). -/

namespace Sys2Proof.Machine

open Sys2Proof

/-- SCH_STATE.RUN (R145): 0 IDLE, 1 RUNNING, 2 STOPPING, 3 HALTED. -/
def State.run (s : State) : Nat := s.fld fSCH_STATE_RUN

/-- A schedule runs: RUN is RUNNING or STOPPING. -/
def State.running (s : State) : Bool := s.run = 1 || s.run = 2

/-- A schedule is present: RUN is not IDLE or IMG is not NONE (R114, R235). -/
def State.schedPresent (s : State) : Bool := s.run ≠ 0 || s.fld fSCH_STATE_IMG ≠ 0

/-- This device's fabric number (R175). -/
def State.devNum (s : State) : Nat := s.fld fFAB_DEVNUM_DEV

/-- The current slot number (R119). -/
def State.slot (s : State) : Nat := s.sch.tb.toNat / 8

/-- Does the active epoch bind logical pavilion `l`? A binding of the even half of a coupled pair binds both (R107). -/
def State.bound (s : State) (l : Nat) : Bool :=
  match s.sch.epoch with
  | none => false
  | some e => e.blk.binds.any (fun b => b.lpav = l || (bitOf e.blk.pairs.toNat (l / 2) && b.lpav = l / 2 * 2))

/-- Is logical pavilion `l` named as a service pavilion (R235)?
(DEDUCED: log 69.) -/
def State.service (s : State) (l : Nat) : Bool :=
  bitOf (if l < 64 then s.fld fCXM_SVC_MASK0_BITS else s.fld fCXM_SVC_MASK1_BITS) (l % 64)

/-- Can a schedule bind or load logical pavilion `l`: present, and no service pavilion (R133, R235)?
(DEDUCED: log 69.) -/
def State.bindable (s : State) (l : Nat) : Bool := s.present l && !s.service l

/-- A condition of R107 or R138 step 1 has been met now (for the slack of R146). -/
def State.metNow (s : State) : State :=
  match s.sch.epoch with
  | none => s
  | some e => { s with sch := { s.sch with epoch := some { e with metAt := s.sch.tb.toNat } } }

/-- A condition of R107 may have been met for logical pavilion `l`: it counts where the epoch binds it (R146). -/
def State.met (s : State) (l : Nat) : State := if s.bound l then s.metNow else s

/-- Training states of a fabric port (R172). -/
def State.portState (s : State) (p : Nat) : Nat := s.fld (fFAB_PORT_STATUS_STATE p)

/-- Is a port ACTIVE at version 3 (R170)? -/
def State.portV3 (s : State) (p : Nat) : Bool := s.portState p = 5 && s.fld (fFAB_PORT_STATUS_VERSION p) = 3

/-- Replace a fabric port. -/
def State.setPort (s : State) (p : Fin 24) (x : FabPort) : State :=
  { s with fab := { s.fab with ports := s.fab.ports.set p x } }

/-- Queue a control message on a port, to leave no earlier than a slot. -/
def State.queueCtrl (s : State) (p : Fin 24) (m : Ctrl) (slot : Nat) : State :=
  let x := s.fab.ports[p]
  s.setPort p { x with ctrlQ := x.ctrlQ ++ [{ flit := .ctrl m, slot := slot }] }

/-- Send a notice on every port that is ACTIVE at version 3, but for one (R170).
(DEDUCED: log 42.) -/
def State.flood (s : State) (kind : Nat) (n : Notice) (but : Option (Fin 24)) (slot : Nat) : State :=
  (List.finRange 24).foldl (fun t p =>
    if t.portV3 p.val && decide (but ≠ some p) then t.queueCtrl p (.notice kind n) slot else t) s

/-- Accept a notice by its number, later than the latest kept of its origin and kind modulo 2^16, and forward it on every
other port from 2 slots after its arrival (R170); none for one that is discarded. A port below version 3 carries no
notices (R173).
(DEDUCED: log 42, 172.) -/
def State.acceptNotice? (s : State) (kind : Nat) (p : Fin 24) (n : Notice) : Option State :=
  let later := match alook (n.origin.val, kind) s.sch.seenNum with
    | none => true
    | some k => 1 ≤ (n.num.toNat + 65536 - k) % 65536 && (n.num.toNat + 65536 - k) % 65536 < 32768
  if s.portV3 p.val && later then
    let s1 : State := { s with sch := { s.sch with seenNum := aput (n.origin.val, kind) n.num.toNat s.sch.seenNum } }
    some (s1.flood kind n (some p) (s.slot + 2))
  else none

/-- A notice of this device with the common fields filled in: its number is the next of its kind (R170). -/
def State.ownNotice (s : State) (kind : Fin 5) : Notice :=
  { origin := Fin.ofNat 16384 s.devNum, num := BitVec.ofNat 16 s.sch.ownNum[kind], stamp := s.sch.tb,
    image := (match s.sch.active with | some i => i.id | none => 0), step := BitVec.ofNat 32 (s.fld fSCH_STEP_VALUE),
    attempt := BitVec.ofNat 8 (s.fld fSCH_ATTEMPT_ATTEMPT), cause := 0, tr := 0, level := 0,
    gen := BitVec.ofNat 8 (s.fld fTOP_GEN_DEV_GEN) }

/-- Flood a notice of this device's own, and count it. -/
def State.floodOwn (s : State) (kind : Fin 5) (n : Notice) : State :=
  ({ s with sch := { s.sch with ownNum := s.sch.ownNum.set kind ((s.sch.ownNum[kind] + 1) % 65536) } } : State).flood
    kind.val n none s.slot

/-- T_r: the first multiple of 8 not less than the detection time plus 16,000 ticks (R140). -/
def State.replayTime (s : State) : Nat := ceilTo (s.sch.tb.toNat + 16000) 8

/-- Record the first fault of the attempt (R498): SCH_FAULT, its count, the event with its entry (R140).
(DEDUCED: log 45.) -/
def State.recordFault (s : State) (cause origin carried : Nat) : State :=
  let s1 := ((s.setFld fSCH_FAULT_CAUSE cause).setFld fSCH_FAULT_ORIGIN origin).setFld fSCH_FAULT_ATTEMPT
    (s.fld fSCH_ATTEMPT_ATTEMPT)
  let s2 := s1.count fSCH_FAULT_COUNT_COUNT 1
  let s3 : State := { s2 with sch := { s2.sch with recorded := true } }
  s3.event blkSCH [0] { code := 0x0101, result := s.fld fSCH_STEP_VALUE + 2 ^ 32 * s.fld fSCH_ATTEMPT_ATTEMPT,
                        st := .epochFault, detail := 0x1000 + cause } carried

/-- Hold a T_r for the current step and attempt (R141). -/
def State.holdTr (s : State) (t : Nat) : State := { s with sch := { s.sch with trs := t :: s.sch.trs } }

/-- The device detects an epoch fault (R140, R498): the first of the attempt is recorded and flooded, a later one makes
one entry. Nothing happens while no schedule runs. -/
def State.fault (s : State) (cause : Nat) : State :=
  if s.running then
    let tr := s.replayTime
    if s.sch.recorded then
      (s.logWrite 0x0101 blkSCH 0 .epochFault (0x1000 + cause) 0 (s.fld fSCH_STEP_VALUE)).holdTr tr
    else
      let n := { s.ownNotice 2 with cause := Fin.ofNat 16 cause, tr := BitVec.ofNat 64 tr }
      let s1 := ((s.recordFault cause s.devNum 0).holdTr tr).floodOwn 2 n
      { s1 with sch := { s1.sch with ownSent := true } }
  else s

/-- Fault the epoch when it binds a pavilion (R82, R104, R112). -/
def State.faultIfBound (s : State) (l cause : Nat) : State := if s.bound l then s.fault cause else s

/-- An ADD of a signed 16-bit amount to a counter, and whether it saturates (R70). -/
def semSum (v : BitVec 32) (a : BitVec 16) : BitVec 32 × Bool :=
  let t : Int := (v.toNat : Int) + a.toInt
  if t < 0 then (0, true) else if 0xFFFFFFFF < t then (0xFFFFFFFF, true) else (BitVec.ofNat 32 t.toNat, false)

/-- An ADD reaches a semaphore of a logical pavilion (R69, R70). One to an absent pavilion changes nothing. -/
def State.semAdd (s : State) (l : Nat) (m : Fin 64) (a : BitVec 16) : State :=
  match s.phys? l with
  | none => s
  | some p =>
    let x := s.pav p
    let r := semSum x.sems[m] a
    let s1 := s.setPav p { x with sems := x.sems.set m r.1 }
    if r.2 then s1.raise fPAV_ERR_SEM_SAT else s1

/-- The ADD of +1 to a signal target laid out as R99 gives: pavilion [12:6], semaphore [5:0]. -/
def State.signalTarget (s : State) (sig : BitVec 16) : State :=
  s.semAdd (bitsOf sig.toNat 6 7) (Fin.ofNat 64 sig.toNat) 1

end Sys2Proof.Machine
end

