-- ==== Sys2Proof/Machine/Cmds.lean ====
section
/-! DEFINITION. What the blocks share of fetched commands (R312 to R316): finding, ending and holding one, its
parameter area. -/

namespace Sys2Proof.Machine

open Sys2Proof

/-- A fetched command. -/
def State.cmd? (s : State) (id : Nat) : Option Cmd := s.que.cmds.find? (fun c => c.id == id)

/-- Replace a fetched command. -/
def State.setCmd (s : State) (c : Cmd) : State :=
  { s with que := { s.que with cmds := s.que.cmds.map (fun x => if x.id = c.id then c else x) } }

/-- A wait in whole µs, rounded up, at most 0xFFFF (R28). -/
def waitUs (ticks : Nat) : Nat := min (ceilDiv ticks usTicks) 0xFFFF

/-- A hold of a command ends: its time is added to the wait (R28). -/
def Cmd.release (c : Cmd) (now : Nat) : Cmd :=
  { c with wait := c.wait + (match c.held with | some t => now - t | none => 0), held := none, paged := false, shaped := false }

/-- A command ends with a status, a detail and a result; its completion entry is still to be written. A hold ends here, but
for one by a shaper of a frame that is still to leave. -/
def State.endCmd (s : State) (id : Nat) (st : Status) (detail : Nat := 0) (result : Nat := 0) : State :=
  match s.cmd? id with
  | some c =>
    let c1 := if c.shaped then { c with paged := false } else c.release s.now
    if c.done = none then s.setCmd { c1 with done := some (st, detail, BitVec.ofNat 64 result), watch := false, parked := none } else s
  | none => s

/-- A command is held back by the device: the time its hold began is kept (R28, R228). -/
def State.holdCmd (s : State) (id : Nat) : State :=
  match s.cmd? id with
  | some c => s.setCmd { c with held := some (c.held.getD s.now), paged := true }
  | none => s

/-- A shaper or a pacing begins to hold frames of a command, and ends (R388): what else holds it may go on. -/
def State.shapeCmd (s : State) (id : Nat) (on : Bool) : State :=
  match s.cmd? id with
  | some c =>
    if on then s.setCmd { c with held := some (c.held.getD s.now), shaped := true }
    else if c.shaped = false then s
    else if c.paged then s.setCmd { c with shaped := false }
    else s.setCmd (c.release s.now)
  | none => s

/-- A field of the parameter area. -/
def Cmd.f (c : Cmd) (o n : Nat) : Nat := fieldAt c.params o n

/-- The parameter area as a number, and the fields that may be set in it: (lowest bit, width). -/
def onlyBits (n : Nat) (l : List (Nat × Nat)) : Bool := n = (l.map (fun x => bitsOf n x.1 x.2 * 2 ^ x.1)).sum

/-- Are all bits of the parameter area outside the fields 0 (R314)? -/
def Cmd.clean (c : Cmd) (l : List (Nat × Nat)) : Bool := onlyBits (leNat c.params) l

/-- A field at byte `o`, from bit `b`, as a place of the parameter area. -/
def at8 (o b w : Nat) : Nat × Nat := (8 * o + b, w)

/-- The `n` responses to a cancelled command arrive: they carry an earlier GEN, and are dropped and counted (R327).
(DESIGN CHOICE: log 165.) -/
def State.goneRsp (s : State) (id op n : Nat) : State :=
  match s.que.gone.find? (fun g => g.1 = id && g.2.1 = op) with
  | some g => ({ s with que := { s.que with gone := s.que.gone.erase g } } : State).count (fQUE_PSTALE_COUNT g.2.2) n
  | none => s

/-- A command that has started and not ended, with a given opcode: what its row acts on. `n` is the responses that the row
stands for, where the command has been cancelled.
(DESIGN CHOICE: log 5.) -/
def State.onCmd (s : State) (id : Nat) (op : Nat) (f : Cmd → State) (n : Nat := 1) : Host.Outcome State Fault Refusal :=
  match s.cmd? id with
  | some c => if c.started ∧ c.done = none ∧ c.op = op then .next (f c) else .next s
  | none => .next (s.goneRsp id op n)

/-- The partition of a command. -/
def Cmd.p (c : Cmd) : Fin 65 := Fin.ofNat 65 c.part

end Sys2Proof.Machine
end

