-- ==== Sys2Proof/Machine/Tags.lean ====
section
/-! DEFINITION. The tags of the PCIe links (R289 to R291): every read that the device issues takes one, and a timeout
quarantines it. -/

namespace Sys2Proof.Machine

open Sys2Proof

/-- Replace the state of the PCIe ports. -/
def State.setHif (s : State) (f : Hif → Hif) : State := { s with hif := f s.hif }

/-- Replace a function's configuration space. -/
def State.setCfg (s : State) (fn : Fin 2) (c : FnCfg) : State := s.setHif (fun h => { h with cfg := h.cfg.set fn c })

/-- AER logs an uncorrectable error of an upstream function (R281); none for a slot's link.
(PRESUMED: log 80.) -/
def State.aerLog (s : State) (link bit : Nat) : State :=
  if h : link < 2 then
    let fn : Fin 2 := ⟨link, h⟩
    s.setCfg fn { s.hif.cfg[fn] with aer := s.hif.cfg[fn].aer ||| BitVec.ofNat 32 (2 ^ bit) }
  else s

/-- The timeout in µs of a link's requests (R289). -/
def State.linkCto (s : State) (link : Nat) : Nat :=
  if link < 2 then s.fld fHIF_UP_CTO_MICROS else s.fld (fHIF_DS_CTO_MICROS ((link - 2) / 2))

/-- The generation of a link: that of the slot; none for an upstream link. -/
def State.linkGen (s : State) (link : Nat) : Nat := if link < 2 then 0 else s.fld (fHIF_SLOT_STATUS_GEN (link - 2))

/-- Replace the tags, and show how many of each upstream link are quarantined (R306). -/
def State.setTags (s : State) (l : List ((Nat × Nat) × TagSt)) : State :=
  let n (h : Nat) : Nat := (l.filter (fun e => e.1.1 = h && (match e.2 with | .quar _ => true | _ => false))).length
  ((s.setHif (fun x => { x with tags := l })).setFld (fHIF_UP_QTAGS_COUNT 0) (n 0)).setFld (fHIF_UP_QTAGS_COUNT 1) (n 1)

/-- The lowest free tag of a link, of 4,096. -/
def State.freeTag? (s : State) (link : Nat) : Option Nat :=
  (List.range 4096).find? (fun t => (alook (link, t) s.hif.tags).isNone)

/-- Report a timeout on a link (R290).
(DEDUCED: log 86.) -/
def State.reportTimeout (s : State) (link : Nat) : State :=
  ((if link < 2 then s.count (fHIF_UP_TIMEOUT_COUNT link) 1 else s.count (fHIF_SLOT_TIMEOUT_COUNT (link - 2)) 1).raise
    fHIF_ERR_CTO).aerLog link 14

/-- A read that the device issues and that ends in one step times out: the timeout in force at its issue passes, and its tag is
quarantined from the report on (R289, R290).
(DEDUCED: log 86.) -/
def State.ctoTag (s : State) (link : Nat) : State :=
  let c := s.linkCto link
  let s1 := (s.advance (c * usTicks)).reportTimeout link
  match s.freeTag? link with
  | none => s1
  | some t => s1.setTags (aput (link, t) (.quar (s1.now + 2 * c * usTicks)) s.hif.tags)

/-- Must a read of `n` bytes at `a` wait for a free tag of its link (R289)?
(DEDUCED: log 86.) -/
def State.noTag (s : State) (a n : Nat) : Bool :=
  match s.linkOf a n with
  | some k => (s.freeTag? k).isNone
  | none => false

/-- Issue a request on a link: it takes a free tag (R289).
(DEDUCED: log 86.) -/
def State.issueTag (s : State) (link : Nat) : Option (Nat × State) :=
  (s.freeTag? link).map (fun t =>
    (t, s.setTags (aput (link, t) (.out s.now (s.linkCto link) (s.linkGen link)) s.hif.tags)))

/-- A received TLP of a link carries EP (R281, R288): its data is discarded, as an uncorrectable error at that point (R458, R459); `a`
is the device-physical address of its line, 0 where none exists.
(PRESUMED: log 80.) -/
def State.poisonRx (s : State) (link a : Nat) : State :=
  ((s.raise fHIF_ERR_POISON_RX).aerLog link 12).logUe blkHIF (a / 64 * 64)

/-- A read of `n` bytes at `a` that ended in one step with a status: over a link, a timeout is reported there, and data that
could not be used was a completion with EP set. -/
def State.noteRead (s : State) (a n : Nat) (st : Status) : State :=
  match s.linkOf a n with
  | none => s
  | some k => if st = .timeout then s.ctoTag k else if st = .dataError then s.poisonRx k a else s

end Sys2Proof.Machine
end

