-- ==== Sys2Proof/Machine/Write.lean ====
section
/-! DEFINITION. Writes of device agents to the device-physical address space, with copy-before-write (R254 to R258): a
write to an UNSAVED granule is held until the granule has been copied into the reserve. -/

namespace Sys2Proof.Machine

open Sys2Proof

/-- A granule: 64 KiB. -/
def granuleBytes : Nat := 0x10000

/-- Does a granule overlap a COPY region of a sheaf (R254)? -/
def Sheaf.covers (x : Sheaf) (g : Nat) : Bool :=
  x.regions.any (fun r => r.kind = 0 && r.addr < (g + 1) * granuleBytes && g * granuleBytes < r.addr + r.len)

/-- Is a granule UNSAVED (R254): a sheaf is COPYING, the granule overlaps a COPY region, nothing has captured it? -/
def State.unsaved (s : State) (g : Nat) : Bool :=
  match s.ckp.sheaf with
  | none => false
  | some x => x.snap.isSome && x.covers g && !x.saved.contains g

/-- The granules of `n` bytes at `a`. -/
def granules (a n : Nat) : List Nat :=
  if n = 0 then [] else (List.range ((a + n - 1) / granuleBytes - a / granuleBytes + 1)).map (fun i => a / granuleBytes + i)

/-- Do two ranges overlap? -/
def spansMeet (a n b m : Nat) : Bool := a < b + m && b < a + n

/-- Does a write of `n` bytes at `a` follow a held one: it meets its range, or it comes behind it over the same PCIe link
(R286)?
(DESIGN CHOICE: log 70.) -/
def HeldWrite.before (w : HeldWrite) (a n : Nat) (o : HeldFor) : Bool :=
  spansMeet a n w.addr w.data.length || (match o with | .link _ => decide (w.owner = o) | _ => false)

/-- Must a write of `n` bytes at `a` be held: a granule is UNSAVED, or it follows an earlier write that is held?
(DESIGN CHOICE: log 70.) -/
def State.writeHeld (s : State) (a n : Nat) (o : HeldFor := .plain) : Bool :=
  (granules a n).any s.unsaved || s.ckp.held.any (fun w => w.before a n o)

/-- Is a write with this owner held? -/
def State.holds (s : State) (o : HeldFor) : Bool := s.ckp.held.any (fun w => decide (w.owner = o))

/-- Replace the checkpoint unit's state. -/
def State.setCkp (s : State) (f : Ckp → Ckp) : State := { s with ckp := f s.ckp }
def State.setSheaf (s : State) (x : Sheaf) : State := s.setCkp (fun k => { k with sheaf := some x })

/-- Reserve slots in use, of 16,384. -/
def Sheaf.used (x : Sheaf) : Nat := x.slots.length + x.diverting.length

/-- The lowest reserve slot that is free. -/
def Sheaf.freeSlot? (x : Sheaf) : Option Nat :=
  (List.range 16384).find? (fun k => !x.slots.any (fun e => e.1 = k) && !x.diverting.any (fun e => e.2 = k))

/-- Show the slots in use, and the most since the snapshot (R275). -/
def State.showSlots (s : State) (x : Sheaf) : State :=
  (s.setFld fCKP_RES_USED x.used).setFld fCKP_RES_PEAK (max (s.fld fCKP_RES_PEAK) x.used)

/-- Start the diversion of a granule, if it is UNSAVED and a slot is free (R255).
(DESIGN CHOICE: log 70.) -/
def State.divert (s : State) (g : Nat) : State :=
  match s.ckp.sheaf with
  | none => s
  | some x =>
    if s.unsaved g && !x.diverting.any (fun e => e.1 = g) then
      match x.freeSlot? with
      | none => s
      | some k =>
        let x1 := { x with diverting := x.diverting ++ [(g, k)] }
        (s.setSheaf x1).showSlots x1
    else s

/-- Start the diversions that a range needs. -/
def State.divertRange (s : State) (a n : Nat) : State := (granules a n).foldl State.divert s

/-- Does a sown write wait for a reserve slot (R256)?
(DEDUCED: log 71.) -/
def State.sownStalls (s : State) : Bool :=
  match s.ckp.sheaf with
  | none => false
  | some x => s.ckp.held.any (fun w => w.sown &&
      (granules w.addr w.data.length).any (fun g => s.unsaved g && !x.diverting.any (fun e => e.1 = g)))

/-- Count the slots of a stall before slot `e` (R256).
(DEDUCED: log 71.) -/
def State.stallCount (s : State) (e : Nat) : State :=
  match s.ckp.stallFrom with
  | none => s
  | some f => (s.count fCKP_STALL_COUNT (e - f)).setCkp (fun k =>
      { k with stallFrom := none, stallSlots := k.stallSlots + (e - f), stallNext := max k.stallNext e })

/-- Note whether a stall goes on, from the current slot on if it is not counted.
(DEDUCED: log 71.) -/
def State.stallOn (s : State) : State :=
  if s.sownStalls then s.setCkp (fun k => { k with stallFrom := some (max s.slot k.stallNext) }) else s

/-- Count the slots of a stall up to the current one, and note whether a stall goes on (R256).
(DEDUCED: log 71.) -/
def State.stallNote (s : State) : State := (s.stallCount (s.slot + 1)).stallOn

/-- An epoch opens (R256): the slots before its first are the closed epoch's, and its count starts anew.
(DEDUCED: log 71.) -/
def State.stallEpoch (s : State) : State := ((s.stallCount s.slot).setCkp (fun k => { k with stallSlots := 0 })).stallOn

/-- Are bytes of write `id` of physical pavilion `p` held? -/
def State.putHeld (s : State) (p : Fin 144) (id : Nat) : Bool :=
  s.ckp.held.any (fun w => match w.owner with | .put q f n => decide (q = p ∧ f ≤ id ∧ id < f + n) | _ => false)

/-- The link of the requester for whom a write is forwarded. -/
def HeldFor.link? : HeldFor → Option Nat
  | .link k => some k
  | _ => none

/-- Bulk data is written: on a PCIe link it leaves as a memory write (R287, R296).
(DESIGN CHOICE: log 164.) -/
def State.land (s : State) (a : Nat) (b : List Byte) (o : HeldFor) : State :=
  let t := s.setBytes a b
  t.sendWr o.link? (if o = .done then fun _ => false else t.relaxed) a b

/-- A write of bytes by an agent of the device (R249, R255): at once, or held. `sown` says whether sown work makes it, `o` who
waits for it.
(DESIGN CHOICE: log 70.) -/
def State.devWrite (s : State) (a : Nat) (b : List Byte) (sown : Bool := false) (o : HeldFor := .plain) : State :=
  if s.writeHeld a b.length o then
    ((s.setCkp (fun k => { k with held := k.held ++ [{ addr := a, data := b, sown := sown, owner := o }] })).divertRange a
      b.length).stallNote
  else s.land a b o

/-- A byte as it stands when the held writes have been made. -/
def State.byteHeld (s : State) (a : Nat) : Byte :=
  match s.ckp.held.reverse.find? (fun w => w.addr ≤ a && a < w.addr + w.data.length) with
  | some w => w.data.getD (a - w.addr) 0
  | none => s.byte a

/-- `n` bytes from `a` as they stand when the held writes have been made. -/
def State.bytesHeld (s : State) (a : Nat) : Nat → List Byte
  | 0 => []
  | n + 1 => s.byteHeld a :: s.bytesHeld (a + 1) n

/-- Make the held writes that nothing holds any more, in their order, and answer the requests that wait for them; `kept` are those found
held so far.
(DESIGN CHOICE: log 70.) -/
def State.releaseGo (s : State) : List HeldWrite → List HeldWrite → State
  | [], kept => s.setCkp (fun k => { k with held := kept })
  | w :: r, kept =>
    if (granules w.addr w.data.length).any s.unsaved || kept.any (fun v => v.before w.addr w.data.length w.owner) then
      s.releaseGo r (kept ++ [w])
    else
      let t := s.land w.addr w.data w.owner
      (if w.owner = .rsp then t.emit (.memRsp .ok []) else t).releaseGo r kept

/-- Send the ADDs of fabric ports that wait for no held write and follow none of the same port that does (R68); `kept` are those
found waiting so far.
(DESIGN CHOICE: log 70.) -/
def State.addsGo (s : State) : List PortAdd → List PortAdd → State
  | [], kept => s.setCkp (fun k => { k with adds := kept })
  | a :: r, kept =>
    if a.behind.any (fun w => s.ckp.held.contains w) || kept.any (fun b => decide (b.port = a.port)) then s.addsGo r (kept ++ [a])
    else (s.semAdd a.lpav a.sem 1).metNow.addsGo r kept

/-- A fabric port sends an ADD of +1 with a scope (R68, R163): under ALL behind each of its writes that is held, under LOCAL behind
those to the target pavilion.
(DESIGN CHOICE: log 70.) -/
def State.portAdd (s : State) (p : Fin 24) (l : Nat) (m : Fin 64) (all : Bool) : State :=
  let base := 0x4000000000 + l * 0x200000
  let behind := s.ckp.held.filter (fun w => decide (w.owner = .port p) && (all || (base ≤ w.addr && w.addr < base + 0x200000)))
  (s.setCkp (fun k => { k with adds := k.adds ++ [{ port := p, lpav := l, sem := m, behind := behind }] })).addsGo
    (s.ckp.adds ++ [{ port := p, lpav := l, sem := m, behind := behind }]) []

/-- Release what nothing holds any more, and start the diversions that free slots allow. -/
def State.release (s : State) : State :=
  let s0 := s.releaseGo s.ckp.held []
  let s1 := s0.addsGo s0.ckp.adds []
  (s1.ckp.held.foldl (fun t w => t.divertRange w.addr w.data.length) s1).stallNote

/-- Free bytes, and the state that has used them. -/
def State.takeBytes (s : State) : Nat → List Byte × State
  | 0 => ([], s)
  | n + 1 =>
    let r := s.takeFree 8
    let q := r.2.takeBytes n
    (r.1 :: q.1, q.2)

/-- Copy `n` lines of 64 bytes upward, each read in order and written in order behind its read (R495): where a write may
come before a later line is read, that line's value is free. A bulk move is sown work.
(DESIGN CHOICE: log 39.) -/
def State.moveLines (s : State) (src dst n : Nat) (o : HeldFor := .plain) : State :=
  if src < dst ∧ dst < src + 64 * n then
    let r := s.takeBytes (64 * n - (dst - src))
    r.2.devWrite dst (s.bytesHeld src (dst - src) ++ r.1) true o
  else s.devWrite dst (s.bytesHeld src (64 * n)) true o

/-- Corrected errors are found (R253, R461). -/
def State.noteCe (s : State) (n : Nat) : State := s.setCkp (fun k => { k with ceCount := k.ceCount + n })

/-- What the read of an entry of an internal table finds (R460, R461): a corrected error is counted in LOG_DEV_CE, an uncorrectable
one acts as `ue` says. -/
def State.tableRead (s : State) (x : EccOutcome) (ue : State → State) : State :=
  match x with
  | .ok => s
  | .ce => (s.count fLOG_DEV_CE_COUNT 1).noteCe 1
  | .ue => ue s

end Sys2Proof.Machine
end

