-- ==== Sys2Proof/Machine/Block.lean ====
section
/-! DEFINITION. Engine command blocks (R98, R99): the fields of their eight words by class. -/

namespace Sys2Proof.Machine

open Sys2Proof

/-- Word `k` of a block. -/
def blkWord (b : List (BitVec 16)) (k : Nat) : Nat := (b.getD k 0).toNat

/-- The 64-bit address or seed of words 3 to 6, or 1 to 4. -/
def blkAddr (b : List (BitVec 16)) (k : Nat) : Nat :=
  blkWord b k + 2 ^ 16 * blkWord b (k + 1) + 2 ^ 32 * blkWord b (k + 2) + 2 ^ 48 * blkWord b (k + 3)

/-- CLASS and OP of word 0. -/
def blkClass (b : List (BitVec 16)) : Nat := bitsOf (blkWord b 0) 12 4
def blkOp (b : List (BitVec 16)) : Nat := bitsOf (blkWord b 0) 6 6

/-- The fields of a class 0 command (R98, R99). -/
structure VecOp where
  rm : Fin 8
  sat : Bool
  vd : Fin 32
  va : Fin 32
  vb : Fin 32
  vc : Fin 32
  fmtA : Fin 16
  fmtD : Fin 16
  acc : Fin 4
  tensor : BitVec 16
  base : BitVec 48
  imm : BitVec 32
  deriving DecidableEq, Repr

/-- A block read as a class 0 command. -/
def vecOf (b : List (BitVec 16)) : VecOp :=
  let w := blkWord b
  { rm := Fin.ofNat 8 (bitsOf (w 0) 3 3), sat := bitOf (w 0) 2,
    vd := Fin.ofNat 32 (bitsOf (w 1) 10 5), va := Fin.ofNat 32 (bitsOf (w 1) 5 5), vb := Fin.ofNat 32 (w 1),
    vc := Fin.ofNat 32 (bitsOf (w 2) 10 5), fmtA := Fin.ofNat 16 (bitsOf (w 2) 6 4), fmtD := Fin.ofNat 16 (bitsOf (w 2) 2 4),
    acc := Fin.ofNat 4 (w 2), tensor := BitVec.ofNat 16 (w 3),
    base := BitVec.ofNat 48 (w 4 + 2 ^ 16 * w 5 + 2 ^ 32 * w 6), imm := BitVec.ofNat 32 (w 3 + 2 ^ 16 * w 4) }

/-- The fields of a class 1 command. -/
structure TileOp where
  acc : Fin 4
  fmtA : Nat
  fmtB : Nat
  aLine : Nat
  bLine : Nat
  aPitch : Nat
  bPitch : Nat
  saLine : Nat
  sbLine : Nat
  deriving DecidableEq, Repr

/-- A block read as a class 1 command. -/
def tileOf (b : List (BitVec 16)) : TileOp :=
  let w := blkWord b
  { acc := Fin.ofNat 4 (bitsOf (w 1) 14 2), fmtA := bitsOf (w 1) 10 4, fmtB := bitsOf (w 1) 6 4, aLine := w 2, bLine := w 3,
    aPitch := bitsOf (w 4) 8 8, bPitch := bitsOf (w 4) 0 8, saLine := w 5, sbLine := w 6 }

/-- The register, the accumulator and the line of a class 2 command. -/
def moveReg (b : List (BitVec 16)) : Fin 32 := Fin.ofNat 32 (bitsOf (blkWord b 1) 10 5)
def moveAcc (b : List (BitVec 16)) : Fin 4 := Fin.ofNat 4 (bitsOf (blkWord b 1) 8 2)
def moveLine (b : List (BitVec 16)) : Nat := blkWord b 2

/-- LINE, COUNT and ADDR of a class 3 command. -/
def xferLine (b : List (BitVec 16)) : Nat := blkWord b 1
def xferCount (b : List (BitVec 16)) : Nat := blkWord b 2
def xferAddr (b : List (BitVec 16)) : Nat := blkAddr b 3

/-- The signal target of word 7 (R99): pavilion, semaphore, and whether the scope is ALL. -/
def sigPav (b : List (BitVec 16)) : Fin 128 := Fin.ofNat 128 (bitsOf (blkWord b 7) 6 7)
def sigSem (b : List (BitVec 16)) : Fin 64 := Fin.ofNat 64 (blkWord b 7)
def sigAll (b : List (BitVec 16)) : Bool := bitOf (blkWord b 7) 15

/-- The command that an engine starts next: the oldest of its queue that has not started (R101), with its place.
(DESIGN CHOICE: log 21.) -/
def nextIn : List QCmd → Option (Nat × QCmd)
  | [] => none
  | c :: r => if c.ran then (nextIn r).map (fun e => (e.1 + 1, e.2)) else some (0, c)

end Sys2Proof.Machine
end

