-- ==== Sys2Proof/Machine/Engine.lean ====
section
/-! DEFINITION. The engines' commands (R58 to R62, R97 to R104): every command of classes 0 to 4, read from the block that the
engine starts next, the failure of an engine's access, and the completion of a command. -/

namespace Sys2Proof.Machine

open Sys2Proof

/-! ### Engines, scratch of a program, failures -/

/-- The physical pavilion and the engine in it that ISSUE of logical pavilion `l` names (R78): engines 8 to 15 are those
of the odd half of a coupled pair, whose own number names none. -/
def State.engAt (s : State) (l : Fin 128) (e : Fin 16) : Option (Fin 144 × Fin 8) :=
  if s.coupled l.val && l.val % 2 = 1 then none
  else if e.val < 8 then (s.phys? l.val).map (fun p => (p, Fin.ofNat 8 e.val))
  else if s.coupled l.val then (s.phys? (l.val + 1)).map (fun p => (p, Fin.ofNat 8 e.val))
  else none

/-- An engine of a physical pavilion. -/
def State.engOf (s : State) (p : Fin 144) (k : Fin 8) : Eng := (s.pav p).eng[k]

/-- Replace an engine. -/
def State.setEng (s : State) (p : Fin 144) (k : Fin 8) (x : Eng) : State :=
  s.setPav p { s.pav p with eng := (s.pav p).eng.set k x }

/-- Change the engine that `l` and `e` name; without such an engine there is no command to run.
(DESIGN CHOICE: log 5, 28.) -/
def State.onEng (s : State) (l : Fin 128) (e : Fin 16) (f : Eng → Eng) : State :=
  match s.engAt l e with
  | none => s
  | some (p, k) => s.setEng p k (f (s.engOf p k))

/-- The scratch bytes that a program of logical pavilion `l` can name (R78): 4 MiB while coupled, else 2 MiB. -/
def State.spLimit (s : State) (l : Nat) : Nat := if s.coupled l then 0x400000 else 0x200000

/-- The logical pavilion whose scratch holds byte `a` of the program's scratch of `l` (R78). -/
def State.spHalf (s : State) (l a : Nat) : Nat := if s.coupled l && 0x200000 ≤ a then l / 2 * 2 + 1 else l

/-- One byte of the program's scratch. -/
def State.spByte (s : State) (l a : Nat) : Byte :=
  match s.phys? (s.spHalf l a) with
  | none => 0
  | some p => s.sbyte p (a % 0x200000)

/-- `n` bytes of the program's scratch. -/
def State.spBytes (s : State) (l a : Nat) : Nat → List Byte
  | 0 => []
  | n + 1 => s.spByte l a :: s.spBytes l (a + 1) n

/-- Write one byte of the program's scratch. -/
def State.setSpByte (s : State) (l a : Nat) (b : Byte) : State :=
  match s.phys? (s.spHalf l a) with
  | none => s
  | some p => s.setSbytes p (a % 0x200000) [b]

/-- Write bytes of the program's scratch. -/
def State.setSp (s : State) (l a : Nat) : List Byte → State
  | [] => s
  | b :: r => (s.setSpByte l a b).setSp l (a + 1) r

/-- What an ECC error of a scratch read of logical pavilion `l` leaves (R65, R459, R461). -/
def State.scratchEcc (s : State) (l a : Nat) (x : EccOutcome) : State :=
  match x with
  | .ok => s
  | .ce => ((s.count (fPAV_CE_COUNT l) 1).raise fPAV_ERR_ECC_CE).noteCe 1
  | .ue => (s.raise fPAV_ERR_ECC_UE).logUe blkPAV (0x4000000000 + l * 0x200000 + a)

/-- What the ECC errors of the lines that a command reads leave, each charged to the half that holds its line (R65, R78), and
whether one is uncorrectable. `reads` says which lines are read. -/
def State.lineErrs (s : State) (l : Nat) (reads : Nat → Bool) (errs : List LineErr) : State × Bool :=
  let hit := errs.filter (fun e => reads e.line.val)
  (hit.foldl (fun t e => t.scratchEcc (t.spHalf l (64 * e.line.val)) (64 * e.line.val % 0x200000) (if e.ue then .ue else .ce)) s,
    hit.any (fun e => e.ue))

/-- Is line `n` among `k` lines from `a`? -/
def inLines (a k n : Nat) : Bool := decide (a ≤ n ∧ n < a + k)

/-- An engine's access fails (R104): the engine stops, its queue is flushed, STATUS.ENG_ERR is set, and an epoch that
binds the pavilion faults with cause DATA.
(DESIGN CHOICE: log 169.) -/
def State.engFail (s : State) (l : Fin 128) (e : Fin 16) : State :=
  let s1 := s.onEng l e (fun x => { x with q := [] })
  let s2 := match s1.phys? l.val with
    | none => s1
    | some p => s1.setPav p { s1.pav p with seq := { (s1.pav p).seq with engErr := true } }
  s2.faultIfBound l.val 5

/-- Mark command `i` of an engine's queue as started, with the writes that are its own. -/
def State.markRan (s : State) (p : Fin 144) (k : Fin 8) (i : Nat) (ids : List Nat) : State :=
  let g := s.engOf p k
  s.setEng p k { g with q := g.q.mapIdx (fun j c => if j = i then { c with ran := true, ids := ids } else c) }

/-- The command of class `cls` and operation `op` that engine `e` of `l` starts next runs (R98 to R101): `f` takes its physical
pavilion and engine, its place in the queue and its block. Where the engine has no such command to start, nothing happens.
A command reads and writes in one step, so the commands of an engine meet the order of R101.
(DESIGN CHOICE: log 21, 28.) -/
def State.runCmd (s : State) (l : Fin 128) (e : Fin 16) (cls op : Nat)
    (f : State → Fin 144 → Fin 8 → Nat → List (BitVec 16) → State) : Host.Outcome State Fault Refusal :=
  match s.engAt l e with
  | none => .next s
  | some (p, k) =>
    match nextIn (s.engOf p k).q with
    | none => .next s
    | some (i, c) =>
      if blkClass c.blk = cls ∧ blkOp c.blk = op then .next (f (s.markRan p k i []) p k i c.blk) else .next s

/-! ### The vector unit (R59, R100) -/

/-- A register of an engine replaced.
(DEDUCED: log 20.) -/
def Eng.setV (x : Eng) (d : Fin 32) (v : VReg) : Eng := { x with v := x.v.set d v }

/-- A class 0 command with code `op` changes its engine as `f` says. -/
def State.vecCmd (s : State) (l : Fin 128) (e : Fin 16) (op : Nat) (f : VecOp → Eng → Eng) : Host.Outcome State Fault Refusal :=
  s.runCmd l e 0 op (fun t p k _ b => t.setEng p k (f (vecOf b) (t.engOf p k)))

/-- VD ← f of the lanes of VA, VB and VC.
(DEDUCED: log 20.) -/
def State.lanes (s : State) (l : Fin 128) (e : Fin 16) (op : Nat)
    (f : VecOp → BitVec 32 → BitVec 32 → BitVec 32 → BitVec 32) : Host.Outcome State Fault Refusal :=
  s.vecCmd l e op (fun x g => g.setV x.vd (Vector.ofFn (fun i => f x g.v[x.va][i] g.v[x.vb][i] g.v[x.vc][i])))

/-- VD lane 0 ← r, other lanes +0 (R100). -/
def lane0 (r : BitVec 32) : VReg := Vector.ofFn (fun i => if i.val = 0 then r else 0)

/-- VD lane 0 ← a reduction of the lanes of VA. -/
def State.reduce (s : State) (l : Fin 128) (e : Fin 16) (op : Nat) (f : List (BitVec 32) → BitVec 32) :
    Host.Outcome State Fault Refusal :=
  s.vecCmd l e op (fun x g => g.setV x.vd (lane0 (f g.v[x.va].toList)))

/-- The register `d + k`. -/
def vplus (d : Fin 32) (k : Nat) : Fin 32 := Fin.ofNat 32 (d.val + k)

/-- CVT of a register (R42, R43, R47, R49): lane `l` takes the random word of element `base + l`. -/
def cvtReg (g : Eng) (x : VecOp) : VReg :=
  let es := vregElems x.fmtA.val g.v[x.va]
  let cs := (List.range 64).zipWith (fun i n =>
    codeOf x.fmtD.val x.rm.val x.sat
      (if x.rm.val = 4 then randomWord g.seed.toNat x.tensor.toNat g.step.toNat g.purpose.toNat (x.base.toNat + i) else 0)
      (codeVal x.fmtA.val n)) es
  vregOf (packNat (fmtBits x.fmtD.val) cs)

/-- MXQ of a register (R39, R100): two blocks to VD, their scales to VC lane 0. -/
def mxqEng (g : Eng) (x : VecOp) : Eng :=
  let vs := g.v[x.va].toList.map val32
  let q0 := mxQuant x.fmtD.val x.rm.val (vs.take 32)
  let q1 := mxQuant x.fmtD.val x.rm.val (vs.drop 32)
  let g1 := g.setV x.vd (vregOf (packNat (fmtBits x.fmtD.val) (q0.1 ++ q1.1)))
  g1.setV x.vc (g1.v[x.vc].set 0 (BitVec.ofNat 32 (q0.2 + 256 * q1.2)))

/-- MXD of a register (R40, R100). -/
def mxdReg (g : Eng) (x : VecOp) : VReg :=
  let es := vregElems x.fmtA.val g.v[x.va]
  let sc := g.v[x.vc][0].toNat
  vregOf (packNat 32 ((List.range 64).zipWith (fun i n =>
    (mxDecode x.fmtA.val (if i < 32 then bitsOf sc 0 8 else bitsOf sc 8 8) n).toNat) es))

/-- Row 4k + r of an accumulator lies in lanes 16r to 16r + 15 of register k (R58): lane i of register k is element
64k + i. -/
def accLane (a : AccReg) (k : Nat) : VReg := Vector.ofFn (fun i => a.toList.getD (64 * k + i.val) 0)

def execFadd (l : Fin 128) (e : Fin 16) (s : State) : Host.Outcome State Fault Refusal :=
  s.lanes l e 0x00 (fun x a b _ => fadd x.rm.val a b)
def execFsub (l : Fin 128) (e : Fin 16) (s : State) : Host.Outcome State Fault Refusal :=
  s.lanes l e 0x01 (fun x a b _ => fsub x.rm.val a b)
def execFmul (l : Fin 128) (e : Fin 16) (s : State) : Host.Outcome State Fault Refusal :=
  s.lanes l e 0x02 (fun x a b _ => fmul x.rm.val a b)
def execFfma (l : Fin 128) (e : Fin 16) (s : State) : Host.Outcome State Fault Refusal :=
  s.lanes l e 0x03 (fun x a b c => ffma x.rm.val a b c)
def execFmin (l : Fin 128) (e : Fin 16) (s : State) : Host.Outcome State Fault Refusal :=
  s.lanes l e 0x04 (fun _ a b _ => fmin a b)
def execFmax (l : Fin 128) (e : Fin 16) (s : State) : Host.Outcome State Fault Refusal :=
  s.lanes l e 0x05 (fun _ a b _ => fmax a b)
def execFcmpeq (l : Fin 128) (e : Fin 16) (s : State) : Host.Outcome State Fault Refusal :=
  s.lanes l e 0x06 (fun _ a b _ => mask32 (cmpVal (val32 a) (val32 b) = some .eq))
def execFcmplt (l : Fin 128) (e : Fin 16) (s : State) : Host.Outcome State Fault Refusal :=
  s.lanes l e 0x07 (fun _ a b _ => mask32 (cmpVal (val32 a) (val32 b) = some .lt))
def execFcmple (l : Fin 128) (e : Fin 16) (s : State) : Host.Outcome State Fault Refusal :=
  s.lanes l e 0x08 (fun _ a b _ =>
    mask32 (cmpVal (val32 a) (val32 b) = some .lt || cmpVal (val32 a) (val32 b) = some .eq))
def execFcmpun (l : Fin 128) (e : Fin 16) (s : State) : Host.Outcome State Fault Refusal :=
  s.lanes l e 0x09 (fun _ a b _ => mask32 (cmpVal (val32 a) (val32 b) = none))
def execSel (l : Fin 128) (e : Fin 16) (s : State) : Host.Outcome State Fault Refusal :=
  s.lanes l e 0x0A (fun _ a b c => if c ≠ 0 then a else b)
def execFabs (l : Fin 128) (e : Fin 16) (s : State) : Host.Outcome State Fault Refusal :=
  s.lanes l e 0x0B (fun _ a _ _ => a &&& 0x7FFFFFFF)
def execFneg (l : Fin 128) (e : Fin 16) (s : State) : Host.Outcome State Fault Refusal :=
  s.lanes l e 0x0C (fun _ a _ _ => a ^^^ 0x80000000)
def execFcopysign (l : Fin 128) (e : Fin 16) (s : State) : Host.Outcome State Fault Refusal :=
  s.lanes l e 0x0D (fun _ a b _ => (a &&& 0x7FFFFFFF) ||| (b &&& 0x80000000))
def execFdiv (l : Fin 128) (e : Fin 16) (s : State) : Host.Outcome State Fault Refusal :=
  s.lanes l e 0x0E (fun x a b _ => fdiv x.rm.val a b)
def execFsqrt (l : Fin 128) (e : Fin 16) (s : State) : Host.Outcome State Fault Refusal :=
  s.lanes l e 0x0F (fun x a _ _ => fsqrt x.rm.val a)
def execExp2 (l : Fin 128) (e : Fin 16) (s : State) : Host.Outcome State Fault Refusal :=
  s.lanes l e 0x10 (fun _ a _ _ => toG (exp2Val (val32 a)))
def execLog2 (l : Fin 128) (e : Fin 16) (s : State) : Host.Outcome State Fault Refusal :=
  s.lanes l e 0x11 (fun _ a _ _ => toG (log2Val (val32 a)))
def execRcp (l : Fin 128) (e : Fin 16) (s : State) : Host.Outcome State Fault Refusal :=
  s.lanes l e 0x12 (fun _ a _ _ => toG (rcpVal (val32 a)))
def execRsqrt (l : Fin 128) (e : Fin 16) (s : State) : Host.Outcome State Fault Refusal :=
  s.lanes l e 0x13 (fun _ a _ _ => toG (rsqrtVal (val32 a)))
def execIadd (l : Fin 128) (e : Fin 16) (s : State) : Host.Outcome State Fault Refusal :=
  s.lanes l e 0x14 (fun _ a b _ => a + b)
def execIsub (l : Fin 128) (e : Fin 16) (s : State) : Host.Outcome State Fault Refusal :=
  s.lanes l e 0x15 (fun _ a b _ => a - b)
def execIand (l : Fin 128) (e : Fin 16) (s : State) : Host.Outcome State Fault Refusal :=
  s.lanes l e 0x16 (fun _ a b _ => a &&& b)
def execIor (l : Fin 128) (e : Fin 16) (s : State) : Host.Outcome State Fault Refusal :=
  s.lanes l e 0x17 (fun _ a b _ => a ||| b)
def execIxor (l : Fin 128) (e : Fin 16) (s : State) : Host.Outcome State Fault Refusal :=
  s.lanes l e 0x18 (fun _ a b _ => a ^^^ b)
def execIshl (l : Fin 128) (e : Fin 16) (s : State) : Host.Outcome State Fault Refusal :=
  s.lanes l e 0x19 (fun _ a b _ => a <<< (b.toNat % 32))
def execIshr (l : Fin 128) (e : Fin 16) (s : State) : Host.Outcome State Fault Refusal :=
  s.lanes l e 0x1A (fun _ a b _ => a >>> (b.toNat % 32))
def execIsar (l : Fin 128) (e : Fin 16) (s : State) : Host.Outcome State Fault Refusal :=
  s.lanes l e 0x1B (fun _ a b _ => a.sshiftRight (b.toNat % 32))
def execIcmpeq (l : Fin 128) (e : Fin 16) (s : State) : Host.Outcome State Fault Refusal :=
  s.lanes l e 0x1C (fun _ a b _ => mask32 (a = b))
def execIcmplt (l : Fin 128) (e : Fin 16) (s : State) : Host.Outcome State Fault Refusal :=
  s.lanes l e 0x1D (fun _ a b _ => mask32 (a.slt b))
def execImul (l : Fin 128) (e : Fin 16) (s : State) : Host.Outcome State Fault Refusal :=
  s.lanes l e 0x1E (fun _ a b _ => a * b)
def execCvt (l : Fin 128) (e : Fin 16) (s : State) : Host.Outcome State Fault Refusal :=
  s.vecCmd l e 0x1F (fun x g => g.setV x.vd (cvtReg g x))
def execMxq (l : Fin 128) (e : Fin 16) (s : State) : Host.Outcome State Fault Refusal :=
  s.vecCmd l e 0x20 (fun x g => mxqEng g x)
def execMxd (l : Fin 128) (e : Fin 16) (s : State) : Host.Outcome State Fault Refusal :=
  s.vecCmd l e 0x21 (fun x g => g.setV x.vd (mxdReg g x))
def execRedsum (l : Fin 128) (e : Fin 16) (s : State) : Host.Outcome State Fault Refusal :=
  s.reduce l e 0x22 psum
def execRedmax (l : Fin 128) (e : Fin 16) (s : State) : Host.Outcome State Fault Refusal :=
  s.reduce l e 0x23 (pairReduce fmax 0)
def execRedmin (l : Fin 128) (e : Fin 16) (s : State) : Host.Outcome State Fault Refusal :=
  s.reduce l e 0x24 (pairReduce fmin 0)
def execImm (l : Fin 128) (e : Fin 16) (s : State) : Host.Outcome State Fault Refusal :=
  s.lanes l e 0x25 (fun x _ _ _ => x.imm)
def execAcc2v (l : Fin 128) (e : Fin 16) (s : State) : Host.Outcome State Fault Refusal :=
  s.vecCmd l e 0x26 (fun x g =>
    let a := g.a[x.acc]
    (((g.setV x.vd (accLane a 0)).setV (vplus x.vd 1) (accLane a 1)).setV (vplus x.vd 2) (accLane a 2)).setV
      (vplus x.vd 3) (accLane a 3))
def execV2acc (l : Fin 128) (e : Fin 16) (s : State) : Host.Outcome State Fault Refusal :=
  s.vecCmd l e 0x27 (fun x g =>
    { g with a := g.a.set x.acc (Vector.ofFn (fun i => g.v[vplus x.va (i.val / 64)][i.val % 64]'(Nat.mod_lt _ (by decide)))) })

/-! ### The tile (R61, R62, R99) -/

/-- Row or column `i` of a tile operand: K elements packed from the line at the pitch.
(DEDUCED: log 18, 29.) -/
def State.tileRow (s : State) (l : Nat) (c k line pitch i : Nat) : List Nat :=
  let n := k * fmtBits c / 8
  unpackNat (fmtBits c) k (leNat (s.spBytes l (line * 64 + i * pitch * 8) n))

/-- A whole operand.
(DEDUCED: log 29.) -/
def State.tileRows (s : State) (l c k line pitch : Nat) : List (List Nat) :=
  (List.range 16).map (fun i => s.tileRow l c k line pitch i)

/-- Does a tile step read line `n`: a row of A, a column of B, or a line of scales of an MX step (R62)? -/
def tileReads (x : TileOp) (k n : Nat) : Bool :=
  let rows (c line pitch : Nat) : Bool :=
    (List.range 16).any (fun i => spansMeet (64 * n) 64 (64 * line + 8 * pitch * i) (k * fmtBits c / 8))
  rows x.fmtA x.aLine x.aPitch || rows x.fmtB x.bLine x.bPitch || (isMx x.fmtA && (n = x.saLine || n = x.sbLine))

/-- C[i][j] ← C[i][j] + Σ A[i][k] × B[k][j], with the MX scales of SA_LINE and SB_LINE (R45, R46, R99); class 1 OP 0. A pair of
formats without a K does not pass ISSUE.
(DEDUCED: log 29.) -/
def execTileStep (l : Fin 128) (e : Fin 16) (errs : List LineErr) (s : State) : Host.Outcome State Fault Refusal :=
  s.runCmd l e 1 0 (fun t p k _ b =>
    let x := tileOf b
    let n := (tileK x.fmtA x.fmtB).getD 0
    let r := t.lineErrs l.val (tileReads x n) errs
    if r.2 then r.1.engFail l e
    else
      let a := t.tileRows l.val x.fmtA n x.aLine x.aPitch
      let c := t.tileRows l.val x.fmtB n x.bLine x.bPitch
      let sa := (t.spBytes l.val (x.saLine * 64) 16).map BitVec.toNat
      let sb := (t.spBytes l.val (x.sbLine * 64) 16).map BitVec.toNat
      let g := r.1.engOf p k
      let ac := g.a[x.acc]
      r.1.setEng p k { g with a := g.a.set x.acc (Vector.ofFn (fun i =>
        tileElem x.fmtA x.fmtB ac[i] (a.getD (i.val / 16) []) (c.getD (i.val % 16) []) (sa.getD (i.val / 16) 0)
          (sb.getD (i.val % 16) 0))) })

/-- Every element of ACC to +0; class 1 OP 1. -/
def execAccClear (l : Fin 128) (e : Fin 16) (s : State) : Host.Outcome State Fault Refusal :=
  s.runCmd l e 1 1 (fun t p k _ b =>
    let g := t.engOf p k
    t.setEng p k { g with a := g.a.set (tileOf b).acc (Vector.replicate 256 0) })

/-! ### Scratch moves (R58, R99) -/

/-- 32-bit lanes as bytes. -/
def laneBytes (l : List (BitVec 32)) : List Byte := l.flatMap (fun w => leBytes 4 w.toNat)

/-- Lane `i` of bytes. -/
def byteLane (b : List Byte) (i : Nat) : BitVec 32 := BitVec.ofNat 32 (fieldAt b (4 * i) 4)

/-- VD ← lines LINE to LINE + 3; class 2 OP 0. -/
def execVload (l : Fin 128) (e : Fin 16) (errs : List LineErr) (s : State) : Host.Outcome State Fault Refusal :=
  s.runCmd l e 2 0 (fun t p k _ b =>
    let r := t.lineErrs l.val (inLines (moveLine b) 4) errs
    if r.2 then r.1.engFail l e
    else
      let d := t.spBytes l.val (moveLine b * 64) 256
      r.1.setEng p k ((r.1.engOf p k).setV (moveReg b) (Vector.ofFn (fun i => byteLane d i.val))))
/-- Lines LINE to LINE + 3 ← VS; class 2 OP 1.
(DEDUCED: log 20.) -/
def execVstore (l : Fin 128) (e : Fin 16) (s : State) : Host.Outcome State Fault Refusal :=
  s.runCmd l e 2 1 (fun t p k _ b => t.setSp l.val (moveLine b * 64) (laneBytes (t.engOf p k).v[moveReg b].toList))
/-- ACC ← lines LINE to LINE + 15; class 2 OP 2. -/
def execAload (l : Fin 128) (e : Fin 16) (errs : List LineErr) (s : State) : Host.Outcome State Fault Refusal :=
  s.runCmd l e 2 2 (fun t p k _ b =>
    let r := t.lineErrs l.val (inLines (moveLine b) 16) errs
    if r.2 then r.1.engFail l e
    else
      let d := t.spBytes l.val (moveLine b * 64) 1024
      let g := r.1.engOf p k
      r.1.setEng p k { g with a := g.a.set (moveAcc b) (Vector.ofFn (fun i => byteLane d i.val)) })
/-- Lines LINE to LINE + 15 ← ACC; class 2 OP 3. -/
def execAstore (l : Fin 128) (e : Fin 16) (s : State) : Host.Outcome State Fault Refusal :=
  s.runCmd l e 2 3 (fun t p k _ b => t.setSp l.val (moveLine b * 64) (laneBytes (t.engOf p k).a[moveAcc b].toList))

/-! ### Mesh transfers (R494, R99, R208) -/

/-- The destination of a write to a device-physical address (R68). -/
def State.destOf (s : State) (a : Nat) : Dest :=
  match s.regionAt a with
  | some (.scratch l, _, _) => .pav (Fin.ofNat 128 l)
  | _ => .other

/-- `n` writes issued to a destination, with fresh identifiers (R68). -/
def Pav.issueWrites (x : Pav) (d : Dest) (n : Nat) : Pav :=
  { x with writes := x.writes ++ (List.range n).map (fun i => { id := x.nextWrite + i, dest := d }), nextWrite := x.nextWrite + n }

/-- The first line of a transfer whose access fails, of those that `bad` names among `n`. -/
def firstBad (n : Nat) (bad : List LineFail) : Option LineFail :=
  (bad.filter (fun x => decide (x.i < n ∧ x.st ≠ .ok))).foldl (fun m x =>
    match m with | some y => if x.i < y.i then some x else m | none => some x) none

/-- GET: COUNT lines from ADDR into scratch from LINE; class 3 OP 0. A line whose access fails stops the engine (R104) with the
lines before it in scratch; so does a target that cannot serve at all. A read waits for a free tag of its link (R289).
(DEDUCED: log 157.) -/
def execGet (l : Fin 128) (e : Fin 16) (bad : List LineFail) (s : State) : Host.Outcome State Fault Refusal :=
  s.runCmd l e 3 0 (fun t _ _ _ b =>
    let n := xferCount b
    if t.noTag (xferAddr b) (64 * n) then s
    else if t.accessSt (xferAddr b) (64 * n) ≠ .ok then t.engFail l e
    else match firstBad n bad with
      | none => t.setSp l.val (xferLine b * 64) (t.bytesHeld (xferAddr b) (64 * n))
      | some f => ((t.setSp l.val (xferLine b * 64) (t.bytesHeld (xferAddr b) (64 * f.i))).noteRead (xferAddr b + 64 * f.i) 64
          f.st).engFail l e)

/-- Line `i` of a PUT is written, and its acknowledgement is outstanding (R68). -/
def State.putLine (s : State) (l : Fin 128) (p : Fin 144) (b : List (BitVec 16)) (i : Nat) : State :=
  let id := (s.pav p).nextWrite
  (s.setPav p ((s.pav p).issueWrites (s.destOf (xferAddr b)) 1)).devWrite (xferAddr b + 64 * i)
    (s.spBytes l.val ((xferLine b + i) * 64) 64) (s.bound l.val) (.put p id 1)

/-- PUT: COUNT scratch lines to ADDR, all issued in one step; class 3 OP 1. Each line is a write to be acknowledged (R68), and is
the command's own (R102). A line that scratch cannot give (R65), or that its target refuses, is not written and stops the
engine (R104); once the first line has left, the others are issued all the same (R208). A target that cannot serve at all
takes none.
(DEDUCED: log 157.) -/
def execPut (l : Fin 128) (e : Fin 16) (errs : List LineErr) (bad : List LineFail) (s : State) : Host.Outcome State Fault Refusal :=
  s.runCmd l e 3 1 (fun t p k i b =>
    let n := xferCount b
    let r := t.lineErrs l.val (inLines (xferLine b) n) errs
    let lost (j : Nat) : Bool := errs.any (fun x => x.ue && x.line.val = xferLine b + j)
    if t.accessSt (xferAddr b) (64 * n) ≠ .ok ∨ lost 0 then r.1.engFail l e
    else
      let first := (t.pav p).nextWrite
      if r.2 = false ∧ firstBad n bad = none then
        let s1 := (r.1.setPav p ((r.1.pav p).issueWrites (t.destOf (xferAddr b)) n)).devWrite (xferAddr b)
          (t.spBytes l.val (xferLine b * 64) (64 * n)) (t.bound l.val) (.put p first n)
        s1.markRan p k i ((List.range n).map (fun j => first + j))
      else
        let go := (List.range n).filter (fun j => !lost j && !bad.any (fun x => decide (x.i = j ∧ x.st ≠ .ok)))
        (go.foldl (fun u j => u.putLine l p b j) r.1).engFail l e)

/-- The engine's generator key, STEP and PURPOSE (R99); class 4 OP 0. -/
def execGenSetup (l : Fin 128) (e : Fin 16) (s : State) : Host.Outcome State Fault Refusal :=
  s.runCmd l e 4 0 (fun t p k _ b =>
    t.setEng p k { t.engOf p k with seed := BitVec.ofNat 64 (blkAddr b 1), step := BitVec.ofNat 32 (blkWord b 5 + 2 ^ 16 * blkWord b 6),
                                    purpose := BitVec.ofNat 8 (bitsOf (blkWord b 7) 8 8) })

/-! ### Completion (R102, R103) -/

/-- The identifiers that an ADD with a scope waits for (R68): LOCAL the writes to its target, ALL every write.
(DESIGN CHOICE: log 168.) -/
def Pav.fenceIds (x : Pav) (all : Bool) (t : Fin 128) : List Nat :=
  (x.writes.filter (fun w => all || decide (w.dest = .pav t))).map (fun w => w.id)

/-- Hold an ADD in the NI (R68, R106). -/
def Pav.holdAdd (x : Pav) (t : Fin 128) (m : Fin 64) (a : BitVec 16) (all : Bool) : Pav :=
  { x with held := x.held ++ [{ pav := t, sem := m, amount := a, waits := x.fenceIds all t }] }

/-- A local counter rises by 1; at 0xFFFF it stays, and CTR_SAT is set (R103). -/
def Seq.bump (x : Seq) (c : Fin 16) : Seq :=
  if x.ctr[c] = 0xFFFF then { x with ctrSat := true } else { x with ctr := x.ctr.set c (x.ctr[c] + 1) }

/-- Command `i` of an engine's queue, 0 the oldest, completes (R102), once it has run and each write of its own is acknowledged: its
counter rises, its signal is sent. A vector and a tile command of one engine run at the same time (R101), so the oldest need
not complete first.
(DESIGN CHOICE: log 21.) -/
def execEngineCommandComplete (l : Fin 128) (e : Fin 16) (i : Fin 4) (s : State) : Host.Outcome State Fault Refusal :=
  match s.engAt l e, s.phys? l.val with
  | some (p, k), some ps =>
    let g := s.engOf p k
    match g.q[i.val]? with
    | none => .next s
    | some c =>
      if c.ran = false ∨ (s.pav p).writes.any (fun w => c.ids.contains w.id) then .next s
      else
        let s1 := s.setEng p k { g with q := g.q.eraseIdx i.val }
        let s2 := if bitOf (blkWord c.blk 0) 1 ∧ blkClass c.blk ≠ 4 then
            s1.setPav p ((s1.pav p).holdAdd (sigPav c.blk) (sigSem c.blk) 1 (sigAll c.blk))
          else s1
        .next ((s2.setPav ps { s2.pav ps with seq := (s2.pav ps).seq.bump c.ctr }).met l.val)
  | _, _ => .next s

end Sys2Proof.Machine
end

