-- ==== Sys2Proof/Machine/Flags.lean ====
section
/-! DEFINITION. The sequencer's flag computations (R85, R93, R94). -/

namespace Sys2Proof.Machine

open Sys2Proof

/-- A result with the flags an instruction gives; none where the instruction does not change the flag. -/
structure AluOut where
  r : BitVec 16
  n : Option Bool
  z : Option Bool
  c : Option Bool
  v : Option Bool
  deriving DecidableEq, Repr

/-- N and Z of a result. -/
def outNZ (r : BitVec 16) : AluOut := { r := r, n := some r.msb, z := some (r = 0), c := none, v := none }

/-- N, Z and C of a result. -/
def outNZC (r : BitVec 16) (c : Bool) : AluOut := { outNZ r with c := some c }

/-- a + b + carry, with N, Z, C and V. -/
def addOut (a b : BitVec 16) (cin : Bool) : AluOut :=
  let t := a.toNat + b.toNat + b2n cin
  let r := BitVec.ofNat 16 t
  { r := r, n := some r.msb, z := some (r = 0), c := some (decide (65536 ≤ t)),
    v := some (a.msb = b.msb && r.msb ≠ a.msb) }

/-- a − b: C is 1 when no borrow occurs (R85). -/
def subOut (a b : BitVec 16) : AluOut := addOut a (~~~b) true

/-- Bit `i` of a word. -/
def wbit (a : BitVec 16) (i : Nat) : Bool := a.getLsbD i

/-- Shifts and the rotate: C is the last bit shifted out, 0 when the amount is 0 (R94). -/
def shlOut (a : BitVec 16) (n : Nat) : AluOut := outNZC (a <<< n) (n ≠ 0 && wbit a (16 - n))
def shrOut (a : BitVec 16) (n : Nat) : AluOut := outNZC (a >>> n) (n ≠ 0 && wbit a (n - 1))
def sarOut (a : BitVec 16) (n : Nat) : AluOut := outNZC (a.sshiftRight n) (n ≠ 0 && wbit a (n - 1))
def rorOut (a : BitVec 16) (n : Nat) : AluOut := outNZC (a.rotateRight n) (n ≠ 0 && wbit a (n - 1))

/-- The flags of p − q on 32 bits (CMPP). -/
def sub32Out (a b : BitVec 32) : AluOut :=
  let r := a - b
  { r := 0, n := some r.msb, z := some (r = 0), c := some (decide (b.toNat ≤ a.toNat)),
    v := some (a.msb ≠ b.msb && r.msb ≠ a.msb) }

/-- Apply the flags of an outcome. -/
def Seq.flags (x : Seq) (o : AluOut) : Seq :=
  { x with n := o.n.getD x.n, z := o.z.getD x.z, c := o.c.getD x.c, v := o.v.getD x.v }

/-- The flags as FLAGS lays them out: [3] N, [2] Z, [1] C, [0] V (R88). -/
def Seq.flagBits (x : Seq) : BitVec 4 := BitVec.ofNat 4 (8 * b2n x.n + 4 * b2n x.z + 2 * b2n x.c + b2n x.v)

/-- Flags from their layout. -/
def Seq.setFlagBits (x : Seq) (f : BitVec 4) : Seq :=
  { x with n := f.getLsbD 3, z := f.getLsbD 2, c := f.getLsbD 1, v := f.getLsbD 0 }

/-- The branch conditions of R95. -/
def Seq.cond (x : Seq) (k : Nat) : Bool :=
  match k with
  | 0x0 => x.z | 0x1 => !x.z | 0x2 => x.c | 0x3 => !x.c | 0x4 => x.n | 0x5 => !x.n | 0x6 => x.v | 0x7 => !x.v
  | 0x8 => x.c && !x.z | 0x9 => !x.c || x.z | 0xA => x.n == x.v | 0xB => x.n != x.v
  | 0xC => !x.z && (x.n == x.v) | 0xD => x.z || (x.n != x.v) | _ => true

end Sys2Proof.Machine
end

