-- ==== Sys2Proof/Machine/Operands.lean ====
section
/-! DEFINITION. The sequencer's operands (R84, R86 to R92): registers, address pairs, addressing modes, the data address
space, the control words and the fetch of an instruction. -/

namespace Sys2Proof.Machine

open Sys2Proof

/-- A general register. -/
def Seq.g (x : Seq) (i : Fin 16) : BitVec 16 := x.w[i]

/-- Write a general register. -/
def Seq.setG (x : Seq) (i : Fin 16) (v : BitVec 16) : Seq := { x with w := x.w.set i v }

/-- The registers of address pair `p`: the odd one is the upper half (R84). -/
def pairLo (p : Fin 4) : Fin 16 := Fin.ofNat 16 (2 * p.val)
def pairHi (p : Fin 4) : Fin 16 := Fin.ofNat 16 (2 * p.val + 1)

/-- An address pair. -/
def Seq.pair (x : Seq) (p : Fin 4) : BitVec 32 := (x.g (pairHi p)) ++ (x.g (pairLo p))

/-- Write an address pair. -/
def Seq.setPair (x : Seq) (p : Fin 4) (v : BitVec 32) : Seq :=
  (x.setG (pairHi p) (v.extractLsb' 16 16)).setG (pairLo p) (v.extractLsb' 0 16)

/-- The second operand of an ALU instruction. -/
def Seq.aluB (x : Seq) (b : AluB) : BitVec 16 :=
  match b with
  | .reg s => x.g s
  | .imm w => w

/-- The address of a mode, and the sequencer after its update of the pair (R91). -/
def Seq.ea (x : Seq) (m : EA) : BitVec 32 × Seq :=
  match m with
  | .disp p k => (x.pair p + BitVec.ofNat 32 k.val, x)
  | .postInc p s => (x.pair p, x.setPair p (x.pair p + BitVec.ofNat 32 (2 ^ s.val)))
  | .preDec p s => (x.pair p - BitVec.ofNat 32 (2 ^ s.val), x.setPair p (x.pair p - BitVec.ofNat 32 (2 ^ s.val)))
  | .index p i s d => (x.pair p + BitVec.ofNat 32 ((x.g i).toNat * 2 ^ s.val) + d.signExtend 32, x)

/-- Where an address of the sequencer lies (R86). -/
inductive Place where
  | data (a : Nat)
  /-- byte offset in the program's scratch -/
  | scratch (a : Nat)
  | control (k : Nat)
  deriving DecidableEq, Repr

/-- The place of an address; none outside the ranges of R86. -/
def seqPlace (coupled : Bool) (a : Nat) : Option Place :=
  if a < 0x8000 then some (.data a)
  else if 0x100000 ≤ a ∧ a < 0x200000 then some (.scratch (2 * (a - 0x100000)))
  else if 0x200000 ≤ a ∧ a < 0x300000 ∧ coupled then some (.scratch (2 * (a - 0x100000)))
  else if 0x400000 ≤ a ∧ a < 0x400030 then some (.control (a - 0x400000))
  else none

/-- A word of data memory or of instruction memory; an unlisted word is 0. -/
def wordDefault : Nat → BitVec 16 := fun _ => 0
def Pav.dword (x : Pav) (a : Nat) : BitVec 16 := smGet wordDefault x.dmem a
def Pav.setDword (x : Pav) (a : Nat) (v : BitVec 16) : Pav := { x with dmem := smSet wordDefault x.dmem a v }

/-- Is an engine of the physical pavilion busy: a command queued or running (R88)? -/
def Pav.busyBits (x : Pav) : Nat :=
  (List.finRange 8).foldl (fun n k => n + (if x.eng[k].q = [] then 0 else 2 ^ k.val)) 0

/-- A pavilion still has an engine busy or a mesh transaction outstanding (R77). -/
def Pav.active (x : Pav) : Bool := x.busyBits ≠ 0 || !x.writes.isEmpty || !x.held.isEmpty || !x.flight.isEmpty

/-- ENGBUSY of logical pavilion `l`: bits [15:8] only while coupled (R88, R78). -/
def State.engBusy (s : State) (l : Nat) : Nat :=
  let b (k : Nat) := match s.phys? k with | some p => (s.pav p).busyBits | none => 0
  if s.coupled l then b (l / 2 * 2) + 256 * b (l / 2 * 2 + 1) else b l

/-- A read of a control word (R88, R89): its value, and the sequencer after a read of TB0. -/
def State.ctrlRead (s : State) (l : Nat) (x : Seq) (k : Nat) : BitVec 16 × Seq :=
  match k with
  | 0x0 => (0x0100, x)
  | 0x1 => (BitVec.ofNat 16 (if s.coupled l then 0x8000 + l / 2 * 2 else l), x)
  | 0x2 => (x.flagBits.setWidth 16, x)
  | 0x3 => (BitVec.ofNat 16 (4 * b2n x.engErr + 2 * b2n x.ctrSat + b2n x.inTrap), x)
  | 0x4 => (x.tvec, x)
  | 0x5 => (x.tcause, x)
  | 0x6 => (x.tpc, x)
  | 0x7 => (x.tnext, x)
  | 0x8 => (x.tflags.setWidth 16, x)
  | 0x9 => (x.tinst0, x)
  | 0xA => (x.tinst1, x)
  | 0xB => (x.tinfo, x)
  | 0xC => (x.wto, x)
  | 0xD => (BitVec.ofNat 16 (s.engBusy l), x)
  | 0x10 => (s.sch.tb.extractLsb' 0 16, { x with tbLatch := s.sch.tb })
  | 0x11 => (x.tbLatch.extractLsb' 16 16, x)
  | 0x12 => (x.tbLatch.extractLsb' 32 16, x)
  | 0x13 => (x.tbLatch.extractLsb' 48 16, x)
  | 0x14 => (BitVec.ofNat 16 (s.fld fSCH_EPOCH_VALUE), x)
  | 0x15 => (BitVec.ofNat 16 (s.fld fSCH_EPOCH_VALUE / 65536), x)
  | k => if 0x20 ≤ k ∧ k < 0x30 then (x.ctr[k % 16]'(Nat.mod_lt _ (by decide)), x) else (0, x)

/-- A write of a control word (R88): RO and reserved words ignore it. -/
def Seq.ctrlWrite (x : Seq) (k : Nat) (v : BitVec 16) : Seq :=
  match k with
  | 0x2 => x.setFlagBits (v.setWidth 4)
  | 0x3 => { x with engErr := x.engErr && !v.getLsbD 2, ctrSat := x.ctrSat && !v.getLsbD 1 }
  | 0x4 => { x with tvec := v &&& 0xFFC0 }
  | 0x6 => { x with tpc := v }
  | 0x7 => { x with tnext := v }
  | 0x8 => { x with tflags := v.setWidth 4 }
  | 0xC => { x with wto := v }
  | _ => x

/-! ### Fetch -/

/-- A word of instruction memory. -/
def Pav.iword (x : Pav) (a : BitVec 16) : BitVec 16 := smGet wordDefault x.imem a.toNat

/-- The two words at an address; addresses wrap (R84). -/
def Pav.fetch (x : Pav) (a : BitVec 16) : BitVec 16 × BitVec 16 := (x.iword a, x.iword (a + 1))

/-- The instruction at the PC; none for a reserved encoding. -/
def Pav.fetched (x : Pav) : Option BOp := decodeBerin (x.fetch x.seq.pc).1 (x.fetch x.seq.pc).2

end Sys2Proof.Machine
end

