-- ==== Sys2Proof/Machine/Berin.lean ====
section
/-! DEFINITION. The Berin-16 sequencer (R84 to R113): every instruction of R93, traps and halts (R110 to R112), the
waits and signals, and the release of a loaded sequencer. An instruction is executed where its logical pavilion's
sequencer runs and the words at its PC are that instruction; the odd half of a coupled pair runs none (R78). -/

namespace Sys2Proof.Machine

open Sys2Proof

/-- The physical pavilion whose sequencer runs for logical pavilion `l`: present, and not the odd half of a coupled pair. -/
def State.seqAt (s : State) (l : Fin 128) : Option (Fin 144) :=
  if s.coupled l.val && l.val % 2 = 1 then none else s.phys? l.val

/-- The sequencer of a physical pavilion. -/
def State.seqOf (s : State) (p : Fin 144) : Seq := (s.pav p).seq

/-- Replace a sequencer. -/
def State.setSeq (s : State) (p : Fin 144) (x : Seq) : State := s.setPav p { s.pav p with seq := x }

/-- Execute the instruction `o` on a running sequencer whose PC is at its words (R93); on any other there is no such instruction to
execute.
(DESIGN CHOICE: log 5, 28; DEDUCED: log 24.) -/
def State.onRun (s : State) (l : Fin 128) (o : Option BOp) (f : Fin 144 → Seq → State) : Host.Outcome State Fault Refusal :=
  match s.seqAt l with
  | none => .next s
  | some p => if (s.seqOf p).mode = .running ∧ (s.pav p).fetched = o then .next (f p (s.seqOf p)) else .next s

/-- PC past an instruction of `n` words; PC arithmetic wraps (R84). -/
def Seq.past (x : Seq) (n : Nat) : Seq := { x with pc := x.pc + BitVec.ofNat 16 n }

/-- The sequencer halts (R112): one entry with TCAUSE and both addresses of the first trap; an epoch that binds the
pavilion faults.
(DESIGN CHOICE: log 10.) -/
def State.haltSeq (s : State) (l : Fin 128) (p : Fin 144) (x : Seq) : State :=
  let s1 := s.setSeq p { x with mode := .halted }
  let s2 := s1.logWrite 0x0002 blkPAV noPart .ok 0 (l.val + 256 * x.tcause.toNat) (x.tpc.toNat + 65536 * x.tnext.toNat)
  (s2.pulse (116 + l.val)).faultIfBound l.val 1

/-- A parity error in instruction or data memory halts the sequencer (R112): it is an uncorrectable error without a device-physical
address (R459).
(DESIGN CHOICE: log 10.) -/
def State.memHalt (s : State) (l : Fin 128) (p : Fin 144) (x : Seq) : State := (s.logUe blkPAV 0).haltSeq l p x

/-- A trap (R111), or a halt while a handler runs (R112). `x` is the sequencer as the instruction found it; the length of the
instruction at its PC is R90's.
(DESIGN CHOICE: log 28.) -/
def State.trap (s : State) (l : Fin 128) (p : Fin 144) (x : Seq) (cause : Nat) (info : Option Nat) : State :=
  let w := (s.pav p).fetch x.pc
  if x.inTrap then s.haltSeq l p x
  else s.setSeq p { x with
    tpc := x.pc
    tnext := x.pc + BitVec.ofNat 16 (instLen w.1)
    tflags := x.flagBits
    tcause := BitVec.ofNat 16 cause
    tinst0 := w.1
    tinst1 := if instLen w.1 = 2 then w.2 else 0
    tinfo := match info with | some i => BitVec.ofNat 16 i | none => x.tinfo
    inTrap := true
    pc := x.tvec + BitVec.ofNat 16 (2 * cause)
    mode := .running }

/-! ### Plain instructions -/

def execNop (l : Fin 128) (s : State) : Host.Outcome State Fault Refusal :=
  s.onRun l (some .nop) (fun p x => s.setSeq p (x.past 1))

def execTrap (l : Fin 128) (n : Fin 16) (s : State) : Host.Outcome State Fault Refusal :=
  s.onRun l (some (.trap n)) (fun p x => s.trap l p x (16 + n.val) none)

def execRett (l : Fin 128) (k : Fin 2) (s : State) : Host.Outcome State Fault Refusal :=
  s.onRun l (some (.rett k)) (fun p x => s.setSeq p
    { x.setFlagBits x.tflags with inTrap := false, pc := if k = 0 then x.tpc else x.tnext })

/-- PUSH: w15 − 1 above 0x7FFF traps with cause ADDR and changes nothing (R96). -/
def execPush (l : Fin 128) (i : Fin 16) (s : State) : Host.Outcome State Fault Refusal :=
  s.onRun l (some (.push i)) (fun p x =>
    let a := x.g 15 - 1
    if 0x7FFF < a.toNat then s.trap l p x 1 none
    else
      let y := s.pav p
      s.setPav p { y.setDword a.toNat (x.g i) with seq := (x.setG 15 a).past 1 })

/-- POP: for POP w15 the loaded value wins. A parity error of the word halts the sequencer (R112).
(DESIGN CHOICE: log 10.) -/
def execPop (l : Fin 128) (i : Fin 16) (parity : Bool) (s : State) : Host.Outcome State Fault Refusal :=
  s.onRun l (some (.pop i)) (fun p x =>
    let a := x.g 15
    if 0x7FFF < a.toNat then s.trap l p x 1 none
    else if parity then s.memHalt l p x
    else s.setSeq p (((x.setG 15 (a + 1)).setG i ((s.pav p).dword a.toNat)).past 1))

def execCset (l : Fin 128) (c i : Fin 16) (s : State) : Host.Outcome State Fault Refusal :=
  s.onRun l (some (.cset c i)) (fun p x => s.setSeq p ({ x with ctr := x.ctr.set c (x.g i) }.past 1))

/-- Words of an ALU instruction. -/
def aluLen (b : AluB) : Nat := match b with | .reg _ => 1 | .imm _ => 2

/-- The ALU instruction of function `k` (R94): rd takes the result when `wr`; the flags are set as the outcome gives. -/
def State.alu (s : State) (l : Fin 128) (k : Fin 15) (d : Fin 16) (b : AluB) (wr : Bool)
    (f : BitVec 16 → BitVec 16 → Seq → AluOut) : Host.Outcome State Fault Refusal :=
  s.onRun l (some (.alu k d b)) (fun p x =>
    let o := f (x.g d) (x.aluB b) x
    let y := x.flags o
    s.setSeq p ((if wr then y.setG d o.r else y).past (aluLen b)))

/-- A result without flags. -/
def outPlain (r : BitVec 16) : AluOut := { r := r, n := none, z := none, c := none, v := none }

def execAluMov (l : Fin 128) (d : Fin 16) (b : AluB) (s : State) : Host.Outcome State Fault Refusal :=
  s.alu l 0 d b true (fun _ y _ => outPlain y)
def execAluAdd (l : Fin 128) (d : Fin 16) (b : AluB) (s : State) : Host.Outcome State Fault Refusal :=
  s.alu l 1 d b true (fun x y _ => addOut x y false)
def execAluAdc (l : Fin 128) (d : Fin 16) (b : AluB) (s : State) : Host.Outcome State Fault Refusal :=
  s.alu l 2 d b true (fun x y q => addOut x y q.c)
def execAluSub (l : Fin 128) (d : Fin 16) (b : AluB) (s : State) : Host.Outcome State Fault Refusal :=
  s.alu l 3 d b true (fun x y _ => subOut x y)
def execAluSbc (l : Fin 128) (d : Fin 16) (b : AluB) (s : State) : Host.Outcome State Fault Refusal :=
  s.alu l 4 d b true (fun x y q => addOut x (~~~y) q.c)
def execAluAnd (l : Fin 128) (d : Fin 16) (b : AluB) (s : State) : Host.Outcome State Fault Refusal :=
  s.alu l 5 d b true (fun x y _ => outNZ (x &&& y))
def execAluOr (l : Fin 128) (d : Fin 16) (b : AluB) (s : State) : Host.Outcome State Fault Refusal :=
  s.alu l 6 d b true (fun x y _ => outNZ (x ||| y))
def execAluXor (l : Fin 128) (d : Fin 16) (b : AluB) (s : State) : Host.Outcome State Fault Refusal :=
  s.alu l 7 d b true (fun x y _ => outNZ (x ^^^ y))
def execAluCmp (l : Fin 128) (d : Fin 16) (b : AluB) (s : State) : Host.Outcome State Fault Refusal :=
  s.alu l 8 d b false (fun x y _ => subOut x y)
def execAluTst (l : Fin 128) (d : Fin 16) (b : AluB) (s : State) : Host.Outcome State Fault Refusal :=
  s.alu l 9 d b false (fun x y _ => outNZ (x &&& y))
def execAluMul (l : Fin 128) (d : Fin 16) (b : AluB) (s : State) : Host.Outcome State Fault Refusal :=
  s.alu l 13 d b true (fun x y _ => outNZ (x * y))
def execAluMulhu (l : Fin 128) (d : Fin 16) (b : AluB) (s : State) : Host.Outcome State Fault Refusal :=
  s.alu l 14 d b true (fun x y _ => outNZ (BitVec.ofNat 16 (x.toNat * y.toNat / 65536)))

/-- A shift by the second operand's bits [3:0] (R94); an immediate amount above 15 is a reserved encoding, which no fetch gives as
a shift. -/
def State.aluShift (s : State) (l : Fin 128) (k : Fin 15) (d : Fin 16) (b : AluB) (g : BitVec 16 → Nat → AluOut) :
    Host.Outcome State Fault Refusal :=
  s.alu l k d b true (fun x y _ => g x (y.toNat % 16))

def execAluShl (l : Fin 128) (d : Fin 16) (b : AluB) (s : State) : Host.Outcome State Fault Refusal :=
  s.aluShift l 0xA d b shlOut
def execAluShr (l : Fin 128) (d : Fin 16) (b : AluB) (s : State) : Host.Outcome State Fault Refusal :=
  s.aluShift l 0xB d b shrOut
def execAluSar (l : Fin 128) (d : Fin 16) (b : AluB) (s : State) : Host.Outcome State Fault Refusal :=
  s.aluShift l 0xC d b sarOut

/-- The one-word instruction `o` on rd with a result and flags. -/
def State.regOp (s : State) (l : Fin 128) (o : BOp) (d : Fin 16) (wr : Bool) (f : BitVec 16 → AluOut) :
    Host.Outcome State Fault Refusal :=
  s.onRun l (some o) (fun p x =>
    let o := f (x.g d)
    let y := x.flags o
    s.setSeq p ((if wr then y.setG d o.r else y).past 1))

def execAddi (l : Fin 128) (d : Fin 16) (n : BitVec 8) (s : State) : Host.Outcome State Fault Refusal :=
  s.regOp l (.addi d n) d true (fun x => addOut x (n.signExtend 16) false)
def execMovi (l : Fin 128) (d : Fin 16) (n : BitVec 8) (s : State) : Host.Outcome State Fault Refusal :=
  s.regOp l (.movi d n) d true (fun _ => outPlain (n.signExtend 16))
def execCmpi (l : Fin 128) (d : Fin 16) (n : BitVec 8) (s : State) : Host.Outcome State Fault Refusal :=
  s.regOp l (.cmpi d n) d false (fun x => subOut x (n.signExtend 16))
def execShlImm (l : Fin 128) (d n : Fin 16) (s : State) : Host.Outcome State Fault Refusal :=
  s.regOp l (.shift 0 d n) d true (fun x => shlOut x n.val)
def execShrImm (l : Fin 128) (d n : Fin 16) (s : State) : Host.Outcome State Fault Refusal :=
  s.regOp l (.shift 1 d n) d true (fun x => shrOut x n.val)
def execSarImm (l : Fin 128) (d n : Fin 16) (s : State) : Host.Outcome State Fault Refusal :=
  s.regOp l (.shift 2 d n) d true (fun x => sarOut x n.val)
def execRorImm (l : Fin 128) (d n : Fin 16) (s : State) : Host.Outcome State Fault Refusal :=
  s.regOp l (.shift 3 d n) d true (fun x => rorOut x n.val)

/-! ### Loads and stores -/

/-- The 16-bit word of the program's scratch at a byte offset. -/
def State.spWord (s : State) (l a : Nat) : BitVec 16 := BitVec.ofNat 16 (leNat (s.spBytes l a 2))

/-- Words of a load or a store (R90). -/
def eaLen (m : EA) : Nat := match m with | .index _ _ _ _ => 2 | _ => 1

/-- LD (R91, R92). An uncorrectable scratch error, or a parity error in data memory, halts the sequencer (R65, R112).
(DESIGN CHOICE: log 10.) -/
def execLd (l : Fin 128) (d : Fin 16) (ea : EA) (ecc : EccOutcome) (s : State) : Host.Outcome State Fault Refusal :=
  s.onRun l (some (.ld d ea)) (fun p x =>
    let n := eaLen ea
    match seqPlace (s.coupled l.val) (x.ea ea).1.toNat with
    | none => s.trap l p x 1 none
    | some (.data a) =>
      if ecc = .ue then s.memHalt l p x
      else s.setSeq p (((x.ea ea).2.setG d ((s.pav p).dword a)).past n)
    | some (.scratch a) =>
      let s1 := s.scratchEcc (s.spHalf l.val a) (a % 0x200000) ecc
      if ecc = .ue then s1.haltSeq l p x
      else s1.setSeq p (((x.ea ea).2.setG d (s.spWord l.val a)).past n)
    | some (.control k) =>
      let r := s.ctrlRead l.val (x.ea ea).2 k
      s.setSeq p ((r.2.setG d r.1).past n))

/-- ST (R91, R92). A store to scratch replaces part of an 8-byte unit, so an uncorrectable unit halts the sequencer and
is not written (R493). -/
def execSt (l : Fin 128) (d : Fin 16) (ea : EA) (ecc : EccOutcome) (s : State) : Host.Outcome State Fault Refusal :=
  s.onRun l (some (.st d ea)) (fun p x =>
    let n := eaLen ea
    match seqPlace (s.coupled l.val) (x.ea ea).1.toNat with
    | none => s.trap l p x 1 none
    | some (.data a) => s.setPav p { (s.pav p).setDword a (x.g d) with seq := (x.ea ea).2.past n }
    | some (.scratch a) =>
      let s1 := s.scratchEcc (s.spHalf l.val a) (a % 0x200000) ecc
      if ecc = .ue then s1.haltSeq l p x
      else (s1.setSp l.val a (leBytes 2 (x.g d).toNat)).setSeq p ((x.ea ea).2.past n)
    | some (.control k) => s.setSeq p (((x.ea ea).2.ctrlWrite k (x.g d)).past n))

def execAddp (l : Fin 128) (p : Fin 4) (n : BitVec 8) (s : State) : Host.Outcome State Fault Refusal :=
  s.onRun l (some (.addp p n)) (fun q x => s.setSeq q ((x.setPair p (x.pair p + n.signExtend 32)).past 1))
def execAddpr (l : Fin 128) (p : Fin 4) (i : Fin 16) (sx : Bool) (s : State) : Host.Outcome State Fault Refusal :=
  s.onRun l (some (.addpr p i sx)) (fun q x => s.setSeq q
    ((x.setPair p (x.pair p + (if sx then (x.g i).signExtend 32 else (x.g i).zeroExtend 32))).past 1))
def execAddpw (l : Fin 128) (p : Fin 4) (n : BitVec 16) (s : State) : Host.Outcome State Fault Refusal :=
  s.onRun l (some (.addpw p n)) (fun q x => s.setSeq q ((x.setPair p (x.pair p + n.signExtend 32)).past 2))
def execCmpp (l : Fin 128) (p q : Fin 4) (s : State) : Host.Outcome State Fault Refusal :=
  s.onRun l (some (.cmpp p q)) (fun r x => s.setSeq r ((x.flags (sub32Out (x.pair p) (x.pair q))).past 1))

/-! ### Branches -/

def execBcc (l : Fin 128) (cond : Fin 15) (n : BitVec 8) (s : State) : Host.Outcome State Fault Refusal :=
  s.onRun l (some (.bcc cond n)) (fun p x =>
    let y := x.past 1
    s.setSeq p (if x.cond cond.val then { y with pc := y.pc + n.signExtend 16 } else y))
def execJmp (l : Fin 128) (t : BitVec 16) (s : State) : Host.Outcome State Fault Refusal :=
  s.onRun l (some (.jmp t)) (fun p x => s.setSeq p { x with pc := t })
def execCall (l : Fin 128) (t : BitVec 16) (s : State) : Host.Outcome State Fault Refusal :=
  s.onRun l (some (.call t)) (fun p x => s.setSeq p { x.setG 14 (x.pc + 2) with pc := t })
def execJmpr (l : Fin 128) (i : Fin 16) (s : State) : Host.Outcome State Fault Refusal :=
  s.onRun l (some (.jmpr i)) (fun p x => s.setSeq p { x with pc := x.g i })
def execCallr (l : Fin 128) (i : Fin 16) (s : State) : Host.Outcome State Fault Refusal :=
  s.onRun l (some (.callr i)) (fun p x => s.setSeq p { x.setG 14 (x.pc + 1) with pc := x.g i })
def execDbnz (l : Fin 128) (d : Fin 16) (n : BitVec 8) (s : State) : Host.Outcome State Fault Refusal :=
  s.onRun l (some (.dbnz d n)) (fun p x =>
    let v := x.g d - 1
    let y := (x.setG d v).past 1
    s.setSeq p (if v ≠ 0 then { y with pc := y.pc + n.signExtend 16 } else y))

/-! ### ISSUE -/

/-- Reserved fields of words 1 to 7 by class (R98, R99).
(DEDUCED: log 19.) -/
def blkReserved (b : List (BitVec 16)) : Bool :=
  let w := blkWord b
  bitOf (w 0) 0 ||
  match bitsOf (w 0) 12 4 with
  | 0 => bitOf (w 1) 15 || bitOf (w 2) 15 || bitsOf (w 7) 13 2 ≠ 0
  | 1 => bitsOf (w 1) 0 6 ≠ 0 || bitsOf (w 7) 13 2 ≠ 0
  | 2 => bitOf (w 1) 15 || bitsOf (w 1) 0 8 ≠ 0 || w 3 ≠ 0 || w 4 ≠ 0 || w 5 ≠ 0 || w 6 ≠ 0 || bitsOf (w 7) 13 2 ≠ 0
  | 3 => bitsOf (w 7) 13 2 ≠ 0
  | _ => bitsOf (w 7) 0 8 ≠ 0

/-- Is a format code a floating-point format other than an MX code? -/
def isFloat (c : Nat) : Bool := c < 8

/-- The first check of a command block that fails (R100): its TINFO.
(DEDUCED: log 19; DESIGN CHOICE: log 166.) -/
def State.checkBlock (s : State) (l : Nat) (b : List (BitVec 16)) : Option Nat :=
  let w := blkWord b
  let cls := bitsOf (w 0) 12 4
  let op := bitsOf (w 0) 6 6
  let rm := bitsOf (w 0) 3 3
  let sig := bitOf (w 0) 1
  let fa := bitsOf (w 2) 6 4
  let fd := bitsOf (w 2) 2 4
  let ta := bitsOf (w 1) 10 4
  let tb := bitsOf (w 1) 6 4
  let lim := s.spLimit l
  if 4 < cls then some 1
  else if (cls = 0 ∧ 0x27 < op) ∨ (cls = 1 ∧ 1 < op) ∨ (cls = 2 ∧ 3 < op) ∨ (cls = 3 ∧ 1 < op) ∨ (cls = 4 ∧ 0 < op) then
    some 2
  else if 4 < rm ∨ (rm = 4 ∧ ¬ (cls = 0 ∧ op = 0x1F ∧ isFloat fa ∧ isFloat fd ∧ fmtBits fd < fmtBits fa)) then some 3
  else if cls = 0 ∧ ((op = 0x1F ∧ (9 < fa ∨ 9 < fd)) ∨ (op = 0x20 ∧ (fa ≠ 0 ∨ fd < 0xA)) ∨ (op = 0x21 ∧ (fd ≠ 0 ∨ fa < 0xA)))
  then some 4
  else if cls = 1 ∧ op = 0 ∧ tileK ta tb = none then some 4
  else if cls = 0 ∧ ((op = 0x26 ∧ 28 < bitsOf (w 1) 10 5) ∨ (op = 0x27 ∧ 28 < bitsOf (w 1) 5 5)) then some 5
  else if cls = 1 ∧ op = 0 ∧
      (let k := (tileK ta tb).getD 0
       lim < w 2 * 64 + 15 * bitsOf (w 4) 8 8 * 8 + k * fmtBits ta / 8 ∨
       lim < w 3 * 64 + 15 * bitsOf (w 4) 0 8 * 8 + k * fmtBits tb / 8 ∨
       (isMx ta ∧ (lim < w 5 * 64 + 16 ∨ lim < w 6 * 64 + 16))) then some 5
  else if cls = 2 ∧ lim < (w 2 + (if op < 2 then 4 else 16)) * 64 then some 5
  else if cls = 3 ∧ lim < (w 1 + w 2) * 64 then some 5
  else if cls = 3 ∧ (blkAddr b 3 % 64 ≠ 0 ∨ s.region? (blkAddr b 3) (64 * max (w 2) 1) = none) then some 6
  else if blkReserved b then some 7
  else if sig ∧ (cls = 4 ∨ s.present (bitsOf (w 7) 6 7) = false) then some 8
  else if cls = 3 ∧ w 2 = 0 then some 9
  else if cls = 4 ∧ (bitsOf (w 7) 8 8 = 0 ∨ (4 ≤ bitsOf (w 7) 8 8 ∧ bitsOf (w 7) 8 8 ≤ 0xF)) then some 10
  else none

/-- The 8-word block at a data-memory address. -/
def Pav.block (x : Pav) (a : Nat) : List (BitVec 16) := (List.range 8).map (fun i => x.dword (a + i))

/-- Queue a block in an engine, and go on (R97).
(DESIGN CHOICE: log 28.) -/
def State.enqueue (s : State) (p : Fin 144) (x : Seq) (q : Fin 144) (k : Fin 8) (b : List (BitVec 16)) (c : Fin 16) : State :=
  let g := s.engOf q k
  (s.setEng q k { g with q := g.q ++ [{ blk := b, ctr := c, ran := false, ids := [] }] }).setSeq p { x.past 1 with mode := .running }

/-- ISSUE (R97, R98): its traps in the order of R97, then the check of the block, then the queue, with a stall while it
holds 4 commands. A parity error of a word of the block halts the sequencer (R112).
(DESIGN CHOICE: log 10, 169.) -/
def execIssue (l : Fin 128) (e i c : Fin 16) (parity : Bool) (s : State) : Host.Outcome State Fault Refusal :=
  s.onRun l (some (.issue e i c)) (fun p x =>
    let a := (x.g i).toNat
    if a % 8 ≠ 0 ∨ 0x7FF8 < a then s.trap l p x 1 none
    else match s.engAt l e with
      | none => s.trap l p x 2 none
      | some (q, k) =>
        let b := (s.pav p).block a
        if parity then s.memHalt l p x
        else match s.checkBlock l.val b with
        | some t => s.trap l p x 3 (some t)
        | none =>
          if 4 ≤ (s.engOf q k).q.length then s.setSeq p { x with mode := .issueStall e i c }
          else s.enqueue p x q k b c)

/-- A stalled ISSUE completes when its queue has room (R97). -/
def execIssueResume (l : Fin 128) (s : State) : Host.Outcome State Fault Refusal :=
  match s.seqAt l with
  | none => .next s
  | some p =>
    let x := s.seqOf p
    match x.mode with
    | .issueStall e i c =>
      match s.engAt l e with
      | none => .next s
      | some (q, k) =>
        if (s.engOf q k).q.length < 4 then .next (s.enqueue p x q k ((s.pav p).block (x.g i).toNat) c) else .next s
    | _ => .next s

/-! ### Waits and signals -/

def execWaite (l : Fin 128) (s : State) : Host.Outcome State Fault Refusal :=
  s.onRun l (some (.waite)) (fun p x => (s.setSeq p { x with mode := .waitE }).met l.val)
def execWaitc (l : Fin 128) (c t : Fin 16) (consume : Bool) (s : State) : Host.Outcome State Fault Refusal :=
  s.onRun l (some (.waitc c t consume)) (fun p x => s.setSeq p { x with mode := .waitC c t consume s.now })
def execWaits (l : Fin 128) (m : Fin 64) (t : Fin 16) (consume : Bool) (s : State) : Host.Outcome State Fault Refusal :=
  s.onRun l (some (.waits m t consume)) (fun p x => s.setSeq p { x with mode := .waitS m t consume s.now })
def execWaitidle (l : Fin 128) (s : State) : Host.Outcome State Fault Refusal :=
  s.onRun l (some (.waitidle)) (fun p x => s.setSeq p { x with mode := .waitIdle s.now })
/-- (DESIGN CHOICE: log 168.) -/
def execFence (l : Fin 128) (s : State) : Host.Outcome State Fault Refusal :=
  s.onRun l (some (.fence)) (fun p x => s.setSeq p { x with mode := .fence ((s.pav p).writes.map (fun w => w.id)) s.now })

/-- Does the condition of a pending wait hold (R105)? A fence waits for the writes issued before it (R93). -/
def State.waitHolds (s : State) (l : Nat) (p : Fin 144) (x : Seq) : Bool :=
  match x.mode with
  | .waitC c t _ _ => (x.g t).toNat ≤ x.ctr[c].toNat
  | .waitS m t _ _ => (x.g t).toNat ≤ (s.pav p).sems[m].toNat
  | .waitIdle _ => s.engBusy l = 0
  | .fence ids _ => (s.pav p).writes.all (fun w => !ids.contains w.id)
  | _ => false

/-- A pending wait whose condition holds is over; a consuming one subtracts its threshold (R69, R105). -/
def execWaitComplete (l : Fin 128) (s : State) : Host.Outcome State Fault Refusal :=
  match s.seqAt l with
  | none => .next s
  | some p =>
    let x := s.seqOf p
    if s.waitHolds l.val p x then
      match x.mode with
      | .waitC c t k _ =>
        let y := if k then { x with ctr := x.ctr.set c (x.ctr[c] - x.g t) } else x
        .next (s.setSeq p { y.past 1 with mode := .running })
      | .waitS m t k _ =>
        let y := s.pav p
        let sems := if k then y.sems.set m (y.sems[m] - (x.g t).zeroExtend 32) else y.sems
        .next (s.setPav p { y with sems := sems, seq := { x.past 2 with mode := .running } })
      | _ => .next (s.setSeq p { x.past 1 with mode := .running })
    else .next s

/-- The time at which a wait with a timeout began (R105). -/
def SeqMode.since (m : SeqMode) : Option Nat :=
  match m with
  | .waitC _ _ _ n | .waitS _ _ _ n | .waitIdle n | .fence _ n => some n
  | _ => none

/-- A wait still pending after WTO × 1,024 core cycles (512 ticks each) traps with cause WAIT (R105). -/
def execWaitTimeout (l : Fin 128) (s : State) : Host.Outcome State Fault Refusal :=
  match s.seqAt l with
  | none => .next s
  | some p =>
    let x := s.seqOf p
    match x.mode.since with
    | none => .next s
    | some since =>
      if x.wto = 0 ∨ s.waitHolds l.val p x then .next s
      else .next ((s.atLeast (since + x.wto.toNat * 512)).trap l p x 4 none)

/-- SIGNAL (R106): an invalid target traps with cause SIGNAL; otherwise the NI holds the ADD. -/
def execSignal (l : Fin 128) (t a : Fin 16) (all : Bool) (s : State) : Host.Outcome State Fault Refusal :=
  s.onRun l (some (.signal t a all)) (fun p x =>
    let g := (x.g t).toNat
    if 0x2000 ≤ g ∨ s.present (bitsOf g 6 7) = false then s.trap l p x 5 none
    else s.setPav p
      { (s.pav p).holdAdd (Fin.ofNat 128 (bitsOf g 6 7)) (Fin.ofNat 64 g) (x.g a) all with seq := x.past 1 })

/-- The oldest held ADD leaves the NI once every write it waits for is acknowledged (R68, R106). -/
def execSignalSend (l : Fin 128) (s : State) : Host.Outcome State Fault Refusal :=
  match s.phys? l.val with
  | none => .next s
  | some p =>
    let y := s.pav p
    match y.held with
    | [] => .next s
    | h :: r =>
      if y.writes.any (fun w => h.waits.contains w.id) then .next s
      else .next (s.setPav p { y with held := r, flight := y.flight ++ [h] })

/-- The management processor releases a held sequencer with a loaded program into WAITE (R113). -/
def execSequencerRelease (l : Fin 128) (s : State) : Host.Outcome State Fault Refusal :=
  match s.phys? l.val with
  | none => .next s
  | some p =>
    let x := s.seqOf p
    if x.mode = .held ∧ x.loaded ∧ (s.pav p).refusing = false then .next (s.setSeq p { x with mode := .waitE }) else .next s

/-- The words at the PC are a reserved encoding: it traps with cause RESERVED (R96). With `parity`, the fetch finds a parity error in
instruction memory, whatever the words are, and the sequencer halts (R112).
(DESIGN CHOICE: log 10.) -/
def execReservedInstruction (l : Fin 128) (parity : Bool) (s : State) : Host.Outcome State Fault Refusal :=
  if parity then
    match s.seqAt l with
    | none => .next s
    | some p => if (s.seqOf p).mode = .running then .next (s.memHalt l p (s.seqOf p)) else .next s
  else s.onRun l none (fun p x => s.trap l p x 0 none)

end Sys2Proof.Machine
end

