-- ==== Sys2Proof/Machine/Sha.lean ====
section
/-! DEFINITION. SHA-256 (FIPS 180-4), HMAC-SHA256 (FIPS 198-1) and HKDF-SHA256 (RFC 5869, no salt), as R129, R263, R404
and R408 use them. -/

namespace Sys2Proof.Machine

open Sys2Proof

/-- The words of a 256-bit value, the most significant first. -/
def wordsOf (v : BitVec 256) : List (BitVec 32) :=
  (List.range 8).map (fun i => (v >>> (224 - 32 * i)).truncate 32)

/-- The 64 round constants (the fractions of the cube roots of the first 64 primes), eight to a 256-bit row. -/
def shaK : List (BitVec 32) :=
  wordsOf 0x428a2f9871374491b5c0fbcfe9b5dba53956c25b59f111f1923f82a4ab1c5ed5 ++
  wordsOf 0xd807aa9812835b01243185be550c7dc372be5d7480deb1fe9bdc06a7c19bf174 ++
  wordsOf 0xe49b69c1efbe47860fc19dc6240ca1cc2de92c6f4a7484aa5cb0a9dc76f988da ++
  wordsOf 0x983e5152a831c66db00327c8bf597fc7c6e00bf3d5a7914706ca635114292967 ++
  wordsOf 0x27b70a852e1b21384d2c6dfc53380d13650a7354766a0abb81c2c92e92722c85 ++
  wordsOf 0xa2bfe8a1a81a664bc24b8b70c76c51a3d192e819d6990624f40e3585106aa070 ++
  wordsOf 0x19a4c1161e376c082748774c34b0bcb5391c0cb34ed8aa4a5b9cca4f682e6ff3 ++
  wordsOf 0x748f82ee78a5636f84c878148cc7020890befffaa4506cebbef9a3f7c67178f2

/-- The initial hash value (the fractions of the square roots of the first eight primes), its first word on top. -/
def shaInit : BitVec 256 := 0x6a09e667bb67ae853c6ef372a54ff53a510e527f9b05688c1f83d9ab5be0cd19

/-- One round on the eight working words, packed with the first on top: every word moves one place down, the fifth
gains the first sum on its way and the top takes both sums. -/
def shaRound (s : BitVec 256) (kw : BitVec 32) : BitVec 256 :=
  let wd (i : Nat) : BitVec 32 := (s >>> (32 * i)).truncate 32
  let big (x : BitVec 32) (p q r : Nat) := x.rotateRight p ^^^ (x.rotateRight q ^^^ x.rotateRight r)
  let choice := wd 1 ^^^ (wd 3 &&& (wd 2 ^^^ wd 1))
  let most := (wd 7 &&& (wd 6 ||| wd 5)) ||| (wd 6 &&& wd 5)
  let first := kw + choice + big (wd 3) 6 11 25 + wd 0
  let top := first + most + big (wd 7) 2 13 22
  let moved := (s >>> 32) - ((wd 4).zeroExtend 256 <<< 96) + ((wd 4 + first).zeroExtend 256 <<< 96)
  moved ||| (top.zeroExtend 256 <<< 224)

/-- The message schedule, from a window of the latest sixteen words. -/
def shaSched : Nat → List (BitVec 32) → List (BitVec 32)
  | 0, _ => []
  | n + 1, w =>
    let x := w.headD 0
    let w1 := w.getD 1 0
    let w14 := w.getD 14 0
    let g0 := w1.rotateRight 7 ^^^ w1.rotateRight 18 ^^^ (w1 >>> 3)
    let g1 := w14.rotateRight 17 ^^^ w14.rotateRight 19 ^^^ (w14 >>> 10)
    x :: shaSched n (w.tail ++ [g1 + w.getD 9 0 + g0 + x])

/-- A number's `n` low bytes, most significant first. -/
def beBytes (n v : Nat) : List Byte := (leBytes n v).reverse

/-- The number that bytes spell, the first the most significant. -/
def beNat (b : List Byte) : Nat := leNat b.reverse

/-- Sixteen big-endian words of a block. -/
def shaWords (b : List Byte) : List (BitVec 32) :=
  (List.range 16).map (fun i => BitVec.ofNat 32 (beNat ((b.drop (4 * i)).take 4)))

/-- One block: 64 rounds, then the words of before and after added word by word. -/
def shaBlock (s : BitVec 256) (b : List Byte) : BitVec 256 :=
  let kws := List.zipWith (· + ·) shaK (shaSched 64 (shaWords b))
  let t := kws.foldl shaRound s
  (List.zipWith (· + ·) (wordsOf s) (wordsOf t)).foldl (fun acc x => acc <<< 32 ||| x.zeroExtend 256) 0

/-- `n` blocks. -/
def shaGo : Nat → BitVec 256 → List Byte → BitVec 256
  | 0, s, _ => s
  | n + 1, s, b => shaGo n (shaBlock s (b.take 64)) (b.drop 64)

/-- The SHA-256 digest, 32 bytes. -/
def sha256 (b : List Byte) : List Byte :=
  let m := b ++ [0x80] ++ List.replicate ((119 - b.length % 64) % 64) 0 ++ beBytes 8 (8 * b.length)
  beBytes 32 (shaGo (m.length / 64) shaInit m).toNat

/-- HMAC-SHA256. -/
def hmacSha256 (key msg : List Byte) : List Byte :=
  let k := if 64 < key.length then sha256 key else key
  let k := k ++ List.replicate (64 - k.length) 0
  sha256 (k.map (fun x => x ^^^ 0x5C) ++ sha256 (k.map (fun x => x ^^^ 0x36) ++ msg))

/-- The blocks of HKDF-Expand, from the block before. -/
def hkdfBlocks (prk info : List Byte) : Nat → Nat → List Byte → List Byte
  | 0, _, _ => []
  | n + 1, i, prev =>
    let t := hmacSha256 prk (prev ++ info ++ [BitVec.ofNat 8 i])
    t ++ hkdfBlocks prk info n (i + 1) t

/-- HKDF-SHA256 with no salt, `len` bytes. -/
def hkdf (secret info : List Byte) (len : Nat) : List Byte :=
  (hkdfBlocks (hmacSha256 (List.replicate 32 0) secret) info ((len + 31) / 32) 1 []).take len

/-- The bytes of a text in ASCII. -/
def ascii (t : String) : List Byte := t.toList.map (fun c => BitVec.ofNat 8 c.toNat)

end Sys2Proof.Machine
end

