-- ==== Sys2Proof/Machine/Aes.lean ====
section
/-! DEFINITION. The block operations of the cipher engine and the modes composed of them (R392, R399): AES with a 128-bit
or 256-bit key (FIPS 197), CTR (NIST SP 800-38A), GCM and GHASH (SP 800-38D), POLYVAL (RFC 8452), XTS (IEEE 1619) and the key
unwrap of RFC 3394. -/

namespace Sys2Proof.Machine

open Sys2Proof

/-! ### AES -/

/-- Multiplication by x in GF(2^8). -/
def gfDouble (a : Byte) : Byte := (a <<< 1) ^^^ (if a.msb then 0x1B else 0)

/-- The product in GF(2^8) over the `n` low bits of `b`. -/
def gfMulGo : Nat → Byte → Byte → Byte
  | 0, _, _ => 0
  | n + 1, a, b => (if b.toNat % 2 = 1 then a else 0) ^^^ gfMulGo n (gfDouble a) (b >>> 1)

/-- The product in GF(2^8). -/
def gfMul (a b : Byte) : Byte := gfMulGo 8 a b

/-- The square `n` times over. -/
def gfSquares : Nat → Byte → Byte
  | 0, a => a
  | n + 1, a => gfSquares n (gfMul a a)

/-- The inverse in GF(2^8), a^254; 0 for 0. -/
def gfInv (a : Byte) : Byte := (List.range 7).foldl (fun r i => gfMul r (gfSquares (i + 1) a)) 1

/-- SubBytes of one byte. -/
def aesSubOf (a : Byte) : Byte :=
  let b := gfInv a
  b ^^^ b.rotateLeft 1 ^^^ b.rotateLeft 2 ^^^ b.rotateLeft 3 ^^^ b.rotateLeft 4 ^^^ 0x63

/-- The substitution table and its inverse. -/
def aesBox : Array Byte := (Array.range 256).map (fun i => aesSubOf (BitVec.ofNat 8 i))
def aesInvBox : Array Byte :=
  (List.range 256).foldl (fun t i => t.set! (aesBox.getD i 0).toNat (BitVec.ofNat 8 i)) (Array.replicate 256 0)

def aesSub (a : Byte) : Byte := aesBox.getD a.toNat 0
def aesInvSub (a : Byte) : Byte := aesInvBox.getD a.toNat 0

/-- Byte-wise exclusive or, to the length of the shorter. -/
def xorBytes (a b : List Byte) : List Byte := List.zipWith (fun x y => x ^^^ y) a b

/-- `n` more words of the key schedule; `w` holds those so far, latest first, `nk` words of key, `i` the next index. -/
def aesWords (nk : Nat) : Nat → Nat → Byte → List (List Byte) → List (List Byte)
  | 0, _, _, w => w.reverse
  | n + 1, i, rc, w =>
    let t := w.headD []
    let first := decide (i % nk = 0)
    let t := if first then xorBytes ((t.drop 1 ++ t.take 1).map aesSub) [rc, 0, 0, 0]
      else if nk > 6 ∧ i % nk = 4 then t.map aesSub else t
    aesWords nk n (i + 1) (if first then gfDouble rc else rc) (xorBytes (w.getD (nk - 1) []) t :: w)

/-- Rounds of a key: 10 for 128 bits, 14 for 256. -/
def aesRounds (key : List Byte) : Nat := key.length / 4 + 6

/-- The round keys, 16 bytes each. -/
def aesKeys (key : List Byte) : List (List Byte) :=
  let nk := key.length / 4
  let w0 := (List.range nk).map (fun i => (key.drop (4 * i)).take 4)
  let w := aesWords nk (4 * (aesRounds key + 1) - nk) nk 1 w0.reverse
  (List.range (aesRounds key + 1)).map (fun r => ((w.drop (4 * r)).take 4).flatten)

/-- ShiftRows and its inverse, on 16 bytes in column order. -/
def aesShift (b : List Byte) : List Byte := (List.range 16).map (fun i => b.getD ((i + 4 * (i % 4)) % 16) 0)
def aesUnshift (b : List Byte) : List Byte := (List.range 16).map (fun i => b.getD ((i + 12 * (i % 4)) % 16) 0)

/-- One byte of a column times a circulant row of coefficients. -/
def aesMixByte (m : List Byte) (b : List Byte) (i : Nat) : Byte :=
  (List.range 4).foldl (fun r j => r ^^^ gfMul (m.getD ((j + 4 - i % 4) % 4) 0) (b.getD (i / 4 * 4 + j) 0)) 0

/-- MixColumns and its inverse. -/
def aesMix (b : List Byte) : List Byte := (List.range 16).map (aesMixByte [2, 3, 1, 1] b)
def aesUnmix (b : List Byte) : List Byte := (List.range 16).map (aesMixByte [14, 11, 13, 9] b)

/-- The rounds of encryption, and of decryption with the round keys reversed. -/
def aesEncGo : List (List Byte) → List Byte → List Byte
  | [], b => b
  | [k], b => xorBytes (aesShift (b.map aesSub)) k
  | k :: r, b => aesEncGo r (xorBytes (aesMix (aesShift (b.map aesSub))) k)
def aesDecGo : List (List Byte) → List Byte → List Byte
  | [], b => b
  | [k], b => xorBytes ((aesUnshift b).map aesInvSub) k
  | k :: r, b => aesDecGo r (aesUnmix (xorBytes ((aesUnshift b).map aesInvSub) k))

/-- One block encrypted, or decrypted, with expanded round keys. -/
def aesEncK (ks : List (List Byte)) (b : List Byte) : List Byte :=
  match ks with
  | [] => b
  | k :: r => aesEncGo r (xorBytes b k)
def aesDecK (ks : List (List Byte)) (b : List Byte) : List Byte :=
  match ks.reverse with
  | [] => b
  | k :: r => aesDecGo r (xorBytes b k)

/-- One block encrypted, or decrypted, with a key. -/
def aesEnc (key b : List Byte) : List Byte := aesEncK (aesKeys key) b
def aesDec (key b : List Byte) : List Byte := aesDecK (aesKeys key) b

/-- `n` blocks, each by itself. -/
def eachBlock (f : List Byte → List Byte) : Nat → List Byte → List Byte
  | 0, _ => []
  | n + 1, b => f (b.take 16) ++ eachBlock f n (b.drop 16)

/-- Raw block operations over whole blocks (R399). -/
def aesEncAll (key b : List Byte) : List Byte := let ks := aesKeys key; eachBlock (aesEncK ks) (b.length / 16) b
def aesDecAll (key b : List Byte) : List Byte := let ks := aesKeys key; eachBlock (aesDecK ks) (b.length / 16) b

/-! ### CTR -/

/-- The next counter block: its low 32 bits, big-endian, plus 1 modulo 2^32. -/
def ctrNext (c : List Byte) : List Byte := c.take 12 ++ beBytes 4 ((beNat (c.drop 12) + 1) % 2 ^ 32)

/-- `n` blocks of CTR from a counter block; the last may be partial. -/
def ctrGo (ks : List (List Byte)) : Nat → List Byte → List Byte → List Byte
  | 0, _, _ => []
  | n + 1, c, b => xorBytes (b.take 16) (aesEncK ks c) ++ ctrGo ks n (ctrNext c) (b.drop 16)

/-- CTR over bytes. -/
def aesCtr (key iv b : List Byte) : List Byte := ctrGo (aesKeys key) ((b.length + 15) / 16) iv b

/-! ### GHASH and POLYVAL -/

/-- The product in GF(2^128) of SP 800-38D, over `n` bits of x from bit 128 − `n`, the first bit the most significant. -/
def ghashMulGo (x : BitVec 128) : Nat → BitVec 128 → BitVec 128 → BitVec 128
  | 0, z, _ => z
  | n + 1, z, v =>
    ghashMulGo x n (if x.getLsbD n then z ^^^ v else z)
      ((v >>> 1) ^^^ (if v.getLsbD 0 then 0xE1000000000000000000000000000000#128 else 0))

/-- The product in the GHASH field. -/
def ghashMul (x y : BitVec 128) : BitVec 128 := ghashMulGo x 128 0 y

/-- A block as 128 bits, the first byte the most significant. -/
def block128 (b : List Byte) : BitVec 128 := BitVec.ofNat 128 (beNat b)
def unblock128 (x : BitVec 128) : List Byte := beBytes 16 x.toNat

/-- GHASH of `n` blocks from an accumulator. -/
def ghashGo (h : BitVec 128) : Nat → BitVec 128 → List Byte → BitVec 128
  | 0, a, _ => a
  | n + 1, a, b => ghashGo h n (ghashMul (a ^^^ block128 (b.take 16)) h) (b.drop 16)

/-- GHASH over whole blocks with the hash key `h` from the accumulator `a`, as bytes. -/
def ghash (h a b : List Byte) : List Byte := unblock128 (ghashGo (block128 h) (b.length / 16) (block128 a) b)

/-- Multiplication by x in the GHASH field. -/
def ghashX (v : BitVec 128) : BitVec 128 :=
  (v >>> 1) ^^^ (if v.getLsbD 0 then 0xE1000000000000000000000000000000#128 else 0)

/-- POLYVAL over whole blocks with the hash key `h` from the accumulator `a`, as bytes (RFC 8452, Appendix A). -/
def polyval (h a b : List Byte) : List Byte :=
  (unblock128 (ghashGo (ghashX (block128 h.reverse)) (b.length / 16) (block128 a.reverse)
    (eachBlock List.reverse (b.length / 16) b))).reverse

/-! ### GCM -/

/-- Bytes padded with zeros to whole blocks. -/
def pad16 (b : List Byte) : List Byte := b ++ List.replicate ((16 - b.length % 16) % 16) 0

/-- The first counter block J0 of a 96-bit IV. -/
def gcmJ0 (iv : List Byte) : List Byte := iv.take 12 ++ [0, 0, 0, 1]

/-- The GCM tag of additional data and ciphertext. -/
def gcmTag (key iv aad ct : List Byte) : List Byte :=
  let h := aesEnc key (List.replicate 16 0)
  xorBytes (aesEnc key (gcmJ0 iv))
    (ghash h (List.replicate 16 0) (pad16 aad ++ pad16 ct ++ beBytes 8 (8 * aad.length) ++ beBytes 8 (8 * ct.length)))

/-- The GCM keystream applied to a text. -/
def gcmText (key iv b : List Byte) : List Byte := aesCtr key (ctrNext (gcmJ0 iv)) b

/-! ### XTS -/

/-- The next tweak: times the primitive element, the first byte the least significant. -/
def xtsNext (t : List Byte) : List Byte :=
  let v := 2 * leNat t
  let w := v % 2 ^ 128
  leBytes 16 (if v = w then w else Nat.xor w 0x87)

/-- `n` blocks of XTS with a block operation from a tweak. -/
def xtsGo (f : List Byte → List Byte) : Nat → List Byte → List Byte → List Byte
  | 0, _, _ => []
  | n + 1, t, b => xorBytes (f (xorBytes (b.take 16) t)) t ++ xtsGo f n (xtsNext t) (b.drop 16)

/-- XTS over whole blocks: `k1` the data key, `k2` the tweak key, `iv` the data-unit number. -/
def xtsEnc (k1 k2 iv b : List Byte) : List Byte :=
  let ks := aesKeys k1
  xtsGo (aesEncK ks) (b.length / 16) (aesEnc k2 iv) b
def xtsDec (k1 k2 iv b : List Byte) : List Byte :=
  let ks := aesKeys k1
  xtsGo (aesDecK ks) (b.length / 16) (aesEnc k2 iv) b

/-! ### RFC 3394 -/

/-- One step of the unwrap: step number `t` on the register that `i` names, from 0. -/
def unwrapStep (ks : List (List Byte)) (x : List Byte × List (List Byte)) (t i : Nat) : List Byte × List (List Byte) :=
  let b := aesDecK ks (xorBytes x.1 (beBytes 8 t) ++ x.2.getD i [])
  (b.take 8, x.2.set i (b.drop 8))

/-- The key that an RFC 3394 wrapping holds; none where its integrity check does not verify. -/
def keyUnwrap (kek b : List Byte) : Option (List Byte) :=
  let n := b.length / 8 - 1
  let r := (List.range n).map (fun i => (b.drop (8 * (i + 1))).take 8)
  let ks := aesKeys kek
  let x := (List.range (6 * n)).reverse.foldl (fun x t => unwrapStep ks x (t + 1) (t % n)) (b.take 8, r)
  if x.1 = List.replicate 8 0xA6 then some x.2.flatten else none

end Sys2Proof.Machine
end

