-- ==== Sys2Proof/Machine/Mem.lean ====
section
/-! DEFINITION. Access to the populated regions of R19: which status an access meets, and what ECC leaves (R65, R216 to
R223, R459, R493). -/

namespace Sys2Proof.Machine

open Sys2Proof

/-- Channel group of a GDDR7 address (R215). -/
def gddrGroup (a : Nat) : Nat := a / 4096 % 12

/-- Offset of a GDDR7 address within its channel group (R215). -/
def gddrOffset (a : Nat) : Nat := a / 4096 / 12 * 4096 + a % 4096

/-- An uncorrectable error of GDDR7 (R219, R459): counted, flagged, its line recorded, an entry and an event.
(DEDUCED: log 59.) -/
def State.gddrUe (s : State) (a : Nat) : State :=
  let l := a / 64 * 64
  ((((s.count (fMEM_UE_COUNT (gddrGroup a)) 1).raise fMEM_ERR_UE).setFld fMEM_UE_ADDR_ADDR l).logUe blkMEM l).event0 blkMEM
    0x0202 l .dataError

/-- What ECC finds on an access at `a` (R65, R219, R222, R461): corrected errors are counted where they are found, an
uncorrectable one is flagged and logged.
(DESIGN CHOICE: log 57.) -/
def State.eccAt (s : State) (a : Nat) (o : EccOutcome) : State :=
  match o, s.regionAt a with
  | .ok, _ => s
  | .ce, some (.gddr, _) => ((s.count (fMEM_CE_COUNT (gddrGroup a)) 1).raise fMEM_ERR_CE).noteCe 1
  | .ue, some (.gddr, _) => s.gddrUe a
  | x, some (.scratch l, b, _) => s.scratchEcc l (a - b) x
  | .ue, some (.cxl p, _) => ((s.count (fCXM_POISON_COUNT p) 1).raise fCXM_ERR_POISON).logUe blkCXM (a / 64 * 64)
  | _, _ => s

/-- Does a write of `n` bytes at `a` replace every byte of each protected unit of `u` bytes (R493)? -/
def wholeLines (a n u : Nat) : Bool := a % u = 0 && n % u = 0

/-- Serve a request to GDDR7 or CXL (R216, R219, R222, R223, R493): a fifth CRC failure and an uncorrectable error, in the memory or
in a controller buffer, fail it, and a write that must read its unit is then not performed; the response of a write that copy-before-write holds waits for it (R256); sown work that fails faults the epoch.
(DESIGN CHOICE: log 57; DEDUCED: log 62.) -/
def State.serve (s : State) (q : MemReq) : State :=
  let n := match q.wr with | some b => b.length | none => q.len
  let fail (t : State) (st : Status) : State :=
    let t1 := t.emit (.memRsp st [])
    if q.sown then t1.fault 5 else t1
  match s.accessSt q.addr n with
  | .ok =>
    let g := gddrGroup q.addr
    let isG := q.addr < s.gddrBytes
    let s1 := if isG then s.count (fMEM_CRC_RETRY_COUNT g) (min q.crcFails 4) else s
    if q.bufUe then fail (if isG then s1.gddrUe q.addr else s1.logUe blkCXM (q.addr / 64 * 64)) .dataError
    else if isG ∧ 5 ≤ q.crcFails then
      fail (((s1.raise fMEM_ERR_CRC_FAIL).setFld fMEM_UE_ADDR_ADDR (q.addr / 64 * 64)).logUe blkMEM (q.addr / 64 * 64)) .dataError
    else
      let reads := q.wr = none || !wholeLines q.addr n 64
      let s2 := if reads then s1.eccAt q.addr q.ecc else s1
      if reads ∧ q.ecc = .ue then fail s2 .dataError
      else match q.wr with
        | some b => if s2.writeHeld q.addr b.length then s2.devWrite q.addr b q.sown .rsp
            else (s2.devWrite q.addr b q.sown).emit (.memRsp .ok [])
        | none => s2.emit (.memRsp .ok (s2.bytes q.addr q.len))
  | st => fail s st

/-- A GDDR7 request (R216).
(DESIGN CHOICE: log 57.) -/
def execMemRequest (q : MemReq) (s : State) : Host.Outcome State Fault Refusal :=
  if s.gddrBytes ≤ q.addr then .next (s.emit (.memRsp .invalidField [])) else .next (s.serve q)

/-- The 64-byte CXL requests of a partition's command work that are outstanding: when each ends, earliest first (R223).
(DEDUCED: log 62.) -/
def State.cxlOut (s : State) (p : Fin 65) : List Nat :=
  sortBy (fun a b => decide (a ≤ b)) ((s.gmem.cxl.filter (fun e => e.1 = p.val && s.now < e.2)).map Prod.snd)

/-- Is a partition at its limit of CXL requests (R23, R223)? -/
def State.cxlFull (s : State) (p : Fin 65) : Bool :=
  s.fld (fCXM_CREDIT_CREDITS p.val) ≠ 0 && decide (s.fld (fCXM_CREDIT_CREDITS p.val) ≤ (s.cxlOut p).length)

/-- Command work of `p` issues the 64-byte requests of `n` bytes at `a`, outstanding for `t` ticks: it waits while the partition is
at its limit, and takes no more than the limit.
(DEDUCED: log 62.) -/
def State.cxlIssue (s : State) (p : Fin 65) (a n t : Nat) : State :=
  let lim := s.fld (fCXM_CREDIT_CREDITS p.val)
  let want := min lim ((a + max n 1 - 1) / 64 - a / 64 + 1)
  let out := s.cxlOut p
  let s1 := if out.length + want ≤ lim then s else s.atLeast (out.getD (out.length + want - lim - 1) s.now)
  let l := s1.gmem.cxl.filter (fun e => decide (s1.now < e.2)) ++ List.replicate want (p.val, s1.now + t)
  { s1 with gmem := { s1.gmem with cxl := l } }

/-- A CXL request (R223): command work of a partition whose limit is 0 ends INVALID_STATE; other command work keeps to the limit.
(DESIGN CHOICE: log 57.) -/
def execCxlRequest (q : MemReq) (s : State) : Host.Outcome State Fault Refusal :=
  match s.regionAt q.addr, q.part with
  | some (.cxl _, _), some p =>
    if q.sown = false ∧ s.fld (fCXM_CREDIT_CREDITS p.val) = 0 then .next (s.emit (.memRsp .invalidState []))
    else if q.sown then .next (s.serve q)
    else .next ((s.cxlIssue p q.addr (match q.wr with | some b => b.length | none => q.len) q.ticks).serve q)
  | some (.cxl _, _), none => .next (s.serve q)
  | _, _ => .next (s.emit (.memRsp .invalidField []))

/-! ### GDDR7 training, refresh, scrub -/

/-- Begin a training (R218): a fast start may follow when a record is valid and FORCE_FULL was 0.
(DEDUCED: log 61.) -/
def State.beginTraining (s : State) : State :=
  { s with gmem := { s.gmem with training := some (s.gmem.saved.isSome && !s.gmem.force, s.now), force := false } }

/-- Is a training of devices with these identifiers and this temperature a fast start (R218): the identifiers are those of the
record, and the temperature is no more than 15 °C from the saved one?
(DEDUCED: log 61.) -/
def State.fastStart (s : State) (may : Bool) (x : GddrX) : Bool :=
  may && (match s.gmem.saved with | none => false | some (i, c) => i = x.ident && decide ((x.celsius - c).natAbs ≤ 15))

/-- A training ends. A fast start whose check pass fails falls back to full training; a full training that fails leaves
READY at 0 (R218). A clamshell population that the SKU record does not allow fails it (R406). -/
def execGddr7TrainDone (x : GddrX) (s : State) : Host.Outcome State Fault Refusal :=
  match s.gmem.training with
  | none => .next s
  | some (may, _) =>
    let fast := s.fastStart may x
    if x.ok ∧ (x.clamshell = false ∨ bitOf (s.skuField 12 2) 12) then
      let s1 : State := { s with gmem := { s.gmem with training := none, ident := x.ident, temps := Vector.replicate 12 x.celsius } }
      .next (s1 |>.setFld fMEM_CFG_RATE 36 |>.setFld fMEM_CFG_DEVICES (if x.clamshell then 48 else 24)
        |>.setFld fMEM_CFG_CLAMSHELL (b2n x.clamshell) |>.setFld fMEM_STATUS_FAST (b2n fast)
        |>.setFld fMEM_STATUS_HOT (b2n (85 < x.celsius)) |>.raise fMEM_STATUS_READY)
    else if fast then .next { s with gmem := { s.gmem with training := some (false, s.now) } }
    else .next { s with gmem := { s.gmem with training := none } }

/-- A write of MEM_TRAIN_CTRL (R218, R242): FORCE_FULL, and SAVE, which stores the settings of a trained memory.
(DEDUCED: log 61.) -/
def State.memTrainWrite (s : State) (v : BitVec 32) : State :=
  if bitsOf v.toNat 16 16 ≠ 0xA55A then s else
  let s1 := s.setFld fMEM_TRAIN_CTRL_FORCE_FULL (b2n (bitOf v.toNat 0))
  if bitOf v.toNat 1 ∧ s.flag fMEM_STATUS_READY then
    { s1 with gmem := { s1.gmem with saved := some (s.gmem.ident, s.gmem.temps[0]) } }
  else s1

/-- (DEDUCED: log 61.) -/
def execMemTrainSave (v : BitVec 32) (s : State) : Host.Outcome State Fault Refusal := .next (s.memTrainWrite v)

/-- A refresh interval of a group expires; the devices' temperature sets HOT, which halves the interval (R217, R242).
(DEDUCED: log 60.) -/
def execGddr7Refresh (g : Fin 12) (celsius : Int) (s : State) : Host.Outcome State Fault Refusal :=
  if s.flag fMEM_STATUS_READY then
    let t := s.gmem.temps.set g celsius
    .next (({ s with gmem := { s.gmem with temps := t } } : State).setFld fMEM_STATUS_HOT (b2n (t.toList.any (fun c => 85 < c))))
  else .next s

/-- Timing tracking of a group (R217): it re-centres eyes and levels, which no state of this model holds.
(DEDUCED: log 60.) -/
def execGddr7Tracking (_g : Fin 12) (s : State) : Host.Outcome State Fault Refusal := .next s

/-- Patrol scrub reads a line (R217, R459): a corrected error is counted and written back, an uncorrectable one is recorded
and fails nothing. -/
def execPatrolScrub (addr : BitVec 64) (o : EccOutcome) (s : State) : Host.Outcome State Fault Refusal :=
  if addr.toNat < s.gddrBytes ∧ s.flag fMEM_STATUS_READY then .next (s.eccAt addr.toNat o) else .next s

/-! ### The CXL ports -/

/-- Set the state of a CXL port, whose change drives its event source (R434).
(DEDUCED: log 138.) -/
def State.setCxl (s : State) (n st : Nat) : State := (s.setFld (fCXM_PORT_STATUS_STATE n) st).pulse (72 + n)

/-- A port that trains reaches ACTIVE, with its populated range fixed, or FAILED (R221). -/
def execCxlPortActive (n : Fin 2) (x : CxlX) (s : State) : Host.Outcome State Fault Refusal :=
  let st := s.fld (fCXM_PORT_STATUS_STATE n.val)
  if st ≠ 1 ∧ st ≠ 2 then .next s
  else if x.trained ∧ x.type3 then
    .next (((s.setFld (fCXM_PORT_STATUS_CAP n.val) (min (x.bytes / 0x10000000) 16384)).setCxl n.val 3).event0 blkCXM 0x0203 n.val .ok)
  else .next (s.setCxl n.val 4)

/-- An event record of a CXL device is copied into the trouble log (R222, R469); the corrected errors `ce` that it reports
count in the window of R253.
(DEDUCED: log 59; DESIGN CHOICE: log 152.) -/
def execCxlEventRecord (n : Fin 2) (rec : List (BitVec 8)) (ce : Nat) (s : State) : Host.Outcome State Fault Refusal :=
  if s.fld (fCXM_PORT_STATUS_STATE n.val) = 3 then
    .next ((s.logWrite 0x0005 blkCXM noPart .ok 0 n.val (leNat (rec.take 8))).noteCe ce)
  else .next s

/-- A write of CXM_CREDIT[p] (R223): ignored when the sum over all partitions would exceed 8,192; a limit above 4,096 is a
reserved encoding (R6).
(DEDUCED: log 62.) -/
def State.cxmCreditWrite (s : State) (p : Nat) (v : BitVec 32) : State :=
  let k := bitsOf v.toNat 0 13
  let rest := (((List.range 65).filter (fun q => decide (q ≠ p))).map (fun q => s.fld (fCXM_CREDIT_CREDITS q))).sum
  if 4096 < k then s
  else if 8192 < rest + k then s.raise fCXM_ERR_CFG_DROP
  else s.setFld (fCXM_CREDIT_CREDITS p) k

/-- (DEDUCED: log 62.) -/
def execCxmCreditWrite (p : Fin 65) (v : BitVec 32) (s : State) : Host.Outcome State Fault Refusal :=
  .next (s.cxmCreditWrite p.val v)

/-- May partition `p`'s placement registers be written: frozen or unassigned (R226)? -/
def State.ptOpen (s : State) (p : Fin 65) : Bool := s.que.parts[p].st = .frozen || s.que.parts[p].st = .unassigned

/-- A write of MEM_PT_BASE[p] or MEM_PT_LEN[p] (R226, R242).
(DEDUCED: log 14.) -/
def State.memPtWrite (s : State) (p : Fin 65) (len : Bool) (v : BitVec 64) : State :=
  if s.ptOpen p = false then s.raise fMEM_ERR_CFG_DROP
  else if len then (if bitsOf v.toNat 0 32 ≤ 2 ^ 27 then s.setFld (fMEM_PT_LEN_LEN p.val) (bitsOf v.toNat 0 32) else s)
  else if v.toNat % 64 = 0 then s.setFld (fMEM_PT_BASE_BASE p.val) v.toNat else s

def execMemPtWrite (p : Fin 65) (len : Bool) (v : BitVec 64) (s : State) : Host.Outcome State Fault Refusal :=
  .next (s.memPtWrite p len v)

end Sys2Proof.Machine
end

