-- ==== Sys2Proof/Machine/Crc.lean ====
section
/-! DEFINITION. CRC-32C (R129): Castagnoli, polynomial 0x1EDC_6F41, reflected, initial value and final exclusive-or all
ones. -/

namespace Sys2Proof.Machine

open Sys2Proof

/-- `n` bit steps of the reflected CRC of a polynomial. -/
def crcBits (poly : BitVec 32) : Nat → BitVec 32 → BitVec 32
  | 0, c => c
  | n + 1, c => crcBits poly n (if c.getLsbD 0 then (c >>> 1) ^^^ poly else c >>> 1)

/-- The running CRC over bytes. -/
def crcRun (poly : BitVec 32) : List Byte → BitVec 32 → BitVec 32
  | [], c => c
  | b :: r, c => crcRun poly r (crcBits poly 8 (c ^^^ b.zeroExtend 32))

/-- The running CRC-32C over bytes. -/
def crcGo (l : List Byte) (c : BitVec 32) : BitVec 32 := crcRun 0x82F63B78 l c

/-- The CRC-32C of bytes. -/
def crc32c (l : List Byte) : BitVec 32 := crcGo l 0xFFFFFFFF ^^^ 0xFFFFFFFF

/-- The CRC-32 of Ethernet, in which RoCEv2 computes the invariant CRC (R339).
(PRESUMED: log 101.) -/
def crc32e (l : List Byte) : BitVec 32 := crcRun 0xEDB88320 l 0xFFFFFFFF ^^^ 0xFFFFFFFF

end Sys2Proof.Machine
end

