-- ==== Sys2Proof/Machine/Ecc.lean ====
section
/-! DEFINITION. ECDSA over P-256 (FIPS 186-5) as R129, R404 and R408 use it: keys, verification. -/

namespace Sys2Proof.Machine

open Sys2Proof

/-- The field prime, the group order, the curve's b and base point. -/
def p256p : Nat := 0xffffffff00000001000000000000000000000000ffffffffffffffffffffffff
def p256n : Nat := 0xffffffff00000000ffffffffffffffffbce6faada7179e84f3b9cac2fc632551
def p256b : Nat := 0x5ac635d8aa3a93e7b3ebbd55769886bc651d06b0cc53b0f63bce3c3e27d2604b
def p256g : Nat × Nat :=
  (0x6b17d1f2e12c4247f8bce6e563a440f277037d812deb33a0f4a13945d898c296,
   0x4fe342e2fe1a7f9b8ee7eb4a7c0f9e162bce33576b315ececbb6406837bf51f5)

/-- b^e mod m over the `n` low bits of e. -/
def powMod (b e m : Nat) : Nat → Nat
  | 0 => 1 % m
  | n + 1 =>
    let x := powMod b (e / 2) m n
    if e % 2 = 1 then x * x % m * b % m else x * x % m

/-- The inverse modulo a prime of at most 256 bits. -/
def invMod (a m : Nat) : Nat := powMod (a % m) (m - 2) m 256

/-- The sum of two points; none is the point at infinity. -/
def ptAdd (x y : Option (Nat × Nat)) : Option (Nat × Nat) :=
  match x, y with
  | none, q => q
  | p, none => p
  | some (x1, y1), some (x2, y2) =>
    let p := p256p
    if x1 = x2 ∧ (y1 + y2) % p = 0 then none
    else
      let l := if x1 = x2 then (3 * x1 * x1 + (p - 3)) * invMod (2 * y1) p % p
        else (y2 + p - y1) * invMod (x2 + p - x1) p % p
      let x3 := (l * l + 2 * p - x1 - x2) % p
      some (x3, (l * (x1 + p - x3) + p - y1) % p)

/-- A multiple of a point, over the `n` low bits of the factor. -/
def ptMul (k : Nat) (x : Option (Nat × Nat)) : Nat → Option (Nat × Nat)
  | 0 => none
  | n + 1 =>
    let h := ptMul (k / 2) x n
    let d := ptAdd h h
    if k % 2 = 1 then ptAdd d x else d

/-- Is a pair a point of the curve? -/
def onCurve (q : Nat × Nat) : Bool :=
  q.1 < p256p && q.2 < p256p && (q.2 * q.2) % p256p == (q.1 * q.1 * q.1 + (p256p - 3) * q.1 + p256b) % p256p

/-- Does the signature (r, s) over a digest verify with a public key? -/
def ecdsaOk (q : Nat × Nat) (digest : List Byte) (r s : Nat) : Bool :=
  if onCurve q && decide (1 ≤ r) && decide (r < p256n) && decide (1 ≤ s) && decide (s < p256n) then
    let w := invMod s p256n
    let z := beNat digest
    match ptAdd (ptMul (z * w % p256n) (some p256g) 256) (ptMul (r * w % p256n) (some q) 256) with
    | some (x, _) => x % p256n == r
    | none => false
  else false

/-- A public key as 64 bytes, X then Y, each big-endian (R269, R405). -/
def keyOf (b : List Byte) : Nat × Nat := (beNat (b.take 32), beNat ((b.drop 32).take 32))
def keyBytes (q : Nat × Nat) : List Byte := beBytes 32 q.1 ++ beBytes 32 q.2

/-- Does a 64-byte signature, r then s, verify over the SHA-256 of a message (R129)? -/
def sigOk (q : Nat × Nat) (msg sig : List Byte) : Bool :=
  decide (sig.length = 64) && ecdsaOk q (sha256 msg) (beNat (sig.take 32)) (beNat (sig.drop 32))

/-- The digest of a public key: its 65-byte uncompressed SEC1 point (R404).
(DEDUCED: log 151.) -/
def keyDigest (q : Nat × Nat) : List Byte := sha256 (0x04 :: keyBytes q)

/-- The private key derived from a secret with an info string (R408): 40 bytes, reduced with extra random bits. -/
def dicePriv (secret : List Byte) (info : String) : Nat := beNat (hkdf secret (ascii info) 40) % (p256n - 1) + 1

/-- The public key of a private key. -/
def pubOf (d : Nat) : Nat × Nat := (ptMul d (some p256g) 256).getD (0, 0)

/-- The signature of a message with a private key and a nonce, as 64 bytes, r then s.
(DESIGN CHOICE: log 77.) -/
def ecdsaSign (d k : Nat) (msg : List Byte) : List Byte :=
  let r := (pubOf k).1 % p256n
  beBytes 32 r ++ beBytes 32 (invMod k p256n * (beNat (sha256 msg) + r * d) % p256n)

/-- A signature that the device makes: its nonce is a free value.
(DESIGN CHOICE: log 77.) -/
def State.signFree (s : State) (d : Nat) (msg : List Byte) : List Byte × State :=
  let r := s.takeFree 256
  (ecdsaSign d (r.1.toNat % (p256n - 1) + 1) msg, r.2)

end Sys2Proof.Machine
end

