-- ==== Sys2Proof/Machine/Trust.lean ====
section
/-! DEFINITION. The keys of the root of trust that other blocks use: the schedule-signing key of the owner key record
(R129, R405) and the sheaf key (R408). -/

namespace Sys2Proof.Machine

open Sys2Proof

/-- The schedule-signing key; none without an owner key record (R407). -/
def State.schedKey? (s : State) : Option (Nat × Nat) := s.tru.owner.map (fun r => keyOf (r.drop (0x40 + 0x58)))

/-- Does a signature by the schedule-signing key verify (R129)? -/
def State.schedSigOk (s : State) (msg sig : List Byte) : Bool :=
  match s.schedKey? with
  | some q => sigOk q msg sig
  | none => false

/-- The sheaf key, private (R408): bound to the UDS alone. -/
def State.sheafPriv (s : State) : Nat := dicePriv (s.tru.uds.getD []) "SHEAF"

/-- The sheaf key, public. -/
def State.sheafPub (s : State) : Nat × Nat := pubOf s.sheafPriv

/-- A measured digest by its index (R410); 32 zero bytes where nothing was measured. -/
def State.measured (s : State) (i : Nat) : List Byte := (alook i s.tru.meas).getD (List.replicate 32 0)

/-- CDI_L1 (R408). -/
def State.cdi1 (s : State) : List Byte :=
  hmacSha256 (s.tru.cdi0.getD []) (sha256 (s.measured 6 ++ s.measured 7 ++ s.measured 8))

/-- The DeviceID key, public; the alias keys (R408). -/
def State.devPub (s : State) : Nat × Nat := pubOf (dicePriv (s.tru.uds.getD []) "DEVID")
def State.aliasPriv0 (s : State) : Nat := dicePriv (s.tru.cdi0.getD []) "ALIAS"
def State.aliasPriv1 (s : State) : Nat := dicePriv s.cdi1 "ALIAS"

/-- The chain of SPDM certificate slot 0 (R409).
(DEDUCED: log 89.) -/
def State.certChain (s : State) : List Byte :=
  let k0 := pubOf s.aliasPriv0
  s.ldg.flash.devCert ++
    Config.aliasCert (keyBytes s.devPub) (keyBytes k0) (s.measured 2 ++ s.measured 4 ++ s.measured 3) ++
    Config.aliasCert (keyBytes k0) (keyBytes (pubOf s.aliasPriv1)) (s.measured 6 ++ s.measured 7 ++ s.measured 8)

end Sys2Proof.Machine
end

