-- ==== Sys2Proof/Machine/Cipher.lean ====
section
/-! DEFINITION. The cipher engine (R392 to R403, R412): its lock, its command ring and its operations. -/

namespace Sys2Proof.Machine

open Sys2Proof

def State.setCip (s : State) (f : Cip → Cip) : State := { s with cip := f s.cip }

/-- The OWNER value of a path (R394). -/
def cipOwner : CipPath → Nat
  | .security _ => 1
  | .management _ => 2
  | .host _ => 3

/-- What a firmware path has placed in its own memory.
(DEDUCED: log 118.) -/
def cipRing : CipPath → List Byte
  | .security r => r
  | .management r => r
  | .host _ => []

/-- Does a write through a path reach the registers? The host writes only through the control function (R412, R278). -/
def State.cipPathOk (s : State) (p : CipPath) : Bool :=
  match p with
  | .host fn => fn = s.ctrlFn
  | _ => true

/-- A write to the CIP window: refused with RO_WRITE through the other function (R278). -/
def State.cipWrite (s : State) (p : CipPath) (f : State → State) : State :=
  if s.cipPathOk p then f s else s.raise fHIF_ERR_RO_WRITE

/-! ### The lock -/

/-- WAITING and its event source follow the waits (R394, R434).
(DEDUCED: log 117.) -/
def State.cipShowWaits (s : State) : State :=
  let w := s.cip.waits ≠ []
  let s1 := s.setFld fCIP_LOCK_WAITING (b2n w)
  if s.flag fCIP_LOCK_WAITING = w then s1 else s1.srcLevel 256 w

/-- The lock is granted to a path: GEN advances and the ring registers are set to 0 (R394).
(DEDUCED: log 117.) -/
def State.cipGrant (s : State) (o : Nat) : State :=
  (s.setFld fCIP_LOCK_OWNER o |>.setFld fCIP_LOCK_GEN (s.fld fCIP_LOCK_GEN + 1)
    |>.setFld fCIP_RING_BASE_BASE 0 |>.setFld fCIP_RING_CTRL_SIZE_LOG2 0 |>.setFld fCIP_TAIL_INDEX 0
    |>.setFld fCIP_HEAD_INDEX 0).setCip (fun k => { k with next := 0, dones := [], waits := adel o k.waits })
    |>.cipShowWaits

/-- The lock becomes free, and passes to the waiting path with the lowest OWNER value (R394).
(DEDUCED: log 117.) -/
def State.cipFree (s : State) : State :=
  let s1 := s.setFld fCIP_LOCK_OWNER 0
  match [1, 2, 3].find? (fun o => (alook o s.cip.waits).isSome) with
  | some o => s1.cipGrant o
  | none => s1

/-- The lock is taken from a path without a RELEASE (R396); a path that does not hold it only loses its wait.
(DEDUCED: log 117.) -/
def State.cipForceRelease (s : State) (o : Nat) : State :=
  let s1 := (s.setCip (fun k => { k with waits := adel o k.waits })).cipShowWaits
  if s.fld fCIP_LOCK_OWNER = o then
    (s1.setCip (fun k => { k with running := k.running.filter (fun r => r.path ≠ o) })).cipFree
  else s1

/-- A keyed write of CIP_LOCK by a path (R394): RELEASE acts from the holder, ACQUIRE from any other path.
(DEDUCED: log 117.) -/
def State.cipLockWrite (s : State) (p : CipPath) (v : BitVec 32) : State :=
  s.cipWrite p (fun s =>
    let o := (cipOwner p)
    let own := s.fld fCIP_LOCK_OWNER
    if bitsOf v.toNat 16 16 ≠ 0xA55A then s
    else if own = o then (if bitOf v.toNat 1 then s.cipFree else s)
    else if bitOf v.toNat 0 then
      (if own = 0 then s.cipGrant o
       else if (alook o s.cip.waits).isSome then s
       else (s.setCip (fun k => { k with waits := k.waits ++ [(o, s.now)] })).cipShowWaits)
    else s)

def execCipAcquire (p : CipPath) (v : BitVec 32) (s : State) : Host.Outcome State Fault Refusal := .next (s.cipLockWrite p v)
def execCipRelease (p : CipPath) (v : BitVec 32) (s : State) : Host.Outcome State Fault Refusal := .next (s.cipLockWrite p v)

/-! ### The ring -/

/-- The detail of a cipher command (R29, R400): CIP as block 12. -/
def cipDetail (n : Nat) : Nat := blkCIP * 2048 + n

/-- The address of a descriptor of the holder's ring. -/
def State.cipSlotAt (s : State) (i : Nat) : Nat := s.fld fCIP_RING_BASE_BASE + 64 * i

/-- Read a descriptor of a path's ring: the host's by R19, a firmware's in its own memory (R397); outside a populated region it
reads as zeros.
(DEDUCED: log 118.) -/
def State.cipReadDesc (s : State) (o a : Nat) : List Byte :=
  if o = 3 then (if (s.region? a 64).isSome then s.bytesHeld a 64 else List.replicate 64 0)
  else (List.range 64).map (fun i => smGet memDefault s.cip.fwMem (o * 2 ^ 64 + a + i))

/-- Put bytes into a firmware's own memory.
(DEDUCED: log 118.) -/
def State.fwPut (s : State) (o a : Nat) : List Byte → State
  | [] => s
  | b :: r => (s.setCip (fun k => { k with fwMem := smSet memDefault k.fwMem (o * 2 ^ 64 + a) b })).fwPut o (a + 1) r

/-- Write STATUS, DETAIL and DONE of a descriptor, in one write of 8 bytes without Relaxed Ordering; the vector may follow it for
the host (R398).
(DEDUCED: log 118.) -/
def State.cipWriteDone (s : State) (o a : Nat) (old : List Byte) (st : Status) (detail : Nat) : State :=
  let b := leBytes 2 (statusCode st) ++ leBytes 2 detail ++
    leBytes 4 (fieldAt old 0x3C 4 / 2 * 2 + 1)
  if o = 3 then
    let s1 := if (s.region? a 64).isSome then s.devWrite (a + 0x38) b false .done else s
    if s.flag fCIP_CFG_VEC_EN then s1.msixSend s.ctrlFn (s.fld fCIP_CFG_VECTOR) else s1
  else s.fwPut o (a + 0x38) b

/-- Is a range in one populated region (R400)? An empty range needs none. -/
def State.cipRange (s : State) (a n : Nat) : Bool := n = 0 || (s.region? a n).isSome

/-- Fields of a descriptor (R398). -/
def cdOp (d : List Byte) : Nat := fieldAt d 0 1
def cdMode (d : List Byte) : Nat := fieldAt d 1 1 % 16
def cdKey (d : List Byte) : Nat := fieldAt d 2 2 % 1024
def cdKey2 (d : List Byte) : Nat := fieldAt d 4 2 % 1024
/-- (DEDUCED: log 119.) -/
def cdUse (d : List Byte) : Nat := fieldAt d 6 1 % 16
def cdSrc (d : List Byte) : Nat := fieldAt d 8 8
def cdDst (d : List Byte) : Nat := fieldAt d 0x10 8
def cdLen (d : List Byte) : Nat := fieldAt d 0x18 4
def cdAadLen (d : List Byte) : Nat := fieldAt d 0x1C 4
def cdAad (d : List Byte) : Nat := fieldAt d 0x20 8
def cdIv (d : List Byte) : List Byte := (d.drop 0x28).take 16

/-- OP and MODE as one number: 16 × OP, or 0x80 + MODE for STREAM. -/
def cdKind (d : List Byte) : Nat := 16 * cdOp d + cdMode d

/-- Bytes an operation reads at SRC, and writes at DST (R399). -/
def cdReads (d : List Byte) : Nat :=
  if cdKind d = 0x70 then 0 else if cdKind d = 0x83 then cdLen d + 16 else cdLen d
def cdWrites (d : List Byte) : Nat :=
  match cdKind d with
  | 0x50 | 0x60 | 0x70 => 0
  | 0x30 | 0x40 => 16
  | 0x82 => cdLen d + 16
  | _ => cdLen d

/-- Is LEN in the range of its operation (R399), and the IV of a GCM operation as given?
(DEDUCED: log 119.) -/
def cdFits (d : List Byte) : Bool :=
  let n := cdLen d
  let blocks (m : Nat) : Bool := n % 16 = 0 && 16 ≤ n && n ≤ m
  let gcm (m : Nat) : Bool := n ≤ m && (cdIv d).drop 12 = [0, 0, 0, 0]
  match cdKind d with
  | 0x10 | 0x20 | 0x30 | 0x40 => blocks (2 ^ 31)
  | 0x50 => n = 16 || n = 32
  | 0x60 => n = 24 || n = 40
  | 0x70 => n = 0
  | 0x81 => 1 ≤ n && n ≤ 2 ^ 31
  | 0x82 => gcm (2 ^ 31)
  | 0x83 => gcm (2 ^ 20)
  | 0x84 | 0x85 => blocks (2 ^ 24)
  | _ => false

/-- Is an operation a GCM one? -/
def cdGcm (d : List Byte) : Bool := cdKind d = 0x82 || cdKind d = 0x83

/-- The slots that an operation takes keys from, each with the USE bits it needs (R398, R399): ENC 1, DEC 2, HASH 4,
WRAP 8. KEY_CLEAR needs its slot VALID and no USE.
(DEDUCED: log 119.) -/
def cdSlots (d : List Byte) : List (Nat × Nat) :=
  match cdKind d with
  | 0x10 | 0x81 => [(cdKey d, 1)]
  | 0x20 => [(cdKey d, 2)]
  | 0x30 | 0x40 => [(cdKey d, 4)]
  | 0x60 => [(cdKey2 d, 8)]
  | 0x70 => [(cdKey d, 0)]
  | 0x82 | 0x83 => [(cdKey d, 5)]
  | 0x84 => [(cdKey d, 1), (cdKey2 d, 1)]
  | 0x85 => [(cdKey d, 2), (cdKey2 d, 1)]
  | _ => []

/-- The slots an operation names. -/
def cdNamed (d : List Byte) : List Nat :=
  match cdKind d with
  | 0x60 | 0x84 | 0x85 => [cdKey d, cdKey2 d]
  | _ => [cdKey d]

/-- Does an operation write a slot?
(DEDUCED: log 119.) -/
def cdWritesSlot (d : List Byte) : Bool := cdKind d = 0x50 || cdKind d = 0x60 || cdKind d = 0x70

/-- The key in a slot. -/
def State.cipKey (s : State) (n : Nat) : List Byte := smGet (fun _ => []) s.cip.keys n

/-- The failure a command meets before any work (R400, R402): none where it may run.
(DEDUCED: log 119.) -/
def State.cipCheck (s : State) (o : Nat) (d : List Byte) : Option (Status × Nat) :=
  if !cdFits d || !s.cipRange (cdSrc d) (cdReads d) || !s.cipRange (cdDst d) (cdWrites d) ||
      (cdGcm d && !s.cipRange (cdAad d) (cdAadLen d)) then some (.invalidField, 0)
  else match (cdSlots d).find? (fun x => !s.flag (fCIP_SLOT_VALID x.1)) with
  | some x => some (.invalidState, x.1)
  | none =>
    match (cdNamed d).find? (fun n => n < 128 && (o = 3 || (o ≠ 1 && cdWritesSlot d && n = cdKey d))) with
    | some n => some (.refusedPolicy, n)
    | none =>
      match (cdSlots d).find? (fun x => Nat.land (s.fld (fCIP_SLOT_USE x.1)) x.2 ≠ x.2) with
      | some x => some (.refusedPolicy, x.1)
      | none => none

/-- Staging space: 8 MiB (R401). -/
def stagingBytes : Nat := 8 * 2 ^ 20

/-- Start commands in ring order, up to 8 at a time (R397), while staging space lasts (R401); at most `n`. -/
def State.cipStart (s : State) : Nat → State
  | 0 => s
  | n + 1 =>
    let o := s.fld fCIP_LOCK_OWNER
    let z := s.fld fCIP_RING_CTRL_SIZE_LOG2
    let i := s.cip.next
    if o = 0 ∨ z < 4 ∨ 8 ≤ s.cip.running.length ∨ i = s.fld fCIP_TAIL_INDEX then s else
    let a := s.cipSlotAt i
    let d := s.cipReadDesc o a
    let bad := s.cipCheck o d
    let need := if bad = none ∧ cdKind d = 0x83 then cdLen d else 0
    if stagingBytes < (s.cip.running.map CipRun.staged).sum + need then s else
    let r : CipRun := { idx := i, gen := s.fld fCIP_LOCK_GEN, path := o, at_ := a, desc := d, k1 := s.cipKey (cdKey d),
                        k2 := s.cipKey (cdKey2 d), staged := need,
                        result := bad.map (fun x => (x.1, cipDetail x.2)) }
    (s.setCip (fun k => { k with running := k.running ++ [r], next := (i + 1) % 2 ^ z })).cipStart n

/-- A write of CIP_TAIL (R394, R397): only from the holder; an index outside the ring is ignored,
and one that would withdraw descriptors already announced.
(DEDUCED: log 118.) -/
def State.cipTailWrite (s : State) (p : CipPath) (v : BitVec 32) : State :=
  s.cipWrite p (fun s =>
    let z := s.fld fCIP_RING_CTRL_SIZE_LOG2
    let t := bitsOf v.toNat 0 16
    if s.fld fCIP_LOCK_OWNER ≠ (cipOwner p) then s.raise fCIP_ERR_NOT_OWNER
    else if z < 4 ∨ 2 ^ z ≤ t ∨ (t + 2 ^ z - s.cip.next) % 2 ^ z < (s.fld fCIP_TAIL_INDEX + 2 ^ z - s.cip.next) % 2 ^ z then s
    else
      let s1 := s.fwPut (cipOwner p) (s.cipSlotAt (s.fld fCIP_TAIL_INDEX)) (cipRing p)
      (s1.setFld fCIP_TAIL_INDEX t).cipStart 8)

def execCipTailWrite (p : CipPath) (v : BitVec 32) (s : State) : Host.Outcome State Fault Refusal := .next (s.cipTailWrite p v)

/-- A write of CIP_RING_CTRL (R397): ignored while a command is in flight.
(DEDUCED: log 118.) -/
def State.cipRingCtrlWrite (s : State) (p : CipPath) (v : BitVec 32) : State :=
  s.cipWrite p (fun s =>
    let z := bitsOf v.toNat 0 5
    if s.fld fCIP_LOCK_OWNER ≠ (cipOwner p) ∨ s.cip.running ≠ [] then s.raise fCIP_ERR_NOT_OWNER
    else
      ((if 4 ≤ z ∧ z ≤ 12 then s.setFld fCIP_RING_CTRL_SIZE_LOG2 z else s).setFld fCIP_HEAD_INDEX 0 |>.setFld fCIP_TAIL_INDEX 0)
        |>.setCip (fun k => { k with next := 0, dones := [] }))

def execCipRingCtrlWrite (p : CipPath) (v : BitVec 32) (s : State) : Host.Outcome State Fault Refusal :=
  .next (s.cipRingCtrlWrite p v)

/-- A write of CIP_RING_BASE (R394): a multiple of 4,096, only from the holder. -/
def State.cipRingBaseWrite (s : State) (p : CipPath) (v : BitVec 64) : State :=
  s.cipWrite p (fun s =>
    if s.fld fCIP_LOCK_OWNER ≠ (cipOwner p) then s.raise fCIP_ERR_NOT_OWNER
    else if v.toNat % 4096 = 0 then s.setFld fCIP_RING_BASE_BASE v.toNat else s)

/-! ### Revocation -/

/-- Complete the descriptors that have not started, with BUSY (R395); at most `n`. -/
def State.cipBusy (s : State) : Nat → State
  | 0 => s
  | n + 1 =>
    let i := s.cip.next
    if i = s.fld fCIP_TAIL_INDEX then s else
    let a := s.cipSlotAt i
    let d := s.cipReadDesc 3 a
    ((s.cipWriteDone 3 a d .busy (cipDetail 0)).setCip
      (fun k => { k with next := (i + 1) % 2 ^ s.fld fCIP_RING_CTRL_SIZE_LOG2 })).cipBusy n

/-- The time at which a host's hold ends: HOLD_MS from the start of the first firmware wait (R395). -/
def State.cipRevokeAt? (s : State) : Option Nat :=
  let w := (s.cip.waits.filter (fun x => x.1 ≠ 3)).map Prod.snd
  if s.fld fCIP_LOCK_OWNER = 3 ∧ w ≠ [] then some (w.foldl min (w.headD 0) + s.fld fCIP_CFG_HOLD_MS * msTicks) else none

/-- The host loses the lock (R395): started commands run on, the others complete with BUSY, and the lock passes to the
waiter.
(DEDUCED: log 117.) -/
def execCipLockRevoke (s : State) : Host.Outcome State Fault Refusal :=
  match s.cipRevokeAt? with
  | none => .next s
  | some t =>
    let s1 := (s.atLeast t).raise fCIP_ERR_REVOKED
    .next ((if s1.fld fCIP_RING_CTRL_SIZE_LOG2 < 4 then s1 else s1.cipBusy 4096).cipFree)

/-! ### The operations -/

/-- The command at a ring index whose operation is still to be done, if it is of the kind. -/
def State.cipRun? (s : State) (i kind : Nat) : Option CipRun :=
  s.cip.running.find? (fun r => r.idx == i && r.result == none && cdKind r.desc == kind)

/-- Replace a running command. -/
def State.setCipRun (s : State) (r : CipRun) : State :=
  s.setCip (fun k => { k with running := k.running.map (fun x => if x.idx = r.idx ∧ x.gen = r.gen then r else x) })

/-- A redundancy check fails (R393): counted and flagged; a core that fails its known-answer test leaves service. -/
def State.cipCheckFail (s : State) (x : CipCheck) : State :=
  let s1 := (s.count fCIP_FAULT_COUNT 1).raise fCIP_ERR_MISMATCH
  x.cores.foldl (fun t y =>
    let m := t.fld fCIP_CORES_IN_SERVICE
    if y.2 = false ∧ bitOf m y.1.val then (t.setFld fCIP_CORES_IN_SERVICE (m - 2 ^ y.1.val)).raise fCIP_ERR_CORE_OUT else t) s1

/-- The operation of a command ends with a status (R400): a destination left undefined takes free values. -/
def State.cipEnd (s : State) (r : CipRun) (st : Status) : State :=
  s.setCipRun { r with result := some (st, cipDetail 0), staged := 0 }

/-- Give the destination of a command that failed free values (R400): of ENC, DEC, CTR, GCM_ENC and the XTS modes.
(DESIGN CHOICE: log 120.) -/
def State.cipUndefined (s : State) (d : List Byte) : State :=
  if [0x10, 0x20, 0x81, 0x82, 0x84, 0x85].contains (cdKind d) then
    let n := cdWrites d
    let q := s.takeBytes n
    if (q.2.region? (cdDst d) n).isSome then q.2.devWrite (cdDst d) q.1 else q.2.freeBytes (cdDst d) n
  else s

/-- Have two AES cores in service, so that a checked block can be computed (R392, R393)?
(DEDUCED: log 121.) -/
def State.cipCanRun (s : State) (d : List Byte) : Bool :=
  let hashOnly := [0x30, 0x40, 0x50, 0x70].contains (cdKind d)
  hashOnly || 2 ≤ ((List.range 24).filter (fun i => bitOf (s.fld fCIP_CORES_IN_SERVICE) i)).length

/-- The status with which a command's accesses end before any data moves (R218, R222, R280, R299).
(DEDUCED: log 121.) -/
def State.cipAccess (s : State) (d : List Byte) : Status :=
  let l := [(cdSrc d, cdReads d), (cdDst d, cdWrites d)] ++ (if cdGcm d then [(cdAad d, cdAadLen d)] else [])
  ((l.filter (fun x => x.2 ≠ 0)).map (fun x => s.accessSt x.1 x.2)).foldl (fun r x => if r = .ok then x else r) .ok

/-- Run the operation of a command of the kind: its checks (R392, R393), its source read (R400), then its effect, which answers
the status. -/
def State.cipOp (s : State) (i kind : Nat) (f : CipFault) (eff : State → CipRun → List Byte → State × Status) : State :=
  match s.cipRun? i kind with
  | none => s
  | some r =>
    if s.cipCanRun r.desc = false then s else
    let s1 := f.checks.foldl State.cipCheckFail s
    let twice := f.checks.any (fun x => x.second)
    let s2 := match f.ue with | some a => s1.eccAt a.toNat .ue | none => s1
    let rd := match s.cipAccess r.desc with
      | .ok => if f.ue.isSome then .dataError else f.rd
      | x => x
    let st := if twice then .dataError else rd
    if st ≠ .ok then (if twice then s2.logUe blkCIP 0 else s2).cipEnd r st
    else
      let q := eff s2 r (s2.bytesHeld (cdSrc r.desc) (cdReads r.desc))
      q.1.cipEnd r q.2

/-- Write the output of an operation. -/
def State.cipPut (s : State) (r : CipRun) (b : List Byte) : State × Status := (s.devWrite (cdDst r.desc) b false (.cip r.idx r.gen), .ok)

/-- Load a key into a slot: its bytes, size and USE (R402). -/
def State.cipLoad (s : State) (n : Nat) (key : List Byte) (use : Nat) : State :=
  (s.setFld (fCIP_SLOT_VALID n) 1 |>.setFld (fCIP_SLOT_SIZE n) (key.length / 16) |>.setFld (fCIP_SLOT_USE n) use)
    |>.setCip (fun k => { k with keys := smSet (fun _ => []) k.keys n key })

/-- Make a slot invalid. -/
def State.cipClear (s : State) (n : Nat) : State :=
  (s.setReg (rCIP_SLOT n) 0).setCip (fun k => { k with keys := smErase n k.keys })

/-- Raw AES encryption (R399). -/
def execEnc (i : Nat) (f : CipFault) (s : State) : Host.Outcome State Fault Refusal :=
  .next (s.cipOp i 0x10 f (fun t r b => t.cipPut r (aesEncAll r.k1 b)))

/-- Raw AES decryption (R399). -/
def execDec (i : Nat) (f : CipFault) (s : State) : Host.Outcome State Fault Refusal :=
  .next (s.cipOp i 0x20 f (fun t r b => t.cipPut r (aesDecAll r.k1 b)))

/-- A hash accumulation: 16 bytes at DST (R399). The hash key has 16 bytes; with a longer key in the slot the result is free.
(DESIGN CHOICE: log 120.) -/
def State.cipHash (s : State) (r : CipRun) (b : List Byte) (h : List Byte → List Byte → List Byte → List Byte) : State × Status :=
  if r.k1.length = 16 then s.cipPut r (h r.k1 (cdIv r.desc) b)
  else
    let q := s.takeBytes 16
    q.2.cipPut r q.1

/-- GHASH accumulation (R399). -/
def execGhash (i : Nat) (f : CipFault) (s : State) : Host.Outcome State Fault Refusal :=
  .next (s.cipOp i 0x30 f (fun t r b => t.cipHash r b ghash))

/-- POLYVAL accumulation (R399). -/
def execPolyval (i : Nat) (f : CipFault) (s : State) : Host.Outcome State Fault Refusal :=
  .next (s.cipOp i 0x40 f (fun t r b => t.cipHash r b polyval))

/-- A key is loaded in clear (R399, R402). -/
def execKeyLoad (i : Nat) (f : CipFault) (s : State) : Host.Outcome State Fault Refusal :=
  .next (s.cipOp i 0x50 f (fun t r b => (t.cipLoad (cdKey r.desc) b (cdUse r.desc), .ok)))

/-- A key is loaded by the unwrap of RFC 3394 (R399).
(DEDUCED: log 121.) -/
def execKeyUnwrap (i : Nat) (f : CipFault) (s : State) : Host.Outcome State Fault Refusal :=
  .next (s.cipOp i 0x60 f (fun t r b =>
    match keyUnwrap r.k2 b with
    | some key => (t.cipLoad (cdKey r.desc) key (cdUse r.desc), .ok)
    | none => (t, .authFail)))

/-- A key slot is made invalid (R399). -/
def execKeyClear (i : Nat) (f : CipFault) (s : State) : Host.Outcome State Fault Refusal :=
  .next (s.cipOp i 0x70 f (fun t r _ => (t.cipClear (cdKey r.desc), .ok)))

/-- CTR (R399). -/
def execCtr (i : Nat) (f : CipFault) (s : State) : Host.Outcome State Fault Refusal :=
  .next (s.cipOp i 0x81 f (fun t r b => t.cipPut r (aesCtr r.k1 (cdIv r.desc) b)))

/-- The additional data of a GCM command. -/
def State.cipAad (s : State) (r : CipRun) : List Byte := s.bytesHeld (cdAad r.desc) (cdAadLen r.desc)

/-- GCM encryption: the ciphertext, and the tag after it (R399). -/
def execGcmEnc (i : Nat) (f : CipFault) (s : State) : Host.Outcome State Fault Refusal :=
  .next (s.cipOp i 0x82 f (fun t r b =>
    let c := gcmText r.k1 (cdIv r.desc) b
    t.cipPut r (c ++ gcmTag r.k1 (cdIv r.desc) (t.cipAad r) c)))

/-- GCM decryption (R401): the plaintext leaves staging only after the tag has verified. -/
def execGcmDec (i : Nat) (f : CipFault) (s : State) : Host.Outcome State Fault Refusal :=
  .next (s.cipOp i 0x83 f (fun t r b =>
    let n := cdLen r.desc
    if gcmTag r.k1 (cdIv r.desc) (t.cipAad r) (b.take n) = b.drop n then t.cipPut r (gcmText r.k1 (cdIv r.desc) (b.take n))
    else ((t.count fCIP_TAGFAIL_COUNT 1).raise fCIP_ERR_TAG_FAIL, .authFail)))

/-- XTS encryption (R399). -/
def execXtsEnc (i : Nat) (f : CipFault) (s : State) : Host.Outcome State Fault Refusal :=
  .next (s.cipOp i 0x84 f (fun t r b => t.cipPut r (xtsEnc r.k1 r.k2 (cdIv r.desc) b)))

/-- XTS decryption (R399). -/
def execXtsDec (i : Nat) (f : CipFault) (s : State) : Host.Outcome State Fault Refusal :=
  .next (s.cipOp i 0x85 f (fun t r b => t.cipPut r (xtsDec r.k1 r.k2 (cdIv r.desc) b)))

/-- CIP_HEAD passes the descriptors that are DONE (R397); at most `n`.
(DEDUCED: log 117.) -/
def State.cipAdvance (s : State) : Nat → State
  | 0 => s
  | n + 1 =>
    let h := s.fld fCIP_HEAD_INDEX
    if s.cip.dones.contains h then
      ((s.setFld fCIP_HEAD_INDEX ((h + 1) % 2 ^ s.fld fCIP_RING_CTRL_SIZE_LOG2)).setCip
        (fun k => { k with dones := k.dones.filter (fun x => x ≠ h) })).cipAdvance n
    else s

/-- A command whose operation has ended writes STATUS, DETAIL and DONE (R398), once no write of its output is held; the head advances past descriptors that are
DONE, and more commands start (R397). INVALID_STATE makes one entry of the trouble log (R9, R469). What R400 leaves undefined
at its destination takes free values.
(DESIGN CHOICE: log 120.) -/
def execCipCmdDone (i : Nat) (s : State) : Host.Outcome State Fault Refusal :=
  match s.cip.running.find? (fun r => r.idx == i && r.result != none) with
  | none => .next s
  | some r =>
    match r.result with
    | none => .next s
    | some (st, detail) =>
      if s.ckp.held.any (fun w => w.owner = .cip r.idx r.gen) then .next s else
      let sL := if st = .invalidState then s.logWrite 0x0001 blkCIP noPart st detail (cdOp r.desc) 0 else s
      let s0 := if st ≠ .ok then sL.cipUndefined r.desc else sL
      let s1 := s0.setCip (fun k => { k with running := k.running.filter (fun x => !(x.idx == r.idx && x.gen == r.gen)) })
      let s2 := s1.cipWriteDone r.path r.at_ r.desc st detail
      let mine := s2.fld fCIP_LOCK_OWNER = r.path ∧ s2.fld fCIP_LOCK_GEN = r.gen
      .next ((if mine then (s2.setCip (fun k => { k with dones := r.idx :: k.dones })).cipAdvance 4096 else s2).cipStart 8)

/-- Reset of the engine, warm or cold (R396, R402): the lock is free and the slots are cleared. -/
def State.cipReset (s : State) : State :=
  { s with cip := { Cip.reset with fwMem := [] },
           regs := s.regs.filter (fun e => !(decide (rCIP_SLOT 0 ≤ e.1) && decide (e.1 < rCIP_SLOT 1024))) }

end Sys2Proof.Machine
end

