-- ==== Sys2Proof/Machine/Image.lean ====
section
/-! DEFINITION. The schedule image: its layout (R122 to R131), the load checks 0x01 to 0x08 (R132, R133) and the report
of a refused load (R134). -/

namespace Sys2Proof.Machine

open Sys2Proof

/-- Are `n` bytes from `o` all 0? -/
def zeroAt (b : List Byte) (o n : Nat) : Bool := ((b.drop o).take n).all (fun x => x = 0)

/-- A run entry (R128). -/
def parseRun (b : List Byte) : Run :=
  { start := fieldAt b 0 4, count := fieldAt b 4 4, port := fieldAt b 8 1, kind := fieldAt b 9 1, flits := fieldAt b 10 1,
    inPort := fieldAt b 11 1, stream := fieldAt b 12 4 }

/-- A stream entry (R128). -/
def parseStrm (b : List Byte) : Strm :=
  { src := fieldAt b 0 8, dst := fieldAt b 8 8, len := fieldAt b 0x10 4, dev := fieldAt b 0x14 2, op := fieldAt b 0x16 1,
    sig := BitVec.ofNat 16 (fieldAt b 0x18 2) }

/-- A binding entry (R128). -/
def parseBind (b : List Byte) : Bind :=
  { lpav := fieldAt b 0 1, argKind := fieldAt b 1 1, entry := BitVec.ofNat 16 (fieldAt b 2 2),
    arg := BitVec.ofNat 32 (fieldAt b 4 4) }

/-- A move entry (R128). -/
def parseMv (b : List Byte) : Mv :=
  { src := fieldAt b 0 8, dst := fieldAt b 8 8, len := fieldAt b 0x10 4, start := fieldAt b 0x14 4,
    sig := BitVec.ofNat 16 (fieldAt b 0x18 2) }

/-- `n` entries of `w` bytes from offset `o`. -/
def entries (b : List Byte) (o w n : Nat) : List (List Byte) :=
  (List.range n).map (fun i => (b.drop (o + w * i)).take w)

/-- Lengths of the four arrays of an epoch block. -/
def blockLen (b : List Byte) : Nat :=
  48 + 16 * fieldAt b 0 4 + 32 * fieldAt b 4 4 + 16 * fieldAt b 8 2 + 32 * fieldAt b 0xA 2

/-- A device epoch block (R127). -/
def parseBlock (b : List Byte) (len : Nat) : EpochBlock :=
  let nr := fieldAt b 0 4
  let ns := fieldAt b 4 4
  let nb := fieldAt b 8 2
  let nm := fieldAt b 0xA 2
  { runs := (entries b 48 16 nr).map parseRun
    streams := (entries b (48 + 16 * nr) 32 ns).map parseStrm
    binds := (entries b (48 + 16 * nr + 32 * ns) 16 nb).map parseBind
    moves := (entries b (48 + 16 * nr + 32 * ns + 16 * nb) 32 nm).map parseMv
    pairs := BitVec.ofNat 64 (fieldAt b 0x10 8)
    commitMap := fieldAt b 0x18 8
    gddrBytes := fieldAt b 0x20 8
    cxlBytes := fieldAt b 0x28 8
    bytes := len }

/-- An epoch record (R124); in a version 3 image every epoch is class 15 (R131). -/
def parseRec (v : Nat) (b : List Byte) : EpochRec :=
  { len := fieldAt b 0 4, stepStart := bitOf (fieldAt b 4 2) 0, commit := bitOf (fieldAt b 4 2) 1,
    pclass := if v = 3 then 15 else bitsOf (fieldAt b 6 1) 0 4, glean := fieldAt b 7 1 }

/-- Do two ranges (offset, length) share a byte? -/
def rangesMeet (a b : Nat × Nat) : Bool := a.1 < b.1 + b.2 && b.1 < a.1 + a.2

/-- Do no two ranges of a list meet, but for identical ones that `share` allows? -/
def noOverlap (share : Bool) : List (Nat × Nat) → Bool
  | [] => true
  | a :: r => r.all (fun b => (share && decide (a = b)) || !rangesMeet a b) && noOverlap share r

/-- Do two lists of ranges have no byte in common?
(DEDUCED: log 33.) -/
def disjointRanges (x y : List (Nat × Nat)) : Bool := x.all (fun a => y.all (fun b => !rangesMeet a b))

/-- Conditions on a record's field values (R124, R131). -/
def recOk (v : Nat) (b : List Byte) : Bool :=
  1 ≤ fieldAt b 0 4 && fieldAt b 0 4 ≤ 16777216 && fieldAt b 4 2 < 4 &&
    (if v = 3 then fieldAt b 6 1 = 0 else fieldAt b 6 1 < 16) && fieldAt b 7 1 ≤ 12 && zeroAt b 8 8

/-- Is at most one record of each step a COMMIT record (R121)? -/
def commitsOk : List EpochRec → Bool → Bool
  | [], _ => true
  | r :: l, seen =>
    let before := seen && !r.stepStart
    !(r.commit && before) && commitsOk l (before || r.commit)

/-- Reserved bits [14:13] of a signal target (R99). -/
def signalOk (x : BitVec 16) : Bool := bitsOf x.toNat 13 2 = 0

/-- Are runs sorted by port, then by start, and without overlap on a port (R128)? -/
def runsSorted : List Run → Bool
  | a :: b :: l => (a.port < b.port || (a.port == b.port && a.start + a.count ≤ b.start)) && runsSorted (b :: l)
  | _ => true

/-- Conditions on a run (R128) in an epoch of `len` slots with `ns` streams. -/
def runOk (len ns : Nat) (r : Run) : Bool :=
  1 ≤ r.count && r.start + r.count ≤ len && r.port < 24 && (r.flits = 1 || r.flits = 2) &&
    ((r.kind = 1 && r.inPort = 0 && r.stream < ns) || (r.kind = 2 && r.inPort < 24 && r.inPort ≠ r.port && r.stream = 0))

/-- Conditions on a stream (R128). -/
def strmOk (x : Strm) (b : List Byte) : Bool :=
  x.src % 64 = 0 && x.dst % 64 = 0 && x.len % 16 = 0 && 16 ≤ x.len && x.dev < 16384 && x.op ≤ 2 && signalOk x.sig &&
    zeroAt b 0x17 1 && zeroAt b 0x1A 6

/-- Conditions on a move (R128). -/
def mvOk (len : Nat) (x : Mv) (b : List Byte) : Bool :=
  x.src % 64 = 0 && x.dst % 64 = 0 && x.len % 64 = 0 && 64 ≤ x.len && x.start < len && signalOk x.sig && zeroAt b 0x1A 6

/-- Conditions on a binding (R128, R131). -/
def bindOk (v : Nat) (pairs : BitVec 64) (x : Bind) (b : List Byte) : Bool :=
  x.lpav < 128 && (x.argKind = 0 || (v = 4 && x.argKind = 1)) && (!bitOf pairs.toNat (x.lpav / 2) || x.lpav % 2 = 0) &&
    zeroAt b 8 8

/-- Conditions on an epoch block for a record that names it (R127, R128, R131). -/
def blockOk (v : Nat) (r : EpochRec) (b : List Byte) (len : Nat) : Bool :=
  let k := parseBlock b len
  let nr := fieldAt b 0 4
  let ns := fieldAt b 4 4
  let nb := fieldAt b 8 2
  let nm := fieldAt b 0xA 2
  48 ≤ len && ns ≤ 65536 && nb ≤ 128 && nm ≤ 4096 && blockLen b ≤ len && zeroAt b 0xC 4 &&
    (v = 4 || k.pairs = 0) &&
    (if r.commit then k.commitMap % 64 = 0 else k.commitMap = 0) &&
    k.runs.all (runOk r.len ns) && runsSorted k.runs &&
    ((entries b (48 + 16 * nr) 32 ns).all (fun e => strmOk (parseStrm e) e)) &&
    ((entries b (48 + 16 * nr + 32 * ns) 16 nb).all (fun e => bindOk v k.pairs (parseBind e) e)) &&
    decide (k.binds.map (fun x => x.lpav)).Nodup &&
    ((entries b (48 + 16 * nr + 32 * ns + 16 * nb) 32 nm).all (fun e => mvOk r.len (parseMv e) e))

/-- A program entry (R126), its images read from the section. -/
def parseProg (sec e : List Byte) : Prog :=
  let ws (o n : Nat) := (List.range n).map (fun i => BitVec.ofNat 16 (fieldAt sec (o + 2 * i) 2))
  { mask := BitVec.ofNat 128 (fieldAt e 0 16), imem := ws (fieldAt e 0x10 4) (fieldAt e 0x14 4),
    dmem := ws (fieldAt e 0x18 4) (fieldAt e 0x1C 4) }

/-- Check 0x06 over the device's own section (R126 to R128).
(DEDUCED: log 33.) -/
def sectionOk (v dev : Nat) (recs : List EpochRec) (sec : List Byte) : Bool :=
  let n := sec.length
  let np := fieldAt sec 2 2
  let po := fieldAt sec 8 8
  let io := fieldAt sec 0x10 8
  let ne := recs.length
  let idx := entries sec io 16 ne
  let prog := entries sec po 32 np
  let blocks := (idx.filter (fun e => fieldAt e 0 8 ≠ 0)).map (fun e => (fieldAt e 0 8, fieldAt e 8 4))
  let imems := (prog.filter (fun e => fieldAt e 0x14 4 ≠ 0)).map (fun e => (fieldAt e 0x10 4, 2 * fieldAt e 0x14 4))
  let dmems := (prog.filter (fun e => fieldAt e 0x1C 4 ≠ 0)).map (fun e => (fieldAt e 0x18 4, 2 * fieldAt e 0x1C 4))
  let fixed := [(0, 32), (po, 32 * np), (io, 16 * ne)].filter (fun x => x.2 ≠ 0)
  32 ≤ n && fieldAt sec 0 2 = dev && np ≤ 128 && zeroAt sec 4 4 && zeroAt sec 0x18 8 && po % 8 = 0 && io % 8 = 0 &&
    (np = 0 || po + 32 * np ≤ n) && io + 16 * ne ≤ n &&
    idx.all (fun e => zeroAt e 12 4 && (fieldAt e 0 8 = 0 || (fieldAt e 0 8 % 8 = 0 && fieldAt e 0 8 + fieldAt e 8 4 ≤ n))) &&
    prog.all (fun e => fieldAt e 0x14 4 ≤ 65536 && fieldAt e 0x1C 4 ≤ 32768 &&
      (fieldAt e 0x14 4 = 0 || fieldAt e 0x10 4 + 2 * fieldAt e 0x14 4 ≤ n) &&
      (fieldAt e 0x1C 4 = 0 || fieldAt e 0x18 4 + 2 * fieldAt e 0x1C 4 ≤ n)) &&
    (List.range 128).all (fun l => (prog.filter (fun e => bitOf (fieldAt e 0 16) l)).length ≤ 1) &&
    noOverlap false fixed && noOverlap true blocks && noOverlap true imems && noOverlap true dmems &&
    disjointRanges fixed blocks && disjointRanges fixed imems && disjointRanges fixed dmems &&
    disjointRanges blocks imems && disjointRanges blocks dmems && disjointRanges imems dmems &&
    (List.zip recs idx).all (fun p =>
      fieldAt p.2 0 8 = 0 || blockOk v p.1 ((sec.drop (fieldAt p.2 0 8)).take (fieldAt p.2 8 4)) (fieldAt p.2 8 4))

/-- A device number of a directory entry (R125). -/
def dirDev (e : List Byte) : Nat := fieldAt e 0 2

/-- Is a list strictly rising? -/
def rising : List Nat → Bool
  | a :: b :: l => a < b && rising (b :: l)
  | _ => true

/-- Check 0x06 over the header, the epoch table, the directory and the sections' placement (R122 to R126). `e` is where the
CRC stands. -/
def headerOk (b : List Byte) (e : Nat) : Bool :=
  let v := fieldAt b 4 2
  let ne := fieldAt b 0x18 4
  let loop := fieldAt b 0x1C 4
  let nd := fieldAt b 0x20 2
  let to_ := fieldAt b 0x28 8
  let do_ := fieldAt b 0x30 8
  let recs := (entries b to_ 16 ne).map (parseRec v)
  let dir := entries b do_ 16 nd
  let secs := dir.map (fun x => (fieldAt x 8 8, fieldAt x 4 4))
  fieldAt b 6 2 < 2 && zeroAt b 0x23 5 && zeroAt b 0x38 72 && 1 ≤ ne && ne ≤ 1048576 && (loop < ne || loop = 0xFFFFFFFF) &&
    1 ≤ nd && nd ≤ 16384 && 1 ≤ fieldAt b 0x22 1 && fieldAt b 0x22 1 ≤ 16 &&
    to_ % 8 = 0 && do_ % 8 = 0 && to_ + 16 * ne ≤ e && do_ + 16 * nd ≤ e &&
    (entries b to_ 16 ne).all (recOk v) && (recs.headD ⟨0, false, false, 0, 0⟩).stepStart &&
    (loop = 0xFFFFFFFF || (recs.getD loop ⟨0, false, false, 0, 0⟩).stepStart) && commitsOk recs false &&
    dir.all (fun x => dirDev x < 16384 && zeroAt x 2 2) && rising (dir.map dirDev) &&
    secs.all (fun x => x.1 % 8 = 0 && x.1 + x.2 ≤ e) &&
    noOverlap false ([(0, 128), (to_, 16 * ne), (do_, 16 * nd)] ++ secs)

/-- The directory entry of a device, among the entries that lie before the CRC (check 0x05). -/
def findDir (b : List Byte) (e dev : Nat) : Option (List Byte) :=
  let do_ := fieldAt b 0x30 8
  ((List.range (fieldAt b 0x20 2)).filterMap (fun i =>
    if do_ + 16 * (i + 1) ≤ e then some ((b.drop (do_ + 16 * i)).take 16) else none)).find? (fun x => dirDev x % 16384 = dev)

/-- What the device keeps of an image that passed check 0x06. -/
def parseImage (b : List Byte) (sec : List Byte) : Image :=
  let v := fieldAt b 4 2
  let ne := fieldAt b 0x18 4
  { id := BitVec.ofNat 64 (fieldAt b 0x10 8)
    recs := (entries b (fieldAt b 0x28 8) 16 ne).map (parseRec v)
    loop := fieldAt b 0x1C 4
    devs := (entries b (fieldAt b 0x30 8) 16 (fieldAt b 0x20 2)).map dirDev
    vrankLog2 := fieldAt b 0x22 1
    progs := (entries sec (fieldAt sec 8 8) 32 (fieldAt sec 2 2)).map (parseProg sec)
    blocks := (entries sec (fieldAt sec 0x10 8) 16 ne).map (fun x =>
      if fieldAt x 0 8 = 0 then none
      else some (parseBlock ((sec.drop (fieldAt x 0 8)).take (fieldAt x 8 4)) (fieldAt x 8 4))) }

/-- The record after record `r`, if the schedule goes on (R120). -/
def Image.next? (i : Image) (r : Nat) : Option Nat :=
  if r + 1 < i.recs.length then some (r + 1) else if i.loop < i.recs.length then some i.loop else none

/-- The record `r`; the empty one is never named. -/
def Image.recAt (i : Image) (r : Nat) : EpochRec := i.recs.getD r ⟨1, true, false, 15, 0⟩

/-- A block with no activity (R126).
(DESIGN CHOICE: log 170.) -/
def EpochBlock.empty : EpochBlock :=
  { runs := [], streams := [], binds := [], moves := [], pairs := 0, commitMap := 0, gddrBytes := 0, cxlBytes := 0, bytes := 0 }

/-- The block of record `r`. -/
def Image.block (i : Image) (r : Nat) : EpochBlock := ((i.blocks.getD r none).getD EpochBlock.empty)

/-- G of R139. -/
def gleanCount (r : EpochRec) : Nat := r.len * r.glean / 100

/-- A report entry: record, kind, index, NEED, AVAIL (R134). -/
abbrev Rep := Nat × Nat × Nat × Nat × Nat

/-- Flits that a stream needs (R128). -/
def strmFlits (x : Strm) : Nat := ceilDiv x.len 304

/-- Does a range lie in GDDR7 by R19? -/
def inGddr (a : Nat) : Bool := a < 0x3000000000

/-- Bytes of the commit map (R127). -/
def State.mapBytes (s : State) : Nat := if s.flag fMEM_CFG_CLAMSHELL then 393216 else 196608

/-- Is a destination on another device reserved by R19 whatever that device populates? -/
def reservedAddr (a : Nat) : Bool :=
  (0x3000000000 ≤ a && a < 0x4000000000) || (0x4010200000 ≤ a && a < 0x100000000000) ||
    (0x180000000000 ≤ a && a < 0x1000000000000) || 0x4000000000000 ≤ a

/-- The end of the range of R19 in which an address of another device lies.
(DEDUCED: log 33.) -/
def r19End (a : Nat) : Nat :=
  if a < 0x3000000000 then 0x3000000000
  else if a < 0x4010000000 then 0x4000000000 + ((a - 0x4000000000) / 0x200000 + 1) * 0x200000
  else if a < 0x4010200000 then 0x4010200000
  else if a < 0x140000000000 then 0x140000000000
  else if a < 0x180000000000 then 0x180000000000
  else if a < 0x2000000000000 then (a / 0x100000000000 + 1) * 0x100000000000
  else (a / 0x1000000000000 + 1) * 0x1000000000000

/-- Does `n` bytes at an address that is populated leave their region (R128)?
(DEDUCED: log 33.) -/
def State.spanOk (s : State) (a n : Nat) : Bool := (s.regionAt a).isNone || (s.region? a n).isSome

/-- Is a stream's destination an address that is reserved, or not populated on this device (R20, R133)? What another device
populates is not known here.
(DEDUCED: log 33.) -/
def State.dstBad (s : State) (x : Strm) : Bool :=
  if x.dev = s.devNum then (s.regionAt x.dst).isNone else reservedAddr x.dst

/-- Does every range of a stream or move lie in one region (R128)?
(DEDUCED: log 33.) -/
def State.blockSpans (s : State) (k : EpochBlock) : Bool :=
  k.streams.all (fun x => s.spanOk x.src x.len && (if x.dev = s.devNum then s.spanOk x.dst x.len
    else reservedAddr x.dst || x.dst + x.len ≤ r19End x.dst)) &&
    k.moves.all (fun m => s.spanOk m.src m.len && s.spanOk m.dst m.len)

/-- Failures of the resource checks for one record (R133), by kind and index. -/
def State.recFailures (s : State) (i : Image) (r : Nat) : List Rep :=
  let e := i.recAt r
  let b := i.block r
  let g := gleanCount e
  let ports := List.range 24
  let slots (p : Nat) := ((b.runs.filter (fun x => x.port = p)).map (fun x => x.count)).sum
  let nruns (p : Nat) := (b.runs.filter (fun x => x.port = p)).length
  let k1 := ports.filterMap (fun p => if slots p ≠ 0 ∧ e.len < slots p + g then some (r, 1, p, slots p + g, e.len) else none)
  let k2 := ports.filterMap (fun p => if 4096 < nruns p then some (r, 2, p, nruns p, 4096) else none)
  let carried (k : Nat) := ((b.runs.filter (fun x => x.kind = 1 && x.stream = k)).map (fun x => x.count * x.flits)).sum
  let k3 := b.streams.zipIdx.filterMap (fun x =>
    if carried x.2 < strmFlits x.1 then some (r, 3, x.2, strmFlits x.1, carried x.2) else none)
  let k4 := (List.range 128).filterMap (fun l =>
    if b.binds.any (fun x => x.lpav = l) && !s.bindable l then some (r, 4, l, l, 0) else none)
  let k5 := (List.range 64).filterMap (fun m =>
    if bitOf b.pairs.toNat m && !bitOf (s.fld fPAV_PAIR_OK_BITS) m then some (r, 5, m, m, 0) else none)
  let moved := (b.moves.map (fun m => m.len * (b2n (inGddr m.src) + b2n (inGddr m.dst)))).sum
  let k6a := if e.len * 317952 < b.gddrBytes * 10 then [(r, 6, 0, b.gddrBytes, e.len * 317952 / 10)] else []
  let k6b := if b.gddrBytes < moved then [(r, 6, 1, moved, b.gddrBytes)] else []
  let k7 := if e.len * 2560 < b.cxlBytes then [(r, 7, 0, b.cxlBytes, e.len * 2560)] else []
  let bad (a i : Nat) (no : Bool) : List Rep := if no then [(r, 8, i, a, 0)] else []
  let k8s := b.streams.zipIdx.flatMap (fun x =>
    bad x.1.src x.2 (s.regionAt x.1.src).isNone ++ bad x.1.dst x.2 (s.dstBad x.1))
  let k8m := b.moves.zipIdx.flatMap (fun x =>
    bad x.1.src x.2 (s.regionAt x.1.src).isNone ++ bad x.1.dst x.2 (s.regionAt x.1.dst).isNone)
  let k8c := if e.commit ∧ b.bytes ≠ 0 ∧ s.region? b.commitMap s.mapBytes ≠ some .gddr then [(r, 8, 0xFFFF, b.commitMap, 0)] else []
  let k9 := match i.next? r with
    | none => []
    | some n => if 1024 * e.len < (i.block n).bytes then [(r, 9, 0, (i.block n).bytes, 1024 * e.len)] else []
  k1 ++ k2 ++ k3 ++ k4 ++ k5 ++ k6a ++ k6b ++ k7 ++ sortBy (fun x y => decide (x.2.2.1 ≤ y.2.2.1)) (k8s ++ k8m ++ k8c) ++ k9

/-- Every failure of R133, in the order of R134: those of records, then those of none. `copy` is the length of what the
device copies into its store.
(DEDUCED: log 33.) -/
def State.failures (s : State) (i : Image) (copy : Nat) : List Rep :=
  let recs := (List.range i.recs.length).flatMap (fun r => s.recFailures i r)
  let progs := (List.range 128).filterMap (fun l =>
    if i.progs.any (fun p => bitOf p.mask.toNat l) && !s.bindable l then some (0xFFFFFFFF, 4, l, l, 0) else none)
  let half := s.fld fSCH_STORE_SIZE_SIZE * 0x100000 / 2
  let store := if half < copy then [(0xFFFFFFFF, 10, 0, copy, half)] else []
  recs ++ progs ++ store

/-- A failed load. -/
def failLoad (st : Status) (detail : Nat) (id : BitVec 64) : LoadFail :=
  { st := st, detail := detail, entries := 0, report := [], imageId := id }

/-- A load refused by the resource checks: DETAIL is 0x1100 plus the first entry's kind (R132, R134). -/
def failReport (l : List Rep) (id : BitVec 64) : LoadFail :=
  { st := .refusedResource, detail := 0x1100 + (match l with | (_, k, _) :: _ => k | [] => 0), entries := l.length,
    report := l.take 256, imageId := id }

/-- The load checks 0x01 to 0x08 in order (R132): the first that fails, or the image. A load that would change the number of
virtual ranks of the running job fails with check 0x07 (R52).
(DEDUCED: log 33, 34.) -/
def State.checkImage (s : State) : Except LoadFail Image :=
  let a := s.fld fSCH_IMG_ADDR_ADDR
  let len := s.fld fSCH_IMG_LEN_LEN
  let regOk := match s.region? a len with
    | some .gddr => true | some (.cxl _) => true | some (.host _) => true | _ => false
  if len < 128 ∨ regOk = false then .error (failLoad .invalidField 0x1001 0) else
  let h := s.bytes a 128
  let id := BitVec.ofNat 64 (fieldAt h 0x10 8)
  let n := fieldAt h 8 8
  let signed := bitOf (fieldAt h 6 2) 0
  if fieldAt h 0 4 ≠ 0x49535A52 ∨ len < n ∨ n < (if signed then 196 else 132) then .error (failLoad .invalidField 0x1001 id) else
  if fieldAt h 4 2 ≠ 4 ∧ fieldAt h 4 2 ≠ 3 then .error (failLoad .versionMismatch 0x1002 id) else
  let b := s.bytes a n
  let e := if signed then n - 68 else n - 4
  if fieldAt b e 4 ≠ (crc32c (b.take e)).toNat then .error (failLoad .authFail 0x1003 id) else
  if (signed && !s.schedSigOk (b.take (e + 4)) (b.drop (e + 4))) || (!signed && s.flag fSCH_CFG_REQ_SIG) then
    .error (failLoad .authFail 0x1004 id) else
  match findDir b e s.devNum with
  | none => .error (failLoad .invalidField 0x1005 id)
  | some d =>
    let sec := (b.drop (fieldAt d 8 8)).take (fieldAt d 4 4)
    let recs := (entries b (fieldAt b 0x28 8) 16 (fieldAt b 0x18 4)).map (parseRec (fieldAt b 4 2))
    let i := parseImage b sec
    if !(headerOk b e && decide (fieldAt d 8 8 + fieldAt d 4 4 ≤ e) && sectionOk (fieldAt b 4 2) s.devNum recs sec &&
        i.blocks.all (fun k => s.blockSpans (k.getD EpochBlock.empty))) then
      .error (failLoad .invalidField 0x1006 id) else
    if s.run = 1 ∧ (i.progs ≠ [] ∨ s.sch.active.any (fun a => a.vrankLog2 ≠ i.vrankLog2)) then .error (failLoad .invalidState 0x1007 id) else
    let copy := 128 + 16 * i.recs.length + 16 * i.devs.length + sec.length
    match s.failures i copy with
    | [] => .ok i
    | l => .error (failReport l id)

/-- One report entry as 32 bytes (R134). -/
def repBytes (x : Rep) : List Byte :=
  leBytes 2 x.2.1 ++ leBytes 2 x.2.2.1 ++ leBytes 4 x.1 ++ leBytes 8 x.2.2.2.1 ++ leBytes 8 x.2.2.2.2 ++ leBytes 8 0

/-- The bytes of a report (R134). -/
def reportBytes (f : LoadFail) : List Byte :=
  leBytes 2 (statusCode f.st) ++ leBytes 2 f.detail ++ leBytes 4 f.entries ++ leBytes 8 f.imageId.toNat ++
    f.report.flatMap repBytes

/-- Write the report of a refused load (R134): only when its whole area lies in one populated region; elsewhere the
contents of the area's populated bytes are free.
(DESIGN CHOICE: log 36.) -/
def State.writeReport (s : State) (f : LoadFail) : State :=
  let a := s.fld fSCH_REPORT_ADDR_ADDR
  if (s.region? a 8208).isSome then s.devWrite a (reportBytes f) else s.freeBytes a 8208

end Sys2Proof.Machine
end

