-- ==== Sys2Proof/Machine/Mesh.lean ====
section
/-! DEFINITION. The mesh and the pavilions (R57, R65 to R83, R494, R497): requests, responses, acknowledgements and ADDs
that reach an NI; the logical map; pavilion reset. -/

namespace Sys2Proof.Machine

open Sys2Proof

/-- Does a write at offset `o` of `n` bytes replace only whole 8-byte units (R493)? -/
def wholeUnits (o n : Nat) : Bool := o % 8 = 0 && n % 8 = 0

/-- A request reaches an NI (R67): served from scratch, with the ECC outcomes of R65 and R493; refused with TARGET_RESET
while the pavilion is being reset (R80); an address that is not populated is INVALID_FIELD (R20). -/
def execMeshRequestArrive (q : MeshReq) (s : State) : Host.Outcome State Fault Refusal :=
  match s.phys? q.dst.val with
  | none => .next (s.emit (.meshRsp q.gen .invalidField []))
  | some p =>
    let n := match q.wr with | some b => b.length | none => q.len
    if (s.pav p).refusing then .next (s.emit (.meshRsp q.gen .targetReset []))
    else if 0x200000 < q.ofs + n then .next (s.emit (.meshRsp q.gen .invalidField []))
    else
      let reads := q.wr = none || !wholeUnits q.ofs n
      let s1 := if reads then s.scratchEcc q.dst.val q.ofs q.ecc else s
      if reads ∧ q.ecc = .ue then
        let s2 := s1.emit (.meshRsp q.gen .dataError [])
        .next (if q.sown then s2.fault 5 else s2)
      else match q.wr with
        | some b => .next ((s1.setSbytes p q.ofs b).emit (.meshRsp q.gen .ok []))
        | none => .next (s1.emit (.meshRsp q.gen .ok (s1.sbytes p q.ofs q.len)))

/-- The running pavilion and the engine number of its program for an engine of pavilion `l` (R78). -/
def State.runnerOf (s : State) (l : Fin 128) (k : Fin 8) : Fin 128 × Fin 16 :=
  if s.coupled l.val ∧ l.val % 2 = 1 then (Fin.ofNat 128 (l.val - 1), Fin.ofNat 16 (8 + k.val))
  else (l, Fin.ofNat 16 k.val)

/-- A response reaches its NI (R81): one with another generation number is dropped and counted; a failed one stops the
engine it answers (R104); a read's line goes to scratch (R494). -/
def execMeshResponseArrive (r : MeshRsp) (s : State) : Host.Outcome State Fault Refusal :=
  match s.phys? r.dst.val with
  | none => .next s
  | some p =>
    if (s.pav p).niGen ≠ r.gen then .next (s.count (fPAV_STALE_COUNT r.dst.val) 1)
    else if r.st ≠ .ok then
      match r.eng with
      | some k => .next (s.engFail (s.runnerOf r.dst k).1 (s.runnerOf r.dst k).2)
      | none => .next s
    else match r.line with
      | some (n, b) => if n < 32768 then .next (s.setSbytes p (n * 64) (b.take 64)) else .next s
      | none => .next s

/-- An acknowledgement of a write reaches its NI (R68): one with another generation number is dropped and counted (R81). None
comes while the bytes of the write are held (R255), since a read would not yet return them. -/
def execMeshWriteAck (l : Fin 128) (gen : BitVec 8) (id : Nat) (s : State) : Host.Outcome State Fault Refusal :=
  match s.phys? l.val with
  | none => .next s
  | some p =>
    let x := s.pav p
    if x.niGen ≠ gen then .next (s.count (fPAV_STALE_COUNT l.val) 1)
    else if s.putHeld p id then .next s
    else .next ((s.setPav p { x with writes := x.writes.filter (fun w => decide (w.id ≠ id)) }).met l.val)

/-! ### Stops and attachments (R57, R497) -/

/-- The stop of physical pavilion `p` (R57). -/
def stopX (p : Nat) : Nat := p / 9 / 2
def stopY (p : Nat) : Nat := 1 + 3 * (p / 9 % 2) + (p % 9) / 3

/-- Column, row and attachment index of an agent (R57, R497). A pavilion's are those of its physical pavilion; an absent one has
none.
(DEDUCED: log 22.) -/
def State.attachment (s : State) (a : MeshAgent) : Option (Nat × Nat × Nat) :=
  match a with
  | .pav l => (s.phys? l.val).map (fun p => (stopX p.val, stopY p.val, p.val % 9 % 3))
  | .gddr g => some (g.val % 6 + 1, if g.val < 6 then 0 else 7, 0)
  | .fabPort p => some (p.val % 12 / 2 + 1, if p.val < 12 then 0 else 7, 1 + p.val % 2)
  | .downPort d => some (d.val % 4 + 2, if d.val < 4 then 0 else 7, 3)
  | .upPcie => some (0, 0, 0)
  | .lodge => some (0, 0, 1)
  | .windows => some (0, 0, 2)
  | .troubleLog => some (0, 0, 3)
  | .bulkMove => some (0, 0, 4)
  | .cxl n => some (7, if n = 0 then 0 else 7, 0)
  | .checkpoint => some (7, 0, 1)
  | .cipher => some (7, 7, 1)
  | .ethPorts => some (0, 7, 0)
  | .parsing => some (0, 7, 1)
  | .classification => some (0, 7, 2)
  | .trafficControl => some (0, 7, 3)
  | .rdma => some (0, 7, 4)
  | .queueEngine => some (0, 7, 5)

/-- The place of an agent in the order of R71: by row, then column, then attachment index.
(DEDUCED: log 22.) -/
def State.semRank (s : State) (a : MeshAgent) : Nat :=
  match s.attachment a with
  | some (x, y, k) => (y * 8 + x) * 8 + k
  | none => 512

/-! ### ADDs that arrive -/

/-- The oldest ADD in flight to a pavilion is dropped when it is the one named: ADDs of one source to one target arrive in the
order issued (R67). None where it is another.
(DEDUCED: log 22.) -/
def dropFlight (l : Fin 128) (m : Fin 64) (a : BitVec 16) : List HeldAdd → Option (List HeldAdd)
  | [] => none
  | h :: r =>
    if h.pav = l then (if h.sem = m ∧ h.amount = a then some r else none) else (dropFlight l m a r).map (fun q => h :: q)

/-- An ADD arrives at a semaphore of a pavilion. One of a pavilion is the oldest that it has in flight there, and is then no
longer in flight (R67, R107).
(DEDUCED: log 22.) -/
def State.addArrives (s : State) (l : Fin 128) (a : SemAdd) : State :=
  match a.src with
  | .pav k =>
    match s.phys? k.val with
    | none => s
    | some p =>
      match dropFlight l a.sem a.amount (s.pav p).flight with
      | none => s
      | some r => ((s.setPav p { s.pav p with flight := r }).semAdd l.val a.sem a.amount).met k.val
  | _ => s.semAdd l.val a.sem a.amount

/-- ADDs reach semaphores of a pavilion in one cycle and are applied one after another, in the order of their sources (R69 to
R71).
(DEDUCED: log 22.) -/
def execSemaphoreAdd (l : Fin 128) (adds : List SemAdd) (s : State) : Host.Outcome State Fault Refusal :=
  .next ((sortBy (fun a b => decide (s.semRank a.src ≤ s.semRank b.src)) adds).foldl (fun t a => t.addArrives l a) s)

/-! ### The logical map (R73 to R76) -/

/-- The working physical pavilions of a terrace, ascending (R73): those that no defect record or map-out excludes.
(DEDUCED: log 154.) -/
def State.working (s : State) (t : Nat) : List (Fin 144) :=
  (List.finRange 144).filter (fun p => p.val / 9 = t && !(s.pav p).excluded)

/-- The map entry of logical pavilion `l` by R73, as PAV_MAP lays it out (R83).
(DEDUCED: log 154.) -/
def State.mapEntry (s : State) (l : Nat) : Nat :=
  match (s.working (l / 8))[l % 8]? with
  | some p => 2 ^ 31 + (l / 8) * 65536 + stopY p.val * 4096 + stopX p.val * 256 + p.val
  | none => 0

/-- Write the map, the counts and the presence bits by R73 and R76.
(DEDUCED: log 24, 154.) -/
def State.buildMap (s : State) : State :=
  let es := (List.range 128).map (fun l => s.mapEntry l)
  let s1 := (List.range 128).foldl (fun t l => t.setReg (rPAV_MAP l) (BitVec.ofNat 64 (es.getD l 0))) s
  let bit (l : Nat) : Nat := if es.getD l 0 = 0 then 0 else 1
  let mask (f : Nat → Nat) (n : Nat) : Nat := (List.range n).foldl (fun a i => a + f i * 2 ^ i) 0
  let counts := (List.range 16).map (fun t => (s.working t).length)
  let s2 := s1.setFld fPAV_PRESENT0_BITS (mask bit 64)
  let s3 := s2.setFld fPAV_PRESENT1_BITS (mask (fun i => bit (64 + i)) 64)
  let s4 := s3.setFld fPAV_PAIR_OK_BITS (mask (fun m => bit (2 * m) * bit (2 * m + 1)) 64)
  let s5 := s4.setFld fPAV_CFG_PHYS_GOOD counts.sum
  let s6 := s5.setFld fPAV_CFG_LCOUNT ((List.range 128).map bit).sum
  s6.setFld fPAV_CFG_SPARE_LEFT (counts.filter (fun n => 8 < n)).length

/-- Does the mapping of logical pavilion `l` change when the map is built anew?
(DEDUCED: log 24.) -/
def State.remapped (s : State) (l : Nat) : Bool := decide (s.mapEntry l ≠ (s.reg (rPAV_MAP l)).toNat)

/-- Do the NIs hold a message to or from a pavilion whose mapping changes (R75): one of its own, or a write or an ADD of another
pavilion to it?
(DEDUCED: log 24.) -/
def State.mapBusy (s : State) : Bool :=
  (List.range 128).any (fun k =>
    match s.phys? k with
    | none => false
    | some p =>
      let x := s.pav p
      (s.remapped k && x.active) ||
        x.writes.any (fun w => match w.dest with | .pav l => s.remapped l.val | .other => false) ||
        (x.held ++ x.flight).any (fun h => s.remapped h.pav.val))

/-- The management processor commits the shadow map in one write (R75): only while no schedule is active and no NI holds a
message of a pavilion whose mapping changes.
(DEDUCED: log 24.) -/
def execMapCommit (s : State) : Host.Outcome State Fault Refusal :=
  if s.running ∨ s.mapBusy then .next s else .next s.buildMap

/-! ### Pavilion reset (R80 to R82) -/

/-- Steps 1 to 3 of a pavilion's reset: the NI refuses requests, the engines stop, the sequencer halts, the NI
generation advances.
(DESIGN CHOICE: log 23.) -/
def Pav.beginReset (x : Pav) : Pav :=
  { x with refusing := true, eng := x.eng.map (fun g => { g with q := [] }), seq := { x.seq with mode := .halted },
           niGen := x.niGen + 1, held := [] }

/-- Steps 4 and 5: everything is cleared and the sequencer is held; the NI accepts requests again.
(DESIGN CHOICE: log 23.) -/
def Pav.endReset (x : Pav) : Pav :=
  { Pav.reset with niGen := x.niGen, nextWrite := x.nextWrite, ungated := x.ungated, tested := x.tested,
                   excluded := x.excluded }

/-- The logical pavilions that a reset of `l` resets: both of a coupled pair (R80).
(DESIGN CHOICE: log 23.) -/
def State.resetSet (s : State) (l : Nat) : List Nat :=
  if s.coupled l then [l / 2 * 2, l / 2 * 2 + 1] else [l]

/-- Begin the reset of one logical pavilion. -/
def State.beginPavReset (s : State) (l : Nat) : State :=
  match s.phys? l with
  | none => s
  | some p => s.setPav p (s.pav p).beginReset

/-- End the reset of one logical pavilion. -/
def State.endPavReset (s : State) (l : Nat) : State :=
  match s.phys? l with
  | none => s
  | some p => if (s.pav p).refusing then (s.clearScratch p).setPav p (s.pav p).endReset else s

/-- A pavilion that is reset during its load loses its report, and counts as empty (R425).
(DESIGN CHOICE: log 23.) -/
def State.resetLoads (s : State) (ls : List Nat) : State :=
  { s with ldg := { s.ldg with loads := s.ldg.loads.map (fun d => if ls.contains d.lpav then { d with bitmap := 0, report := none } else d) } }

/-- Reset a pavilion by the management processor or by the PAV window: both halves of a pair, the pair's bit cleared, the
epoch faulted with cause PAV_RESET when it binds one (R80, R82, R113). BUSY and LAST show it (R83).
(DESIGN CHOICE: log 23.) -/
def State.startPavReset (s : State) (l : Nat) : State :=
  let ls := s.resetSet l
  let hit := ls.any (fun k => s.bound k)
  let s0 := ((s.resetLoads ls).setFld fPAV_RST_STATUS_LAST l).raise fPAV_RST_STATUS_BUSY
  let s1 := ls.foldl (fun t k => t.beginPavReset k) s0
  let s2 := s1.setFld fPAV_PAIR_BITS ((s1.fld fPAV_PAIR_BITS) - (if s.coupled l then 2 ^ (l / 2) else 0))
  if hit then s2.fault 6 else s2

/-- A write of PAV_RST_CTRL (R83): ignored without the key; refused while BUSY; refused for an absent pavilion; otherwise
the reset begins and BUSY reads 1. -/
def State.pavRstWrite (s : State) (v : BitVec 32) : State :=
  let l := bitsOf v.toNat 0 8
  if bitsOf v.toNat 16 16 ≠ 0xA55A then s
  else if s.flag fPAV_RST_STATUS_BUSY then s.raise fPAV_ERR_RST_DROP
  else if s.present l = false then s.raise fPAV_ERR_RST_BAD
  else s.startPavReset l

def execPavilionReset (v : BitVec 32) (s : State) : Host.Outcome State Fault Refusal := .next (s.pavRstWrite v)

/-- The reset of a pavilion, and of its partner when both are being reset, ends (R80): BUSY reads 0 once none is being reset. -/
def execPavResetComplete (l : Fin 128) (s : State) : Host.Outcome State Fault Refusal :=
  match s.phys? l.val with
  | none => .next s
  | some p =>
    if (s.pav p).refusing then
      let s1 := (s.endPavReset (l.val / 2 * 2)).endPavReset (l.val / 2 * 2 + 1)
      .next (if s1.pavs.toList.any (fun x => x.refusing) then s1 else s1.setFld fPAV_RST_STATUS_BUSY 0)
    else .next s

end Sys2Proof.Machine
end

