-- ==== Sys2Proof/Machine/Load.lean ====
section
/-! DEFINITION. Loading programs into pavilions (R422 to R425): how a load begins and when it has ended. -/

namespace Sys2Proof.Machine

open Sys2Proof

/-- Begin a load of the named pavilions: each is reset first (R422), and its loader's bitmap is empty.
(DEDUCED: log 133.) -/
def State.beginLoads (s : State) (svc : Bool) (named : List (Nat × Prog)) : State :=
  let s1 := named.foldl (fun t x => t.startPavReset x.1) s
  { s1 with ldg := { s1.ldg with loads := s1.ldg.loads.filter (fun d => decide (d.svc ≠ svc)) ++ named.map (fun x =>
      { lpav := x.1, svc := svc, imem := x.2.imem, dmem := x.2.dmem, bitmap := 0, report := none, round := 0,
        lastSeg := s1.now }) } }

/-- Drop the loads of one kind.
(DEDUCED: log 133.) -/
def State.dropLoads (s : State) (svc : Bool) : State :=
  { s with ldg := { s.ldg with loads := s.ldg.loads.filter (fun d => decide (d.svc ≠ svc)) } }

/-- The pavilions that an image's programs name, with their programs (R126). -/
def Image.named (i : Image) : List (Nat × Prog) :=
  (List.range 128).filterMap (fun l => (i.progs.find? (fun p => bitOf p.mask.toNat l)).map (fun p => (l, p)))

/-- Does a pavilion still await a report of a full bitmap with matching digests? -/
def PavLoad.open (d : PavLoad) : Bool := d.report ≠ some true

end Sys2Proof.Machine
end

