-- ==== Sys2Proof/Machine/Sheaf.lean ====
section
/-! DEFINITION. The open sheaf as the schedule and the blocks meet it: its snapshot and intent record (R249, R266), its
end (R251, R252). -/

namespace Sys2Proof.Machine

open Sys2Proof

/-- CKP_STATE.PHASE (R250). -/
def State.ckpPhase (s : State) : Nat := s.fld fCKP_STATE_PHASE

/-- Write bytes at a location of the sheaf's destination (R245). -/
def State.destWrite (s : State) (x : Sheaf) (loc : Nat) (b : List Byte) : State :=
  if x.destKind = 3 then s.nsPiece x.target (fun q => .nsWrite x.target q loc b) else s.devWrite loc b

/-- A manifest header (R267).
(DEDUCED: log 73.) -/
def manHeader (x : Sheaf) (n : Snap) (state shards len : Nat) (signer : List Byte) : List Byte :=
  leBytes 4 0x464E414D ++ leBytes 2 1 ++ leBytes 1 state ++ leBytes 1 0 ++ leBytes 8 x.id ++ leBytes 4 n.step ++
    leBytes 2 n.device ++ leBytes 1 n.devGen ++ leBytes 1 x.trigger ++ leBytes 8 n.imageId ++ leBytes 8 n.tb ++
    leBytes 4 n.epoch ++ leBytes 4 n.record ++ leBytes 1 n.vrankLog2 ++ leBytes 1 0 ++ leBytes 2 x.regions.length ++
    leBytes 4 shards ++ leBytes 8 len ++ signer ++ List.replicate 160 0

/-- The intent record (R266): 260 bytes.
(DEDUCED: log 73.) -/
def intentRecord (x : Sheaf) (n : Snap) : List Byte :=
  let h := manHeader x n 1 0 260 (List.replicate 32 0)
  h ++ leBytes 4 (crc32c h).toNat

/-- The shard-table entries of REUSE regions (R246): copied with REGION set to the region's index.
(DEDUCED: log 74.) -/
def State.reuseEntries (s : State) (l : List SheafRegion) : List (Nat × List Byte) :=
  (l.zip (List.range l.length)).flatMap (fun x =>
    if x.1.kind = 1 then (List.range x.1.shards).map (fun k => (x.2, leBytes 2 x.2 ++ s.bytes (x.1.reuseTab + 80 * k + 2) 78)) else [])

/-- Input bytes of a sheaf: those of its COPY regions. -/
def Sheaf.total (x : Sheaf) : Nat := (x.regions.map (fun r => if r.kind = 0 then r.len else 0)).sum

/-- The snapshot is taken (R249): the phase is COPYING, and the intent record is written. The USER record and the entries of
REUSE regions are read here. CKP_TOTAL and CKP_DONE are set to 0 (R275).
(DEDUCED: log 74, 162.) -/
def State.snapshot (s : State) (x : Sheaf) (step : Nat) : State :=
  let n : Snap := {
    step := step
    device := s.devNum
    devGen := s.fld fTOP_GEN_DEV_GEN
    imageId := match s.sch.active with | some i => i.id.toNat | none => 0
    tb := s.sch.tb.toNat
    epoch := s.fld fSCH_EPOCH_VALUE
    record := s.fld fSCH_RECORD_VALUE
    vrankLog2 := match s.sch.active with | some i => i.vrankLog2 | none => 0
    user := if x.userAddr = 0 then List.replicate 256 0 else s.bytes x.userAddr 256 }
  let x1 := { x with snap := some n, entries := s.reuseEntries x.regions }
  (s.setSheaf x1 |>.setFld fCKP_STATE_PHASE 2 |>.setFld fCKP_STEP_STEP step |>.setFld fCKP_TOTAL_BYTES 0
    |>.setFld fCKP_DONE_BYTES 0 |>.setFld fCKP_RES_USED 0 |>.setFld fCKP_RES_PEAK 0).destWrite x1 x.manLoc (intentRecord x1 n)

/-- The background copy is under way: CKP_TOTAL shows the input bytes of the open sheaf (R275).
(DEDUCED: log 162.) -/
def State.showTotal (s : State) (x : Sheaf) : State := s.setFld fCKP_TOTAL_BYTES x.total

/-- A restore is cut short (R14, R273, R280): the phase is IDLE again, and what a LOAD writes is undefined.
(DEDUCED: log 76.) -/
def State.cutRestore (s : State) : State :=
  match s.ckp.restore with
  | none => s
  | some _ => ((s.ckp.dests.foldl (fun t d => t.freeBytes d.1 d.2) s).setCkp (fun k => { k with restore := none, dests := [] })).setFld
      fCKP_STATE_PHASE 0

/-- A step commits: a sheaf that waits for a commit takes its snapshot (R249). -/
def State.sheafAtCommit (s : State) : State :=
  match s.ckp.sheaf with
  | some x => if x.snap = none then s.snapshot x (s.fld fSCH_COMMITTED_VALUE) else s
  | none => s

/-- The sheaf ends (R252): every held write is made; the event, CKP_LAST, the counter, the command's completion. -/
def State.endSheaf (s : State) (st : Status) (detail : Nat) : State :=
  match s.ckp.sheaf with
  | none => s
  | some x =>
    let s1 := s.stallNote.setCkp (fun k => { k with sheaf := none, stallFrom := none })
    let s2 := s1.release |>.setFld fCKP_STATE_PHASE 0 |>.setFld fCKP_STATE_AUTO 0 |>.setFld fCKP_RES_USED 0
      |>.setFld fCKP_LAST_STATUS (statusCode st) |>.setFld fCKP_LAST_DETAIL detail
    let s3 := if st = .ok then s2.count fCKP_COMMITS_COUNT 1 else (s2.count fCKP_ABANDONS_COUNT 1).raise fCKP_ERR_ABANDONED
    let s4 := match x.cmd with | some id => s3.endCmd id st detail | none => s3
    s4.event0 blkCKP 0x0201 x.id st detail

/-- The sheaf is abandoned with a cause of R252.
(DEDUCED: log 78.) -/
def State.abandon (s : State) (cause : Nat) : State := s.endSheaf .sheafAbandoned (0x3000 + cause)

/-- The schedule halts: a sheaf that waits is abandoned (R251).
(DEDUCED: log 78.) -/
def State.sheafHalt (s : State) : State := if s.ckpPhase = 1 then s.abandon 5 else s

end Sys2Proof.Machine
end

