-- ==== Sys2Proof/Machine/Sched.lean ====
section
/-! DEFINITION. The time base (R114 to R118) and the schedule unit (R119 to R146, R495, R498): time exchange and lock,
the commands of SCH_CTRL, loading, activation, boundaries, replays, notices, pace, bulk moves. -/

namespace Sys2Proof.Machine

open Sys2Proof

/-! ### The time base -/

/-- Picoseconds of the counter's time in a tick.
(DEDUCED: log 30.) -/
def psTick : Nat := 1250

/-- The counter in picoseconds.
(DEDUCED: log 30.) -/
def State.tbPs (s : State) : Int := (s.sch.tb.toNat * psTick : Nat)

/-- LOCKED is cleared (R116): LOSS, the event with its entry, a fault with cause TIME while a schedule runs. Nothing happens
while LOCKED reads 0, but a count towards 64 ends.
(DEDUCED: log 41.) -/
def State.loseLock (s : State) : State :=
  let s0 : State := { s with sch := { s.sch with good := 0, bad := 0 } }
  if s.flag fSCH_TS_STATUS_LOCKED then
    (((s0.setFld fSCH_TS_STATUS_LOCKED 0).raise fSCH_TS_STATUS_LOSS).event0 blkSCH 0x0104
      (s.fld fSCH_TS_CTRL_PARENT_PORT) .timeout).fault 8
  else s0

/-- The parent port, where it names a port.
(DEDUCED: log 41.) -/
def State.parentPort? (s : State) : Option (Fin 24) :=
  if h : s.fld fSCH_TS_CTRL_PARENT_PORT < 24 then some ⟨s.fld fSCH_TS_CTRL_PARENT_PORT, h⟩ else none

/-- Every 1,024 ticks a device that is not the root sends a request (R115); its send time is set as it leaves. -/
def execTimesyncExchange (s : State) : Host.Outcome State Fault Refusal :=
  if s.flag fSCH_TS_CTRL_ROOT then .next s else
  let s1 := if s.sch.lastExch = 0 then s else s.atLeast (s.sch.lastExch + 1024)
  let s2 : State := { s1 with sch := { s1.sch with lastExch := s1.now } }
  match s2.parentPort? with
  | some p => if s2.portV3 p.val then .next (s2.queueCtrl p (.tsRequest 0) s2.slot) else .next s2
  | none => .next s2

/-- A parent answers a request with its stamps, LOCKED and DEPTH (R115, R116, R169); its send time is set as the answer
leaves. -/
def execTimesyncRequestRx (p : Fin 24) (t1 t2 : Int) (s : State) : Host.Outcome State Fault Refusal :=
  if s.portV3 p.val then
    let s1 := s.queueCtrl p (.tsReply t1 t2 0 (s.flag fSCH_TS_STATUS_LOCKED) (s.fld fSCH_TS_STATUS_DEPTH)) s.slot
    .next { s1 with sch := { s1.sch with kids := if s.sch.kids.contains p then s.sch.kids else p :: s.sch.kids } }
  else .next s

/-- θ of R115 in picoseconds.
(DEDUCED: log 30.) -/
def tsTheta (r : TsReply) (asym : Int) : Int := ((r.t2 - r.t1) - (r.t4 - r.t3)) / 2 - asym

/-- Whole ticks nearest to a number of picoseconds.
(DEDUCED: log 30.) -/
def nearTicks (d : Nat) : Nat := (d + psTick / 2) / psTick

/-- Correct the counter by θ (R115): set while nothing of a schedule is present and LOCKED reads 0, otherwise slewed by one
tick, at most once in 1,024 ticks, where that makes |θ| smaller.
(DEDUCED: log 30.) -/
def State.correct (s : State) (th : Int) : State :=
  if s.schedPresent = false ∧ s.flag fSCH_TS_STATUS_LOCKED = false then
    if 0 ≤ th then { s with sch := { s.sch with tb := s.sch.tb + BitVec.ofNat 64 (nearTicks th.natAbs) } }
    else { s with sch := { s.sch with hold := nearTicks th.natAbs } }
  else if s.sch.lastSlew + 1024 ≤ s.now ∧ psTick < 2 * th.natAbs then
    if 0 < th then { s with sch := { s.sch with tb := s.sch.tb + 1, lastSlew := s.now } }
    else { s with sch := { s.sch with hold := s.sch.hold + 1, lastSlew := s.now } }
  else s

/-- The lock after an exchange (R116, R117).
(DEDUCED: log 30.) -/
def State.lockStep (s : State) (r : TsReply) (th : Nat) : State :=
  let bad := if 1000 < th then s.sch.bad + 1 else 0
  let good := if th ≤ 500 ∧ r.locked then s.sch.good + 1 else 0
  let s1 : State := { s with sch := { s.sch with bad := bad, good := good } }
  if 2 ≤ bad ∨ r.locked = false then s1.loseLock
  else if 64 ≤ good ∧ r.depth + 1 ≤ 8 then s1.raise fSCH_TS_STATUS_LOCKED
  else s1

/-- A child computes θ, corrects its counter and judges its lock (R115 to R117). -/
def execTimesyncReplyRx (r : TsReply) (s : State) : Host.Outcome State Fault Refusal :=
  if s.flag fSCH_TS_CTRL_ROOT then .next s else
  match s.parentPort? with
  | none => .next s
  | some p =>
    let th := tsTheta r (signedOf 32 (s.fld (fSCH_TS_ASYM_ASYM p.val)))
    let s1 := s.correct th
    let s2 := (s1.setFld fSCH_TS_OFFSET_THETA (twosOf 32 th)).setFld fSCH_TS_MAXOFS_MAX
      (max (s1.fld fSCH_TS_MAXOFS_MAX) (min th.natAbs 0xFFFFFFFF))
    .next ((s2.setFld fSCH_TS_STATUS_DEPTH (min (r.depth + 1) 15)).lockStep r th.natAbs)

/-- The hold of the counter for a negative θ ends (R115).
(DEDUCED: log 41.) -/
def execTbHoldExpire (s : State) : Host.Outcome State Fault Refusal := .next (s.advance s.sch.hold)

/-- gpio[31] rises at a tick at which the low PULSE_SHIFT bits of the counter are 0 (R118).
(DESIGN CHOICE: log 44.) -/
def execTimePulse (s : State) : Host.Outcome State Fault Refusal :=
  if s.flag fSCH_TS_CTRL_PULSE_EN ∧ s.sch.pulse = none then
    let s1 := s.atTb (ceilTo s.sch.tb.toNat (2 ^ s.fld fSCH_TS_CTRL_PULSE_SHIFT))
    .next ({ s1 with sch := { s1.sch with pulse := some (s1.now + 8) } }.emit (.pin "gpio31" true))
  else .next s

/-- gpio[31] falls 8 ticks later (R118).
(DESIGN CHOICE: log 44.) -/
def execTimePulseEnd (s : State) : Host.Outcome State Fault Refusal :=
  match s.sch.pulse with
  | none => .next s
  | some t =>
    let s1 := s.atLeast t
    .next ({ s1 with sch := { s1.sch with pulse := none } }.emit (.pin "gpio31" false))

/-- LAST_STATUS of a command or a write (R145, R146). -/
def State.lastStatus (s : State) (x : Status) : State := s.setFld fSCH_STATE_LAST_STATUS (statusCode x)

/-- A write of SCH_TS_CTRL (R116, R146): a reserved PARENT_PORT or PULSE_SHIFT keeps its field; a change of ROOT while RUN is
not IDLE is ignored whole; setting ROOT locks, clearing it or changing PARENT_PORT clears LOCKED. -/
def State.tsCtrlWrite (s : State) (v : BitVec 32) : State :=
  let root := bitOf v.toNat 6
  let was := s.flag fSCH_TS_CTRL_ROOT
  if root ≠ was ∧ s.run ≠ 0 then (s.lastStatus .invalidState).logRefused blkSCH rSCH_TS_CTRL v.toNat else
  let badP := decide (23 < bitsOf v.toNat 0 5)
  let badS := decide (bitsOf v.toNat 8 5 < 10)
  let port := if badP then s.fld fSCH_TS_CTRL_PARENT_PORT else bitsOf v.toNat 0 5
  let shift := if badS then s.fld fSCH_TS_CTRL_PULSE_SHIFT else bitsOf v.toNat 8 5
  let s1 := if badP || badS then s.lastStatus .invalidField else s
  let s2 := if (was && !root) || (!root && decide (port ≠ s.fld fSCH_TS_CTRL_PARENT_PORT)) then s1.loseLock else s1
  let s3 := (((s2.setFld fSCH_TS_CTRL_PARENT_PORT port).setFld fSCH_TS_CTRL_PULSE_SHIFT shift).setFld
    fSCH_TS_CTRL_PULSE_EN (b2n (bitOf v.toNat 7))).setFld fSCH_TS_CTRL_ROOT (b2n root)
  if root && !was then (s3.setFld fSCH_TS_STATUS_LOCKED 1).setFld fSCH_TS_STATUS_DEPTH 0 else s3

def execSchTsCtrlWrite (v : BitVec 32) (s : State) : Host.Outcome State Fault Refusal := .next (s.tsCtrlWrite v)

/-! ### The commands of SCH_CTRL -/

/-- Set IMG and RUN. -/
def State.setImg (s : State) (n : Nat) : State := s.setFld fSCH_STATE_IMG n
def State.setRun (s : State) (n : Nat) : State := s.setFld fSCH_STATE_RUN n

/-- SCH_LOAD_STATUS takes a status, and LOAD_DONE is set. -/
def State.loadStatus (s : State) (st : Status) (detail : Nat) : State :=
  ((s.setFld fSCH_LOAD_STATUS_STATUS (statusCode st)).setFld fSCH_LOAD_STATUS_DETAIL detail).raise fSCH_STATE_LOAD_DONE

/-- The held image, or the load in progress, ends: IMG is NONE. -/
def State.endHeld (s : State) (st : Status) (detail : Nat) : State :=
  let s1 := (s.setImg 0).loadStatus st detail
  { s1 with sch := { s1.sch with held := none, load := none } }

/-- LOAD: the image is read and checked (checks 0x01 to 0x08 of R132), the settings are held with it (R136), and the load of
its programs begins.
(DEDUCED: log 31, 32.) -/
def State.schLoad (s : State) : State :=
  let s1 := s.setImg 1
  match s.checkImage with
  | .error f => { s1 with sch := { s1.sch with load := some f, held := none } }
  | .ok i =>
    let h : HeldImage := { img := i, idleLoad := s.run = 0, actTb := s.fld fSCH_ACT_TB_TIME,
                           actEpoch := BitVec.ofNat 32 (s.fld fSCH_ACT_EPOCH_VALUE),
                           startStep := BitVec.ofNat 32 (s.fld fSCH_START_STEP_VALUE), armed := false, doomed := false }
    let s2 : State := { s1 with sch := { s1.sch with load := none, held := some h } }
    s2.beginLoads false i.named

/-- ABORT: the device's own ARMED notice for the image is disregarded (R145).
(DEDUCED: log 31, 32.) -/
def State.schAbort (s : State) : State :=
  let keep := match s.sch.held with
    | some h => s.sch.armed.filter (fun a => !(decide (a.image = h.img.id) && decide (a.dev = s.devNum)))
    | none => s.sch.armed
  let s1 := (s.endHeld .invalidState 0).dropLoads false
  { s1 with sch := { s1.sch with armed := keep } }

/-- A write of SCH_CTRL (R145, R146): ignored without the key; more than one command bit: INVALID_FIELD; a command in a
state that the table does not allow: INVALID_STATE and one entry.
(DEDUCED: log 31, 171.) -/
def State.schCtrl (s : State) (v : BitVec 32) : State :=
  let n := bitsOf v.toNat 0 4
  let img := s.fld fSCH_STATE_IMG
  let refuse := (s.lastStatus .invalidState).logRefused blkSCH rSCH_CTRL v.toNat
  if bitsOf v.toNat 16 16 ≠ 0xA55A then s
  else if n = 0 then s
  else if n = 1 then
    if img = 0 ∧ (s.run = 0 ∨ s.run = 1) then (s.lastStatus .ok).schLoad else refuse
  else if n = 2 then
    if img = 1 ∨ img = 2 then (s.lastStatus .ok).schAbort else refuse
  else if n = 4 then
    if s.run = 1 ∧ img = 0 then (s.lastStatus .ok).setRun 2 else refuse
  else if n = 8 then
    if s.run = 3 then (s.lastStatus .ok).setRun 0 else refuse
  else s.lastStatus .invalidField

/-- (DEDUCED: log 31.) -/
def execSchLoad (v : BitVec 32) (s : State) : Host.Outcome State Fault Refusal := .next (s.schCtrl v)
/-- (DEDUCED: log 31.) -/
def execSchAbort (v : BitVec 32) (s : State) : Host.Outcome State Fault Refusal := .next (s.schCtrl v)
/-- (DEDUCED: log 31.) -/
def execSchStop (v : BitVec 32) (s : State) : Host.Outcome State Fault Refusal := .next (s.schCtrl v)
/-- (DEDUCED: log 31.) -/
def execSchClear (v : BitVec 32) (s : State) : Host.Outcome State Fault Refusal := .next (s.schCtrl v)

/-- The image is ARMED (R135): OK, LOAD_DONE, and, on a device that is LOCKED (R136), the ARMED notice, which the device
itself holds too. -/
def State.arm (s : State) (h : HeldImage) : State :=
  let s1 := (s.setImg 2).loadStatus .ok 0
  let s2 : State := { s1 with sch := { s1.sch with held := some { h with armed := true } } }
  if s2.flag fSCH_TS_STATUS_LOCKED then
    let s3 := s2.floodOwn 1 { s2.ownNotice 1 with image := h.img.id }
    { s3 with sch := { s3.sch with armed := { image := h.img.id, dev := s.devNum, stamp := s.sch.tb.toNat } :: s3.sch.armed } }
  else s2

/-- Check 0x09 (R132): the pavilion checks again, after the load of the programs.
(DEDUCED: log 35.) -/
def State.recheck (s : State) (i : Image) : List Rep :=
  (s.failures i 0).filter (fun r => r.2.1 = 4 || r.2.1 = 5)

/-- A load that ends with INVALID_STATE makes the entry of a refused register command (R9, R469): the LOAD.
(DEDUCED: log 34.) -/
def State.logLoad (s : State) : State := s.logRefused blkSCH rSCH_CTRL 0xA55A0001

/-- A load ends (R132 to R136). A read of the image that failed while check `chk` ran ends it; so does the check that failed;
an image to be discarded, or one whose activation time has passed, ends INVALID_STATE; a load of programs that is not done
has not ended.
(DEDUCED: log 34, 35.) -/
def execSchLoadEnd (rd : Status) (chk : Fin 16) (s : State) : Host.Outcome State Fault Refusal :=
  if s.fld fSCH_STATE_IMG ≠ 1 then .next s
  else if rd ≠ .ok then .next ((s.endHeld rd (0x1000 + chk.val)).dropLoads false)
  else match s.sch.load, s.sch.held with
    | some f, _ =>
      let s1 := if f.st = .refusedResource then s.writeReport f else if f.st = .invalidState then s.logLoad else s
      .next (s1.endHeld f.st f.detail)
    | none, some h =>
      if s.ldg.loads.any (fun d => !d.svc && d.open) then .next s
      else
        let s0 := s.dropLoads false
        match s0.recheck h.img with
        | [] =>
          if h.doomed ∨ (h.idleLoad ∧ h.actTb ≤ s.sch.tb.toNat) then .next (s0.logLoad.endHeld .invalidState 0)
          else .next (s0.arm h)
        | l =>
          let f := failReport l h.img.id
          .next ((s0.writeReport f).endHeld f.st f.detail)
    | none, none => .next (s.endHeld .invalidState 0)

/-! ### Boundaries -/

/-- Does this device hold, for the image, an ARMED notice of every directory device, stamped no later than B − 16,000
ticks (R136)? -/
def State.armedTest (s : State) (i : Image) (b : Nat) : Bool :=
  i.devs.all (fun d => s.sch.armed.any (fun a => decide (a.image = i.id) && a.dev == d && a.stamp + 16000 ≤ b))

/-- The level of a device's latest notice stamped no later than B − 16,000, among those held, of which the newest stand first.
(DEDUCED: log 43.) -/
def paceOf (l : List PaceN) (d b : Nat) : Nat :=
  let x := (l.filter (fun n => n.dev == d && n.stamp + 16000 ≤ b)).foldr
    (fun n (a : Nat × Nat) => if a.1 ≤ n.stamp then (n.stamp, n.level) else a) (0, 0)
  x.2

/-- The pace in force at boundary B (R143).
(DEDUCED: log 43.) -/
def paceAt (l : List PaceN) (b : Nat) : Nat := (l.map (fun n => paceOf l n.dev b)).foldl max 0

/-- The routing banks switch (R168). -/
def State.switchRt (s : State) : State :=
  let lo := rFAB_RT 0
  let hi := rFAB_RT 16384
  let mid := s.regs.filter (fun e => decide (lo ≤ e.1 ∧ e.1 < hi))
  let rest := s.regs.filter (fun e => decide (e.1 < lo ∨ hi ≤ e.1))
  let regs := s.fab.rt.foldl (fun m e => smSet regReset m (lo + 4 * e.1) (e.2.zeroExtend 64)) rest
  let rt := mid.foldl (fun m e => smSet (fun _ => (0 : BitVec 32)) m ((e.1 - lo) / 4) (e.2.truncate 32)) []
  let s1 : State := { s with regs := regs, fab := { s.fab with rt := rt } }
  (s1.setFld fFAB_RT_CTRL_PENDING 0).setFld fFAB_RT_CTRL_BANK (1 - s.fld fFAB_RT_CTRL_BANK)

/-- A commit of the routing banks that waits takes place. -/
def State.rtBoundary (s : State) : State := if s.flag fFAB_RT_CTRL_PENDING then s.switchRt else s

/-- Does the epoch use port `p`: a run on it, or a TRANSIT run from it (R174)? -/
def EpochBlock.usesPort (b : EpochBlock) (p : Nat) : Bool :=
  b.runs.any (fun r => r.port = p || (r.kind = 2 && r.inPort = p))

/-- Stop a pavilion of a faulted epoch (R109). -/
def Pav.faultStop (x : Pav) : Pav :=
  let q := x.seq
  { x with eng := x.eng.map (fun g => { g with q := [] })
           seq := { q with ctr := Vector.replicate 16 0, inTrap := false,
                           mode := match q.mode with | .held => .held | .halted => .halted | _ => .waitE } }

/-- The logical pavilions that a block binds, both halves of a coupled pair (R107). -/
def EpochBlock.bound (b : EpochBlock) : List Nat :=
  b.binds.flatMap (fun x => if bitOf b.pairs.toNat (x.lpav / 2) then [x.lpav, x.lpav + 1] else [x.lpav])

/-- Change a logical pavilion that is present. -/
def State.onPav (s : State) (l : Nat) (f : Pav → Pav) : State :=
  match s.phys? l with
  | none => s
  | some p => s.setPav p (f (s.pav p))

/-- A sequencer in WAITE enters its binding (R108, R128).
(DEDUCED: log 37.) -/
def Pav.enter (x : Pav) (entry : BitVec 16) (arg : BitVec 32) : Pav :=
  if x.seq.mode = .waitE then { x with seq := { (x.seq.setPair 0 arg) with pc := entry, mode := .running } } else x

/-- Is a pavilion that a block binds still held (R113)? -/
def State.bindsHeld (s : State) (k : EpochBlock) : Bool :=
  k.bound.any (fun l => match s.phys? l with | some p => decide ((s.pav p).seq.mode = .held) | none => false)

/-- Does a pavilion meet R107 at the boundary? -/
def Pav.inTime (x : Pav) : Bool :=
  decide (x.seq.mode = .waitE) && !x.seq.inTrap && x.busyBits = 0 && x.writes.isEmpty && x.held.isEmpty && x.flight.isEmpty

/-- Can the coupling become `pairs` now (R77): every pair set can be coupled, and no pavilion of a pair that changes is
active?
(DEDUCED: log 37.) -/
def State.canCouple (s : State) (pairs : BitVec 64) : Bool :=
  (List.range 64).all (fun m =>
    (!bitOf pairs.toNat m || bitOf (s.fld fPAV_PAIR_OK_BITS) m) &&
      (decide (bitOf pairs.toNat m = bitOf (s.fld fPAV_PAIR_BITS) m) ||
        [2 * m, 2 * m + 1].all (fun l => match s.phys? l with | some p => !(s.pav p).active | none => true)))

/-- How a record is opened: activation, the next record, a replay. -/
inductive Opening where
  | activate (epoch step : Nat)
  | follow
  | replay
  deriving DecidableEq, Repr

/-- Steps 3 to 5 of R138 for record `r` of the active image, at boundary `b`: counters, pace, coupling, bindings, moves,
glean counts, and the filling of the pending table for the record after. A bound pavilion that is still held, a coupling that
cannot take place, or a run on a port whose SOWN_OK is 0, faults the epoch that opens (R77, R113, R174).
(DEDUCED: log 37.) -/
def State.openEpoch (s : State) (i : Image) (r b : Nat) (how : Opening) : State :=
  let e := i.recAt r
  let k := i.block r
  let p := paceAt s.sch.paces b
  let len := e.len + e.len * p / 16
  let s1 := s.stallEpoch.rtBoundary.setFld fSCH_RECORD_VALUE r
  let s2 := match how with
    | .activate ep st => ((s1.setFld fSCH_EPOCH_VALUE ep).setFld fSCH_STEP_VALUE st).setFld fSCH_ATTEMPT_ATTEMPT 0
    | .replay => (s1.setFld fSCH_EPOCH_VALUE (s.fld fSCH_EPOCH_VALUE + 1)).setFld fSCH_ATTEMPT_ATTEMPT
        (s.fld fSCH_ATTEMPT_ATTEMPT + 1)
    | .follow =>
      let t := s1.setFld fSCH_EPOCH_VALUE (s.fld fSCH_EPOCH_VALUE + 1)
      if e.stepStart then (t.setFld fSCH_STEP_VALUE (s.fld fSCH_STEP_VALUE + 1)).setFld fSCH_ATTEMPT_ATTEMPT 0 else t
  let s3 := s2.setFld fSCH_PACE_IN_FORCE p
  let can := s3.canCouple k.pairs
  let o : OpenEpoch := { record := r, opened := b, lenPaced := len, glean := gleanCount e, blk := k,
                         moves := k.moves.map (fun _ => .waiting), sent := k.streams.map (fun _ => 0), metAt := b,
                         closed := false }
  let again := match how with | .replay => true | .activate _ _ => true | .follow => e.stepStart
  let s4 : State := { s3 with
    sch := { s3.sch with epoch := some o, stepRec := if e.stepStart then r else s3.sch.stepRec,
                         filled := match i.next? r with | none => true | some n => (i.block n).bytes = 0,
                         recorded := if again then false else s3.sch.recorded,
                         ownSent := if again then false else s3.sch.ownSent, trs := [], chans := [],
                         opens := (b, s.sch.paces.length) :: (match how with | .activate _ _ => [] | _ => s.sch.opens),
                         maxAtt := s.fld fSCH_CFG_MAX_ATTEMPT }
    fab := { s3.fab with comps := [], ports := s3.fab.ports.map (fun x => { x with retxCount := 0, late := [], fwd := [] }) } }
  let s4 := if s3.bindsHeld k then s4.fault 1 else s4
  if can then
    let s5 := s4.setFld fPAV_PAIR_BITS k.pairs.toNat
    let s6 := k.binds.foldl (fun t x => t.onPav x.lpav (fun y => y.enter x.entry
      (if x.argKind = 1 then BitVec.ofNat 32 (s3.fld fSCH_STEP_VALUE) else x.arg))) s5
    let s7 : State := { s6 with pavs := s6.pavs.map (fun y => { y with rr := 0 }) }
    if (List.range 24).any (fun q => k.usesPort q && !s7.flag (fFAB_PORT_STATUS_SOWN_OK q)) then s7.fault 4 else s7
  else s4.fault 2

/-- An image activates at B (R136).
(DEDUCED: log 32.) -/
def State.activate (s : State) (h : HeldImage) (b : Nat) : State :=
  let s1 := ((s.setImg 0).loadStatus .ok 0).setRun (if s.run = 2 then 2 else 1)
  let s2 : State := { s1 with sch := { s1.sch with held := none, active := some h.img, stepRec := 0 } }
  s2.openEpoch h.img 0 b (.activate h.actEpoch.toNat h.startStep.toNat)

/-- At SCH_ACT_TB an image loaded while RUN was IDLE activates or is discarded (R136). -/
def execSchActivate (s : State) : Host.Outcome State Fault Refusal :=
  match s.sch.held with
  | none => .next s
  | some h =>
    if h.armed ∧ h.idleLoad ∧ s.run = 0 then
      let s1 := s.atTb h.actTb
      if s1.armedTest h.img h.actTb then .next (s1.activate h h.actTb) else .next (s1.endHeld .notReady 0)
    else .next s

/-- The replacement is discarded, and one entry records it (R136, R137).
(DEDUCED: log 34.) -/
def State.refuseReplacement (s : State) (h : HeldImage) : State :=
  (s.endHeld .invalidState 0).logWrite 0x0006 blkSCH noPart .invalidState 0 (s.fld fSCH_EPOCH_VALUE) h.img.id.toNat

/-- Is the boundary at hand the one at which a held replacement is to activate (R136)? -/
def State.dueHere (s : State) (h : HeldImage) : Bool :=
  !h.idleLoad && decide (h.actEpoch.toNat = (s.fld fSCH_EPOCH_VALUE + 1) % 2 ^ 32)

/-- A replacement that is still LOADING when its boundary passes is to be discarded at the end of its load (R136). -/
def State.doomLate (s : State) : State :=
  { s with sch := { s.sch with held := s.sch.held.map (fun h => if !h.armed && s.dueHere h then { h with doomed := true } else h) } }

/-- A held replacement is discarded when RUN leaves RUNNING (R136, R141): at once when ARMED, at the end of its load when
LOADING. -/
def State.dropReplacement (s : State) : State :=
  match s.sch.held with
  | none => s
  | some h =>
    if h.idleLoad then s
    else if h.armed then s.refuseReplacement h
    else { s with sch := { s.sch with held := some { h with doomed := true } } }

/-- SCH_EPOCH advances by 1 at every boundary after the activation (R120). -/
def State.nextEpoch (s : State) : State := s.setFld fSCH_EPOCH_VALUE (s.fld fSCH_EPOCH_VALUE + 1)

/-- The schedule ends or stops at a boundary: RUN is IDLE (R120, R145).
(DEDUCED: log 167.) -/
def State.finish (s : State) : State :=
  let s1 := s.nextEpoch.rtBoundary.setRun 0
  ({ s1 with sch := { s1.sch with epoch := none, active := none, chans := [], trs := [] }
             fab := { s1.fab with comps := [] } } : State).dropReplacement

/-- The records of the current step, from its STEP_START record (R121). -/
def Image.stepRecs (i : Image) (r : Nat) : List EpochRec :=
  match i.recs.drop r with
  | [] => []
  | e :: l => e :: l.takeWhile (fun x => !x.stepStart)

/-- The causes for which the closing epoch is not in time (R138 step 1, R77, R113), by what it left and by the block that is to
open.
(DEDUCED: log 38.) -/
def State.closingFaults (s : State) (e : OpenEpoch) (opens : Option EpochBlock) : List Nat :=
  let pavOk := e.blk.bound.all (fun l => match s.phys? l with | some p => (s.pav p).inTime | none => false)
  let movesOk := e.moves.all (fun m => decide (m = .done))
  let sownOk := (List.zip e.blk.streams e.sent).all (fun x => strmFlits x.1 ≤ x.2) && s.fab.comps.isEmpty && s.ckp.adds.isEmpty &&
    s.fab.ports.toList.all (fun p => p.late.isEmpty && p.fwd.isEmpty &&
      p.retx.all (fun x => p.replay.all (fun y => !(y.seq == x.1 && y.flit.isSown && y.epoch.toNat == s.fld fSCH_EPOCH_VALUE))))
  (if pavOk && !opens.any s.bindsHeld then [] else [1]) ++ (if movesOk && sownOk then [] else [3]) ++ (if s.sch.filled then [] else [11]) ++
    (match opens with | some k => if s.canCouple k.pairs then [] else [2] | none => [])

/-- Step 2 of R138: the step commits; a commit map, where the epoch has a block to name one, is cleared over its length, and
the event is raised. -/
def State.commitStep (s : State) (e : OpenEpoch) (mapped : Bool) : State :=
  let s1 := s.setFld fSCH_COMMITTED_VALUE (s.fld fSCH_STEP_VALUE)
  let s2 := if mapped then s1.devWrite e.blk.commitMap (List.replicate s.mapBytes 0) else s1
  s2.event0 blkSCH 0x0102 (s.fld fSCH_STEP_VALUE) .ok

/-- The slack histogram (R146). -/
def State.countSlack (s : State) (e : OpenEpoch) (b : Nat) : State :=
  let n := (b - max e.metAt e.opened) / 8
  s.count (fSCH_SLACK_COUNT (if n = 0 then 0 else min (Nat.log2 n + 1) 15)) 1

/-- Has no emergency been active for 5 s (R437)? -/
def State.calm5 (s : State) : Bool :=
  !s.flag fPWR_STATE_EMERG && (match s.pwr.calm with | some t => t + 5 * secTicks ≤ s.now | none => false)

/-- A firmware activation that waits for a boundary falls due (R436, R437). -/
def State.fwBoundary (s : State) : State :=
  let st := s.fld fEMU_STATUS_FW_STATE
  if st = 3 ∨ (st = 4 ∧ s.calm5) then { s with ldg := { s.ldg with fwDue := true } } else s

/-- The power class of the open epoch. -/
def State.openClass? (s : State) : Option Nat :=
  match s.sch.active, s.sch.epoch with
  | some i, some e => some (i.recAt e.record).pclass
  | _, _ => none

/-- At a boundary whose opening epoch has the higher class, an addition to the core voltage is held until 20 ms after it (R442);
`s` is the state before the boundary. -/
def State.holdBoost (t s : State) : State :=
  match s.openClass?, t.openClass?, t.pwr.boostTill with
  | some a, some b, some _ =>
    if a < b then { t with pwr := { t.pwr with boostTill := some (t.now + 20 * msTicks) } } else t
  | _, _, _ => t

/-- Discard the late forwards of a port that are unsent when their epoch closes, and count them (R161). -/
def State.dropLate (s : State) (p : Fin 24) : State :=
  let x := s.fab.ports[p]
  (s.setPort p { x with late := [] }).count (fFAB_DISCARD_COUNT p.val) x.late.length

/-- A boundary (R138). While a FAULT notice for the attempt is held, whose T_r comes no later than the boundary, there is
none. -/
def State.epochBoundary (s : State) : State :=
  match s.sch.active, s.sch.epoch with
  | some i, some e =>
    let b := e.opened + 8 * e.lenPaced
    if s.running = false ∨ e.closed ∨ s.sch.trs.any (fun t => decide (t ≤ b)) then s else
    let s1 := ((s.atTb b).pulse 112).fwBoundary.doomLate
    let nxt := i.next? e.record
    let opensStep : Bool := match nxt with | some n => (i.recAt n).stepStart | none => false
    let here := match s1.sch.held with
      | some h => if h.armed ∧ s1.dueHere h then some h else none
      | none => none
    let replace := match here with | some h => if opensStep ∧ s1.armedTest h.img b then some h else none | none => none
    let ends : Bool := nxt.isNone || (s1.run = 2 && opensStep)
    let opens := match replace with
      | some h => some (h.img.block 0)
      | none => if ends then none else nxt.map i.block
    let causes := s1.closingFaults e opens
    if causes ≠ [] ∨ s1.sch.trs ≠ [] then
      let s2 := causes.foldl (fun t c => t.fault c) s1
      let s3 : State := { s2 with sch := { s2.sch with epoch := s2.sch.epoch.map (fun x => { x with closed := true }) } }
      (List.finRange 24).foldl (fun u p => u.dropLate p) s3
    else
      let s2 := s1.countSlack e b
      let rc := i.recAt e.record
      let s3 := if rc.commit ∨ ((i.stepRecs s.sch.stepRec).all (fun x => !x.commit) ∧ (nxt.isNone ∨ opensStep)) then
          (s2.commitStep e (rc.commit && decide (e.blk.bytes ≠ 0))).sheafAtCommit else s2
      match replace with
      | some h => (s3.activate h b)
      | none =>
        let s4 := match here with
          | some h => if opensStep then s3.endHeld .notReady 0 else s3.refuseReplacement h
          | none => s3
        match nxt with
        | some n => if ends then s4.finish else (s4.openEpoch i n b .follow)
        | none => s4.finish
  | _, _ => s

def execEpochBoundary (s : State) : Host.Outcome State Fault Refusal := .next (s.epochBoundary.holdBoost s)

/-- Filling of the pending table ends, or fails with cause FILL (R138, R140). -/
def execPendingFillEnd (ok : Bool) (s : State) : Host.Outcome State Fault Refusal :=
  match s.sch.epoch with
  | none => .next s
  | some _ =>
    if s.running = false ∨ s.sch.filled then .next s
    else if ok then .next ({ s with sch := { s.sch with filled := true } } : State).metNow
    else .next (s.fault 11)

/-- A running move is cancelled (R495): the lines whose writes were issued, a free number of them, are written.
(DESIGN CHOICE: log 39.) -/
def State.cancelMove (s : State) (m : Mv) : State :=
  let r := s.takeFree 64
  r.2.moveLines m.src m.dst (r.1.toNat % (m.len / 64 + 1))

/-- The writes of cancelled moves that are still held wait for themselves alone (R141, R495).
(DESIGN CHOICE: log 39.) -/
def State.disown (s : State) : State :=
  s.setCkp (fun k => { k with held := k.held.map (fun w => match w.owner with | .move _ => { w with owner := .plain } | _ => w) })

/-- Discard the sown flits that a port and its slice hold, and count them (R141). -/
def State.dropSown (s : State) (p : Fin 24) : State :=
  let x := s.fab.ports[p]
  let sown (e : Elastic) : Bool := match e.bytes with | some b => bitsOf (fieldAt b 0 1) 0 2 = 1 | none => false
  let n := x.fwd.length + x.late.length + (x.elastic.filter sown).length
  (s.setPort p { x with fwd := [], late := [], elastic := x.elastic.filter (fun e => !sown e) }).count
    (fFAB_DISCARD_COUNT p.val) n

/-- At T_r the epoch ends as faulted, and the step is opened again with the attempt advanced, or the schedule halts after
the last attempt allowed (R141). -/
def State.replayBoundary (s : State) : State :=
  match s.sch.active, s.sch.epoch, s.sch.trs with
  | some i, some e, t :: l =>
    if s.running = false then s else
    let tr := l.foldl min t
    let s1 := s.atTb tr
    let s2 := e.blk.bound.foldl (fun u k => u.onPav k Pav.faultStop) s1
    let s3 := (List.zip e.blk.moves e.moves).foldl (fun u x => if x.2 = .running then u.cancelMove x.1 else u) s2
    let s4 := ((List.finRange 24).foldl (fun u p => u.dropSown p) s3).disown.doomLate
    if s.sch.maxAtt ≤ s.fld fSCH_ATTEMPT_ATTEMPT then
      let s5 := s4.nextEpoch.rtBoundary.setRun 3
      let s6 : State := { s5 with sch := { s5.sch with epoch := none, active := none, chans := [], trs := [] }
                                  fab := { s5.fab with comps := [] } }
      (s6.dropReplacement.event0 blkSCH 0x0103 (s.fld fSCH_STEP_VALUE) .epochFault (0x1000 + s.fld fSCH_FAULT_CAUSE)).sheafHalt
    else
      let s5 := match s4.sch.held with
        | some h => if h.armed ∧ s4.dueHere h then s4.refuseReplacement h else s4
        | none => s4
      (s5.openEpoch i s.sch.stepRec tr .replay)
  | _, _, _ => s

def execReplayBoundary (s : State) : Host.Outcome State Fault Refusal := .next (s.replayBoundary.holdBoost s)

/-! ### Notices -/

/-- An ARMED notice is kept for the activation test and flooded on (R136, R170). -/
def execArmedNoticeRx (p : Fin 24) (n : Notice) (s : State) : Host.Outcome State Fault Refusal :=
  match s.acceptNotice? 1 p n with
  | none => .next s
  | some s1 =>
    .next { s1 with sch := { s1.sch with armed := { image := n.image, dev := n.origin.val, stamp := n.stamp.toNat } :: s1.sch.armed } }

/-- A FAULT notice (R141, R498): held for the current step and attempt, recorded with cause REMOTE when it is the attempt's
first fault; late when its T_r has passed; discarded otherwise.
(DEDUCED: log 42.) -/
def execFaultNoticeRx (p : Fin 24) (n : Notice) (s : State) : Host.Outcome State Fault Refusal :=
  match s.acceptNotice? 2 p n with
  | none => .next s
  | some s1 =>
    if s1.running ∧ s1.sch.active.map (fun i => i.id) = some n.image ∧ n.step.toNat = s1.fld fSCH_STEP_VALUE ∧
        n.attempt.toNat = s1.fld fSCH_ATTEMPT_ATTEMPT then
      if n.tr.toNat ≤ s1.sch.tb.toNat then .next (s1.fault 9)
      else
        let s2 := if s1.sch.recorded then s1 else s1.recordFault 10 n.origin.val n.cause.val
        .next (s2.holdTr n.tr.toNat)
    else .next s1

/-- Would the pace in force at a boundary, given with the number of notices held at it, have differed had a notice been held
then (R143)?
(DEDUCED: log 43.) -/
def lateFor (l : List PaceN) (n : PaceN) (x : Nat × Nat) : Bool :=
  let then_ := l.drop (l.length - x.2)
  decide (n.stamp + 16000 ≤ x.1) && decide (paceAt (n :: then_) x.1 ≠ paceAt then_ x.1)

/-- A PACE notice (R143): kept; late when the pace in force at a boundary that has passed would have differed.
(DEDUCED: log 43.) -/
def execPaceNoticeRx (p : Fin 24) (n : Notice) (s : State) : Host.Outcome State Fault Refusal :=
  match s.acceptNotice? 3 p n with
  | none => .next s
  | some s1 =>
    let s1 := s1.pulse 114
    let x : PaceN := { dev := n.origin.val, level := n.level.val, stamp := n.stamp.toNat }
    let s2 : State := { s1 with sch := { s1.sch with paces := x :: s1.sch.paces } }
    .next (if s1.sch.opens.any (lateFor s1.sch.paces x) then s2.fault 9 else s2)

/-- The device's own level is the larger of the two requests; a change is flooded at once (R143).
(DEDUCED: log 43.) -/
def State.ownPace (s : State) : State :=
  let v := max (s.fld fSCH_PACE_REQ_LEVEL) s.sch.pacePwr
  if v = s.fld fSCH_PACE_OWN then s else
  let s1 := s.setFld fSCH_PACE_OWN v
  let s2 := s1.floodOwn 3 { s1.ownNotice 3 with level := Fin.ofNat 16 v }
  { s2 with sch := { s2.sch with paces := { dev := s.devNum, level := v, stamp := s.sch.tb.toNat } :: s2.sch.paces } }

/-- A write of SCH_PACE_REQ (R143, R146).
(DEDUCED: log 43.) -/
def State.paceReqWrite (s : State) (v : BitVec 32) : State := (s.setFld fSCH_PACE_REQ_LEVEL (bitsOf v.toNat 0 4)).ownPace

def execPaceReqWrite (v : BitVec 32) (s : State) : Host.Outcome State Fault Refusal := .next (s.paceReqWrite v)

/-! ### Bulk moves (R495) -/

/-- Set the state of move `i` of the open epoch. -/
def State.setMove (s : State) (i : Nat) (m : MoveSt) : State :=
  { s with sch := { s.sch with epoch := s.sch.epoch.map (fun e => { e with moves := e.moves.set i m }) } }

/-- A free channel of the sixteen takes a move whose START has come: the waiting one with the least index. -/
def execMoveStart (i : Nat) (s : State) : Host.Outcome State Fault Refusal :=
  match s.sch.epoch with
  | none => .next s
  | some e =>
    match e.blk.moves[i]? with
    | none => .next s
    | some m =>
      let s1 := s.atTb (e.opened + 8 * m.start)
      let due (k : Nat) : Bool := (match e.blk.moves[k]? with
          | some x => e.opened + 8 * x.start ≤ s1.sch.tb.toNat | none => false) && decide (e.moves[k]? = some .waiting)
      if s.running = false ∨ e.closed ∨ 16 ≤ s.sch.chans.length ∨ due i = false ∨ (List.range i).any due then .next s
      else .next ({ s1 with sch := { s1.sch with chans := s1.sch.chans ++ [i] } }.setMove i .running)

/-- A move is complete: SIG is sent and the channel freed (R495).
(DESIGN CHOICE: log 39.) -/
def State.endMove (s : State) (i : Nat) (m : Mv) : State :=
  let s1 := s.setMove i .done
  (({ s1 with sch := { s1.sch with chans := s1.sch.chans.filter (fun k => decide (k ≠ i)) } } : State).signalTarget m.sig).metNow

/-- The status with which a move's accesses end: `st`, unless the state itself refuses one (R140, R495). -/
def State.moveSt (s : State) (m : Mv) (st : Status) : Status :=
  match s.accessSt m.src m.len with
  | .ok => match s.accessSt m.dst m.len with | .ok => st | x => x
  | x => x

/-- Every write of a move is issued, and the move is complete once all are acknowledged, none of them held by
copy-before-write (R68, R255, R495); an access that fails faults the epoch with cause DATA, and the move is never complete
(R140). -/
def execMoveComplete (i : Nat) (st : Status) (s : State) : Host.Outcome State Fault Refusal :=
  match s.sch.epoch with
  | none => .next s
  | some e =>
    match e.blk.moves[i]?, e.moves[i]? with
    | some m, some .running =>
      if s.running = false then .next s
      else if s.moveSt m st ≠ .ok then .next (s.fault 5)
      else
        let s1 := s.moveLines m.src m.dst (m.len / 64) (.move i)
        .next (if s1.holds (.move i) then s1.setMove i .copied else s1.endMove i m)
    | some m, some .copied => .next (if s.holds (.move i) then s else s.endMove i m)
    | _, _ => .next s

end Sys2Proof.Machine
end

