-- ==== Sys2Proof/Machine/Flits.lean ====
section
/-! DEFINITION. Flits: their check and correction (R151), the flits of a stream (R150), and the arithmetic that a port
applies to an arriving sown flit (R189 to R194). -/

namespace Sys2Proof.Machine

open Sys2Proof

/-- One bit step of the reflected CRC. -/
def crcStep (c : BitVec 32) : BitVec 32 := if c.getLsbD 0 then (c >>> 1) ^^^ 0x82F63B78 else c >>> 1

/-- The bit of `n` data bits, the last first, whose error gives syndrome `d`; `c` is the syndrome of the bit after.
(DEDUCED: log 47.) -/
def findBit (d : BitVec 32) : Nat → BitVec 32 → Option Nat
  | 0, _ => none
  | n + 1, c => if crcStep c = d then some n else findBit d n (crcStep c)

/-- Turn one bit of bytes over. -/
def flipBit (l : List Byte) (i : Nat) : List Byte := l.modify (i / 8) (fun b => b ^^^ BitVec.ofNat 8 (2 ^ (i % 8)))

/-- What the check of R151 makes of 320 bytes: uncorrectable, or the flit's 316 bytes and whether a bit was corrected.
(DEDUCED: log 47.) -/
def checkFlit (b : List Byte) : Option (List Byte × Bool) :=
  if b.length ≠ 320 then none else
  let m := b.take 316
  let d := crc32c m ^^^ BitVec.ofNat 32 (fieldAt b 316 4)
  if d = 0 then some (m, false)
  else if d &&& (d - 1) = 0 then some (m, true)
  else match findBit d 2528 1 with
    | some i => some (flipBit m i, true)
    | none => none

/-- The header of a flit: fields of R150. -/
structure Hdr where
  cls : Nat
  seq : Nat
  dst : Nat
  plen : Nat
  first : Bool
  last : Bool
  op : Nat
  typ : Nat
  sem : Nat
  lpav : Nat
  scope : Bool
  vc : Nat
  lane : Nat
  addr : Nat
  src : Nat
  gen : Nat
  deriving DecidableEq, Repr

/-- Read a header. -/
def parseHdr (b : List Byte) : Hdr :=
  let h := fieldAt b 0 12
  { cls := bitsOf h 0 2, seq := bitsOf h 2 10, dst := bitsOf h 12 14, plen := bitsOf h 26 5, first := bitOf h 31,
    last := bitOf h 32, op := bitsOf h 33 2, typ := bitsOf h 35 7, sem := bitsOf h 35 6, lpav := bitsOf h 41 7,
    scope := bitOf h 48, vc := bitsOf h 35 3, lane := bitsOf h 49 1, addr := 16 * bitsOf h 50 46, src := bitsOf h 50 14,
    gen := bitsOf h 64 8 }

/-- The 316 bytes of a flit, its SEQ 0: header bits above SEQ, and a payload filled with zeros. -/
def flitBytes (h : Nat) (payload : List Byte) : List Byte :=
  leBytes 12 h ++ payload ++ List.replicate (304 - payload.length) 0

/-- Flit `k` of a stream with its payload (R150). -/
def sownFlit (x : Strm) (k : Nat) (payload : List Byte) : List Byte :=
  let n := min 19 ((x.len - 304 * k) / 16)
  let sig := bitsOf x.sig.toNat 0 13 + 8192 * bitsOf x.sig.toNat 15 1
  flitBytes (1 + 2 ^ 12 * x.dev + 2 ^ 26 * n + 2 ^ 31 * b2n (k = 0) + 2 ^ 32 * b2n (k + 1 = strmFlits x) + 2 ^ 33 * x.op +
    2 ^ 35 * sig + 2 ^ 50 * bitsOf (x.dst + 304 * k) 4 46) payload

/-- A volunteer packet as flits, and each flit's class and lane (R150). -/
def volFlits (k : VolPacket) (hi : Bool) : List (List Byte) :=
  let n := max 1 (ceilDiv k.payload.length 304)
  (List.range n).map (fun i =>
    let p := (k.payload.drop (304 * i)).take 304
    flitBytes (2 + 2 ^ 12 * k.dst.val + 2 ^ 26 * max 1 (ceilDiv p.length 16) + 2 ^ 31 * b2n (i = 0) + 2 ^ 32 * b2n (i + 1 = n) +
      2 ^ 35 * k.vc.val + 2 ^ 38 * k.path.toNat + 2 ^ 49 * b2n hi + 2 ^ 50 * k.src.val + 2 ^ 64 * k.gen.toNat) p)

/-- The type of a control message (R169). -/
def Ctrl.typ : Ctrl → Nat
  | .idle => 0
  | .nak _ => 1
  | .credit _ => 2
  | .tsRequest _ => 3
  | .tsReply .. => 3
  | .notice .. => 4
  | .routed .. => 5
  | .train .. => 6

/-- The fields that a control flit's payload carries (R169). -/
def Ctrl.fields : Ctrl → List Nat
  | .idle => []
  | .nak l => l.length :: l.map (fun q => q.toNat)
  | .credit n => n
  | .tsRequest t => [twosOf 64 t]
  | .tsReply t1 t2 t3 k d => [twosOf 64 t1, twosOf 64 t2, twosOf 64 t3, b2n k, d]
  | .notice k n => [k, n.origin.val, n.num.toNat, n.stamp.toNat, n.image.toNat, n.step.toNat, n.attempt.toNat, n.cause.val,
      n.tr.toNat, n.level.val, n.gen.toNat]
  | .routed .. => []
  | .train o d p g => [o, d, p, g]

/-- The payload of a control flit: nothing in an IDLE, the message's own bytes in a ROUTED flit.
(DESIGN CHOICE: log 158.) -/
def Ctrl.payload : Ctrl → List Byte
  | .idle => []
  | .routed m _ _ => m.data.take 304
  | m => (Config.ctrlPayload m.typ m.fields).take 304

/-- The 316 bytes of a control flit that device `dev` sends, its SEQ 0 (R150).
(DESIGN CHOICE: log 158.) -/
def ctrlBytes (dev : Nat) (m : Ctrl) : List Byte :=
  let p := m.payload
  let n := 2 ^ 26 * ceilDiv p.length 16 + 2 ^ 35 * m.typ
  match m with
  | .routed r f l => flitBytes (n + 2 ^ 12 * r.dst.val + 2 ^ 31 * b2n f + 2 ^ 32 * b2n l + 2 ^ 50 * r.src.val + 2 ^ 64 * r.gen.toNat) p
  | _ => flitBytes (n + 2 ^ 31 + 2 ^ 32 + 2 ^ 50 * dev) p

/-- The flits of a ROUTED message (R150, R169). -/
def routedFlits (m : RoutedMsg) : List Ctrl :=
  let n := max 1 (ceilDiv m.data.length 304)
  (List.range n).map (fun i => .routed { m with data := (m.data.drop (304 * i)).take 304 } (i = 0) (i + 1 = n))

/-- The 316 bytes of a flit of device `dev`, its SEQ 0. -/
def Flit.bytes (dev : Nat) : Flit → List Byte
  | .sown b => b
  | .vol b => b
  | .ctrl m => ctrlBytes dev m

/-- The 320 bytes of a flit with its SEQ and its CRC-32C (R149). -/
def wireFlit (dev seq : Nat) (f : Flit) : List Byte :=
  let b := f.bytes dev
  let m := leBytes 12 (fieldAt b 0 12 + 4 * seq) ++ b.drop 12
  m ++ leBytes 4 (crc32c m).toNat

/-- Byte `b` of a flit goes to lane `b` mod 4 (R149). -/
def stripe (b : List Byte) : List (List Byte) := (List.range 4).map (fun l => (List.range 80).map (fun i => b.getD (4 * i + l) 0))

/-- Eight steps of the PRBS31 sequence x^31 + x^28 + 1 (R152): bit 30 is the oldest bit of the register, bit 0 the newest. -/
def prbs8 (x : BitVec 31) : BitVec 31 := (x <<< 8) ||| (((x >>> 23) ^^^ (x >>> 20)) &&& 0xFF)

/-- `n` bytes of the sequence later. -/
def prbsSkip : Nat → BitVec 31 → BitVec 31
  | 0, x => x
  | n + 1, x => prbsSkip n (prbs8 x)

/-- The scrambled bytes of a lane (R152), bit 0 of a byte being the first on the lane.
(DESIGN CHOICE: log 158.) -/
def scramble : BitVec 31 → List Byte → List Byte
  | _, [] => []
  | x, b :: r => (b ^^^ (BitVec.extractLsb' 0 8 (prbs8 x)).reverse) :: scramble (prbs8 x) r

/-- RNE sums of little-endian FP32 values (R189). -/
def addWords (n : Nat) (d p : List Byte) : List Byte :=
  (List.range n).flatMap (fun i =>
    leBytes 4 (fadd 0 (BitVec.ofNat 32 (fieldAt d (4 * i) 4)) (BitVec.ofNat 32 (fieldAt p (4 * i) 4))).toNat)

/-- Blocks, scale units, and bits of an element in an MX wire record (R193). -/
def wireShape (c : Nat) : Option (Nat × Nat) :=
  if c = 0xA ∨ c = 0xB ∨ c = 0xF then some (9, 1)
  else if c = 0xC ∨ c = 0xD then some (12, 1)
  else if c = 0xE then some (17, 2)
  else none

/-- One MX block added to another, as element codes and scales (R194). -/
def wireBlock (c sa sb : Nat) (a b : List Nat) : List Nat × Nat :=
  mxQuant c 0 ((List.zip a b).map (fun x => val32 (fadd 0 (mxDecode c sa x.1) (mxDecode c sb x.2))))

/-- The sum of two MX wire records; none where R194 takes the flit as misrouted. -/
def wireAdd (d p : List Byte) : Option (List Byte) :=
  let c := fieldAt p 0 1
  match wireShape c with
  | none => none
  | some (nb, su) =>
    let w := fmtBits c
    let reserved := (p.drop (1 + nb)).take (16 * su - 1 - nb)
    if fieldAt d 0 1 ≠ c ∨ reserved.any (fun x => x ≠ 0) then none else
    let es (r : List Byte) := unpackNat w (32 * nb) (leNat (r.drop (16 * su)))
    let blk (l : List Nat) (i : Nat) := (l.drop (32 * i)).take 32
    let out := (List.range nb).map (fun i =>
      wireBlock c (fieldAt d (1 + i) 1) (fieldAt p (1 + i) 1) (blk (es d) i) (blk (es p) i))
    some (leBytes 1 c ++ out.flatMap (fun x => leBytes 1 x.2) ++ List.replicate (16 * su - 1 - nb) 0 ++
      leBytes (304 - 16 * su) (packNat w (out.flatMap (fun x => x.1))))

end Sys2Proof.Machine
end

