-- ==== Sys2Proof/Machine/Fabric.lean ====
section
/-! DEFINITION. The Quafin fabric ports (R147 to R181, R496): slots, sequence numbers and retransmission, the elastic
buffer, transit, sown data, volunteer traffic and credits, routing, training. -/

namespace Sys2Proof.Machine

open Sys2Proof

/-- A port. -/
def State.fport (s : State) (p : Fin 24) : FabPort := s.fab.ports[p]

/-- Is a port ACTIVE? -/
def State.portUp (s : State) (p : Fin 24) : Bool := s.portState p.val = 5

/-- Does a port carry sown traffic (R159)? -/
def State.sownOk (s : State) (p : Fin 24) : Bool := s.flag (fFAB_PORT_STATUS_SOWN_OK p.val)

/-- Count a flit discarded on a port.
(DEDUCED: log 47.) -/
def State.discardFlit (s : State) (p : Fin 24) : State := s.count (fFAB_DISCARD_COUNT p.val) 1

/-! ### Training -/

/-- The port leaves ACTIVE (R148, R174): LOSS, the event, the link's state ends, an epoch with a run on the port faults with
cause GLEAN, and a parent link takes LOCKED with it (R116). NAK and CREDIT flits that wait are of the old link.
(DEDUCED: log 48.) -/
def State.leaveFab (s : State) (p : Fin 24) : State :=
  if s.portUp p = false then s else
  let x := s.fport p
  let keep (q : Queued) : Bool := match q.flit with
    | .ctrl (.nak _) => false | .ctrl (.credit _) => false | .ctrl (.tsRequest _) => false | .ctrl (.tsReply ..) => false
    | _ => true
  let s1 := s.setPort p { FabPort.reset with
    ctrlQ := x.ctrlQ.filter keep, volQ := x.volQ, coeffs := x.coeffs,
    dsOn := x.dsOn, maxOn := x.maxOn, retxCount := x.retxCount }
  let s2 := s1 |>.setFld (fFAB_PORT_STATUS_SOWN_OK p.val) 0 |>.setFld (fFAB_PORT_STATUS_VERSION p.val) 0
    |>.raise (fFAB_PORT_STATUS_LOSS p.val) |>.event0 blkFAB 0x0105 p.val .targetReset
  let s3 := match s.sch.epoch with | some e => if e.blk.usesPort p.val then s2.fault 4 else s2 | none => s2
  if s.flag fSCH_TS_CTRL_ROOT = false ∧ s.fld fSCH_TS_CTRL_PARENT_PORT = p.val then s3.loseLock else s3

/-- Does a saved record serve the port's next training: one for its partner of the last NEGOTIATE, if there was one (R420)?
(DEDUCED: log 48.) -/
def State.fabRecord (s : State) (p : Fin 24) : Bool :=
  s.ldg.flash.fabTrain.any (fun r => r.1 == p && (!s.flag (fFAB_PORT_PEER_VALID p.val) ||
    (r.2.1.toNat == s.fld (fFAB_PORT_PEER_DEV p.val) && r.2.2.toNat == s.fld (fFAB_PORT_PEER_PORT p.val))))

/-- What the wire carries of a flit with its SEQ in a position of a slot: the bytes of the four lanes, scrambled (R152). Every
position since ALIGN has carried 80 bytes of each lane.
(DESIGN CHOICE: log 158.) -/
def State.onWire (s : State) (p : Fin 24) (slot pos seq : Nat) (f : Flit) : List (List Byte) :=
  let a := (s.fport p).scramAt
  (stripe (wireFlit s.devNum seq f)).mapIdx (fun l b => scramble (prbsSkip (80 * (2 * (slot - a) + pos)) (Config.scramSeed p.val l a)) b)

/-- A port that enters NEGOTIATE sends its offer, device number, port and generation (R169, R172, R173).
(DESIGN CHOICE: log 158.) -/
def State.sendTrain (s : State) (p : Fin 24) : State :=
  s.emit (.flit p.val s.slot 0 (s.onWire p s.slot 0 0 (.ctrl (.train (min (s.fport p).maxOn 3) s.devNum p.val (s.fld fTOP_GEN_DEV_GEN)))))

/-- Enter a training state; the settings of FAB_PORT_CTRL are applied at the start of a training (R181), and ALIGN seeds the
scramblers (R152, R172).
(DEDUCED: log 48, 138.) -/
def State.trainState (s : State) (p : Fin 24) (st reason : Nat) : State :=
  let s0 := (s.leaveFab p).setFld (fFAB_PORT_STATUS_STATE p.val) st |>.setFld (fFAB_PORT_STATUS_REASON p.val) reason
  let s1 := (if st = 4 then s0.sendTrain p else s0).pulse (32 + p.val)
  let x := s1.fport p
  let x1 := { x with since := s1.now }
  s1.setPort p (if st = 2 then { x1 with coeffs := x.coeffs || s1.fabRecord p, dsOn := s1.fld (fFAB_PORT_CTRL_DS p.val),
                                         maxOn := s1.fld (fFAB_PORT_CTRL_MAX_VERSION p.val) }
    else if st = 3 then { x1 with scramAt := s1.slot } else x1)

/-- A port retrains: to EQUALIZE with its saved coefficients (R158, R172).
(DEDUCED: log 49.) -/
def State.retrain (s : State) (p : Fin 24) : State :=
  (s.trainState p 2 0).count (fFAB_RETRAIN_COUNT p.val) 1

/-- A write of FAB_PORT_CTRL[p] (R172, R181). A gated port ignores ENABLE (R406). A DS above 240 and a MAX_VERSION other than 2 and 3 are reserved encodings.
(DEDUCED: log 49.) -/
def State.portCtrlWrite (s : State) (p : Fin 24) (v : BitVec 32) : State :=
  let ds := bitsOf v.toNat 8 8
  let mv := bitsOf v.toNat 4 4
  let s1 := if ds ≤ 240 then s.setFld (fFAB_PORT_CTRL_DS p.val) ds else s
  let s2 := if mv = 2 ∨ mv = 3 then s1.setFld (fFAB_PORT_CTRL_MAX_VERSION p.val) mv else s1
  let s3 := s2.setFld (fFAB_PORT_CTRL_ENABLE p.val) (b2n (bitOf v.toNat 0))
  let st := s.portState p.val
  if s.gated (s.skuField 8 4) p.val then s2
  else if bitOf v.toNat 0 = false then (if st = 0 then s3 else s3.trainState p 0 0)
  else if st = 0 ∨ st = 7 then s3.trainState p 1 0
  else if bitOf v.toNat 1 ∧ st = 5 then s3.retrain p
  else s3

def execFabPortEnable (p : Fin 24) (v : BitVec 32) (s : State) : Host.Outcome State Fault Refusal := .next (s.portCtrlWrite p v)
def execFabPortDisable (p : Fin 24) (v : BitVec 32) (s : State) : Host.Outcome State Fault Refusal := .next (s.portCtrlWrite p v)
def execFabPortRetrain (p : Fin 24) (v : BitVec 32) (s : State) : Host.Outcome State Fault Refusal := .next (s.portCtrlWrite p v)

/-- Every 1 ms a port in DETECT looks for a partner (R172).
(PRESUMED: log 56.) -/
def execFabDetectPoll (p : Fin 24) (found : Bool) (s : State) : Host.Outcome State Fault Refusal :=
  if s.portState p.val ≠ 1 then .next s else
  let s1 := s.atLeast ((s.fport p).since + msTicks)
  .next (s1.trainState p (if found then 2 else 1) 0)

/-- Longest time of a training state, in ticks (R172).
(PRESUMED: log 56.) -/
def trainLimit (st : Nat) (fast : Bool) : Nat :=
  if st = 2 then (if fast then 200 * usTicks else 20 * msTicks) else if st = 3 then 10 * usTicks else 50 * usTicks

/-- The end of NEGOTIATE (R159, R172, R173): the reason for which it fails, or the version. -/
def negotiate (mine peer : Nat) (same : Bool) : Except Nat Nat :=
  let v := min (min mine 3) (min peer 3)
  if same then .error 3 else if v = 2 ∨ v = 3 then .ok v else .error 1

/-- A fast start that does not end falls back once to full training (R420).
(DEDUCED: log 49, 132.) -/
def State.trainFail (s : State) (p : Fin 24) : State :=
  if s.portState p.val = 2 ∧ (s.fport p).coeffs then s.setPort p { s.fport p with coeffs := false, since := s.now }
  else s.trainState p 7 2

/-- Does a version 2 link carry a control message: a notice it does not (R173)? -/
def carriedAt2 (q : Queued) : Bool := match q.flit with | .ctrl (.notice ..) => false | _ => true

/-- A training state ends (R172); one that has outlasted its longest time has failed. In NEGOTIATE a port that succeeds becomes ACTIVE, with a full set of credits (R166).
(PRESUMED: log 56.) -/
def execFabTrainStateDone (p : Fin 24) (x : TrainX) (s : State) : Host.Outcome State Fault Refusal :=
  let st := s.portState p.val
  if st ≠ 2 ∧ st ≠ 3 ∧ st ≠ 4 then .next s
  else if x.ok = false ∨ (s.fport p).since + trainLimit st (s.fport p).coeffs < s.now then .next (s.trainFail p)
  else if st = 2 then .next ((s.setPort p { s.fport p with coeffs := true }).trainState p 3 0 )
  else if st = 3 then .next (s.trainState p 4 0)
  else match negotiate (s.fport p).maxOn x.peerVersion (x.peerDev.val = s.devNum) with
    | .error r => .next (s.trainState p 7 r)
    | .ok v =>
      let d := min x.delay 0xFFFF
      let ds := (s.fport p).dsOn
      let s1 := s.trainState p 5 0
      let x1 := s1.fport p
      let s2 := s1.setPort p { x1 with credits := Vector.replicate 16 53, owed := Vector.replicate 16 0,
                                       ctrlQ := if v = 3 then x1.ctrlQ else x1.ctrlQ.filter carriedAt2 }
      .next (s2 |>.setFld (fFAB_PORT_STATUS_VERSION p.val) v |>.setFld (fFAB_PORT_STATUS_DELAY p.val) d
        |>.setFld (fFAB_PORT_STATUS_SOWN_OK p.val) (b2n (v = 3 && 1 ≤ ds && x.delay + 8 ≤ 8 * ds))
        |>.setFld (fFAB_PORT_PEER_GEN p.val) x.peerGen.toNat |>.setFld (fFAB_PORT_PEER_PORT p.val) x.peerPort.val
        |>.setFld (fFAB_PORT_PEER_DEV p.val) x.peerDev.val |>.raise (fFAB_PORT_PEER_VALID p.val))

/-- A training state exceeds its longest time (R172).
(PRESUMED: log 56.) -/
def execFabTrainTimeout (p : Fin 24) (s : State) : Host.Outcome State Fault Refusal :=
  let st := s.portState p.val
  if st ≠ 2 ∧ st ≠ 3 ∧ st ≠ 4 then .next s
  else .next ((s.atLeast ((s.fport p).since + trainLimit st (s.fport p).coeffs)).trainFail p)

/-- A loss of lock or a fault of any lane takes a port out of ACTIVE to retrain (R148, R158). -/
def execFabLaneFault (p : Fin 24) (_lane : Fin 4) (s : State) : Host.Outcome State Fault Refusal :=
  if s.portUp p then .next (s.retrain p) else .next s

/-- A write of FAB_DEVNUM: ignored while any port is not DISABLED (R175). -/
def State.devnumWrite (s : State) (v : BitVec 32) : State :=
  if (List.range 24).any (fun p => decide (s.portState p ≠ 0)) then s.raise fFAB_ERR_CFG_DROP
  else s.setFld fFAB_DEVNUM_DEV (bitsOf v.toNat 0 14)

def execFabDevnumWrite (v : BitVec 32) (s : State) : Host.Outcome State Fault Refusal := .next (s.devnumWrite v)

/-- A write of FAB_RT_CTRL (R168). -/
def State.rtCtrlWrite (s : State) (v : BitVec 32) : State :=
  if bitsOf v.toNat 16 16 ≠ 0xA55A ∨ bitOf v.toNat 1 = false then s
  else if s.flag fFAB_RT_CTRL_PENDING then s.raise fFAB_ERR_CFG_DROP
  else if s.running then s.raise fFAB_RT_CTRL_PENDING
  else s.switchRt

def execFabRtCommit (v : BitVec 32) (s : State) : Host.Outcome State Fault Refusal := .next (s.rtCtrlWrite v)

/-! ### Transmission (R153 to R158) -/

/-- Send a counted flit for the first time: it takes the next SEQ and enters the replay buffer (R155). -/
def State.sendNew (s : State) (p : Fin 24) (slot pos : Nat) (f : Flit) : State :=
  let x := s.fport p
  let e : Sent := { seq := x.txSeq, flit := f, epoch := BitVec.ofNat 32 (s.fld fSCH_EPOCH_VALUE) }
  (s.setPort p { x with txSeq := (x.txSeq + 1) % 1024, replay := (x.replay ++ [e]).drop (x.replay.length + 1 - 1024) }).emit
    (.flit p.val slot pos (s.onWire p slot pos x.txSeq f))

/-- Send a flit again, unchanged, with its SEQ (R155). -/
def State.sendAgain (s : State) (p : Fin 24) (slot pos : Nat) (e : Sent) : State :=
  s.emit (.flit p.val slot pos (s.onWire p slot pos e.seq e.flit))

/-- The epoch by which sown flits are judged: its runs, its opening slot and its number: the one that is open and not closed,
or, in a warm reset, the one whose TRANSIT runs are kept until its close (R176).
(DEDUCED: log 53.) -/
def State.slice? (s : State) : Option (List Run × Nat × Nat) :=
  match s.sch.epoch, s.fab.kept with
  | some e, _ => if e.closed || !s.running then none else some (e.blk.runs, e.opened / 8, s.fld fSCH_EPOCH_VALUE)
  | none, some k => if s.sch.tb.toNat < k.close then some (k.runs, k.opened / 8, k.epoch) else none
  | none, none => none

/-- The run on a port in a slot, where the port carries sown traffic (R159, R173, R176). -/
def State.runAt (s : State) (p : Fin 24) (slot : Nat) : Option Run :=
  match s.slice? with
  | some (runs, o, _) =>
    if s.sownOk p then runs.find? (fun r => r.port == p.val && (o + r.start ≤ slot && slot < o + r.start + r.count)) else none
  | none => none

/-- The next flit of a stream, where it has one left (R128, R150). A source that does not answer faults the epoch (R140). -/
def State.streamFlit (s : State) (k : Nat) : Option (State × Option Flit) :=
  match s.sch.epoch with
  | none => none
  | some e =>
    match e.blk.streams[k]?, e.sent[k]? with
    | some x, some n =>
      if strmFlits x ≤ n then none else
      let len := min 304 (x.len - 304 * n)
      if s.accessSt (x.src + 304 * n) len ≠ .ok then some (s.fault 5, none) else
      let s1 : State := { s with sch := { s.sch with epoch := some { e with sent := e.sent.set k (n + 1) } } }
      some (if n + 1 = strmFlits x then s1.metNow else s1, some (.sown (sownFlit x n (s.bytes (x.src + 304 * n) len))))
    | _, _ => none

/-- The flit that a run sends in a position of a slot, if it has one (R128, R153, R160): the state after, and whether the position
is taken. -/
def State.sendRun (s : State) (p : Fin 24) (r : Run) (slot pos : Nat) : State × Bool :=
  if r.flits ≤ pos then (s, false)
  else if r.kind = 1 then
    match s.streamFlit r.stream with
    | some (s1, some f) => (s1.sendNew p slot pos f, true)
    | some (s1, none) => (s1, false)
    | none => (s, false)
  else
    let x := s.fport p
    match x.fwd.find? (fun e => e.1 == slot && e.2.1 == pos) with
    | none => (s, false)
    | some e => ((s.setPort p { x with fwd := x.fwd.filter (fun y => decide (y ≠ e)) }).sendNew p slot pos (.sown e.2.2), true)

/-- The first retransmission that may leave, if any: the state after, and whether the position is taken. One that would exceed 2G of
the open epoch is not sent, and the epoch faults; one of an epoch that has closed counts against no budget (R139, R157,
R496). -/
def State.sendRetx (s : State) (p : Fin 24) (slot pos : Nat) : List (Nat × Nat) → State × Bool
  | [] => (s, false)
  | q :: l =>
    if slot < q.2 then s.sendRetx p slot pos l else
    let x := s.fport p
    let s1 := s.setPort p { x with retx := x.retx.erase q }
    match x.replay.find? (fun e => e.seq == q.1) with
    | none => s.sendRetx p slot pos l
    | some e =>
      let counts := e.flit.isSown && s.sch.epoch.any (fun o => !o.closed) && s.running && e.epoch.toNat == s.fld fSCH_EPOCH_VALUE
      if counts = false then (s1.sendAgain p slot pos e, true)
      else
        let g := match s.sch.epoch with | some o => o.glean | none => 0
        if 2 * g < x.retxCount + 1 then (s1.fault 4).sendRetx p slot pos l
        else (((s1.setPort p { s1.fport p with retxCount := x.retxCount + 1 }).count (fFAB_RETX_COUNT p.val) 1).sendAgain
          p slot pos e, true)

/-- A late transit forward of the epoch that is open, and may leave (R161). -/
def State.sendLate (s : State) (p : Fin 24) (slot pos : Nat) : Option State :=
  let x := s.fport p
  match x.late.find? (fun e => e.1 ≤ slot && s.slice?.any (fun k => k.2.2 = e.2.1.toNat)) with
  | none => none
  | some e =>
    some (((s.setPort p { x with late := x.late.erase e }).count (fFAB_LATE_COUNT p.val) 1).sendNew p slot pos (.sown e.2.2))

/-- The order of control flits (R153): NAK, notices, the others.
(DEDUCED: log 46.) -/
def ctrlRank (q : Queued) : Nat :=
  match q.flit with | .ctrl (.nak _) => 0 | .ctrl (.notice ..) => 1 | _ => 2

/-- May the device's own volunteer and ROUTED flits leave (R177)? -/
def State.ownFree (s : State) : Bool := !s.fab.genDue && s.fab.genHold.isNone

/-- A time-exchange message takes its send time as it leaves (R115, R159). -/
def State.stamped (s : State) : Flit → Flit
  | .ctrl (.tsRequest _) => .ctrl (.tsRequest s.tbPs)
  | .ctrl (.tsReply t1 t2 _ l d) => .ctrl (.tsReply t1 t2 s.tbPs l d)
  | f => f

/-- A control flit that may leave.
(DEDUCED: log 46.) -/
def State.sendCtrl (s : State) (p : Fin 24) (slot pos : Nat) : Option State :=
  let x := s.fport p
  let ready (k : Nat) (q : Queued) : Bool := q.slot ≤ slot && ctrlRank q == k &&
    (match q.flit with | .ctrl (.routed ..) => q.src ≠ 24 || s.ownFree | _ => true)
  match (List.range 3).findSome? (fun k => x.ctrlQ.find? (ready k)) with
  | none => none
  | some q => some ((s.setPort p { x with ctrlQ := x.ctrlQ.erase q }).sendNew p slot pos (s.stamped q.flit))

/-- Class and lane of a queued volunteer flit, and its index among the sixteen pairs. -/
def volPair (q : Queued) : Nat :=
  match q.flit with | .vol b => 2 * (parseHdr b).vc + (parseHdr b).lane | _ => 0

/-- `n` flits leave the receive buffer of a pair on an input port, and their credits are owed (R166). -/
def State.freeBuf (s : State) (src pair n : Nat) : State :=
  if h : src < 24 then
    let x := s.fport ⟨src, h⟩
    s.setPort ⟨src, h⟩ { x with owed := x.owed.mapIdx (fun i k => if i = pair then k + n else k) }
  else s

/-- A volunteer flit that may leave (R165, R166): the highest class with a flit and a credit; within it the input whose packet
goes on, else the next input in round-robin order. -/
def State.sendVol (s : State) (p : Fin 24) (slot pos : Nat) : Option State :=
  let x := s.fport p
  let ok (q : Queued) : Bool := q.slot ≤ slot && 1 ≤ x.credits.toList.getD (volPair q) 0 && (q.src ≠ 24 || s.ownFree)
  let pick (c : Fin 8) : Option Queued :=
    let l := x.volQ.filter (fun q => volPair q / 2 == c.val)
    let heads (src : Nat) : Option Queued := (l.find? (fun q => q.src == src)).filter ok
    let cur := x.rrIn[c]
    if cur.2 then heads cur.1 else (List.range 25).findSome? (fun i => heads ((cur.1 + 1 + i) % 25))
  match (List.finRange 8).reverse.findSome? (fun c => (pick c).map (fun q => (c, q))) with
  | none => none
  | some (c, q) =>
    let k := volPair q
    let last := match q.flit with | .vol b => (parseHdr b).last | _ => true
    some (((s.setPort p { x with volQ := x.volQ.erase q, rrIn := x.rrIn.set c (q.src, !last)
                                 credits := x.credits.mapIdx (fun i n => if i = k then n - 1 else n) }).freeBuf q.src q.inPair 1).sendNew
      p slot pos q.flit)

/-- Fill one position of a slot (R153, R154). -/
def State.sendPos (s : State) (p : Fin 24) (slot pos : Nat) : State :=
  let own := match s.runAt p slot with | some r => s.sendRun p r slot pos | none => (s, false)
  if own.2 then own.1 else
  let again := own.1.sendRetx p slot pos (own.1.fport p).retx
  if again.2 then again.1 else
  let t := again.1
  match t.sendLate p slot pos with
  | some u => u
  | none =>
    match t.sendCtrl p slot pos with
    | some u => u
    | none =>
      match t.sendVol p slot pos with
      | some u => u
      | none => t.emit (.flit p.val slot pos (t.onWire p slot pos (t.fport p).txSeq (.ctrl .idle)))

/-- Return credits: when the count of a pair has risen by 8, and at least every 64 slots while any is owed (R166). -/
def State.returnCredits (s : State) (p : Fin 24) (slot : Nat) : State :=
  let x := s.fport p
  let o := x.owed.toList
  if o.any (fun n => 8 ≤ n) || (o.any (fun n => 1 ≤ n) && x.owedSince + 64 ≤ slot) then
    s.setPort p { x with owed := Vector.replicate 16 0, owedSince := slot,
                         ctrlQ := x.ctrlQ ++ [{ flit := .ctrl (.credit o), slot := slot }] }
  else s

/-- At each slot, each port that is ACTIVE sends its two positions (R153).
(DEDUCED: log 54.) -/
def execSlotTransmit (s : State) : Host.Outcome State Fault Refusal :=
  let slot := max (ceilDiv s.sch.tb.toNat 8) s.fab.nextTx
  let s1 := s.atTb (8 * slot)
  let s2 : State := { s1 with fab := { s1.fab with nextTx := slot + 1 } }
  .next ((List.finRange 24).foldl (fun t p =>
    if t.portUp p then ((t.returnCredits p slot).sendPos p slot 0).sendPos p slot 1 else t) s2)

/-! ### Sown flits at the receiver (R159 to R164, R189 to R194) -/

/-- The port and output position to which position `pos` of receive slot `r` is dealt (R160). -/
def dealTo (runs : List Run) (inPort : Nat) (start r pos : Nat) : Option (Nat × Nat) :=
  let l := (runs.filter (fun x => x.kind == 2 && x.inPort == inPort && (start + x.start ≤ r + 2 && r + 2 < start + x.start + x.count)))
  let sorted := sortBy (fun a b => decide (a.port ≤ b.port)) l
  (sorted.foldl (fun (a : Nat × Option (Nat × Nat)) x =>
    (a.1 + x.flits, if a.2.isNone && a.1 ≤ pos && pos < a.1 + x.flits then some (x.port, pos - a.1) else a.2)) (0, none)).2

/-- The runs and the opening slot by which a slice forwards. -/
def State.transit (s : State) : List Run × Nat := match s.slice? with | some (r, o, _) => (r, o) | none => ([], 0)

/-- The slot from which sown flits belong to the epoch that is open; none when none is open.
(DEDUCED: log 40.) -/
def State.epochSlot (s : State) : Option Nat := s.slice?.map (fun k => k.2.1)

/-- A local sown flit is turned away (R162).
(DEDUCED: log 50.) -/
def State.misroute (s : State) : State := (s.count fFAB_MISROUTE_COUNT 1).raise fFAB_ERR_MISROUTE

/-- The completion entry of the target of a flit that came on port `p` (R163, R164). -/
def State.complete (s : State) (p : Fin 24) (h : Hdr) : State :=
  let key := 64 * h.lpav + h.sem
  let n := 16 * h.plen
  let c := (alook key s.fab.comps).getD { first := none, last := none, sum := 0, scope := false, clash := false }
  if c.clash then s else
  let twice := (h.first && c.first.isSome) || (h.last && c.last.isSome)
  let first := if h.first then some h.addr else c.first
  let last := if h.last then some (h.addr + n) else c.last
  let sum := c.sum + n
  let put (x : Comp) (t : State) : State := { t with fab := { t.fab with comps := aput key x t.fab.comps } }
  let beyond := match first, last with | some a, some b => decide (b < a + sum) | _, _ => false
  if twice || beyond then
    ((put { first := first, last := last, sum := sum, scope := h.scope, clash := true } s).raise fFAB_ERR_CLASH).fault 3
  else match first, last with
    | some a, some b =>
      if a + sum = b then
        ({ s with fab := { s.fab with comps := adel key s.fab.comps } } : State).portAdd p h.lpav (Fin.ofNat 64 h.sem) h.scope
      else put { first := first, last := last, sum := sum, scope := h.scope, clash := false } s
    | _, _ => put { first := first, last := last, sum := sum, scope := h.scope, clash := false } s

/-- A local sown flit (R162, R176, R189 to R194). `ecc` is what the read of the destination finds, of OP 1 and OP 2
and of a write that replaces part of a protected unit (R493). -/
def State.localFlit (s : State) (p : Fin 24) (b : List Byte) (ecc : EccOutcome) : State :=
  let h := parseHdr b
  let n := 16 * h.plen
  let data := (b.drop 12).take n
  let near := match s.region? h.addr n with | some .gddr => true | some (.scratch _) => true | _ => false
  if s.fab.resetting then s.discardFlit p
  else if h.dst ≠ s.devNum ∨ h.plen = 0 ∨ 19 < h.plen ∨ (s.region? h.addr n).isNone ∨ h.op = 3 ∨ (h.op ≠ 0 ∧ near = false) ∨
      (h.op = 2 ∧ h.plen ≠ 19) then s.misroute
  else if s.accessSt h.addr n ≠ .ok then s.fault 5
  else
    let u := match s.region? h.addr n with | some (.scratch _) => 8 | some .gddr => 64 | some (.cxl _) => 64 | _ => 1
    let reads := h.op ≠ 0 || !wholeLines h.addr n u
    let s1 := if reads then s.eccAt h.addr ecc else s
    if reads ∧ ecc = .ue then s1.fault 5
    else if h.op = 0 then (s1.devWrite h.addr data true (.port p)).complete p h
    else if h.op = 1 then (s1.devWrite h.addr (addWords (4 * h.plen) (s.bytesHeld h.addr n) data) true (.port p)).complete p h
    else match wireAdd (s.bytesHeld h.addr n) data with
      | none => s1.misroute
      | some r => (s1.devWrite h.addr r true (.port p)).complete p h

/-- A sown flit leaves the elastic buffer (R160 to R162, R496).
(DEDUCED: log 40, 50.) -/
def State.sownRelease (s : State) (p : Fin 24) (e : Elastic) (b : List Byte) (ecc : EccOutcome) : State :=
  if s.fld (fFAB_PORT_STATUS_VERSION p.val) ≠ 3 ∨ s.sownOk p = false then s.discardFlit p else
  match s.slice?, e.miss with
  | none, _ => s.discardFlit p
  | some k, some m =>
    if m.epoch.toNat ≠ k.2.2 then s.discardFlit p
    else match m.dealt with
      | some q =>
        if h : q < 24 then
          let x := s.fport ⟨q, h⟩
          s.setPort ⟨q, h⟩ { x with late := x.late ++ [(e.slot + 2, m.epoch, b)] }
        else s
      | none => s.localFlit p b ecc
  | some k, none =>
    if e.slot - (s.fport p).dsOn < k.2.1 then s.discardFlit p
    else match dealTo s.transit.1 p.val s.transit.2 e.slot e.pos with
      | some (q, k) =>
        if h : q < 24 then
          let x := s.fport ⟨q, h⟩
          s.setPort ⟨q, h⟩ { x with fwd := x.fwd ++ [(e.slot + 2, k, b)] }
        else s
      | none => s.localFlit p b ecc

/-- A control or volunteer flit is passed on (R150, R169, R170): an invalid class, an unknown type or a notice of no kind is
discarded and counted. The message that its flits carry is a command of its own; a volunteer flit stays in the receive buffer
until its packet leaves it (R166).
(DEDUCED: log 42.) -/
def State.passFlit (s : State) (p : Fin 24) (b : List Byte) : State :=
  let h := parseHdr b
  let kind := Config.noticeKind ((b.drop 12).take (16 * h.plen))
  if h.cls = 3 ∨ (h.cls = 0 ∧ 6 < h.typ) ∨ (h.cls = 0 ∧ h.typ = 4 ∧ (kind = 0 ∨ 4 < kind)) then s.discardFlit p else s

/-- Does SEQ `a` come before `b` modulo 1,024? -/
def seqBefore (a b : Nat) : Bool := a ≠ b && (b + 1024 - a) % 1024 < 512

/-- Release the held control and volunteer flits that no missing SEQ precedes, in SEQ order (R156). -/
def State.releaseHeld (s : State) (p : Fin 24) : State :=
  let x := s.fport p
  let free (q : Nat × List Byte) : Bool := x.missing.all (fun m => !seqBefore m.seq q.1)
  (sortBy (fun a b => !seqBefore b.1 a.1) (x.holdRx.filter free)).foldl (fun t q => t.passFlit p q.2)
    (s.setPort p { x with holdRx := x.holdRx.filter (fun q => !free q) })

/-- A flit leaves the elastic buffer and is handled by class (R156, R159, R160). An uncorrectable flit is dealt all the same,
and the port it was dealt to is recorded with its SEQ; a retransmission ends the record of its missing SEQ. -/
def State.handleFlit (s : State) (p : Fin 24) (e : Elastic) (ecc : EccOutcome) : State :=
  let x := s.fport p
  match e.bytes with
  | none =>
    match e.miss, dealTo s.transit.1 p.val s.transit.2 e.slot e.pos with
    | none, some (q, _) =>
      s.setPort p { x with missing := x.missing.map (fun m => if m.seq = e.seq then { m with dealt := some q } else m) }
    | _, _ => s
  | some b =>
    let s1 := if e.miss.isSome then s.setPort p { x with missing := x.missing.filter (fun m => decide (m.seq ≠ e.seq)) } else s
    let e1 := if e.miss.isSome then { e with miss := x.missing.find? (fun m => m.seq == e.seq) } else e
    if (parseHdr b).cls = 1 then (s1.sownRelease p e1 b ecc).releaseHeld p
    else
      let x1 := s1.fport p
      (s1.setPort p { x1 with holdRx := x1.holdRx ++ [(e.seq, b)] }).releaseHeld p

/-- Name missing SEQs in NAK flits of up to 16, in a flit that waits or a new one (R155). -/
def addNak (slot : Nat) (l : List Queued) (q : Nat) : List Queued :=
  let room (x : Queued) : Bool := match x.flit with | .ctrl (.nak s) => s.length < 16 | _ => false
  if l.any room then
    (l.foldl (fun (a : List Queued × Bool) x =>
      match x.flit with
      | .ctrl (.nak s) => if !a.2 && s.length < 16 then (a.1 ++ [{ x with flit := .ctrl (.nak (s ++ [BitVec.ofNat 10 q])) }], true)
                          else (a.1 ++ [x], a.2)
      | _ => (a.1 ++ [x], a.2)) ([], false)).1
  else l ++ [{ flit := .ctrl (.nak [BitVec.ofNat 10 q]), slot := slot }]

/-- SEQs are found missing (R155): recorded with the epoch of the slot in which they were sent (R496), and NAKed. -/
def State.missSeqs (s : State) (p : Fin 24) (sent : Nat) (l : List Nat) : State :=
  let e := match s.slice? with
    | some (_, o, ep) => if sent < o then ep + 2 ^ 32 - 1 else ep
    | none => s.fld fSCH_EPOCH_VALUE
  let slot := if s.sownOk p then sent + (s.fport p).dsOn + 1 else s.slot
  l.foldl (fun t q =>
    let x := t.fport p
    let known := x.missing.any (fun m => m.seq == q)
    t.setPort p { x with missing := if known then x.missing else x.missing ++ [{ seq := q, dealt := none, epoch := BitVec.ofNat 32 e }]
                         ctrlQ := addNak slot x.ctrlQ q }) s

/-- Put a flit in the elastic buffer, or, on a port without slot alignment, handle it at once (R159). -/
def State.buffer (s : State) (p : Fin 24) (sent pos seq : Nat) (b : Option (List Byte)) (m : Option Missing) : State :=
  let x := s.fport p
  let e : Elastic := { slot := sent + x.dsOn, pos := pos, seq := seq, bytes := b, miss := m }
  if s.sownOk p then s.setPort p { x with elastic := x.elastic ++ [e] } else s.handleFlit p e .ok

/-- SEQs from `a` up to but not `b`. -/
def seqRange (a b : Nat) : List Nat := (List.range ((b + 1024 - a) % 1024)).map (fun i => (a + i) % 1024)

/-- A flit arrives, sent in slot `slot` and position `pos` (R151, R154, R155, R158). `q` is the SEQ that a flit whose header
cannot be read stands for.
(DEDUCED: log 47.) -/
def execFlitReceive (p : Fin 24) (slot : Nat) (pos : Fin 2) (q : Fin 1024) (bytes : List (BitVec 8)) (s : State) :
    Host.Outcome State Fault Refusal :=
  if s.portUp p = false then .next s else
  let x := s.fport p
  match checkFlit bytes with
  | none =>
    if 16 ≤ x.badRun + 1 then .next (s.retrain p) else
    let old := x.missing.any (fun m => decide (m.seq = q.val))
    let skipped := if old || !seqBefore x.rxSeq q.val then [] else seqRange x.rxSeq q.val
    let rx := if old || seqBefore q.val x.rxSeq then x.rxSeq else (q.val + 1) % 1024
    let s1 := (s.discardFlit p).setPort p { x with badRun := x.badRun + 1, rxSeq := rx }
    .next ((s1.missSeqs p slot (skipped ++ [q.val])).buffer p slot pos.val q.val none (x.missing.find? (fun m => m.seq == q.val)))
  | some (b, fixed) =>
    let h := parseHdr b
    let s0 := (if fixed then s.count (fFAB_CORR_COUNT p.val) 1 else s).setPort p { x with badRun := 0 }
    let x0 := s0.fport p
    if h.cls = 0 ∧ h.typ = 0 then
      if seqBefore x0.rxSeq h.seq then
        .next ((s0.setPort p { x0 with rxSeq := h.seq }).missSeqs p slot (seqRange x0.rxSeq h.seq))
      else .next s0
    else match x0.missing.find? (fun m => m.seq == h.seq) with
      | some m =>
        if x0.elastic.any (fun y => y.seq = h.seq && y.miss.isSome && y.bytes.isSome) then .next s0
        else .next (s0.buffer p slot pos.val h.seq (some b) (some m))
      | none =>
        if seqBefore h.seq x0.rxSeq then .next s0
        else
          let s1 := (s0.setPort p { x0 with rxSeq := (h.seq + 1) % 1024 }).missSeqs p slot (seqRange x0.rxSeq h.seq)
          .next (s1.buffer p slot pos.val h.seq (some b) none)

/-- A stream-completion entry is found uncorrectable (R460): it is gone, and the epoch faults with cause DATA. -/
def State.compUe (s : State) (key : Nat) : State :=
  (({ s with fab := { s.fab with comps := adel key s.fab.comps } } : State).devUe blkFAB 4 key).fault 5

/-- The elastic buffer releases its first flit in its receive slot, never earlier (R159). `tab` is what the read of the stream-completion
entry of the flit's target finds. -/
def execFlitRelease (p : Fin 24) (ecc tab : EccOutcome) (s : State) : Host.Outcome State Fault Refusal :=
  match (s.fport p).elastic with
  | [] => .next s
  | e :: l =>
    let s1 := s.atTb (8 * e.slot)
    let key := match e.bytes with | some b => 64 * (parseHdr b).lpav + (parseHdr b).sem | none => 0
    let s2 := if (alook key s1.fab.comps).isSome then s1.tableRead tab (fun t => t.compUe key) else s1
    .next ((s2.setPort p { s2.fport p with elastic := l }).handleFlit p e ecc)

/-- A NAK (R155, R158): each flit is sent again at or after 2 slots; a SEQ no longer in the replay buffer makes the port
retrain. -/
def execNakReceive (p : Fin 24) (seqs : List (BitVec 10)) (s : State) : Host.Outcome State Fault Refusal :=
  if s.portUp p = false then .next s else
  let x := s.fport p
  let l := (seqs.take 16).map (fun q => q.toNat)
  if l.any (fun q => x.replay.all (fun e => decide (e.seq ≠ q))) then .next (s.retrain p)
  else .next (s.setPort p { x with retx := x.retx ++ ((l.filter (fun q => x.retx.all (fun e => e.1 ≠ q))).map (fun q => (q, s.slot + 2))) })

/-- A CREDIT flit returns credits, of which a pair has at most 53 (R166). -/
def execCreditReceive (p : Fin 24) (n : List Nat) (s : State) : Host.Outcome State Fault Refusal :=
  if s.portUp p = false then .next s else
  let x := s.fport p
  .next (s.setPort p { x with credits := x.credits.mapIdx (fun i c => min 53 (c + n.getD i 0)) })

/-! ### Routing (R167, R178) -/

/-- The active bank's entry for a device.
(DEDUCED: log 51.) -/
def State.rtEntry (s : State) (d : Nat) : Nat := (smGet (fun _ => (0 : BitVec 32)) s.fab.rt d).toNat

/-- Judge a flit of the device's own by its source's generation (R178): none when it is stale.
(DEDUCED: log 55.) -/
def State.genCheck (s : State) (src : Nat) (g : BitVec 8) : Option State :=
  if s.flag (fFAB_GEN_KNOWN src) then
    if s.fld (fFAB_GEN_GEN src) = g.toNat then some s else none
  else some ((s.raise (fFAB_GEN_KNOWN src)).setFld (fFAB_GEN_GEN src) g.toNat)

/-- Set bits of a port mask, ascending.
(DEDUCED: log 51, 52.) -/
def maskPorts (m : Nat) : List (Fin 24) := (List.finRange 24).filter (fun p => bitOf m p.val)

/-- A packet met no route: discarded on its arrival port, counted once for the whole packet, and flagged (R167).
(DEDUCED: log 51, 173.) -/
def State.noRoute (s : State) (p : Fin 24) : State := (s.discardFlit p).raise fFAB_ERR_NO_ROUTE

/-- A routing entry of the active bank is found uncorrectable (R460): it acts with VALID = 0. -/
def State.routeUe (s : State) (d : Nat) : State :=
  ({ s with fab := { s.fab with rt := smSet (fun _ => (0 : BitVec 32)) s.fab.rt d 0 } } : State).devUe blkFAB 0 d

/-- The way that a volunteer packet takes by the active bank (R167): an output port, this device, or none. -/
inductive Way where
  | out (p : Fin 24)
  | here
  | none
  deriving DecidableEq, Repr

/-- The way to a device for a PATH value.
(DEDUCED: log 52.) -/
def State.wayTo (s : State) (d path : Nat) : Way :=
  let e := s.rtEntry d
  if bitOf e 31 = false then .none
  else if bitOf e 30 then .here
  else match maskPorts (bitsOf e 0 24) with
    | [] => .none
    | q :: l => .out ((q :: l).getD (path % (q :: l).length) q)

/-- A packet waits to leave on a port, in lane HI where it came so or its entry crosses the dateline (R165); `src` is the port on
which it came, whose buffers it holds. -/
def State.queueVol (s : State) (o : Fin 24) (k : VolPacket) (src : Nat) : State :=
  let x := s.fport o
  s.setPort o { x with volQ := x.volQ ++ (volFlits k (k.hi || bitOf (s.rtEntry k.dst.val) 29)).map (fun b =>
    { flit := .vol b, slot := s.slot, src := src, inPair := 2 * k.vc.val + b2n k.hi }) }

/-- A packet of the device's own is injected in lane LO (R165, R167, R177): one for this device itself goes round, one without a
route is flagged.
(DEDUCED: log 51, 52.) -/
def State.inject (s : State) (k : VolPacket) : State :=
  match s.wayTo k.dst.val k.path.toNat with
  | .none => s.raise fFAB_ERR_NO_ROUTE
  | .here => s
  | .out o => s.queueVol o k 24

/-- A volunteer packet that arrives on a port is delivered, forwarded or discarded (R165 to R167, R176, R178): a packet that does
not go on leaves the receive buffer at once. `tab` is what the read of its routing entry finds.
(DEDUCED: log 52.) -/
def execVolunteerPacketReceive (p : Fin 24) (k : VolPacket) (tab : EccOutcome) (st : State) : Host.Outcome State Fault Refusal :=
  let s := if st.portUp p then st.tableRead tab (fun t => t.routeUe k.dst.val) else st
  if s.portUp p = false then .next s else
  let n := (volFlits k k.hi).length
  let free := s.freeBuf p.val (2 * k.vc.val + b2n k.hi) n
  match s.wayTo k.dst.val k.path.toNat with
  | .none => .next (free.noRoute p)
  | .here =>
    if s.fab.resetting then .next (free.count (fFAB_DISCARD_COUNT p.val) n)
    else match free.genCheck k.src.val k.gen with
      | none => .next (free.count (fFAB_STALE_COUNT p.val) n)
      | some s1 => .next s1
  | .out o => .next (s.queueVol o k p.val)

/-- A ROUTED message is delivered to the management processor or forwarded on CTRL_PORT (R167, R169, R178). -/
def execRoutedMessageReceive (p : Fin 24) (m : RoutedMsg) (s : State) : Host.Outcome State Fault Refusal :=
  if s.portUp p = false then .next s else
  let e := s.rtEntry m.dst.val
  if bitOf e 31 = false then .next (s.noRoute p)
  else if bitOf e 30 then
    if s.fab.resetting then .next (s.count (fFAB_DISCARD_COUNT p.val) (routedFlits m).length)
    else match s.genCheck m.src.val m.gen with
      | none => .next (s.count (fFAB_STALE_COUNT p.val) (routedFlits m).length)
      | some s1 => .next { s1 with fab := { s1.fab with awaiting := s1.fab.awaiting.erase m.src.val } }
  else if h : bitsOf e 24 5 < 24 then
    let o : Fin 24 := ⟨bitsOf e 24 5, h⟩
    let x := s.fport o
    .next (s.setPort o { x with ctrlQ := x.ctrlQ ++ (routedFlits m).map (fun f => { flit := .ctrl f, slot := s.slot, src := p.val }) })
  else .next (s.noRoute p)

/-- A GEN notice is accepted when its origin's entry is unknown or holds another generation: the entry takes it, the origin's
kept notice numbers are forgotten, and it is flooded on (R178). None for one that is discarded.
(DEDUCED: log 55.) -/
def State.learnGen? (s : State) (p : Fin 24) (n : Notice) : Option State :=
  let o := n.origin.val
  if s.portV3 p.val = false ∨ (s.flag (fFAB_GEN_KNOWN o) ∧ s.fld (fFAB_GEN_GEN o) = n.gen.toNat) then none else
  let s1 := (s.raise (fFAB_GEN_KNOWN o)).setFld (fFAB_GEN_GEN o) n.gen.toNat
  let s2 : State := { s1 with
    sch := { s1.sch with seenNum := s1.sch.seenNum.filter (fun e => decide (e.1.1 ≠ o)) }
    fab := { s1.fab with awaiting := s1.fab.awaiting.filter (fun d => decide (d ≠ o)) } }
  let s3 := (s1.fab.awaiting.filter (fun d => decide (d = o))).foldl (fun t d => t.emit (.routedEnd d .targetReset)) s2
  some (s3.flood 4 n (some p) (s.slot + 2))

end Sys2Proof.Machine
end

