-- ==== Sys2Proof/Machine/Place.lean ====
section
/-! DEFINITION. Placement pages (R21, R224, R225): how a partition's address becomes device-physical ranges. -/

namespace Sys2Proof.Machine

open Sys2Proof

/-- A placement page: 2 MiB. -/
def pageBytes : Nat := 0x200000

/-- What a translation gives: ranges (address, length); INVALID_FIELD; a page that migrates, whose writes wait (R228). -/
inductive Tr where
  | ok (l : List (Nat × Nat))
  | bad
  | busy
  deriving DecidableEq, Repr

/-- The address of entry `n` of partition `p`'s table (R224). -/
def State.ptAddr (s : State) (p : Fin 65) (n : Nat) : Nat := s.fld (fMEM_PT_BASE_BASE p.val) + 8 * n

/-- Entry `n` of partition `p`'s table. -/
def State.ptEntry (s : State) (p : Fin 65) (n : Nat) : Nat := s.readN (s.ptAddr p n) 8

/-- The page that an entry names, where the entry is valid and the page lies wholly in populated GDDR7, in populated CXL
memory or in one accelerator window (R225). -/
def State.entryPage (s : State) (e : Nat) : Option Nat :=
  let a := bitsOf e 0 29 * pageBytes
  if bitOf e 63 = false then none else
  match s.region? a pageBytes with
  | some .gddr => some a
  | some (.cxl _) => some a
  | some (.accel _) => some a
  | _ => none

/-- One page's part of a partition range: `n` bytes at offset `o` of page `k`. -/
def State.trPage (s : State) (p : Fin 65) (k o n : Nat) (w : Bool) : Tr :=
  if s.fld (fMEM_PT_LEN_LEN p.val) ≤ k then .bad else
  let e := s.ptEntry p k
  match s.entryPage e with
  | none => .bad
  | some a => if w && !bitOf e 62 then .bad else if w && bitOf e 61 then .busy else .ok [(a + o, n)]

/-- Two translations in sequence: a range that cannot be reached makes the whole invalid. -/
def Tr.join : Tr → Tr → Tr
  | .bad, _ => .bad
  | _, .bad => .bad
  | .busy, _ => .busy
  | _, .busy => .busy
  | .ok a, .ok b => .ok (a ++ b)

/-- Translate `n` bytes at a partition address. Partition 0 carries device-physical addresses, in one populated region
(R20, R225). -/
def State.translate (s : State) (p : Fin 65) (a n : Nat) (w : Bool) : Tr :=
  if p = 0 then (if (s.region? a n).isSome && !(w && decide (s.region? a n = some .log)) then .ok [(a, n)] else .bad) else
  let k0 := a / pageBytes
  let k1 := (a + max n 1 - 1) / pageBytes
  (List.range (k1 - k0 + 1)).foldl (fun t i =>
    let lo := max a ((k0 + i) * pageBytes)
    let hi := min (a + n) ((k0 + i + 1) * pageBytes)
    t.join (s.trPage p (k0 + i) (lo % pageBytes) (hi - lo) w)) (.ok [])

/-- The first status other than OK that the ranges' memories give. -/
def State.rangesSt (s : State) (l : List (Nat × Nat)) : Status :=
  ((l.map (fun r => s.accessSt r.1 r.2)).find? (fun x => decide (x ≠ .ok))).getD .ok

/-- The bytes of ranges, as they stand once the writes that are held have been made. -/
def State.rangeBytes (s : State) (l : List (Nat × Nat)) : List Byte := l.flatMap (fun r => s.bytesHeld r.1 r.2)

/-- Write bytes over ranges. -/
def State.rangeWrite (s : State) : List (Nat × Nat) → List Byte → State
  | [], _ => s
  | r :: l, b => (s.devWrite r.1 (b.take r.2)).rangeWrite l (b.drop r.2)

/-- What a partition's access gives: a value, a status, or a wait: for a page that migrates, for a free tag of a
PCIe link (R289), or for copy-before-write to capture granules of the ranges (R255). -/
inductive Acc (α : Type) where
  | ok (x : α)
  | fail (st : Status)
  | wait (l : List (Nat × Nat))
  deriving DecidableEq, Repr

/-- Ranges that a command of partition `p` uses: INVALID_STATE where one lies in CXL memory and the partition has no
credit (R223), else the memories' status. -/
def State.usable (s : State) (p : Fin 65) (l : List (Nat × Nat)) : Status :=
  if l.any (fun r => match s.region? r.1 r.2 with | some (.cxl _) => true | _ => false) ∧ s.fld (fCXM_CREDIT_CREDITS p.val) = 0 then
    .invalidState
  else s.rangesSt l

/-- Read `n` bytes at a partition address, for a command: it waits while a link that it needs has no free tag (R289). -/
def State.partRead (s : State) (p : Fin 65) (a n : Nat) : Acc (List Byte) :=
  match s.translate p a n false with
  | .bad => .fail .invalidField
  | .busy => .wait []
  | .ok l =>
    if l.any (fun r => s.noTag r.1 r.2) then .wait []
    else match s.usable p l with | .ok => .ok (s.rangeBytes l) | st => .fail st

/-- The ranges to which a command of a partition may write `n` bytes. -/
def State.partRanges (s : State) (p : Fin 65) (a n : Nat) : Acc (List (Nat × Nat)) :=
  match s.translate p a n true with
  | .bad => .fail .invalidField
  | .busy => .wait []
  | .ok l => match s.usable p l with
    | .ok => if l.any (fun r => s.writeHeld r.1 r.2) then .wait l else .ok l
    | st => .fail st

/-- A command waits: the granules that its writes need are diverted (R255), and its wait is counted (R28). -/
def State.waitCmd (s : State) (id : Nat) (l : List (Nat × Nat)) : State :=
  (l.foldl (fun t r => t.divertRange r.1 r.2) s).holdCmd id

/-- Act on what an access gives. -/
def Acc.bind {α β : Type} (x : Acc α) (f : α → Acc β) : Acc β :=
  match x with
  | .ok v => f v
  | .fail st => .fail st
  | .wait l => .wait l

end Sys2Proof.Machine
end

