-- ==== Sys2Proof/Machine/Queue.lean ====
section
/-! DEFINITION. The queue engine (R307 to R323, R335, R336): doorbells, version negotiation, fetching in service order,
starting, completing, signalling. -/

namespace Sys2Proof.Machine

open Sys2Proof

/-- A partition. -/
def State.part (s : State) (p : Fin 65) : Part := s.que.parts[p]

/-- Count a discarded doorbell or window write (R309, R310).
(DEDUCED: log 99.) -/
def State.dbMiss (s : State) (p : Fin 65) : State := s.count (fQUE_PDBMISS_COUNT p.val) 1

/-- An SQ enters ERROR (R321).
(DEDUCED: log 90.) -/
def State.sqError (s : State) (p : Fin 65) (q : Nat) (x : Sq) (st : Status) : State :=
  let s1 := s.setSq p q { x with st := .error }
  let s2 := if p = 0 ∧ q = 0 then s1.raise fQUE_ERR_ADMIN_ERR else s1
  s2.event blkQUE (ownerAnd0 p) { code := 0x0301, result := q + 65536 * p.val, st := st, detail := 0 }

/-- A CQ enters ERROR (R322).
(DEDUCED: log 90.) -/
def State.cqError (s : State) (p : Fin 65) (q : Nat) (x : Cq) (st : Status) : State :=
  (s.cqBreak p q x).event blkQUE (ownerAnd0 p) { code := 0x0302, result := q + 65536 * p.val, st := st, detail := 0 }

/-- A read in flight of a draining SQ fails (R321): the SQ enters ERROR, and the QUEUE_DELETE that waits for it ends with the
read's status.
(DEDUCED: log 94.) -/
def State.lateFail (s : State) (p : Fin 65) (q : Nat) (x : Sq) (st : Status) : State :=
  let s1 := s.setSq p q { x with st := .error, delCmd := none }
  let s2 := if p = 0 ∧ q = 0 then s1.raise fQUE_ERR_ADMIN_ERR else s1
  match x.delCmd with | some d => s2.endCmd d st | none => s2

/-! ### Doorbells and the partition window -/

/-- A tail doorbell (R310, R321, R328).
(DEDUCED: log 90.) -/
def State.sqDoorbell (s : State) (p : Fin 65) (q : Nat) (v : BitVec 32) : State :=
  match s.sq? p q with
  | none => s.dbMiss p
  | some x =>
    let t := v.toNat
    let n := 2 ^ x.size
    if x.st ≠ .active ∨ (s.part p).st = .resetting ∨ 65536 ≤ t then s.dbMiss p
    else if n ≤ t ∨ (t + n - x.head) % n < (x.tail + n - x.head) % n then s.sqError p q x .invalidField
    else s.setSq p q { x with tail := t }

/-- A head doorbell (R311, R322); a pending event of the partition is written as soon as there is room (R467).
(DEDUCED: log 90.) -/
def State.cqDoorbell (s : State) (p : Fin 65) (q : Nat) (v : BitVec 32) : State :=
  match s.cq? p q with
  | none => s.dbMiss p
  | some x =>
    let h := v.toNat
    let n := 2 ^ x.size
    if x.err ∨ (s.part p).st = .resetting ∨ 65536 ≤ h then s.dbMiss p
    else if n ≤ h ∨ (x.write + n - x.head) % n < (h + n - x.head) % n then s.cqError p q x .invalidField
    else (s.setCq p q { x with head := h }).evDrain p 256

/-- Doorbells act in the window of the partition's home function only (R283).
(DEDUCED: log 99.) -/
def execSqDoorbell (fn : Fin 2) (p : Fin 65) (q : Nat) (v : BitVec 32) (s : State) : Host.Outcome State Fault Refusal :=
  if s.homeFn p = fn then .next (s.sqDoorbell p q v) else .next s
/-- (DEDUCED: log 99.) -/
def execCqDoorbell (fn : Fin 2) (p : Fin 65) (q : Nat) (v : BitVec 32) (s : State) : Host.Outcome State Fault Refusal :=
  if s.homeFn p = fn then .next (s.cqDoorbell p q v) else .next s

/-- Has a partition a descriptor that is fetched and not complete, or not fetched (R319)? -/
def State.hasWork (s : State) (p : Fin 65) : Bool :=
  s.que.cmds.any (fun c => c.part = p.val) || s.que.sqs.any (fun x => x.1.1 = p.val && x.2.head ≠ x.2.tail)

/-- A version is offered (R319); one refused with INVALID_STATE makes one trouble-log entry (R9).
(DEDUCED: log 99.) -/
def State.negotiateQ (s : State) (p : Fin 65) (v : BitVec 32) : State :=
  let x := s.part p
  let major := bitsOf v.toNat 8 8
  let minor := bitsOf v.toNat 0 8
  if s.hasWork p then
    (s.setPart p { x with verSt := .invalidState }).logWrite 0x0008 blkQUE p.val .invalidState 0 (p.val * 0x100000) v.toNat
  else if major = 1 then s.setPart p { x with qver := BitVec.ofNat 16 (256 + min minor 2), verSt := .ok }
  else s.setPart p { x with qver := 0, verSt := .versionMismatch }

def execQueueVersionWrite (fn : Fin 2) (p : Fin 65) (v : BitVec 32) (s : State) : Host.Outcome State Fault Refusal :=
  if s.homeFn p = fn then .next (s.negotiateQ p v) else .next s

/-- A partition counter is written with one 8-byte access; another size, and a write while the partition is FROZEN, is
discarded and counted (R308, R309). -/
def State.pwCtrWrite (s : State) (p : Fin 65) (i : Fin 16) (size : Nat) (v : BitVec 64) : State :=
  if size ≠ 8 ∨ (s.part p).st = .frozen then s.dbMiss p else s.setPart p { s.part p with ctr := (s.part p).ctr.set i v }

/-- (DEDUCED: log 99.) -/
def execPwCtrWrite (fn : Fin 2) (p : Fin 65) (i : Fin 16) (size : Nat) (v : BitVec 64) (s : State) :
    Host.Outcome State Fault Refusal :=
  if s.homeFn p = fn then .next (s.pwCtrWrite p i size v) else .next s

/-! ### Fetching (R312, R335, R336) -/

/-- May a partition's SQs be fetched from: ACTIVE, or FREEZING within its grace period, with a version negotiated, and its CXL
credits not exhausted (R23, R312)? -/
def State.partFetches (s : State) (p : Fin 65) : Bool :=
  let x := s.part p
  x.qver ≠ 0 && !s.cxlFull p && (x.st = .active || (x.st = .freezing && (match x.freeze with | some f => !f.graceOver && s.now < f.graceEnd | none => false)))

/-- Can the descriptor at an SQ's head be fetched? -/
def State.sqFetches (s : State) (p : Fin 65) (x : Sq) : Bool :=
  x.st = .active && x.head ≠ x.tail && (match s.cq? p x.cq with | some c => !c.err && cqRoom c | none => false)

/-- The local numbers of a partition's SQs of a class that can be fetched from, ascending. -/
def State.readySqs (s : State) (p : Fin 65) (cls : Nat) : List Nat :=
  sortBy (fun a b => decide (a ≤ b)) ((s.que.sqs.filter (fun x => x.1.1 = p.val && x.2.cls = cls && s.sqFetches p x.2)).map (fun x => x.1.2))

/-- The next queue to serve (R335), of those that `ready` names by partition and class: the highest class, the partition
with the least virtual finish time, its SQs in round-robin order after the one last served.
(DEDUCED: log 91.) -/
def State.chooseBy (s : State) (ready : Fin 65 → Nat → List Nat) (rr : List ((Nat × Nat) × Nat)) : Option (Fin 65 × Nat × Nat) :=
  match (List.range 8).reverse.find? (fun c => (List.finRange 65).any (fun p => !(ready p c).isEmpty)) with
  | none => none
  | some c =>
    match (List.finRange 65).filter (fun p => !(ready p c).isEmpty) with
    | [] => none
    | p0 :: l =>
      let p := l.foldl (fun a b => if (s.part b).fin < (s.part a).fin then b else a) p0
      let qs := ready p c
      match alook (p.val, c) rr with
      | none => qs.head?.map (fun q => (p, q, c))
      | some last => ((qs.find? (fun q => last < q)).orElse (fun _ => qs.head?)).map (fun q => (p, q, c))

/-- The next queue to fetch from. -/
def State.chooseSq (s : State) : Option (Fin 65 × Nat × Nat) :=
  s.chooseBy (fun p c => if s.partFetches p then s.readySqs p c else []) s.que.rr

/-- A partition's virtual finish time after it is served at virtual time `v` for a cost (R335).
(DEDUCED: log 91.) -/
def Part.served (x : Part) (v cost : Nat) : Part := { x with fin := max v x.fin + cost * 65536 / max 1 x.weight }

/-- Token units per cost unit: ticks in a second, so that a rate in cost units per second adds its own number each tick. -/
def costUnit : Nat := secTicks

/-- The depth of a bucket of rate `r` (R336): BURST_US µs of its rate.
(DEDUCED: log 91.) -/
def bucketDepth (r us : Nat) : Nat := r * us * usTicks

/-- The limits last given: those that apply, or those that will from the next fetch. -/
def Part.limits (x : Part) : Limits := x.newLimits.getD { weight := x.weight, cr := x.cr, pr := x.pr, burstUs := x.burstUs }

/-- The buckets refilled up to now.
(DEDUCED: log 91.) -/
def Part.refill (x : Part) (now : Nat) : Part :=
  { x with commit := min (bucketDepth x.cr x.burstUs) (x.commit + x.cr * (now - x.filledAt)),
           peak := min (bucketDepth x.pr x.burstUs) (x.peak + x.pr * (now - x.filledAt)), filledAt := now }

/-- At a fetch, limits that wait for it apply (R325): a bucket that was unlimited starts full, another keeps its level, cut to
its new depth.
(DEDUCED: log 93.) -/
def Part.applyLimits (x : Part) : Part :=
  match x.newLimits with
  | none => x
  | some m =>
    let fill (old new v : Nat) : Nat := if old = 0 then bucketDepth new m.burstUs else min v (bucketDepth new m.burstUs)
    { x with weight := m.weight, cr := m.cr, pr := m.pr, burstUs := m.burstUs, newLimits := none
             commit := fill x.cr m.cr x.commit, peak := fill x.pr m.pr x.peak }

/-- A descriptor (R314) as a fetched command. -/
def parseCmd (id p : Nat) (gen : BitVec 8) (q cq now : Nat) (b : List Byte) : Cmd :=
  { id := id, part := p, gen := gen, sq := q, cid := fieldAt b 2 2, user := BitVec.ofNat 64 (fieldAt b 8 8), op := fieldAt b 0 1,
    fence := bitOf (fieldAt b 1 1) 0, rsvBad := 2 ≤ fieldAt b 1 1 || fieldAt b 4 4 ≠ 0, params := (b.drop 16).take 48,
    fetched := now, started := false, cq := some cq, freed := none, wait := 0, done := none, held := none, paged := false,
    shaped := false, watch := false, parked := none }

/-- The device fetches the descriptor at the head of the SQ whose turn it is; `st` is the outcome of the read. A tenant's
descriptor that finds the peak bucket short is refused at once (R336). The read waits for a free tag of its link (R289). `late`
is an SQ whose read was in flight as it began to drain, and fails with `st` now (R321).
(DEDUCED: log 91, 92, 94.) -/
def execDescriptorFetch (late : Option (Fin 65 × Nat)) (st : Status) (s : State) : Host.Outcome State Fault Refusal :=
  match late, s.chooseSq with
  | some (p, q), _ =>
    (match s.sq? p q with
     | none => .next s
     | some x => if st = .ok ∨ x.st ≠ .draining then .next s else .next (s.lateFail p q x st))
  | none, none => .next s
  | none, some (p, q, c) =>
    match s.sq? p q with
    | none => .next s
    | some x =>
      let st1 := if st ≠ .ok then st else s.accessSt (x.base + 64 * x.head) 64
      if s.noTag (x.base + 64 * x.head) 64 then .next s
      else if st1 ≠ .ok then .next ((s.noteRead (x.base + 64 * x.head) 64 st1).sqError p q x st1)
      else
        let y := ((s.part p).refill s.now).applyLimits
        let v := max s.que.virt y.fin
        let cmd := parseCmd s.que.nextId p.val y.gen q x.cq s.now (s.bytes (x.base + 64 * x.head) 64)
        let y1 := y.served s.que.virt 1
        let short := p ≠ 0 && y.pr ≠ 0 && y1.peak < costUnit
        let y2 := if p ≠ 0 ∧ y.pr ≠ 0 ∧ short = false then { y1 with peak := y1.peak - costUnit } else y1
        let cmd1 := if short then { cmd with done := some (.refusedPolicy, 0x4000 + p.val, 0) } else cmd
        let s1 := (s.setPart p y2).setSq p q { x with head := (x.head + 1) % 2 ^ x.size }
        let s2 := match s1.cq? p x.cq with
          | some k => s1.setCq p x.cq { k with reserved := k.reserved + 1 }
          | none => s1
        let s3 : State := { s2 with que := { s2.que with cmds := s2.que.cmds ++ [cmd1], nextId := s2.que.nextId + 1, virt := v,
                                                         rr := aput (p.val, c) q s2.que.rr } }
        .next (if short then s3.count (fQUE_PREFUSED_COUNT p.val) 1 else s3)

/-! ### Starting (R313, R315, R320, R326, R336) -/

/-- Is an opcode a management command (R325)? -/
def isMgmt (op : Nat) : Bool := 0x20 ≤ op && op ≤ 0x2A

/-- The opcodes reserved to partition 0 (R315, R340). -/
def only0 (op : Nat) : Bool := (0x10 ≤ op && op ≤ 0x12) || isMgmt op || op = 0x60 || op = 0x61

/-- The opcodes that are defined (R315, R340).
(DEDUCED: log 122.) -/
def definedOp (op : Nat) : Bool :=
  op = 0x00 || op = 0x02 || op = 0x03 || (0x10 ≤ op && op ≤ 0x12) || isMgmt op || (0x40 ≤ op && op ≤ 0x44) ||
    (0x48 ≤ op && op ≤ 0x4E) || op = 0x50 || (0x60 ≤ op && op ≤ 0x64)

/-- The status with which a command ends before it does anything, or none.
(DEDUCED: log 93, 122.) -/
def State.startCheck (s : State) (c : Cmd) (kind : Nat) : Option (Status × Nat) :=
  let v := (s.que.parts.toList.getD c.part Part.reset).qver.toNat
  if s.flag fLDG_STATE_READY = false then some (.notReady, 0)
  else if c.rsvBad || (c.fence && v < 0x102) then some (.invalidField, 0)
  else if c.part ≠ 0 ∧ only0 c.op then some (.refusedPolicy, 0x47FF)
  else if definedOp c.op = false then some (.invalidField, 0)
  else if (isMgmt c.op && kind = 1) || (c.op = 0x50) ≠ (kind = 1) && c.op ≠ 0 && 0x40 ≤ c.op then some (.invalidField, 0)
  else if (c.op = 0x02 ∨ c.op = 0x03) ∧ v < 0x102 then some (.invalidField, 0)
  else none

/-- PART_RESET and PART_DESTROY act at once (R326). -/
def actsAtOnce (op : Nat) : Bool := op = 0x29 || op = 0x21

/-- Must a management command wait for one that names the same partition (R326)?
(DEDUCED: log 94.) -/
def State.mgmtWaits (s : State) (c : Cmd) : Bool :=
  isMgmt c.op && !actsAtOnce c.op &&
    ((s.que.parts.toList.getD (c.f 0 1) Part.reset).st = .resetting ||
      s.que.cmds.any (fun d => d.id < c.id && isMgmt d.op && d.f 0 1 = c.f 0 1 && d.done = none))

/-- A fetched command starts (R313, R336): after the earlier commands of its SQ have started, but for one that acts at once, with
FENCE after their completion entries have been written, and once the committed bucket holds its cost; time passes until then. A
command that may not be executed ends here with its status. `buf` is what the read of the descriptor's buffer finds (R460).
(DEDUCED: log 92, 94.) -/
def execCommandStart (id : Nat) (buf : EccOutcome) (s : State) : Host.Outcome State Fault Refusal :=
  match s.cmd? id with
  | none => .next s
  | some c =>
    let before := s.que.cmds.filter (fun d => d.part == c.part && d.sq == c.sq && d.freed == c.freed && d.id < id)
    if c.started ∨ c.done ≠ none ∨ (actsAtOnce c.op = false ∧ before.any (fun d => (!d.started || d.watch) && d.done = none)) ∨ (c.fence ∧ before ≠ []) ∨ s.mgmtWaits c then
      .next s
    else if h : c.part < 65 then
      let p : Fin 65 := ⟨c.part, h⟩
      let y := (s.part p).refill s.now
      let lack := if p = 0 ∨ y.cr = 0 then 0 else ceilDiv (costUnit - y.commit) y.cr
      let s1 := s.advance lack
      let y1 := if p = 0 ∨ y.cr = 0 then y
        else { y with commit := y.commit + y.cr * lack - costUnit, filledAt := s1.now,
                      peak := min (bucketDepth y.pr y.burstUs) (y.peak + y.pr * lack) }
      let s2 := (s1.setPart p y1).tableRead buf (fun t => t.devUe blkQUE 5 id)
      let c1 := { c with started := true, wait := s1.now - c.fetched }
      let kind := match s.sq? p c.sq with | some x => x.kind | none => 0
      match if buf = .ue then some (.dataError, 0) else s.startCheck c kind with
      | none => .next (s2.setCmd c1)
      | some (st, d) =>
        let s3 := s2.setCmd { c1 with done := some (st, d, 0) }
        .next (if st = .refusedPolicy then s3.count (fQUE_PREFUSED_COUNT p.val) 1 else s3)
    else .next s

/-- NOP completes OK with RESULT 0 (R315). -/
def execCmdNop (c : Nat) (s : State) : Host.Outcome State Fault Refusal := s.onCmd c 0x00 (fun _ => s.endCmd c .ok)

/-! ### Completing (R316, R317, R320, R322) -/

/-- The WAIT of a completion entry (R26, R28, R320).
(DEDUCED: log 98.) -/
def Cmd.waitField (c : Cmd) (now : Nat) (old : Bool) (st : Status) : Nat :=
  if old || st = .refusedPolicy || st = .refusedResource then 0 else waitUs (c.release now).wait

/-- Write the completion entry of a command and forget it. `wr` is the outcome of the entry's write. A completion due to a
CQ that is not ACTIVE is discarded, and the command's effects stand. INVALID_STATE makes one entry of kind 0x0001, but for the
requests of a flush (R345).
(DEDUCED: log 98.) -/
def State.complete1 (s : State) (c : Cmd) (st : Status) (detail : Nat) (result : BitVec 64) (wr : Status) : State :=
  let p := c.p
  let y := s.part p
  let s0 : State := { s with que := { s.que with cmds := s.que.cmds.filter (fun d => decide (d.id ≠ c.id)) } }
  let s1 := if st = .invalidState ∧ detail ≠ 0x4810 then s0.logWrite 0x0001 blkQUE c.part st detail (c.op + 65536 * c.sq) c.user.toNat else s0
  let s2 := s1.setPart p { s1.part p with seq := y.seq + 1 }
  let head := match c.freed, s2.sq? p c.sq with | some h, _ => h | none, some x => x.head | none, none => 0
  match c.cq with
  | none => s2
  | some q =>
    match s2.cq? p q with
    | none => s2
    | some k =>
      let s3 := s2.setCq p q { k with reserved := k.reserved - 1 }
      let old := decide (y.qver = 0x100)
      let wr1 := if wr ≠ .ok then wr else s3.accessSt (k.base + 32 * k.write) 32
      if k.err then s3
      else if wr1 ≠ .ok then s3.cqError p q { k with reserved := k.reserved - 1 } wr1
      else s3.cqPost p q { user := c.user, result := result, cid := c.cid, sq := c.sq, sqHead := head,
                           detail := if old then 0 else detail, wait := c.waitField s.now old st, st := st }

/-- COAL_US after the first unsignalled entry, the CQ's message is sent (R317).
(DEDUCED: log 100.) -/
def execMsixCoalesceTimeout (p : Fin 65) (q : Nat) (s : State) : Host.Outcome State Fault Refusal :=
  match s.cq? p q with
  | none => .next s
  | some c =>
    if c.unsig = 0 ∨ c.err then .next s
    else .next ((s.atLeast (c.firstUnsig + c.coalUs * usTicks)).cqSignal p q)

/-! ### The admin pair (R323) -/

/-- Does a ring of `2 ^ size` entries of `w` bytes at `a` lie, on a multiple of 4,096, in the memory of host `h` (R307)? -/
def State.ringOk (s : State) (a size w : Nat) (h : Fin 2) : Bool :=
  a % 4096 = 0 && decide (s.region? a (2 ^ size * w) = some (.host h.val))

/-- A new submission queue and a new completion queue.
(DEDUCED: log 90.) -/
def newSq (kind size cls cq base : Nat) : Sq :=
  { st := .active, kind := kind, size := size, cls := cls, cq := cq, base := base, head := 0, tail := 0, delCmd := none }
def newCq (size vec cc cu base : Nat) : Cq :=
  { err := false, size := size, vec := vec, coalCount := cc, coalUs := cu, base := base, head := 0, write := 0, phase := true,
    reserved := 0, unsig := 0, firstUnsig := 0, count := 0 }

/-- A write of QUE_ADMIN_CTRL (R323, R337): ignored with CFG_DROP while the pair is ACTIVE; an ENABLE with a size or bases
outside R307 is ignored too.
(DEDUCED: log 90.) -/
def State.adminCtrlWrite (s : State) (v : BitVec 32) : State :=
  if s.flag fQUE_ADMIN_CTRL_ENABLE then s.raise fQUE_ERR_CFG_DROP else
  let z := bitsOf v.toNat 8 5
  let s1 := if 4 ≤ z ∧ z ≤ 16 then s.setFld fQUE_ADMIN_CTRL_SIZE_LOG2 z else s
  if bitOf v.toNat 0 = false then s1 else
  let n := s1.fld fQUE_ADMIN_CTRL_SIZE_LOG2
  let a := s1.fld fQUE_ADMIN_SQ_BASE
  let b := s1.fld fQUE_ADMIN_CQ_BASE
  if 4 ≤ n ∧ s1.ringOk a n 64 s.ctrlFn ∧ s1.ringOk b n 32 s.ctrlFn then
    let s2 := ((s1.raise fQUE_ADMIN_CTRL_ENABLE).setCq 0 0 (newCq n 0 0 0 b)).setSq 0 0 (newSq 0 n 7 0 a)
    s2.setPart 0 { s2.part 0 with evq := 0 }
  else s1.raise fQUE_ERR_CFG_DROP

def execQueAdminEnable (v : BitVec 32) (s : State) : Host.Outcome State Fault Refusal := .next (s.adminCtrlWrite v)

end Sys2Proof.Machine
end

