-- ==== Sys2Proof/Machine/Wire.lean ====
section
/-! DEFINITION. How an RDMA packet leaves (R339, R369, R386): on the fabric as a volunteer packet; on Ethernet as a frame that its
logical port's scheduler sends, once the MAC address of its next hop is known. -/

namespace Sys2Proof.Machine

open Sys2Proof

/-- Change the Ethernet block. -/
def State.setEth (s : State) (f : Eth → Eth) : State := { s with eth := f s.eth }

/-- The bytes of a GID, and whether it is an IPv4 address in its mapped form. -/
def gidBytes (g : BitVec 128) : List Byte := leBytes 16 g.toNat
def gidV4 (g : BitVec 128) : Bool := (gidBytes g).take 12 == List.replicate 10 0 ++ [0xFF, 0xFF]

/-- The GID of an IPv4 address. -/
def v4Gid (b : List Byte) : BitVec 128 := BitVec.ofNat 128 (leNat (List.replicate 10 0 ++ [0xFF, 0xFF] ++ b.take 4))

/-- Do two addresses agree in their first `n` bits?
(PRESUMED: log 114.) -/
def samePrefix (a b : List Byte) (n : Nat) : Bool :=
  let w := 8 * a.length
  beNat a / 2 ^ (w - n) == beNat b / 2 ^ (w - n)

/-- The next hop of an address on a logical port (R369): the address itself where it is on-link, or the port has no gateway.
(PRESUMED: log 114.) -/
def State.nextHop (s : State) (port : Nat) (g : BitVec 128) : BitVec 128 :=
  match alook port s.eth.gateways with
  | none => g
  | some w =>
    if gidV4 g then
      (if beNat w.v4 = 0 ∨ samePrefix ((gidBytes g).drop 12) w.v4 (min w.v4Len 32) then g else v4Gid w.v4)
    else if beNat w.v6 = 0 ∨ samePrefix (gidBytes g) w.v6 (min w.v6Len 128) then g
    else BitVec.ofNat 128 (leNat w.v6)

/-- Bytes of the extension headers of an opcode (R339, R351), by the InfiniBand specification.
(PRESUMED: log 101.) -/
def extBytes (op : RdmaOp) : Nat :=
  let i (x : Option (BitVec 32)) : Nat := if x.isSome then 4 else 0
  match op with
  | .send _ _ m => i m
  | .write r _ m => (if r.isSome then 16 else 0) + i m
  | .readReq .. => 16
  | .readRsp first last => if first || last then 4 else 0
  | .atomic .. => 28
  | .atomicRsp _ => 12
  | .ack | .nak _ | .rnr _ => 4
  | .ud _ _ m => 8 + i m
  | .sprayWrite _ | .sprayRead _ | .sprayRsp _ | .rdSend _ | .rdWrite _ | .rdAck .. | .rdNak .. => 40
  | .cnp => 16

/-- The BTH opcode of a packet: the InfiniBand one, or that of R351 and R353; none where the manual gives none.
(PRESUMED: log 101.) -/
def bthOp (op : RdmaOp) : Option Nat :=
  match op with
  | .send first last m => some (match first, last, m.isSome with
    | true, true, false => 0x04 | true, true, true => 0x05 | true, false, _ => 0x00 | false, false, _ => 0x01
    | false, true, false => 0x02 | false, true, true => 0x03)
  | .write r last m => some (match r.isSome, last, m.isSome with
    | true, true, false => 0x0A | true, true, true => 0x0B | true, false, _ => 0x06 | false, false, _ => 0x07
    | false, true, false => 0x08 | false, true, true => 0x09)
  | .readReq .. => some 0x0C
  | .readRsp first last => some (match first, last with | true, true => 0x10 | true, false => 0x0D | false, false => 0x0E | false, true => 0x0F)
  | .atomic _ _ _ swap => some (if swap.isSome then 0x13 else 0x14)
  | .atomicRsp _ => some 0x12
  | .ack | .nak _ | .rnr _ => some 0x11
  | .ud _ _ m => some (if m.isSome then 0x65 else 0x64)
  | .sprayWrite h => some (if h.imm.isSome then 0xC9 else 0xC8)
  | .sprayRead _ => some 0xC6
  | .sprayRsp _ => some 0xC7
  | .rdSend h => some (if h.imm.isSome then 0xC1 else 0xC0)
  | .rdWrite h => some (if h.imm.isSome then 0xC3 else 0xC2)
  | .rdAck .. | .rdNak .. => none
  | .cnp => some 0x81

/-- The code of a NAK in its syndrome.
(PRESUMED: log 101.) -/
def nakBits (c : NakCode) : Nat := match c with | .sequence => 0 | .invalid => 1 | .access => 2 | .operation => 3

/-- The placement header (R351). -/
def placementBytes (h : Placement) : List Byte :=
  leBytes 4 (h.srcEp.toNat + (if h.imm.isSome then 2 ^ 24 else 0)) ++ leBytes 4 h.msg.toNat ++ leBytes 4 h.msgLen ++ leBytes 4 h.off ++
    leBytes 4 h.rkey.toNat ++ leBytes 4 ((h.imm.getD 0).toNat) ++ leBytes 8 h.va.toNat ++ List.replicate 8 0

/-- The extension headers of a packet: InfiniBand's in network order, or the placement header. What neither gives is free: the
message sequence number of an acknowledgement, and the rest of a reliable-datagram acknowledgement.
(PRESUMED: log 101; DESIGN CHOICE: log 159.) -/
def extHeader (k : RdmaTx) : List Byte :=
  let gap (i n : Nat) : List Byte := (List.range n).map (fun j => Config.rdmaHeader k (i + j))
  let imm (m : Option (BitVec 32)) : List Byte := match m with | some v => beBytes 4 v.toNat | none => []
  let aeth (syn : Nat) : List Byte := beBytes 1 syn ++ gap 13 3
  match k.op with
  | .send _ _ m => imm m
  | .write r _ m => (match r with | some (va, key, n) => beBytes 8 va.toNat ++ beBytes 4 key.toNat ++ beBytes 4 n | none => []) ++ imm m
  | .readReq va key n => beBytes 8 va.toNat ++ beBytes 4 key.toNat ++ beBytes 4 n
  | .readRsp first last => if first || last then aeth 0x1F else []
  | .atomic va key opnd swap => beBytes 8 va.toNat ++ beBytes 4 key.toNat ++
      (match swap with | some v => beBytes 8 v.toNat ++ beBytes 8 opnd.toNat | none => beBytes 8 opnd.toNat ++ beBytes 8 0)
  | .atomicRsp old => aeth 0x1F ++ beBytes 8 old.toNat
  | .ack => aeth 0x1F
  | .nak c => aeth (0x60 + nakBits c)
  | .rnr c => aeth (0x20 + c.val)
  | .ud key src m => beBytes 4 key.toNat ++ [0] ++ beBytes 3 src.toNat ++ imm m
  | .sprayWrite h | .sprayRead h | .sprayRsp h | .rdSend h | .rdWrite h => placementBytes h
  | .rdAck ep msg | .rdNak ep msg _ => leBytes 3 ep.toNat ++ gap 15 1 ++ leBytes 4 msg.toNat ++ gap 20 32
  | .cnp => List.replicate 16 0

/-- The Base Transport Header: opcode, pad count, default partition key, BECN in a CNP, destination, acknowledge request, PSN.
(PRESUMED: log 101; DESIGN CHOICE: log 159.) -/
def bth (k : RdmaTx) : List Byte :=
  let pad := ceilTo k.data.length 4 - k.data.length
  [match bthOp k.op with | some v => BitVec.ofNat 8 v | none => Config.rdmaHeader k 0,
   (Config.rdmaHeader k 1 &&& 0xC0) ||| BitVec.ofNat 8 (16 * pad)] ++ beBytes 2 0xFFFF ++ [if k.op = .cnp then 0x40 else 0] ++
    beBytes 3 k.destQp.toNat ++ [if k.ackReq then 0x80 else 0] ++ beBytes 3 k.psn.toNat

/-- The length with FCS of the frame that carries a packet: Ethernet, VLAN tag, IP, UDP, BTH, extension headers, payload padded
to 4 bytes, invariant CRC, FCS.
(PRESUMED: log 101.) -/
def State.rdmaLen (s : State) (k : RdmaTx) : Nat :=
  14 + (if s.fld (fETH_PVLAN_VID k.part) = 0 then 0 else 4) + (if gidV4 k.gid then 20 else 40) + 8 + 12 + extBytes k.op +
    ceilTo k.data.length 4 + 4 + 4

/-- Is a packet transport control (R386)? -/
def isCtrl (op : RdmaOp) : Bool :=
  match op with | .ack => true | .nak _ => true | .rnr _ => true | .rdAck .. => true | .rdNak .. => true | .cnp => true | _ => false

/-- Bytes of a packet from its BTH on, without the invariant CRC: what the fabric carries of it (R339).
(PRESUMED: log 101.) -/
def rdmaBytes (op : RdmaOp) (n : Nat) : Nat := 12 + extBytes op + ceilTo n 4

/-- The volunteer packet that carries a packet on the fabric (R339, R165, R177).
(DESIGN CHOICE: log 159.) -/
def State.rdmaVol (s : State) (k : RdmaTx) : VolPacket :=
  { src := Fin.ofNat 16384 s.devNum, gen := BitVec.ofNat 8 (s.fld fTOP_GEN_DEV_GEN), dst := Fin.ofNat 16384 k.dev,
    vc := Fin.ofNat 8 k.vc, hi := false, path := BitVec.ofNat 8 k.path,
    payload := bth k ++ extHeader k ++ k.data ++ List.replicate (ceilTo k.data.length 4 - k.data.length) 0 }

/-- The bytes of an IPv4 header's checksum: the ones' complement of the ones' complement sum of its words.
(PRESUMED: log 101.) -/
def ipCheck (b : List Byte) : List Byte :=
  let sum := ((List.range (b.length / 2)).map (fun i => beNat ((b.drop (2 * i)).take 2))).sum
  let fold (x : Nat) : Nat := x % 65536 + x / 65536
  beBytes 2 (65535 - fold (fold sum))

/-- The IP header of a RoCEv2 packet of `n` bytes from its UDP header on: DSCP and ECN, the source GID of its partition, its
destination; `mask` writes ones where the invariant CRC leaves fields out.
(PRESUMED: log 101; DESIGN CHOICE: log 159.) -/
def State.ipHeader (s : State) (k : RdmaTx) (ecn n : Nat) (mask : Bool) : List Byte :=
  let src := leBytes 8 (s.fld (fRDM_SGID_HI_GID k.part)) ++ leBytes 8 (s.fld (fRDM_SGID_LO_GID k.part))
  let dst := gidBytes k.gid
  let tos := 4 * (k.dscp % 64) + ecn
  let o (i m : Nat) : List Byte := (List.range m).map (fun j => Config.roceHeader k (i + j))
  let m (b : List Byte) : List Byte := if mask then b.map (fun _ => 0xFF) else b
  if gidV4 k.gid then
    let a := [0x45] ++ m (beBytes 1 tos) ++ beBytes 2 (20 + n) ++ o 0 4 ++ m (o 4 1) ++ [17]
    let z := src.drop 12 ++ dst.drop 12
    a ++ m (ipCheck (a ++ z)) ++ z
  else
    let flow := (o 5 1).map (fun b => b &&& 0x0F) ++ o 6 2
    let head := 0x60000000 + tos * 2 ^ 20 + beNat flow
    (if mask then [0x6F, 0xFF, 0xFF, 0xFF] else beBytes 4 head) ++ beBytes 2 n ++ [17] ++ m (o 4 1) ++ src ++ dst

/-- A RoCEv2 packet from its IP header on, without the invariant CRC.
(PRESUMED: log 101.) -/
def State.rocePacket (s : State) (k : RdmaTx) (dport ecn : Nat) (mask : Bool) : List Byte :=
  let b := bth k
  let body := (if mask then b.take 4 ++ [0xFF] ++ b.drop 5 else b) ++ extHeader k ++ k.data ++
    List.replicate (ceilTo k.data.length 4 - k.data.length) 0
  let n := 8 + body.length + 4
  s.ipHeader k ecn n mask ++ beBytes 2 k.sport ++ beBytes 2 dport ++ beBytes 2 n ++
    (if mask then [0xFF, 0xFF] else [Config.roceHeader k 8, Config.roceHeader k 9]) ++ body

/-- The invariant CRC of a packet: over eight bytes of ones and the packet with its variant fields as ones, the lowest byte first.
(PRESUMED: log 101.) -/
def State.icrc (s : State) (k : RdmaTx) (dport ecn : Nat) : List Byte :=
  leBytes 4 (crc32e (List.replicate 8 0xFF ++ s.rocePacket k dport ecn true)).toNat

/-- A RoCEv2 frame without its FCS (R339, R369).
(PRESUMED: log 101.) -/
def State.roceFrame (s : State) (k : RdmaTx) (dport ecn port vid pcp : Nat) (mac : BitVec 48) : List Byte :=
  beBytes 6 mac.toNat ++ beBytes 6 (s.fld (fETH_LPORT_MAC_MAC port)) ++
    (if vid = 0 then [] else beBytes 2 0x8100 ++ beBytes 2 (pcp * 8192 + vid)) ++
    beBytes 2 (if gidV4 k.gid then 0x0800 else 0x86DD) ++ s.rocePacket k dport ecn false ++ s.icrc k dport ecn

/-- Does the management processor run? -/
def State.mgmtRuns (s : State) : Bool := s.fld fLDG_STATE_MGT = 2

/-- A frame waits for its next hop (R369); the management processor asks for one that no frame waits for yet.
(PRESUMED: log 114.) -/
def State.holdFor (s : State) (hop : BitVec 128) (f : TxFrame) : State :=
  let ask : List TxFrame := if s.mgmtRuns ∧ s.eth.hold.any (fun x => x.1 = hop) = false then
    [{ f with ctrl := true, cls := 7, part := 0, queue := 0, len := 64, body := .ask hop, cmd := none }] else []
  s.setEth (fun e => { e with hold := e.hold ++ [(hop, f, s.now)], txq := e.txq ++ ask })

/-- Send a packet of queue pair `qpn`, on behalf of a work request: on the fabric by the routing bank, in lane LO, against
credits; on Ethernet to UDP port 4791 with ECT(0).
(PRESUMED: log 101.) -/
def State.sendRdma (s : State) (k : RdmaTx) (qpn : Nat := 0) (cmd : Option Nat := none) : State :=
  match k.port with
  | none => (s.emit (.rdma k)).inject (s.rdmaVol k)
  | some l =>
    let f : TxFrame := { port := l, ctrl := isCtrl k.op, cls := k.vc, part := k.part, queue := qpn, len := s.rdmaLen k, body := .rdma k 4791 2,
                         cmd := cmd, blocked := false }
    let hop := s.nextHop l k.gid
    if (alook hop s.eth.neigh).isSome then s.setEth (fun e => { e with txq := e.txq ++ [f] })
    else s.holdFor hop f

end Sys2Proof.Machine
end

