-- ==== Sys2Proof/Machine/Rdma.lean ====
section
/-! DEFINITION. The RDMA transport (R338 to R359): work requests and their retries, the responder of each kind of queue pair,
triggers, the context cache and the miss buffer, congestion control. -/

namespace Sys2Proof.Machine

open Sys2Proof

/-! ### Queue pairs -/

/-- Change the RDM block. -/
def State.setRdm (s : State) (f : Rdm → Rdm) : State := { s with rdm := f s.rdm }

/-- A queue pair, and its replacement. -/
def State.qp? (s : State) (n : Nat) : Option Qp := alook n s.rdm.qps
def State.setQp (s : State) (n : Nat) (q : Qp) : State := s.setRdm (fun r => { r with qps := aput n q r.qps })
def State.modQp (s : State) (n : Nat) (f : Qp → Qp) : State := s.setRdm (fun r => { r with qps := amod n f r.qps })

/-- The partition of a queue pair. -/
def Qp.p (q : Qp) : Fin 65 := Fin.ofNat 65 q.part

/-- Bytes of the path MTU. -/
def Qp.mtu (q : Qp) : Nat := 128 * 2 ^ q.pmtu

/-- The number of PSNs, and how far PSN `a` lies after PSN `b`. -/
def psns : Nat := 0x1000000
def psnDiff (a b : Nat) : Nat := (a % psns + psns - b % psns) % psns

/-- The detail value of RDM index `i` (R29, R345). -/
def rdmDetail (i : Nat) : Nat := if i = 0 then 0 else 0x4800 + i % 2048

/-- The time that an RNR timer code stands for, in units of 10 µs: the InfiniBand encoding (R350).
(PRESUMED: log 102.) -/
def rnrUnits (code : Nat) : Nat :=
  [65536, 1, 2, 3, 4, 6, 8, 12, 16, 24, 32, 48, 64, 96, 128, 192, 256, 384, 512, 768, 1024, 1536, 2048, 3072, 4096, 6144, 8192,
   12288, 16384, 24576, 32768, 49152].getD code 0

/-- The class of a queue pair's send queue: the VC of its packets (R339). -/
def State.qpClass (s : State) (q : Qp) : Nat := match s.sq? q.p q.sq with | some x => x.cls | none => 0

/-- A packet from a queue pair to where `k` came from; a response returns the generation of its request (R327). -/
def State.answer (s : State) (q : Qp) (k : RdmaPkt) (destQp psn : Nat) (op : RdmaOp) (data : List Byte := []) : State :=
  s.sendRdma { port := k.port.map (fun x => x.val), dev := k.srcDev.val, gid := k.srcGid, vc := s.qpClass q, path := 0,
               sport := q.sport, dscp := q.dscp, part := q.part, gen := k.gen, destQp := BitVec.ofNat 24 destQp,
               psn := BitVec.ofNat 24 psn, ackReq := false, op := op, data := data } q.num

/-! ### Memory -/

/-- Place bytes at a partition address: done; a status; or a wait for a page that migrates (R228). -/
def State.placeAt (s : State) (p : Fin 65) (a : Nat) (b : List Byte) : Acc State :=
  if b = [] then .ok s else
  match s.translate p a b.length true with
  | .bad => .fail .invalidField
  | .busy => .wait []
  | .ok l => match s.usable p l with | .ok => .ok (s.rangeWrite l b) | st => .fail st

/-- Deliver bytes to a receive that then completes with a result; while its page migrates the delivery waits. -/
def State.deliver (s : State) (c : Cmd) (b : List Byte) (result : Nat) : State :=
  match s.placeAt c.p (c.f 0 8) b with
  | .ok t => t.endCmd c.id .ok 0 result
  | .fail st => s.endCmd c.id st
  | .wait _ => s.setRdm (fun r => { r with late := r.late ++ [(c.id, c.f 0 8, b, result)] })

/-- May a request with a key access `n` bytes at `va` (R344)? `acc`: 0 read, 1 write, 2 atomic. -/
def State.mrOk (s : State) (part : Nat) (rkey : BitVec 32) (va n acc : Nat) : Bool :=
  match alook (rkey.toNat / 256) s.rdm.mrs with
  | none => false
  | some m => m.key = rkey.toNat % 256 && m.part = part && (m.addr ≤ va && va + n ≤ m.addr + m.len) && bitOf m.access acc

/-! ### Receives -/

/-- Is a receive in use by a message that arrives? -/
def State.recvBusy (s : State) (id : Nat) : Bool :=
  s.rdm.qps.any (fun x => match x.2.arriving with | some (.send r _) => r == id | _ => false) ||
    s.rdm.rdIn.any (fun x => x.recv == some id) || s.rdm.late.any (fun x => x.1 == id)

/-- The receive at the head of a RECEIVE queue of a partition, and of a queue pair's receive queue. -/
def State.recvHead? (s : State) (part sq : Nat) : Option Cmd :=
  s.que.cmds.find? (fun c => c.op == 0x50 && c.part == part && c.sq == sq && c.started && c.done.isNone && !s.recvBusy c.id)
def State.headRecv? (s : State) (q : Qp) : Option Cmd := s.recvHead? q.part q.rq

/-- A receive completes (R340): length, immediate, low bits of the source. -/
def State.finishRecv (s : State) (id len : Nat) (imm : Option (BitVec 32)) (src : Nat) : State :=
  s.endCmd id .ok (src % 65536) (len + match imm with | some i => i.toNat * 2 ^ 32 | none => 0)

/-! ### Sending work requests (R343, R349 to R353) -/

/-- The packet `i` of a work request in flight, or the status that the read of its bytes gives. -/
def State.wrPacket (s : State) (qpn : Nat) (q : Qp) (w : Wr) (c : Cmd) (i : Nat) : Acc RdmaTx :=
  let m := q.mtu
  let bytes := if 0x4C ≤ w.op then 0 else w.len
  let n := max 1 (ceilDiv bytes m)
  let last := decide (i + 1 = n)
  let imm : Option (BitVec 32) := if w.op = 0x49 ∨ w.op = 0x4B then some (BitVec.ofNat 32 (c.f 4 4)) else none
  let immLast := if last then imm else none
  let va := BitVec.ofNat 64 (c.f 16 8)
  let rkey := BitVec.ofNat 32 (c.f 24 4)
  let h : Placement := { srcEp := if q.ty = .rd then BitVec.ofNat 24 qpn else 0, imm := imm, msg := BitVec.ofNat 32 w.msg,
                         msgLen := w.len, off := i * m, rkey := rkey, va := va }
  let op : RdmaOp := match q.ty with
    | .ud => .ud rkey (BitVec.ofNat 24 qpn) imm
    | .rd => if w.op ≤ 0x49 then .rdSend h else .rdWrite h
    | .spray => if w.op = 0x4C then .sprayRead { h with off := 0 } else .sprayWrite h
    | .rc =>
      if w.op ≤ 0x49 then .send (i = 0) last immLast
      else if w.op ≤ 0x4B then .write (if i = 0 then some (va, rkey, w.len) else none) last immLast
      else if w.op = 0x4C then .readReq va rkey w.len
      else .atomic va rkey (BitVec.ofNat 64 (c.f 32 8)) (if w.op = 0x4E then some (BitVec.ofNat 64 (c.f 0 8)) else none)
  let psn := if q.ty = .rd then i else (w.psn + i) % psns
  let path := if w.paths = 0 then 0 else psn % w.paths
  (if bytes = 0 then Acc.ok [] else s.partRead q.p (c.f 8 8 + i * m) (min m (bytes - i * m))).bind (fun b =>
    .ok { w.dest with vc := s.qpClass q, path := path, sport := w.sport + path, part := q.part, gen := (s.part q.p).gen,
                      psn := BitVec.ofNat 24 psn, ackReq := last, op := op, data := b })

/-- Packets that a work request sends: one for a read or an atomic. -/
def Wr.pkts (w : Wr) (q : Qp) : Nat := if 0x4C ≤ w.op then 1 else max 1 (ceilDiv w.len q.mtu)

/-- Send packets of a work request until a source read fails or must wait: how many, and the status of the read that fails. -/
def State.sendPkts (s : State) (qpn : Nat) (q : Qp) (w : Wr) (c : Cmd) : List Nat → State × Nat × Option Status
  | [] => (s, 0, none)
  | i :: l =>
    match s.wrPacket qpn q w c i with
    | .ok k =>
      let r := (s.sendRdma k qpn (some w.cmd)).sendPkts qpn q w c l
      (r.1, r.2.1 + 1, r.2.2)
    | .fail st => (s, 0, some st)
    | .wait _ => (s, 0, none)

/-- The commands of a queue pair that are not yet started as packets: fetched, held or parked (R345, R356, R357). -/
def State.notSent (s : State) (q : Qp) : List Cmd :=
  s.que.cmds.filter (fun c => c.done.isNone && c.part == q.part && c.sq == q.sq && (0x48 ≤ c.op && c.op ≤ 0x4E) &&
    !q.out.any (fun w => w.cmd == c.id))

/-- Its receives, where its receive queue serves it alone.
(DEDUCED: log 109.) -/
def State.ownRecvs (s : State) (qpn : Nat) (q : Qp) : List Cmd :=
  if s.rdm.qps.any (fun x => x.1 ≠ qpn && x.2.part = q.part && x.2.rq = q.rq) then [] else
  s.que.cmds.filter (fun c => c.done.isNone && c.op == 0x50 && c.part == q.part && c.sq == q.rq)

/-- A queue pair's posted work is flushed (R342, R345): what is in flight completes with `st`, what is not started with
INVALID_STATE and index 0x010; the flush makes one entry.
(DEDUCED: log 109.) -/
def State.flushQp (s : State) (qpn : Nat) (st : Status) (detail : Nat) : State :=
  match s.qp? qpn with
  | none => s
  | some q =>
    let l := s.notSent q ++ s.ownRecvs qpn q
    let s1 := q.out.foldl (fun t w => t.endCmd w.cmd st detail) s
    let s2 := l.foldl (fun t c => t.endCmd c.id .invalidState (rdmDetail 0x010)) s1
    let s3 := s2.modQp qpn (fun q => { q with out := [], arriving := none, recorded := [], msgs := [], waitWr := [], timeouts := 0,
                                              rnrCount := 0, rnrUntil := none, una := q.nextPsn })
    if q.out = [] ∧ l = [] then s3
    else s3.logWrite 0x0007 blkRDM q.part .invalidState (rdmDetail 0x010) qpn (q.out.length + l.length)

/-- A queue pair enters ERROR (R345, R349, R360). -/
def State.qpError (s : State) (qpn : Nat) (st : Status) (detail : Nat) : State :=
  match s.qp? qpn with
  | none => s
  | some q =>
    let s1 := (s.modQp qpn (fun q => { q with st := .error })).flushQp qpn st detail
    (s1.raise fRDM_ERR_FLUSH).event blkRDM (ownerAnd0 q.p) { code := 0x0401, result := qpn, st := st, detail := detail }

/-- How many packets of a work request may leave now: all, or, sprayed, as many as leave at most 1,024 unacknowledged (R352). -/
def Wr.room (w : Wr) (q : Qp) : Nat :=
  if q.ty = .spray then min (w.pkts q) (1024 - psnDiff w.psn q.una) else w.pkts q

/-- Send what may leave of the work requests in flight, in order, unless an RNR NAK suspends the queue pair (R350). -/
def State.pumpGo (s : State) (qpn : Nat) : List Wr → State
  | [] => s
  | w :: l =>
    match s.qp? qpn, s.cmd? w.cmd with
    | some q, some c =>
      if q.rnrUntil.isSome then s else
      let n := w.room q
      match s.sendPkts qpn q w c ((List.range n).drop w.sent) with
      | (t, m, none) =>
        (t.modQp qpn (fun q => { q with out := q.out.map (fun x => if x.cmd = w.cmd then { x with sent := w.sent + m } else x) })).pumpGo qpn l
      | (t, _, some st) => t.qpError qpn st 0
    | _, _ => s.pumpGo qpn l

/-- Send what may leave of a queue pair. -/
def State.pump (s : State) (qpn : Nat) : State := match s.qp? qpn with | some q => s.pumpGo qpn q.out | none => s

/-- The packets of a work request that are sent and not acknowledged. -/
def Wr.unacked (w : Wr) (q : Qp) : List Nat :=
  (List.range w.sent).filter (fun i => 0x4C ≤ w.op || q.ty = .rd || psnDiff (w.psn + i) q.una < psns / 2)

/-- Send packets of a list of work requests again, and count them. -/
def State.resendGo (s : State) (qpn : Nat) : List Wr → State
  | [] => s
  | w :: l =>
    match s.qp? qpn, s.cmd? w.cmd with
    | some q, some c =>
      match s.sendPkts qpn q w c (w.unacked q) with
      | (t, m, none) => (t.count fRDM_RETX_COUNT m).resendGo qpn l
      | (t, _, some st) => t.qpError qpn st 0
    | _, _ => s.resendGo qpn l

/-- Retransmit every unacknowledged packet from the oldest; the timer runs from now (R349). -/
def State.resend (s : State) (qpn : Nat) : State :=
  match s.qp? qpn with
  | some q => (s.resendGo qpn q.out).modQp qpn (fun q => { q with since := s.now })
  | none => s

/-- Is a work request finished: its packets acknowledged, or its bytes placed? -/
def Wr.finished (w : Wr) (q : Qp) : Bool :=
  if 0x4C ≤ w.op then w.len ≤ (w.got.map (fun x => x.2)).sum && !w.got.isEmpty
  else psns / 2 ≤ psnDiff (w.psn + w.span - 1) q.una && w.pkts q ≤ w.sent

/-- Complete the work requests that are finished. -/
def State.finishWrs (s : State) (qpn : Nat) : State :=
  match s.qp? qpn with
  | none => s
  | some q =>
    let fin := q.out.filter (fun w => w.finished q)
    fin.foldl (fun t w => t.endCmd w.cmd .ok 0 (if 0x4C ≤ w.op then w.len else 0))
      (s.modQp qpn (fun q => { q with out := q.out.filter (fun w => !w.finished q) }))

/-- Every PSN up to `psn` is acknowledged (R349). -/
def State.ackTo (s : State) (qpn psn : Nat) : State :=
  match s.qp? qpn with
  | none => s
  | some q =>
    if psnDiff psn q.una < psnDiff q.nextPsn q.una then
      ((s.modQp qpn (fun q => { q with una := (psn + 1) % psns, timeouts := 0, rnrCount := 0, since := s.now })).finishWrs qpn).pump qpn
    else s.finishWrs qpn

/-- The address handle of a work request (R341): where it goes, its paths, its source port; AH entry as 32 bytes. -/
def ahOf (port : Nat) (b : List Byte) : RdmaTx × Nat × Nat :=
  ({ port := if bitOf (fieldAt b 18 1) 0 then none else some port, dev := bitsOf (fieldAt b 16 2) 0 14,
     gid := BitVec.ofNat 128 (fieldAt b 0 16), vc := 0, path := 0, sport := 0, dscp := bitsOf (fieldAt b 19 1) 0 6, part := 0, gen := 0,
     destQp := 0, psn := 0, ackReq := false, op := .ack, data := [] }, fieldAt b 22 1, fieldAt b 20 2)

/-- Is a GID a multicast address: IPv6, or IPv4 in its mapped form (R338)?
(PRESUMED: log 101.) -/
def gidMulticast (g : BitVec 128) : Bool :=
  let b := gidBytes g
  b.getD 0 0 = 0xFF || (gidV4 g && 0xE0 ≤ (b.getD 12 0).toNat && (b.getD 12 0).toNat < 0xF0)

/-- Where a work request goes: its connection's peer, or its address handle's. A datagram to a multicast address is not supported
(R338). -/
def State.wrDest (s : State) (q : Qp) (c : Cmd) : Acc (RdmaTx × Nat × Nat) :=
  match q.ty with
  | .rc | .spray =>
    .ok ({ port := if q.fabric then none else some q.port, dev := q.destDev, gid := q.destGid, vc := 0, path := 0, sport := 0,
           dscp := q.dscp, part := 0, gen := 0, destQp := BitVec.ofNat 24 q.dest, psn := 0, ackReq := false, op := .ack, data := [] },
         if q.ty = .spray then q.paths else 0, q.sport)
  | _ =>
    if q.ahCount ≤ c.f 32 3 % 0x100000 then .fail .invalidField else
    (s.partRead q.p (q.ahBase + 32 * (c.f 32 3 % 0x100000)) 32).bind (fun b =>
      let x := ahOf q.port b
      if q.ty = .ud ∧ x.1.port.isSome ∧ gidMulticast x.1.gid then .fail .invalidField else .ok ({ x.1 with destQp := BitVec.ofNat 24 (c.f 28 3) }, if q.ty = .rd then x.2.1 else 0, x.2.2))

/-- Outstanding requests (R345): work requests started and not complete.
(DEDUCED: log 109.) -/
def State.outstanding (s : State) : Nat :=
  (s.que.cmds.filter (fun c => (0x48 ≤ c.op && c.op ≤ 0x4E) && c.started && c.done.isNone && !c.watch)).length

/-- A context is used (R346). -/
def State.touchQp (s : State) (qpn : Nat) : State :=
  (s.modQp qpn (fun q => { q with used := s.rdm.uses })).setRdm (fun r => { r with uses := r.uses + 1 })

/-- A work request goes out on its queue pair, whose context is on die. `rd` is what the read of its source finds (R459). -/
def State.launch (s : State) (qpn : Nat) (c : Cmd) (rd : Status) : State :=
  match s.qp? qpn with
  | none => s.endCmd c.id .invalidState
  | some q =>
    if q.st ≠ .rts then s.endCmd c.id .invalidState (if q.st = .error then rdmDetail 0x010 else 0)
    else if rd ≠ .ok then (s.endCmd c.id rd).qpError qpn rd 0
    else match s.wrDest q c with
      | .fail st => s.endCmd c.id st
      | .wait _ => s.holdCmd c.id
      | .ok (dest, paths, sport) =>
        let len := if 0x4D ≤ c.op then 8 else c.f 0 4
        let w0 : Wr := { cmd := c.id, op := c.op, psn := q.nextPsn, span := 1, sent := 0, msg := q.msg, len := len, got := [],
                         dest := dest, paths := paths, sport := sport, first := s.now, n := 0, since := s.now, reason := none }
        let span := if q.ty = .rc ∧ c.op = 0x4C then max 1 (ceilDiv len q.mtu) else w0.pkts q
        let w := { w0 with span := span }
        let s1 := s.modQp qpn (fun q => { q with
          out := q.out ++ [w], msg := (q.msg + 1) % 2 ^ 32, since := if q.out = [] then s.now else q.since
          nextPsn := if q.ty = .rd then q.nextPsn else (q.nextPsn + span) % psns
          una := if q.out = [] ∧ q.ty ≠ .rd then q.nextPsn else q.una })
        let s2 := (s1.pump qpn).touchQp qpn
        if q.ty = .ud then
          (s2.modQp qpn (fun q => { q with out := q.out.filter (fun x => decide (x.cmd ≠ c.id)), una := q.nextPsn })).endCmd c.id .ok
        else s2

/-! ### The context cache (R346 to R348) -/

/-- Contexts that occupy a place on die.
(DEDUCED: log 104.) -/
def State.dieUsed (s : State) : Nat :=
  (s.rdm.qps.filter (fun x => match x.2.die with | .on => true | .fetching (some _) => true | .writing => true | _ => false)).length

/-- The least recently used context on die that may be written back.
(DEDUCED: log 104.) -/
def State.victim? (s : State) : Option Nat :=
  ((s.rdm.qps.filter (fun x => decide (x.2.die = .on) && !x.2.resident && x.2.waiting.isEmpty)).foldl
    (fun (a : Option (Nat × Nat)) x => match a with
      | none => some (x.1, x.2.used)
      | some b => if x.2.used < b.2 then some (x.1, x.2.used) else a) none).map (fun x => x.1)

/-- A context that is not on die is wanted: it is fetched, once there is a place for it.
(DEDUCED: log 104.) -/
def State.wantCtx (s : State) (qpn : Nat) : State :=
  match s.qp? qpn with
  | some q =>
    if q.die ≠ .off then s
    else if s.dieUsed < 4096 then s.setQp qpn { q with die := .fetching (some s.now) }
    else match s.victim? with
      | some v => (s.modQp v (fun x => { x with die := .writing })).setQp qpn { q with die := .fetching none }
      | none => s.setQp qpn { q with die := .fetching none }
  | none => s

/-- A work request reaches its queue pair: it starts when the context is present (R348). -/
def State.runWr (s : State) (qpn : Nat) (c : Cmd) (rd : Status) : State :=
  match s.qp? qpn with
  | none => s.endCmd c.id .invalidState
  | some q => if q.die = .on then s.launch qpn c rd else (s.setQp qpn { q with waitWr := q.waitWr ++ [c.id] }).wantCtx qpn

/-- The queue pair that a submission queue is bound to. -/
def State.qpOf? (s : State) (part sq : Nat) : Option Nat :=
  (s.rdm.qps.find? (fun x => x.2.part == part && x.2.sq == sq)).map (fun x => x.1)

/-! ### Triggers (R357) -/

/-- Release the parked work requests of a partition whose tag matches, in fetch order. -/
def State.releaseTag (s : State) (part tag : Nat) : State :=
  (s.que.cmds.filter (fun c => c.done.isNone && c.part == part && c.parked == some tag)).foldl (fun t c =>
    match t.cmd? c.id, t.qpOf? part c.sq with
    | some d, some n => if d.parked = some tag then (t.setCmd { d with parked := none }).runWr n { d with parked := none } .ok else t
    | _, _ => t) s

/-- A trigger arrives: it releases what it matches, or is held early; none where the early-trigger table is full.
(DEDUCED: log 107.) -/
def State.trigger (s : State) (part tag : Nat) : Option State :=
  if s.que.cmds.any (fun c => c.done.isNone && c.part == part && c.parked == some tag) then
    some ((s.count fRDM_TRIG_COUNT 1).releaseTag part tag)
  else if s.rdm.early.length < 4096 then some (s.setRdm (fun r => { r with early := r.early ++ [(part, tag, s.now)] }))
  else none

/-! ### The responder -/

/-- Does a partition answer requests with RNR NAKs: after the grace period of a freeze, or FROZEN (R359)? -/
def State.partHalts (s : State) (p : Fin 65) : Bool :=
  let x := s.part p
  x.st = .frozen || (x.st = .freezing && (match x.freeze with | some f => f.graceOver | none => false))

/-- Deliver the immediate of a message that is complete (R340, R357): it triggers, or completes the receive at the head; none
where the early-trigger table is full.
(DEDUCED: log 105.) -/
def State.deliverImm (s : State) (q : Qp) (len src : Nat) (imm : Option (BitVec 32)) : Option State :=
  match imm with
  | none => some s
  | some i =>
    if q.trigRx then s.trigger q.part i.toNat
    else match s.headRecv? q with | some c => some (s.finishRecv c.id len imm src) | none => some s

/-- May a message with this immediate complete: a trigger finds room, a receive is posted? Else the RNR code of its refusal. -/
def State.immRefused (s : State) (q : Qp) (imm : Option (BitVec 32)) : Option Nat :=
  match imm with
  | none => none
  | some i =>
    if q.trigRx then (if (s.trigger q.part i.toNat).isSome then none else some 2)
    else if (s.headRecv? q).isSome then none else some q.minRnr

/-- Advance the PSN expected. -/
def State.rxAdvance (s : State) (qpn n : Nat) : State := s.modQp qpn (fun q => { q with rqPsn := (q.rqPsn + n) % psns })

/-- The NAK of a connected responder names the PSN expected.
(DEDUCED: log 105.) -/
def State.rcNak (s : State) (q : Qp) (k : RdmaPkt) (code : NakCode) : State := s.answer q k q.dest q.rqPsn (.nak code)
def State.rcRnr (s : State) (q : Qp) (k : RdmaPkt) (code : Nat) : State := s.answer q k q.dest q.rqPsn (.rnr (Fin.ofNat 32 code))

/-- Acknowledge a packet of a standard queue pair, where it asks for it. -/
def State.rcAck (s : State) (q : Qp) (k : RdmaPkt) : State := if k.ackReq then s.answer q k q.dest k.psn.toNat .ack else s

/-- Responses to a read: the bytes in packets of the path MTU. -/
def State.readRsps (s : State) (q : Qp) (k : RdmaPkt) (b : List Byte) : State :=
  let n := max 1 (ceilDiv b.length q.mtu)
  (List.range n).foldl (fun t i =>
    t.answer q k q.dest (k.psn.toNat + i) (.readRsp (i = 0) (i + 1 = n)) ((b.drop (i * q.mtu)).take q.mtu)) s

/-- A SEND packet in order (R340).
(DEDUCED: log 105.) -/
def State.rcSend (s : State) (qpn : Nat) (q : Qp) (k : RdmaPkt) (first last : Bool) (imm : Option (BitVec 32)) : Option State :=
  let n := k.data.length
  let cur : Option (Nat × Nat) := match first, q.arriving with
    | true, none => (s.headRecv? q).map (fun c => (c.id, 0))
    | false, some (.send r g) => some (r, g)
    | _, _ => none
  if first ∧ last ∧ imm.isSome ∧ q.trigRx then
    match s.deliverImm q n q.dest imm with
    | some t => some ((t.rxAdvance qpn 1).rcAck q k)
    | none => some (s.rcRnr q k 2)
  else if first ≠ q.arriving.isNone then some (s.rcNak q k .invalid)
  else match cur with
    | none => some (if first then s.rcRnr q k q.minRnr else s.rcNak q k .invalid)
    | some (r, g) =>
      match s.cmd? r with
      | none => some s
      | some c =>
        let drop (t : State) (st : Status) : State := if first then t else (t.modQp qpn (fun q => { q with arriving := none })).endCmd r st
        if c.f 8 4 < g + n then some (drop (s.rcNak q k .invalid) .invalidField)
        else if last ∧ q.trigRx ∧ (s.immRefused q imm).isSome then some (s.rcRnr q k 2)
        else match s.placeAt q.p (c.f 0 8 + g) k.data with
          | .wait _ => none
          | .fail st => some (drop (s.rcNak q k .operation) st)
          | .ok t =>
            let t1 := (t.rxAdvance qpn 1).modQp qpn (fun q => { q with arriving := if last then none else some (.send r (g + n)) })
            let t2 := if last = false then t1
              else if imm.isSome ∧ q.trigRx then (t1.deliverImm q (g + n) q.dest imm).getD t1
              else t1.finishRecv r (g + n) imm q.dest
            some (t2.rcAck q k)

/-- A WRITE packet in order (R344). -/
def State.rcWrite (s : State) (qpn : Nat) (q : Qp) (k : RdmaPkt) (reth : Option (BitVec 64 × BitVec 32 × Nat)) (last : Bool)
    (imm : Option (BitVec 32)) : Option State :=
  let n := k.data.length
  let cur : Option (Nat × BitVec 32 × Nat × Nat) := match reth, q.arriving with
    | some (va, key, len), none => some (va.toNat, key, len, 0)
    | none, some (.write va key left g) => some (va, key, left, g)
    | _, _ => none
  match cur with
  | none => some (s.rcNak q k .invalid)
  | some (va, key, left, g) =>
    if left < n ∨ (last ∧ left ≠ n) then some (s.rcNak q k .invalid)
    else if s.mrOk q.part key va left 1 = false then some (s.rcNak q k .access)
    else match s.immRefused q imm with
      | some code => some (s.rcRnr q k code)
      | none => match s.placeAt q.p va k.data with
        | .wait _ => none
        | .fail _ => some (s.rcNak q k .operation)
        | .ok t =>
          let t1 := (t.rxAdvance qpn 1).modQp qpn (fun q => { q with arriving := if last then none else some (.write (va + n) key (left - n) (g + n)) })
          some (((t1.deliverImm q (g + n) q.dest imm).getD t1).rcAck q k)

/-- The result of an atomic on the old value (R338). -/
def atomicNew (old opnd : BitVec 64) (swap : Option (BitVec 64)) : BitVec 64 :=
  match swap with | some v => if old = opnd then v else old | none => old + opnd

/-- A request on a standard connected queue pair (R338, R344). -/
def State.rcIn (s : State) (qpn : Nat) (q : Qp) (k : RdmaPkt) : Option State :=
  let d := psnDiff k.psn.toNat q.rqPsn
  if psns / 2 ≤ d then
    let s1 := s.count fRDM_DUP_COUNT 1
    match k.op with
    | .readReq va key len =>
      if s.mrOk q.part key va.toNat len 0 then
        match s.partRead q.p va.toNat len with | .ok b => some (s1.readRsps q k b) | _ => some s1
      else some s1
    | .atomic .. =>
      match alook k.psn.toNat q.atomics with
      | some old => some (s1.answer q k q.dest k.psn.toNat (.atomicRsp old))
      | none => some s1
    | _ => some (s1.answer q k q.dest (q.rqPsn + psns - 1) .ack)
  else if d ≠ 0 then some (s.rcNak q k .sequence)
  else match k.op with
    | .send first last imm => s.rcSend qpn q k first last imm
    | .write reth last imm => s.rcWrite qpn q k reth last imm
    | .readReq va key len =>
      if s.mrOk q.part key va.toNat len 0 = false then some (s.rcNak q k .access)
      else match (if len = 0 then Acc.ok [] else s.partRead q.p va.toNat len) with
        | .ok b => some ((s.rxAdvance qpn (max 1 (ceilDiv len q.mtu))).readRsps q k b)
        | .fail _ => some (s.rcNak q k .operation)
        | .wait _ => none
    | .atomic va key opnd swap =>
      if va.toNat % 8 ≠ 0 then some (s.rcNak q k .invalid)
      else if s.mrOk q.part key va.toNat 8 2 = false then some (s.rcNak q k .access)
      else match s.partRead q.p va.toNat 8 with
        | .wait _ => none
        | .fail _ => some (s.rcNak q k .operation)
        | .ok b =>
          let old := BitVec.ofNat 64 (leNat b)
          match s.placeAt q.p va.toNat (leBytes 8 (atomicNew old opnd swap).toNat) with
          | .wait _ => none
          | .fail _ => some (s.rcNak q k .operation)
          | .ok t =>
            let t1 := (t.rxAdvance qpn 1).modQp qpn (fun q => { q with atomics := (k.psn.toNat, old) :: q.atomics.take 127 })
            some (t1.answer q k q.dest k.psn.toNat (.atomicRsp old))
    | _ => some (s.rcNak q k .invalid)

/-- Move the PSN expected past every PSN recorded (R352); at most `n` steps.
(DEDUCED: log 106.) -/
def Qp.slide (q : Qp) : Nat → Qp
  | 0 => q
  | n + 1 =>
    if q.recorded.contains q.rqPsn then
      ({ q with recorded := q.recorded.filter (fun x => decide (x ≠ q.rqPsn)), rqPsn := (q.rqPsn + 1) % psns } : Qp).slide n
    else q

/-- Record a PSN, and acknowledge the highest below which every PSN is recorded: where that advances, where a message completes,
and at the 16th packet since the last acknowledgement.
(DEDUCED: log 106.) -/
def State.sprayRecord (s : State) (qpn : Nat) (k : RdmaPkt) (whole : Bool) : State :=
  match s.qp? qpn with
  | none => s
  | some q =>
    let q1 := ({ q with recorded := q.recorded ++ [k.psn.toNat] } : Qp).slide 1025
    if q1.rqPsn = q.rqPsn ∧ whole = false ∧ q.unAcked < 15 then s.setQp qpn { q1 with unAcked := q.unAcked + 1 }
    else (s.setQp qpn { q1 with unAcked := 0 }).answer q1 k q1.dest (q1.rqPsn + psns - 1) .ack

/-- Responses to a sprayed read, each with its offset.
(DEDUCED: log 106.) -/
def State.sprayRsps (s : State) (q : Qp) (k : RdmaPkt) (h : Placement) (b : List Byte) : State :=
  (List.range (max 1 (ceilDiv b.length q.mtu))).foldl (fun t i =>
    t.answer q k q.dest k.psn.toNat (.sprayRsp { h with off := i * q.mtu }) ((b.drop (i * q.mtu)).take q.mtu)) s

/-- A request on a sprayed queue pair (R351, R352).
(DEDUCED: log 106.) -/
def State.sprayIn (s : State) (qpn : Nat) (q : Qp) (k : RdmaPkt) : Option State :=
  let d := psnDiff k.psn.toNat q.rqPsn
  let again := decide (psns / 2 ≤ d) || q.recorded.contains k.psn.toNat
  if again = false ∧ 1024 ≤ d then some s else
  match k.op with
  | .sprayRead h =>
    let s0 := if again then s.count fRDM_DUP_COUNT 1 else s
    if s.mrOk q.part h.rkey h.va.toNat h.msgLen 0 = false then some (s0.rcNak q k .access)
    else match (if h.msgLen = 0 then Acc.ok [] else s.partRead q.p h.va.toNat h.msgLen) with
      | .ok b => some ((if again then s0 else s0.sprayRecord qpn k true).sprayRsps q k h b)
      | .fail _ => some (s0.rcNak q k .operation)
      | .wait _ => none
  | .sprayWrite h =>
    if again then some ((s.count fRDM_DUP_COUNT 1).answer q k q.dest (q.rqPsn + psns - 1) .ack) else
    let n := k.data.length
    let bytes := (alook h.msg q.msgs).getD 0 + n
    let whole := decide (bytes = h.msgLen)
    if h.msgLen < h.off + n then some (s.rcNak q k .invalid)
    else if s.mrOk q.part h.rkey (h.va.toNat + h.off) n 1 = false then some (s.rcNak q k .access)
    else match (if whole then s.immRefused q h.imm else none) with
      | some code => some (s.rcRnr q k code)
      | none => match s.placeAt q.p (h.va.toNat + h.off) k.data with
        | .wait _ => none
        | .fail _ => some (s.rcNak q k .operation)
        | .ok t =>
          let t1 := t.modQp qpn (fun q => { q with msgs := if whole then adel h.msg q.msgs else aput h.msg bytes q.msgs })
          let t2 := if whole then (t1.deliverImm q h.msgLen q.dest h.imm).getD t1 else t1
          some (t2.sprayRecord qpn k whole)
  | _ => some (s.rcNak q k .invalid)

/-- A datagram (R338): its Q_Key must be the queue pair's; without a receive that holds it, it is dropped. -/
def State.udIn (s : State) (q : Qp) (k : RdmaPkt) (qkey : BitVec 32) (src : BitVec 24) (imm : Option (BitVec 32)) : Option State :=
  if qkey.toNat ≠ q.dest then some s
  else if q.trigRx ∧ imm.isSome then some ((s.deliverImm q k.data.length src.toNat imm).getD s)
  else match s.headRecv? q with
    | none => some s
    | some c =>
      if c.f 8 4 < k.data.length then some s else
      match s.placeAt q.p (c.f 0 8) k.data with
      | .wait _ => none
      | .fail _ => some s
      | .ok t => some (t.finishRecv c.id k.data.length imm src.toNat)

/-! ### The reliable-datagram mode (R353 to R355) -/

/-- 2 × KEEP_US in ticks, and KEEP_US. -/
def State.keep (s : State) : Nat := s.fld fRDM_CFG_KEEP_US * usTicks

/-- A NAK and an ACK of a message.
(DEDUCED: log 105.) -/
def State.rdNak (s : State) (q : Qp) (k : RdmaPkt) (h : Placement) (reason : Nat) : State :=
  s.answer q k h.srcEp.toNat 0 (.rdNak h.srcEp h.msg (BitVec.ofNat 11 reason))
def State.rdAck (s : State) (q : Qp) (k : RdmaPkt) (h : Placement) : State := s.answer q k h.srcEp.toNat 0 (.rdAck h.srcEp h.msg)

/-- The identity of a packet's message. -/
def rdIdOf (k : RdmaPkt) (h : Placement) : RdId :=
  { dev := if k.port.isNone then some k.srcDev.val else none, gid := if k.port.isNone then 0 else k.srcGid, ep := h.srcEp, msg := h.msg }

/-- May an entry of the recent-message table be reserved for another message?
(DEDUCED: log 105.) -/
def State.rdStale (s : State) (f : RdFate) : Bool :=
  match f with | .open => false | .done t => t + 2 * s.keep ≤ s.now | .abandoned t => t + 2 * s.keep ≤ s.now

/-- The recent-message table with an entry given up for a new one; none when it has no entry to give. -/
def State.rdReserve (s : State) : Option (List (RdId × RdFate)) :=
  if s.rdm.recent.length < 65536 then some s.rdm.recent
  else (s.rdm.recent.find? (fun e => s.rdStale e.2)).map (fun e => s.rdm.recent.erase e)

/-- Place a packet of a message that is open. -/
def State.rdPlace (s : State) (q : Qp) (k : RdmaPkt) (h : Placement) (m : RdIn) : Option State :=
  let n := k.data.length
  let got := m.got + n
  let whole := decide (got = h.msgLen)
  let isSend := match k.op with | .rdSend _ => true | _ => false
  let trig := q.trigRx && h.imm.isSome
  let recvIn := match m.recv with | some r => s.cmd? r | none => none
  let dst : Option Nat := if isSend then recvIn.map (fun c => c.f 0 8 + h.off) else some (h.va.toNat + h.off)
  match (if whole ∧ (isSend = false ∨ trig) then s.immRefused q h.imm else none) with
  | some code => some (s.rdNak q k h (if code = 2 ∧ trig then 0x006 else 0x002))
  | none =>
    match (match dst with | some a => s.placeAt q.p a k.data | none => Acc.ok s) with
    | .wait _ => none
    | .fail _ => some (s.rdNak q k h 0x7FD)
    | .ok t =>
      let m1 := { m with pkts := m.pkts ++ [k.psn.toNat], got := got }
      if whole = false then some (t.setRdm (fun r => { r with rdIn := r.rdIn.map (fun x => if x.id = m.id then m1 else x) }))
      else
        let t1 := t.setRdm (fun r => { r with rdIn := r.rdIn.filter (fun x => decide (x.id ≠ m.id)), recent := aput m.id (.done t.now) r.recent })
        let t2 := match isSend, trig, m.recv with
          | true, false, some r => t1.finishRecv r h.msgLen h.imm h.srcEp.toNat
          | _, _, _ => (t1.deliverImm q h.msgLen h.srcEp.toNat h.imm).getD t1
        some (t2.rdAck q k h)

/-- An in-progress message is abandoned; a receive that it consumed completes with TIMEOUT (R354). -/
def State.rdAbandon (s : State) (m : RdIn) : State :=
  let s1 := s.setRdm (fun r => { r with rdIn := r.rdIn.filter (fun x => decide (x.id ≠ m.id)), recent := aput m.id (.abandoned s.now) r.recent })
  match m.recv with | some r => s1.endCmd r .timeout | none => s1

/-- The message in progress that a packet belongs to and for which 2 × KEEP_US are over. -/
def State.rdOver? (s : State) (id : RdId) : Option RdIn := s.rdm.rdIn.find? (fun m => m.id = id && m.start + 2 * s.keep < s.now)

/-- A packet of a reliable-datagram message (R354). -/
def State.rdInPkt (s : State) (qpn : Nat) (q : Qp) (k : RdmaPkt) (h : Placement) : Option State :=
  let id := rdIdOf k h
  let isSend := match k.op with | .rdSend _ => true | _ => false
  match s.rdOver? id with
  | some m => some (s.rdAbandon m)
  | none =>
  match alook id s.rdm.recent with
  | some (.done _) => some (s.rdAck q k h)
  | some (.abandoned _) => some s
  | fate =>
    if 256 ≤ k.psn.toNat ∨ h.msgLen < h.off + k.data.length then some (s.rdNak q k h 0x7FD)
    else if isSend = false ∧ s.mrOk q.part h.rkey (h.va.toNat + h.off) k.data.length 1 = false then some (s.rdNak q k h 0x7FE)
    else match fate, s.rdm.rdIn.find? (fun m => m.id = id) with
      | some _, some m =>
        if m.pkts.contains k.psn.toNat then some (s.count fRDM_DUP_COUNT 1) else s.rdPlace q k h m
      | _, _ =>
        if 16384 ≤ s.rdm.rdIn.length then some (s.rdNak q k h 0x003)
        else match s.rdReserve with
          | none => some (s.rdNak q k h 0x004)
          | some l =>
            let recv := if isSend && !(q.trigRx && h.imm.isSome) then s.headRecv? q else none
            if isSend ∧ (q.trigRx && h.imm.isSome) = false ∧ recv.isNone then some (s.rdNak q k h 0x002)
            else if (match recv with | some c => decide (c.f 8 4 < h.msgLen) | none => false) then some (s.rdNak q k h 0x7FD)
            else
              let m : RdIn := { id := id, qpn := qpn, recv := recv.map (fun c => c.id), pkts := [], got := 0, start := s.now }
              (s.setRdm (fun r => { r with recent := l ++ [(id, .open)], rdIn := r.rdIn ++ [m] })).rdPlace q k h m

/-! ### The requester's answers -/

/-- A response names nothing that is outstanding (R463). -/
def State.staleRsp (s : State) (q : Qp) : State := s.count (fQUE_PSTALE_COUNT q.part) 1

/-- Place a part of what a read or an atomic returns. -/
def State.placeRsp (s : State) (qpn : Nat) (q : Qp) (w : Wr) (off : Nat) (b : List Byte) : Option State :=
  match s.cmd? w.cmd with
  | none => some s
  | some c =>
    if w.got.any (fun x => x.1 = off) then some (s.count fRDM_DUP_COUNT 1) else
    match s.placeAt q.p (c.f 8 8 + off) b with
    | .wait _ => none
    | .fail st => some ((s.endCmd w.cmd st).qpError qpn st 0)
    | .ok t => some (t.modQp qpn (fun q => { q with out := q.out.map (fun x => if x.cmd = w.cmd then { x with got := x.got ++ [(off, b.length)] } else x) }))

/-- The status and the detail of a refused reliable-datagram message (R345, R355).
(DEDUCED: log 105.) -/
def rdOutcome (reason : Nat) : Status × Nat :=
  if reason = 0x7FE then (.authFail, 0) else if reason = 0x7FD ∨ reason = 0x7FF then (.invalidField, 0)
  else (.refusedResource, rdmDetail reason)

/-- A reliable-datagram message reaches KEEP_US unacknowledged: it ends with TIMEOUT, or with the refusal of its last NAK (R355). -/
def State.rdGiveUp (s : State) (qpn : Nat) (w : Wr) : State :=
  let s1 := s.modQp qpn (fun q => { q with out := q.out.filter (fun x => decide (x.cmd ≠ w.cmd)) })
  match w.reason with | some r => s1.endCmd w.cmd .refusedResource (rdmDetail r) | none => s1.endCmd w.cmd .timeout

/-- A response on a queue pair in RTS.
(DEDUCED: log 175.) -/
def State.rspIn (s : State) (qpn : Nat) (q : Qp) (k : RdmaPkt) : Option State :=
  let psn := k.psn.toNat
  let prev := (psn + psns - 1) % psns
  match k.op with
  | .ack => some (s.ackTo qpn psn)
  | .nak code =>
    let s1 := s.ackTo qpn prev
    some (match code with
      | .sequence => s1.resend qpn
      | .invalid => s1.qpError qpn .invalidField 0
      | .access => s1.qpError qpn .authFail 0
      | .operation => s1.qpError qpn .dataError 0)
  | .rnr code =>
    let s1 := s.ackTo qpn prev
    match s1.qp? qpn with
    | none => some s1
    | some q1 =>
      if q1.rnrRetry < 7 ∧ q1.rnrRetry < q1.rnrCount + 1 then
        some (s1.qpError qpn .refusedResource (rdmDetail (if code = 1 then 0x001 else if code = 2 then 0x006 else 0x002)))
      else some (s1.setQp qpn { q1 with rnrCount := q1.rnrCount + 1, rnrUntil := some (s.now + rnrUnits code.val * 10 * usTicks), rnrCode := code.val })
  | .readRsp .. =>
    match q.out.find? (fun w => w.op = 0x4C && psnDiff psn w.psn < w.span) with
    | none => some (s.staleRsp q)
    | some w => (s.placeRsp qpn q w (psnDiff psn w.psn * q.mtu) k.data).map (fun t => t.ackTo qpn psn)
  | .atomicRsp old =>
    match q.out.find? (fun w => 0x4D ≤ w.op && w.psn = psn) with
    | none => some (s.staleRsp q)
    | some w => (s.placeRsp qpn q w 0 (leBytes 8 old.toNat)).map (fun t => t.ackTo qpn psn)
  | .sprayRsp h =>
    match q.out.find? (fun w => w.op = 0x4C && w.msg = h.msg.toNat) with
    | none => some (s.staleRsp q)
    | some w => (s.placeRsp qpn q w h.off k.data).map (fun t => t.finishWrs qpn)
  | .rdAck _ msg =>
    match q.out.find? (fun w => w.msg = msg.toNat) with
    | none => some (s.staleRsp q)
    | some w =>
      if w.first + s.keep < s.now then some (s.rdGiveUp qpn w)
      else some ((s.modQp qpn (fun q => { q with out := q.out.filter (fun x => decide (x.cmd ≠ w.cmd)) })).endCmd w.cmd .ok)
  | .rdNak _ msg reason =>
    match q.out.find? (fun w => w.msg = msg.toNat) with
    | none => some (s.staleRsp q)
    | some w =>
      let r := reason.toNat
      if w.first + s.keep < s.now then some (s.rdGiveUp qpn w)
      else if r = 0x001 ∨ r = 0x003 ∨ r = 0x004 then
        some (s.modQp qpn (fun q => { q with out := q.out.map (fun x => if x.cmd = w.cmd then { x with reason := some r } else x) }))
      else some ((s.modQp qpn (fun q => { q with out := q.out.filter (fun x => decide (x.cmd ≠ w.cmd)) })).endCmd w.cmd (rdOutcome r).1 (rdOutcome r).2)
  | _ => some s

/-! ### Congestion control (R358) -/

/-- The line rate of a logical port in kbit/s (R365).
(DEDUCED: log 108.) -/
def State.lineRate (s : State) (port : Nat) : Nat :=
  match s.fld (if port < 8 then fETH_CFG_MODE0 else fETH_CFG_MODE1) with
  | 0 => 800000000 | 1 => 400000000 | _ => 100000000

/-- The two halves of RDM_CNP. -/
def fCnpSent : Fld := ⟨rRDM_CNP, 32, 32⟩
def fCnpRecv : Fld := ⟨rRDM_CNP, 0, 32⟩

/-- Whom a packet's CNP goes to. -/
def cnpDest (q : Qp) (op : RdmaOp) : Nat :=
  match op with | .ud _ src _ => src.toNat | .rdSend h => h.srcEp.toNat | .rdWrite h => h.srcEp.toNat | _ => q.dest

/-- A RoCEv2 packet with ECN-CE, or one that finds the receive buffer above the threshold, makes a CNP, one per 50 µs.
(DEDUCED: log 108.) -/
def State.sendCnp (s : State) (qpn : Nat) (k : RdmaPkt) : State :=
  match s.qp? qpn with
  | none => s
  | some q =>
    let due : Bool := match q.cnpAt with | some t => decide (t + 50 * usTicks ≤ s.now) | none => true
    if k.port.isSome ∧ (k.ecn ∨ s.fld fRDM_CC_THRESH_KIB < k.bufKib) ∧ due ∧ k.op ≠ .cnp then
      ((s.setQp qpn { q with cnpAt := some s.now }).count fCnpSent 1).answer q k (cnpDest q k.op) 0 .cnp
    else s

/-- A CNP cuts the rate, at most once per 50 µs.
(DEDUCED: log 108.) -/
def State.cnpIn (s : State) (qpn : Nat) (q : Qp) : State :=
  let s1 := s.count fCnpRecv 1
  let due : Bool := match q.cutAt with | some t => decide (t + 50 * usTicks ≤ s.now) | none => true
  let rate := q.rate.getD (s.lineRate q.port)
  let q1 := if due then { q with rate := some (rate * (256 - s.fld fRDM_CC_CFG_CUT) / 256), cutAt := some s.now } else q
  s1.setQp qpn { q1 with raiseAt := s.now }

/-! ### Arrival (R339, R347, R359, R460) -/

/-- Is a packet a response?
(PRESUMED: log 101.) -/
def isRsp (op : RdmaOp) : Bool :=
  match op with
  | .readRsp .. => true | .atomicRsp _ => true | .ack => true | .nak _ => true | .rnr _ => true | .sprayRsp _ => true
  | .rdAck .. => true | .rdNak .. => true | _ => false

/-- Handle a packet of a queue pair whose context is on die; none while a page that it writes migrates. -/
def State.handlePkt (s : State) (qpn : Nat) (k : RdmaPkt) : Option State :=
  match s.qp? qpn with
  | none => some s
  | some q0 =>
    let s0 := if k.ue = .corrected then s.tableRead .ce id else if k.ue = .trigger then s.devUe blkRDM 3 qpn else s
    let s1 := (s0.sendCnp qpn k).touchQp qpn
    let q := (s1.qp? qpn).getD q0
    if k.ue = .context then some ((s1.devUe blkRDM 2 qpn).qpError qpn .dataError 0)
    else if isRsp k.op then
      if k.gen ≠ (s.part q.p).gen then some (s1.count (fQUE_PSTALE_COUNT q.part) 1)
      else if q.st = .rts then s1.rspIn qpn q k else some s1
    else if k.op = .cnp then some (s1.cnpIn qpn q)
    else
      let up := q.st = .rtr ∨ q.st = .rts
      match k.op with
      | .rdSend h | .rdWrite h =>
        if q.ty = .rd ∧ q.st = .reset then some s1
        else if q.ty ≠ .rd ∨ ¬ up then some (s1.rdNak q k h 0x7FF)
        else if s1.partHalts q.p then some (s1.rdNak q k h 0x002)
        else s1.rdInPkt qpn q k h
      | .ud qkey src imm => if q.ty = .ud ∧ up ∧ s1.partHalts q.p = false then s1.udIn q k qkey src imm else some s1
      | _ =>
        if ¬ up ∨ q.ty = .ud ∨ q.ty = .rd then some s1
        else if s1.partHalts q.p then some (s1.rcRnr q k q.minRnr)
        else if q.ty = .rc then s1.rcIn qpn q k else s1.sprayIn qpn q k

/-- Bytes of the miss buffer in use, and its size. -/
def State.missUsed (s : State) : Nat := (s.rdm.qps.map (fun x => (x.2.waiting.map (fun k => k.size)).sum)).sum
def missBytes : Nat := 0x400000

/-- Show the miss buffer's occupancy in KiB (R364). -/
def State.missShow (s : State) : State :=
  let n := ceilDiv s.missUsed 1024
  (s.setFld fRDM_MISS_USED n).setFld fRDM_MISS_PEAK (max n (s.fld fRDM_MISS_PEAK))

/-- Process waiting packets in arrival order, then waiting work requests; at most `n`. -/
def State.drainQp (s : State) (qpn : Nat) : Nat → State
  | 0 => s
  | n + 1 =>
    match s.qp? qpn with
    | none => s
    | some q =>
      if q.die ≠ .on then s else
      match q.waiting, q.waitWr with
      | k :: l, _ =>
        match (s.setQp qpn { q with waiting := l }).handlePkt qpn k with
        | some t => t.drainQp qpn n
        | none => s
      | [], id :: l =>
        let s1 := s.setQp qpn { q with waitWr := l }
        match s1.cmd? id with
        | some c => (s1.launch qpn c .ok).drainQp qpn n
        | none => s1.drainQp qpn n
      | [], [] => s

/-- Process all that waits at a queue pair. -/
def State.drainAll (s : State) (qpn : Nat) : State :=
  match s.qp? qpn with
  | some q => (s.drainQp qpn (q.waiting.length + q.waitWr.length)).missShow
  | none => s

/-- A migration has ended: what waited for it goes on (R228). -/
def State.drainWaits (s : State) : State :=
  let s1 := s.rdm.qps.foldl (fun t x => if x.2.waiting = [] then t else t.drainAll x.1) s
  s1.rdm.late.foldl (fun t x => match t.cmd? x.1 with | some c => t.deliver c x.2.2.1 x.2.2.2 | none => t) (s1.setRdm (fun r => { r with late := [] }))

/-- The partitions that an event of a port is sent to (R360): partition 0 and those with a queue pair on it. -/
def State.portParts (s : State) (port : Option Nat) : List (Fin 65) :=
  0 :: (List.finRange 65).filter (fun p => p ≠ 0 && s.rdm.qps.any (fun x => x.2.part = p.val && (if x.2.fabric then port = none else port = some x.2.port)))

/-- A packet finds the miss buffer full (R347). -/
def State.missRefuse (s : State) (q : Qp) (k : RdmaPkt) : State :=
  let s1 := (s.count fRDM_MISS_REFUSE_COUNT 1).raise fRDM_ERR_MISS_FULL
  let due : Bool := match s.rdm.missFullAt with | some t => decide (t + 10 * msTicks ≤ s.now) | none => true
  let s2 := if due then (s1.setRdm (fun r => { r with missFullAt := some s.now })).event blkRDM (s.portParts (k.port.map (fun x => x.val)))
      { code := 0x0404, result := s.missUsed, st := .refusedResource, detail := rdmDetail 0x001 } else s1
  match k.op with
  | .rdSend h | .rdWrite h => s2.rdNak q k h 0x001
  | .ud .. | .cnp => s2
  | op => if isRsp op then s2 else s2.answer q k q.dest k.psn.toNat (.rnr 1)

/-- A packet arrives for a queue pair: it is handled at once, or waits for its context in the miss buffer. -/
def State.arrive (s : State) (qpn : Nat) (k : RdmaPkt) : State :=
  match s.qp? qpn with
  | none => s
  | some q =>
    if q.die = .on ∧ q.waiting = [] then
      match s.handlePkt qpn k with
      | some t => t
      | none => (s.setQp qpn { q with waiting := [k] }).missShow
    else if missBytes < s.missUsed + k.size then s.missRefuse q k
    else
      let s1 := (s.setQp qpn { q with waiting := q.waiting ++ [k] }).missShow
      if q.die = .on then s1.drainAll qpn else s1.wantCtx qpn

/-- An unknown endpoint's answer (R355). -/
def nobody (k : RdmaPkt) : RdmaTx :=
  { port := k.port.map (fun x => x.val), dev := k.srcDev.val, gid := k.srcGid, vc := 0, path := 0, sport := 0, dscp := 0, part := 0,
    gen := k.gen, destQp := 0, psn := 0, ackReq := false, op := .ack, data := [] }

/-- A response to a queue pair destroyed less than 8 ms ago names no outstanding request: it is discarded and counted with its
partition's (R327, R341, R463).
(DEDUCED: log 105.) -/
def State.goneQpRsp (s : State) (n : Nat) : State :=
  match s.rdm.heldQpns.find? (fun x => x.1 = n) with | some x => s.count (fQUE_PSTALE_COUNT x.2.2) 1 | none => s

/-- What an RDMA packet that is accepted does (R338, R339). -/
def State.takePkt (s : State) (k : RdmaPkt) : State :=
  let n := k.destQp.toNat
  if n = 1 then s.emit (.qp1 k)
  else match s.qp? n with
    | some _ => s.arrive n k
    | none => match k.op with
      | .rdSend h | .rdWrite h => s.sendRdma { nobody k with destQp := h.srcEp, op := .rdNak h.srcEp h.msg 0x7FF }
      | op => if isRsp op then s.goneQpRsp n else s

/-- The transport takes the oldest frame that its port handed over; a yellow one counts as ECN-CE (R385).
(DEDUCED: log 111.) -/
def State.takeHanded (s : State) (k : RdmaPkt) : RdmaPkt × State :=
  match s.eth.handed.find? (fun x => k.port.map (fun l => l.val) == some x.1) with
  | some x => ({ k with ecn := k.ecn || x.2 }, s.setEth (fun e => { e with handed := e.handed.erase x }))
  | none => (k, s)

/-- Flits of an RDMA packet on the fabric. -/
def rdmaFlits (k : RdmaPkt) : Nat := ceilDiv (rdmaBytes k.op k.data.length) 304

/-- An RDMA packet arrives (R338, R339): on the fabric it is judged by its source's generation, and dropped while a warm reset
lasts (R17, R176, R178).
(DEDUCED: log 55.) -/
def execRdmaPacketReceive (k : RdmaPkt) (s : State) : Host.Outcome State Fault Refusal :=
  if k.port.isSome then .next ((s.takeHanded k).2.takePkt (s.takeHanded k).1)
  else if s.fab.resetting then .next (s.count (fFAB_DISCARD_COUNT k.inPort.val) (rdmaFlits k))
  else match s.genCheck k.srcDev.val k.srcGen with
    | none => .next (s.count (fFAB_STALE_COUNT k.inPort.val) (rdmaFlits k))
    | some t => .next (t.takePkt k)

/-- A fetch that is not complete within 50 µs of `t` is abandoned: its packets are dropped (R347).
(DEDUCED: log 104.) -/
def State.fetchFail (s : State) (qpn : Nat) (q : Qp) (t : Nat) : State :=
  (((((s.atLeast (t + 50 * usTicks)).setQp qpn { q with die := .off, waiting := [] }).count fRDM_FETCH_FAIL_COUNT q.waiting.length).raise
    fRDM_ERR_FETCH_FAIL).missShow).event blkRDM (ownerAnd0 q.p) { code := 0x0405, result := qpn, st := .timeout, detail := 0 }

/-- A context arrives on die (R347), unless its 50 µs are over.
(DEDUCED: log 175.) -/
def execQpcFetchDone (qpn : Nat) (s : State) : Host.Outcome State Fault Refusal :=
  match s.qp? qpn with
  | some q => match q.die with
    | .fetching (some t) =>
      if t + 50 * usTicks < s.now then .next (s.fetchFail qpn q t)
      else .next (((s.setQp qpn { q with die := .on }).touchQp qpn).drainAll qpn)
    | _ => .next s
  | none => .next s

/-- A fetch takes more than 50 µs.
(DEDUCED: log 104.) -/
def execQpcFetchTimeout (qpn : Nat) (s : State) : Host.Outcome State Fault Refusal :=
  match s.qp? qpn with
  | some q => match q.die with
    | .fetching (some t) => .next (s.fetchFail qpn q t)
    | _ => .next s
  | none => .next s

/-- The write-back of an evicted context ends (R348): a context that waits for a place is fetched, and this one again where it
is wanted.
(DEDUCED: log 104.) -/
def execQpcWritebackDone (qpn : Nat) (s : State) : Host.Outcome State Fault Refusal :=
  match s.qp? qpn with
  | some q =>
    if q.die ≠ .writing then .next s else
    let s1 := (s.setQp qpn { q with die := .off }).count fRDM_EVICT_COUNT 1
    let s2 := match s1.rdm.qps.find? (fun x => x.2.die = .fetching none) with
      | some x => s1.setQp x.1 { x.2 with die := .fetching (some s1.now) }
      | none => s1
    .next (if q.waiting ≠ [] ∨ q.waitWr ≠ [] then s2.wantCtx qpn else s2)
  | none => .next s

/-! ### Timers -/

/-- The time of the n-th consecutive timeout in ticks (R349). -/
def retxTime (n : Nat) : Nat := min (8 * 2 ^ n) 4000 * usTicks

/-- The reliable-datagram message of an endpoint whose timer ends first. -/
def firstDue (l : List Wr) : Option Wr :=
  l.foldl (fun a w => match a with
    | none => some w
    | some b => if w.since + retxTime w.n < b.since + retxTime b.n then some w else a) none

/-- The retransmission timer expires (R349, R355). -/
def execRetxTimeout (qpn : Nat) (s : State) : Host.Outcome State Fault Refusal :=
  match s.qp? qpn with
  | none => .next s
  | some q =>
    if q.out = [] ∨ q.st ≠ .rts then .next s
    else if q.ty = .rd then
      match firstDue q.out with
      | none => .next s
      | some w =>
        let s1 := s.atLeast (w.since + retxTime w.n)
        if q.retry ≤ w.n ∧ w.reason.isNone then .next ((s1.endCmd w.cmd .timeout).qpError qpn .timeout 0)
        else if w.first + s.keep ≤ s1.now then .next s1
        else
          let q1 := { q with out := q.out.map (fun x => if x.cmd = w.cmd then { x with n := w.n + 1, since := s1.now } else x) }
          .next ((s1.setQp qpn q1).resendGo qpn [w])
    else if q.rnrUntil.isSome then .next s
    else
      let s1 := s.atLeast (q.since + retxTime q.timeouts)
      if q.retry ≤ q.timeouts then .next (s1.qpError qpn .timeout 0)
      else .next (((s1.setQp qpn { q with timeouts := q.timeouts + 1 }).resend qpn).pump qpn)

/-- An RNR suspension ends, and unacknowledged packets are sent again (R350). -/
def execRnrTimerExpire (qpn : Nat) (s : State) : Host.Outcome State Fault Refusal :=
  match s.qp? qpn with
  | none => .next s
  | some q => match q.rnrUntil with
    | none => .next s
    | some t => .next ((((s.atLeast t).setQp qpn { q with rnrUntil := none }).resend qpn).pump qpn)

/-- An in-progress message is abandoned 2 × KEEP_US after its first packet (R354). -/
def execRdMessageAbandon (k : Nat) (s : State) : Host.Outcome State Fault Refusal :=
  match s.rdm.rdIn[k]? with
  | none => .next s
  | some m =>
    .next ((s.atLeast (m.start + 2 * s.keep)).rdAbandon m)

/-- A message reaches KEEP_US unacknowledged (R355): TIMEOUT, or the refusal that its last NAK gave. -/
def execRdKeepExpire (id : Nat) (s : State) : Host.Outcome State Fault Refusal :=
  match s.rdm.qps.find? (fun x => x.2.ty = .rd && x.2.out.any (fun w => w.cmd = id)) with
  | none => .next s
  | some (qpn, q) =>
    match q.out.find? (fun w => w.cmd = id) with
    | none => .next s
    | some w =>
      .next ((s.atLeast (w.first + s.keep)).rdGiveUp qpn w)

/-- After RECOVER_US without a CNP the rate rises, up to the line rate (R358).
(DEDUCED: log 108.) -/
def execCcRecover (qpn : Nat) (s : State) : Host.Outcome State Fault Refusal :=
  match s.qp? qpn with
  | none => .next s
  | some q => match q.rate with
    | none => .next s
    | some r =>
      let s1 := s.atLeast (q.raiseAt + s.fld fRDM_CC_CFG_RECOVER_US * usTicks)
      let r1 := r + s.fld fRDM_CC_CFG_ADD * 100000
      .next (s1.setQp qpn { q with rate := if s.lineRate q.port ≤ r1 then none else some r1, raiseAt := s1.now })

/-- An early trigger expires unused (R357).
(DEDUCED: log 107.) -/
def execTrigHoldExpire (p : Fin 65) (tag : BitVec 32) (s : State) : Host.Outcome State Fault Refusal :=
  match s.rdm.early.find? (fun e => e.1 = p.val && e.2.1 = tag.toNat) with
  | none => .next s
  | some e =>
    let s1 := s.atLeast (e.2.2 + s.fld fRDM_CFG_TRIG_HOLD_US * usTicks)
    .next ((s1.setRdm (fun r => { r with early := r.early.erase e })).event blkRDM (ownerAnd0 p)
      { code := 0x0406, result := tag.toNat, st := .timeout, detail := 0 })

end Sys2Proof.Machine
end

