-- ==== Sys2Proof/Machine/Granary.lean ====
section
/-! DEFINITION. Migration of placement pages (R227, R228) and the granary: service pavilions (R235), sealing (R229 to
R234) and cold-context attention (R236 to R241). -/

namespace Sys2Proof.Machine

open Sys2Proof

/-! ### Migration -/

/-- Set the migrations in progress, counted in CXM_MIG_STATUS. -/
def State.setMigs (s : State) (l : List Mig) : State :=
  ({ s with gmem := { s.gmem with migs := l } } : State).setFld fCXM_MIG_STATUS_ACTIVE l.length

/-- Write an entry of a placement table in one 8-byte write. -/
def State.putEntry (s : State) (a v : Nat) : State := s.devWrite a (leBytes 8 v)

/-- A destination page of a migration: a multiple of 2 MiB in populated GDDR7 or CXL memory.
(DEDUCED: log 63.) -/
def State.migDst (s : State) (a : Nat) : Bool :=
  a % pageBytes = 0 && (match s.region? a pageBytes with | some .gddr => true | some (.cxl _) => true | _ => false)

/-- A source page of a migration: what the entry names, no accelerator window.
(DEDUCED: log 63.) -/
def State.migSrc (s : State) (e : Nat) : Option Nat :=
  (s.entryPage e).filter (fun a => s.migDst a)

/-- A migration starts (R227, R228): its outcomes before a copy begins, else BUSY is set.
(DEDUCED: log 63.) -/
def execMigrate (id : Nat) (s : State) : Host.Outcome State Fault Refusal := s.onCmd id 0x10 (fun c =>
  let p : Fin 65 := Fin.ofNat 65 (c.f 0 1)
  let n := c.f 4 4
  let dst := c.f 8 8
  if s.gmem.migs.any (fun m => m.cmd = id) then s
  else if c.f 0 1 = 0 ∨ 64 < c.f 0 1 ∨ c.clean [at8 0 0 8, at8 4 0 32, at8 8 0 64] = false ∨ s.migDst dst = false ∨
      s.fld (fMEM_PT_LEN_LEN p.val) ≤ n then s.endCmd id .invalidField
  else if s.accessSt (s.ptAddr p n) 8 ≠ .ok then s.endCmd id (s.accessSt (s.ptAddr p n) 8)
  else
    let e := s.ptEntry p n
    match s.migSrc e with
    | none => s.endCmd id .invalidField
    | some src =>
      if bitOf e 61 then s.endCmd id .busy
      else if 16 ≤ s.gmem.migs.length then s.endCmd id .refusedResource 0x2800
      else match s.usable 0 [(src, pageBytes), (dst, pageBytes)] with
        | .ok => (s.putEntry (s.ptAddr p n) (e + 2 ^ 61)).setMigs (s.gmem.migs ++
            [{ cmd := id, part := p.val, entry := s.ptAddr p n, src := src, dst := dst }])
        | st => s.endCmd id st)

/-- A migration ends (R228): the entry takes the new page and loses BUSY in one write; an uncorrectable error in the copy,
at the line `ue`, leaves the old page. A copy whose writes copy-before-write holds waits (R255).
(DEDUCED: log 63.) -/
def execMigrateComplete (id : Nat) (ue : Option (BitVec 64)) (s : State) : Host.Outcome State Fault Refusal :=
  match s.gmem.migs.find? (fun m => m.cmd = id) with
  | none => .next s
  | some m =>
    let s1 := s.setMigs (s.gmem.migs.filter (fun x => decide (x.cmd ≠ id)))
    let e := s1.readN m.entry 8
    match ue with
    | none =>
      if s.writeHeld m.dst pageBytes then .next (s.waitCmd id [(m.dst, pageBytes)])
      else .next (((s1.devWrite m.dst (s1.bytesHeld m.src pageBytes)).putEntry m.entry (putBits (putBits e 61 1 0) 0 29 (m.dst / pageBytes))).endCmd id .ok |>.drainWaits)
    | some a => .next ((((s1.eccAt a.toNat .ue).putEntry m.entry (putBits e 61 1 0)).raise fCXM_ERR_MIG_FAIL).endCmd id .dataError |>.drainWaits)

/-! ### Service pavilions -/

/-- A write of a CXM_SVC_MASK register (R235): ignored while a schedule is present, else the named pavilions are loaded
with the granary program.
(DESIGN CHOICE: log 66.) -/
def State.svcMaskWrite (s : State) (k : Fin 2) (v : BitVec 64) : State :=
  if s.schedPresent then s.raise fCXM_ERR_CFG_DROP
  else
    let s1 := s.setFld (if k = 0 then fCXM_SVC_MASK0_BITS else fCXM_SVC_MASK1_BITS) v.toNat
    s1.beginLoads true (((List.range 128).filter (fun l => s1.service l && s1.present l)).map (fun l =>
      (l, { mask := 0, imem := Config.granaryImem, dmem := Config.granaryDmem })))

/-- (DEDUCED: log 69.) -/
def execCxmSvcMaskWrite (k : Fin 2) (v : BitVec 64) (s : State) : Host.Outcome State Fault Refusal := .next (s.svcMaskWrite k v)

/-- The service pavilions that are present (R235). -/
def State.svcPavs (s : State) : List Nat := (List.range 128).filter (fun l => s.service l && s.present l)

/-- The lowest service pavilion that is loaded and serves nothing.
(DESIGN CHOICE: log 65.) -/
def State.svcFree? (s : State) : Option Nat :=
  s.svcPavs.find? (fun l => !s.gmem.svcRun.any (fun r => r.2 = l) && !s.ldg.loads.any (fun d => d.svc && d.lpav = l))

/-! ### The granary (R229 to R232) -/

/-- A granary descriptor (R229). -/
structure Gran where
  fmt : Nat
  layers : Nat
  heads : Nat
  d : Nat
  cap : Nat
  pageBase : Nat
  sumBase : Nat
  sealedBase : Nat
  deriving DecidableEq, Repr

/-- The descriptor in 64 bytes, or the status it gives: VERSION first, then the ranges of its fields.
(DEDUCED: log 64.) -/
def parseGran (b : List Byte) : Acc Gran :=
  let g : Gran := { fmt := bitsOf (fieldAt b 6 2) 0 4, layers := fieldAt b 8 2, heads := fieldAt b 10 2, d := fieldAt b 12 2,
                    cap := fieldAt b 16 4, pageBase := fieldAt b 24 8, sumBase := fieldAt b 32 8, sealedBase := fieldAt b 40 8 }
  if fieldAt b 4 2 ≠ 1 then .fail .versionMismatch
  else if fieldAt b 0 4 = 0x47524E59 ∧ g.fmt ∈ [0x1, 0x2, 0x3, 0x4, 0xA, 0xB] ∧ 1 ≤ g.layers ∧ g.layers ≤ 1024 ∧ 1 ≤ g.heads ∧
      g.heads ≤ 256 ∧ g.d ∈ [64, 128, 192, 256] ∧ 1 ≤ g.cap ∧ g.cap ≤ 16777216 ∧ g.pageBase % 4096 = 0 ∧ g.sumBase % 64 = 0 ∧
      g.sealedBase % 64 = 0 then .ok g
  else .fail .invalidField

/-- Bytes of an element, and of a token's scales (R230). -/
def Gran.eb (g : Gran) : Nat := fmtBits g.fmt / 8
def Gran.scales (g : Gran) : Nat := if isMx g.fmt then g.d / 32 else 0
/-- Bytes of the elements of 64 tokens, of their scales, of a page, of a summary entry (R230, R231). -/
def Gran.elemBytes (g : Gran) : Nat := 64 * g.d * g.eb
def Gran.scaleBytes (g : Gran) : Nat := 64 * g.scales
def Gran.pageBytes (g : Gran) : Nat := 2 * (g.elemBytes + g.scaleBytes)
def Gran.sumBytes (g : Gran) : Nat := 64 + 4 * g.d

/-- Stream of a layer and a head, and where its pages, summaries and sealed count lie (R230, R231). -/
def Gran.stream (g : Gran) (layer head : Nat) : Nat := layer * g.heads + head
def Gran.pageAt (g : Gran) (st i : Nat) : Nat := g.pageBase + (st * g.cap + i) * g.pageBytes
def Gran.sumAt (g : Gran) (st i : Nat) : Nat := g.sumBase + (st * g.cap + i) * g.sumBytes
def Gran.sealedAt (g : Gran) (st : Nat) : Nat := g.sealedBase + 4 * st

/-- One element of an array at byte `o` of a page, decoded to FP32 (R40, R42): token `t`, element `d`, scales at `so`. -/
def Gran.elem (g : Gran) (page : List Byte) (o so t d : Nat) : BitVec 32 :=
  let n := fieldAt page (o + (t * g.d + d) * g.eb) g.eb
  if isMx g.fmt then mxDecode g.fmt (fieldAt page (so + t * g.scales + d / 32) 1) n else fp32 0 (codeVal g.fmt n)

/-- A key element and a value element of a page (R230). -/
def Gran.key (g : Gran) (page : List Byte) (t d : Nat) : BitVec 32 := g.elem page 0 g.elemBytes t d
def Gran.value (g : Gran) (page : List Byte) (t d : Nat) : BitVec 32 :=
  g.elem page (g.elemBytes + g.scaleBytes) (2 * g.elemBytes + g.scaleBytes) t d

/-- The summary key of a full page (R232): the mean key. -/
def Gran.summary (g : Gran) (page : List Byte) : List (BitVec 32) :=
  (List.range g.d).map (fun d => fp32 0 ((val32 (psum ((List.range 64).map (fun t => g.key page t d)))).scale (-6)))

/-- The page that a seal of `n` tokens writes: the token slots from `n` on are zero (R233). -/
def Gran.trim (g : Gran) (src : List Byte) (n : Nat) : List Byte :=
  let part (o w : Nat) : List Byte := (src.drop o).take (n * w) ++ List.replicate ((64 - n) * w) 0
  let e := g.d * g.eb
  part 0 e ++ part g.elemBytes g.scales ++ part (g.elemBytes + g.scaleBytes) e ++ part (2 * g.elemBytes + g.scaleBytes) g.scales

/-- The summary entry of a page (R231). -/
def Gran.sumEntry (g : Gran) (i n first : Nat) (page : List Byte) : List Byte :=
  leBytes 4 i ++ leBytes 1 n ++ leBytes 1 (if n < 64 then 1 else 0) ++ leBytes 2 0 ++ leBytes 8 first ++
    leBytes 4 (crc32c page).toNat ++ List.replicate 44 0 ++
    (if n < 64 then List.replicate (4 * g.d) 0 else (g.summary page).flatMap (fun x => leBytes 4 x.toNat))

/-- Read the granary descriptor that a command names. -/
def State.granOf (s : State) (c : Cmd) : Acc Gran :=
  if c.f 0 8 % 64 ≠ 0 then .fail .invalidField else (s.partRead c.p (c.f 0 8) 64).bind parseGran

/-! ### SEAL -/

/-- What a SEAL command names, once its fields are in range: the granary, the stream, the page index, the tokens. -/
def State.sealOf (s : State) (c : Cmd) : Acc (Gran × Nat × Nat × Nat) :=
  if c.clean [at8 0 0 64, at8 8 0 64, at8 16 0 64, at8 24 0 32, at8 28 0 8, at8 30 0 16, at8 32 0 16] = false then .fail .invalidField
  else (s.granOf c).bind (fun g =>
    if c.f 8 8 % 64 ≠ 0 ∨ c.f 28 1 = 0 ∨ 64 < c.f 28 1 ∨ g.layers ≤ c.f 30 2 ∨ g.heads ≤ c.f 32 2 then .fail .invalidField
    else .ok (g, g.stream (c.f 30 2) (c.f 32 2), c.f 24 4, c.f 28 1))

/-- The outcome of R233's tests, against the sealed count as it stands.
(DEDUCED: log 64.) -/
def State.sealCheck (s : State) (c : Cmd) : Acc (Gran × Nat × Nat × Nat) :=
  (s.sealOf c).bind (fun x => (s.partRead c.p (x.1.sealedAt x.2.1) 4).bind (fun b =>
    if x.2.2.1 ≠ leNat b then .fail .invalidState
    else if x.1.cap ≤ x.2.2.1 then .fail .refusedResource
    else .ok x))

/-- What a seal writes, in order: the page, the summary entry, and of a full page the advanced sealed count. -/
def State.sealWrites (s : State) (c : Cmd) : Acc (List (List (Nat × Nat) × List Byte)) :=
  (s.sealOf c).bind (fun x => (s.partRead c.p (c.f 8 8) x.1.pageBytes).bind (fun src =>
    (s.partRanges c.p (x.1.pageAt x.2.1 x.2.2.1) x.1.pageBytes).bind (fun r1 =>
      (s.partRanges c.p (x.1.sumAt x.2.1 x.2.2.1) x.1.sumBytes).bind (fun r2 =>
        let page := x.1.trim src x.2.2.2
        let l := [(r1, page), (r2, x.1.sumEntry x.2.2.1 x.2.2.2 (c.f 16 8) page)]
        if x.2.2.2 = 64 then
          (s.partRanges c.p (x.1.sealedAt x.2.1) 4).bind (fun r3 => .ok (l ++ [(r3, leBytes 4 (x.2.2.1 + 1))]))
        else .ok l))))

/-- A service request leaves its pavilion. -/
def State.svcLeave (s : State) (id : Nat) : State :=
  { s with gmem := { s.gmem with svcRun := s.gmem.svcRun.filter (fun r => decide (r.1 ≠ id)) } }

/-- The detail of a refusal for want of a page slot: the CXM block, index 0.
(DEDUCED: log 64.) -/
def svcDetail (st : Status) : Nat := if st = .refusedResource then 0x2800 else 0

/-- A service request ends with a status. -/
def State.svcEnd (s : State) (id : Nat) (st : Status) (detail : Nat) : State := (s.svcLeave id).endCmd id st detail

/-- A read at `a` meets a status other than OK: an uncorrectable error or poison is recorded where it is met (R219, R222), and on a
PCIe link a timeout or a poisoned completion (R288, R290).
(DESIGN CHOICE: log 57.) -/
def State.readFail (s : State) (a : Nat) (rd : Status) : State :=
  (if rd = .dataError then s.eccAt a .ue else s).noteRead a 1 rd

/-- A SEAL or ATTEND that runs on a service pavilion; INVALID_STATE where none is present (R235). `rd` is a status other than OK
that its read at `line` meets. -/
def State.svcDo (s : State) (id : Nat) (op : Nat) (rd : Status) (line : BitVec 64) (f : Cmd → State) : Host.Outcome State Fault Refusal :=
  s.onCmd id op (fun c =>
    if s.gmem.svcRun.any (fun r => r.1 = id) then (if rd = .ok then f c else (s.readFail line.toNat rd).svcEnd id rd 0)
    else if s.svcPavs = [] then s.endCmd id .invalidState
    else s)

/-- A page is sealed (R233). A write to a page that migrates waits. -/
def execSeal (id : Nat) (rd : Status) (line : BitVec 64) (s : State) : Host.Outcome State Fault Refusal :=
  s.svcDo id 0x02 rd line (fun c =>
  match s.sealWrites c with
  | .wait l => s.waitCmd id l
  | .fail st => s.svcEnd id st 0
  | .ok l => (l.foldl (fun t w => t.rangeWrite w.1 w.2) s).svcEnd id .ok 0)

/-! ### ATTEND -/

/-- What an ATTEND names, once its fields are in range. -/
structure Att where
  g : Gran
  stream : Nat
  pages : Nat
  k : Nat
  heads : Nat
  all : Bool
  deriving DecidableEq, Repr

def State.attOf (s : State) (c : Cmd) : Acc Att :=
  if c.clean [at8 0 0 64, at8 8 0 64, at8 16 0 64, at8 24 0 64, at8 32 0 32, at8 36 0 16, at8 38 0 16, at8 40 0 16, at8 42 0 5,
      at8 43 0 1] = false then .fail .invalidField
  else (s.granOf c).bind (fun g =>
    if c.f 8 8 % 64 ≠ 0 ∨ c.f 16 8 % 64 ≠ 0 ∨ c.f 24 8 % 64 ≠ 0 ∨ g.layers ≤ c.f 38 2 ∨ g.heads ≤ c.f 40 2 ∨ c.f 42 1 = 0 ∨
        16 < c.f 42 1 ∨ (c.f 43 1 = 0 ∧ (c.f 36 2 = 0 ∨ 4096 < c.f 36 2)) then .fail .invalidField
    else .ok { g := g, stream := g.stream (c.f 38 2) (c.f 40 2), pages := c.f 32 4, k := c.f 36 2, heads := c.f 42 1,
               all := c.f 43 1 = 1 })

/-- The test of R236 at the start: no more pages than are sealed.
(DEDUCED: log 64.) -/
def State.attCheck (s : State) (c : Cmd) : Acc Att :=
  (s.attOf c).bind (fun a => (s.partRead c.p (a.g.sealedAt a.stream) 4).bind (fun b =>
    if leNat b < a.pages then .fail .invalidState else .ok a))

/-- A dot product (R237, R238): the fixed pairwise sum of rounded products.
(DEDUCED: log 18.) -/
def dot32 (a b : List (BitVec 32)) : BitVec 32 := psum (List.zipWith (fmul 0) a b)

/-- The maximum by the tree of R51 with R36 at each node. -/
def maxTree (l : List (BitVec 32)) : BitVec 32 := pairReduce fmax 0xFF800000 l

/-- FP32 words of bytes. -/
def words32 (b : List Byte) (n : Nat) : List (BitVec 32) := (List.range n).map (fun i => BitVec.ofNat 32 (fieldAt b (4 * i) 4))

/-- Is an FP32 word a NaN? -/
def isNan32 (x : BitVec 32) : Bool := val32 x = .nan

/-- Does a page with score `x` rank before, or level with, one with score `y` (R237)? -/
def ranksFirst (x y : BitVec 32) : Bool :=
  match cmpVal (val32 x) (val32 y) with
  | some .lt => false
  | some _ => true
  | none => isNan32 y

/-- The indices selected from scores, ascending: the first `k` of the ranking (R237).
(DEDUCED: log 68.) -/
def selectPages (scores : List (BitVec 32)) (k : Nat) : List Nat :=
  let l := sortBy (fun x y => ranksFirst x.2 y.2) ((List.range scores.length).zip scores)
  sortBy (fun a b => decide (a ≤ b)) ((l.take k).map Prod.fst)

/-- A page partial or a combination (R238, R239): maximum, sum, weighted values. -/
structure Partial where
  m : BitVec 32
  l : BitVec 32
  o : List (BitVec 32)
  deriving DecidableEq, Repr

/-- EXP2 of the device (R60). -/
def exp2w (x : BitVec 32) : BitVec 32 := toG (exp2Val (val32 x))

/-- The partial of one page and one query head (R238).
(DEDUCED: log 68.) -/
def pagePartial (g : Gran) (q : List (BitVec 32)) (page : List Byte) : Partial :=
  let x := (List.range 64).map (fun t => dot32 q ((List.range g.d).map (g.key page t)))
  let mp := maxTree x
  let e := x.map (fun v => exp2w (fsub 0 v mp))
  { m := mp, l := psum e,
    o := (List.range g.d).map (fun d => psum (((List.range 64).zip e).map (fun te => fmul 0 te.2 (g.value page te.1 d)))) }

/-- One node of the combination (R239).
(DEDUCED: log 68.) -/
def joinPartial (a b : Partial) : Partial :=
  let m := fmax a.m b.m
  let factor (x : BitVec 32) : BitVec 32 :=
    if cmpVal (val32 x) (val32 m) = some .eq then 0x3F800000 else exp2w (fsub 0 x m)
  let fa := factor a.m
  let fb := factor b.m
  { m := m, l := ffma 0 a.l fa (fmul 0 b.l fb), o := List.zipWith (fun x y => ffma 0 x fa (fmul 0 y fb)) a.o b.o }

/-- The result over no page (R239). -/
def noPartial (d : Nat) : Partial := { m := 0xFF800000, l := 0, o := List.replicate d 0 }

/-- An output record (R240).
(DEDUCED: log 68.) -/
def attRecord (x : Partial) (visited : Nat) : List Byte :=
  leBytes 4 x.m.toNat ++ leBytes 4 x.l.toNat ++ leBytes 4 visited ++ List.replicate 52 0 ++ x.o.flatMap (fun w => leBytes 4 w.toNat)

/-- The reads of a list, in order, joined. -/
def accAll {α β : Type} (f : α → Acc β) : List α → Acc (List β)
  | [] => .ok []
  | x :: r => (f x).bind (fun v => (accAll f r).bind (fun l => .ok (v :: l)))

/-- Is a summary entry that of page `i`, full, with the CRC of the page as read (R241)? -/
def pageSound (i : Nat) (sum page : List Byte) : Bool :=
  fieldAt sum 0 4 = i && fieldAt sum 4 1 = 64 && fieldAt sum 16 4 = (crc32c page).toNat

/-- The result of an ATTEND: the first selected page that is not sound, or the records and the selected indices.
(DEDUCED: log 68.) -/
def State.attend (s : State) (c : Cmd) (a : Att) : Acc (Except Nat (List Byte × List Nat)) :=
  (s.partRead c.p (c.f 8 8) (4 * a.heads * a.g.d)).bind (fun qb =>
    let qs := (List.range a.heads).map (fun h => words32 (qb.drop (4 * h * a.g.d)) a.g.d)
    let sums := accAll (fun i => s.partRead c.p (a.g.sumAt a.stream i) a.g.sumBytes)
    let sel : Acc (List Nat) :=
      if a.all then .ok (List.range a.pages)
      else (sums (List.range a.pages)).bind (fun l =>
        .ok (selectPages (l.map (fun b => maxTree (qs.map (fun q => dot32 q (words32 (b.drop 64) a.g.d))))) a.k))
    sel.bind (fun ids => (sums ids).bind (fun ss =>
      (accAll (fun i => s.partRead c.p (a.g.pageAt a.stream i) a.g.pageBytes) ids).bind (fun ps =>
        match (ids.zip (ss.zip ps)).find? (fun x => !pageSound x.1 x.2.1 x.2.2) with
        | some x => .ok (.error x.1)
        | none => .ok (.ok (qs.flatMap (fun q =>
            attRecord (pairReduce joinPartial (noPartial a.g.d) (ps.map (pagePartial a.g q))) ids.length), ids))))))

/-- Attention over the selected pages (R236 to R241). -/
def execAttend (id : Nat) (rd : Status) (line : BitVec 64) (s : State) : Host.Outcome State Fault Refusal :=
  s.svcDo id 0x03 rd line (fun c =>
  match (s.attOf c).bind (fun a => (s.attend c a).bind (fun r => .ok (a, r))) with
  | .wait l => s.waitCmd id l
  | .fail st => s.svcEnd id st 0
  | .ok (_, .error i) => s.svcEnd id .dataError (0x2800 + i % 2048)
  | .ok (_, .ok (recs, ids)) =>
    let sel := ids.flatMap (leBytes 4)
    let w := (s.partRanges c.p (c.f 16 8) recs.length).bind (fun r1 =>
      if c.f 24 8 = 0 then .ok [(r1, recs)]
      else (s.partRanges c.p (c.f 24 8) sel.length).bind (fun r2 => .ok [(r1, recs), (r2, sel)]))
    match w with
    | .wait l => s.waitCmd id l
    | .fail st => s.svcEnd id st 0
    | .ok l => (l.foldl (fun t x => t.rangeWrite x.1 x.2) s).svcEnd id .ok 0)

/-- Is a command on a service pavilion? -/
def State.svcRuns (s : State) (c : Cmd) : Bool := s.gmem.svcRun.any (fun r => r.1 = c.id)

/-! ### Memory that stops serving (R222, R280, R299) -/

/-- The ranges that a SEAL, an ATTEND or a MIGRATE in progress may read or write.
(DESIGN CHOICE: log 160.) -/
def State.cmdSpans (s : State) (c : Cmd) : List (Nat × Nat) :=
  let span (a n : Nat) : List (Nat × Nat) := match s.translate c.p a n false with | .ok l => l | _ => []
  match c.op with
  | 0x02 => span (c.f 0 8) 64 ++ (match s.sealOf c with
    | .ok (g, st, i, _) => span (c.f 8 8) g.pageBytes ++ span (g.pageAt st i) g.pageBytes ++ span (g.sumAt st i) g.sumBytes ++
        span (g.sealedAt st) 4
    | _ => [])
  | 0x03 => span (c.f 0 8) 64 ++ (match s.attOf c with
    | .ok x => span (c.f 8 8) (4 * x.heads * x.g.d) ++ span (x.g.sumAt x.stream 0) (x.pages * x.g.sumBytes) ++
        span (x.g.pageAt x.stream 0) (x.pages * x.g.pageBytes) ++ span (c.f 16 8) (x.heads * (64 + 4 * x.g.d))
    | _ => [])
  | 0x10 => (s.gmem.migs.filter (fun m => m.cmd = c.id)).flatMap (fun m => [(m.src, pageBytes), (m.dst, pageBytes), (m.entry, 8)])
  | _ => []

/-- A migration ends without its copy: the entry loses BUSY and keeps the old page.
(DEDUCED: log 63.) -/
def State.migFail (s : State) (id : Nat) (st : Status) : State :=
  match s.gmem.migs.find? (fun m => m.cmd = id) with
  | none => s
  | some m =>
    (((s.setMigs (s.gmem.migs.filter (fun x => decide (x.cmd ≠ id)))).putEntry m.entry
      (putBits (s.readN m.entry 8) 61 1 0)).endCmd id st).drainWaits

/-- A region stops serving (R222, R280, R299): the operations in progress that have requests there complete with TARGET_RESET.
(DESIGN CHOICE: log 160.) -/
def State.loseRegion (s : State) (r : Region) : State :=
  let hit (c : Cmd) : Bool := (s.svcRuns c || s.gmem.migs.any (fun m => m.cmd = c.id)) && c.done = none &&
    (s.cmdSpans c).any (fun x => match s.regionAt x.1 with | some (q, _) => decide (q = r) | none => false)
  (s.que.cmds.filter hit).foldl (fun t c => if c.op = 0x10 then t.migFail c.id .targetReset else t.svcEnd c.id .targetReset 0) s

/-! ### The CXL ports (R221, R222) -/

/-- A port leaves ACTIVE for another state (R222): its outstanding requests complete with TARGET_RESET; counted, flagged, an event.
(DEDUCED: log 58.) -/
def State.leaveCxl (s : State) (n st : Nat) : State :=
  if s.fld (fCXM_PORT_STATUS_STATE n) = 3 then
    ((((s.loseRegion (.cxl n)).setCxl n st).count (fCXM_LINK_DOWN_COUNT n) 1).raise fCXM_ERR_LINK_DOWN).event0 blkCXM 0x0203 n .targetReset
  else s.setCxl n st

/-- A write of CXM_PORT_CTRL[n] (R221, R243): ENABLE starts training of a port that is DISABLED or FAILED; clearing it
disables the port. A gated port ignores ENABLE (R406). -/
def State.cxlCtrlWrite (s : State) (n : Nat) (v : BitVec 32) : State :=
  let s1 := (s.setFld (fCXM_PORT_CTRL_ENABLE n) (b2n (bitOf v.toNat 0))).setFld (fCXM_PORT_CTRL_LAT_OPT n) (b2n (bitOf v.toNat 1))
  let st := s.fld (fCXM_PORT_STATUS_STATE n)
  if s.gated (s.skuField 12 2) (8 + n) then s.setFld (fCXM_PORT_CTRL_LAT_OPT n) (b2n (bitOf v.toNat 1))
  else if bitOf v.toNat 0 then (if st = 0 ∨ st = 4 then s1.setCxl n 1 else s1)
  else s1.leaveCxl n 0

def execCxlPortEnable (n : Fin 2) (v : BitVec 32) (s : State) : Host.Outcome State Fault Refusal := .next (s.cxlCtrlWrite n.val v)
def execCxlPortDisable (n : Fin 2) (v : BitVec 32) (s : State) : Host.Outcome State Fault Refusal := .next (s.cxlCtrlWrite n.val v)

/-- A port leaves ACTIVE (R222).
(DEDUCED: log 58.) -/
def execCxlLinkDown (n : Fin 2) (s : State) : Host.Outcome State Fault Refusal :=
  if s.fld (fCXM_PORT_STATUS_STATE n.val) = 3 then .next (s.leaveCxl n.val 4) else .next s

/-! ### Completing (R240, R316, R329) -/

/-- The ranges that a command writes where it is carried out, of those that it may write now.
(DESIGN CHOICE: log 67.) -/
def State.cmdDests (s : State) (c : Cmd) : List (Nat × Nat) :=
  let put (a n : Nat) : List (Nat × Nat) := match s.partRanges c.p a n with | .ok l => l | _ => []
  match c.op with
  | 0x02 => match s.sealCheck c with
    | .ok x => put (x.1.pageAt x.2.1 x.2.2.1) x.1.pageBytes ++ put (x.1.sumAt x.2.1 x.2.2.1) x.1.sumBytes
    | _ => []
  | 0x03 => match s.attOf c with
    | .ok a => put (c.f 16 8) (a.heads * (64 + 4 * a.g.d)) ++
        (if c.f 24 8 = 0 then [] else put (c.f 24 8) (4 * (if a.all then a.pages else min a.k a.pages)))
    | _ => []
  | 0x4C => put (c.f 8 8) (c.f 0 4)
  | 0x4D => put (c.f 8 8) 8
  | 0x4E => put (c.f 8 8) 8
  | 0x50 => put (c.f 0 8) (c.f 8 4)
  | 0x62 => put (c.f 16 8) (c.f 4 4)
  | _ => []

/-- What a command would have written is undefined after ABORTED_PARTITION_RESET (R329), and what ATTEND writes after any status
other than OK (R240): free values.
(DESIGN CHOICE: log 67.) -/
def State.undefOut (s : State) (c : Cmd) (st : Status) : State :=
  if st = .abortedPartitionReset ∨ (c.op = 0x03 ∧ st ≠ .ok) then (s.cmdDests c).foldl (fun t r => t.freeBytes r.1 r.2) s else s

/-- A command's completion entry is written (R316), once no shaper holds a frame of it (R388). -/
def execCommandComplete (id : Nat) (wr : Status) (s : State) : Host.Outcome State Fault Refusal :=
  match s.cmd? id with
  | none => .next s
  | some c => match c.done with
    | none => .next s
    | some (st, d, r) => if c.shaped then .next s else .next ((s.undefOut c st).complete1 c st d r wr)

/-! ### Starting a service request (R235, R335) -/

/-- Are two SEALs of one stream: do their sealed counts lie in the same place (R234)?
(DESIGN CHOICE: log 65.) -/
def State.oneStream (s : State) (c d : Cmd) : Bool :=
  match s.sealOf c, s.sealOf d with
  | .ok x, .ok y => decide (s.translate c.p (x.1.sealedAt x.2.1) 4 false = s.translate d.p (y.1.sealedAt y.2.1) 4 false)
  | _, _ => false

/-- Must a SEAL wait for another of its stream: one that reached the device before it, or one that runs (R234)?
(DESIGN CHOICE: log 65.) -/
def State.sealBehind (s : State) (c : Cmd) : Bool :=
  c.op = 0x02 && s.que.cmds.any (fun d => d.op = 0x02 && decide (d.id ≠ c.id) && d.done = none &&
    (decide (d.id < c.id) || s.svcRuns d) && s.oneStream c d)

/-- Is a command a SEAL or an ATTEND that waits for a service pavilion? -/
def State.svcWaits (s : State) (c : Cmd) : Bool :=
  c.started && c.done = none && (c.op = 0x02 || c.op = 0x03) && !s.svcRuns c && !s.sealBehind c

/-- The requests that wait of an SQ, first come first.
(DESIGN CHOICE: log 65.) -/
def State.svcOf (s : State) (p : Fin 65) (q : Nat) : Option Cmd :=
  s.que.cmds.find? (fun c => c.part = p.val && c.sq = q && s.svcWaits c)

/-- The SQs of a class with a request that waits.
(DESIGN CHOICE: log 65.) -/
def State.svcSqs (s : State) (p : Fin 65) (cls : Nat) : List Nat :=
  sortBy (fun a b => decide (a ≤ b)) ((s.que.sqs.filter (fun x => x.1.1 = p.val && x.2.cls = cls && (s.svcOf p x.1.2).isSome)).map (fun x => x.1.2))

/-- The outcome of a service request's tests at its start (R233, R236): `none` where it is carried out.
(DEDUCED: log 64.) -/
def State.svcCheck (s : State) (c : Cmd) : Option Status :=
  if c.op = 0x02 then (match s.sealCheck c with | .fail st => some st | _ => none)
  else (match s.attCheck c with | .fail st => some st | _ => none)

/-- A free service pavilion takes the request whose turn it is (R235): its wait ends, and it runs unless its tests fail.
(DESIGN CHOICE: log 65.) -/
def execServiceRequestStart (s : State) : Host.Outcome State Fault Refusal :=
  match s.svcFree?, s.chooseBy s.svcSqs s.que.rrSvc with
  | some l, some (p, q, cls) =>
    match s.svcOf p q with
    | none => .next s
    | some c =>
      let s1 := (s.setPart p ((s.part p).served s.que.virtSvc 1)).setCmd { c with wait := s.now - c.fetched }
      let s2 : State := { s1 with que := { s1.que with virtSvc := max s.que.virtSvc (s.part p).fin,
                                                       rrSvc := aput (p.val, cls) q s1.que.rrSvc } }
      match s.svcCheck c with
      | some st => .next (s2.endCmd c.id st (svcDetail st))
      | none => .next { s2 with gmem := { s2.gmem with svcRun := s2.gmem.svcRun ++ [(c.id, l)] } }
  | _, _ => .next s

end Sys2Proof.Machine
end

