-- ==== Sys2Proof/Machine/Hif.lean ====
section
/-! DEFINITION. The PCIe ports (R276 to R303): configuration space, BAR4 and inbound windows, tags and timeouts,
accelerator configuration accesses, slots and hot-plug. -/

namespace Sys2Proof.Machine

open Sys2Proof

/-- The host link of a function: link 0 carries function 0 and link 1 function 1 (R276). -/
def State.linkUp (s : State) (h : Nat) : Bool := s.flag (fHIF_UP_STATUS_LINK_UP h)

/-- An upstream link finishes training (R277, R416): once its port may train, at the trained rate and width. -/
def execUpLinkUp (h : Fin 2) (rate width : Nat) (s : State) : Host.Outcome State Fault Refusal :=
  if s.ldg.step < 2 ∨ (h = 1 ∧ s.flag fHIF_CFG_BIF = false) ∨ rate = 0 ∨ 7 < rate ∨ width = 0 ∨
      (if s.flag fHIF_CFG_BIF then 8 else 16) < width then .next s
  else .next ((s.setFld (fHIF_UP_STATUS_RATE h.val) rate |>.setFld (fHIF_UP_STATUS_WIDTH h.val) width
    |>.raise (fHIF_UP_STATUS_LINK_UP h.val)).pulse (90 + h.val))

/-- An upstream link is down: its status, and the change of its event source (R306, R434). -/
def State.dropLink (s : State) (h : Nat) : State :=
  (s.setFld (fHIF_UP_STATUS_RATE h) 0 |>.setFld (fHIF_UP_STATUS_WIDTH h) 0 |>.setFld (fHIF_UP_STATUS_LINK_UP h) 0
    |>.setFld (fHIF_UP_STATUS_IDE h) 0).pulse (90 + h)

/-- An upstream link goes down without PERST# (R280 step 2): requests to that host's range complete with NOT_READY from now
on. -/
def execUpstreamLinkDown (h : Fin 2) (s : State) : Host.Outcome State Fault Refusal :=
  if s.linkUp h.val then .next (s.dropLink h.val) else .next s

/-- No queue of partition 0 exists, and the host holds no part of the cipher engine (R279). -/
def State.ctrlFree (s : State) : Bool :=
  !s.flag fQUE_ADMIN_CTRL_ENABLE && !s.que.sqs.any (fun x => x.1.1 = 0) && !s.que.cqs.any (fun x => x.1.1 = 0) &&
    s.fld fCIP_LOCK_OWNER ≠ 3 && !s.flag fCIP_CFG_VEC_EN

/-- A write of HIF_CFG through a function (R278, R279). -/
def State.hifCfgWrite (s : State) (fn : Fin 2) (v : BitVec 32) : State :=
  if fn ≠ s.ctrlFn ∧ s.linkUp s.ctrlFn.val then s.raise fHIF_ERR_RO_WRITE
  else
    let n := b2n (bitOf v.toNat 1)
    if n = s.fld fHIF_CFG_CTRL_PF then s
    else if s.flag fHIF_CFG_BIF && s.ctrlFree then s.setFld fHIF_CFG_CTRL_PF n
    else s.raise fHIF_ERR_CFG_DROP

def execHifCtrlPfWrite (fn : Fin 2) (v : BitVec 32) (s : State) : Host.Outcome State Fault Refusal := .next (s.hifCfgWrite fn v)

/-! ### Configuration space (R281, R416) -/

/-- The value of a field of a function's configuration space.
(PRESUMED: log 79; DEDUCED: log 151.) -/
def State.cfgRead (s : State) (fn : Fin 2) (f : CfgField) : Nat :=
  let c := s.hif.cfg[fn]
  let m := s.hif.msix[fn]
  match f with
  | .vendorId => s.skuField 0 2
  | .deviceId => 0x8800
  | .revisionId => 0xB0
  | .classCode => 0x120000
  | .subsysVendor => s.skuField 2 2
  | .subsysId => s.skuField 4 2
  | .intPin => 0
  | .command => c.command.toNat
  | .bar i => c.bars[i].toNat + (if i = 2 then 0xC else 4)
  | .romBar => c.romBar.toNat
  | .powerState => c.power.toNat
  | .deviceControl => c.devCtl.toNat
  | .portType => 0
  | .maxPayload => 512
  | .flr => 0
  | .noSoftReset => 1
  | .pme => 0
  | .extTag => 1
  | .flitMode => 1
  | .ctoRanges => 0
  | .ctoDisable => 0
  | .aspm => 0
  | .tag14Requester => 1
  | .tag14Completer => 1
  | .secondaryPcie => 1
  | .physLayer g => b2n (g = 16 || g = 32 || g = 64 || g = 128)
  | .laneMargining => 1
  | .flitLogging => 1
  | .scaledFlow => 1
  | .doeControl => 0
  | .doeStatus => b2n (s.fld fLDG_STATE_SEC ≠ 2) + 4 * b2n s.hif.spdm[fn].aborted
  | .doeWriteMailbox => 0
  | .linkIdeStreams => 1
  | .selectiveIdeStreams => 0
  | .msixControl => 0xFFF + b2n m.fmask * 0x4000 + b2n m.enable * 0x8000
  | .msixTable => 0x780000
  | .msixPba => 0x790000
  | .serial => match s.tru.uds with
    | some u => beNat ((keyDigest (pubOf (dicePriv u "DEVID"))).drop 24)
    | none => 0
  | .bar4Size => c.bar4Log2
  | .aerStatus => c.aer.toNat
  | .absent => 0

/-- BAR4's size is changed (R284): 16 GiB to 1 TiB, only while Memory Space Enable is 0. -/
def State.resizeBar4 (s : State) (fn : Fin 2) (n : Nat) : State :=
  let c := s.hif.cfg[fn]
  if c.command.getLsbD 1 ∨ n < 34 ∨ 40 < n then s else s.setCfg fn { c with bar4Log2 := n }

def execBar4Resize (fn : Fin 2) (n : Nat) (s : State) : Host.Outcome State Fault Refusal := .next (s.resizeBar4 fn n)

/-- Replace a function's responder. -/
def State.setSpdm (s : State) (fn : Fin 2) (x : Spdm) : State := s.setHif (fun h => { h with spdm := h.spdm.set fn x })

/-- A DOE Abort (R304): the object in progress goes, and the mailbox accepts objects again.
(PRESUMED: log 88.) -/
def State.doeAbort (s : State) (fn : Fin 2) : State := s.setSpdm fn { s.hif.spdm[fn] with aborted := false, obj := [] }

/-- A DWORD of a data object is written to the mailbox (R304): none is accepted while DOE Status reads Busy or Error, and one above
4,096 is refused with Error.
(PRESUMED: log 88.) -/
def State.doeWord (s : State) (fn : Fin 2) (v : BitVec 32) : State :=
  let x := s.hif.spdm[fn]
  if s.fld fLDG_STATE_SEC ≠ 2 ∨ x.aborted then s
  else if 4096 ≤ x.obj.length then s.setSpdm fn { x with aborted := true, obj := [] }
  else s.setSpdm fn { x with obj := x.obj ++ [v] }

/-- A write of a field of a function's configuration space. A field with a fixed value keeps it.
(PRESUMED: log 79.) -/
def State.cfgWrite (s : State) (fn : Fin 2) (f : CfgField) (v : BitVec 64) : State :=
  let c := s.hif.cfg[fn]
  match f with
  | .command => s.setCfg fn { c with command := BitVec.ofNat 16 v.toNat }
  | .bar i =>
    let z := if i = 0 then 26 else if i = 1 then 27 else c.bar4Log2
    s.setCfg fn { c with bars := c.bars.set i (BitVec.ofNat 64 (v.toNat / 2 ^ z * 2 ^ z)) }
  | .romBar => s.setCfg fn { c with romBar := BitVec.ofNat 32 (v.toNat / 2 ^ 20 * 2 ^ 20 + v.toNat % 2) }
  | .powerState => if v.toNat % 4 = 0 ∨ v.toNat % 4 = 3 then s.setCfg fn { c with power := BitVec.ofNat 2 v.toNat } else s
  | .deviceControl => s.setCfg fn { c with devCtl := BitVec.ofNat 16 v.toNat }
  | .msixControl =>
    let m := { s.hif.msix[fn] with enable := bitOf v.toNat 15, fmask := bitOf v.toNat 14 }
    (s.setHif (fun h => { h with msix := h.msix.set fn m })).msixFlush fn
  | .bar4Size => s.resizeBar4 fn v.toNat
  | .aerStatus => s.setCfg fn { c with aer := c.aer &&& ~~~(BitVec.ofNat 32 v.toNat) }
  | .doeControl => if bitOf v.toNat 0 then s.doeAbort fn else s
  | .doeWriteMailbox => s.doeWord fn (BitVec.ofNat 32 v.toNat)
  | _ => s

/-- A configuration request of a host (R281, R416): Configuration Request Retry Status until step 6 of bring-up has ended.
(PRESUMED: log 79.) -/
def execConfigurationRequest (fn : Fin 2) (x : CfgX) (s : State) : Host.Outcome State Fault Refusal :=
  if s.ldg.step < 6 then .next (s.emit (.cfgRsp none))
  else match x with
    | .read f => .next (s.emit (.cfgRsp (some (BitVec.ofNat 64 (s.cfgRead fn f)))))
    | .write f v => .next ((s.cfgWrite fn f v).emit (.cfgRsp (some 0)))

/-! ### The expansion ROM (R285) -/

/-- A ROM read: the UEFI image, and 0 beyond it. -/
def execRomRead (fn : Fin 2) (off len : Nat) (s : State) : Host.Outcome State Fault Refusal :=
  let _ := fn
  .next (s.emit (.cpl ((List.range len).map (fun i => s.ldg.flash.uefi.getD (off + i) 0))))

/-! ### Windows (R284, R301 to R303) -/

/-- The first window of a set, and how many it has: BAR4's 64, or the 16 of a slot. -/
def winSet (w : Nat) : Nat × Nat := if w < 64 then (0, 64) else (64 + (w - 64) / 16 * 16, 16)

/-- The valid window of a set that holds an address. -/
def State.winHit (s : State) (first n a : Nat) : Option Nat :=
  ((List.range n).map (fun i => first + i)).find? (fun w => s.flag (fHIF_WIN_CTRL_VALID w) &&
    decide (s.fld (fHIF_WIN_BASE_BASE w) ≤ a) && decide (a < s.fld (fHIF_WIN_BASE_BASE w) + 2 ^ s.fld (fHIF_WIN_CTRL_SIZE_LOG2 w)))

/-- A read completes as Unsupported Request, which AER logs (R281).
(PRESUMED: log 80.) -/
def State.replyUr (s : State) (link : Nat) : State := (s.aerLog link 20).emit .cplUr

/-- An access through a window (R284, R288, R303) on a link: `miss` where none permits it. A read that fails inside the device
completes with Completer Abort, a write that fails is discarded; both set WIN_FAIL. Writes of a link are made in their order and its
reads see them (R286); a transaction to a host or an accelerator is re-issued (R296). A TLP with EP set is recorded, and its data
discarded, whatever window it meets.
(DEDUCED: log 81.) -/
def State.winAccess (s : State) (link first n : Nat) (x : TlpX) (miss : State → State) : State :=
  let wr := x.wr.isSome
  let len := match x.wr with | some b => b.length | none => x.len
  let goal (w : Nat) : Nat := s.fld (fHIF_WIN_TARGET_TARGET w) + (x.addr - s.fld (fHIF_WIN_BASE_BASE w))
  let s0 := if x.ep then s.poisonRx link (match s.winHit first n x.addr with | some w => goal w | none => 0) else s
  match s.winHit first n x.addr with
  | none => if wr then miss s0 else (miss s0).replyUr link
  | some w =>
    if s.flag (if wr then fHIF_WIN_CTRL_WR w else fHIF_WIN_CTRL_RD w) = false then (if wr then miss s0 else (miss s0).replyUr link)
    else if x.ep then s0
    else
      let a := goal w
      let fail (t : State) : State := (if wr then t else t.emit .cplCa).raise fHIF_ERR_WIN_FAIL
      if s.accessSt a len ≠ .ok ∨ (wr ∧ s.region? a len = some .log) then fail s
      else
        let u := match s.region? a len with | some (.scratch _) => 8 | _ => 64
        let reads := wr = false || !wholeLines a len u
        let s1 := if reads then s.eccAt a x.ecc else s
        if reads ∧ x.ecc = .ue then fail s1
        else match x.wr with
          | some b => s1.devWrite a b false (.link link)
          | none => (s1.sendRd (some link) a len).emit (.cpl (s1.bytesHeld a len))

/-- A host access to BAR4 (R284).
(DEDUCED: log 81, 82.) -/
def execBar4Access (fn : Fin 2) (x : TlpX) (s : State) : Host.Outcome State Fault Refusal :=
  if x.addr < 2 ^ s.hif.cfg[fn].bar4Log2 then .next (s.winAccess fn.val 0 64 x (fun t => t.raise fHIF_ERR_P4_MISS)) else .next s

/-- An access of an accelerator to a bus address of its slot's inbound windows (R294, R303).
(DEDUCED: log 81.) -/
def execInboundAccess (a : Fin 16) (x : TlpX) (s : State) : Host.Outcome State Fault Refusal :=
  .next (s.winAccess (2 + a.val) (64 + 16 * a.val) 16 x (fun t => (t.count (fHIF_SLOT_IWMISS_COUNT a.val) 1).raise fHIF_ERR_IW_MISS))

/-- The checks of a commit (R301, R471). -/
def State.winOk (s : State) (w base target ctrl : Nat) : Bool :=
  let z := bitsOf ctrl 0 6
  let r := s.region? target (2 ^ z)
  let o := winSet w
  base % 2 ^ z = 0 && target % 2 ^ z = 0 && decide (21 ≤ z) && decide (z ≤ (if w < 64 then 40 else 43)) &&
    (decide (w < 64) || decide (base + 2 ^ z ≤ 0x80000000000)) && r.isSome && !(decide (r = some .log) && bitOf ctrl 9) &&
    (List.range o.2).all (fun i => let v := o.1 + i
      v = w || !s.flag (fHIF_WIN_CTRL_VALID v) ||
        !spansMeet base (2 ^ z) (s.fld (fHIF_WIN_BASE_BASE v)) (2 ^ s.fld (fHIF_WIN_CTRL_SIZE_LOG2 v)))

/-- A write of HIF_WIN_COMMIT (R301, R302). -/
def State.winCommit (s : State) (v : BitVec 32) : State :=
  if bitsOf v.toNat 16 16 ≠ 0xA55A ∨ bitOf v.toNat 0 = false then s
  else if s.flag fHIF_WIN_STATUS_BUSY then s.raise fHIF_ERR_CFG_DROP
  else
    let w := s.fld fHIF_WSH_SEL_W
    let b := s.reg rHIF_WSH_BASE
    let t := s.reg rHIF_WSH_TARGET
    let c := s.reg rHIF_WSH_CTRL
    if bitOf c.toNat 31 ∧ s.winOk w b.toNat t.toNat c.toNat = false then
      s.setFld fHIF_WIN_STATUS_STATUS (statusCode .invalidField)
    else ((s.setHif (fun h => { h with win := some { w := w, base := b, target := t, ctrl := c } })).setFld fHIF_WIN_STATUS_STATUS
      (statusCode .ok)).raise fHIF_WIN_STATUS_BUSY

def execWinCommit (v : BitVec 32) (s : State) : Host.Outcome State Fault Refusal := .next (s.winCommit v)

/-- The committed settings take effect between two transactions, and BUSY clears (R302). -/
def execWinSwitch (s : State) : Host.Outcome State Fault Refusal :=
  match s.hif.win with
  | none => .next s
  | some p => .next (((((s.setHif (fun h => { h with win := none })).setReg (rHIF_WIN_BASE p.w) p.base).setReg (rHIF_WIN_TARGET p.w)
      p.target).setReg (rHIF_WIN_CTRL p.w) p.ctrl).setFld fHIF_WIN_STATUS_BUSY 0)

/-! ### Accelerator configuration accesses (R292, R295) -/

/-- An access ends with a status.
(DESIGN CHOICE: log 85.) -/
def State.endDcfg (s : State) (st : Nat) : State :=
  ((s.setHif (fun h => { h with dcfg := none })).setFld fHIF_DCFG_STATUS_STATUS st).setFld fHIF_DCFG_STATUS_BUSY 0

/-- Issue the request of the access in progress, when a tag is free. -/
def State.issueDcfg (s : State) (d : Dcfg) : State :=
  match s.issueTag (2 + d.slot) with
  | none => s.setHif (fun h => { h with dcfg := some { d with tag := none } })
  | some (t, s1) => (s1.setHif (fun h => { h with dcfg := some { d with tag := some t } })).emit
      (.cfgReq d.slot (s.fld fHIF_DCFG_ADDR_FUNC) (s.fld fHIF_DCFG_ADDR_DWORD)
        (if d.write then some (BitVec.ofNat 32 (s.fld fHIF_DCFG_DATA_DATA)) else none))

/-- Is a register DWORD a BAR or holds bus numbers (R295)?
(DEDUCED: log 84.) -/
def barDword (d : Nat) : Bool := (4 ≤ d && d ≤ 9) || d = 12

/-- A write of HIF_DCFG_ADDR (R295).
(DEDUCED: log 84.) -/
def State.dcfgAddrWrite (s : State) (v : BitVec 32) : State :=
  if s.flag fHIF_DCFG_STATUS_BUSY then s.raise fHIF_ERR_CFG_DROP
  else
    let s1 := s.setFld fHIF_DCFG_ADDR_WRITE (b2n (bitOf v.toNat 31)) |>.setFld fHIF_DCFG_ADDR_SLOT (bitsOf v.toNat 24 4)
      |>.setFld fHIF_DCFG_ADDR_FUNC (bitsOf v.toNat 16 3) |>.setFld fHIF_DCFG_ADDR_DWORD (bitsOf v.toNat 2 10)
    let a := bitsOf v.toNat 24 4
    let w := bitOf v.toNat 31
    if s.fld (fHIF_SLOT_STATUS_STATE a) ≠ 5 then (s1.endDcfg (statusCode .invalidState)).logRefused blkHIF rHIF_DCFG_ADDR v.toNat
    else if w ∧ barDword (bitsOf v.toNat 2 10) then s1.endDcfg (statusCode .refusedPolicy)
    else (s1.raise fHIF_DCFG_STATUS_BUSY).issueDcfg { slot := a, tag := none, write := w, crs := none }

def execDcfgRead (v : BitVec 32) (s : State) : Host.Outcome State Fault Refusal := .next (s.dcfgAddrWrite v)
def execDcfgWrite (v : BitVec 32) (s : State) : Host.Outcome State Fault Refusal := .next (s.dcfgAddrWrite v)

/-- The access in progress gets its completion (R288, R292, R295). The status of an access that the accelerator answers with
Unsupported Request or Completer Abort is a free value: the spec states none.
(DESIGN CHOICE: log 85.) -/
def State.dcfgCpl (s : State) (d : Dcfg) (x : CplX) : State :=
  if x.ep then (s.poisonRx (2 + d.slot) 0).endDcfg (statusCode .dataError)
  else match x.st with
    | .sc => (if d.write then s else s.setFld fHIF_DCFG_DATA_DATA x.data.toNat).endDcfg (statusCode .ok)
    | .crs => s.issueDcfg { d with crs := some (d.crs.getD s.now) }
    | _ => let r := s.takeFree 16
           r.2.endDcfg (r.1.toNat % 0x11)

/-- A completion arrives (R291, R299, R462, R463): for an outstanding request of the link's generation it is accepted; one of an
earlier generation is stale; one whose tag is free or quarantined is late. -/
def execPcieCompletionRx (k : Fin 18) (x : CplX) (s : State) : Host.Outcome State Fault Refusal :=
  match alook (k.val, x.tag) s.hif.tags with
  | some (.out _ _ g) =>
    let s1 := s.setTags (adel (k.val, x.tag) s.hif.tags)
    if g ≠ s.linkGen k.val then .next (s1.count (fHIF_SLOT_STALE_COUNT (k.val - 2)) 1)
    else match s.hif.dcfg with
      | some d => if d.slot + 2 = k.val ∧ d.tag = some x.tag then .next (s1.dcfgCpl d x) else .next s1
      | none => .next s1
  | _ =>
    let s1 := (if k.val < 2 then s.count (fHIF_UP_LATE_COUNT k.val) 1 else s.count (fHIF_SLOT_LATE_COUNT (k.val - 2)) 1).raise fHIF_ERR_LATE
    .next (s1.aerLog k.val 16)

/-- A request's timeout expires (R290): the operation fails with TIMEOUT, and the tag is quarantined for twice the timeout. A
request of an earlier generation has failed already (R299), and its tag becomes free. -/
def execCompletionTimeout (k : Fin 18) (tag : Nat) (s : State) : Host.Outcome State Fault Refusal :=
  match alook (k.val, tag) s.hif.tags with
  | some (.out t c g) =>
    let s1 := s.atLeast (t + c * usTicks)
    if g ≠ s.linkGen k.val then .next (s1.setTags (adel (k.val, tag) s.hif.tags))
    else
      let s2 := (s1.setTags (aput (k.val, tag) (.quar (s1.now + 2 * c * usTicks)) s.hif.tags)).reportTimeout k.val
      match s.hif.dcfg with
      | some d => if d.slot + 2 = k.val ∧ d.tag = some tag then .next (s2.endDcfg (statusCode .timeout)) else .next s2
      | none => .next s2
  | _ => .next s

/-- A quarantine ends (R290); a request that waits for a tag is issued (R289).
(DEDUCED: log 86.) -/
def execTagQuarantineEnd (k : Fin 18) (tag : Nat) (s : State) : Host.Outcome State Fault Refusal :=
  match alook (k.val, tag) s.hif.tags with
  | some (.quar t) =>
    let s1 := (s.atLeast t).setTags (adel (k.val, tag) s.hif.tags)
    match s.hif.dcfg with
    | some d => if d.slot + 2 = k.val ∧ d.tag = none then .next (s1.issueDcfg d) else .next s1
    | none => .next s1
  | _ => .next s

/-- Configuration Request Retry Status for 1 s (R292): the access fails with TIMEOUT. -/
def execDcfgCrsTimeout (s : State) : Host.Outcome State Fault Refusal :=
  match s.hif.dcfg with
  | none => .next s
  | some d => match d.crs with
    | none => .next s
    | some t =>
      let s1 := s.atLeast (t + secTicks)
      let s2 := match d.tag with | some g => s1.setTags (adel (2 + d.slot, g) s.hif.tags) | none => s1
      .next (s2.endDcfg (statusCode .timeout))

/-! ### Slots (R293 to R300) -/

/-- The state of a slot (R297): 0 EMPTY, 1 OFF, 2 POWERING, 3 TRAINING, 4 ENUMERATING, 5 READY, 6 FAILED. -/
def State.slotSt (s : State) (a : Fin 16) : Nat := s.fld (fHIF_SLOT_STATUS_STATE a.val)

/-- Does the SKU record gate a slot's port (R406)? -/
def State.slotGated (s : State) (a : Fin 16) : Bool := s.gated (s.skuField 12 2) (a.val / 2)

/-- Change what a slot's registers do not hold. -/
def State.setSlotX (s : State) (a : Fin 16) (f : SlotX → SlotX) : State :=
  s.setHif (fun h => { h with slots := h.slots.set a (f h.slots[a]) })

/-- A slot enters a state now.
(DEDUCED: log 83, 138.) -/
def State.enterSlot (s : State) (a : Fin 16) (st : Nat) : State :=
  ((s.setFld (fHIF_SLOT_STATUS_STATE a.val) st).pulse (56 + a.val)).setSlotX a (fun x => { x with since := s.now })

/-- The name of a slot's pin. -/
def slotPin (name : String) (a : Fin 16) : String := name ++ "[" ++ toString a.val ++ "]"

/-- Does a slot exist under the split that its port has been given (R293): slot 2n always, slot 2n + 1 of a split port?
(DEDUCED: log 83.) -/
def State.slotExists (s : State) (a : Fin 16) : Bool := a.val % 2 = 0 || s.flag (fHIF_DS_CTRL_SPLIT (a.val / 2))

/-- Drive a slot's reset, and its power enable. -/
def State.slotReset (s : State) (a : Fin 16) (on : Bool) : State :=
  (s.setSlotX a (fun x => { x with rst := on })).emit (.pin (slotPin "slot_rst_n" a) (!on))
def State.slotPower (s : State) (a : Fin 16) (on : Bool) : State :=
  (s.setSlotX a (fun x => { x with power := on, offAt := none })).emit (.pin (slotPin "slot_pwr_en" a) on)

/-- A slot's event and its flag (R300). -/
def State.slotEvent (s : State) (a : Fin 16) (code : Nat) (st : Status) : State :=
  let s1 := match code with
    | 0x0701 => s.raise (fHIF_SLOT_STATUS_PDC a.val)
    | 0x0702 => s.raise (fHIF_SLOT_STATUS_ABP a.val)
    | 0x0703 => s.raise (fHIF_SLOT_STATUS_LSC a.val)
    | _ => s
  s1.event0 blkHIF code a.val st

/-- The link of a slot is lost: nothing trained.
(DEDUCED: log 83.) -/
def State.slotNoLink (s : State) (a : Fin 16) : State :=
  (s.setFld (fHIF_SLOT_LINK_RATE a.val) 0 |>.setFld (fHIF_SLOT_LINK_WIDTH a.val) 0 |>.setFld (fHIF_SLOT_LINK_DEGRADED a.val) 0).setSlotX a
    (fun x => { x with linkAt := none, bars := [] })

/-- Was the slot's link up? -/
def State.slotLinked (s : State) (a : Fin 16) : Bool := s.fld (fHIF_SLOT_LINK_RATE a.val) ≠ 0

/-- A slot departs from READY (R299): its generation advances, and requests to it complete with TARGET_RESET.
(DEDUCED: log 83.) -/
def State.leaveReady (s : State) (a : Fin 16) : State :=
  if s.slotSt a = 5 then
    let s1 := (s.loseRegion (.accel a.val)).setFld (fHIF_SLOT_STATUS_GEN a.val) (s.fld (fHIF_SLOT_STATUS_GEN a.val) + 1)
    match s.hif.dcfg with
    | some d => if d.slot = a.val then s1.endDcfg (statusCode .targetReset) else s1
    | none => s1
  else s

/-- Debounced presence changes (R297, R300): arrival, or a surprise removal; a button press that falls together with it is
reported after it. -/
def execSlotPresenceChange (a : Fin 16) (present button : Bool) (s : State) : Host.Outcome State Fault Refusal :=
  let press (t : State) : State := if button then t.slotEvent a 0x0702 .ok else t
  if s.slotGated a then .next s
  else if present ∧ s.slotSt a = 0 then
    .next (press (((s.enterSlot a 1).raise (fHIF_SLOT_STATUS_PRESENT a.val)).slotEvent a 0x0701 .ok))
  else if present = false ∧ s.slotSt a ≠ 0 then
    let up := s.slotLinked a
    let s1 := ((((((s.leaveReady a).slotNoLink a).slotReset a true).slotPower a false).enterSlot a 0).setFld
      (fHIF_SLOT_STATUS_PRESENT a.val) 0).slotEvent a 0x0701 .ok
    let s2 := press s1
    .next (if up then s2.slotEvent a 0x0703 .targetReset else s2)
  else .next s

/-- A press of the attention button (R300). -/
def execSlotButtonPress (a : Fin 16) (s : State) : Host.Outcome State Fault Refusal :=
  if s.slotGated a then .next s else .next (s.slotEvent a 0x0702 .ok)

/-- A command is turned away (R298). -/
def State.slotRefuse (s : State) (a : Fin 16) (v : BitVec 32) : State :=
  (s.setFld (fHIF_SLOT_STATUS_LAST_STATUS a.val) (statusCode .invalidState)).logRefused blkHIF (rHIF_SLOT_CTRL a.val) v.toNat

/-- A write of HIF_SLOT_CTRL (R298, R300, R306): the indicator, and a command. Slot 2n + 1 of a port that is not split is not powered
on (R293).
(DEDUCED: log 83.) -/
def State.slotCtrlWrite (s : State) (a : Fin 16) (v : BitVec 32) : State :=
  if bitsOf v.toNat 16 16 ≠ 0xA55A then s else
  let ind := bitsOf v.toNat 4 2
  let s1 := if ind = 3 then s else s.setFld (fHIF_SLOT_CTRL_ATN_IND a.val) ind
  let done (t : State) : State := t.setFld (fHIF_SLOT_STATUS_LAST_STATUS a.val) (statusCode .ok)
  match bitsOf v.toNat 0 2 with
  | 1 =>
    if s.slotSt a = 1 ∧ s.slotExists a then
      let n : Fin 8 := Fin.ofNat 8 (a.val / 2)
      let s2 := s1.setHif (fun h => { h with split := h.split.set n (s.flag (fHIF_DS_CTRL_SPLIT n.val)) })
      done (((s2.slotReset a true).slotPower a true).enterSlot a 2)
    else s1.slotRefuse a v
  | 2 =>
    if 2 ≤ s.slotSt a then
      let up := s.slotLinked a
      let s2 := ((((s1.leaveReady a).slotNoLink a).slotReset a true).enterSlot a 1).setSlotX a (fun x => { x with offAt := some (s.now + msTicks) })
      done (if up then s2.slotEvent a 0x0703 .targetReset else s2)
    else s1.slotRefuse a v
  | _ => s1

def execSlotPowerOn (a : Fin 16) (v : BitVec 32) (s : State) : Host.Outcome State Fault Refusal := .next (s.slotCtrlWrite a v)
def execSlotPowerOff (a : Fin 16) (v : BitVec 32) (s : State) : Host.Outcome State Fault Refusal := .next (s.slotCtrlWrite a v)

/-- Power is removed 1 ms after a power-off (R298). -/
def execSlotPowerRemove (a : Fin 16) (s : State) : Host.Outcome State Fault Refusal :=
  match s.hif.slots[a].offAt with
  | none => .next s
  | some t => .next ((s.atLeast t).slotPower a false)

/-- After 100 ms in POWERING the reset is released (R297). -/
def execSlotResetRelease (a : Fin 16) (s : State) : Host.Outcome State Fault Refusal :=
  if s.slotSt a = 2 then .next (((s.atLeast (s.hif.slots[a].since + 100 * msTicks)).slotReset a false).enterSlot a 3) else .next s

/-- Lanes of a slot at full width: 8 where its port is split, else 16.
(DEDUCED: log 83.) -/
def State.fullWidth (s : State) (a : Fin 16) : Nat :=
  if s.hif.split[(Fin.ofNat 8 (a.val / 2) : Fin 8)] then 8 else 16

/-- A slot's link comes up (R293, R297). -/
def execSlotLinkUp (a : Fin 16) (rate width : Nat) (s : State) : Host.Outcome State Fault Refusal :=
  if s.slotSt a ≠ 3 ∨ s.slotLinked a ∨ rate = 0 ∨ 7 < rate ∨ width = 0 ∨ s.fullWidth a < width then .next s
  else
    let s1 := s.setFld (fHIF_SLOT_LINK_RATE a.val) rate |>.setFld (fHIF_SLOT_LINK_WIDTH a.val) width
      |>.setFld (fHIF_SLOT_LINK_DEGRADED a.val) (b2n (decide (rate < 7) || decide (width < s.fullWidth a)))
    .next ((s1.setSlotX a (fun x => { x with linkAt := some s.now })).slotEvent a 0x0703 .ok)

/-- Assign BARs upward from an address, each naturally aligned (R294).
(DEDUCED: log 84.) -/
def assignBars : List Nat → Nat → List (Nat × Nat)
  | [], _ => []
  | z :: r, p => let b := ceilTo p (max 1 z); (b, z) :: assignBars r (b + z)

/-- A slot's link has been up for 100 ms: ENUMERATING (R297).
(DEDUCED: log 83.) -/
def State.enumStart (s : State) (a : Fin 16) (linkAt : Nat) : State :=
  if s.slotSt a = 3 then (s.atLeast (linkAt + 100 * msTicks)).enterSlot a 4 else s

/-- A slot is enumerated (R294, R297): ENUMERATING from 100 ms after its link came up; READY once its BARs, of the sizes `bars`, are
assigned, or FAILED where they do not fit.
(DEDUCED: log 83.) -/
def execSlotEnumerate (a : Fin 16) (bars : Option (List Nat)) (s : State) : Host.Outcome State Fault Refusal :=
  match s.hif.slots[a].linkAt with
  | none => .next s
  | some t =>
    if s.slotSt a ≠ 3 ∧ s.slotSt a ≠ 4 then .next s else
    let s1 := s.enumStart a t
    match bars with
    | none => .next s1
    | some z =>
      let l := assignBars (sortBy (fun x y => decide (y ≤ x)) z) 0x80000000000
      if l.all (fun b => decide (b.1 + b.2 ≤ 0x100000000000)) then
        .next (((s1.enterSlot a 5).setSlotX a (fun x => { x with bars := l })).slotEvent a 0x0704 .ok)
      else .next ((s1.enterSlot a 6).slotEvent a 0x0705 .refusedResource)

/-- No link within 1 s in TRAINING (R297).
(DEDUCED: log 83.) -/
def execSlotTrainTimeout (a : Fin 16) (s : State) : Host.Outcome State Fault Refusal :=
  if s.slotSt a = 3 ∧ s.slotLinked a = false then
    .next (((s.atLeast (s.hif.slots[a].since + secTicks)).enterSlot a 6).slotEvent a 0x0705 .timeout)
  else .next s

/-- A slot loses its link (R297, R299): TRAINING again, as from READY.
(DEDUCED: log 83.) -/
def execSlotLinkLost (a : Fin 16) (s : State) : Host.Outcome State Fault Refusal :=
  if 3 ≤ s.slotSt a ∧ s.slotSt a ≤ 5 ∧ s.slotLinked a then .next ((((s.leaveReady a).slotNoLink a).enterSlot a 3).slotEvent a 0x0703 .targetReset) else .next s

/-- A write of HIF_DS_CTRL (R293): ignored unless both slots of the port are EMPTY or OFF. -/
def State.dsCtrlWrite (s : State) (n : Fin 8) (v : BitVec 32) : State :=
  let idle (a : Nat) : Bool := s.fld (fHIF_SLOT_STATUS_STATE a) ≤ 1
  if idle (2 * n.val) && idle (2 * n.val + 1) then s.setFld (fHIF_DS_CTRL_SPLIT n.val) (b2n (bitOf v.toNat 0))
  else s.raise fHIF_ERR_CFG_DROP

def execDsSplitWrite (n : Fin 8) (v : BitVec 32) (s : State) : Host.Outcome State Fault Refusal := .next (s.dsCtrlWrite n v)

end Sys2Proof.Machine
end

