-- ==== Sys2Proof/Machine/RdmaCmd.lean ====
section
/-! DEFINITION. The commands of the RDMA transport (R340 to R344, R356, R357) and of the NVMe-oF initiator (R361 to R363), and
what partition resets do to their state (R359). -/

namespace Sys2Proof.Machine

open Sys2Proof

/-- A command is refused by policy, counted (R336, R337). -/
def State.refusePolicy (s : State) (c : Cmd) (detail : Nat) : State :=
  (s.endCmd c.id .refusedPolicy detail).count (fQUE_PREFUSED_COUNT c.part) 1

/-! ### Queue pairs -/

/-- Show the QPs that a partition holds (R364). -/
def State.showQps (s : State) (p : Fin 65) : State :=
  s.setFld (fRDM_PQP_USED_QPS p.val) (s.rdm.qps.filter (fun x => x.2.part = p.val)).length

/-- The type that TYPE names. -/
def qpType (n : Nat) : QpTy := match n with | 0 => .rc | 1 => .spray | 2 => .ud | _ => .rd

/-- A new queue pair (R341, R342): RETRY 7, in RESET.
(PRESUMED: log 102.) -/
def newQp (c : Cmd) : Qp :=
  let b := c.f 0 1
  { num := 0, part := c.part, ty := qpType (bitsOf b 0 2), fabric := bitOf b 2, trigRx := bitOf b 3, resident := bitOf b 4, port := c.f 1 1,
    sq := c.f 2 2, rq := c.f 4 2, ahBase := c.f 8 8, ahCount := c.f 16 4, st := .reset, pmtu := 3, retry := 7, rnrRetry := 0,
    minRnr := 0, dscp := 0, paths := 0, dest := 0, sqPsn := 0, rqPsn := 0, destDev := 0, sport := 0, destGid := 0, nextPsn := 0,
    una := 0, out := [], msg := 0, timeouts := 0, since := 0, rnrCount := 0, rnrUntil := none, rnrCode := 0, arriving := none,
    atomics := [], recorded := [], unAcked := 0, msgs := [], rate := none, cutAt := none, raiseAt := 0, cnpAt := none, paceAt := 0, die := .off, used := 0,
    waiting := [], waitWr := [] }

/-- Is there a submission queue of a kind with a local number?
(DEDUCED: log 103.) -/
def State.sqKind (s : State) (p : Fin 65) (q kind : Nat) : Bool := match s.sq? p q with | some x => x.kind = kind | none => false

/-- Are the parameters of QP_CREATE in range (R338, R341)?
(DEDUCED: log 103.) -/
def State.qpParamsOk (s : State) (c : Cmd) : Bool :=
  let b := c.f 0 1
  let q := newQp c
  c.clean [at8 0 0 5, at8 1 0 4, at8 2 0 16, at8 4 0 16, at8 8 0 64, at8 16 0 20] && (!bitOf b 2 || c.f 1 1 = 0) &&
    s.sqKind c.p q.sq 0 && (q.rq = 0xFFFF || s.sqKind c.p q.rq 1) && (!q.resident || c.part = 0) &&
    ((q.ty = .rc || q.ty = .spray) || (q.ahBase % 64 = 0 && 1 ≤ q.ahCount))

/-- The lowest QPN that may be given out (R341).
(DEDUCED: log 103, 175.) -/
def State.freeQpn? (s : State) : Option Nat :=
  (List.range (s.fld fRDM_QPC_COUNT_COUNT)).find? (fun n => 2 ≤ n && (s.qp? n).isNone && !s.rdm.heldQpns.any (fun x => x.1 = n && s.now < x.2.1 + 8 * msTicks))

/-- QP_CREATE (R341, R346).
(DEDUCED: log 103.) -/
def execQpCreate (id : Nat) (s : State) : Host.Outcome State Fault Refusal := s.onCmd id 0x40 (fun c =>
  if s.qpParamsOk c = false then s.endCmd id .invalidField
  else
    let q := newQp c
    if (s.qpOf? c.part q.sq).isSome ∨ (q.resident ∧ 1024 ≤ (s.rdm.qps.filter (fun x => x.2.resident)).length) then s.endCmd id .invalidState
    else if s.fld (fRDM_PQP_LIMIT_QPS c.part) ≤ s.fld (fRDM_PQP_USED_QPS c.part) then s.refusePolicy c 0x4FFF
    else match s.freeQpn? with
      | none => s.endCmd id .refusedResource 0x4808
      | some n =>
        let room := decide (s.dieUsed < 4096)
        let s1 := if q.resident ∧ room = false then
            (match s.victim? with | some v => s.modQp v (fun x => { x with die := .writing }) | none => s) else s
        let s2 := (s1.setQp n { q with num := n, die := if room ∨ q.resident then .on else .off }).touchQp n
        (s2.showQps c.p).endCmd id .ok 0 n)

/-- The states as NEXT codes them (R342). -/
def qpNext (n : Nat) : QpSt := match n with | 0 => .reset | 1 => .init | 2 => .rtr | 3 => .rts | _ => .error

/-- May a QP go from a state to another with the attributes that the mask names (R342)? -/
def qpAllowed (q : Qp) (next : QpSt) (mask : Nat) : Bool :=
  let has (l : List Nat) : Bool := l.all (fun i => bitOf mask i)
  match q.st, next with
  | _, .error => true
  | _, .reset => true
  | .reset, .init => true
  | .init, .rtr => if q.ty = .rc || q.ty = .spray then has [0, 6, 8] && (if q.fabric then has [9] else has [10, 11]) else true
  | .rtr, .rts => has [7, 1, 2]
  | _, _ => false

/-- The attributes that the mask names, applied. -/
def qpApply (q : Qp) (c : Cmd) (mask : Nat) : Qp :=
  let pick (i : Nat) (v old : Nat) : Nat := if bitOf mask i then v else old
  { q with
    pmtu := pick 0 (bitsOf (c.f 4 1) 0 3) q.pmtu, retry := pick 1 (bitsOf (c.f 4 1) 4 4) q.retry
    rnrRetry := pick 2 (bitsOf (c.f 5 1) 0 3) q.rnrRetry, minRnr := pick 3 (bitsOf (c.f 5 1) 3 5) q.minRnr
    dscp := pick 4 (c.f 6 1) q.dscp, paths := pick 5 (c.f 7 1) q.paths, dest := pick 6 (c.f 8 4) q.dest
    sqPsn := pick 7 (c.f 12 3) q.sqPsn, nextPsn := pick 7 (c.f 12 3) q.nextPsn, una := pick 7 (c.f 12 3) q.una
    rqPsn := pick 8 (c.f 16 3) q.rqPsn, destDev := pick 9 (c.f 20 2) q.destDev, sport := pick 10 (c.f 22 2) q.sport
    destGid := if bitOf mask 11 then BitVec.ofNat 128 (c.f 24 16) else q.destGid }

/-- Are the parameters of QP_MODIFY in range? -/
def qpModOk (q : Qp) (c : Cmd) : Bool :=
  let mask := c.f 40 4
  c.clean [at8 0 0 20, at8 3 0 3, at8 4 0 3, at8 4 4 4, at8 5 0 8, at8 6 0 6, at8 7 0 8, at8 8 0 32, at8 12 0 24, at8 16 0 24,
      at8 20 0 14, at8 22 0 16, at8 24 0 128, at8 40 0 12] && c.f 3 1 ≤ 4 &&
    (!bitOf mask 0 || (3 ≤ bitsOf (c.f 4 1) 0 3 && bitsOf (c.f 4 1) 0 3 ≤ 5)) &&
    (!bitOf mask 3 || !(bitsOf (c.f 5 1) 3 5 = 1 || bitsOf (c.f 5 1) 3 5 = 2)) &&
    (!bitOf mask 5 || q.ty ≠ .spray || 1 ≤ c.f 7 1) &&
    (!bitOf mask 6 || q.ty = .ud || c.f 8 4 < 0x1000000)

/-- QP_MODIFY (R342). -/
def execQpModify (id : Nat) (s : State) : Host.Outcome State Fault Refusal := s.onCmd id 0x41 (fun c =>
  let n := c.f 0 3 % 0x100000
  match s.qp? n with
  | none => s.endCmd id .invalidField
  | some q =>
    if q.part ≠ c.part ∨ qpModOk q c = false then s.endCmd id .invalidField
    else
      let next := qpNext (c.f 3 1)
      if qpAllowed q next (c.f 40 4) = false then s.endCmd id .invalidState
      else
        let s1 := s.setQp n (qpApply q c (c.f 40 4))
        match next with
        | .error => (if q.st = .error then s1 else s1.qpError n .invalidState (rdmDetail 0x010)).endCmd id .ok
        | .reset => ((s1.flushQp n .invalidState (rdmDetail 0x010)).modQp n (fun x => { x with st := .reset, atomics := [], waiting := [] })).missShow.endCmd id .ok
        | st => (s1.modQp n (fun x => { x with st := st })).endCmd id .ok)

/-- A queue pair is destroyed: its work is flushed, its waiting packets are dropped and counted, its QPN is held (R341, R348). -/
def State.dropQp (s : State) (n : Nat) : State :=
  match s.qp? n with
  | none => s
  | some q =>
    let s1 := (s.flushQp n .invalidState (rdmDetail 0x010)).count fRDM_FETCH_FAIL_COUNT q.waiting.length
    let s2 := s1.setRdm (fun r => { r with qps := adel n r.qps, heldQpns := r.heldQpns ++ [(n, s.now, q.part)],
                                           rdIn := r.rdIn.filter (fun m => decide (m.qpn ≠ n)) })
    (s2.showQps q.p).missShow

def execQpDestroy (id : Nat) (s : State) : Host.Outcome State Fault Refusal := s.onCmd id 0x42 (fun c =>
  match s.qp? (c.f 0 3) with
  | none => s.endCmd id .invalidField
  | some q =>
    if q.part ≠ c.part ∨ c.clean [at8 0 0 20] = false then s.endCmd id .invalidField
    else (s.dropQp (c.f 0 3)).endCmd id .ok)

/-- 8 ms after its destruction a QPN may be given out again (R341). -/
def execQpnHoldEnd (qpn : Nat) (s : State) : Host.Outcome State Fault Refusal :=
  match s.rdm.heldQpns.find? (fun x => x.1 = qpn) with
  | none => .next s
  | some x => .next ((s.atLeast (x.2.1 + 8 * msTicks)).setRdm (fun r => { r with heldQpns := r.heldQpns.erase x }))

/-! ### Memory regions (R344) -/

/-- Does a range lie in a partition's address space? -/
def State.inSpace (s : State) (p : Fin 65) (a n : Nat) : Bool :=
  if p = 0 then (s.region? a n).isSome else a + n ≤ s.fld (fMEM_PT_LEN_LEN p.val) * pageBytes

/-- (DEDUCED: log 103.) -/
def execMrReg (id : Nat) (s : State) : Host.Outcome State Fault Refusal := s.onCmd id 0x43 (fun c =>
  let a := c.f 0 8
  let n := c.f 8 8
  if c.clean [at8 0 0 64, at8 8 0 64, at8 16 0 3, at8 17 0 8] = false ∨ a % 4096 ≠ 0 ∨ n % 4096 ≠ 0 ∨ s.inSpace c.p a n = false then
    s.endCmd id .invalidField
  else match (List.range (s.fld fRDM_MR_COUNT_COUNT)).find? (fun i => (alook i s.rdm.mrs).isNone) with
    | none => s.endCmd id .refusedResource 0x4809
    | some i =>
      (s.setRdm (fun r => { r with mrs := aput i { part := c.part, addr := a, len := n, access := c.f 16 1, key := c.f 17 1 } r.mrs })).endCmd
        id .ok 0 (256 * i + c.f 17 1))

/-- (DEDUCED: log 103.) -/
def execMrDereg (id : Nat) (s : State) : Host.Outcome State Fault Refusal := s.onCmd id 0x44 (fun c =>
  match alook (c.f 0 4 / 256) s.rdm.mrs with
  | none => s.endCmd id .invalidField
  | some m =>
    if m.part ≠ c.part ∨ m.key ≠ c.f 0 1 ∨ c.clean [at8 0 0 32] = false then s.endCmd id .invalidField
    else (s.setRdm (fun r => { r with mrs := adel (c.f 0 4 / 256) r.mrs })).endCmd id .ok)

/-! ### Work requests (R343, R345, R356, R357) -/

/-- Are the parameters of a work request in range, for the type of its queue pair (R338, R343, R351, R353)? -/
def wrOk (q : Qp) (c : Cmd) : Bool :=
  let dg := decide (q.ty = .ud) || decide (q.ty = .rd)
  let len := c.f 0 4
  c.clean [at8 0 0 32, at8 4 0 32, at8 8 0 64, at8 16 0 64, at8 24 0 32, at8 28 0 24, at8 32 0 (if dg then 20 else 64), at8 40 0 16,
      at8 42 0 2, at8 44 0 32] && c.f 42 1 ≠ 3 &&
    (if c.op = 0x4D then len = 8 else c.op = 0x4E || len ≤ 2 ^ 31) && (c.op < 0x4D || c.f 16 8 % 8 = 0) &&
    (match q.ty with
      | .rc => true
      | .spray => 0x4A ≤ c.op && c.op ≤ 0x4C
      | .ud => c.op ≤ 0x49 && len ≤ q.mtu
      | .rd => c.op ≤ 0x4B && len ≤ 256 * q.mtu)

/-- Is the local range of a work request the partition's: a destination for reads and atomics? -/
def State.wrLocal (s : State) (c : Cmd) : Status :=
  let n := if 0x4D ≤ c.op then 8 else c.f 0 4
  if n = 0 then .ok
  else if 0x4C ≤ c.op then
    match s.translate c.p (c.f 8 8) n true with | .bad => .invalidField | .busy => .ok | .ok l => s.usable c.p l
  else match s.partRead c.p (c.f 8 8) n with | .ok _ => .ok | .fail st => st | .wait _ => .ok

/-- Has a CQ's count reached the threshold of a WAIT (R356)?
(DEDUCED: log 107.) -/
def State.waitMet (s : State) (c : Cmd) : Bool :=
  match s.cq? c.p (c.f 40 2) with | some k => (k.count + 2 ^ 32 - c.f 44 4) % 2 ^ 32 < 2 ^ 31 | none => false

/-- Is there an ACTIVE CQ with a local number? -/
def State.cqActive (s : State) (p : Fin 65) (q : Nat) : Bool := match s.cq? p q with | some k => !k.err | none => false

/-- A work request starts: it is parked until its trigger, or goes to its queue pair.
(DEDUCED: log 175.) -/
def State.startWr (s : State) (qpn : Nat) (c : Cmd) (rd : Status) : State :=
  if 131072 < s.outstanding then s.endCmd c.id .refusedResource (rdmDetail 0x007)
  else if bitOf (c.f 42 1) 1 then
    let tag := c.f 44 4
    match s.rdm.early.find? (fun e => e.1 = c.part && e.2.1 = tag && s.now ≤ e.2.2 + s.fld fRDM_CFG_TRIG_HOLD_US * usTicks) with
    | some e => ((s.setRdm (fun r => { r with early := r.early.erase e })).count fRDM_TRIG_COUNT 1).runWr qpn c rd
    | none =>
      if 65536 ≤ (s.que.cmds.filter (fun d => d.parked.isSome)).length then s.endCmd c.id .refusedResource (rdmDetail 0x005)
      else s.setCmd { c with parked := some tag }
  else s.runWr qpn c rd

/-- A work request (R343). `rd` is what the read of its source finds. -/
def State.workReq (s : State) (id op : Nat) (rd : Status) : Host.Outcome State Fault Refusal := s.onCmd id op (fun c =>
  match s.qpOf? c.part c.sq with
  | none => s.endCmd id .invalidState
  | some n =>
    match s.qp? n with
    | none => s.endCmd id .invalidState
    | some q =>
      if c.watch ∨ c.parked.isSome ∨ q.waitWr.contains id ∨ q.out.any (fun w => w.cmd = id) then s
      else if wrOk q c = false ∨ (bitOf (c.f 42 1) 0 ∧ s.cqActive c.p (c.f 40 2) = false) then s.endCmd id .invalidField
      else if q.st ≠ .rts then s.endCmd id .invalidState (if q.st = .error then rdmDetail 0x010 else 0)
      else if s.wrLocal c ≠ .ok then s.endCmd id (s.wrLocal c)
      else if bitOf (c.f 42 1) 0 ∧ s.waitMet c = false then
        (if 4096 ≤ (s.que.cmds.filter (fun d => d.watch)).length then s.endCmd id .refusedResource (rdmDetail 0x00A)
         else s.setCmd { c with watch := true, held := some s.now })
      else s.startWr n c rd)

def execSend (id : Nat) (rd : Status) (s : State) : Host.Outcome State Fault Refusal := s.workReq id 0x48 rd
def execSendImm (id : Nat) (rd : Status) (s : State) : Host.Outcome State Fault Refusal := s.workReq id 0x49 rd
def execRdmaWrite (id : Nat) (rd : Status) (s : State) : Host.Outcome State Fault Refusal := s.workReq id 0x4A rd
def execWriteImm (id : Nat) (rd : Status) (s : State) : Host.Outcome State Fault Refusal := s.workReq id 0x4B rd
def execRdmaRead (id : Nat) (s : State) : Host.Outcome State Fault Refusal := s.workReq id 0x4C .ok
def execFetchAdd (id : Nat) (s : State) : Host.Outcome State Fault Refusal := s.workReq id 0x4D .ok
def execCmpSwap (id : Nat) (s : State) : Host.Outcome State Fault Refusal := s.workReq id 0x4E .ok

/-- A held work request starts once its CQ's count reaches VAL; the time of the hold is its wait (R28, R356).
(DEDUCED: log 107.) -/
def execWaitRelease (id : Nat) (s : State) : Host.Outcome State Fault Refusal :=
  match s.cmd? id with
  | none => .next s
  | some c =>
    if c.watch = false ∨ c.done.isSome ∨ s.waitMet c = false then .next s else
    let c1 := { c.release s.now with watch := false }
    match s.qpOf? c.part c.sq with
    | none => .next ((s.setCmd c1).endCmd id .invalidState)
    | some n => .next ((s.setCmd c1).startWr n c1 .ok)

/-- A receive is posted (R340): it waits for the message that consumes it.
(DEDUCED: log 122.) -/
def execRecv (id : Nat) (s : State) : Host.Outcome State Fault Refusal := s.onCmd id 0x50 (fun c =>
  if c.clean [at8 0 0 64, at8 8 0 32] then s else s.endCmd id .invalidField)

/-! ### Namespaces (R361, R362) -/

/-- A namespace, and its replacement. -/
def State.ns? (s : State) (n : Nat) : Option Ns := alook n s.rdm.ns
def State.setNs (s : State) (n : Nat) (x : Ns) : State := s.setRdm (fun r => { r with ns := aput n x r.ns })

/-- The partitions that a namespace's events are sent to: its owner and partition 0. -/
def State.nsEvent (s : State) (n : Nat) (x : Ns) (code : Nat) (st : Status) : State :=
  s.event blkRDM (ownerAnd0 (Fin.ofNat 65 x.owner)) { code := code, result := n, st := st, detail := 0 }

/-- The commands of a namespace that are not complete. -/
def State.nsWork (s : State) (n : Nat) : List Cmd :=
  s.que.cmds.filter (fun c => c.started && c.done.isNone && (0x62 ≤ c.op && c.op ≤ 0x64) && c.f 0 1 = n)

/-- The namespace that NS_ATTACH describes, and whether its parameters are in range. -/
def nsOf (s : State) (c : Cmd) : Ns :=
  { st := .connecting c.id s.now, owner := c.f 1 1, qpairs := c.f 2 2, depth := c.f 4 2, nsid := c.f 8 4, kato := c.f 12 4,
    conn := c.f 16 8, lbaLog2 := 0, capacity := 0, mdts := 0, ports := [], alive := s.now, next := 0 }
def nsParamsOk (s : State) (c : Cmd) : Bool :=
  let y := nsOf s c
  c.clean [at8 0 0 8, at8 1 0 7, at8 2 0 16, at8 4 0 16, at8 8 0 32, at8 12 0 32, at8 16 0 64] && y.owner ≤ 64 &&
    (1 ≤ y.qpairs && y.qpairs ≤ 64) && (16 ≤ y.depth && y.depth ≤ 1024) && (s.region? y.conn 1024).isSome

/-- The target cannot be reached within 10 s (R362).
(DEDUCED: log 110.) -/
def State.nsTimeout (s : State) (n id : Nat) : State := (s.setRdm (fun r => { r with ns := adel n r.ns })).endCmd id .timeout

/-- Every association of a namespace is connected: the command completes with the LBA size and the capacity.
(DEDUCED: log 110.) -/
def State.nsUp (s : State) (c : Cmd) (y : Ns) (x : Option NsConn) : State :=
  match x with
  | none => s
  | some k =>
    let lba := k.lbaLog2 % 256
    let cap := k.capacity % 2 ^ 56
    (s.setNs (c.f 0 1) { y with st := .up, lbaLog2 := lba, capacity := cap, mdts := k.mdts, ports := k.ports, alive := s.now }).endCmd c.id .ok 0 (lba + 256 * cap)

/-- NS_ATTACH (R362). `x` is given once every association is connected.
(DEDUCED: log 110, 175.) -/
def execNsAttach (id : Nat) (x : Option NsConn) (s : State) : Host.Outcome State Fault Refusal := s.onCmd id 0x60 (fun c =>
  let n := c.f 0 1
  let start : State :=
    if nsParamsOk s c = false then s.endCmd id .invalidField
    else if s.accessSt (c.f 16 8) 1024 ≠ .ok then s.endCmd id (s.accessSt (c.f 16 8) 1024)
    else ((s.setNs n (nsOf s c)).emit (.nsConnect n)).nsUp c (nsOf s c) x
  match s.ns? n with
  | none => start
  | some z => match z.st with
    | .failed => start
    | .connecting k t => if k = id then (if t + 10 * secTicks < s.now then s.nsTimeout n id else s.nsUp c z x) else if nsParamsOk s c then s.endCmd id .invalidState else s.endCmd id .invalidField
    | _ => if nsParamsOk s c then s.endCmd id .invalidState else s.endCmd id .invalidField)

/-- Is a namespace being attached: its NS_ATTACH is outstanding?
(DEDUCED: log 110.) -/
def Ns.connects (x : Ns) : Bool := match x.st with | .connecting .. => true | _ => false

/-- NS_DETACH (R362). -/
def execNsDetach (id : Nat) (s : State) : Host.Outcome State Fault Refusal := s.onCmd id 0x61 (fun c =>
  let n := c.f 0 1
  if c.clean [at8 0 0 8] = false then s.endCmd id .invalidField
  else match s.ns? n with
    | none => s.endCmd id .invalidState
    | some x =>
      if s.nsWork n ≠ [] ∨ x.connects then s.endCmd id .busy
      else (s.setRdm (fun r => { r with ns := adel n r.ns })).endCmd id .ok)

/-- The target cannot be reached within 10 s (R362). -/
def execNsAttachTimeout (id : Nat) (s : State) : Host.Outcome State Fault Refusal :=
  match s.rdm.ns.find? (fun x => match x.2.st with | .connecting k _ => k = id | _ => false) with
  | none => .next s
  | some (n, x) => match x.st with
    | .connecting _ t => .next ((s.atLeast (t + 10 * secTicks)).nsTimeout n id)
    | _ => .next s

/-- An association is lost (R362): outstanding commands complete with TARGET_RESET.
(DEDUCED: log 110.) -/
def execNsAssocLost (n : Fin 256) (s : State) : Host.Outcome State Fault Refusal :=
  match s.ns? n.val with
  | none => .next s
  | some x =>
    if x.st ≠ .up then .next s else
    let s1 := (s.nsWork n.val).foldl (fun t c => t.endCmd c.id .targetReset) (s.setNs n.val { x with st := .down s.now 0 })
    .next (s1.nsEvent n.val x 0x0408 .targetReset)

/-- Reconnection gives up 60 s after the loss at `t` (R362): commands complete with NOT_READY until NS_ATTACH is issued again.
(DEDUCED: log 110.) -/
def State.nsGiveUp (s : State) (n : Nat) (x : Ns) (t : Nat) : State :=
  let s1 := (s.atLeast (t + 60 * secTicks)).setNs n { x with st := .failed }
  ((s1.nsWork n).foldl (fun t c => t.endCmd c.id .notReady) s1).nsEvent n x 0x040A .timeout

/-- An attempt to reconnect, every 1 s, 60 s long (R362); it pauses while the management processor restarts (R439).
(DEDUCED: log 175.) -/
def execNsReconnect (n : Fin 256) (ok : Bool) (s : State) : Host.Outcome State Fault Refusal :=
  match s.ns? n.val with
  | none => .next s
  | some x => match x.st with
    | .down t k =>
      if s.fld fLDG_STATE_MGT ≠ 2 then .next s
      else if 60 ≤ k ∨ t + 60 * secTicks < s.now then .next (s.nsGiveUp n.val x t)
      else
        let s1 := (s.atLeast (t + (k + 1) * secTicks)).emit (.nsConnect n.val)
        .next (if ok then (s1.setNs n.val { x with st := .up, alive := s1.now }).nsEvent n.val x 0x0409 .ok
          else s1.setNs n.val { x with st := .down t (k + 1) })
    | _ => .next s

/-- 60 s pass without success.
(DEDUCED: log 110.) -/
def execNsReconnectGiveup (n : Fin 256) (s : State) : Host.Outcome State Fault Refusal :=
  match s.ns? n.val with
  | none => .next s
  | some x => match x.st with
    | .down t _ => .next (s.nsGiveUp n.val x t)
    | _ => .next s

/-- Keep Alive is sent on each association of a namespace (R361). -/
def execNsKeepAlive (n : Fin 256) (s : State) : Host.Outcome State Fault Refusal :=
  match s.ns? n.val with
  | none => .next s
  | some x => if x.st = .up then .next ((s.setNs n.val { x with alive := s.now }).emit (.nsKeepAlive n.val)) else .next s

/-! ### NVMe commands (R363) -/

/-- The status that an NVMe status field gives.
(PRESUMED: log 102.) -/
def nvmeStatus (f : BitVec 16) : Status :=
  let x := f.toNat % 2048
  if x = 0 then .ok else if x = 0x80 ∨ x = 0x02 then .invalidField else .dataError

/-- The end of a command whose pieces have ended: the status of the first that failed, and its status field. -/
def State.endNvme (s : State) (id : Nat) (l : List (BitVec 16)) : State :=
  match l.find? (fun f => decide (nvmeStatus f ≠ .ok)) with
  | some f => s.endCmd id (nvmeStatus f) 0 f.toNat
  | none => s.endCmd id .ok

/-- Act for a command on a namespace that its partition may use, once its association is up.
(DEDUCED: log 110.) -/
def State.withNs (s : State) (c : Cmd) (f : Ns → State) : State :=
  match s.ns? (c.f 0 1) with
  | none => if c.part ≠ 0 then s.refusePolicy c 0x4FFF else s.endCmd c.id .notReady
  | some x =>
    if c.part ≠ 0 ∧ x.owner ≠ c.part then s.refusePolicy c 0x4FFF
    else match x.st with
      | .up => f x
      | .down .. => s.holdCmd c.id
      | _ => s.endCmd c.id .notReady

/-- Are the length and the offset of a transfer in range?
(PRESUMED: log 102.) -/
def nvmeOk (x : Ns) (c : Cmd) : Bool :=
  c.clean [at8 0 0 8, at8 4 0 32, at8 8 0 64, at8 16 0 64] && 1 ≤ c.f 4 4 && c.f 4 4 ≤ 0x1000000 && c.f 4 4 % 2 ^ x.lbaLog2 = 0 &&
    c.f 8 8 % 2 ^ x.lbaLog2 = 0

/-- Bytes of a piece, and the number of pieces. -/
def Ns.piece (x : Ns) (len : Nat) : Nat := if x.mdts = 0 then len else min x.mdts len
/-- (DEDUCED: log 110.) -/
def Ns.pieces (x : Ns) (len : Nat) : Nat := ceilDiv len (x.piece len)

/-- Write what the target sent for each piece of a read. -/
def State.putPieces (s : State) (l : List (Nat × Nat)) (n : Nat) : Nat → List NvmePiece → State
  | _, [] => s
  | i, p :: r => (s.rangeWrite (rangesFrom l (i * n)) (p.data.take n)).putPieces l n (i + 1) r
where
  /-- ranges from a byte offset on -/
  rangesFrom : List (Nat × Nat) → Nat → List (Nat × Nat)
    | [], _ => []
    | (a, k) :: t, o => if k ≤ o then rangesFrom t (o - k) else (a + o, k - o) :: t

def execNvmeRead (id : Nat) (pieces : List NvmePiece) (s : State) : Host.Outcome State Fault Refusal := s.onCmd id 0x62 (fun c =>
  s.withNs c (fun x =>
    if nvmeOk x c = false then s.endCmd id .invalidField
    else if pieces.length ≠ x.pieces (c.f 4 4) then s
    else match s.partRanges c.p (c.f 16 8) (c.f 4 4) with
      | .fail st => s.endCmd id st
      | .wait l => s.waitCmd id l
      | .ok l =>
        let n := x.piece (c.f 4 4)
        let s1 := (List.range pieces.length).foldl (fun t i =>
          t.nsPiece (c.f 0 1) (fun q => .nsRead (c.f 0 1) q (c.f 8 8 + i * n) (min n (c.f 4 4 - i * n)))) s
        (s1.putPieces l n 0 pieces).endNvme id (pieces.map (fun p => p.status)))) pieces.length

def execNvmeWrite (id : Nat) (pieces : List NvmePiece) (rd : Status) (s : State) : Host.Outcome State Fault Refusal := s.onCmd id 0x63 (fun c =>
  s.withNs c (fun x =>
    if nvmeOk x c = false then s.endCmd id .invalidField
    else if pieces.length ≠ x.pieces (c.f 4 4) then s
    else match s.partRead c.p (c.f 16 8) (c.f 4 4) with
      | .fail st => s.endCmd id st
      | .wait l => s.waitCmd id l
      | .ok b =>
        if rd ≠ .ok then s.endCmd id rd else
        let n := x.piece (c.f 4 4)
        ((List.range pieces.length).foldl (fun t i => t.nsPiece (c.f 0 1) (fun q => .nsWrite (c.f 0 1) q (c.f 8 8 + i * n) ((b.drop (i * n)).take n))) s).endNvme id
          (pieces.map (fun p => p.status)))) pieces.length

def execNvmeFlush (id : Nat) (st : BitVec 16) (s : State) : Host.Outcome State Fault Refusal := s.onCmd id 0x64 (fun c =>
  s.withNs c (fun _ =>
    if c.clean [at8 0 0 8] = false then s.endCmd id .invalidField else (s.nsPiece (c.f 0 1) (.nsFlush (c.f 0 1))).endNvme id [st]))

/-! ### Partitions (R359) -/

/-- A partition reset: every QP to RESET, its work gone; parked triggers go with the commands; early triggers are removed.
(DEDUCED: log 109.) -/
def State.rdmPartReset (s : State) (p : Fin 65) : State :=
  let clear (x : Nat × Qp) : Nat × Qp := if x.2.part ≠ p.val then x else
    (x.1, { x.2 with st := .reset, out := [], arriving := none, recorded := [], msgs := [], atomics := [], waiting := [], waitWr := [],
                     timeouts := 0, rnrCount := 0, rnrUntil := none, una := x.2.nextPsn })
  (s.setRdm (fun r => { r with
    qps := r.qps.map clear, early := r.early.filter (fun e => decide (e.1 ≠ p.val))
    rdIn := r.rdIn.filter (fun m => !r.qps.any (fun x => x.1 = m.qpn && x.2.part = p.val)) })).missShow

/-- A partition is destroyed: its queue pairs and memory regions with it.
(DEDUCED: log 109.) -/
def State.rdmPartDestroy (s : State) (p : Fin 65) : State :=
  let s1 := s.rdmPartReset p
  let s2 := (s1.rdm.qps.filter (fun x => x.2.part = p.val)).foldl (fun t x => t.dropQp x.1) s1
  s2.setRdm (fun r => { r with mrs := r.mrs.filter (fun m => decide (m.2.part ≠ p.val)) })

/-! ### Stale devices (R178) -/

/-- Is a command a work request to another device on the fabric that has not completed, started or not?
(DEDUCED: log 55.) -/
def State.heldTo (s : State) (dev : Nat) (c : Cmd) : Bool :=
  0x48 ≤ c.op && c.op ≤ 0x4E && c.done.isNone && (match (s.qpOf? c.part c.sq).bind s.qp? with
    | some q => match s.wrDest q c with | .ok (d, _, _) => d.port.isNone && d.dev == dev | _ => false
    | none => false)

/-- The requests on the fabric to another device complete with TARGET_RESET.
(DEDUCED: log 55.) -/
def State.endTo (s : State) (dev : Nat) : State :=
  let l := (s.que.cmds.filter (s.heldTo dev)).map (fun c => c.id)
  l.foldl (fun t id => t.endCmd id .targetReset)
    (s.setRdm (fun r => { r with qps := r.qps.map (fun x => (x.1, { x.2 with waitWr := x.2.waitWr.filter (fun i => !l.contains i) })) }))

/-- What the device holds to another that has reset completes with TARGET_RESET, and each fabric queue pair to it enters
ERROR. -/
def State.failTo (s : State) (dev : Nat) : State :=
  (s.rdm.qps.foldl (fun t x =>
    match t.qp? x.1 with
    | none => t
    | some q =>
      let gone := q.out.filter (fun w => decide (w.dest.port = none) && w.dest.dev = dev)
      if q.ty = .rd then
        gone.foldl (fun u w => u.endCmd w.cmd .targetReset) (t.setQp x.1 { q with out := q.out.filter (fun w => !(decide (w.dest.port = none) && w.dest.dev = dev)) })
      else if q.ty ≠ .ud ∧ q.fabric ∧ q.destDev = dev ∧ q.st ≠ .error ∧ q.st ≠ .reset then t.qpError x.1 .targetReset 0
      else t) s).endTo dev

/-- A GEN notice (R178).
(DEDUCED: log 55.) -/
def execGenNoticeRx (p : Fin 24) (n : Notice) (s : State) : Host.Outcome State Fault Refusal :=
  match s.learnGen? p n with | none => .next s | some t => .next (t.failTo n.origin.val)

end Sys2Proof.Machine
end

