-- ==== Sys2Proof/Machine/Part.lean ====
section
/-! DEFINITION. Partition and queue management (R321, R322, R324 to R334): creating and destroying, limits, freezing, the state
blob, resuming, resetting. -/

namespace Sys2Proof.Machine

open Sys2Proof

/-- Act on a management command; PART is 1 to 64, and 0 for the queue commands of partition 0's further queues (R323, R325).
(DEDUCED: log 93.) -/
def State.mgmt (s : State) (id op : Nat) (zero : Bool) (f : Cmd → Fin 65 → Part → State) : Host.Outcome State Fault Refusal :=
  s.onCmd id op (fun c =>
    let n := c.f 0 1
    if 64 < n ∨ (n = 0 ∧ zero = false) then s.endCmd id .invalidField else f c (Fin.ofNat 65 n) (s.part (Fin.ofNat 65 n)))

/-! ### Creating, destroying, limits -/

/-- The rates of PART_CREATE and PART_LIMITS are in range: a peak rate of 0, or one at least the committed rate, which is then
limited; BURST_US and WEIGHT are not 0.
(DEDUCED: log 93.) -/
def ratesOk (weight cr pr burst : Nat) : Bool := 1 ≤ weight && 1 ≤ burst && (pr = 0 || (cr ≠ 0 && cr ≤ pr))

/-- Is a vector range free on a function, for partition `p` (R325)?
(DEDUCED: log 97.) -/
def State.vecsFree (s : State) (p : Fin 65) (fn : Fin 2) (base n : Nat) : Bool :=
  base + n ≤ 4096 &&
    (List.finRange 65).all (fun q => q = p || q = 0 || (s.part q).st = .unassigned || (s.part q).home ≠ fn.val ||
      !spansMeet base n (s.part q).vecBase (s.part q).vecCount) &&
    (fn ≠ s.ctrlFn || s.que.cqs.all (fun k => k.1.1 ≠ 0 || !(base ≤ k.2.vec && k.2.vec < base + n)))

/-- May a partition have this home function (R325)?
(DEDUCED: log 97.) -/
def State.homeOk (s : State) (h : Nat) : Bool := h = 0 || (h = 1 && s.flag fHIF_CFG_BIF)

/-- Are the parameters of PART_CREATE in range?
(DEDUCED: log 93.) -/
def State.createOk (s : State) (c : Cmd) (p : Fin 65) : Bool :=
  c.clean [at8 0 0 8, at8 1 0 1, at8 2 0 15, at8 4 0 15, at8 6 0 12, at8 8 0 13, at8 10 0 8, at8 11 0 3, at8 12 0 16, at8 16 0 32,
      at8 20 0 32, at8 24 0 16] && s.homeOk (c.f 1 1) && (1 ≤ c.f 2 2 && c.f 2 2 ≤ 16384) && (1 ≤ c.f 4 2 && c.f 4 2 ≤ 16384) &&
    (1 ≤ c.f 8 2 && c.f 8 2 ≤ 4096) && s.vecsFree p (Fin.ofNat 2 (c.f 1 1)) (c.f 6 2) (c.f 8 2) &&
    (c.f 12 2 = 0xFFFF || c.f 12 2 < c.f 4 2) && ratesOk (c.f 10 1) (c.f 16 4) (c.f 20 4) (c.f 24 2)

/-- PART_CREATE (R324, R325, R327, R336): the buckets start full.
(DEDUCED: log 97.) -/
def execPartCreate (id : Nat) (s : State) : Host.Outcome State Fault Refusal := s.mgmt id 0x20 false (fun c p x =>
  if s.createOk c p = false then s.endCmd id .invalidField
  else if x.st ≠ .unassigned then s.endCmd id .invalidState
  else
    let y : Part := { Part.reset with
      st := .active, gen := x.gen + 1, home := c.f 1 1, sqMax := c.f 2 2, cqMax := c.f 4 2, vecBase := c.f 6 2, vecCount := c.f 8 2
      weight := c.f 10 1, classMax := c.f 11 1, evq := c.f 12 2, cr := c.f 16 4, pr := c.f 20 4, burstUs := c.f 24 2
      commit := bucketDepth (c.f 16 4) (c.f 24 2), peak := bucketDepth (c.f 20 4) (c.f 24 2), filledAt := s.now, fin := x.fin }
    (s.setPart p y).endCmd id .ok)

/-- The service pavilions that serve a partition's commands serve them no more. -/
def State.dropSvc (s : State) (p : Fin 65) : State :=
  let mine (id : Nat) : Bool := s.que.cmds.any (fun c => c.id = id && c.part = p.val)
  { s with gmem := { s.gmem with svcRun := s.gmem.svcRun.filter (fun r => !mine r.1) } }

/-- Forget the commands of a partition.
(DEDUCED: log 95.) -/
def State.dropCmds (s : State) (p : Fin 65) : State :=
  { s with que := { s.que with cmds := s.que.cmds.filter (fun c => decide (c.part ≠ p.val)) } }

/-- A freeze that is cut short: its command completes (R326). -/
def State.endFreeze (s : State) (p : Fin 65) (st : Status) : State :=
  match (s.part p).freeze with
  | some f => (s.setPart p { s.part p with freeze := none }).endCmd f.cmd st
  | none => s

/-- A QUEUE_DELETE that waits for a queue to drain completes, the queue being FREE.
(DEDUCED: log 94.) -/
def State.endDelete (s : State) (x : Sq) : State := match x.delCmd with | some d => s.endCmd d .ok | none => s

/-- A SAVE or a RESTORE of a partition that is in progress completes with TARGET_RESET (R326).
(DEDUCED: log 94.) -/
def State.endSave (s : State) (p : Fin 65) : State :=
  (s.que.cmds.filter (fun c => (c.op = 0x26 || c.op = 0x27) && c.started && c.done.isNone && c.f 0 1 = p.val)).foldl
    (fun t c => t.endCmd c.id .targetReset) s

/-- The responses that a partition's commands, all cancelled, wait for are stale when they come (R327): those of a service
pavilion and of an NVMe namespace by their command; the CXL requests in flight are counted now.
(DESIGN CHOICE: log 165.) -/
def State.cancelRsps (s : State) (p : Fin 65) : State :=
  let waits (c : Cmd) : Bool := c.part = p.val && c.started && c.done.isNone &&
    (s.gmem.svcRun.any (fun r => r.1 = c.id) || ((0x62 ≤ c.op && c.op ≤ 0x64) &&
      (match s.ns? (c.f 0 1) with | some x => decide (x.st = .up) | none => false)))
  ({ s with que := { s.que with gone := s.que.gone ++ (s.que.cmds.filter waits).map (fun c => (c.id, c.op, p.val)) } } : State).count
    (fQUE_PSTALE_COUNT p.val) (s.cxlOut p).length

/-- PART_DESTROY (R321, R322, R326, R327): at once; its commands are gone, its queues FREE, its placement registers and CXL
credits cleared.
(DEDUCED: log 95.) -/
def execPartDestroy (id : Nat) (s : State) : Host.Outcome State Fault Refusal := s.mgmt id 0x21 false (fun c p x =>
  if c.clean [at8 0 0 8] = false then s.endCmd id .invalidField
  else if x.st ≠ .active ∧ x.st ≠ .freezing ∧ x.st ≠ .frozen then (s.endSave p).endCmd id .invalidState
  else
    let s0 := (s.que.sqs.filter (fun e => e.1.1 = p.val)).foldl (fun t e => t.endDelete e.2) ((s.endFreeze p .targetReset).endSave p)
    let s1 := (((s0.cancelRsps p).rdmPartDestroy p).dropSvc p).dropCmds p
    let s2 : State := { s1 with que := { s1.que with sqs := s1.que.sqs.filter (fun e => decide (e.1.1 ≠ p.val))
                                                     cqs := s1.que.cqs.filter (fun e => decide (e.1.1 ≠ p.val)) } }
    let s3 := s2.setPart p { Part.reset with gen := x.gen + 1, fin := x.fin }
    (((s3.setFld (fMEM_PT_BASE_BASE p.val) 0).setFld (fMEM_PT_LEN_LEN p.val) 0).setFld (fCXM_CREDIT_CREDITS p.val) 0).endCmd id .ok)

/-- PART_LIMITS (R325, R336): applied from the partition's next fetch. -/
def execPartLimits (id : Nat) (s : State) : Host.Outcome State Fault Refusal := s.mgmt id 0x2A false (fun c p x =>
  if c.clean [at8 0 0 8, at8 10 0 8, at8 16 0 32, at8 20 0 32, at8 24 0 16] = false ∨
      ratesOk (c.f 10 1) (c.f 16 4) (c.f 20 4) (c.f 24 2) = false then s.endCmd id .invalidField
  else if x.st ≠ .active then s.endCmd id .invalidState
  else
    (s.setPart p { x with newLimits := some { weight := c.f 10 1, cr := c.f 16 4, pr := c.f 20 4, burstUs := c.f 24 2 } }).endCmd id .ok)

/-! ### Queues (R321, R322) -/

/-- Are the parameters of QUEUE_CREATE in range for partition `p`? A vector of partition 0 is any of the control function's that
no tenant's range covers (R323).
(DEDUCED: log 93.) -/
def State.queueOk (s : State) (c : Cmd) (p : Fin 65) (x : Part) : Bool :=
  let isCq := bitOf (c.f 1 1) 0
  let vecOk := if p = 0 then c.f 6 2 < 4096 && (List.finRange 65).all (fun q => q = 0 || (s.part q).st = .unassigned ||
      (s.part q).home ≠ s.ctrlFn.val || !spansMeet (c.f 6 2) 1 (s.part q).vecBase (s.part q).vecCount) else c.f 6 2 < x.vecCount
  c.clean [at8 0 0 8, at8 1 0 3, at8 2 0 16, at8 4 0 5, at8 5 0 3, at8 6 0 16, at8 8 0 64, at8 16 0 16, at8 18 0 16] &&
    (4 ≤ c.f 4 1 && c.f 4 1 ≤ 16) && s.ringOk (c.f 8 8) (c.f 4 1) (if isCq then 32 else 64) (s.homeFn p) &&
    (if isCq then c.f 2 2 < x.cqMax && vecOk else c.f 2 2 < x.sqMax && bitsOf (c.f 1 1) 1 2 ≤ 1 && c.f 5 1 ≤ x.classMax)

/-- QUEUE_CREATE. -/
def execQueueCreate (id : Nat) (s : State) : Host.Outcome State Fault Refusal := s.mgmt id 0x22 true (fun c p x =>
  let q := c.f 2 2
  if s.queueOk c p x = false then s.endCmd id .invalidField
  else if x.st ≠ .active then s.endCmd id .invalidState
  else if bitOf (c.f 1 1) 0 then
    if (s.cq? p q).isSome then s.endCmd id .invalidState
    else if 16384 ≤ s.que.cqs.length then s.endCmd id .refusedResource 0x4101
    else (s.setCq p q (newCq (c.f 4 1) (c.f 6 2) (c.f 16 2) (c.f 18 2) (c.f 8 8))).endCmd id .ok
  else if (s.sq? p q).isSome ∨ s.cqActive p (c.f 6 2) = false then s.endCmd id .invalidState
  else if 16384 ≤ s.que.sqs.length then s.endCmd id .refusedResource 0x4100
  else (s.setSq p q (newSq (bitsOf (c.f 1 1) 1 2) (c.f 4 1) (c.f 5 1) (c.f 6 2) (c.f 8 8))).endCmd id .ok)

/-- Make a queue FREE: its fetched commands keep the head of their SQ, and lose their CQ. -/
def State.freeSq (s : State) (p : Fin 65) (q : Nat) : State :=
  let h := match s.sq? p q with | some x => x.head | none => 0
  { s with que := { s.que with sqs := adel (p.val, q) s.que.sqs
                               cmds := s.que.cmds.map (fun c => if c.part = p.val && c.sq = q && c.freed.isNone then { c with freed := some h } else c) } }
def State.freeCq (s : State) (p : Fin 65) (q : Nat) : State :=
  { s with que := { s.que with cqs := adel (p.val, q) s.que.cqs
                               cmds := s.que.cmds.map (fun c => if c.part = p.val && c.cq = some q then { c with cq := none } else c) } }

/-- QUEUE_DELETE. The admin pair is FREE only after a reset (R323). -/
def execQueueDelete (id : Nat) (s : State) : Host.Outcome State Fault Refusal := s.mgmt id 0x23 true (fun c p x =>
  let q := c.f 2 2
  if s.que.sqs.any (fun e => e.2.delCmd = some id) then s
  else if c.clean [at8 0 0 8, at8 1 0 1, at8 2 0 16] = false then s.endCmd id .invalidField
  else if x.st ≠ .active ∨ (p = 0 ∧ q = 0) then s.endCmd id .invalidState
  else if bitOf (c.f 1 1) 0 then
    if (s.cq? p q).isNone ∨ s.que.sqs.any (fun e => e.1.1 = p.val && e.2.cq = q) then s.endCmd id .invalidState
    else (s.freeCq p q).endCmd id .ok
  else match s.sq? p q with
    | none => s.endCmd id .invalidState
    | some y => match y.st with
      | .active => s.setSq p q { y with st := .draining, delCmd := some id }
      | .draining => s.endCmd id .invalidState
      | .error => (s.freeSq p q).endCmd id .ok)

/-- A draining SQ's fetched commands have all completed (R321).
(DEDUCED: log 94.) -/
def execSqDrainDone (p : Fin 65) (q : Nat) (s : State) : Host.Outcome State Fault Refusal :=
  match s.sq? p q with
  | none => .next s
  | some y =>
    if y.st ≠ .draining ∨ s.que.cmds.any (fun c => c.part = p.val && c.sq = q && c.freed.isNone && some c.id ≠ y.delCmd) then .next s
    else .next ((s.freeSq p q).endDelete y)

/-- QUEUE_RESET. -/
def execQueueReset (id : Nat) (s : State) : Host.Outcome State Fault Refusal := s.mgmt id 0x24 true (fun c p x =>
  let q := c.f 2 2
  if c.clean [at8 0 0 8, at8 1 0 1, at8 2 0 16] = false then s.endCmd id .invalidField
  else if x.st ≠ .active ∧ x.st ≠ .frozen then s.endCmd id .invalidState
  else if bitOf (c.f 1 1) 0 then
    match s.cq? p q with
    | some k => if k.err then (s.setCq p q { k with err := false, head := 0, write := 0, phase := true, unsig := 0, count := 0 }).endCmd id .ok
      else s.endCmd id .invalidState
    | none => s.endCmd id .invalidState
  else match s.sq? p q with
    | some y => if y.st = .error then (s.setSq p q { y with st := .active, head := 0, tail := 0 }).endCmd id .ok else s.endCmd id .invalidState
    | none => s.endCmd id .invalidState)

/-! ### Freezing (R330) -/

/-- PART_FREEZE: FREEZE_PENDING is written for interface version 1.2 only (R320).
(DEDUCED: log 95.) -/
def execPartFreeze (id : Nat) (s : State) : Host.Outcome State Fault Refusal := s.mgmt id 0x25 false (fun c p x =>
  let grace := c.f 4 4
  if x.freeze.any (fun f => f.cmd = id) then s
  else if c.clean [at8 0 0 8, at8 4 0 32, at8 8 0 16] = false ∨ 10000000 < grace ∨ c.f 8 2 = 0 then s.endCmd id .invalidField
  else if x.st ≠ .active then s.endCmd id .invalidState
  else
    let f : Freeze := { cmd := id, graceEnd := s.now + grace * usTicks, drainEnd := s.now + grace * usTicks + c.f 8 2 * msTicks, graceOver := false }
    let s1 := s.setPart p { x with st := .freezing, freeze := some f }
    if x.qver = 0x102 then s1.event blkQUE [p] { code := 0x0303, result := grace, st := .ok, detail := 0 }
    else s1.logWrite 0x0303 blkQUE p.val .ok 0 0 grace)

/-- The grace period ends: fetching stops. -/
def execFreezeGraceEnd (p : Fin 65) (s : State) : Host.Outcome State Fault Refusal :=
  match (s.part p).freeze with
  | some f =>
    if f.graceOver then .next s else
    let s1 := s.atLeast f.graceEnd
    .next (s1.setPart p { s1.part p with freeze := some { f with graceOver := true } })
  | none => .next s

/-- Does a freeze still wait for fetched commands, or for migrations (R228)? -/
def State.drains (s : State) (p : Fin 65) : Bool := s.que.cmds.any (fun c => c.part = p.val) || s.gmem.migs.any (fun m => m.part = p.val)

/-- A freeze whose partition has nothing left by the end of its drain: the partition is FROZEN.
(DEDUCED: log 95.) -/
def State.freezeDone (s : State) (p : Fin 65) (f : Freeze) : State :=
  (s.setPart p { s.part p with st := .frozen, freeze := none }).endCmd f.cmd .ok

/-- A freeze that is not done within DRAIN_MS of the grace period's end: the partition is ACTIVE again.
(DEDUCED: log 95.) -/
def State.freezeFailed (s : State) (p : Fin 65) (f : Freeze) : State :=
  let s1 := s.atLeast f.drainEnd
  let s2 := (s1.setPart p { s1.part p with st := .active, freeze := none }).endCmd f.cmd .timeout
  s2.event blkQUE (ownerAnd0 p) { code := 0x0304, result := p.val, st := .timeout, detail := 0 }

/-- Fetched commands have run to completion, and migrations have ended: the partition is FROZEN, unless DRAIN_MS is over.
(DEDUCED: log 175.) -/
def execFreezeDrained (p : Fin 65) (s : State) : Host.Outcome State Fault Refusal :=
  match (s.part p).freeze with
  | some f =>
    if f.graceOver = false ∨ s.drains p then .next s
    else if f.drainEnd < s.now then .next (s.freezeFailed p f)
    else .next (s.freezeDone p f)
  | none => .next s

/-- DRAIN_MS is over: the freeze fails, unless nothing was left before. -/
def execFreezeDrainTimeout (p : Fin 65) (s : State) : Host.Outcome State Fault Refusal :=
  match (s.part p).freeze with
  | some f =>
    if f.graceOver = false then .next s
    else if s.drains p = false ∧ s.now ≤ f.drainEnd then .next (s.freezeDone p f)
    else .next (s.freezeFailed p f)
  | none => .next s

/-! ### The state blob (R331 to R333) -/

/-- The SQs and the CQs of a partition, in ascending local number. -/
def State.partSqs (s : State) (p : Fin 65) : List (Nat × Sq) :=
  sortBy (fun a b => decide (a.1 ≤ b.1)) ((s.que.sqs.filter (fun e => e.1.1 = p.val)).map (fun e => (e.1.2, e.2)))
def State.partCqs (s : State) (p : Fin 65) : List (Nat × Cq) :=
  sortBy (fun a b => decide (a.1 ≤ b.1)) ((s.que.cqs.filter (fun e => e.1.1 = p.val)).map (fun e => (e.1.2, e.2)))

/-- An SQ entry and a CQ entry of the blob (R332). -/
def sqEntry (e : Nat × Sq) : List Byte :=
  leBytes 2 e.1 ++ leBytes 1 (e.2.kind + 4 * e.2.cls) ++ leBytes 1 (e.2.size + (if e.2.st = .error then 128 else 0)) ++ leBytes 2 e.2.cq ++
    leBytes 2 e.2.head ++ leBytes 2 e.2.tail ++ List.replicate 6 0
def cqEntry (e : Nat × Cq) : List Byte :=
  leBytes 2 e.1 ++ leBytes 1 e.2.size ++ leBytes 1 (b2n e.2.phase + (if e.2.err then 128 else 0)) ++ leBytes 2 e.2.vec ++
    leBytes 2 e.2.coalCount ++ leBytes 2 e.2.coalUs ++ leBytes 2 e.2.head ++ leBytes 2 e.2.write ++ List.replicate 2 0

/-- The blob but for its CRC.
(DEDUCED: log 96.) -/
def State.blobBody (s : State) (p : Fin 65) : List Byte :=
  let x := s.part p
  let sq := s.partSqs p
  let cq := s.partCqs p
  leBytes 4 0x42545350 ++ leBytes 2 2 ++ leBytes 2 x.qver.toNat ++ leBytes 8 (196 + 16 * (sq.length + cq.length)) ++ leBytes 2 sq.length ++
    leBytes 2 cq.length ++ leBytes 2 x.sqMax ++ leBytes 2 x.cqMax ++ leBytes 2 x.vecCount ++ leBytes 1 x.limits.weight ++ leBytes 1 x.classMax ++
    leBytes 2 x.evq ++ leBytes 2 0 ++ leBytes 4 x.limits.cr ++ leBytes 4 x.limits.pr ++ leBytes 2 x.limits.burstUs ++ leBytes 1 x.gen.toNat ++ List.replicate 5 0 ++
    leBytes 8 x.seq ++ List.replicate 8 0 ++ x.ctr.toList.flatMap (fun v => leBytes 8 v.toNat) ++ sq.flatMap sqEntry ++ cq.flatMap cqEntry
/-- (DEDUCED: log 96.) -/
def State.blob (s : State) (p : Fin 65) : List Byte := s.blobBody p ++ leBytes 4 (crc32c (s.blobBody p)).toNat

/-- PART_SAVE (R331). -/
def execPartSave (id : Nat) (s : State) : Host.Outcome State Fault Refusal := s.mgmt id 0x26 false (fun c p x =>
  let b := s.blob p
  if c.clean [at8 0 0 8, at8 8 0 64, at8 16 0 64] = false ∨ c.f 8 8 % 64 ≠ 0 then s.endCmd id .invalidField
  else if x.st ≠ .frozen then s.endCmd id .invalidState
  else if c.f 16 8 < b.length then s.endCmd id .invalidField
  else match s.partRanges 0 (c.f 8 8) b.length with
    | .fail st => s.endCmd id st
    | .wait l => s.waitCmd id l
    | .ok _ => (s.devWrite (c.f 8 8) b).endCmd id .ok)

/-- An SQ entry read back with its base; none where a reserved bit is set. -/
def parseSq (e : List Byte) (base : Nat) : Option (Nat × Sq) :=
  let k := fieldAt e 2 1
  let z := fieldAt e 3 1
  if 32 ≤ k ∨ bitsOf z 5 2 ≠ 0 ∨ fieldAt e 10 6 ≠ 0 then none else
  some (fieldAt e 0 2, { st := if bitOf z 7 then .error else .active, kind := bitsOf k 0 2, size := bitsOf z 0 5, cls := bitsOf k 2 3,
                         cq := fieldAt e 4 2, base := base, head := fieldAt e 6 2, tail := fieldAt e 8 2, delCmd := none })

/-- A CQ entry read back with its base. -/
def parseCq (e : List Byte) (base : Nat) : Option (Nat × Cq) :=
  let f := fieldAt e 3 1
  if 32 ≤ fieldAt e 2 1 ∨ bitsOf f 1 6 ≠ 0 ∨ fieldAt e 14 2 ≠ 0 then none else
  some (fieldAt e 0 2, { err := bitOf f 7, size := fieldAt e 2 1, vec := fieldAt e 4 2, coalCount := fieldAt e 6 2, coalUs := fieldAt e 8 2,
                         base := base, head := fieldAt e 10 2, write := fieldAt e 12 2, phase := bitOf f 0, reserved := 0, unsig := 0,
                         firstUnsig := 0, count := 0 })

/-- Numbers in strictly risingNums order.
(DEDUCED: log 96.) -/
def risingNums : List Nat → Bool
  | a :: b :: l => a < b && risingNums (b :: l)
  | _ => true

/-- The queues of a blob, checked against its header and the new ring bases (R333).
(DEDUCED: log 96.) -/
def State.blobQueues (s : State) (b : List Byte) (bases : List Nat) (home : Fin 2) (sqN cqN : Nat) : Option (List (Nat × Sq) × List (Nat × Cq)) :=
  let ent (i : Nat) : List Byte := (b.drop (0xC0 + 16 * i)).take 16
  match (List.range sqN).mapM (fun i => parseSq (ent i) (bases.getD i 0)), (List.range cqN).mapM (fun i => parseCq (ent (sqN + i)) (bases.getD (sqN + i) 0)) with
  | some sq, some cq =>
    let okS := sq.all (fun e => e.1 < fieldAt b 0x14 2 && e.2.kind ≤ 1 && e.2.cls ≤ fieldAt b 0x1B 1 && (4 ≤ e.2.size && e.2.size ≤ 16) &&
      e.2.head < 2 ^ e.2.size && e.2.tail < 2 ^ e.2.size && cq.any (fun k => k.1 = e.2.cq) && s.ringOk e.2.base e.2.size 64 home)
    let okC := cq.all (fun e => e.1 < fieldAt b 0x16 2 && e.2.vec < fieldAt b 0x18 2 && (4 ≤ e.2.size && e.2.size ≤ 16) &&
      e.2.head < 2 ^ e.2.size && e.2.write < 2 ^ e.2.size && s.ringOk e.2.base e.2.size 32 home)
    if okS && okC && risingNums (sq.map (fun e => e.1)) && risingNums (cq.map (fun e => e.1)) then some (sq, cq) else none
  | _, _ => none

/-- Is the header of a blob in range, its reserved bits clear?
(DEDUCED: log 96.) -/
def blobHdrOk (b : List Byte) : Bool :=
  let qv := fieldAt b 6 2
  fieldAt b 8 8 = 196 + 16 * (fieldAt b 0x10 2 + fieldAt b 0x12 2) && (qv = 0 || (0x100 ≤ qv && qv ≤ 0x102)) &&
    (1 ≤ fieldAt b 0x14 2 && fieldAt b 0x14 2 ≤ 16384) && (1 ≤ fieldAt b 0x16 2 && fieldAt b 0x16 2 ≤ 16384) &&
    (1 ≤ fieldAt b 0x18 2 && fieldAt b 0x18 2 ≤ 4096) && fieldAt b 0x1B 1 ≤ 7 && (fieldAt b 0x1C 2 = 0xFFFF || fieldAt b 0x1C 2 < fieldAt b 0x16 2) &&
    fieldAt b 0x1E 2 = 0 && fieldAt b 0x2B 5 = 0 && fieldAt b 0x38 8 = 0 && ratesOk (fieldAt b 0x1A 1) (fieldAt b 0x20 4) (fieldAt b 0x24 4) (fieldAt b 0x28 2)

/-- The partition that a blob's header describes, FROZEN. -/
def blobPart (b : List Byte) (x : Part) (home vecBase now : Nat) : Part :=
  { Part.reset with
    st := .frozen, gen := x.gen + 1, qver := BitVec.ofNat 16 (fieldAt b 6 2), home := home, sqMax := fieldAt b 0x14 2, cqMax := fieldAt b 0x16 2
    vecBase := vecBase, vecCount := fieldAt b 0x18 2, weight := fieldAt b 0x1A 1, classMax := fieldAt b 0x1B 1, evq := fieldAt b 0x1C 2
    cr := fieldAt b 0x20 4, pr := fieldAt b 0x24 4, burstUs := fieldAt b 0x28 2
    commit := bucketDepth (fieldAt b 0x20 4) (fieldAt b 0x28 2), peak := bucketDepth (fieldAt b 0x24 4) (fieldAt b 0x28 2), filledAt := now
    fin := x.fin, seq := fieldAt b 0x30 8, ctr := Vector.ofFn (fun i => BitVec.ofNat 64 (fieldAt b (0x40 + 8 * i.val) 8)) }

/-- PART_RESTORE (R333): the checks in order.
(DEDUCED: log 96.) -/
def execPartRestore (id : Nat) (s : State) : Host.Outcome State Fault Refusal := s.mgmt id 0x27 false (fun c p x =>
  let src := c.f 8 8
  let room := c.f 16 8
  if c.clean [at8 0 0 8, at8 1 0 1, at8 6 0 12, at8 8 0 64, at8 16 0 64, at8 24 0 64] = false ∨ src % 64 ≠ 0 ∨ s.homeOk (c.f 1 1) = false then
    s.endCmd id .invalidField
  else if x.st ≠ .unassigned then s.endCmd id .invalidState
  else if room < 16 then s.endCmd id .invalidField
  else match s.partRead 0 src 16 with
    | .wait _ => s
    | .fail st => s.endCmd id st
    | .ok h =>
      let len := fieldAt h 8 8
      if fieldAt h 0 4 ≠ 0x42545350 ∨ room < len then s.endCmd id .invalidField
      else if fieldAt h 4 2 ≠ 2 then s.endCmd id .versionMismatch
      else match s.partRead 0 src len with
        | .wait _ => s
        | .fail st => s.endCmd id st
        | .ok b =>
          if len < 4 ∨ (crc32c (b.take (len - 4))).toNat ≠ fieldAt b (len - 4) 4 then s.endCmd id .authFail
          else
            let n := fieldAt b 0x10 2 + fieldAt b 0x12 2
            if blobHdrOk b = false ∨ s.vecsFree p (Fin.ofNat 2 (c.f 1 1)) (c.f 6 2) (fieldAt b 0x18 2) = false then s.endCmd id .invalidField
            else match (if n = 0 then Acc.ok [] else s.partRead 0 (c.f 24 8) (8 * n)) with
              | .wait _ => s
              | .fail st => s.endCmd id st
              | .ok tab =>
                let bases := (List.range n).map (fun i => fieldAt tab (8 * i) 8)
                match s.blobQueues b bases (Fin.ofNat 2 (c.f 1 1)) (fieldAt b 0x10 2) (fieldAt b 0x12 2) with
                | none => s.endCmd id .invalidField
                | some (sq, cq) =>
                  if 16384 < s.que.sqs.length + sq.length then s.endCmd id .refusedResource 0x4100
                  else if 16384 < s.que.cqs.length + cq.length then s.endCmd id .refusedResource 0x4101
                  else
                    let s1 := s.setPart p (blobPart b x (c.f 1 1) (c.f 6 2) s.now)
                    let s2 := cq.foldl (fun t e => t.setCq p e.1 e.2) (sq.foldl (fun t e => t.setSq p e.1 e.2) s1)
                    s2.endCmd id .ok)

/-- PART_RESUME (R334). -/
def execPartResume (id : Nat) (s : State) : Host.Outcome State Fault Refusal := s.mgmt id 0x28 false (fun c p x =>
  if c.clean [at8 0 0 8] = false then s.endCmd id .invalidField
  else if x.st ≠ .frozen then s.endCmd id .invalidState
  else ((s.setPart p { x with st := .active }).event blkQUE (ownerAnd0 p) { code := 0x0306, result := x.gen.toNat, st := .ok, detail := 0 }).endCmd
    id .ok)

/-! ### Partition reset (R328, R329, R359) -/

/-- Steps 1 to 5 of a partition reset.
(DEDUCED: log 95.) -/
def State.partReset (s : State) (p : Fin 65) (cmd : Option Nat) : State :=
  let x := s.part p
  let s0 := ((s.endFreeze p .targetReset).endSave p).cancelRsps p
  let s1 := s0.setPart p { s0.part p with st := .resetting, gen := x.gen + 1, resetCmd := cmd }
  let mine := s1.que.cmds.filter (fun c => c.part = p.val)
  let s2 := mine.foldl (fun t c => (t.undefOut c .abortedPartitionReset).complete1 c .abortedPartitionReset 0 0 .ok) ((s1.dropSvc p).rdmPartReset p)
  let s3 := (s2.que.sqs.filter (fun e => e.1.1 = p.val)).foldl (fun t e => match e.2.st with
    | .active => t.setSq p e.1.2 { e.2 with head := e.2.tail }
    | .draining => (t.freeSq p e.1.2).endDelete e.2
    | .error => t) s2
  s3.setPart p { s3.part p with qver := 0, verSt := .ok }

/-- PART_RESET: at once (R326).
(DEDUCED: log 95.) -/
def execPartReset (id : Nat) (s : State) : Host.Outcome State Fault Refusal := s.mgmt id 0x29 false (fun c p x =>
  if x.resetCmd = some id then s
  else if c.clean [at8 0 0 8] = false then s.endCmd id .invalidField
  else if x.st ≠ .active ∧ x.st ≠ .freezing ∧ x.st ≠ .frozen then (s.endSave p).endCmd id .invalidState
  else s.partReset p (some id))

/-- The partition reset ends (step 6). -/
def execPartResetComplete (p : Fin 65) (s : State) : Host.Outcome State Fault Refusal :=
  let x := s.part p
  if x.st ≠ .resetting then .next s else
  let s1 := (s.setPart p { x with st := .active, resetCmd := none }).event blkQUE (ownerAnd0 p)
    { code := 0x0305, result := x.gen.toNat, st := .abortedPartitionReset, detail := 0 }
  .next (match x.resetCmd with | some id => s1.endCmd id .ok | none => s1)

end Sys2Proof.Machine
end

