-- ==== Sys2Proof/Machine/Spdm.lean ====
section
/-! DEFINITION. The SPDM responder over the DOE mailbox of each upstream function, and Link IDE (R304, R305, R409 to
R411). -/

namespace Sys2Proof.Machine

open Sys2Proof

/-- A function's responder. -/
def State.spdm (s : State) (fn : Fin 2) : Spdm := s.hif.spdm[fn]

/-- A response.
(PRESUMED: log 88.) -/
def State.reply (s : State) (fn : Fin 2) (r : SpdmRsp) : State := s.emit (.spdm fn.val r)

/-- An object has been taken from the mailbox. -/
def State.endObj (s : State) (fn : Fin 2) : State := s.setSpdm fn { s.hif.spdm[fn] with obj := [] }

/-- An SPDM request in a data object (R304). While the security processor does not run, DOE Status reads Busy and no object
is accepted; an object above 4,096 DWORDs is refused with DOE Error, and none is accepted until DOE Abort. A secured message
must belong to a session and verify.
(PRESUMED: log 88.) -/
def State.onSpdm (s : State) (fn : Fin 2) (m : SpdmMsg) (f : Spdm → State) : Host.Outcome State Fault Refusal :=
  let x := s.spdm fn
  if s.fld fLDG_STATE_SEC ≠ 2 ∨ x.aborted then .next s
  else if 4096 < m.dwords then .next (s.setSpdm fn { x with aborted := true, obj := [] })
  else
    match m.session with
    | some k =>
      if m.authentic && x.sessions.any (fun e => e.1 = k) then .next ((f x).endObj fn)
      else .next ((s.reply fn (.error .decryptError)).endObj fn)
    | none => .next ((f x).endObj fn)

/-- A request that needs the connection to have come to a stage. -/
def State.atStage (s : State) (fn : Fin 2) (x : Spdm) (n : Nat) (t : State) : State :=
  if n ≤ x.stage then t else s.reply fn (.error .unexpectedRequest)

/-- A request that needs an established session. -/
def State.inSession (s : State) (fn : Fin 2) (x : Spdm) (m : SpdmMsg) (f : Nat → State) : State :=
  match m.session with
  | some k => if x.sessions.any (fun e => e.1 = k && e.2) then f k else s.reply fn (.error .unexpectedRequest)
  | none => s.reply fn (.error .sessionRequired)

def execGetVersion (fn : Fin 2) (m : SpdmMsg) (s : State) : Host.Outcome State Fault Refusal := s.onSpdm fn m (fun x =>
  (s.setSpdm fn { x with stage := 1 }).reply fn .version)

def execGetCapabilities (fn : Fin 2) (m : SpdmMsg) (s : State) : Host.Outcome State Fault Refusal := s.onSpdm fn m (fun x =>
  s.atStage fn x 1 ((s.setSpdm fn { x with stage := max x.stage 2 }).reply fn .capabilities))

/-- The algorithms are ECDSA P-256, SHA-256 and AES-256-GCM, and nothing else (R304). -/
def execNegotiateAlgorithms (fn : Fin 2) (m : SpdmMsg) (s : State) : Host.Outcome State Fault Refusal := s.onSpdm fn m (fun x =>
  s.atStage fn x 2 (if m.ecdsaP256 && m.sha256 && m.aes256Gcm then (s.setSpdm fn { x with stage := 3 }).reply fn .algorithms
    else s.reply fn (.error .invalidRequest)))

/-- Slot 0 holds the chain; slots 1 to 7 are empty (R409). -/
def execGetDigests (fn : Fin 2) (m : SpdmMsg) (s : State) : Host.Outcome State Fault Refusal := s.onSpdm fn m (fun x =>
  s.atStage fn x 3 (s.reply fn (.digests 1 (sha256 s.certChain))))

def execGetCertificate (fn : Fin 2) (m : SpdmMsg) (s : State) : Host.Outcome State Fault Refusal := s.onSpdm fn m (fun x =>
  let c := s.certChain
  s.atStage fn x 3 (if m.p1 ≠ 0 ∨ c.length ≤ m.off then s.reply fn (.error .invalidRequest)
    else s.reply fn (.certificate ((c.drop m.off).take m.len) (c.length - m.off - min m.len (c.length - m.off)))))

/-- A signature by the Alias L1 key (R410) over an SPDM transcript, whose bytes DSP0274 gives and the spec does not: 64 free
bytes.
(PRESUMED: log 88.) -/
def State.spdmSign (s : State) : List Byte × State := s.takeBytes 64

def execChallenge (fn : Fin 2) (m : SpdmMsg) (s : State) : Host.Outcome State Fault Refusal := s.onSpdm fn m (fun x =>
  let r := s.spdmSign
  s.atStage fn x 3 (if m.p1 ≠ 0 then s.reply fn (.error .invalidRequest)
    else r.2.reply fn (.challengeAuth (sha256 s.certChain) r.1)))

/-- A measurement block (R410). Index 9 is read when the request arrives: all zero while no schedule image is active; its
digest's exact input is not stated, and its value is free.
(DEDUCED: log 89.) -/
def State.measurement (s : State) (i : Nat) : List Byte × State :=
  if i = 9 ∧ s.sch.active.isSome then s.takeBytes 32 else (s.measured i, s)

/-- Measurement blocks, in order.
(DEDUCED: log 89.) -/
def State.measureAll (s : State) : List Nat → List (Nat × List Byte) × State
  | [] => ([], s)
  | i :: r =>
    let a := s.measurement i
    let b := a.2.measureAll r
    ((i, a.1) :: b.1, b.2)

/-- GET_MEASUREMENTS (R410): Param2 names a block, 0 the number of blocks, 0xFF all; Param1 bit 0 asks for a signature. -/
def execGetMeasurements (fn : Fin 2) (m : SpdmMsg) (s : State) : Host.Outcome State Fault Refusal := s.onSpdm fn m (fun x =>
  let send (l : List Nat) : State :=
    let r := s.measureAll l
    if m.p1 % 2 = 1 then let q := r.2.spdmSign; q.2.reply fn (.measurements r.1 (some q.1)) else r.2.reply fn (.measurements r.1 none)
  s.atStage fn x 3 (if m.p2 = 0 then s.reply fn (.measurementCount 9)
    else if m.p2 = 0xFF then send [1, 2, 3, 4, 5, 6, 7, 8, 9]
    else if m.p2 ≤ 9 then send [m.p2]
    else s.reply fn (.error .invalidRequest)))

/-- KEY_EXCHANGE opens a session, which FINISH establishes. -/
def execKeyExchange (fn : Fin 2) (m : SpdmMsg) (s : State) : Host.Outcome State Fault Refusal := s.onSpdm fn m (fun x =>
  let r := s.spdmSign
  s.atStage fn x 3 ((r.2.setSpdm fn { x with sessions := x.sessions ++ [(x.next, false)], next := x.next + 1 }).reply fn
    (.keyExchange x.next r.1)))

def execFinish (fn : Fin 2) (m : SpdmMsg) (s : State) : Host.Outcome State Fault Refusal := s.onSpdm fn m (fun x =>
  match m.session with
  | some k =>
    if x.sessions.any (fun e => e.1 = k && !e.2) then
      (s.setSpdm fn { x with sessions := x.sessions.map (fun e => if e.1 = k then (k, true) else e) }).reply fn .finish
    else s.reply fn (.error .unexpectedRequest)
  | none => s.reply fn (.error .sessionRequired))

def execHeartbeat (fn : Fin 2) (m : SpdmMsg) (s : State) : Host.Outcome State Fault Refusal := s.onSpdm fn m (fun x =>
  s.inSession fn x m (fun _ => s.reply fn .heartbeat))

def execKeyUpdate (fn : Fin 2) (m : SpdmMsg) (s : State) : Host.Outcome State Fault Refusal := s.onSpdm fn m (fun x =>
  s.inSession fn x m (fun _ => s.reply fn .keyUpdate))

def execEndSession (fn : Fin 2) (m : SpdmMsg) (s : State) : Host.Outcome State Fault Refusal := s.onSpdm fn m (fun x =>
  s.inSession fn x m (fun k =>
    (s.setSpdm fn { x with sessions := x.sessions.filter (fun e => decide (e.1 ≠ k)) }).reply fn .endSession))

/-- IDE_KM within a secure session (R305). PRESUMED: Param1 is the object ID of PCIe's IDE_KM: 0 QUERY, 2 KEY_PROG
of the key that Param2 names, 4 K_SET_GO, 5 K_SET_STOP.
(PRESUMED: log 88.) -/
def execIdeKm (fn : Fin 2) (m : SpdmMsg) (s : State) : Host.Outcome State Fault Refusal := s.onSpdm fn m (fun x =>
  s.inSession fn x m (fun _ =>
    match m.p1 with
    | 0 => s.reply fn (.ideKm (decide (1 ≤ x.ide)))
    | 2 => (s.setSpdm fn { x with ide := max x.ide 1, keys := aput m.p2 m.key x.keys }).reply fn (.ideKm true)
    | 4 =>
      if x.ide = 0 then s.reply fn (.ideKm false)
      else ((s.setSpdm fn { x with ide := 2 }).raise (fHIF_UP_STATUS_IDE fn.val)).reply fn (.ideKm true)
    | 5 => ((s.setSpdm fn { x with ide := 0, keys := [] }).setFld (fHIF_UP_STATUS_IDE fn.val) 0).reply fn (.ideKm false)
    | _ => s.reply fn (.error .invalidRequest)))

/-- A DOE Abort.
(PRESUMED: log 88.) -/
def execDoeAbort (fn : Fin 2) (s : State) : Host.Outcome State Fault Refusal :=
  .next (s.doeAbort fn)

/-- The security processor restarts (R304, R305, R411): the sessions end, an object in progress is aborted, and Link IDE keeps its
keys. -/
def State.spdmRestart (s : State) : State :=
  s.setHif (fun h => { h with spdm := h.spdm.map (fun x => { x with sessions := [], aborted := x.aborted || x.obj ≠ [], obj := [] }) })

end Sys2Proof.Machine
end

