-- ==== Sys2Proof/Machine/Boot.lean ====
section
/-! DEFINITION. Resets and bring-up: signed records (R404, R405), the mask ROM (R406 to R408), cold and warm resets (R13 to R18,
R81, R176, R480 to R484), PERST# (R280), the steps of bring-up (R415 to R419), the GEN notice (R177). -/

namespace Sys2Proof.Machine

open Sys2Proof

def State.setLdg (s : State) (f : Ldg → Ldg) : State := { s with ldg := f s.ldg }
/-- (DESIGN CHOICE: log 125.) -/
def State.setFlash (s : State) (f : Flash → Flash) : State := s.setLdg (fun l => { l with flash := f l.flash })

/-! ### Flash -/

/-- The directory copy in use: the valid one with the larger SEQ (R414).
(DEDUCED: log 123.) -/
def flashDir (f : Flash) : FlashDir :=
  if f.dir0.ok && (!f.dir1.ok || decide (f.dir1.seq.toNat ≤ f.dir0.seq.toNat)) then f.dir0
  else if f.dir1.ok then f.dir1 else dirEmpty

/-- Write the directory: the other copy, with SEQ + 1 (R414). -/
def flashPutDir (f : Flash) (d : FlashDir) : Flash :=
  let n := { d with seq := (flashDir f).seq + 1, ok := true }
  if f.dir0.ok && (!f.dir1.ok || decide (f.dir1.seq.toNat ≤ f.dir0.seq.toNat)) then { f with dir1 := n } else { f with dir0 := n }

/-- The state of a set in the directory, and the directory with it changed.
(DEDUCED: log 123.) -/
def dirState (d : FlashDir) (k : Fin 2) : Fin 3 := if k = 0 then d.stA else d.stB
def dirMark (d : FlashDir) (k : Fin 2) (x : Fin 3) : FlashDir := if k = 0 then { d with stA := x } else { d with stB := x }

/-- A part's record in a set, and a set's contents replaced. -/
def flashPart (f : Flash) (k : Fin 2) (n : Nat) : List Byte := (alook n (if k = 0 then f.setA else f.setB)).getD []
def flashPutSet (f : Flash) (k : Fin 2) (l : List (Nat × List Byte)) : Flash := if k = 0 then { f with setA := l } else { f with setB := l }

/-- The other set. -/
def otherSet (k : Fin 2) : Fin 2 := if k = 0 then 1 else 0

/-- Mark a set in the directory. -/
def State.markSet (s : State) (k : Fin 2) (x : Fin 3) : State := s.setFlash (fun f => flashPutDir f (dirMark (flashDir f) k x))

/-! ### Signed records (R404) -/

/-- An unbound record's BIND. -/
def bindNone : List Byte := List.replicate 32 0

/-- Does a record carry its header: MAGIC, TYPE, LEN, with room for its signatures?
(DEDUCED: log 123.) -/
def recordForm (r : List Byte) (type sigs : Nat) : Bool :=
  0x40 + 64 * sigs ≤ r.length && fieldAt r 0 4 = 0x44524353 && fieldAt r 4 1 = type && fieldAt r 8 4 = r.length

/-- Do a record's BIND and its signatures verify: the vendor's, and the owner's second one where it is needed?
(DESIGN CHOICE: log 124.) -/
def State.recordSigned (s : State) (r bind : List Byte) (cosign : Bool) : Bool :=
  let n := r.length
  let k := if cosign then 128 else 64
  decide ((r.drop 0x10).take 32 = bind) && sigOk Config.vendorKey (r.take (n - k)) ((r.drop (n - k)).take 64) &&
    (!cosign || (match s.tru.owner with
      | some o => sigOk (keyOf (o.drop (0x40 + 0x18))) (r.take (n - 64)) (r.drop (n - 64))
      | none => false))

/-- Is a record valid (R404)? -/
def State.recordOk (s : State) (r : List Byte) (type : Nat) (bind : List Byte) (cosign : Bool) : Bool :=
  recordForm r type (if cosign then 2 else 1) && fieldAt r 6 2 = 1 && s.recordSigned r bind cosign

/-- COSIGN and MIN_SVN of the owner key record (R405); without one, 0 (R407). -/
def State.cosign (s : State) : Bool := match s.tru.owner with | some r => bitOf (fieldAt r 0x50 1) 0 | none => false
def State.minSvn (s : State) : Nat := match s.tru.owner with | some r => fieldAt r 0x54 4 | none => 0

/-- Is a part of a set a valid image of that part, with the needed signatures and a sufficient SVN (R407, R414)?
(DEDUCED: log 123.) -/
def State.fwOk (s : State) (k : Fin 2) (n : Nat) : Bool :=
  let r := flashPart s.ldg.flash k n
  s.recordOk r 4 bindNone s.cosign && fieldAt r 0x40 1 = n && decide (s.minSvn ≤ fieldAt r 0xC 4)

/-! ### The mask ROM (R407, R408) -/

/-- The security processor halts (R407). -/
def State.romHalt (s : State) (code : Nat) : State :=
  s.setFld fCIP_BOOT_STAGE 15 |>.setFld fCIP_BOOT_CODE code |>.setFld fLDG_STATE_SEC 4

/-- Apply the SKU and the defect record (R406): terraces gated, defective pavilions excluded, AES cores out. -/
def State.applyRecords (s : State) (sku defect : List Byte) (cores : Nat) : State :=
  let bad := fieldAt defect 0x40 18
  let s1 : State := { s with
    tru := { s.tru with sku := some sku, defect := some defect }
    pavs := Vector.ofFn (fun (p : Fin 144) => { s.pavs[p] with
      excluded := s.pavs[p].excluded || bitOf bad p.val || decide (fieldAt sku 0x46 1 ≤ p.val / 9) }) }
  s1.setFld fCIP_CORES_IN_SERVICE (Nat.land cores (0xFFFFFF - fieldAt defect 0x54 3))

/-- The digest of a record that is present; 32 zero bytes without one (R408, R410). -/
def recordDigest (r : Option (List Byte)) : List Byte := match r with | some b => sha256 b | none => List.replicate 32 0

/-- Start the security firmware of a set (R407 step 6): it is measured, CDI_L0 derived, the ROM-only memory closed. -/
def State.romAccept (s : State) (k : Fin 2) : State :=
  let r := flashPart s.ldg.flash k 1
  let m0 := sha256 (sha256 r ++ leBytes 4 (fieldAt r 0xC 4) ++ recordDigest s.tru.sku ++ recordDigest s.tru.owner)
  let s1 : State := { s with tru := { s.tru with
    cdi0 := some (hmacSha256 (s.tru.uds.getD []) m0)
    meas := [(1, Config.romDigest), (2, sha256 r), (3, recordDigest s.tru.owner), (4, recordDigest s.tru.sku),
             (5, recordDigest s.tru.defect)] } }
  s1.setFld fCIP_BOOT_STAGE 2 |>.setFld fCIP_BOOT_CODE 0 |>.setFld fCIP_BOOT_IMG k.val
    |>.setFld fCIP_BOOT_SVN (fieldAt r 0xC 4) |>.setFld fLDG_STATE_SEC 2

/-- Steps 3 to 6 of the mask ROM; `cores` are the AES cores that no known-answer test has taken out.
(DEDUCED: log 123.) -/
def State.romBoot (s : State) (cores : Nat) : State :=
  let f := s.ldg.flash
  let s1 : State := { s with tru := { s.tru with owner := none } }
  if f.owner ≠ [] ∧ s1.recordOk f.owner 1 bindNone false = false then s1.romHalt 2 else
  let s2 : State := { s1 with tru := { s1.tru with owner := if f.owner = [] then none else some f.owner } }
  let me := keyDigest s2.devPub
  if s2.recordOk f.sku 2 me false = false then s2.romHalt 3
  else if s2.recordOk f.defect 3 me false = false then s2.romHalt 4
  else
    let s3 := (s2.applyRecords f.sku f.defect cores).setFld fCIP_BOOT_STAGE 1
    let k := (flashDir f).active
    if s3.fwOk k 1 then s3.romAccept k
    else if s3.fwOk (otherSet k) 1 then s3.romAccept (otherSet k)
    else s3.romHalt 1

/-! ### Resets -/

/-- Is an address of GDDR7 or of the CXL tier (R19)?
(DESIGN CHOICE: log 126.) -/
def volatileAddr (a : Nat) : Bool := a < 0x3000000000 || (0x100000000000 ≤ a && a < 0x180000000000)

/-- GDDR7 and CXL contents are no longer guaranteed (R13, R481): any cells may stand there.
(DESIGN CHOICE: log 126.) -/
def State.freeMem (s : State) : State :=
  let kept : List Host.Cell := s.mem.filter (fun e => !volatileAddr e.1)
  { s with freeCtr := s.freeCtr + 1
           mem := ((Config.freeCells s.freeCtr).filter (fun e => volatileAddr e.1)).foldl
             (fun m e => smSet memDefault m e.1 e.2) kept }

/-- Everything is reset but TOP_RST_CAUSE (R13): the flash keeps its contents, the host's and the accelerators' memory is not
the device's, and the board's memory devices stay what they are.
(DEDUCED: log 130.) -/
def State.coldState (s : State) (cause : Nat) : State :=
  let t := s.freeMem
  let u : State := { State.reset with
    pending := s.pending, now := s.now, freeCtr := t.freeCtr, out := s.out, mem := t.mem
    ldg := { Ldg.reset with flash := s.ldg.flash, tripped := s.ldg.tripped }
    gmem := { Mem.reset with saved := s.gmem.saved, ident := s.gmem.ident, temps := s.gmem.temps } }
  u.setReg rTOP_RST_CAUSE (BitVec.ofNat 64 cause)

/-- A cold reset, and the steps 1 to 4 of bring-up (R407, R415): the PLLs lock, up_bif is sampled (R276), the mask ROM runs.
(DESIGN CHOICE: log 125.) -/
def State.coldReset (s : State) (cause : Nat) (b : BootIn) : State :=
  let s0 := match b.flash with | some f => s.setFlash (fun _ => f) | none => s
  let s1 := (s0.coldState cause).setReg rTOP_CLK_STATUS 7 |>.setFld fHIF_CFG_BIF (b2n b.halves)
  let h := s1.ldg.flash.helper
  if b.puf = false ∨ h = [] then (s1.setLdg (fun l => { l with step := 2 })).romHalt 5
  else
    let s2 : State := { s1 with tru := { s1.tru with uds := some (Config.pufUds h) } }
    (s2.setLdg (fun l => { l with step := 4 })).romBoot 0xFFFFFF

/-- The registers that a warm reset leaves: those of the transit slices, the time base, the trouble log, the always-on domain,
what lasts until the next cold reset (R13, R176, R253, R393, R419), the upstream links.
(DEDUCED: log 127.) -/
def warmKeeps (links : Bool) (o : Nat) : Bool :=
  o < 0x100000 || (0x300000 ≤ o && o < 0x400000) || (rSCH_TS_CTRL ≤ o && o ≤ rSCH_TS_MAXOFS) ||
    (rSCH_TS_ASYM 0 ≤ o && o < rSCH_TS_ASYM 24) || o = rLOG_WR || o = rCIP_CORES || o = rCIP_BOOT || o = rCKP_AUTO_COUNT ||
    o = rLDG_MAPOUT0 || o = rLDG_MAPOUT1 || o = rLDG_MAPOUT2 ||
    (links && (o = rHIF_UP_STATUS 0 || o = rHIF_UP_STATUS 1))

/-- What a fabric port keeps: training, credits, replay buffers (R176); its own device's volunteer and ROUTED flits go.
(DEDUCED: log 53.) -/
def FabPort.warm (x : FabPort) : FabPort :=
  { x with volQ := x.volQ.filter (fun q => decide (q.src ≠ 24))
           ctrlQ := x.ctrlQ.filter (fun q => match q.flit with | .ctrl (.routed ..) => decide (q.src ≠ 24) | _ => true) }

/-- The TRANSIT runs kept until the close of the epoch that is active when the reset begins (R176).
(DEDUCED: log 53.) -/
def State.keptRuns (s : State) : Option KeptRuns :=
  match s.sch.epoch with
  | some e => some { runs := e.blk.runs.filter (fun r => r.kind = 2), opened := e.opened, close := e.opened + 8 * e.lenPaced,
                         epoch := s.fld fSCH_EPOCH_VALUE }
  | none => s.fab.kept

/-- A warm reset (R13, R14, R17, R81, R176): its cause, and whether the upstream links stay up. The mask ROM runs again from
step 3 (R408), but for a security processor that is halted (R407).
(DEDUCED: log 53, 127.) -/
def State.warmReset (s : State) (cause : Nat) (links : Bool) : State :=
  let s0 := (if s.running then
      s.floodOwn 2 { s.ownNotice 2 with cause := 6, tr := BitVec.ofNat 64 s.replayTime } else s).rtBoundary
  let s1 := (({ s0 with que := Que.reset } : State).abandon 7).cutRestore
  let s2 := s1.freeMem
  let halted := s.fld fLDG_STATE_SEC = 4
  let here (a : Fin 16) : Bool := s.flag (fHIF_SLOT_STATUS_PRESENT a.val)
  let h := s.fld fHIF_CFG_BIF
  let s3 : State := { s2 with
    regs := s2.regs.filter (fun e => warmKeeps links e.1)
    scratch := []
    que := Que.reset
    pavs := s2.pavs.map (fun x => { Pav.reset with niGen := x.niGen + 1, nextWrite := x.nextWrite, excluded := x.excluded })
    sch := { Sch.reset with tb := s2.sch.tb, hold := s2.sch.hold, good := s2.sch.good, bad := s2.sch.bad,
                            lastSlew := s2.sch.lastSlew, lastExch := s2.sch.lastExch, kids := s2.sch.kids,
                            ownNum := s2.sch.ownNum, seenNum := s2.sch.seenNum }
    fab := { s2.fab with ports := s2.fab.ports.map FabPort.warm, comps := [], genHold := none, genDue := true,
                         kept := s.keptRuns, resetting := true, awaiting := [] }
    hif := if links then { Hif.reset with spdm := s2.hif.spdm.map (fun m => { Spdm.reset with ide := m.ide, keys := m.keys }) } else Hif.reset
    ckp := Ckp.reset, rdm := Rdm.reset, eth := Eth.reset, pwr := Pwr.reset, cip := Cip.reset
    gmem := { Mem.reset with saved := s2.gmem.saved, ident := s2.gmem.ident, temps := s2.gmem.temps,
                             force := s2.gmem.force || s.flag fMEM_TRAIN_CTRL_FORCE_FULL }
    ldg := { Ldg.reset with flash := s2.ldg.flash, step := 2 } }
  let s4 := (s3.setReg rTOP_RST_CAUSE (BitVec.ofNat 64 cause)).setFld fHIF_CFG_BIF h
  let s5 := (List.finRange 16).foldl (fun t a => if here a then (t.raise (fHIF_SLOT_STATUS_PRESENT a.val)).setFld (fHIF_SLOT_STATUS_STATE a.val) 1 else t) s4
  if halted then s5.setFld fLDG_STATE_SEC 4
  else
    let s6 := (s5.setReg rCIP_BOOT 0).setLdg (fun l => { l with step := 4 })
    s6.romBoot (s.fld fCIP_CORES_IN_SERVICE)

/-- Power is applied and por_n is released (R480): a cold reset with cause POWER_ON. Power was removed before, and with it a
thermal trip (R484).
(DESIGN CHOICE: log 125.) -/
def execPowerOn (b : BootIn) (s : State) : Host.Outcome State Fault Refusal :=
  .next ((s.setLdg (fun l => { l with tripped := false })).coldReset 0x01 b)

/-- A low pulse on por_n (R483): 2 µs or longer resets; shorter than 0.5 µs is ignored; between the two the manual forbids
the board to drive one, and either may follow. After a thermal trip the device stays held (R484).
(DESIGN CHOICE: log 125; DEDUCED: log 128.) -/
def execPorPinLow (ns : Nat) (b : BootIn) (s : State) : Host.Outcome State Fault Refusal :=
  if s.ldg.tripped ∨ ns < 500 then .next s
  else if 2000 ≤ ns then .next (s.coldReset 0x02 b)
  else
    let r := s.takeFree 1
    if r.1 = 1 then .next (r.2.coldReset 0x02 b) else .next r.2

/-- The root PLL loses lock for a time (R13, R18): a short loss sets ROOT_UNLOCK, a longer one causes a cold reset.
(DEDUCED: log 128.) -/
def execRootPllUnlock (ns : Nat) (b : BootIn) (s : State) : Host.Outcome State Fault Refusal :=
  if s.ldg.tripped then .next s
  else if ns < 1000 then .next ((s.raise fTOP_CLK_STATUS_ROOT_UNLOCK).pulse 259)
  else if 1000 < ns then .next (s.coldReset 0x04 b)
  else
    let r := s.takeFree 1
    if r.1 = 1 then .next (r.2.coldReset 0x04 b) else .next ((r.2.raise fTOP_CLK_STATUS_ROOT_UNLOCK).pulse 259)

/-- The loss of lock has lasted more than 1 µs (R13).
(DEDUCED: log 128.) -/
def execRootPllLossTimeout (b : BootIn) (s : State) : Host.Outcome State Fault Refusal :=
  if s.ldg.tripped then .next s else .next (s.coldReset 0x04 b)

/-- A write of TOP_RST_CTRL (R16, R18): a cold reset takes precedence over a warm one. -/
def State.rstCtrlWrite (s : State) (v : BitVec 32) (b : BootIn) : State :=
  if bitsOf v.toNat 16 16 ≠ 0xA55A then s
  else if bitOf v.toNat 1 then s.coldReset 0x08 b
  else if bitOf v.toNat 0 then s.warmReset 0x20 true
  else s

def execSwCold (v : BitVec 32) (b : BootIn) (s : State) : Host.Outcome State Fault Refusal := .next (s.rstCtrlWrite v b)
def execSwWarm (v : BitVec 32) (b : BootIn) (s : State) : Host.Outcome State Fault Refusal := .next (s.rstCtrlWrite v b)

/-- PERST# of one half (R280): requests outstanding to its host, its link, its function, the partitions whose window lives on it, and, for the control
function, partition 0's queues and the cipher lock (R396).
(DEDUCED: log 127.) -/
def State.halfPerst (s : State) (h : Fin 2) : State :=
  let ctrl := decide (h = s.ctrlFn)
  let s0 := ((s.loseRegion (.host h.val)).dropLink h.val).setHif (fun x => { x with
    msix := x.msix.set h FnMsix.reset, cfg := x.cfg.set h FnCfg.reset, spdm := x.spdm.set h Spdm.reset })
  let s1 := s0.setTags (s0.hif.tags.filter (fun e => decide (e.1.1 ≠ h.val)))
  let s2 := ((List.finRange 65).filter (fun p => p ≠ 0 && (s.part p).home = h.val &&
      ((s.part p).st = .active || (s.part p).st = .freezing))).foldl (fun t p => t.partReset p none) s1
  if ctrl then
    let s3 := s2.cutRestore.dropCmds 0
    let s4 : State := { s3 with que := { s3.que with sqs := s3.que.sqs.filter (fun e => decide (e.1.1 ≠ 0))
                                                     cqs := s3.que.cqs.filter (fun e => decide (e.1.1 ≠ 0)) } }
    let s5 := s4.setPart 0 { s4.part 0 with evq := 0xFFFF, pendEv := [] }
    (s5.setReg rQUE_ADMIN_CTRL 0 |>.setReg rQUE_ADMIN_SQ 0 |>.setReg rQUE_ADMIN_CQ 0).cipForceRelease 3
  else s2

/-- Upstream PERST# (R13, R280): a warm reset in ×16 mode, or when both halves assert it together.
(DEDUCED: log 128.) -/
def execUpstreamPerst (h0 h1 : Bool) (s : State) : Host.Outcome State Fault Refusal :=
  let warm (t : State) : Host.Outcome State Fault Refusal :=
    .next (((t.dropLink 0).dropLink 1).warmReset 0x10 false)
  if s.flag fHIF_CFG_BIF then
    (if h0 ∧ h1 then warm s else if h0 then .next (s.halfPerst 0) else if h1 then .next (s.halfPerst 1) else .next s)
  else if h0 then warm s else .next s

/-- por_n goes low and the rails fall (R481): GDDR7, CXL and trouble-log contents are lost; the flash keeps its own.
(DEDUCED: log 130.) -/
def execPowerDown (s : State) : Host.Outcome State Fault Refusal :=
  .next ((s.coldState 0x01).setLdg (fun l => { l with tripped := false }))

/-! ### Bring-up (R415 to R419) -/

/-- Start the management and power firmware of a set: measured (R407), the processors RUNNING.
(DEDUCED: log 123; DESIGN CHOICE: log 148.) -/
def State.lodgeAccept (s : State) (k : Fin 2) : State :=
  let f := s.ldg.flash
  let s1 : State := { s with tru := { s.tru with meas := s.tru.meas ++
    [(6, sha256 (flashPart f k 2)), (7, sha256 (flashPart f k 3)), (8, sha256 (flashPart f k 4))] } }
  s1.setFld fCIP_BOOT_STAGE 3 |>.setFld fLDG_STATE_MGT 2 |>.setFld fLDG_STATE_PWR 2

/-- The emulated registers as the management firmware shows them when it starts (R427, R441). -/
def State.emuStart (s : State) (k : Fin 2) : State :=
  let staged := dirState (flashDir s.ldg.flash) (otherSet k) = 1
  (((s.setReg rEMU_IF_VERSION 2).setReg rEMU_STATUS 0).setReg rEMU_CMD_ADDR_LO 0).setReg rEMU_CMD_ADDR_HI 0
    |>.setReg rEMU_CMD 0 |>.setFld fEMU_STATUS_RUN_SET k.val |>.setFld fEMU_STATUS_FW_STATE (if staged then 2 else 0)

/-- Power is enabled for every slot that is present (R297, R415). -/
def State.slotsOn (s : State) : State :=
  (List.finRange 16).foldl (fun t a =>
    if t.slotSt a = 1 ∧ t.slotGated a = false ∧ t.slotExists a then
      let n : Fin 8 := Fin.ofNat 8 (a.val / 2)
      let t1 := t.setHif (fun h => { h with split := h.split.set n (t.flag (fHIF_DS_CTRL_SPLIT n.val)) })
      ((t1.slotReset a true).slotPower a true).enterSlot a 2
    else t) s

/-- DEV_GEN advances and is kept in flash (R17); the GEN notice is flooded, and the device's own volunteer and ROUTED flits wait
16,000 ticks from its stamp (R177).
(DEDUCED: log 129; DESIGN CHOICE: log 174.) -/
def State.genStart (s : State) : State :=
  let g := s.ldg.flash.devGen + 1
  let s1 := (s.setFlash (fun f => { f with devGen := g })).setFld fTOP_GEN_DEV_GEN g.toNat
  let s2 := s1.floodOwn 4 (s1.ownNotice 4)
  { s2 with fab := { s2.fab with genDue := false, genHold := some (s2.sch.tb.toNat + 16000), resetting := false } }

/-- Steps 5 and 6 of bring-up (R415): the security firmware verifies and starts the others by the rules of R407; the management
processor advances DEV_GEN, starts GDDR7 training and powers the slots. Firmware that does not verify is not started.
(DEDUCED: log 129.) -/
def execLodgeFwStart (s : State) : Host.Outcome State Fault Refusal :=
  if s.ldg.step ≠ 4 ∨ s.fld fLDG_STATE_SEC ≠ 2 then .next s else
  let k : Fin 2 := Fin.ofNat 2 (s.fld fCIP_BOOT_IMG)
  if s.fwOk k 2 ∧ s.fwOk k 3 ∧ s.fwOk k 4 then
    let s1 := (((s.lodgeAccept k).emuStart k).genStart.beginTraining).slotsOn
    .next (s1.setLdg (fun l => { l with step := 6, waveFrom := s.now, waves := [] }))
  else .next ((s.setFld fLDG_STATE_MGT 4 |>.setFld fLDG_STATE_PWR 4 |>.raise fPWR_STATE_GOV).pulse 258)

/-- 16,000 ticks after the GEN notice's stamp, the device may send its own volunteer and ROUTED flits (R177).
(DEDUCED: log 129.) -/
def execGenHoldExpire (s : State) : Host.Outcome State Fault Refusal :=
  match s.fab.genHold with
  | none => .next s
  | some t =>
    let s1 := s.atTb t
    .next { s1 with fab := { s1.fab with genHold := none } }

/-- A physical pavilion is mapped out (R419): excluded until the next cold reset, its bit, the flag, the event with its entry.
(DEDUCED: log 131.) -/
def State.mapOut (s : State) (p : Fin 144) : State :=
  let s1 := s.setPav p { s.pav p with excluded := true }
  let f := if p.val < 64 then fLDG_MAPOUT0_BITS else if p.val < 128 then fLDG_MAPOUT1_BITS else fLDG_MAPOUT2_BITS
  let s2 := s1.setFld f (Nat.lor (s1.fld f) (2 ^ (p.val % 64)))
  (s2.raise fLDG_ERR_MAPOUT).event0 blkLDG 0x0505 p.val .ok

/-- Have all waves come, and all tests of ungated pavilions ended?
(DEDUCED: log 131.) -/
def State.wavesDone (s : State) : Bool :=
  (List.range (min 16 (s.skuField 6 1))).all (fun t => s.ldg.waves.any (fun w => w.1 = t)) &&
    s.pavs.toList.all (fun x => !x.ungated || x.tested)

/-- When every wave has ended, the map is built and committed, with every present pavilion held (R73, R75, R113, R418).
(DEDUCED: log 131.) -/
def State.endWaves (s : State) : State := if s.wavesDone then (s.buildMap).setLdg (fun l => { l with step := 7 }) else s

/-- A terrace is ungated, 2t ms after step 7 begins (R417); a gated terrace is skipped, and defective pavilions stay gated.
(DEDUCED: log 131.) -/
def execTerraceWave (t : Fin 16) (s : State) : Host.Outcome State Fault Refusal :=
  if s.ldg.step ≠ 6 ∨ s.skuField 6 1 ≤ t.val ∨ s.ldg.waves.any (fun w => w.1 = t.val) then .next s else
  let s1 := s.atLeast (s.ldg.waveFrom + 2 * t.val * msTicks)
  .next ((({ s1 with pavs := Vector.ofFn (fun (p : Fin 144) =>
    if p.val / 9 = t.val ∧ s1.pavs[p].excluded = false then { s1.pavs[p] with ungated := true } else s1.pavs[p]) } : State)
    |>.setLdg (fun l => { l with waves := (t.val, s1.now) :: l.waves })).endWaves)

/-- A pavilion's self-test ends 4 ms after its terrace's ungating (R418).
(DEDUCED: log 131.) -/
def execPavSelfTestDone (p : Fin 144) (pass : Bool) (s : State) : Host.Outcome State Fault Refusal :=
  if s.ldg.step ≠ 6 ∨ (s.pav p).ungated = false ∨ (s.pav p).tested then .next s else
  let t := ((s.ldg.waves.find? (fun w => w.1 = p.val / 9)).map Prod.snd).getD s.now
  let s1 := s.atLeast (t + 4 * msTicks)
  let s2 := s1.setPav p { s1.pav p with tested := true }
  .next (if pass then s2 else s2.mapOut p).endWaves

/-- READY is set once step 7 and GDDR7 training have ended (R415). -/
def execBringupReady (s : State) : Host.Outcome State Fault Refusal :=
  if s.ldg.step = 7 ∧ s.gmem.training = none then
    .next ((s.raise fLDG_STATE_READY).setLdg (fun l => { l with step := 8 }))
  else .next s

end Sys2Proof.Machine
end

