-- ==== Sys2Proof/Machine/Zstd.lean ====
section
/-! DEFINITION. Zstandard frames as R261 has them: RFC 8878's decoding of a frame, and the frame that the device writes. -/

namespace Sys2Proof.Machine

open Sys2Proof

/-! ### The checksum -/

/-- XXH64, whose low 32 bits are a frame's Content_Checksum (R261, RFC 8878): its constants and steps. -/
def xxP1 : BitVec 64 := 0x9E3779B185EBCA87
def xxP2 : BitVec 64 := 0xC2B2AE3D27D4EB4F
def xxP3 : BitVec 64 := 0x165667B19E3779F9
def xxP4 : BitVec 64 := 0x85EBCA77C2B2AE63
def xxP5 : BitVec 64 := 0x27D4EB2F165667C5
def xxRound (a x : BitVec 64) : BitVec 64 := (a + x * xxP2).rotateLeft 31 * xxP1
def xxMerge (a v : BitVec 64) : BitVec 64 := (a ^^^ xxRound 0 v) * xxP1 + xxP4
def xxWord (b : List Byte) (o : Nat) : BitVec 64 := BitVec.ofNat 64 (fieldAt b o 8)

/-- The 32-byte stripes. -/
def xxStripes : Nat → List Byte → BitVec 64 × BitVec 64 × BitVec 64 × BitVec 64 → BitVec 64 × BitVec 64 × BitVec 64 × BitVec 64
  | 0, _, v => v
  | n + 1, b, (v1, v2, v3, v4) =>
    xxStripes n (b.drop 32) (xxRound v1 (xxWord b 0), xxRound v2 (xxWord b 8), xxRound v3 (xxWord b 16), xxRound v4 (xxWord b 24))

/-- The bytes after the stripes, at most 31: eight, four, one at a time. -/
def xxTail : Nat → List Byte → BitVec 64 → BitVec 64
  | 0, _, h => h
  | n + 1, b, h =>
    if 8 ≤ b.length then xxTail n (b.drop 8) ((h ^^^ xxRound 0 (xxWord b 0)).rotateLeft 27 * xxP1 + xxP4)
    else if 4 ≤ b.length then xxTail n (b.drop 4) ((h ^^^ (BitVec.ofNat 64 (fieldAt b 0 4) * xxP1)).rotateLeft 23 * xxP2 + xxP3)
    else match b with
      | [] => h
      | x :: r => xxTail n r ((h ^^^ (x.zeroExtend 64 * xxP5)).rotateLeft 11 * xxP1)

/-- XXH64 with seed 0.
(DEDUCED: log 72; PRESUMED: log 161.) -/
def xxh64 (b : List Byte) : BitVec 64 :=
  let n := b.length / 32
  let h0 := if n = 0 then xxP5 else
    let v := xxStripes n b (xxP1 + xxP2, xxP2, 0, 0 - xxP1)
    xxMerge (xxMerge (xxMerge (xxMerge (v.1.rotateLeft 1 + v.2.1.rotateLeft 7 + v.2.2.1.rotateLeft 12 + v.2.2.2.rotateLeft 18)
      v.1) v.2.1) v.2.2.1) v.2.2.2
  let h1 := xxTail 40 (b.drop (32 * n)) (h0 + BitVec.ofNat 64 b.length)
  let h2 := (h1 ^^^ (h1 >>> 33)) * xxP2
  let h3 := (h2 ^^^ (h2 >>> 29)) * xxP3
  h3 ^^^ (h3 >>> 32)

/-! ### Bit streams -/

/-- A stream of bits read from its last byte backward (RFC 8878): the number that its bytes spell, and how many bits are left. -/
structure BackBits where
  n : Nat
  left : Nat
  deriving DecidableEq, Repr

/-- The stream of bytes: the highest 1 of the last byte marks its end. -/
def backBits (b : List Byte) : Option BackBits :=
  match b.getLast? with
  | none => none
  | some x => if x = 0 then none else some { n := leNat b, left := 8 * (b.length - 1) + Nat.log2 x.toNat }

/-- The next `k` bits, without taking them; 0 beyond the end. -/
def BackBits.peek (s : BackBits) (k : Nat) : Nat :=
  if k ≤ s.left then bitsOf s.n (s.left - k) k else bitsOf s.n 0 s.left * 2 ^ (k - s.left)

/-- Take `k` bits; none where fewer are left. -/
def BackBits.take (s : BackBits) (k : Nat) : Option (Nat × BackBits) :=
  if k ≤ s.left then some (bitsOf s.n (s.left - k) k, { s with left := s.left - k }) else none

/-! ### FSE tables -/

/-- A cell of an FSE decoding table: its symbol, the bits of the next state, its base. -/
structure FseCell where
  sym : Nat
  bits : Nat
  base : Nat
  deriving DecidableEq, Repr

/-- An FSE decoding table: its accuracy and its cells. -/
structure Fse where
  log : Nat
  cells : List FseCell
  deriving DecidableEq, Repr

/-- Number the cells in order: each cell of a symbol takes the symbol's next count. -/
def fseCells (log : Nat) : List Nat → List Nat → List FseCell
  | [], _ => []
  | y :: r, next =>
    let x := next.getD y 1
    let nb := log - Nat.log2 x
    { sym := y, bits := nb, base := x * 2 ^ nb - 2 ^ log } :: fseCells log r (next.set y (x + 1))

/-- The table of a distribution: -1 is a probability below 1, whose cells lie at the end.
(PRESUMED: log 161.) -/
def fseBuild (log : Nat) (probs : List Int) : Fse :=
  let size := 2 ^ log
  let syms := List.range probs.length
  let low := syms.filter (fun y => probs.getD y 0 = -1)
  let high := size - low.length
  let step := size / 2 + size / 8 + 3
  let at? := ((List.range size).map (fun i => i * step % size)).filter (fun i => decide (i < high))
  let spread := at?.zip (syms.flatMap (fun y => List.replicate (probs.getD y 0).toNat y))
  let cell (i : Nat) : Nat :=
    if high ≤ i then low.getD (size - 1 - i) 0 else (alook i spread).getD 0
  { log := log, cells := fseCells log ((List.range size).map cell) (probs.map (fun p => if p = -1 then 1 else p.toNat)) }

/-- Zero probabilities named by repeat flags of two bits each, from bit `p` of `n`: how many, and the next bit. -/
def fseZeros : Nat → Nat → Nat → Nat × Nat
  | 0, _, p => (0, p)
  | f + 1, n, p =>
    let r := bitsOf n p 2
    if r = 3 then let q := fseZeros f n (p + 2); (q.1 + 3, q.2) else (r, p + 2)

/-- Bits in which a value below `2 ^ k` may lie: the largest `k` with `2 ^ k ≤ m`. -/
def fseRead (n p m : Nat) : Nat × Nat :=
  let k := Nat.log2 m + 1
  let short := 2 ^ k - 1 - m
  let lo := bitsOf n p (k - 1)
  if lo < short then (lo, p + k - 1)
  else let v := bitsOf n p k; (if v < 2 ^ (k - 1) then v else v - short, p + k)

/-- The probabilities of a table description, from bit `p`: `left` cells remain to be given. -/
def fseProbs : Nat → Nat → Nat → Nat → List Int → Option (List Int × Nat)
  | 0, _, _, _, _ => none
  | f + 1, n, p, left, acc =>
    if left = 0 then some (acc, p) else
    let r := fseRead n p (left + 1)
    let prob : Int := (r.1 : Int) - 1
    let used := if r.1 = 0 then 1 else r.1 - 1
    if left < used then none
    else if r.1 = 1 then
      let z := fseZeros 256 n r.2
      fseProbs f n z.2 left (acc ++ [0] ++ List.replicate z.1 0)
    else fseProbs f n r.2 (left - used) (acc ++ [prob])

/-- A table described in bytes (RFC 8878): the table, and the bytes that its description takes. -/
def fseDescribed (b : List Byte) (maxLog maxSym : Nat) : Option (Fse × Nat) :=
  let n := leNat (b.take 512)
  let log := bitsOf n 0 4 + 5
  if b = [] ∨ maxLog < log then none
  else match fseProbs 600 n 4 (2 ^ log) [] with
    | none => none
    | some (l, p) => if maxSym + 1 < l.length ∨ b.length < ceilDiv p 8 then none else some (fseBuild log l, ceilDiv p 8)

/-- The cell of a state. -/
def Fse.cell (t : Fse) (st : Nat) : FseCell := t.cells.getD st { sym := 0, bits := 0, base := 0 }

/-- The next state. -/
def Fse.next (t : Fse) (st : Nat) (s : BackBits) : Option (Nat × BackBits) :=
  (s.take (t.cell st).bits).map (fun r => ((t.cell st).base + r.1, r.2))

/-! ### Huffman trees -/

/-- A Huffman decoding table: the longest code, and for each value of that many bits the symbol and its code's length. -/
structure Huf where
  bits : Nat
  cells : List (Nat × Nat)
  deriving DecidableEq, Repr

/-- The table of weights, the last of which is implied.
(PRESUMED: log 161.) -/
def hufBuild (w : List Nat) : Option Huf :=
  let sum := (w.map (fun x => if x = 0 then 0 else 2 ^ (x - 1))).sum
  if sum = 0 then none else
  let m := Nat.log2 sum + 1
  let rest := 2 ^ m - sum
  if 11 < m ∨ 2 ^ Nat.log2 rest ≠ rest ∨ 255 < w.length then none
  else
    let all := (w ++ [Nat.log2 rest + 1]).zip (List.range (w.length + 1))
    some { bits := m, cells := (List.range m).flatMap (fun i =>
      (all.filter (fun e => e.1 = i + 1)).flatMap (fun e => List.replicate (2 ^ i) (e.2, m - i))) }

/-- Weights from two interleaved FSE states, until the stream has no bits for the next state. -/
def hufWeights (t : Fse) : Nat → Nat → Nat → BackBits → List Nat
  | 0, _, _, _ => []
  | f + 1, a, b, s =>
    match t.next a s with
    | none => [(t.cell a).sym, (t.cell b).sym]
    | some (a1, s1) => (t.cell a).sym :: hufWeights t f b a1 s1

/-- A tree description (RFC 8878): the table, and the bytes that it takes. -/
def hufDescribed (b : List Byte) : Option (Huf × Nat) :=
  match b with
  | [] => none
  | h :: r =>
    let k := h.toNat
    if 128 ≤ k then
      let n := k - 127
      if r.length < (n + 1) / 2 then none else
      (hufBuild ((List.range n).map (fun i => bitsOf (fieldAt r (i / 2) 1) (if i % 2 = 0 then 4 else 0) 4))).map (fun t => (t, 1 + (n + 1) / 2))
    else if r.length < k then none
    else match fseDescribed (r.take k) 6 255 with
      | none => none
      | some (t, d) => match backBits ((r.take k).drop d) with
        | none => none
        | some s => match s.take t.log with
          | none => none
          | some (x, s1) => match s1.take t.log with
            | none => none
            | some (y, s2) => (hufBuild (hufWeights t 256 x y s2)).map (fun q => (q, 1 + k))

/-- `n` symbols of a stream, which they must use up. -/
def hufStream (t : Huf) : Nat → BackBits → Option (List Byte)
  | 0, s => if s.left = 0 then some [] else none
  | n + 1, s =>
    let c := t.cells.getD (s.peek t.bits) (0, 0)
    match s.take c.2 with
    | none => none
    | some (_, s1) => (hufStream t n s1).map (fun l => BitVec.ofNat 8 c.1 :: l)

/-- `n` symbols of the stream in bytes. -/
def hufBytes (t : Huf) (n : Nat) (b : List Byte) : Option (List Byte) := (backBits b).bind (hufStream t n)

/-! ### Blocks -/

/-- What the blocks of a frame hand on: the output, newest byte first, the tables, the last three offsets. -/
structure Zst where
  out : List Byte
  huf : Option Huf
  ll : Option Fse
  off : Option Fse
  ml : Option Fse
  reps : Nat × Nat × Nat
  deriving DecidableEq, Repr

/-- The literals section (RFC 8878): the literals, the tree, the bytes that it takes. -/
def zstdLiterals (b : List Byte) (h : Option Huf) : Option (List Byte × Option Huf × Nat) :=
  let n := leNat (b.take 5)
  let sf := bitsOf n 2 2
  let type := bitsOf n 0 2
  if type ≤ 1 then
    let q : Nat × Nat := if sf % 2 = 0 then (1, bitsOf n 3 5) else if sf = 1 then (2, bitsOf n 4 12) else (3, bitsOf n 4 20)
    if type = 0 then (if b.length < q.1 + q.2 then none else some ((b.drop q.1).take q.2, h, q.1 + q.2))
    else if b.length < q.1 + 1 then none else some (List.replicate q.2 (b.getD q.1 0), h, q.1 + 1)
  else
    let w := if sf ≤ 1 then 10 else if sf = 2 then 14 else 18
    let hd := if sf ≤ 1 then 3 else sf + 2
    let size := bitsOf n 4 w
    let comp := bitsOf n (4 + w) w
    let body := (b.drop hd).take comp
    if body.length < comp then none else
    match (if type = 2 then hufDescribed body else h.map (fun t => (t, 0))) with
    | none => none
    | some (t, d) =>
      let r := body.drop d
      let lits : Option (List Byte) :=
        if sf = 0 then hufBytes t size r
        else if r.length < 6 then none
        else
          let a := fieldAt r 0 2
          let c := fieldAt r 2 2
          let e := fieldAt r 4 2
          let q := (size + 3) / 4
          let s := r.drop 6
          if s.length < a + c + e ∨ size < 3 * q then none else
          match hufBytes t q (s.take a), hufBytes t q ((s.drop a).take c), hufBytes t q ((s.drop (a + c)).take e),
              hufBytes t (size - 3 * q) (s.drop (a + c + e)) with
          | some w, some x, some y, some z => some (w ++ x ++ y ++ z)
          | _, _, _, _ => none
      lits.map (fun l => (l, some t, hd + comp))

/-- Base and extra bits of a literals length and of a match length, by code. -/
def llCode (c : Nat) : Nat × Nat :=
  if c < 16 then (c, 0)
  else ([(16, 1), (18, 1), (20, 1), (22, 1), (24, 2), (28, 2), (32, 3), (40, 3), (48, 4), (64, 6), (128, 7), (256, 8), (512, 9),
    (1024, 10), (2048, 11), (4096, 12), (8192, 13), (16384, 14), (32768, 15), (65536, 16)] : List (Nat × Nat)).getD (c - 16) (0, 0)
def mlCode (c : Nat) : Nat × Nat :=
  if c < 32 then (c + 3, 0)
  else ([(35, 1), (37, 1), (39, 1), (41, 1), (43, 2), (47, 2), (51, 3), (59, 3), (67, 4), (83, 4), (99, 5), (131, 7), (259, 8),
    (515, 9), (1027, 10), (2051, 11), (4099, 12), (8195, 13), (16387, 14), (32771, 15), (65539, 16)] : List (Nat × Nat)).getD
      (c - 32) (0, 0)

/-- The predefined distributions. -/
def llProbs : List Int :=
  [4, 3, 2, 2, 2, 2, 2, 2, 2, 2, 2, 2, 2, 1, 1, 1, 2, 2, 2, 2, 2, 2, 2, 2, 2, 3, 2, 1, 1, 1, 1, 1, -1, -1, -1, -1]
def mlProbs : List Int :=
  [1, 4, 3, 2, 2, 2, 2, 2, 2, 1, 1, 1, 1, 1, 1, 1, 1, 1, 1, 1, 1, 1, 1, 1, 1, 1, 1, 1, 1, 1, 1, 1, 1, 1, 1, 1, 1, 1, 1,
  1, 1, 1, 1, 1, 1, 1, -1, -1, -1, -1, -1, -1, -1]
def offProbs : List Int :=
  [1, 1, 1, 1, 1, 1, 2, 2, 2, 1, 1, 1, 1, 1, 1, 1, 1, 1, 1, 1, 1, 1, 1, 1, -1, -1, -1, -1, -1]

/-- A table of the sequences section by its mode: predefined, one symbol, described, repeated; and the bytes that it takes. -/
def seqTable (mode : Nat) (b : List Byte) (log maxLog maxSym : Nat) (probs : List Int) (old : Option Fse) : Option (Fse × Nat) :=
  match mode with
  | 0 => some (fseBuild log probs, 0)
  | 1 => match b with
    | [] => none
    | x :: _ => if maxSym < x.toNat then none else some ({ log := 0, cells := [{ sym := x.toNat, bits := 0, base := 0 }] }, 1)
  | 2 => fseDescribed b maxLog maxSym
  | _ => old.map (fun t => (t, 0))

/-- The offset that a value names, by the last three and whether the literals length is 0; and the last three after it. -/
def zstdOffset (v : Nat) (noLit : Bool) (r : Nat × Nat × Nat) : Nat × (Nat × Nat × Nat) :=
  if 3 < v then (v - 3, (v - 3, r.1, r.2.1))
  else
    match v - 1 + b2n noLit with
    | 0 => (r.1, r)
    | 1 => (r.2.1, (r.2.1, r.1, r.2.2))
    | 2 => (r.2.2, (r.2.2, r.1, r.2.1))
    | _ => (r.1 - 1, (r.1 - 1, r.1, r.2.1))

/-- Copy a match of `n` bytes at an offset: bytes may be copied that the copy has written. -/
def zstdMatch (off : Nat) : Nat → List Byte → List Byte
  | 0, out => out
  | n + 1, out => zstdMatch off n (out.getD (off - 1) 0 :: out)

/-- Decode and carry out `n` sequences: the states of the three tables, the literals that are left.
(PRESUMED: log 161.) -/
def zstdSeqs (window : Nat) (tl tf tm : Fse) : Nat → Nat → Nat → Nat → BackBits → List Byte → Zst → Option Zst
  | 0, _, _, _, s, lits, z => if s.left = 0 then some { z with out := lits.reverse ++ z.out } else none
  | n + 1, a, b, c, s, lits, z =>
    let oc := (tf.cell b).sym
    let mc := mlCode (tm.cell c).sym
    let lc := llCode (tl.cell a).sym
    (s.take oc).bind (fun (ov, s1) => (s1.take mc.2).bind (fun (mv, s2) => (s2.take lc.2).bind (fun (lv, s3) =>
      let ll := lc.1 + lv
      let o := zstdOffset (2 ^ oc + ov) (ll = 0) z.reps
      let out := (lits.take ll).reverse ++ z.out
      if lits.length < ll ∨ o.1 = 0 ∨ out.length < o.1 ∨ window < o.1 then none else
      let z1 := { z with out := zstdMatch o.1 (mc.1 + mv) out, reps := o.2 }
      if n = 0 then zstdSeqs window tl tf tm n a b c s3 (lits.drop ll) z1
      else (tl.next a s3).bind (fun (a1, s4) => (tm.next c s4).bind (fun (c1, s5) => (tf.next b s5).bind (fun (b1, s6) =>
        zstdSeqs window tl tf tm n a1 b1 c1 s6 (lits.drop ll) z1))))))

/-- The sequences section, carried out over the literals. -/
def zstdSequences (window : Nat) (b lits : List Byte) (z : Zst) : Option Zst :=
  let h := fieldAt b 0 1
  let q : Nat × Nat := if h < 128 then (h, 1) else if h < 255 then ((h - 128) * 256 + fieldAt b 1 1, 2) else (fieldAt b 1 2 + 0x7F00, 3)
  if b.length < q.2 then none
  else if q.1 = 0 then (if b.length = q.2 then some { z with out := lits.reverse ++ z.out } else none)
  else
    let m := fieldAt b q.2 1
    let b0 := b.drop (q.2 + 1)
    if b.length ≤ q.2 ∨ bitsOf m 0 2 ≠ 0 then none else
    (seqTable (bitsOf m 6 2) b0 6 9 35 llProbs z.ll).bind (fun (tl, n1) =>
      (seqTable (bitsOf m 4 2) (b0.drop n1) 5 8 31 offProbs z.off).bind (fun (tf, n2) =>
        (seqTable (bitsOf m 2 2) (b0.drop (n1 + n2)) 6 9 52 mlProbs z.ml).bind (fun (tm, n3) =>
          (backBits (b0.drop (n1 + n2 + n3))).bind (fun s =>
            (s.take tl.log).bind (fun (a, s1) => (s1.take tf.log).bind (fun (o, s2) => (s2.take tm.log).bind (fun (c, s3) =>
              zstdSeqs window tl tf tm q.1 a o c s3 lits { z with ll := some tl, off := some tf, ml := some tm })))))))

/-- A compressed block. -/
def zstdBlock (window : Nat) (b : List Byte) (z : Zst) : Option Zst :=
  (zstdLiterals b z.huf).bind (fun (lits, h, n) => zstdSequences window (b.drop n) lits { z with huf := h })

/-- The blocks of a frame in bytes, up to the last, which must end them; `cap` is the most that a block may hold.
(PRESUMED: log 161.) -/
def zstdBlocks (window cap : Nat) : Nat → List Byte → Zst → Option Zst
  | 0, _, _ => none
  | f + 1, b, z =>
    let h := fieldAt b 0 3
    let n := bitsOf h 3 21
    let len := if bitsOf h 1 2 = 1 then 1 else n
    let body := (b.drop 3).take len
    let r := b.drop (3 + len)
    if b.length < 3 ∨ body.length < len ∨ cap < n then none else
    let z1 : Option Zst := match bitsOf h 1 2 with
      | 0 => some { z with out := body.reverse ++ z.out }
      | 1 => some { z with out := List.replicate n (body.getD 0 0) ++ z.out }
      | 2 => zstdBlock window body z
      | _ => none
    z1.bind (fun y =>
      if cap < y.out.length - z.out.length then none
      else if bitOf h 0 then (if r = [] then some y else none) else zstdBlocks window cap f r y)

/-! ### Frames (R261) -/

/-- Bytes of the Frame_Content_Size field by the header's descriptor. -/
def fcsBytes (d : Nat) : Nat :=
  match bitsOf d 6 2 with | 0 => b2n (bitOf d 5) | 1 => 2 | 2 => 4 | _ => 8

/-- The content size that a frame states; none where it states none. -/
def frameSize? (f : List Byte) : Option Nat :=
  let d := fieldAt f 4 1
  let o := if bitOf d 5 then 5 else 6
  match fcsBytes d with | 0 => none | 2 => some (fieldAt f o 2 + 256) | k => some (fieldAt f o k)

/-- The window of a frame, from its header descriptor (RFC 8878): the content size of a single segment, else the window
descriptor's. -/
def frameWindow (f : List Byte) : Nat :=
  if bitOf (fieldAt f 4 1) 5 then (frameSize? f).getD 0
  else
    let w := fieldAt f 5 1
    2 ^ (10 + w / 8) + 2 ^ (10 + w / 8) / 8 * (w % 8)

/-- The content of a frame's blocks by RFC 8878, where they decode and fill the size that it states.
(PRESUMED: log 161.) -/
def frameBlocks (f : List Byte) : Option (List Byte) :=
  let d := fieldAt f 4 1
  let h := (if bitOf d 5 then 5 else 6) + fcsBytes d
  let b := (f.take (f.length - 4)).drop h
  let w := frameWindow f
  match zstdBlocks w (min w 0x20000) (b.length + 1) b { out := [], huf := none, ll := none, off := none, ml := none, reps := (1, 4, 8) } with
  | none => none
  | some z => if (match frameSize? f with | some n => decide (z.out.length = n) | none => true) then some z.out.reverse else none

/-- The content of a frame that meets R261, for a chunk of `n` bytes.
(DEDUCED: log 72.) -/
def frameContent (f : List Byte) (n : Nat) : Option (List Byte) :=
  let d := fieldAt f 4 1
  if f.length < 9 ∨ fieldAt f 0 4 ≠ 0xFD2FB528 ∨ bitOf d 3 ∨ bitOf d 2 = false ∨ bitsOf d 0 2 ≠ 0 ∨ 0x800000 < frameWindow f then none
  else match frameBlocks f with
    | none => none
    | some c => if c.length = n ∧ fieldAt f (f.length - 4) 4 = (xxh64 c).toNat % 2 ^ 32 then some c else none

/-- Raw blocks that hold bytes, of at most 128 KiB each. -/
def rawBlocks : Nat → List Byte → List Byte
  | 0, _ => []
  | k + 1, b =>
    let last : Bool := b.length ≤ 0x20000
    let c := b.take 0x20000
    leBytes 3 (c.length * 8 + b2n last) ++ c ++ (if last then [] else rawBlocks k (b.drop 0x20000))

/-- The frame of a chunk with given blocks (R261): Single_Segment_Flag 1, a Frame_Content_Size of the chunk's length, no
Dictionary_ID, a Content_Checksum. `k` asks for a wider size field.
(DEDUCED: log 72.) -/
def frameOf (c : List Byte) (k : Fin 4) (blocks : List Byte) : List Byte :=
  let n := c.length
  let flag := if 2 ≤ k.val then k.val else if n < 256 then 0 else if n < 65792 then 1 else 2
  let fcs := match flag with | 0 => leBytes 1 n | 1 => leBytes 2 (n - 256) | 2 => leBytes 4 n | _ => leBytes 8 n
  leBytes 4 0xFD2FB528 ++ leBytes 1 (flag * 64 + 0x24) ++ fcs ++ blocks ++ leBytes 4 ((xxh64 c).toNat % 2 ^ 32)

/-- The frame that the device writes for a chunk (R261): a fixed function of the chunk and SPLIT, whose blocks the spec leaves to the
encoder, of those that decode to the chunk.
(DEDUCED: log 72.) -/
def zstdFrame (c : List Byte) (split : Nat) : List Byte :=
  let e := Config.zstdEncode c split
  let f := frameOf c e.1 e.2
  if frameContent f c.length = some c then f else frameOf c e.1 (rawBlocks 64 c)

end Sys2Proof.Machine
end

