-- ==== Sys2Proof/Machine/Ckp.lean ====
section
/-! DEFINITION. The checkpoint unit (R244 to R275): accepting a sheaf, copy-before-write, shards, the manifest, automatic
sheaves, restore. -/

namespace Sys2Proof.Machine

open Sys2Proof

/-! ### The sheaf descriptor (R244 to R246) -/

/-- A region entry of 48 bytes. -/
def parseRegion (b : List Byte) : SheafRegion :=
  { addr := fieldAt b 0 8, len := fieldAt b 8 8, kind := fieldAt b 16 1, split := fieldAt b 17 1, role := fieldAt b 18 2,
    vrank := fieldAt b 20 4, tensor := fieldAt b 24 2, shards := fieldAt b 28 4, reuseTab := fieldAt b 32 8 }

/-- Chunks of a region, chunks of a shard, shards of a region (R259). -/
def chunkBytes : Nat := 0x400000
def shardChunks (log2 : Nat) : Nat := 2 ^ (log2 - 22)
def SheafRegion.count (r : SheafRegion) (log2 : Nat) : Nat :=
  if r.kind = 1 then r.shards else ceilDiv (ceilDiv r.len chunkBytes) (shardChunks log2)

/-- Is a range in populated GDDR7 or CXL memory? -/
def State.inDevMem (s : State) (a n : Nat) : Bool :=
  match s.region? a n with | some .gddr => true | some (.cxl _) => true | _ => false

/-- Does a range meet neither the reserve nor the work area, of those that are set (R246)?
(DEDUCED: log 73.) -/
def State.offReserve (s : State) (a n : Nat) : Bool :=
  (s.fld fCKP_RES_BASE_BASE = 0 || !spansMeet a n (s.fld fCKP_RES_BASE_BASE) 0x40000000) &&
    (s.fld fCKP_WORK_BASE_BASE = 0 || !spansMeet a n (s.fld fCKP_WORK_BASE_BASE) 0x2000000)

/-- Are the regions of a sheaf as R246 gives?
(DEDUCED: log 73.) -/
def State.regionsOk (s : State) (l : List SheafRegion) (raw : List (List Byte)) (log2 : Nat) : Bool :=
  let copies := l.filter (fun r => r.kind = 0)
  l.all (fun r => decide (r.kind ≤ 1) && (r.split = 1 || r.split = 2 || r.split = 4) && decide (64 ≤ r.len) &&
      (if r.kind = 0 then r.shards = 0 && r.addr % 64 = 0 && r.len % 64 = 0 && s.inDevMem r.addr r.len &&
          s.offReserve r.addr r.len
        else (s.region? r.reuseTab (80 * r.shards)).isSome)) &&
    raw.all (fun b => fieldAt b 26 2 = 0 && fieldAt b 40 8 = 0) &&
    decide (copies.Pairwise (fun x y => spansMeet x.addr x.len y.addr y.len = false)) &&
    decide ((l.map (fun r => r.count log2)).sum ≤ 65536)

/-- Bytes of a manifest, CRC and signature included (R267). -/
def manBytes (regions shards : Nat) : Nat := 0x200 + 64 * regions + 80 * shards + 4 + 64

/-- Does a destination range lie where its kind says (R245)?
(DEDUCED: log 73.) -/
def State.destOk (s : State) (kind a n : Nat) : Bool :=
  match s.region? a n, kind with
  | _, 3 => true
  | some (.host _), 1 => true
  | some (.cxl _), 2 => true
  | _, _ => false

/-- Read the sheaf descriptor at an address, or the status it gives. `k` is the number of an automatic sheaf (R253). -/
def State.readSheaf (s : State) (a : Nat) (cmd : Option Nat) (trigger : Nat) (k : Option Nat) : Acc Sheaf :=
  if a % 64 ≠ 0 then .fail .invalidField else
  (s.partRead 0 a 128).bind (fun b =>
    let n := fieldAt b 4 2
    let log2 := fieldAt b 7 1
    let altOk : Bool := fieldAt b 0x40 8 ≠ 0 && fieldAt b 0x48 8 ≠ 0
    let alt : Bool := match k with | some j => j % 2 = 1 && altOk | none => false
    let base := if alt then fieldAt b 0x40 8 else fieldAt b 0x18 8
    let man := if alt then fieldAt b 0x48 8 else fieldAt b 0x28 8
    let kind := fieldAt b 0x14 1
    if fieldAt b 0 2 ≠ 1 then .fail .versionMismatch
    else if 2 ≤ fieldAt b 2 2 ∨ n = 0 ∨ 4096 < n ∨ fieldAt b 6 1 = 0 ∨ 100 < fieldAt b 6 1 ∨ log2 < 22 ∨ 36 < log2 ∨ fieldAt b 8 8 = 0 ∨
        kind = 0 ∨ 3 < kind ∨ (kind ≠ 3 ∧ fieldAt b 0x15 1 ≠ 0) ∨ fieldAt b 0x16 2 ≠ 0 ∨ base % 4096 ≠ 0 ∨ man % 4096 ≠ 0 ∨
        (b.drop 0x50).any (fun x => x ≠ 0) then .fail .invalidField
    else (s.partRead 0 (fieldAt b 0x30 8) (48 * n)).bind (fun t =>
      let raw := (List.range n).map (fun i => (t.drop (48 * i)).take 48)
      let l := raw.map parseRegion
      let shards := (l.map (fun r => r.count log2)).sum
      if s.regionsOk l raw log2 = false ∨ s.destOk kind base (fieldAt b 0x20 8) = false ∨ s.destOk kind man (manBytes n shards) = false ∨
          (fieldAt b 0x38 8 ≠ 0 ∧ (s.region? (fieldAt b 0x38 8) 256).isNone) then .fail .invalidField
      else .ok { cmd := cmd, trigger := trigger, shardLog2 := log2, id := (fieldAt b 8 8 + k.getD 0) % 2 ^ 64,
                 stepHint := fieldAt b 0x10 4, destKind := kind, share := fieldAt b 6 1, target := fieldAt b 0x15 1, destBase := base,
                 destLimit := fieldAt b 0x20 8, manLoc := man, userAddr := fieldAt b 0x38 8, regions := l, snap := none, saved := [],
                 captured := [], slots := [], diverting := [], next := 0, pos := 0, entries := [] }))

/-- IMMEDIATE of the descriptor at an address. -/
def State.sheafNow (s : State) (a : Nat) : Bool := bitOf (s.readN (a + 2) 2) 0

/-- Open a sheaf (R248, R249): it waits for a commit, or takes its snapshot at once. -/
def State.openSheaf (s : State) (x : Sheaf) (now : Bool) : State :=
  let s1 := ((s.setSheaf x).setFld fCKP_SHEAF_ID_ID x.id).setFld fCKP_STATE_AUTO (if x.cmd.isNone then 1 else 0)
  if s.run = 1 ∧ now = false then s1.setFld fCKP_STATE_PHASE 1 else s1.snapshot x x.stepHint

/-- SHEAF (R244, R248). -/
def execSheaf (id : Nat) (s : State) : Host.Outcome State Fault Refusal := s.onCmd id 0x11 (fun c =>
  if s.ckp.sheaf.bind (fun x => x.cmd) = some id then s
  else if c.clean [at8 0 0 64] = false then s.endCmd id .invalidField
  else match s.readSheaf (c.f 0 8) (some id) 0 none with
    | .wait l => s.waitCmd id l
    | .fail st => s.endCmd id st
    | .ok x =>
      if s.fld fCKP_RES_BASE_BASE = 0 ∨ s.fld fCKP_WORK_BASE_BASE = 0 then s.endCmd id .invalidState
      else if s.ckpPhase ≠ 0 then s.endCmd id .busy
      else s.openSheaf x (s.sheafNow (c.f 0 8)))

/-! ### Copy-before-write (R254 to R258) -/

/-- The address of a reserve slot. -/
def State.slotAddr (s : State) (k : Nat) : Nat := s.fld fCKP_RES_BASE_BASE + k * granuleBytes

/-- The status of a read of a granule for the sheaf: what the row says, else that of the memory. -/
def State.granuleSt (s : State) (g : Nat) (st : Status) : Status := if st ≠ .ok then st else s.accessSt (g * granuleBytes) granuleBytes

/-- A source read fails (R252): an uncorrectable error is recorded where it is met, and the sheaf is abandoned with cause DATA.
(DEDUCED: log 78.) -/
def State.sourceFail (s : State) (g : Nat) (st : Status) (line : Fin 1024) : State :=
  (if st = .dataError then s.eccAt (g * granuleBytes + 64 * line.val) .ue else s).abandon 4

/-- A diversion ends (R255): the granule's old bytes lie in the slot, the granule is SAVED, held writes proceed. `st` and `line` say
what the read of the granule finds: an uncorrectable error, poison or TARGET_RESET abandons the sheaf (R252).
(DESIGN CHOICE: log 70; DEDUCED: log 78.) -/
def execDiversionComplete (g : Nat) (st : Status) (line : Fin 1024) (s : State) : Host.Outcome State Fault Refusal :=
  match s.ckp.sheaf with
  | none => .next s
  | some x =>
    match alook g x.diverting with
    | none => .next s
    | some k =>
      if s.granuleSt g st ≠ .ok then .next (s.sourceFail g (s.granuleSt g st) line)
      else
        let s1 := s.setBytes (s.slotAddr k) (s.bytes (g * granuleBytes) granuleBytes)
        let x1 := { x with diverting := adel g x.diverting, slots := x.slots ++ [(k, g)], saved := g :: x.saved }
        .next (((s1.setSheaf x1).showTotal x1).count fCKP_DIVERT_COUNT 1).release

/-- A slot frees once its granule has been compressed (R255), and a write that waits for a diversion goes on (R256). -/
def execReserveSlotFree (k : Nat) (s : State) : Host.Outcome State Fault Refusal :=
  match s.ckp.sheaf with
  | none => .next s
  | some x =>
    match alook k x.slots with
    | none => .next s
    | some g =>
      if (alook g x.captured).isNone then .next s
      else
        let x1 := { x with slots := adel k x.slots }
        .next ((s.setSheaf x1).showSlots x1).release

/-- The sown stall count of the epoch reaches the allowance (R256), once it does: the sheaf is abandoned.
(DEDUCED: log 71.) -/
def execSheafStallLimit (s : State) : Host.Outcome State Fault Refusal :=
  match s.ckp.stallFrom, s.sch.epoch with
  | some f, some e =>
    let limit := e.lenPaced * s.fld fCKP_CFG_MARGIN_PCT / 100
    let last := f + (limit - s.ckp.stallSlots) - 1
    if e.opened + 8 * e.lenPaced ≤ 8 * last then .next s else .next ((s.atTb (8 * last)).abandon 1)
  | _, _ => .next s

/-- Input bytes of COPY regions in a granule. -/
def Sheaf.bytesIn (x : Sheaf) (g : Nat) : Nat :=
  (x.regions.map (fun r => if r.kind = 0 then min (r.addr + r.len) ((g + 1) * granuleBytes) - max r.addr (g * granuleBytes) else 0)).sum

/-- The background copy reads a granule (R254, R255): from the reserve before any from memory. `st` and `line` say what the
read finds: an uncorrectable error, poison or TARGET_RESET abandons the sheaf with cause DATA (R252).
(DEDUCED: log 78.) -/
def execGranuleBackgroundRead (g : Nat) (st : Status) (line : Fin 1024) (s : State) : Host.Outcome State Fault Refusal :=
  match s.ckp.sheaf with
  | none => .next s
  | some x =>
    let inRes := x.slots.find? (fun e => e.2 = g)
    let owed : Bool := x.slots.any (fun e => (alook e.2 x.captured).isNone)
    if x.snap.isNone ∨ x.covers g = false ∨ (alook g x.captured).isSome ∨ (alook g x.diverting).isSome ∨ (owed ∧ inRes = none) then .next s
    else if s.granuleSt g st ≠ .ok then .next (s.sourceFail g (s.granuleSt g st) line)
    else
      let b := match inRes with
        | some e => s.bytes (s.slotAddr e.1) granuleBytes
        | none => s.bytes (g * granuleBytes) granuleBytes
      let x1 := { x with captured := x.captured ++ [(g, b)], saved := if x.saved.contains g then x.saved else g :: x.saved }
      .next (((s.setSheaf x1).showTotal x1).setFld fCKP_DONE_BYTES (s.fld fCKP_DONE_BYTES + x.bytesIn g)).release

/-! ### Shards (R259 to R265) -/

/-- The shards of the COPY regions, in order: region, index, offset of the first byte, input bytes. -/
def Sheaf.shardList (x : Sheaf) : List (Nat × Nat × Nat × Nat) :=
  (x.regions.zip (List.range x.regions.length)).flatMap (fun r =>
    if r.1.kind = 0 then (List.range (r.1.count x.shardLog2)).map (fun i =>
      let o := i * shardChunks x.shardLog2 * chunkBytes
      (r.2, i, o, min (r.1.len - o) (shardChunks x.shardLog2 * chunkBytes)))
    else [])

/-- Have all granules of `n` bytes at `a` been captured? -/
def Sheaf.has (x : Sheaf) (a n : Nat) : Bool := (granules a n).all (fun g => (alook g x.captured).isSome)

/-- The captured bytes of a range. -/
def Sheaf.image (x : Sheaf) (a n : Nat) : List Byte :=
  (((granules a n).flatMap (fun g => (alook g x.captured).getD [])).drop (a % granuleBytes)).take n

/-- The byte-plane transform of a chunk (R260), and its inverse. -/
def splitPlanes (w : Nat) (b : List Byte) : List Byte :=
  (List.range w).flatMap (fun p => (List.range (b.length / w)).map (fun i => b.getD (i * w + p) 0))
def joinPlanes (w : Nat) (b : List Byte) : List Byte :=
  let e := b.length / w
  (List.range e).flatMap (fun i => (List.range w).map (fun p => b.getD (p * e + i) 0))

/-- Cut bytes into chunks of 4 MiB, at most `n`. -/
def cutChunks : Nat → List Byte → List (List Byte)
  | 0, _ => []
  | n + 1, b => if b = [] then [] else b.take chunkBytes :: cutChunks n (b.drop chunkBytes)

/-- The bytes of a shard (R262): header, chunk table, frames. -/
def shardBytes (x : Sheaf) (step : Nat) (ri idx ofs n : Nat) (r : SheafRegion) : List Byte :=
  let cs := cutChunks (ceilDiv n chunkBytes) (x.image (r.addr + ofs) n)
  let fs := cs.map (fun c => (zstdFrame (splitPlanes r.split c) r.split, c.length))
  leBytes 4 0x44524853 ++ leBytes 2 1 ++ leBytes 1 r.split ++ leBytes 1 0 ++ leBytes 8 x.id ++ leBytes 4 step ++ leBytes 2 ri ++
    leBytes 2 0 ++ leBytes 4 idx ++ leBytes 4 cs.length ++ leBytes 8 ofs ++ leBytes 8 n ++ leBytes 4 r.vrank ++ leBytes 2 r.tensor ++
    leBytes 2 r.role ++ List.replicate 72 0 ++ fs.flatMap (fun f => leBytes 4 f.1.length ++ leBytes 4 f.2) ++ fs.flatMap Prod.fst

/-- A shard-table entry (R267).
(DEDUCED: log 73.) -/
def shardEntry (x : Sheaf) (step ri idx loc : Nat) (b : List Byte) : List Byte :=
  leBytes 2 ri ++ leBytes 2 0 ++ leBytes 4 idx ++ leBytes 4 step ++ leBytes 1 x.target ++ leBytes 1 x.destKind ++ leBytes 2 0 ++
    leBytes 8 x.id ++ leBytes 8 b.length ++ leBytes 8 loc ++ leBytes 8 0 ++ sha256 b

/-- Does a write to the destination meet an error of its memory? -/
def State.destFails (s : State) (x : Sheaf) (loc n : Nat) : Bool := x.destKind ≠ 3 && s.accessSt loc n ≠ .ok

/-- The next shard is written, once its granules are captured (R263): SPACE where it would pass the limit, DEST where the
write fails. -/
def execShardWriteDone (ok : Bool) (s : State) : Host.Outcome State Fault Refusal :=
  match s.ckp.sheaf with
  | none => .next s
  | some x =>
    match x.snap, x.shardList[x.next]? with
    | some n, some (ri, idx, ofs, len) =>
      match x.regions[ri]? with
      | none => .next s
      | some r =>
        if s.ckpPhase ≠ 2 ∨ x.has (r.addr + ofs) len = false then .next s
        else
          let b := shardBytes x n.step ri idx ofs len r
          let p := ceilTo x.pos 4096
          if x.destLimit < p + b.length then .next (s.abandon 3)
          else if ok = false ∨ s.destFails x (x.destBase + x.pos) (p - x.pos + b.length) then .next (s.abandon 2)
          else
            let x1 := { x with next := x.next + 1, pos := p + b.length,
                               entries := x.entries ++ [(ri, shardEntry x n.step ri idx (x.destBase + p) b)] }
            .next (((s.setSheaf x1).showTotal x1).destWrite x1 (x.destBase + x.pos) (List.replicate (p - x.pos) 0 ++ b))
    | _, _ => .next s

/-- Every shard is durable (R265): a namespace is flushed, and the phase is SEALING. -/
def execSheafShardsDurable (ok : Bool) (s : State) : Host.Outcome State Fault Refusal :=
  match s.ckp.sheaf with
  | none => .next s
  | some x =>
    if s.ckpPhase ≠ 2 ∨ x.next < x.shardList.length then .next s
    else
      let s1 := if x.destKind = 3 then s.nsPiece x.target (.nsFlush x.target) else s
      .next (if ok then s1.setFld fCKP_STATE_PHASE 3 else s1.abandon 2)

/-- The region-table entries (R267), from shard `first` on. -/
def regionTable (x : Sheaf) : List SheafRegion → Nat → List Byte
  | [], _ => []
  | r :: l, first =>
    let n := r.count x.shardLog2
    leBytes 8 r.addr ++ leBytes 8 r.len ++ leBytes 1 r.kind ++ leBytes 1 r.split ++ leBytes 2 r.role ++ leBytes 4 r.vrank ++
      leBytes 2 r.tensor ++ leBytes 2 0 ++ leBytes 4 first ++ leBytes 4 n ++ List.replicate 28 0 ++ regionTable x l (first + n)

/-- The manifest but for its signature (R267): header, USER record, region table, shard table, CRC.
(DEDUCED: log 73.) -/
def manifestBody (x : Sheaf) (n : Snap) (signer : List Byte) : List Byte :=
  let e := (List.range x.regions.length).flatMap (fun i => x.entries.filterMap (fun y => if y.1 = i then some y.2 else none))
  let b := manHeader x n 2 e.length (manBytes x.regions.length e.length) signer ++ n.user ++ regionTable x x.regions 0 ++ e.flatten
  b ++ leBytes 4 (crc32c b).toNat

/-- The signed manifest is durable, and the sheaf commits (R267, R268). Signing waits while the security processor restarts
(R251). -/
def execManifestDurable (ok : Bool) (s : State) : Host.Outcome State Fault Refusal :=
  match s.ckp.sheaf with
  | none => .next s
  | some x =>
    match x.snap with
    | none => .next s
    | some n =>
      if s.ckpPhase ≠ 3 ∨ s.fld fLDG_STATE_SEC ≠ 2 then .next s
      else
        let b := manifestBody x n (keyDigest s.sheafPub)
        let r := s.signFree s.sheafPriv b
        if ok = false ∨ s.destFails x x.manLoc (b.length + 64) then .next (r.2.abandon 2)
        else
          let s1 := r.2.destWrite x x.manLoc (b ++ r.1)
          .next ((if x.destKind = 3 then s1.nsPiece x.target (.nsFlush x.target) else s1).endSheaf .ok 0)

/-! ### Abandonment by the operator, configuration, triggers (R252, R253, R275) -/

/-- A write of CKP_CTRL (R275). -/
def State.ckpCtrlWrite (s : State) (v : BitVec 32) : State :=
  if bitsOf v.toNat 16 16 = 0xA55A ∧ bitOf v.toNat 0 then s.abandon 6 else s

def execCkpAbandon (v : BitVec 32) (s : State) : Host.Outcome State Fault Refusal := .next (s.ckpCtrlWrite v)

/-- A trigger starts an automatic sheaf, or is counted as skipped (R253).
(DEDUCED: log 75.) -/
def State.autoSheaf (s : State) (trigger : Nat) (enabled : Bool) : State :=
  let a := s.fld fCKP_AUTO_DESC_ADDR
  let k := s.fld fCKP_AUTO_COUNT_COUNT
  let early : Bool := match s.ckp.lastAuto with
    | some t => s.now < t + s.fld fCKP_CFG_HOLDOFF * secTicks
    | none => false
  let skip := (s.count fCKP_SKIPS_COUNT 1).raise fCKP_ERR_AUTO_SKIP
  if enabled = false ∨ a = 0 ∨ s.ckpPhase ≠ 0 ∨ early ∨ s.fld fCKP_RES_BASE_BASE = 0 ∨ s.fld fCKP_WORK_BASE_BASE = 0 then skip
  else match s.readSheaf a none trigger (some k) with
    | .ok x => ((s.setFld fCKP_AUTO_COUNT_COUNT (k + 1)).setCkp (fun c => { c with lastAuto := some s.now })).openSheaf x (s.sheafNow a)
    | _ => skip

/-- A power or thermal warning (R253).
(DEDUCED: log 75.) -/
def State.warnTrigger (s : State) : State := s.autoSheaf 2 (s.flag fCKP_CFG_WARN_EN)

/-- The count of corrected errors of the window, with `ce` more found in the device, reaches CKP_CE_LIMIT (R253).
(DEDUCED: log 75.) -/
def execCeTrigger (ce : Nat) (s : State) : Host.Outcome State Fault Refusal :=
  let s1 := s.noteCe ce
  let limit := s.fld fCKP_CE_LIMIT_LIMIT
  if limit = 0 ∨ s1.ckp.ceFired ∨ s1.ckp.ceCount < limit then .next s1
  else .next ((s1.setCkp (fun k => { k with ceFired := true })).autoSheaf 1 (s.flag fCKP_CFG_CE_EN))

/-- A window ends, aligned to the time base, and the count restarts (R253).
(DEDUCED: log 75.) -/
def execCeWindowEnd (s : State) : Host.Outcome State Fault Refusal :=
  let w := max 1 (s.fld fCKP_CE_WINDOW_WINDOW) * msTicks
  .next ((s.atTb ((s.sch.tb.toNat / w + 1) * w)).setCkp (fun k => { k with ceCount := 0, ceFired := false }))

/-! ### Restore (R269 to R273) -/

/-- A location entry (R269). -/
structure RLoc where
  kind : Nat
  target : Nat
  loc : Nat
  key : Nat
  deriving DecidableEq, Repr

/-- A restore descriptor (R269). -/
structure RDesc where
  phase : Nat
  locs : List RLoc
  maxStep : Nat
  report : Nat
  place : Nat
  id : Nat
  step : Nat
  deriving DecidableEq, Repr

/-- `n` bytes at a location: of memory, or of what a namespace holds. -/
def State.locBytes (s : State) (ns : List NsPiece) (kind target loc n : Nat) : Option (List Byte) :=
  if kind = 3 then
    (ns.find? (fun p => p.ns = target && p.off ≤ loc && loc + n ≤ p.off + p.data.length)).map (fun p => (p.data.drop (loc - p.off)).take n)
  else if s.destOk kind loc n && s.accessSt loc n = .ok then some (s.bytes loc n) else none

/-- The largest manifest (R267). -/
def manMax : Nat := 5505604

/-- Read a restore descriptor, or the status it gives. -/
def State.readRestore (s : State) (a phase : Nat) : Acc RDesc :=
  if a % 64 ≠ 0 then .fail .invalidField else
  (s.partRead 0 a 128).bind (fun b =>
    let n := fieldAt b 3 1
    if fieldAt b 0 2 ≠ 1 then .fail .versionMismatch
    else if fieldAt b 2 1 ≠ phase ∨ n = 0 ∨ (if phase = 1 then 64 < n else n ≠ 1) ∨ (b.drop 0x2C).any (fun x => x ≠ 0) then .fail .invalidField
    else (s.partRead 0 (fieldAt b 8 8) (32 * n)).bind (fun t =>
      let l := (List.range n).map (fun i => let e := t.drop (32 * i)
        { kind := fieldAt e 0 1, target := fieldAt e 1 1, loc := fieldAt e 8 8, key := fieldAt e 16 8 : RLoc })
      if l.any (fun x => x.kind = 0 || 3 < x.kind || (x.kind ≠ 3 && x.target ≠ 0) || x.loc % 4096 ≠ 0 ||
            (x.key ≠ 0 && (s.region? x.key 64).isNone)) ∨ (phase = 1 ∧ (s.region? (fieldAt b 0x10 8) (4096 + manMax)).isNone) then
        .fail .invalidField
      else .ok { phase := phase, locs := l, maxStep := fieldAt b 4 4, report := fieldAt b 0x10 8, place := fieldAt b 0x18 8,
                 id := fieldAt b 0x20 8, step := fieldAt b 0x28 4 }))

/-- The public key of a location.
(DEDUCED: log 74.) -/
def State.locKey (s : State) (l : RLoc) : Nat × Nat := if l.key = 0 then s.sheafPub else keyOf (s.bytes l.key 64)

/-- The manifest at a location whose header is `h`, when it is authentic (R270). -/
def State.authentic (s : State) (ns : List NsPiece) (l : RLoc) (h : List Byte) : Option (List Byte) :=
  let len := fieldAt h 0x38 8
  if fieldAt h 6 1 ≠ 2 ∨ manMax < len ∨ len ≠ manBytes (fieldAt h 0x32 2) (fieldAt h 0x34 4) then none
  else match s.locBytes ns l.kind l.target l.loc len with
    | none => none
    | some m =>
      let body := m.take (len - 64)
      let q := s.locKey l
      if fieldAt m (len - 68) 4 = (crc32c (m.take (len - 68))).toNat ∧ sigOk q body (m.drop (len - 64)) ∧
          (m.drop 0x40).take 32 = keyDigest q then some m else none

/-- The shard-table entries of a manifest. -/
def manShards (m : List Byte) : List (List Byte) :=
  (List.range (fieldAt m 0x34 4)).map (fun i => (m.drop (0x200 + 64 * fieldAt m 0x32 2 + 80 * i)).take 80)

/-- The header of the shard that an entry names, and whether it matches the entry (R270). -/
def State.shardHead (s : State) (ns : List NsPiece) (e : List Byte) : Option (List Byte) × Bool :=
  let kind := fieldAt e 13 1
  let loc := fieldAt e 32 8
  match s.locBytes ns kind (fieldAt e 12 1) loc 128 with
  | none => (none, false)
  | some h =>
    let n := fieldAt h 0x1C 4
    match s.locBytes ns kind (fieldAt e 12 1) (loc + 128) (8 * n) with
    | none => (some h, false)
    | some t =>
      let sum (o : Nat) : Nat := ((List.range n).map (fun i => fieldAt t (8 * i + o) 4)).sum
      (some h, fieldAt h 8 8 = fieldAt e 16 8 && fieldAt h 0x10 4 = fieldAt e 8 4 && fieldAt h 0x14 2 = fieldAt e 0 2 &&
        fieldAt h 0x18 4 = fieldAt e 4 4 && fieldAt h 0x28 8 = sum 4 && 128 + 8 * n + sum 0 = fieldAt e 24 8)

/-- The shards of a manifest that do not match: how many, and the largest STEP of their headers (R272).
(DEDUCED: log 76.) -/
def State.mismatches (s : State) (ns : List NsPiece) (m : List Byte) : Nat × Nat :=
  let l := ((manShards m).map (s.shardHead ns)).filter (fun x => !x.2)
  (l.length, l.foldl (fun a x => match x.1 with | some h => max a (fieldAt h 0x10 4) | none => a) 0)

/-- What SELECT finds at a location: the outcome so far (R272), its header, its manifest. -/
structure Slot where
  outcome : Nat
  step : Nat
  id : Nat
  tb : Nat
  mismatch : Nat
  newest : Nat
  man : List Byte
  deriving DecidableEq, Repr

/-- A slot before any manifest is examined (R270 steps 1 and 2): 2 where it is authentic. -/
def State.slotOf (s : State) (ns : List NsPiece) (maxStep : Nat) (l : RLoc) : Slot :=
  match s.locBytes ns l.kind l.target l.loc 256 with
  | none => { outcome := 5, step := 0, id := 0, tb := 0, mismatch := 0, newest := 0, man := [] }
  | some h =>
    let base : Slot := { outcome := 5, step := fieldAt h 0x10 4, id := fieldAt h 8 8, tb := fieldAt h 0x20 8, mismatch := 0,
                         newest := 0, man := [] }
    if fieldAt h 0 4 ≠ 0x464E414D then { base with outcome := 0, step := 0, id := 0 }
    else if fieldAt h 4 2 ≠ 1 then { base with outcome := 6 }
    else if fieldAt h 6 1 = 1 then { base with outcome := 4 }
    else match s.authentic ns l h with
      | none => base
      | some m => { base with outcome := if maxStep < base.step then 7 else 2, man := m }

/-- Examine the authentic manifests in order until one is complete (R270 steps 3 to 5): the slots, and the chosen one.
(DEDUCED: log 76.) -/
def State.examine (s : State) (ns : List NsPiece) : List Nat → List Slot → List Slot × Option Nat
  | [], l => (l, none)
  | i :: r, l =>
    match l[i]? with
    | none => s.examine ns r l
    | some x =>
      let q := s.mismatches ns x.man
      if q.1 = 0 then (l.set i { x with outcome := 1 }, some i)
      else s.examine ns r (l.set i { x with outcome := 3, mismatch := min q.1 0xFFFF, newest := q.2 })

/-- The status of a SELECT (R271).
(DEDUCED: log 76.) -/
def selectStatus (l : List Slot) (chosen : Option Nat) : Status × Nat :=
  let has (n : Nat) : Bool := l.any (fun x => x.outcome = n)
  if chosen.isSome then (.ok, 0)
  else if has 3 then (.mixedStep, 0)
  else if has 5 then (.authFail, 0)
  else if has 6 then (.versionMismatch, 0)
  else if has 7 then (.invalidState, 0x3001)
  else (.invalidState, 0x3000)

/-- The SELECT report (R272). -/
def selectReport (l : List Slot) (chosen : Option Nat) : List Byte :=
  let c := chosen.bind (fun i => l[i]?)
  leBytes 2 (statusCode (selectStatus l chosen).1) ++ leBytes 1 (chosen.getD 0xFF) ++ leBytes 1 0 ++
    leBytes 4 ((c.map Slot.step).getD 0) ++ leBytes 8 ((c.map Slot.id).getD 0) ++ leBytes 8 ((c.map (fun x => x.man.length)).getD 0) ++
    leBytes 8 0 ++ l.flatMap (fun x => leBytes 1 x.outcome ++ leBytes 1 0 ++ leBytes 2 x.mismatch ++ leBytes 4 x.step ++ leBytes 8 x.id ++
      leBytes 4 x.newest ++ List.replicate 12 0)

/-- A restore ends. -/
def State.endRestore (s : State) (id : Nat) (st : Status) (detail : Nat) : State :=
  ((s.setCkp (fun k => { k with restore := none, dests := [] })).setFld fCKP_STATE_PHASE 0).endCmd id st detail

/-- The two ends of a restore's row: a command that is not yet accepted is accepted, with its phase (R250), or ends with its
status; one that is accepted is carried out. -/
def State.onRestore (s : State) (id phase : Nat) (dests : RDesc → List (Nat × Nat)) (f : Cmd → RDesc → State) : Host.Outcome State Fault Refusal :=
  s.onCmd id 0x12 (fun c =>
    match (if c.clean [at8 0 0 64] then s.readRestore (c.f 0 8) phase else .fail .invalidField) with
    | .wait l => s.waitCmd id l
    | .fail st => if s.ckp.restore = some id then s.endRestore id st 0 else s.endCmd id st
    | .ok d =>
      if s.ckp.restore = some id then f c d
      else if s.ckpPhase ≠ 0 then s.endCmd id .busy
      else (s.setCkp (fun k => { k with restore := some id, dests := dests d })).setFld fCKP_STATE_PHASE 4)

/-- RESTORE with PHASE SELECT: accepted, then carried out (R270 to R272). `ns` is what the namespaces named hold.
(DEDUCED: log 76.) -/
def execRestoreSelect (id : Nat) (ns : List NsPiece) (s : State) : Host.Outcome State Fault Refusal := s.onRestore id 1 (fun _ => []) (fun _ d =>
  let l := d.locs.map (s.slotOf ns d.maxStep)
  let order := sortBy (fun x y =>
    decide (y.2.step < x.2.step) || (x.2.step = y.2.step && decide (y.2.tb ≤ x.2.tb))) (((List.range l.length).zip l).filter (fun x => x.2.outcome = 2))
  let r := s.examine ns (order.map Prod.fst) l
  let st := selectStatus r.1 r.2
  let s1 := s.devWrite d.report (selectReport r.1 r.2)
  let s2 := match r.2.bind (fun i => r.1[i]?) with | some x => s1.devWrite (d.report + 4096) x.man | none => s1
  s2.endRestore id st.1 st.2)

/-- The input bytes of a shard, or none where a frame is outside R261: its chunks from the table, `n` of them. -/
def shardContent (w : Nat) (b : List Byte) : Nat → Nat → Nat → Option (List Byte)
  | 0, _, _ => some []
  | n + 1, t, o =>
    let fl := fieldAt b t 4
    match frameContent ((b.drop o).take fl) (fieldAt b (t + 4) 4), shardContent w b n (t + 8) (o + fl) with
    | some c, some r => some (joinPlanes w c ++ r)
    | _, _ => none

/-- Place the shards of a LOAD in table order (R273), each at its region's destination; the first failure with its
status and position. -/
def State.loadShards (s : State) (ns : List NsPiece) (dest : Nat → Nat) : List (List Byte) → Nat → Except (Status × Nat) State
  | [], _ => .ok s
  | e :: r, i =>
    let a := dest (fieldAt e 0 2)
    if a = 0 then s.loadShards ns dest r (i + 1)
    else match s.locBytes ns (fieldAt e 13 1) (fieldAt e 12 1) (fieldAt e 32 8) (fieldAt e 24 8) with
      | none => .error (.dataError, i)
      | some b =>
        if sha256 b ≠ (e.drop 48).take 32 then .error (.authFail, i)
        else
          let n := fieldAt b 0x1C 4
          match shardContent (fieldAt b 6 1) b n 128 (128 + 8 * n) with
          | none => .error (.dataError, i)
          | some c => (s.devWrite (a + fieldAt b 0x20 8) c).loadShards ns dest r (i + 1)

/-- A placement destination (R273). -/
def State.placeOk (s : State) (a len : Nat) : Bool :=
  a = 0 || (a % 64 = 0 && (match s.region? a len with
    | some .gddr => true | some (.cxl _) => true | some (.host _) => true | _ => false))

/-- The lengths of the regions of the manifest whose header is `h`. -/
def State.manLens (s : State) (ns : List NsPiece) (l : RLoc) (h : List Byte) : List Nat :=
  let n := min (fieldAt h 0x32 2) 4096
  let rt := (s.locBytes ns l.kind l.target (l.loc + 0x200) (64 * n)).getD []
  (List.range n).map (fun i => fieldAt rt (64 * i + 8) 8)

/-- The ranges that a LOAD places its regions in (R273).
(DEDUCED: log 76.) -/
def State.loadDests (s : State) (ns : List NsPiece) (d : RDesc) : List (Nat × Nat) :=
  match d.locs with
  | [] => []
  | l :: _ => match s.locBytes ns l.kind l.target l.loc 256 with
    | none => []
    | some h =>
      let lens := s.manLens ns l h
      match s.partRead 0 d.place (8 * lens.length) with
      | .ok pt => ((lens.zip (List.range lens.length)).map (fun x => (fieldAt pt (8 * x.2) 8, x.1))).filter
          (fun r => r.1 ≠ 0 && s.placeOk r.1 r.2)
      | _ => []

/-- RESTORE with PHASE LOAD: accepted, then carried out (R273). After a failed shard every destination's contents are
free.
(DEDUCED: log 76.) -/
def execRestoreLoad (id : Nat) (ns : List NsPiece) (s : State) : Host.Outcome State Fault Refusal :=
  s.onRestore id 2 (s.loadDests ns) (fun _ d =>
  match d.locs with
  | [] => s.endRestore id .invalidField 0
  | l :: _ =>
    match s.locBytes ns l.kind l.target l.loc 256 with
    | none => s.endRestore id (if l.kind = 3 then .dataError else .invalidField) 0
    | some h =>
      let lens := s.manLens ns l h
      let n := lens.length
      match s.partRead 0 d.place (8 * n) with
      | .wait w => s.waitCmd id w
      | .fail st => s.endRestore id st 0
      | .ok pt =>
        let dest (i : Nat) : Nat := fieldAt pt (8 * i) 8
        if (List.range n).any (fun i => !s.placeOk (dest i) (lens.getD i 0)) then s.endRestore id .invalidField 0
        else if fieldAt h 4 2 ≠ 1 then s.endRestore id .versionMismatch 0
        else match s.authentic ns l h with
          | none => s.endRestore id .authFail 0
          | some m =>
            if fieldAt m 8 8 ≠ d.id ∨ fieldAt m 0x10 4 ≠ d.step ∨ (s.mismatches ns m).1 ≠ 0 then s.endRestore id .mixedStep 0
            else match s.loadShards ns dest (manShards m) 0 with
              | .ok t => t.endRestore id .ok 0
              | .error (st, i) =>
                ((s.loadDests ns d).foldl (fun t r => t.freeBytes r.1 r.2) s).endRestore id st
                  (0x3000 + i % 2048))

end Sys2Proof.Machine
end

