-- ==== Sys2Proof/Machine/EthParse.lean ====
section
/-! DEFINITION. Parsing and classification of Ethernet frames (R371 to R382): parse programs, graph nodes, the exact and ternary
tables, payload patterns. -/

namespace Sys2Proof.Machine

open Sys2Proof

/-! ### The parse state (R372) -/

/-- What parsing builds: the cursor, registers h0 to h3, the key, the marks and the DSCP. -/
structure PState where
  c : Nat
  h : Fin 4 → Nat
  key : List Byte
  l3 : Option Nat
  l4 : Option Nat
  pay : Option Nat
  dscp : Option Nat

/-- What a DONE asks for (R373). -/
structure PDone where
  kt : Nat
  exact : Bool
  tern : Bool
  isMatch : Bool
  group : Nat

/-- How parsing ends: a DONE, a DROP, an exception (R374). -/
inductive PEnd where
  | done (d : PDone) (p : PState)
  | drop
  | exc

/-- The initial state of a frame on logical port `l`. -/
def PState.start (l : Nat) : PState :=
  { c := 0, h := fun _ => 0, key := BitVec.ofNat 8 (16 * l) :: List.replicate 63 0, l3 := none, l4 := none, pay := none, dscp := none }

/-- `n` bytes of the window at `o`: the frame's first 512 bytes. -/
def window (f : List Byte) (o n : Nat) : Option (List Byte) :=
  if o + n ≤ min f.length 512 then some ((f.drop o).take n) else none

/-- Put bytes into the key. -/
def keyPut (key : List Byte) (o : Nat) (b : List Byte) : List Byte := key.take o ++ b ++ key.drop (o + b.length)

/-- Extract frame bytes into the key; none for an exception. -/
def PState.extract (p : PState) (f : List Byte) (ofs kofs len : Nat) : Option PState :=
  if 64 < kofs + len then none else (window f (p.c + ofs) len).map (fun b => { p with key := keyPut p.key kofs b })

/-- The mark that FIELD names (R373). -/
def PState.mark (p : PState) (field v dscp : Nat) : PState :=
  match field with
  | 0 => { p with l3 := some v }
  | 1 => { p with l4 := some v }
  | 2 => { p with pay := some v }
  | _ => { p with dscp := some (dscp % 64) }

/-- A condition of BR. -/
def brCond (k h imm : Nat) : Option Bool :=
  match k with
  | 0 => some (h = imm)
  | 1 => some (h ≠ imm)
  | 2 => some (h < imm)
  | 3 => some (imm ≤ h)
  | 4 => some (h &&& imm = imm)
  | 5 => some (h &&& imm ≠ 0)
  | _ => none

/-- What one instruction does: the next state and index, an end, or an exception. -/
inductive PStep where
  | go (p : PState) (pc : Nat)
  | stop (e : PEnd)

/-- Are all bits of a word outside the fields (lowest bit, width) and OP 0? -/
def onlyFields (w : Nat) (l : List (Nat × Nat)) : Bool := onlyBits (w % 2 ^ 60) l

/-- Execute one parse instruction (R373, R374). -/
def parseStep (f : List Byte) (w : Nat) (pc : Nat) (p : PState) : PStep :=
  let b (lo n : Nat) : Nat := bitsOf w lo n
  let h (lo : Nat) : Nat := p.h (Fin.ofNat 4 (b lo 2))
  let next (q : PState) : PStep := if 511 < q.c then .stop .exc else .go q ((pc + 1) % 256)
  match b 60 4 with
  | 0 =>
    if onlyFields w [(32, 10), (24, 6), (16, 6)] = false ∨ b 24 6 = 0 ∨ b 16 6 = 0 then .stop .exc
    else match p.extract f (b 32 10) (b 24 6) (b 16 6) with | some q => next q | none => .stop .exc
  | 1 =>
    if onlyFields w [(32, 10), (24, 2), (16, 4), (0, 16)] = false then .stop .exc
    else match window f (p.c + b 32 10) 2 with
      | some x =>
        let v := (beNat x &&& b 0 16) / 2 ^ b 16 4
        next { p with h := fun i => if i = Fin.ofNat 4 (b 24 2) then v else p.h i }
      | none => .stop .exc
  | 2 =>
    if onlyFields w [(52, 8), (24, 4), (16, 2), (0, 16)] = false then .stop .exc
    else match brCond (b 24 4) (h 16) (b 0 16) with
      | some true => .go p (b 52 8)
      | some false => next p
      | none => .stop .exc
  | 3 =>
    if onlyFields w [(32, 10), (24, 2), (16, 3), (12, 1)] = false then .stop .exc
    else next { p with c := p.c + b 32 10 + (if b 12 1 = 1 then h 24 * 2 ^ b 16 3 else 0) }
  | 4 =>
    if onlyFields w [(28, 4), (24, 2), (0, 10)] = false ∨ 3 < b 28 4 then .stop .exc
    else next (p.mark (b 28 4) (p.c + b 0 10) (h 24))
  | 5 =>
    if onlyFields w [(8, 4), (4, 3), (0, 4)] = false then .stop .exc
    else .stop (.done { kt := b 0 4, exact := b 4 1 = 1, tern := b 5 1 = 1, isMatch := b 6 1 = 1, group := b 8 4 } p)
  | 6 => if onlyFields w [(0, 8)] = false then .stop .exc else .stop .drop
  | 7 => if onlyFields w [(52, 8)] = false then .stop .exc else .go p (b 52 8)
  | _ => .stop .exc

/-- Run a parse program: at most 64 instructions (R374).
(DEDUCED: log 112.) -/
def runParse (prog : Nat → Nat) (f : List Byte) : Nat → Nat → PState → PEnd
  | 0, _, _ => .exc
  | n + 1, pc, p =>
    match parseStep f (prog pc) pc p with
    | .go q pc1 => runParse prog f n pc1 q
    | .stop e => e

/-! ### The graph parsers (R375) -/

/-- The selector of a node: none for no selector, an exception where it is too wide or leaves the window. -/
def nodeSel (f : List Byte) (nd : List Byte) (c : Nat) : Option (Option Nat) :=
  let bits := fieldAt nd 2 1
  let sh := fieldAt nd 3 1
  if 24 < bits + sh then none
  else if bits = 0 then some none
  else (window f (c + bitsOf (fieldAt nd 0 2) 0 10) 3).map (fun b => some (beNat b / 2 ^ (24 - (bits + sh)) / 2 ^ sh))

/-- The node chosen next. -/
def nodeNext (nd : List Byte) (sel : Option Nat) : Nat :=
  let n := min (bitsOf (fieldAt nd 0 2) 12 3) 4
  match (List.range n).find? (fun i => sel = some (fieldAt nd (4 + 4 * i) 2)) with
  | some i => bitsOf (fieldAt nd (4 + 4 * i) 4) 16 10
  | none => bitsOf (fieldAt nd 0x14 2) 0 10

/-- Visit a node: extract, mark, select, choose, advance. -/
def nodeVisit (f : List Byte) (nd : List Byte) (p : PState) : PStep :=
  let kofs := bitsOf (fieldAt nd 0x19 1) 0 6
  let fl := fieldAt nd 0x1E 2
  match (if kofs = 0 then some p else p.extract f (bitsOf (fieldAt nd 0x1C 2) 0 10) kofs (bitsOf (fieldAt nd 0x1A 1) 0 6)) with
  | none => .stop .exc
  | some p1 =>
    let m (q : PState) (i : Nat) : PState := if bitOf fl (12 + i) then q.mark i p1.c 0 else q
    let p2 := (List.range 3).foldl m p1
    match nodeSel f nd p2.c with
    | none => .stop .exc
    | some sel =>
      let adv := fieldAt nd 0x18 1
      let c := p2.c + bitsOf (fieldAt nd 0x16 2) 0 10 + (if bitOf adv 4 then sel.getD 0 * 2 ^ bitsOf adv 0 4 else 0)
      if bitOf fl 15 then
        .stop (.done { kt := bitsOf fl 0 4, exact := bitOf fl 4, tern := bitOf fl 5, isMatch := bitOf fl 6, group := bitsOf fl 8 4 } { p2 with c := c })
      else if 511 < c ∨ nodeNext nd sel = 0x3FF then .stop .exc
      else .go { p2 with c := c } (nodeNext nd sel)

/-- Walk the nodes: at most 32 (R375).
(DEDUCED: log 112.) -/
def graphRun (node : Nat → List Byte) (f : List Byte) : Nat → Nat → PState → PEnd
  | 0, _, _ => .exc
  | n + 1, i, p =>
    match nodeVisit f (node i) p with
    | .go q j => graphRun node f n j q
    | .stop e => e

/-! ### Classification (R377, R378) -/

/-- Bytes of an entry of a table. -/
def entBytes (t : Nat) : Nat := if t = 0 then 48 else if t = 1 then 144 else 96

/-- An entry; an entry never written is all zeros. -/
def State.entry (s : State) (t i : Nat) : List Byte := (alook (t, i) s.eth.tables).getD (List.replicate (entBytes t) 0)

/-- The action of an entry, its last 16 bytes; VALID. -/
def entAction (e : List Byte) : List Byte := e.drop (e.length - 16)
def entValid (e : List Byte) : Bool := bitOf (fieldAt (entAction e) 12 4) 31

/-- The buckets of an exact key. -/
def bucketsOf (key : List Byte) : Nat × Nat := let c := (crc32c (key.take 32)).toNat; (bitsOf c 0 15, bitsOf c 15 15)

/-- The lowest-indexed exact hit. -/
def State.exactHit (s : State) (key : List Byte) : Option (List Byte) :=
  let b := bucketsOf key
  let idx := sortBy (fun a b => decide (a ≤ b)) ((List.range 8).map (fun i => 8 * b.1 + i) ++ (List.range 8).map (fun i => 8 * b.2 + i))
  (idx.find? (fun i => entValid (s.entry 0 i) && decide ((s.entry 0 i).take 32 = key.take 32))).map (fun i => entAction (s.entry 0 i))

/-- Does a key match a ternary entry? -/
def ternMatch (key e : List Byte) : Bool :=
  (List.range 64).all (fun i => ((key.getD i 0) ^^^ (e.getD i 0)) &&& (e.getD (64 + i) 0) == 0)

/-- The written indices of a table, ascending. -/
def State.indices (s : State) (t : Nat) : List Nat := sortBy (fun a b => decide (a ≤ b)) ((s.eth.tables.filter (fun x => x.1.1 = t)).map (fun x => x.1.2))

/-- The ternary hit. -/
def State.ternHit (s : State) (key : List Byte) : Option (List Byte) :=
  ((s.indices 1).find? (fun i => entValid (s.entry 1 i) && ternMatch key (s.entry 1 i))).map (fun i => entAction (s.entry 1 i))

/-- Does a pattern match in a window (R382)? -/
def patMatch (e w : List Byte) : Bool :=
  let len := bitsOf (fieldAt e 0x40 1) 0 6
  let at_ (i : Nat) : Bool := i + len ≤ w.length &&
    (List.range len).all (fun j => ((w.getD (i + j) 0) ^^^ (e.getD j 0)) &&& (e.getD (32 + j) 0) == 0)
  (1 ≤ len && len ≤ 32) &&
    (if bitOf (fieldAt e 0x41 1) 4 then at_ (bitsOf (fieldAt e 0x42 2) 0 12) else (List.range (w.length + 1)).any at_)

/-- The action of the lowest-indexed valid pattern of a group that matches. -/
def State.patHit (s : State) (group : Nat) (w : List Byte) : Option (List Byte) :=
  ((s.indices 2).find? (fun i => let e := s.entry 2 i
    entValid e && bitsOf (fieldAt e 0x41 1) 0 4 = group && patMatch e w)).map (fun i => entAction (s.entry 2 i))

/-- The action of a frame: the lookups in their order, then the patterns; none for the port's default. -/
def State.classify (s : State) (f : List Byte) (d : PDone) (p : PState) : Option (List Byte) :=
  let key := keyPut p.key 0 [BitVec.ofNat 8 ((p.key.getD 0 0).toNat / 16 * 16 + d.kt)]
  let tern := if d.tern then s.ternHit key else none
  let cls := match tern with
    | some a => if bitOf (fieldAt a 0 1) 4 then some a else ((if d.exact then s.exactHit key else none).orElse (fun _ => some a))
    | none => if d.exact then s.exactHit key else none
  match d.isMatch, p.pay with
  | true, some o => (s.patHit d.group ((f.drop o).take 4096)).orElse (fun _ => cls)
  | _, _ => cls

end Sys2Proof.Machine
end

