-- ==== Sys2Proof/Machine/Eth.lean ====
section
/-! DEFINITION. The Ethernet ports (R365 to R371), the frames they receive, the classification tables' commands (R379, R380),
policers (R383 to R385). -/

namespace Sys2Proof.Machine

open Sys2Proof

/-! ### Ports -/

/-- Is a logical port produced by its physical port's mode (R365)? -/
def State.ethPresent (s : State) (l : Nat) : Bool :=
  match s.fld (if l < 8 then fETH_CFG_MODE0 else fETH_CFG_MODE1) with
  | 0 => l % 8 = 0 | 1 => l % 4 = 0 | 2 => true | _ => false

/-- A link goes up or down (R360); the PTP clock of a port that is down is not locked.
(PRESUMED: log 114.) -/
def State.ethLink (s : State) (l : Nat) (up : Bool) : State :=
  if s.flag (fETH_LPORT_STATUS_LINK l) = up then s
  else
    let s1 := s.setFld (fETH_LPORT_STATUS_LINK l) (b2n up)
    let s2 := if up then s1 else (s1.raise (fETH_LPORT_STATUS_LOSS l)).setFld (fETH_LPORT_STATUS_PTP_LOCK l) 0
    s2.event blkRDM (s2.portParts (some l))
      { code := if up then 0x0403 else 0x0402, result := l, st := if up then .ok else .targetReset, detail := 0 }

/-- The link of an enabled port changes. -/
def execEthLinkChange (l : Fin 16) (up : Bool) (s : State) : Host.Outcome State Fault Refusal :=
  if s.ethPresent l.val ∧ (s.flag (fETH_LPORT_CTRL_ENABLE l.val) ∨ up = false) then .next (s.ethLink l.val up) else .next s

/-- A write of ETH_LPORT_CTRL[l] (R390): clearing ENABLE takes the link down; the registers of an absent port ignore writes.
(DEDUCED: log 115.) -/
def State.lportWrite (s : State) (l : Nat) (v : BitVec 32) : State :=
  if s.ethPresent l = false then s else
  let x := v.toNat
  let s1 := s |>.setFld (fETH_LPORT_CTRL_PFC_RX l) (bitsOf x 24 8) |>.setFld (fETH_LPORT_CTRL_PROG l) (bitsOf x 8 3)
    |>.setFld (fETH_LPORT_CTRL_PTP l) (bitsOf x 5 1) |>.setFld (fETH_LPORT_CTRL_UNTAG_GRAPH l) (bitsOf x 4 1)
    |>.setFld (fETH_LPORT_CTRL_DEF_ACT l) (bitsOf x 3 1) |>.setFld (fETH_LPORT_CTRL_EXC_ACT l) (bitsOf x 2 1)
    |>.setFld (fETH_LPORT_CTRL_ENABLE l) (if s.gated (s.skuField 12 2) (10 + l / 8) then 0 else bitsOf x 0 1)
  let s2 := if bitOf x 5 then s1 else s1.setFld (fETH_LPORT_STATUS_PTP_LOCK l) 0
  if bitOf x 0 then s2 else s2.ethLink l false

def execEthPortEnable (l : Fin 16) (v : BitVec 32) (s : State) : Host.Outcome State Fault Refusal := .next (s.lportWrite l.val v)

/-- Set one physical port's mode: MODE 3 is reserved; a change while a logical port is enabled is ignored (R365). -/
def State.setMode (s : State) (k m : Nat) : State :=
  let f := if k = 0 then fETH_CFG_MODE0 else fETH_CFG_MODE1
  if m = 3 ∨ s.fld f = m then s
  else if (List.range 8).any (fun i => s.ethPresent (8 * k + i) && s.flag (fETH_LPORT_CTRL_ENABLE (8 * k + i))) then s.raise fETH_ERR_CFG_DROP
  else s.setFld f m

/-- A write of ETH_CFG.
(DEDUCED: log 113.) -/
def State.ethModeWrite (s : State) (v : BitVec 32) : State := (s.setMode 0 (bitsOf v.toNat 0 2)).setMode 1 (bitsOf v.toNat 4 2)

def execEthModeWrite (v : BitVec 32) (s : State) : Host.Outcome State Fault Refusal := .next (s.ethModeWrite v)

/-- A parse program word is written, unless an enabled port selects its program (R372). -/
def State.ethProgWrite (s : State) (n : Nat) (v : BitVec 64) : State :=
  if (List.range 16).any (fun l => s.ethPresent l && s.flag (fETH_LPORT_CTRL_ENABLE l) && s.fld (fETH_LPORT_CTRL_PROG l) = n / 256) then
    s.raise fETH_ERR_CFG_DROP
  else s.setReg (rETH_PROG n) v

def execEthProgWrite (n : Fin 2048) (v : BitVec 64) (s : State) : Host.Outcome State Fault Refusal := .next (s.ethProgWrite n.val v)

/-- A graph node word is written while the graph parsers are disabled (R375). -/
def State.ethGnodeWrite (s : State) (n w : Nat) (v : BitVec 32) : State :=
  if s.flag fETH_GRAPH_CTRL_EN then s.raise fETH_ERR_CFG_DROP else s.setFld (fETH_GNODE_WORD n w) v.toNat

def execEthGnodeWrite (n : Fin 1024) (w : Fin 8) (v : BitVec 32) (s : State) : Host.Outcome State Fault Refusal :=
  .next (s.ethGnodeWrite n.val w.val v)

/-! ### Table commands (R379, R380) -/

/-- Entries of a table. -/
def entCount (t : Nat) : Nat := if t = 0 then 262144 else if t = 1 then 16384 else 4096

/-- The staging words as bytes.
(DEDUCED: log 113.) -/
def State.staged (s : State) (t : Nat) : List Byte := (List.range (entBytes t / 4)).flatMap (fun i => leBytes 4 (s.fld (fETH_ENT_DATA_DATA i)))

/-- Write an entry. -/
def State.setEntry (s : State) (t i : Nat) (b : List Byte) : State := s.setEth (fun e => { e with tables := aput (t, i) b e.tables })

/-- An entry with VALID cleared. -/
def clearValid (b : List Byte) : List Byte := keyPut b (b.length - 1) [(b.getD (b.length - 1) 0) &&& 0x7F]

/-- A write of ETH_ENT_CMD: a command starts, is refused, or is ignored while one runs. A WRITE first clears VALID.
(DEDUCED: log 113.) -/
def State.entCmdWrite (s : State) (v : BitVec 32) : State :=
  let x := v.toNat
  let op := bitsOf x 30 2
  let t := bitsOf x 28 2
  let i := bitsOf x 0 18
  if op = 0 then s
  else if s.flag fETH_ENT_STATUS_BUSY then s.raise fETH_ERR_CFG_DROP
  else
    let d := s.staged t
    let b := bucketsOf d
    if t = 3 ∨ entCount t ≤ i ∨ (op = 1 ∧ t = 0 ∧ i / 8 ≠ b.1 ∧ i / 8 ≠ b.2) then s.setFld fETH_ENT_STATUS_STATUS 1
    else
      let s1 := (s.raise fETH_ENT_STATUS_BUSY).setEth (fun e => { e with ent := some { op := op, table := t, index := i, data := d } })
      if op = 1 then s1.setEntry t i (clearValid (s1.entry t i)) else s1

def execEthEntWrite (v : BitVec 32) (s : State) : Host.Outcome State Fault Refusal := .next (s.entCmdWrite v)
def execEthEntRead (v : BitVec 32) (s : State) : Host.Outcome State Fault Refusal := .next (s.entCmdWrite v)
def execEthEntInvalidate (v : BitVec 32) (s : State) : Host.Outcome State Fault Refusal := .next (s.entCmdWrite v)

/-- The table command ends: the entry stands written, read or invalid; BUSY clears.
(DEDUCED: log 113.) -/
def execEthEntDone (s : State) : Host.Outcome State Fault Refusal :=
  match s.eth.ent with
  | none => .next s
  | some k =>
    let s1 := ((s.setFld fETH_ENT_STATUS_BUSY 0).setFld fETH_ENT_STATUS_STATUS 0).setEth (fun e => { e with ent := none })
    .next (match k.op with
      | 1 => s1.setEntry k.table k.index k.data
      | 2 => (List.range (entBytes k.table / 4)).foldl (fun t i => t.setFld (fETH_ENT_DATA_DATA i) (fieldAt (s.entry k.table k.index) (4 * i) 4)) s1
      | _ => s1.setEntry k.table k.index (clearValid (s1.entry k.table k.index)))

/-! ### Policers (R383 to R385) -/

/-- The colours of R383. -/
inductive Colour where
  | green | yellow | red
  deriving DecidableEq, Repr

/-- The length that a frame is charged: at least 0; OVERHEAD has 7 bits of two's complement (R389).
(DEDUCED: log 111.) -/
def charged (len overhead : Nat) : Nat := ((len : Int) + signedOf 7 overhead).toNat

/-- The fields of TRF_POL_SIZE. -/
def Pol.cbs (p : Pol) : Nat := bitsOf p.size.toNat 0 24
def Pol.pbs (p : Pol) : Nat := bitsOf p.size.toNat 24 24
def Pol.mode (p : Pol) : Nat := bitsOf p.size.toNat 57 2
def Pol.aware (p : Pol) : Bool := bitOf p.size.toNat 56

/-- The fields of TRF_SHP. -/
def Shp.rate (x : Shp) : Nat := bitsOf x.cfg.toNat 0 32
def Shp.burst (x : Shp) : Nat := bitsOf x.cfg.toNat 32 24

/-- A shaper's register takes effect: its level is kept and cut to a smaller BURST; at its first setting the bucket is full.
(DEDUCED: log 115.) -/
def newShp (old : Option Shp) (cfg : BitVec 64) : Shp :=
  let top : Int := 256 * (bitsOf cfg.toNat 32 24 : Nat)
  match old with | some x => { cfg := cfg, level := min x.level top } | none => { cfg := cfg, level := top }

/-- A policer's registers take effect, by the same rule.
(DEDUCED: log 115.) -/
def newPol (old : Option Pol) (rate size : BitVec 64) : Pol :=
  let c := 256 * bitsOf size.toNat 0 24
  let e := 256 * bitsOf size.toNat 24 24
  match old with
  | some x => { rate := rate, size := size, tc := min x.tc c, te := min x.te e }
  | none => { rate := rate, size := size, tc := c, te := e }

/-- A policer and a shaper gain `n` refills. -/
def Pol.refill (p : Pol) (n : Nat) : Pol :=
  { p with tc := min (256 * p.cbs) (p.tc + n * bitsOf p.rate.toNat 0 32), te := min (256 * p.pbs) (p.te + n * bitsOf p.rate.toNat 32 32) }
def Shp.refill (x : Shp) (n : Nat) : Shp := { x with level := min (256 * (x.burst : Int)) (x.level + n * x.rate) }

/-- The buckets refilled up to refill `k`; registers written before it take effect first (R384, R389). -/
def State.refillTo (s : State) (k : Nat) : State :=
  let n := k - s.eth.refill
  s.setEth (fun e =>
    let shps := (e.newShps.filter (fun x => x.2.1 < 1024 * k)).foldl (fun m x => aput x.1 (newShp (alook x.1 m) x.2.2) m) e.shps
    let pols := (e.newPols.filter (fun x => x.2.1 < 1024 * k)).foldl (fun m x => aput x.1 (newPol (alook x.1 m) x.2.2.1 x.2.2.2) m) e.pols
    { e with
      shps := shps.map (fun x => (x.1, x.2.refill n)), pols := pols.map (fun x => (x.1, x.2.refill n)), refill := k
      newShps := e.newShps.filter (fun x => 1024 * k ≤ x.2.1), newPols := e.newPols.filter (fun x => 1024 * k ≤ x.2.1) })

/-- The refills that are due are taken before a decision in the same cycle (R384).
(DEDUCED: log 115.) -/
def State.refilled (s : State) : State :=
  if s.eth.refill < s.sch.tb.toNat / 1024 then s.refillTo (s.sch.tb.toNat / 1024) else s

/-- Meter a frame of `b` bytes (RFC 2698 for MODE 1, RFC 4115 for MODE 2): its colour, and the buckets after it.
(DEDUCED: log 115.) -/
def Pol.meter (p : Pol) (inc : Colour) (len : Nat) : Colour × Pol :=
  let b := 256 * charged len (bitsOf p.size.toNat 48 7)
  let i := if p.aware then inc else .green
  match p.mode with
  | 1 =>
    if i = .red ∨ p.te < b then (.red, p)
    else if i = .yellow ∨ p.tc < b then (.yellow, { p with te := p.te - b })
    else (.green, { p with tc := p.tc - b, te := p.te - b })
  | 2 =>
    if i = .green ∧ b ≤ p.tc then (.green, { p with tc := p.tc - b })
    else if i ≠ .red ∧ b ≤ p.te then (.yellow, { p with te := p.te - b })
    else (.red, p)
  | _ => (.green, p)

/-- The incoming colour of a DSCP. -/
def State.dscpColour (s : State) (d : Option Nat) : Colour :=
  match d with
  | none => .green
  | some x => match bitsOf (s.fld (fTRF_DSCP_COLOUR_COLOURS (x / 16))) (2 * (x % 16)) 2 with | 1 => .yellow | 2 => .red | _ => .green

/-- Meter a frame by policer `i`, and count its colour; a policer that was never committed has MODE 0. -/
def State.police (s : State) (i : Nat) (dscp : Option Nat) (len : Nat) : Colour × State :=
  if i = 0 then (.green, s) else
  let s0 := s.refilled
  match alook i s0.eth.pols with
  | none => (.green, s0.count (fTRF_POL_GREEN_COUNT i) 1)
  | some p =>
    let r := p.meter (s.dscpColour dscp) len
    (r.1, (s0.setEth (fun e => { e with pols := aput i r.2 e.pols })).count
      (match r.1 with | .green => fTRF_POL_GREEN_COUNT i | .yellow => fTRF_POL_YELLOW_COUNT i | .red => fTRF_POL_RED_COUNT i) 1)

/-! ### Reception -/

/-- Count a frame dropped on receive.
(DEDUCED: log 111.) -/
def State.rxDrop (s : State) (l : Nat) : State := s.count (fETH_RX_DROP_COUNT l) 1

/-- A frame dropped for isolation (R376, R378).
(DEDUCED: log 111.) -/
def State.isolDrop (s : State) (l : Nat) : State := (s.count (fETH_ISOL_DROP_COUNT l) 1).raise fETH_ERR_ISOL

/-- Deliver a frame to the receive at the head of a partition's queue (R378).
(DEDUCED: log 111.) -/
def State.ethDeliver (s : State) (l part queue : Nat) (f : List Byte) : State :=
  match s.recvHead? part queue with
  | none => s.rxDrop l
  | some c =>
    if c.f 8 4 < f.length then s.endCmd c.id .invalidField
    else s.deliver c f (f.length + l * 2 ^ 32)

/-- The exception action of a port (R374).
(DEDUCED: log 112.) -/
def State.parseExc (s : State) (l : Nat) (f : List Byte) : State :=
  let s1 := (s.count (fETH_PARSE_EXC_COUNT l) 1).raise fETH_ERR_PARSE_EXC
  if s.flag (fETH_LPORT_CTRL_EXC_ACT l) then s1.ethDeliver l 0 (s.fld fETH_EXC_Q_Q) f else s1.rxDrop l

/-- The outermost 802.1Q VID of a frame, and where its EtherType stands. -/
def vlanOf (f : List Byte) : Option Nat := if beNat ((f.drop 12).take 2) = 0x8100 then some (beNat ((f.drop 14).take 2) % 4096) else none
def typeAt (f : List Byte) : Nat := if (vlanOf f).isSome then 16 else 12

/-- The source GIDs of the partitions. -/
def State.isSgid (s : State) (b : List Byte) : Bool :=
  (List.range 65).any (fun p => leBytes 8 (s.fld (fRDM_SGID_HI_GID p)) ++ leBytes 8 (s.fld (fRDM_SGID_LO_GID p)) == b)

/-- Does the management processor take a frame before parsing (R369)? Neighbour discovery is for an address as its target or as its
destination.
(DEDUCED: log 112.) -/
def State.mgmtTakes (s : State) (f : List Byte) : Bool :=
  let o := typeAt f
  let at_ (k n : Nat) : Nat := beNat ((f.drop (o + 2 + k)).take n)
  let et := beNat ((f.drop o).take 2)
  if et = 0x0806 ∨ et = 0x88CC ∨ et = 0x88F7 then true
  else if et = 0x0800 then
    let u := 4 * (at_ 0 1 % 16)
    at_ 9 1 = 17 && (at_ (u + 2) 2 = 319 || at_ (u + 2) 2 = 320) &&
      s.isSgid (List.replicate 10 0 ++ [0xFF, 0xFF] ++ (f.drop (o + 18)).take 4)
  else if et = 0x86DD then
    (at_ 6 1 = 17 && (at_ 42 2 = 319 || at_ 42 2 = 320) && s.isSgid ((f.drop (o + 26)).take 16)) ||
      (at_ 6 1 = 58 && (at_ 40 1 = 135 || at_ 40 1 = 136) && (s.isSgid ((f.drop (o + 50)).take 16) || s.isSgid ((f.drop (o + 26)).take 16)))
  else false

/-- A PFC frame: the pause of each class whose priority is honoured starts, or ends for a time of 0 (R367). A quantum is 512
bit times.
(PRESUMED: log 114.) -/
def State.pfcFrame (s : State) (l : Nat) (f : List Byte) : State :=
  let o := typeAt f + 4
  (List.range 8).foldl (fun t c =>
    if bitOf (beNat ((f.drop o).take 2)) c ∧ bitOf (s.fld (fETH_LPORT_CTRL_PFC_RX l)) c then
      let n := beNat ((f.drop (o + 2 + 2 * c)).take 2)
      t.setEth (fun e => { e with pauses := if n = 0 then adel (l, c) e.pauses
                                            else aput (l, c) (s.now + ceilDiv (n * 512 * secTicks) (1000 * s.lineRate l)) e.pauses })
    else t) s

/-- The pause of a class ends. -/
def execPfcPauseEnd (l : Fin 16) (c : Fin 8) (s : State) : Host.Outcome State Fault Refusal :=
  match alook (l.val, c.val) s.eth.pauses with
  | none => .next s
  | some t => .next ((s.atLeast t).setEth (fun e => { e with pauses := adel (l.val, c.val) e.pauses }))

/-- A frame is handed to the transport, with its colour (R385). -/
def State.handOver (s : State) (l : Nat) (yellow : Bool) : State := s.setEth (fun e => { e with handed := e.handed ++ [(l, yellow)] })

/-- The action of a frame (R376, R378, R385). -/
def State.ethAct (s : State) (l : Nat) (graph : Bool) (f : List Byte) (p : PState) (a : List Byte) : State :=
  let len := f.length + 4
  let act := bitsOf (fieldAt a 0 1) 0 4
  let part := bitsOf (fieldAt a 1 1) 0 7
  let s0 := if bitOf (fieldAt a 0 1) 5 then
      let c := bitsOf (fieldAt a 6 2) 0 14
      (s.count (fETH_RULE_PKTS_COUNT c) 1).count (fETH_RULE_BYTES_COUNT c) len else s
  let r := s0.police (bitsOf (fieldAt a 4 2) 0 12) p.dscp len
  if r.1 = .red then r.2
  else if graph ∧ part ≠ 0 then r.2.isolDrop l
  else match act with
    | 1 =>
      if p.l3.isNone ∨ p.l4.isNone then r.2.parseExc l f
      else match r.2.qp? (beNat ((f.drop (p.l4.getD 0 + 13)).take 3)) with
        | some q => if q.part = part then r.2.handOver l (r.1 = .yellow) else r.2.isolDrop l
        | none => r.2.handOver l (r.1 = .yellow)
    | 2 => if part ≤ 64 then r.2.ethDeliver l part (fieldAt a 2 2) f else r.2.rxDrop l
    | 3 => r.2.ethDeliver l 0 (r.2.fld fETH_EXC_Q_Q) f
    | _ => r.2.rxDrop l

/-- Parse, classify and act on a frame (R371 to R378).
(DEDUCED: log 112.) -/
def State.ethParse (s : State) (l : Nat) (f : List Byte) : State :=
  let graph : Bool := match vlanOf f with
    | some v => bitOf (s.fld (fETH_GVLAN_VIDS (v / 32))) (v % 32)
    | none => s.flag (fETH_LPORT_CTRL_UNTAG_GRAPH l)
  let node (i : Nat) : List Byte := (List.range 8).flatMap (fun w => leBytes 4 (s.fld (fETH_GNODE_WORD i w)))
  let prog (i : Nat) : Nat := (s.reg (rETH_PROG (256 * s.fld (fETH_LPORT_CTRL_PROG l) + i))).toNat
  let e := if graph then
      (if s.flag fETH_GRAPH_CTRL_EN then graphRun node f 32 (s.fld fETH_GRAPH_CTRL_START) (PState.start l) else .exc)
    else runParse prog f 64 0 (PState.start l)
  match e with
  | .exc => s.parseExc l f
  | .drop => s.rxDrop l
  | .done d p =>
    match s.classify f d p with
    | some a => s.ethAct l graph f p a
    | none => if s.flag (fETH_LPORT_CTRL_DEF_ACT l) then s.ethDeliver l 0 (s.fld fETH_EXC_Q_Q) f else s.rxDrop l

/-- An uncorrectable table entry acts with VALID = 0 (R460). -/
def State.entryUe (s : State) (t i : Nat) : State := (s.setEntry t i (clearValid (s.entry t i))).devUe blkETH 1 i

/-- A frame arrives (R367, R368, R369).
(DEDUCED: log 111.) -/
def execEthFrameReceive (l : Fin 16) (f : EthFrame) (s : State) : Host.Outcome State Fault Refusal :=
  let n := l.val
  if s.ethPresent n = false ∨ s.flag (fETH_LPORT_STATUS_LINK n) = false then .next s
  else
    let len := f.bytes.length + 4
    if f.fcsOk = false ∨ len < 64 ∨ 9216 < len then .next (s.rxDrop n)
    else if 0x800000 < f.used + f.bytes.length then .next ((s.rxDrop n).raise fETH_ERR_RX_OVF)
    else
      let s1 := s.count (fETH_RX_FRAMES_COUNT n) 1
      let o := typeAt f.bytes
      if beNat ((f.bytes.drop o).take 2) = 0x8808 then
        .next (if beNat ((f.bytes.drop (o + 2)).take 2) = 0x0101 then s1.pfcFrame n f.bytes else s1)
      else if s1.mgmtTakes f.bytes then .next s1
      else
        let s2 := if f.ce then s1.tableRead .ce id else s1
        let s3 := match f.ue with | some (t, i) => if (alook (t.val, i) s2.eth.tables).isSome then s2.entryUe t.val i else s2 | none => s2
        .next (s3.ethParse n f.bytes)

/-! ### The management processor's frames (R369, R370) -/

/-- A neighbour is learnt: the packets that are held for it, for 1 ms at most, may leave.
(PRESUMED: log 114; DEDUCED: log 175.) -/
def State.learn (s : State) (g : BitVec 128) (mac : BitVec 48) : State :=
  s.setEth (fun e => { e with
    neigh := aput g mac e.neigh, txq := e.txq ++ (e.hold.filter (fun x => decide (x.1 = g) && s.now ≤ x.2.2 + msTicks)).map (fun x => x.2.1)
    hold := e.hold.filter (fun x => decide (x.1 ≠ g)) })

/-- A management frame: a query for a partition's address is answered, an answer is learnt. -/
def execMgmtFrameReceive (l : Fin 16) (m : MgmtFrame) (s : State) : Host.Outcome State Fault Refusal :=
  if s.mgmtRuns = false ∨ s.flag (fETH_LPORT_STATUS_LINK l.val) = false then .next s else
  match m with
  | .query target who mac =>
    let s1 := s.learn who mac
    .next (if s.isSgid (gidBytes target) then
        s1.setEth (fun e => { e with txq := e.txq ++ [{ port := l.val, ctrl := true, cls := 7, part := 0, queue := 0, len := 64, body := .mgmt target mac,
                                                        cmd := none, blocked := false }] })
      else s1)
  | .answer g mac => .next (s.learn g mac)
  | .lldp => .next s

/-- A packet held 1 ms for its next hop is dropped. -/
def execNextHopHoldExpire (i : Nat) (s : State) : Host.Outcome State Fault Refusal :=
  match s.eth.hold[i]? with
  | none => .next s
  | some x => .next ((s.atLeast (x.2.2 + msTicks)).setEth (fun e => { e with hold := e.hold.eraseIdx i }))

/-- A PTP event message (R370): a Sync gives the offset, with the path delay known; the answer to a Delay_Req gives the delay.
A tick is 1.25 ns.
(PRESUMED: log 114.) -/
def execPtpEventMessage (l : Fin 16) (x : PtpMsg) (s : State) : Host.Outcome State Fault Refusal :=
  if s.mgmtRuns = false ∨ s.flag (fETH_LPORT_CTRL_PTP l.val) = false ∨ s.flag (fETH_LPORT_STATUS_LINK l.val) = false then .next s else
  let ns (t : Nat) : Int := (5 * t : Nat) / 1024
  match x with
  | .sync t1 stamp =>
    let off := (t1 : Int) + s.eth.ptp.delay - ns stamp
    .next ((s.setEth (fun e => { e with ptp := { e.ptp with off := off, sync := some ((t1 : Int), ns stamp) } })).raise (fETH_LPORT_STATUS_PTP_LOCK l.val))
  | .delay t4 stamp =>
    match s.eth.ptp.sync with
    | none => .next s
    | some (t1, t2) =>
      let d := ((t2 - t1) + ((t4 : Int) - ns stamp)) / 2
      .next (s.setEth (fun e => { e with ptp := { e.ptp with delay := d, off := t1 + d - t2 } }))

/-- PTP time in ns: the time base and the offset (R370). -/
def State.ptpTime (s : State) : Nat := twosOf 64 ((5 * s.sch.tb.toNat : Nat) / 4 + s.eth.ptp.off)

end Sys2Proof.Machine
end

