-- ==== Sys2Proof/Machine/Lodge.lean ====
section
/-! DEFINITION. The lodge processors in service: pavilion loaders (R422 to R425), the EMU commands (R427 to R429), distribution of
images (R426), firmware update and activation (R435 to R438), restarts (R15, R439), event controllers (R430 to R434). -/

namespace Sys2Proof.Machine

open Sys2Proof

/-- A lodge processor's number (R439, R440), and its field of LDG_STATE. -/
def lodgeNum : Lodge → Nat
  | .mgmt => 0 | .power => 1 | .sec => 2
def lodgeFld : Lodge → Fld
  | .mgmt => fLDG_STATE_MGT | .power => fLDG_STATE_PWR | .sec => fLDG_STATE_SEC

/-- Is a lodge processor RUNNING (R440)? -/
def State.lodgeRuns (s : State) (c : Lodge) : Bool := s.fld (lodgeFld c) = 2

/-! ### Event controllers (R430 to R434) -/

/-- An input of an event source changes; sources 260 to 511 are not connected (R434).
(DEDUCED: log 138.) -/
def execEventSourceInput (n : Fin 512) (level : Bool) (s : State) : Host.Outcome State Fault Refusal :=
  if n.val < 260 then .next (s.srcLevel n.val level) else .next s

/-- The lowest source of a controller that is enabled and pending.
(DEDUCED: log 138.) -/
def State.evPending? (s : State) (c : Nat) : Option Nat :=
  (List.range 512).find? (fun n => s.flag (fLDG_EV_SRC_ENABLE c n) && s.flag (fLDG_EV_SRC_PENDING c n))

/-- The source that LDG_EV_NEXT names (R431): none while delivery is disabled or the core's mask is set.
(DEDUCED: log 138.) -/
def State.evNext? (s : State) (c : Nat) : Option Nat :=
  if s.flag (fLDG_EV_CTRL_DELIVER_DIS c) || s.flag (fLDG_EV_CTRL_CORE_MASK c) then none else s.evPending? c

/-- The lowest enabled pending source is delivered to the core (R431).
(DEDUCED: log 138.) -/
def execEventDeliver (c : Lodge) (s : State) : Host.Outcome State Fault Refusal :=
  match s.evNext? (lodgeNum c) with
  | some n => .next (s.emit (.evDeliver (lodgeNum c) n))
  | none => .next s

/-- A sleeping core wakes on an enabled pending source, whatever its mask and DELIVER_DIS say (R432).
(DEDUCED: log 138.) -/
def execCoreWake (c : Lodge) (s : State) : Host.Outcome State Fault Refusal :=
  if (s.evPending? (lodgeNum c)).isSome then .next (s.emit (.coreWake (lodgeNum c))) else .next s

/-- A write of LDG_EV_SRC by its processor (R430): a SENSE change clears PENDING, which under level sensing follows the input;
PENDING of an edge is cleared by writing 1.
(DEDUCED: log 15.) -/
def State.evSrcWrite (s : State) (c n : Nat) (v : BitVec 32) : State :=
  let x := v.toNat
  let old := s.fld (fLDG_EV_SRC_SENSE c n)
  let new := bitsOf x 0 2
  let s1 := (s.setFld (fLDG_EV_SRC_SENSE c n) new).setFld (fLDG_EV_SRC_ENABLE c n) (bitsOf x 2 1)
  if new = 0 then s1.setFld (fLDG_EV_SRC_PENDING c n) (s.fld (fLDG_EV_SRC_RAW c n))
  else if old ≠ new ∨ bitOf x 4 then s1.setFld (fLDG_EV_SRC_PENDING c n) 0
  else s1

def execLdgEvSrcWrite (c : Lodge) (n : Fin 512) (v : BitVec 32) (s : State) : Host.Outcome State Fault Refusal :=
  .next (s.evSrcWrite (lodgeNum c) n.val v)

/-- A write of LDG_EV_CTRL by its processor: DELIVER_DIS (R431). -/
def State.evCtrlWrite (s : State) (c : Nat) (v : BitVec 32) : State := s.setFld (fLDG_EV_CTRL_DELIVER_DIS c) (bitsOf v.toNat 0 1)

/-! ### Pavilion loaders (R422 to R425) -/

/-- Segments of an image of halfwords, of 4 KiB. -/
def segCount (w : List Half) : Nat := ceilDiv (2 * w.length) 4096

/-- Bytes as halfwords, and halfwords as bytes. -/
def halves : List Byte → List Half
  | a :: b :: r => BitVec.ofNat 16 (a.toNat + 256 * b.toNat) :: halves r
  | [a] => [BitVec.ofNat 16 a.toNat]
  | [] => []
def halfBytes (w : List Half) : List Byte := w.flatMap (fun x => leBytes 2 x.toNat)

/-- Put halfwords into a memory from an index on. -/
def putHalves (m : SMap Half) (k : Nat) : List Half → SMap Half
  | [] => m
  | w :: r => putHalves (smSet (fun _ => 0) m k w) (k + 1) r

/-- Replace the load of a pavilion. -/
def State.setLoad (s : State) (d : PavLoad) : State :=
  s.setLdg (fun l => { l with loads := l.loads.map (fun x => if x.lpav = d.lpav ∧ x.svc = d.svc then d else x) })

/-- The load of a logical pavilion that still takes segments. -/
def State.loadOf? (s : State) (l : Nat) : Option PavLoad := s.ldg.loads.find? (fun d => d.lpav == l && d.report == none)

/-- A segment arrives at a loader (R423 step 1): a good one is stored, a bad one discarded; while the pavilion is still being reset
it is lost (R422).
(DEDUCED: log 133.) -/
def execLoaderSegment (l : Fin 128) (x : LoadSeg) (s : State) : Host.Outcome State Fault Refusal :=
  match s.loadOf? l.val, s.phys? l.val with
  | some d, some p =>
    let d1 := { d with lastSeg := s.now }
    let ni := segCount d.imem
    if (s.pav p).refusing ∨ crc32c x.data ≠ x.crc ∨ ni + segCount d.dmem ≤ x.index.val then .next (s.setLoad d1)
    else
      let y := s.pav p
      let w := halves (x.data.take 4096)
      let z := if x.index.val < ni then { y with imem := putHalves y.imem (2048 * x.index.val) w }
        else { y with dmem := putHalves y.dmem (2048 * (x.index.val - ni)) w }
      .next ((s.setPav p z).setLoad { d1 with bitmap := d.bitmap ||| BitVec.ofNat 48 (2 ^ x.index.val) })
  | _, _ => .next s

/-- Do a pavilion's memories hold the images of its load, by their SHA-256 (R423 step 2)? -/
def loadMatches (y : Pav) (d : PavLoad) : Bool :=
  let back (m : SMap Half) (n : Nat) : List Half := (List.range n).map (fun i => smGet (fun _ => 0) m i)
  sha256 (halfBytes (back y.imem d.imem.length)) == sha256 (halfBytes d.imem) &&
    sha256 (halfBytes (back y.dmem d.dmem.length)) == sha256 (halfBytes d.dmem)

/-- A loader reports (R423): a full bitmap with a mismatched digest is cleared; a pavilion that is complete is loaded.
(DEDUCED: log 133.) -/
def execLoaderReport (l : Fin 128) (s : State) : Host.Outcome State Fault Refusal :=
  match s.loadOf? l.val, s.phys? l.val with
  | some d, some p =>
    let y := s.pav p
    let full := decide (d.bitmap.toNat = 2 ^ (segCount d.imem + segCount d.dmem) - 1)
    let ok := full && loadMatches y d
    let d1 := { d with report := some ok, bitmap := if full && !ok then 0 else d.bitmap }
    let s1 := if ok then s.setPav p { y with seq := { y.seq with loaded := true } } else s
    let s2 := if ok && d.svc then s1.setLdg (fun k => { k with loads := k.loads.filter (fun x => !(x.lpav == d.lpav && x.svc)) })
      else s1.setLoad d1
    .next (s2.pulse (116 + l.val))
  | _, _ => .next s

/-- No report within 100 µs: the bitmap counts as empty (R423).
(DEDUCED: log 133.) -/
def execLoaderReportTimeout (l : Fin 128) (s : State) : Host.Outcome State Fault Refusal :=
  match s.loadOf? l.val with
  | some d => .next ((s.atLeast (d.lastSeg + 100 * usTicks)).setLoad { d with report := some false, bitmap := 0 })
  | none => .next s

/-- The failing pavilions of loads are mapped out (R419, R424).
(DEDUCED: log 154.) -/
def State.outLoads (s : State) (bad : List PavLoad) : State :=
  bad.foldl (fun t d => match s.phys? d.lpav with | some p => t.mapOut p | none => t) s

/-- Map out the pavilions that have failed three rounds; the map is rebuilt, and the loads whose pavilion changed begin again by
unicast, those without one end (R424).
(DEDUCED: log 133.) -/
def State.remapLoads (s : State) (svc : Bool) (bad : List PavLoad) : State :=
  let mine := s.ldg.loads.filter (fun d => d.svc == svc)
  let was : List (PavLoad × Option (Fin 144)) := mine.map (fun d => (d, s.phys? d.lpav))
  let s1 : State := (s.outLoads bad).buildMap
  let moved : List PavLoad := (was.filter (fun (x : PavLoad × Option (Fin 144)) => s1.phys? x.1.lpav != x.2)).map (fun x => x.1)
  let s2 := moved.foldl (fun t d => t.startPavReset d.lpav) s1
  s2.setLdg (fun k => { k with loads := k.loads.filterMap (fun d =>
    if moved.any (fun m => m.lpav = d.lpav) && d.svc == svc then
      (if s1.present d.lpav then some { d with bitmap := 0, report := none, round := 1, lastSeg := s1.now } else none)
    else some d) })

/-- One kind of load (R423, R424): once every pavilion has reported, the failing ones get another round, three at most; then they
are mapped out, when the map may change (R75): no schedule is active, and no message of a pavilion whose mapping changes is
outstanding. -/
def State.repair (s : State) (svc : Bool) : State :=
  let ds := s.ldg.loads.filter (fun d => d.svc == svc)
  let bad := ds.filter (fun d => d.report == some false)
  if ds.any (fun d => d.report == none) ∨ bad = [] then s
  else if bad.any (fun d => d.round < 3) then
    s.setLdg (fun k => { k with loads := k.loads.map (fun d =>
      if d.svc == svc && d.report == some false && decide (d.round < 3) then { d with round := d.round + 1, report := none, lastSeg := s.now }
      else d) })
  else if s.running ∨ (s.outLoads bad).mapBusy then s
  else s.remapLoads svc bad

/-- (DEDUCED: log 133.) -/
def execRepairRound (s : State) : Host.Outcome State Fault Refusal := .next ((s.repair false).repair true)

/-! ### EMU commands (R427 to R429) -/

/-- A command block's CMD and arguments.
(DEDUCED: log 135.) -/
def emuCmd (b : List Byte) : Nat := fieldAt b 0 1
def emuArg (b : List Byte) (i : Nat) : Nat := fieldAt b (0x10 + 8 * i) 8

def State.setEmu (s : State) (e : Option EmuRun) : State := s.setLdg (fun l => { l with emu := e })

/-- The state of the firmware update (R441). -/
def State.fwState (s : State) : Nat := s.fld fEMU_STATUS_FW_STATE

/-- May a command run in the present state (R429)? -/
def State.emuLegal (s : State) (cmd : Nat) : Bool :=
  match cmd with
  | 1 => s.fwState = 0 || s.fwState = 2
  | 2 => s.fwState = 2
  | 3 => s.fwState = 3 || s.fwState = 4
  | 7 => match s.ldg.dist with | some d => d.img.isNone | none => true
  | _ => true

/-- GO (R428): the block is read at its address, in GDDR7 or in host memory of the control function; what the checks refuse ends at
once. A block that cannot be read shows only in EMU_STATUS.
(DEDUCED: log 135.) -/
def State.emuGo (s : State) : State :=
  let a := s.fld fEMU_CMD_ADDR_LO_ADDR * 64 + s.fld fEMU_CMD_ADDR_HI_ADDR * 2 ^ 37
  let inPlace : Bool := match s.region? a 64 with
    | some .gddr => true
    | some (.host h) => h = s.ctrlFn.val
    | _ => false
  let unread (st : Status) : State := (s.setFld fEMU_STATUS_LAST_CMD 0).setFld fEMU_STATUS_LAST_STATUS (statusCode st)
  if inPlace = false then unread .invalidField
  else if s.accessSt a 64 ≠ .ok then unread (s.accessSt a 64)
  else
    let b := s.bytesHeld a 64
    let c := emuCmd b
    let st : Status := if fieldAt b 1 1 ≠ 2 then .versionMismatch else if c = 0 ∨ 7 < c then .invalidField
      else if s.emuLegal c then .ok else .invalidState
    let s1 := if st = .invalidState then s.logRefused blkEMU rEMU_CMD 1 else s
    (s1.raise fEMU_STATUS_RUNNING).setEmu (some { addr := a, block := b, result := if st = .ok then none else some (st, 0, 0) })

/-- A write of an emulated register (R427, R428, R441).
(DEDUCED: log 135.) -/
def State.emuWrite (s : State) (off : Nat) (v : BitVec 32) : State :=
  let x := v.toNat
  if s.lodgeRuns .mgmt = false then s.raise fLDG_ERR_EMU_DROP
  else
    let s1 := s.pulse 257
    if off = rEMU_CMD_ADDR_LO then s1.setFld fEMU_CMD_ADDR_LO_ADDR (bitsOf x 0 31)
    else if off = rEMU_CMD_ADDR_HI then s1.setFld fEMU_CMD_ADDR_HI_ADDR (bitsOf x 0 27)
    else if off = rEMU_CMD ∧ bitOf x 0 then
      (if s.flag fEMU_STATUS_RUNNING then s1.raise fLDG_ERR_EMU_DROP else s1.emuGo)
    else s1

/-- Act on the running command when it is `cmd` and has not ended.
(DEDUCED: log 135.) -/
def State.onEmu (s : State) (cmd : Nat) (f : EmuRun → State) : Host.Outcome State Fault Refusal :=
  match s.ldg.emu with
  | some e => if emuCmd e.block = cmd ∧ e.result = none ∧ s.lodgeRuns .mgmt then .next (f e) else .next s
  | none => .next s

/-- The running command ends; a refusal names the block EMU in its detail (R29).
(DEDUCED: log 135.) -/
def State.emuEnd (s : State) (e : EmuRun) (st : Status) (result : Nat := 0) : State :=
  s.setEmu (some { e with result := some (st, if st = .refusedPolicy ∨ st = .refusedResource then 0x7800 else 0, result) })

/-- The set that runs, and the set staged or to be staged (R441). -/
def State.runSet (s : State) : Fin 2 := Fin.ofNat 2 (s.fld fEMU_STATUS_RUN_SET)
def State.stageSet (s : State) : Fin 2 := otherSet (Fin.ofNat 2 (s.fld fCIP_BOOT_IMG))

/-! ### Firmware update (R435 to R438) -/

/-- The records of a package, by their LEN; at most `n`.
(DEDUCED: log 136.) -/
def splitRecords : Nat → List Byte → Option (List (List Byte))
  | 0, b => if b = [] then some [] else none
  | n + 1, b =>
    if b = [] then some []
    else
      let k := fieldAt b 8 4
      if k = 0 ∨ b.length < k then none else (splitRecords n (b.drop k)).map (fun l => b.take k :: l)

/-- A firmware record's PART, and the most bytes that part may have (R414, R435).
(DEDUCED: log 136.) -/
def fwPart (r : List Byte) : Nat := fieldAt r 0x40 1
def fwMax (n : Nat) : Nat :=
  match n with
  | 1 => 0x200000 | 2 => 0x800000 | 3 => 0x200000 | 4 => 0xC00000 | 5 => 0x100000 | _ => 0

/-- The structure, parts and sizes of a package (R435).
(DEDUCED: log 136.) -/
def packageOk (l : List (List Byte)) (sigs : Nat) : Bool :=
  l.all (fun r => recordForm r 4 sigs && decide (r.length ≤ fwMax (fwPart r))) &&
    [1, 2, 3, 4].all (fun n => (l.filter (fun r => fwPart r = n)).length = 1) && (l.filter (fun r => fwPart r = 5)).length ≤ 1

/-- FW_STAGE (R435): the checks in their order, then the set not booted is marked EMPTY and programmed. It is STAGED when the command
ends.
(DEDUCED: log 136.) -/
def execFwStage (s : State) : Host.Outcome State Fault Refusal := s.onEmu 1 (fun e =>
  let a := emuArg e.block 0
  let n := emuArg e.block 1
  if 25 * 2 ^ 20 < n ∨ (s.region? a n).isNone then s.emuEnd e .invalidField
  else if s.accessSt a n ≠ .ok then s.emuEnd e (s.accessSt a n)
  else match splitRecords 5 (s.bytesHeld a n) with
    | none => s.emuEnd e .invalidField
    | some l =>
      if packageOk l (if s.cosign then 2 else 1) = false then s.emuEnd e .invalidField
      else if l.any (fun r => decide (fieldAt r 6 2 ≠ 1)) then s.emuEnd e .versionMismatch
      else if l.any (fun r => !s.recordSigned r bindNone s.cosign) then s.emuEnd e .authFail
      else if l.any (fun r => decide (fieldAt r 0xC 4 < s.minSvn)) then s.emuEnd e .refusedPolicy
      else
        let k := s.stageSet
        let s1 := (s.markSet k 0).setFlash (fun f =>
          let g := flashPutSet f k ((l.filter (fun r => fwPart r ≠ 5)).map (fun r => (fwPart r, r)))
          match l.find? (fun r => fwPart r = 5) with
          | some r => { g with uefi := (r.take (r.length - (if s.cosign then 128 else 64))).drop 0x44 }
          | none => g)
        (s1.setFld fEMU_STATUS_FW_STATE 1).emuEnd e .ok k.val)

/-- A power or thermal emergency is active (R437, R452). -/
def State.emergency (s : State) : Bool := s.flag fPWR_STATE_EMERG

/-- FW_ACTIVATE (R436, R437): the activation is scheduled; where it falls due at once, during an emergency, it is deferred.
(DEDUCED: log 136.) -/
def execFwActivate (s : State) : Host.Outcome State Fault Refusal := s.onEmu 2 (fun e =>
  if s.running = false ∧ s.emergency then (s.setFld fEMU_STATUS_FW_STATE 4).emuEnd e .deferredEmergency
  else ((s.setFld fEMU_STATUS_FW_STATE 3).setLdg (fun l => { l with fwDue := false })).emuEnd e .ok)

/-- FW_CANCEL (R438): the activation is withdrawn. -/
def execFwCancel (s : State) : Host.Outcome State Fault Refusal := s.onEmu 3 (fun e =>
  ((s.setFld fEMU_STATUS_FW_STATE 2).setLdg (fun l => { l with fwDue := false })).emuEnd e .ok)

/-- TRAIN_SAVE (R421): a record for each selected port that is ACTIVE, or has its link up.
(DEDUCED: log 61, 132.) -/
def execTrainSave (s : State) : Host.Outcome State Fault Refusal := s.onEmu 4 (fun e =>
  let a := emuArg e.block 0
  let fab := if bitOf a 0 then (List.finRange 24).filter (fun p => s.portUp p) else []
  let cxl := if bitOf a 1 then (List.finRange 2).filter (fun n => s.fld (fCXM_PORT_STATUS_STATE n.val) = 3) else []
  let eth := if bitOf a 2 then (List.finRange 16).filter (fun l => s.flag (fETH_LPORT_STATUS_LINK l.val)) else []
  let peer (p : Fin 24) : Fin 24 × BitVec 14 × BitVec 5 :=
    (p, BitVec.ofNat 14 (s.fld (fFAB_PORT_PEER_DEV p.val)), BitVec.ofNat 5 (s.fld (fFAB_PORT_PEER_PORT p.val)))
  let s1 := s.setFlash (fun f => { f with
    fabTrain := f.fabTrain.filter (fun r => !fab.contains r.1) ++ fab.map peer
    cxlTrain := f.cxlTrain.filter (fun n => !cxl.contains n) ++ cxl
    ethTrain := f.ethTrain.filter (fun n => !eth.contains n) ++ eth })
  s1.emuEnd e .ok (fab.length + cxl.length + eth.length))

/-- A gateway record of the NET_CFG table (R429). -/
def gatewayOf (b : List Byte) : Gateway :=
  { v4 := b.take 4, v4Len := fieldAt b 4 1, v6 := (b.drop 0x10).take 16, v6Len := fieldAt b 0x20 1 }

/-- NET_CFG (R369, R429): one 64-byte record for each logical port named. -/
def execNetCfg (s : State) : Host.Outcome State Fault Refusal := s.onEmu 5 (fun e =>
  let a := emuArg e.block 0
  let ports := (List.range 16).filter (fun l => bitOf (emuArg e.block 1) l)
  let n := 64 * ports.length
  if n ≠ 0 ∧ (s.region? a n).isNone then s.emuEnd e .invalidField
  else if n ≠ 0 ∧ s.accessSt a n ≠ .ok then s.emuEnd e (s.accessSt a n)
  else
    let recs := (List.range ports.length).map (fun i => (ports.getD i 0, gatewayOf (s.bytesHeld (a + 64 * i) 64)))
    (s.setEth (fun t => { t with gateways := recs.foldl (fun m r => aput r.1 r.2 m) t.gateways })).emuEnd e .ok)

/-- The ports to the children in the timing tree, of version 3 (R426).
(DEDUCED: log 134.) -/
def State.childPorts (s : State) : List (Fin 24) := s.sch.kids.filter (fun p => s.portV3 p.val)

/-- Send a segment to every child.
(DEDUCED: log 134.) -/
def State.distDown (s : State) (i : Nat) (b : List Byte) : State := s.childPorts.foldl (fun t p => t.emit (.dist p.val i b)) s

/-- DIST_SEND (R426): the image's segments go to the children; `full` are the devices that hold it whole after the rounds, which
the report names.
(DEDUCED: log 134.) -/
def execDistSend (full : List (BitVec 14)) (s : State) : Host.Outcome State Fault Refusal := s.onEmu 6 (fun e =>
  let a := emuArg e.block 0
  let n := emuArg e.block 1
  let r := emuArg e.block 2
  if n = 0 ∨ (s.region? a n).isNone ∨ (s.region? r 2048).isNone then s.emuEnd e .invalidField
  else if s.accessSt a n ≠ .ok then s.emuEnd e (s.accessSt a n)
  else if s.accessSt r 2048 ≠ .ok then s.emuEnd e (s.accessSt r 2048)
  else
    let s1 := (List.range (ceilDiv n 4096)).foldl (fun t i => t.distDown i (s.bytesHeld (a + 4096 * i) (min 4096 (n - 4096 * i)))) s
    let ds := full.eraseDups
    (s1.devWrite r (leBytes 2048 ((ds.map (fun d => 2 ^ d.toNat)).sum))).emuEnd e .ok ds.length)

/-- DIST_RECV (R429): arm a receive area in GDDR7, or disarm it.
(DEDUCED: log 134.) -/
def execDistRecv (s : State) : Host.Outcome State Fault Refusal := s.onEmu 7 (fun e =>
  let a := emuArg e.block 0
  let n := emuArg e.block 1
  if n = 0 then (s.setLdg (fun l => { l with dist := none })).emuEnd e .ok
  else if a % 64 ≠ 0 ∨ s.region? a n ≠ some .gddr then s.emuEnd e .invalidField
  else (s.setLdg (fun l => { l with dist := some { base := a, len := n, img := none, got := [] } })).emuEnd e .ok)

/-- A segment of a distributed image (R426): from the parent only; a good one is forwarded to the children and, with an area armed
that has room, stored. After the last of a pass the device reports whether it holds the whole image with a matching digest; a
whole image without one has its bitmap cleared.
(DEDUCED: log 134.) -/
def execDistSegmentReceive (x : DistSeg) (s : State) : Host.Outcome State Fault Refusal :=
  if s.lodgeRuns .mgmt = false ∨ s.portV3 x.port.val = false ∨ s.flag fSCH_TS_CTRL_ROOT ∨
      s.fld fSCH_TS_CTRL_PARENT_PORT ≠ x.port.val then .next s
  else
    let good := crc32c x.data = x.crc
    let s1 := if good then s.distDown x.index x.data else s
    match s1.ldg.dist with
    | none => .next (if x.last then s1.emit (.distReport x.port.val false) else s1)
    | some d0 =>
      let d := if d0.img = some (x.total, x.digest) then d0 else { d0 with img := some (x.total, x.digest), got := [] }
      let fits := good ∧ x.total ≤ d.len ∧ 4096 * x.index + x.data.length ≤ x.total
      let s2 := if fits then s1.devWrite (d.base + 4096 * x.index) x.data else s1
      let d1 := if fits ∧ d.got.contains x.index = false then { d with got := x.index :: d.got } else d
      if x.last then
        let full := d1.got.length = ceilDiv x.total 4096
        let ok := decide (full ∧ sha256 (s2.bytesHeld d1.base x.total) = x.digest)
        let d2 := if ok then { d1 with img := none, got := [] } else if full then { d1 with got := [] } else d1
        .next ((s2.setLdg (fun l => { l with dist := some d2 })).emit (.distReport x.port.val ok))
      else .next (s2.setLdg (fun l => { l with dist := some d1 }))

/-- A command ends (R428): STATUS, DETAIL and RESULT into the block, then EMU_STATUS, then EMU_DONE. A set that was programmed is
STAGED. -/
def execEmuCmdDone (s : State) : Host.Outcome State Fault Refusal :=
  match s.ldg.emu with
  | none => .next s
  | some e =>
    match e.result with
    | none => .next s
    | some (st, detail, result) =>
      if s.lodgeRuns .mgmt = false then .next s else
      let c := emuCmd e.block
      let s1 := if s.fwState = 1 then (s.markSet s.stageSet 1).setFld fEMU_STATUS_FW_STATE 2 else s
      let b := leBytes 2 (statusCode st) ++ leBytes 2 detail ++ (e.block.drop 6).take 2 ++ leBytes 8 result
      let s2 := if s1.accessSt e.addr 64 = .ok then s1.devWrite (e.addr + 2) b else s1
      let s3 := s2.setFld fEMU_STATUS_RUNNING 0 |>.setFld fEMU_STATUS_LAST_CMD c |>.setFld fEMU_STATUS_LAST_STATUS (statusCode st)
      .next ((s3.setEmu none).event0 blkEMU 0x0502 c st detail)

/-! ### Restarts (R439) -/

/-- The management processor restarts (R425, R435, R439): a running EMU command ends NOT_READY, a set being staged is EMPTY, loads end,
NS_ATTACH in progress ends. -/
def State.mgmtStops (s : State) : State :=
  let s1 := match s.ldg.emu with
    | some e => if e.result = none ∨ s.fwState = 1 then s.setEmu (some { e with result := some (.notReady, 0, 0) }) else s
    | none => s
  let s2 := if s.fwState = 1 then (s1.markSet s.stageSet 0).setFld fEMU_STATUS_FW_STATE 0 else s1
  let s3 := if s.fld fSCH_STATE_IMG = 1 then (s2.endHeld .notReady 0).dropLoads false else s2
  let s4 := if s.ldg.loads.any (fun d => d.svc) then
      ((s3.dropLoads true).setFld fCXM_SVC_MASK0_BITS 0).setFld fCXM_SVC_MASK1_BITS 0 else s3
  let tries := s.que.cmds.filter (fun c => c.op = 0x60 && c.started && c.done == none)
  let s5 := tries.foldl (fun t c => t.endCmd c.id .notReady) s4
  (s5.setRdm (fun r => { r with ns := r.ns.filter (fun x => match x.2.st with | .connecting _ _ => false | _ => true) })).cipForceRelease 2

/-- A restart begins (R433, R439): its cause 1 watchdog, 2 double fault, 3 memory error, 4 activation.
(DEDUCED: log 137; DESIGN CHOICE: log 148.) -/
def State.lodgeRestart (s : State) (c : Lodge) (cause : Nat) : State :=
  let n := lodgeNum c
  let s1 := (s.setFld (lodgeFld c) 3 |>.count (fLDG_RESTARTS_COUNT n) 1 |>.setFld (fLDG_CAUSE_CAUSE n) cause
    |>.raise fLDG_ERR_RESTART).raise (fLDG_EV_CTRL_DELIVER_DIS n) |>.setFld (fLDG_EV_CTRL_CORE_MASK n) 0
  match c with
  | .mgmt => s1.mgmtStops
  | .power => (s1.raise fPWR_STATE_GOV).pulse 258
  | .sec => (s1.cipForceRelease 1).spdmRestart

/-- A cause of restart (R15, R439): the third within 1 s gives a warm reset with cause LODGE.
(DEDUCED: log 137.) -/
def State.lodgeCause (s : State) (c : Lodge) (cause : Nat) : State :=
  if s.lodgeRuns c = false then s
  else
    let recent := s.ldg.restarts.filter (fun r => decide (s.now < r.2 + secTicks))
    if 2 ≤ (recent.filter (fun r => r.1 = c)).length then s.warmReset 0x40 true
    else (s.setLdg (fun l => { l with restarts := (c, s.now) :: recent })).lodgeRestart c cause

/-- A watchdog expires.
(DEDUCED: log 137.) -/
def execLodgeWatchdogExpire (c : Lodge) (s : State) : Host.Outcome State Fault Refusal := .next (s.lodgeCause c 1)

/-- A double fault, or an uncorrectable error in the processor's own memory.
(DEDUCED: log 137.) -/
def execLodgeFault (c : Lodge) (mem : Bool) (s : State) : Host.Outcome State Fault Refusal := .next (s.lodgeCause c (if mem then 3 else 2))

/-- The processor is RUNNING again: LODGE_RESTART, and the end of the governor (R439, R454, R455).
(DEDUCED: log 137.) -/
def State.lodgeUp (s : State) (c : Lodge) : State :=
  let s1 := s.setFld (lodgeFld c) 2
  let s2 := if c = .power then ({ s1 with pwr := { s1.pwr with calm := none, seen := [] } } : State).setFld fPWR_STATE_GOV 0 else s1
  s2.event0 blkLDG 0x0501 (lodgeNum c) .notReady (s.fld (fLDG_CAUSE_CAUSE (lodgeNum c)))

/-- Activation begins (R436): the directory names the set active and the other GOOD, and the processors restart, power first.
(DEDUCED: log 136.) -/
def State.activateFw (s : State) : State :=
  let k := s.stageSet
  let s1 := s.setFlash (fun f => flashPutDir f { flashDir f with active := k, stA := 2, stB := 2 })
  (s1.setLdg (fun l => { l with act := some { set := k, prev := otherSet k, left := [.power, .mgmt, .sec], fell := false }, fwDue := false })
    |>.setFld fEMU_STATUS_FW_STATE 0).lodgeRestart .power 4

/-- Activation falls due (R436, R437): at a boundary while a schedule runs, else at once; during an emergency it is deferred.
(DEDUCED: log 136.) -/
def execFwActivation (s : State) : Host.Outcome State Fault Refusal :=
  if s.fwState ≠ 3 ∨ s.ldg.act.isSome ∨ (s.running ∧ s.ldg.fwDue = false) then .next s
  else if s.emergency then
    let s1 := (s.setFld fEMU_STATUS_FW_STATE 4).setLdg (fun l => { l with fwDue := false })
    match s.ldg.emu with
    | some e =>
      if emuCmd e.block = 2 ∧ e.result.isSome then .next (s1.setEmu (some { e with result := some (.deferredEmergency, 0, 0) }))
      else .next (s1.event0 blkLDG 0x0504 s.stageSet.val .deferredEmergency)
    | none => .next (s1.event0 blkLDG 0x0504 s.stageSet.val .deferredEmergency)
  else .next s.activateFw

/-- A deferred activation takes place once the emergency has been clear for 5 s: at the first boundary then while a schedule runs,
else at once (R437). -/
def execFwDeferredActivate (s : State) : Host.Outcome State Fault Refusal :=
  if s.fwState ≠ 4 ∨ s.emergency ∨ s.ldg.act.isSome then .next s
  else match s.pwr.calm with
    | none => .next s
    | some t =>
      if s.running then (if s.ldg.fwDue then .next s.activateFw else .next s)
      else .next (s.atLeast (t + 5 * secTicks)).activateFw

/-- The parts that a processor takes from a set. -/
def lodgeParts : Lodge → List Nat
  | .mgmt => [2, 4] | .power => [3] | .sec => [1]

/-- A processor has loaded and measured its parts of a set (R411, R436). -/
def State.lodgeTake (s : State) (c : Lodge) (k : Fin 2) : State :=
  match c with
  | .sec =>
    let later := s.tru.meas.filter (fun m => decide (6 ≤ m.1))
    let s1 := s.romAccept k
    ({ s1 with tru := { s1.tru with meas := s1.tru.meas ++ later } } : State).setFld fCIP_BOOT_STAGE 3
  | _ => { s with tru := { s.tru with meas := (lodgeParts c).foldl (fun m n =>
      aput (if n = 2 then 6 else if n = 3 then 7 else 8) (sha256 (flashPart s.ldg.flash k n)) m) s.tru.meas } }

/-- A processor's restart for an activation ends (R436): its part verifies and the next one restarts, or the set is EMPTY and the
activation is repeated with the previous set.
(DEDUCED: log 136.) -/
def State.actStep (s : State) (a : Act) (c : Lodge) : State :=
  if (lodgeParts c).all (fun n => s.fwOk a.set n) then
    let s1 := ((s.lodgeTake c a.set).lodgeUp c).setLdg (fun l => { l with act := some { a with left := a.left.drop 1 } })
    match a.left.drop 1 with
    | d :: _ => s1.lodgeRestart d 4
    | [] =>
      ((s1.setLdg (fun l => { l with act := none })).setFld fEMU_STATUS_RUN_SET a.set.val).event0 blkLDG 0x0503 a.set.val
        (if a.fell then .authFail else .ok)
  else if a.fell then (s.setFld (lodgeFld c) 4).setLdg (fun l => { l with act := none })
  else
    let s1 := s.setFlash (fun f => flashPutDir f (dirMark { flashDir f with active := a.prev } a.set 0))
    (s1.setLdg (fun l => { l with act := some { set := a.prev, prev := a.prev, left := [.power, .mgmt, .sec], fell := true } })).lodgeRestart .power 4

/-- A restart ends (R439).
(DEDUCED: log 136.) -/
def execLodgeRestartDone (c : Lodge) (s : State) : Host.Outcome State Fault Refusal :=
  if s.fld (lodgeFld c) ≠ 3 then .next s
  else match s.ldg.act with
    | some a => if a.left.head? = some c then .next (s.actStep a c) else .next (s.lodgeUp c)
    | none => .next (s.lodgeUp c)

end Sys2Proof.Machine
end

