-- ==== Sys2Proof/Machine/Mgmt.lean ====
section
/-! DEFINITION. Management over MCTP (R472 to R474): the endpoint's bindings, PLDM, the reading of the trouble log. -/

namespace Sys2Proof.Machine

open Sys2Proof

/-- Does the endpoint answer on a binding: is it enabled, is the management processor RUNNING, and is a VDM on the upstream port of
the control function (R472, R473)?
(DEDUCED: log 149.) -/
def State.mctpUp (s : State) (p : MctpPort) : Bool :=
  decide (s.fld fLDG_STATE_MGT = 2) &&
  (match p with
   | .smbus => s.flag fLOG_MCTP_SMB_EN
   | .i3c => s.flag fLOG_MCTP_I3C_EN
   | .vdm fn => s.flag fLOG_MCTP_VDM_EN && decide (fn = s.ctrlFn))

/-- The reading of a sensor, from its PWR register (R473): temperatures in 1/16 °C, flow in 0.1 L/min.
(DEDUCED: log 149.) -/
def State.pldmReading (s : State) : PldmSensor → PldmRsp
  | .tj => .reading (signedOf 16 (s.fld fPWR_TJ_TJ))
  | .inlet => .reading (signedOf 16 (s.fld fPWR_COOL_INLET))
  | .outlet => .reading (signedOf 16 (s.fld fPWR_COOL_OUTLET))
  | .flow => .reading (s.fld fPWR_COOL_FLOW : Nat)
  | .pump => .reading (s.fld fPWR_COOL_PUMP_RPM : Nat)
  | .power => .reading (s.fld fPWR_NODE_P_NOW : Nat)
  | .soc => .reading (s.fld fPWR_EB_STATUS_SOC : Nat)
  | .vcore => .reading (s.fld fPWR_VCORE_VOUT : Nat)
  | .icore => .reading (s.fld fPWR_VCORE_IOUT : Nat)
  | .cond n => .state (bitOf (s.fld fPWR_STATE_COND) n.val)

/-- A PLDM request is answered (R472, R473).
(DEDUCED: log 149; PRESUMED: log 150.) -/
def execMctpRequest (m : MctpMsg) (s : State) : Host.Outcome State Fault Refusal :=
  if s.mctpUp m.port = false then .next s
  else match m.req with
    | .getTypes => .next (s.emit (.pldm (.types [0, 2])))
    | .getTid => .next (s.emit (.pldm (.tid s.ldg.tid)))
    | .setTid t => .next (({ s with ldg := { s.ldg with tid := t } } : State).emit (.pldm .ok))
    | .setEventReceiver a => .next (({ s with ldg := { s.ldg with receiver := a } } : State).emit (.pldm .ok))
    | .reading x => .next (s.emit (.pldm (s.pldmReading x)))
    | .other => .next (s.emit (.pldm .unsupported))

/-- A vendor-defined message reads 1 to 8 entries of the log from a start index, LOG_WR with them (R474).
(DEDUCED: log 149.) -/
def execLogReadVdm (p : MctpPort) (start count : Nat) (s : State) : Host.Outcome State Fault Refusal :=
  if s.mctpUp p = false then .next s
  else
    let wr := s.fld fLOG_WR_COUNT
    if 65536 ≤ start ∨ count = 0 ∨ 8 < count then .next (s.emit (.logRsp .invalidField wr []))
    else .next (s.emit (.logRsp .ok wr ((List.range count).flatMap (fun k => s.bytes (0x4010000000 + 32 * ((start + k) % 65536)) 32))))

end Sys2Proof.Machine
end

