-- ==== Sys2Proof/Machine/Power.lean ====
section
/-! DEFINITION. Power, thermal and cooling control (R442 to R457): the core voltage, the junction sensors, the clamp and the trip,
the feedforward from coming records, the energy buffer, the feedback loops, pace requests, conditions. -/

namespace Sys2Proof.Machine

open Sys2Proof

/-! ### Shared operations -/

/-- Change the loops' state. -/
def State.setPwr (s : State) (f : Pwr → Pwr) : State := { s with pwr := f s.pwr }

/-- Is the power processor RUNNING (R439)?
(DEDUCED: log 139; DESIGN CHOICE: log 148.) -/
def State.pwrRuns (s : State) : Bool := s.fld fLDG_STATE_PWR = 2

/-- A periodic action takes place: a period has passed since its latest run (R451).
(DEDUCED: log 139.) -/
def State.loopAt (s : State) (k : Fin 8) (period : Nat) : State :=
  let s1 := s.atLeast (s.pwr.ran[k] + period)
  s1.setPwr (fun w => { w with ran := w.ran.set k s1.now
                               seen := if w.seen.contains k.val then w.seen else k.val :: w.seen })

/-- Has every sensor been read since the power processor is RUNNING (R454)?
(DEDUCED: log 139.) -/
def State.sensed (s : State) : Bool := [2, 3, 4, 5, 7].all (fun k => s.pwr.seen.contains k)

/-- Is condition `n` active (R452)? -/
def State.cond (s : State) (n : Nat) : Bool := bitOf (s.fld fPWR_STATE_COND) n

/-- The 5 s of R437 begin when no emergency is active, after a restart of the power processor with its first full evaluation
(R455).
(DEDUCED: log 139.) -/
def State.calmCheck (s : State) : State :=
  if s.pwr.calm.isNone ∧ s.flag fPWR_STATE_EMERG = false ∧ s.sensed then s.setPwr (fun w => { w with calm := some s.now }) else s

/-- A condition is entered: PWR_COND, the count of emergencies, the warning of R253, the platform event of R473.
(DEDUCED: log 146.) -/
def State.condEnter (s : State) (n : Nat) : State :=
  let s1 := s.setFld fPWR_STATE_COND (s.fld fPWR_STATE_COND + 2 ^ n) |>.raise fPWR_ERR_COND
  let s2 := if n ≤ 8 then ((s1.count fPWR_EMERG_COUNT 1).raise fPWR_STATE_EMERG).setPwr (fun w => { w with calm := none }) else s1
  let s3 := (s2.event0 blkPWR 0x0601 n .ok).warnTrigger
  if s3.ldg.receiver.isSome ∧ s3.fld fLDG_STATE_MGT = 2 then s3.emit (.pldmEvent n true) else s3

/-- A condition clears: PWR_CLEAR when it was the last emergency.
(DEDUCED: log 146.) -/
def State.condClear (s : State) (n : Nat) : State :=
  let s1 := s.setFld fPWR_STATE_COND (s.fld fPWR_STATE_COND - 2 ^ n)
  let s2 := if n ≤ 8 ∧ bitsOf (s1.fld fPWR_STATE_COND) 0 9 = 0 then
      ((s1.setFld fPWR_STATE_EMERG 0).event0 blkPWR 0x0602 0 .ok).calmCheck else s1
  if s2.ldg.receiver.isSome ∧ s2.fld fLDG_STATE_MGT = 2 then s2.emit (.pldmEvent n false) else s2

/-- A condition's evaluation (R452): `enter` while it is not active enters it, `clear` while it is active clears it.
(DEDUCED: log 146.) -/
def State.evalCond (s : State) (n : Nat) (enter clear : Bool) : State :=
  if s.cond n then (if clear then s.condClear n else s) else if enter then s.condEnter n else s

/-- Is the buffer treated as empty (R449)? -/
def State.ebEmpty (s : State) : Bool := !s.flag fPWR_CFG_EB_EN || s.cond 8

/-- The state of charge and the discharge limit that the rules use (R449).
(DEDUCED: log 142.) -/
def State.soc (s : State) : Nat := if s.ebEmpty then s.fld fPWR_EB_CFG_SOC_MIN else s.fld fPWR_EB_STATUS_SOC
def State.ebMax (s : State) : Nat := if s.ebEmpty then 0 else s.fld fPWR_EB_POWER_EB_PMAX

/-! ### The coming records (R144) -/

/-- A coming record: its power class, its opening time, its length in slots, its length paced. -/
structure Coming where
  cls : Nat
  opens : Nat
  len : Nat
  paced : Nat
  deriving DecidableEq, Repr

/-- The records from `r`, which opens at `t`: at pace `p`, to the time `till`, at most `n`; a schedule that stops ends before a
step begins (R145).
(DEDUCED: log 142.) -/
def Image.coming (i : Image) (p till : Nat) (stop : Bool) : Nat → Nat → Nat → List Coming
  | 0, _, _ => []
  | n + 1, r, t =>
    if till < t then [] else
    let e := i.recAt r
    let l := e.len + e.len * p / 16
    { cls := e.pclass, opens := t, len := e.len, paced := l } ::
      (match i.next? r with
       | some m => if stop && (i.recAt m).stepStart then [] else i.coming p till stop n m (t + 8 * l)
       | none => [])

/-- The coming records, for 10 s or the whole loop: those after the open epoch, or those of an image that is to activate at its
SCH_ACT_TB.
(DEDUCED: log 142.) -/
def State.comingRecs (s : State) : List Coming :=
  let p := s.fld fSCH_PACE_IN_FORCE
  let till := s.sch.tb.toNat + 10 * secTicks
  match s.sch.active, s.sch.epoch with
  | some i, some e =>
    (match i.next? e.record with
     | some n => if s.run = 2 ∧ (i.recAt n).stepStart then [] else
         i.coming p till (decide (s.run = 2)) i.recs.length n (e.opened + 8 * e.lenPaced)
     | none => [])
  | _, _ =>
    match s.sch.held with
    | some h => if h.armed ∧ h.idleLoad ∧ s.run = 0 then h.img.coming p till false h.img.recs.length 0 h.actTb else []
    | none => []

/-- The epochs with their opening times, the open one first. -/
def State.epochsFrom (s : State) : List Coming :=
  match s.sch.active, s.sch.epoch with
  | some i, some e =>
    { cls := (i.recAt e.record).pclass, opens := e.opened, len := (i.recAt e.record).len, paced := e.lenPaced } :: s.comingRecs
  | _, _ => s.comingRecs

/-! ### Pump and pace -/

/-- The conditions that force the pump to 100 % (R452). -/
def State.pumpForced (s : State) : Bool := [2, 3, 4, 5].any (fun n => s.cond n)

/-- The units of the pump loop: 1 % is 40,960.
(DESIGN CHOICE: log 140.) -/
def pctUnit : Nat := 40960

/-- The pump duty (R447): it rises without limit and falls by 5 % per second; manual duty and forced duty override it.
(DESIGN CHOICE: log 140.) -/
def State.pumpEval (s : State) : State :=
  if s.pwrRuns = false ∨ s.sensed = false then s else
  let w := s.pwr
  let want := (max ((s.fld fPWR_PUMP_CFG_PUMP_MIN * pctUnit : Nat) : Int)
    (min ((100 * pctUnit : Nat) : Int) (((w.ffDuty * pctUnit : Nat) : Int) + w.trim))).toNat
  let fall := 5 * pctUnit * (s.now - w.dutyAt) / secTicks
  let d := if s.pumpForced then 100 * pctUnit
    else if s.flag fPWR_CFG_PUMP_MAN then s.fld fPWR_PUMP_MAN_PCT * pctUnit
    else max want (w.duty - fall)
  let pct := ceilDiv d pctUnit
  let s1 := s.setPwr (fun x => { x with duty := d, dutyAt := s.now })
  if pct = s.fld fPWR_PUMP_DUTY then s1 else (s1.setFld fPWR_PUMP_DUTY pct).emit (.pump pct)

/-- The level that an active condition demands (R452).
(DEDUCED: log 147.) -/
def State.condPace (s : State) (n : Nat) : Nat :=
  if s.cond n = false then 0
  else match n with
    | 0 | 2 | 5 => s.fld fPWR_TJ_CFG_PACE_HOT
    | 1 | 3 | 4 | 6 | 7 => 15
    | _ => 0

/-- The level that the power processor wants (R450). -/
def State.paceWant (s : State) : Nat :=
  if s.flag fPWR_CFG_PACE_EN then
    ((List.range 13).map (fun n => s.condPace n)).foldl max (max s.pwr.paceTj s.pwr.energy)
  else 0

/-- Request a level: it is part of the device's own level (R143).
(DEDUCED: log 147.) -/
def State.requestPace (s : State) (n : Nat) : State :=
  let s1 := s.setFld fPWR_STATE_REQ n
  ({ s1 with sch := { s1.sch with pacePwr := n } } : State).ownPace

/-- A higher request is flooded at once, and the request of a processor that may not request pace is 0 (R450).
(DEDUCED: log 147.) -/
def State.paceEval (s : State) : State :=
  if s.pwrRuns = false ∨ s.sensed = false then s
  else if s.fld fPWR_STATE_REQ < s.paceWant ∨ (s.flag fPWR_CFG_PACE_EN = false ∧ s.fld fPWR_STATE_REQ ≠ 0) then s.requestPace s.paceWant
  else s

/-! ### The plan of the energy buffer (R448) -/

/-- The buffer at 1 % of its capacity, in watts times slots times 100: a slot is 10 ns. -/
def State.ebUnit (s : State) : Nat := s.fld fPWR_EB_CFG_EB_WH * 3600 * 100000000

/-- One part of a record, `n` slots at draw `w`: the energy after it, and the lowest so far. -/
def State.planPart (s : State) (a : Int × Int) (w n : Nat) : Int × Int :=
  let lim := s.fld fPWR_NODE_LIMIT
  let full : Int := (s.fld fPWR_EB_CFG_SOC_MAX * s.ebUnit : Nat)
  let e : Int := if lim < w then a.1 - (100 * ((w - lim) * n) : Nat)
    else if w < lim ∧ a.1 < full then min full (a.1 + (100 * (min (s.fld fPWR_EB_POWER_CHG_W) (lim - w) * n) : Nat))
    else a.1
  (e, min a.2 e)

/-- The lowest energy of the plan at pace `p`.
(DEDUCED: log 142.) -/
def State.plan (s : State) (l : List Coming) (p : Nat) : Int :=
  let e0 : Int := (s.soc * s.ebUnit : Nat)
  (l.foldl (fun a c => s.planPart (s.planPart a (s.fld (fPWR_CLASS_NODE_W c.cls)) c.len) (s.fld fPWR_NODE_IDLE_W) (c.len * p / 16))
    (e0, e0)).2

/-- Does the power processor plan the buffer?
(DEDUCED: log 142.) -/
def State.plans (s : State) : Bool := s.flag fPWR_CFG_EB_EN && s.fld fPWR_NODE_LIMIT ≠ 0

/-- Does the plan hold at pace `p`?
(DEDUCED: log 142.) -/
def State.planHolds (s : State) (l : List Coming) (p : Nat) : Bool :=
  decide (((s.fld fPWR_EB_CFG_SOC_MIN * s.ebUnit : Nat) : Int) ≤ s.plan l p)

/-- The energy request: the smallest level for which the plan holds, 15 when none does. -/
def State.energyReq (s : State) (l : List Coming) : Nat := ((List.range 16).find? (fun p => s.planHolds l p)).getD 15

/-! ### Core voltage (R442) -/

/-- Change VOUT_COMMAND.
(DEDUCED: log 144.) -/
def State.setVout (s : State) (mv : Nat) : State := (s.setPwr (fun w => { w with vcmd := mv, vstep := s.now })).emit (.vout mv)

/-- One iteration: a step of 5 mV towards the lowest voltage, from 650 to 835 mV, at which every terrace's timing monitor reports
margin; the operand gives the lowest voltage of each terrace.
(DEDUCED: log 144.) -/
def execVoltageLoop (low : List Nat) (s : State) : Host.Outcome State Fault Refusal :=
  if s.pwrRuns = false ∨ s.sensed = false ∨ low = [] then .next s else
  let s1 := s.loopAt 0 msTicks
  let goal := max 650 (min 835 (ceilTo (low.foldl max 0) 5))
  let base := s1.pwr.vcmd - 5 * s1.pwr.boost
  if s1.now < s1.pwr.vstep + msTicks then .next s1
  else if base < goal then .next (s1.setVout (s1.pwr.vcmd + 5))
  else if goal < base then .next (s1.setVout (s1.pwr.vcmd - 5))
  else .next s1

/-- The first boundary after now at which the class rises.
(DEDUCED: log 144.) -/
def risingBoundary (tb : Nat) : List Coming → Option Nat
  | a :: b :: l => if a.cls < b.cls ∧ tb < b.opens then some b.opens else risingBoundary tb (b :: l)
  | _ => none

/-- The time of the replay boundary that is scheduled, if it is a rising one. -/
def State.risingReplay (s : State) : Option Nat :=
  match s.sch.active, s.sch.epoch, s.sch.trs with
  | some i, some e, t :: l =>
    if s.running ∧ s.fld fSCH_ATTEMPT_ATTEMPT < s.sch.maxAtt ∧ (i.recAt e.record).pclass < (i.recAt s.sch.stepRec).pclass then some (l.foldl min t)
    else none
  | _, _, _ => none

/-- One step of the addition, once `t` has come, for a boundary at `b` (SCH_TB).
(DEDUCED: log 144.) -/
def State.boostStep (s : State) (t b : Nat) : State :=
  let s1 := (s.atTb t).atLeast (s.pwr.vstep + msTicks)
  let till := s1.now + (b - s1.sch.tb.toNat) + 20 * msTicks
  (s1.setVout (min 850 (s1.pwr.vcmd + 5))).setPwr (fun w => { w with boost := w.boost + 1, boostTill := some (max till (w.boostTill.getD 0)) })

/-- The addition rises by one step at 5, 4 and 3 ms before a rising boundary, and one step a millisecond for a rising replay
boundary; it is not applied twice. -/
def execVoutBoostStep (s : State) : Host.Outcome State Fault Refusal :=
  if s.pwrRuns = false ∨ s.sensed = false ∨ 3 ≤ s.pwr.boost then .next s
  else match s.risingReplay, risingBoundary s.sch.tb.toNat s.epochsFrom with
    | some b, _ => .next (s.boostStep 0 b)
    | none, some b => if s.sch.trs = [] then .next (s.boostStep (b - (5 - s.pwr.boost) * msTicks) b) else .next s
    | none, none => .next s

/-- The addition ends 20 ms after the boundary, one step a millisecond.
(DEDUCED: log 144.) -/
def execVoutBoostRelease (s : State) : Host.Outcome State Fault Refusal :=
  match s.pwr.boostTill with
  | none => .next s
  | some t =>
    if s.pwrRuns = false ∨ s.sensed = false then .next s
    else if s.pwr.boost = 0 then .next (s.setPwr (fun w => { w with boostTill := none }))
    else
      let s1 := s.atLeast (max t (s.pwr.vstep + msTicks))
      .next ((s1.setVout (s1.pwr.vcmd - 5)).setPwr (fun w =>
        { w with boost := w.boost - 1, boostTill := if w.boost ≤ 1 then none else w.boostTill }))

/-! ### Junction temperature (R443 to R445) -/

/-- The largest of the sensor readings. -/
def maxTemp : List Int → Option Int
  | [] => none
  | x :: l => some (l.foldl max x)

/-- A trip (R445): therm_trip_n goes low, every clock stops, and the device is held as though por_n were low.
(DEDUCED: log 130, 145.) -/
def State.trip (s : State) : State := ((s.coldState 0x01).setLdg (fun l => { l with tripped := true })).emit (.pin "therm_trip_n" false)

/-- The clamp engages (R444): it is counted, PWR_CLAMP is raised, the epoch in which it acts faults.
(DEDUCED: log 145.) -/
def State.clampOn (s : State) (tj : Int) : State :=
  let st : Status := if s.running then .epochFault else .ok
  ((((((s.raise fPWR_STATE_CLAMP_ACT).count fPWR_CLAMPS_COUNT 1).pulse 258).event0 blkPWR 0x0603 (twosOf 16 tj) st).fault 7).evalCond 1 true
    false).paceEval

/-- Every 10 µs hardware reads the sensors: the trip at 115 °C, the clamp at 105 °C, or at 100 °C while the governor acts (R454).
(DEDUCED: log 145.) -/
def execSensorScan (r : List Int) (s : State) : Host.Outcome State Fault Refusal :=
  if s.ldg.tripped then .next s else
  let s0 := s.loopAt 1 (10 * usTicks)
  match maxTemp r with
  | none => .next s0
  | some t =>
    let gov := s0.flag fPWR_STATE_GOV
    let below := decide (t < 16 * (if gov then 97 else 102))
    let s1 := s0.setPwr (fun w => { w with sensors := r, cool := if below then some (w.cool.getD s0.now) else none })
    if 16 * 115 ≤ t then .next s1.trip
    else if 16 * (if gov then 100 else 105) ≤ t ∧ s1.flag fPWR_STATE_CLAMP_ACT = false then .next (s1.clampOn t)
    else .next s1

/-- The clamp is released once every sensor has read below the release threshold for 10 ms (R444).
(DEDUCED: log 145.) -/
def execClampRelease (s : State) : Host.Outcome State Fault Refusal :=
  match s.pwr.cool with
  | none => .next s
  | some t =>
    if s.flag fPWR_STATE_CLAMP_ACT = false then .next s
    else .next ((((s.atLeast (t + 10 * msTicks)).setFld fPWR_STATE_CLAMP_ACT 0).pulse 258).evalCond 1 false true)

/-- Every 1 ms the power processor reads the largest value (R443). -/
def execTjSample (s : State) : Host.Outcome State Fault Refusal :=
  if s.pwrRuns = false then .next s else
  let s1 := s.loopAt 2 msTicks
  match maxTemp s1.pwr.sensors with
  | some t => .next (s1.setFld fPWR_TJ_TJ (twosOf 16 t))
  | none => .next s1

/-! ### Feedforward (R446 to R449) -/

/-- FF_DUTY: the largest PUMP_PCT among the epochs that are open or open within LEAD_PUMP seconds (R447).
(DEDUCED: log 143.) -/
def State.ffDuty (s : State) : Nat :=
  if s.flag fPWR_CFG_FF_EN then
    ((s.epochsFrom.filter (fun c => decide (c.opens ≤ s.sch.tb.toNat + s.fld fPWR_LEAD_LEAD_PUMP * secTicks))).map
      (fun c => s.fld (fPWR_CLASS_PUMP_PCT c.cls))).foldl max 0
  else s.fld fPWR_PUMP_CFG_PUMP_MIN

/-- The classes, of the open and the coming epochs, above LIMIT + EB_PMAX (R449).
(DEDUCED: log 143.) -/
def State.classesOver (s : State) : List Nat :=
  if s.fld fPWR_NODE_LIMIT = 0 then []
  else (List.range 16).filter (fun k => s.epochsFrom.any (fun c => c.cls = k) &&
    decide (s.fld fPWR_NODE_LIMIT + s.ebMax < s.fld (fPWR_CLASS_NODE_W k)))

/-- Every 100 ms: FF_DUTY, the plan of the buffer, the energy request.
(DEDUCED: log 143.) -/
def execFeedforwardEval (s : State) : Host.Outcome State Fault Refusal :=
  if s.pwrRuns = false then .next s else
  let s1 := s.loopAt 6 (100 * msTicks)
  let l := s1.comingRecs
  let p := if s1.plans then s1.energyReq l else 0
  let low := if s1.plans ∧ s1.ebUnit ≠ 0 then (s1.plan l p / (s1.ebUnit : Int)).toNat else 0
  let big := s1.classesOver
  let s2 := if big.any (fun k => !s1.pwr.over_.contains k) then s1.raise fPWR_ERR_CLASS_OVER else s1
  .next ((((s2.setPwr (fun w => { w with ffDuty := s1.ffDuty, energy := p, over_ := big })).setFld fPWR_EB_STATUS_PLAN_MIN low).pumpEval).paceEval)

/-! ### The loops (R451, R452) -/

/-- The integral after an iteration: held within 0 and 100 / KI, here `cap` / KI, and not integrated while the output is at a
limit.
(DESIGN CHOICE: log 140.) -/
def integrate (i e : Int) (ki cap : Nat) (atLimit : Bool) : Int :=
  let n := if atLimit then i else i + e
  if ki = 0 then n else max 0 (min ((cap / ki : Nat) : Int) n)

/-- The junction loop, 100 Hz: u is in units of 1 / 409,600 of a level.
(DESIGN CHOICE: log 140.) -/
def execJunctionLoop (s : State) : Host.Outcome State Fault Refusal :=
  if s.pwrRuns = false then .next s else
  let s1 := s.loopAt 3 (10 * msTicks)
  let tj := signedOf 16 (s1.fld fPWR_TJ_TJ)
  let e := tj - 16 * (s1.fld fPWR_TJ_CFG_TJ_TARGET : Nat)
  let ki := s1.fld fPWR_TJ_GAIN_KI
  let u := 100 * (s1.fld fPWR_TJ_GAIN_KP : Nat) * e + (ki : Nat) * s1.pwr.iTj
  let lvl := if s1.flag fPWR_CFG_TJ_EN then min 15 (ceilDiv u.toNat 409600) else 0
  let s2 := s1.setPwr (fun w => { w with
    paceTj := lvl, iTj := integrate w.iTj e ki 40960000 (decide (lvl = 0 ∨ lvl = 15)) })
  let warn : Int := 16 * (s1.fld fPWR_TJ_CFG_TJ_WARN : Nat)
  .next (((s2.evalCond 0 (decide (1600 ≤ tj)) (decide (tj < 1552))).evalCond 9 (decide (warn ≤ tj)) (decide (tj < warn - 32))).calmCheck.paceEval)

/-- The count of consecutive failed reads of sensor `k`.
(DEDUCED: log 141.) -/
def State.senseRead (s : State) (k : Fin 5) (ok : Bool) : State :=
  s.setPwr (fun w => { w with fails := w.fails.set k (if ok then 0 else w.fails[k] + 1) })

/-- SENSOR_LOST (R452).
(DEDUCED: log 141.) -/
def State.sensorLost (s : State) : State :=
  let f := s.pwr.fails
  s.evalCond 5 (decide (3 ≤ f[0] ∨ 3 ≤ f[1] ∨ 3 ≤ f[2])) (decide (f[0] = 0 ∧ f[1] = 0 ∧ f[2] = 0))

/-- The coolant loop, 10 Hz: the coolant sensors, the converter, the trim of the pump.
(DESIGN CHOICE: log 140.) -/
def execCoolantLoop (x : CoolIn) (s : State) : Host.Outcome State Fault Refusal :=
  if s.pwrRuns = false then .next s else
  let s1 := s.loopAt 4 (100 * msTicks)
  let s2 := (match x.inlet with | some t => s1.setFld fPWR_COOL_INLET (twosOf 16 t) | none => s1).senseRead 0 x.inlet.isSome
  let s3 := (match x.outlet with | some t => s2.setFld fPWR_COOL_OUTLET (twosOf 16 t) | none => s2).senseRead 1 x.outlet.isSome
  let s4 := s3.sensorLost
  let s5 : State := if s4.flag fPWR_CFG_EB_EN then
      (match x.eb with
       | some (soc, bad) => ((s4.setFld fPWR_EB_STATUS_SOC soc).senseRead 4 true).evalCond 8 bad (!bad)
       | none =>
         let t := (s4.raise fPWR_ERR_PMBUS).senseRead 4 false
         t.evalCond 8 (decide (3 ≤ t.pwr.fails[4])) false)
    else s4
  let out := signedOf 16 (s5.fld fPWR_COOL_OUTLET)
  let top : Int := 16 * (s5.fld fPWR_COOL_CFG_TOUT_MAX : Nat)
  let wrn : Int := 16 * (s5.fld fPWR_COOL_CFG_TOUT_WARN : Nat)
  let s6 : State := (s5.evalCond 2 (decide (top ≤ out)) (decide (out < top - 32))).evalCond 10 (decide (wrn ≤ out)) (decide (out < wrn - 32))
  let s7 : State := if s6.fld fPWR_NODE_LIMIT ≠ 0 then
      s6.evalCond 11 (decide (s6.soc < s6.fld fPWR_EB_CFG_SOC_WARN)) (decide (s6.fld fPWR_EB_CFG_SOC_WARN + 2 ≤ s6.soc)) else s6
  let e := out - 16 * (s7.fld fPWR_COOL_CFG_TOUT_TARGET : Nat)
  let ki := s7.fld fPWR_COOL_GAIN_KI
  let lim : Int := (40 * pctUnit : Nat)
  let u := 10 * (s7.fld fPWR_COOL_GAIN_KP : Nat) * e + (ki : Nat) * s7.pwr.iCool
  let trim := if s7.flag fPWR_CFG_COOL_EN then max (-lim) (min lim u) else 0
  let s8 := s7.setPwr (fun w => { w with
    trim := trim
    iCool := integrate w.iCool e ki 4096000 (decide (trim = lim ∨ trim = -lim) || !s7.flag fPWR_CFG_COOL_EN) })
  .next s8.calmCheck.pumpEval.paceEval

/-- Since when something holds. -/
def sinceWhen (since : Option Nat) (now : Nat) (holds : Bool) : Option Nat := if holds then some (since.getD now) else none

/-- Has it held for a time? -/
def heldFor (since : Option Nat) (now n : Nat) : Bool := match since with | some t => decide (t + n ≤ now) | none => false

/-- NODE_OVER (R452), evaluated while LIMIT is not 0.
(DEDUCED: log 141.) -/
def State.nodeOver (s : State) : State :=
  let lim := s.fld fPWR_NODE_LIMIT
  let p := s.fld fPWR_NODE_P_NOW
  if lim = 0 then s.setPwr (fun w => { w with overSince := none, minSince := none, underSince := none })
  else
    let s1 := s.setPwr (fun w => { w with
      overSince := sinceWhen w.overSince s.now (decide (lim + s.ebMax < p))
      minSince := sinceWhen w.minSince s.now (decide (lim < p ∧ s.soc ≤ s.fld fPWR_EB_CFG_SOC_MIN))
      underSince := sinceWhen w.underSince s.now (decide (p ≤ lim)) })
    s1.evalCond 7 (heldFor s1.pwr.overSince s.now (100 * msTicks) || heldFor s1.pwr.minSince s.now (100 * msTicks))
      (heldFor s1.pwr.underSince s.now secTicks)

/-- Is the converter to be armed (R449): from LEAD_BUF seconds before an epoch with NODE_W above LIMIT opens until it closes?
(DEDUCED: log 142.) -/
def State.ebArmed (s : State) : Bool :=
  s.fld fPWR_NODE_LIMIT ≠ 0 && s.epochsFrom.any (fun c =>
    decide (s.fld fPWR_NODE_LIMIT < s.fld (fPWR_CLASS_NODE_W c.cls)) &&
    decide (c.opens ≤ s.sch.tb.toNat + s.fld fPWR_LEAD_LEAD_BUF * secTicks))

/-- The converter's command (R449): armed, it discharges what holds the node's input at LIMIT; otherwise it charges while the
input stays at or below LIMIT.
(DEDUCED: log 141.) -/
def State.convert (s : State) : State :=
  let lim := s.fld fPWR_NODE_LIMIT
  let p := s.fld fPWR_NODE_P_NOW
  let w := if s.ebArmed ∧ s.fld fPWR_EB_CFG_SOC_MIN < s.soc then min s.ebMax (s.pwr.setpoint + p - lim) else 0
  let mode := if s.flag fPWR_CFG_EB_EN = false then 0
    else if s.ebArmed then (if w = 0 then 2 else 3)
    else if (lim = 0 ∨ p ≤ lim) ∧ s.soc < s.fld fPWR_EB_CFG_SOC_MAX ∧ s.fld fPWR_EB_POWER_CHG_W ≠ 0 then 1 else 0
  let s1 := s.setFld fPWR_EB_STATUS_MODE mode
  if w = s.pwr.setpoint then s1 else (s1.setPwr (fun k => { k with setpoint := w })).emit (.converter w)

/-- The node power loop, 100 Hz: the node sensor, the core regulator, the converter.
(DEDUCED: log 141.) -/
def execNodePowerLoop (x : NodeIn) (s : State) : Host.Outcome State Fault Refusal :=
  if s.pwrRuns = false then .next s else
  let s1 := s.loopAt 5 (10 * msTicks)
  let s2 := (match x.pin with
    | some p => (s1.setFld fPWR_NODE_P_NOW p).senseRead 2 true
    | none => (s1.raise fPWR_ERR_PMBUS).senseRead 2 false).sensorLost
  let s3 := match x.vr with
    | some (mv, amps, bad) => (((s2.setFld fPWR_VCORE_VOUT mv).setFld fPWR_VCORE_IOUT amps).senseRead 3 true).evalCond 6 bad (!bad)
    | none =>
      let t := (s2.raise fPWR_ERR_PMBUS).senseRead 3 false
      t.evalCond 6 (decide (3 ≤ t.pwr.fails[3])) false
  let s4 := if x.pin.isSome then s3.nodeOver else s3
  let s5 := s4.calmCheck
  .next ((if s5.sensed ∧ x.pin.isSome then s5.convert else s5).pumpEval.paceEval)

/-- Once per second a lower request is flooded, one level down, when the lower level passes the plan (R450).
(DEDUCED: log 147.) -/
def execPaceLower (s : State) : Host.Outcome State Fault Refusal :=
  let req := s.fld fPWR_STATE_REQ
  if s.pwrRuns = false ∨ s.sensed = false ∨ s.flag fPWR_CFG_PACE_EN = false ∨ req ≤ s.paceWant then .next s
  else
    let s1 := s.atLeast (s.pwr.lowered + secTicks)
    if s1.plans ∧ s1.planHolds s1.comingRecs (req - 1) = false then .next s1
    else .next ((s1.setPwr (fun w => { w with lowered := s1.now })).requestPace (req - 1))

/-- Each second the pulses of the tachometer and of the flow sensor are counted (R456).
(DEDUCED: log 146.) -/
def execTachFlowCount (tach flow : Nat) (s : State) : Host.Outcome State Fault Refusal :=
  if s.pwrRuns = false then .next s else
  let s1 := s.loopAt 7 secTicks
  let rpm := min 0xFFFF (tach * 60 / s1.fld fPWR_PUMP_CFG_TACH_PPR)
  let q := min 0xFFFF (flow * 600 / s1.fld fPWR_FLOW_CFG_K_FLOW)
  let low := decide (rpm < s1.fld fPWR_PUMP_CFG_TACH_MIN)
  let driven := decide (s1.fld fPWR_PUMP_CFG_PUMP_MIN ≤ s1.fld fPWR_PUMP_DUTY)
  let s2 := ((s1.setFld fPWR_COOL_PUMP_RPM rpm).setFld fPWR_COOL_FLOW q).setPwr (fun w => { w with
    tachLow := if low && driven then w.tachLow + 1 else 0, tachOk := if low then 0 else w.tachOk + 1 })
  let s3 := s2.evalCond 3 (decide (q < s2.fld fPWR_FLOW_CFG_FLOW_MIN)) (decide (s2.fld fPWR_FLOW_CFG_FLOW_MIN ≤ q))
  let s4 := s3.evalCond 12 (decide (q < s3.fld fPWR_FLOW_CFG_FLOW_WARN)) (decide (s3.fld fPWR_FLOW_CFG_FLOW_WARN ≤ q))
  let s5 := s4.evalCond 4 (decide (2 ≤ s4.pwr.tachLow)) (decide (2 ≤ s4.pwr.tachOk))
  .next s5.calmCheck.pumpEval.paceEval

end Sys2Proof.Machine
end

