-- ==== Sys2Proof/Machine/Trf.lean ====
section
/-! DEFINITION. Egress scheduling and shaping (R384, R386 to R389). -/

namespace Sys2Proof.Machine

open Sys2Proof

/-! ### Shapers and policers: writes and refills -/

/-- A write of TRF_SHP[i] (R389): it takes effect at the next refill. -/
def State.shaperWrite (s : State) (i : Nat) (v : BitVec 64) : State :=
  if i = 0 then s else
  (s.refilled.setReg (rTRF_SHP i) (v &&& 0x7FFFFFFFFFFFFFFF)).setEth (fun e => { e with newShps := (i, s.sch.tb.toNat, v &&& 0x7FFFFFFFFFFFFFFF) :: e.newShps.filter (fun x => decide (x.1 ≠ i)) })

def execShaperWrite (i : Fin 4096) (v : BitVec 64) (s : State) : Host.Outcome State Fault Refusal := .next (s.shaperWrite i.val v)

/-- A write of TRF_POL_SIZE[i] commits both registers (R389); MODE 3 is reserved (R391); MODE 1 with CIR above PIR is ignored. -/
def State.policerCommit (s : State) (i : Nat) (v : BitVec 64) : State :=
  let w := (v &&& 0x077FFFFFFFFFFFFF).toNat
  let mode := bitsOf w 57 2
  if i = 0 then s
  else if mode = 1 ∧ s.fld (fTRF_POL_RATE_PIR i) < s.fld (fTRF_POL_RATE_CIR i) then s.raise fTRF_ERR_CFG_DROP
  else
    let w1 := if mode = 3 then putBits w 57 2 (s.fld (fTRF_POL_SIZE_MODE i)) else w
    (s.refilled.setReg (rTRF_POL_SIZE i) (BitVec.ofNat 64 w1)).setEth (fun e => { e with
      newPols := (i, s.sch.tb.toNat, s.reg (rTRF_POL_RATE i), BitVec.ofNat 64 w1) :: e.newPols.filter (fun x => decide (x.1 ≠ i)) })

def execPolicerCommit (i : Fin 4096) (v : BitVec 64) (s : State) : Host.Outcome State Fault Refusal := .next (s.policerCommit i.val v)

/-- A refill, at the next time-base value that is a multiple of 1,024, or all that are due (R384, R389). -/
def execBucketRefill (s : State) : Host.Outcome State Fault Refusal :=
  let k := max (s.eth.refill + 1) (s.sch.tb.toNat / 1024)
  .next ((s.atTb (1024 * k)).refillTo k)

/-! ### The scheduler (R386 to R388) -/

/-- Indices of the nodes of a class and of a partition. -/
def cNode (l c : Nat) : Nat := 8 * l + c
def pNode (l c p : Nat) : Nat := (8 * l + c) * 65 + p

/-- The shapers on the path of a frame of the class tree. -/
def State.path (s : State) (l c p : Nat) : List Nat :=
  ([s.fld (fTRF_LNODE_SHAPER l), s.fld (fTRF_CNODE_SHAPER (cNode l c)), s.fld (fTRF_PNODE_SHAPER (pNode l c p))]).filter (fun x => decide (x ≠ 0))

/-- Is a shaper's bucket not negative?
(DEDUCED: log 115.) -/
def State.shaperOk (s : State) (i : Nat) : Bool := match alook i s.eth.shps with | some x => 0 ≤ x.level | none => true

/-- Charge a shaper for a frame.
(DEDUCED: log 115.) -/
def State.chargeShaper (s : State) (len i : Nat) : State :=
  s.setEth (fun e => { e with shps := amod i (fun x => { x with level := x.level - 256 * charged len (bitsOf x.cfg.toNat 56 7) }) e.shps })

/-- Weighted fair service (R387): the child with the smallest F, the lower index on ties.
(DEDUCED: log 116.) -/
def State.wfPick (s : State) (level : Nat) (l : List Nat) : Option Nat :=
  let f (i : Nat) : Nat := (alook (level, i) s.eth.fin).getD 0
  (sortBy (fun a b => decide (a ≤ b)) l).foldl (fun (a : Option Nat) i => match a with | none => some i | some j => if f i < f j then some i else some j) none

/-- Serve a child: F ← max(V, F) + bytes × 65,536 / WEIGHT, and V becomes the F of the last child served.
(DEDUCED: log 116.) -/
def State.wfServe (s : State) (level parent child bytes weight : Nat) : State :=
  let v := (alook (level, parent) s.eth.virt).getD 0
  let f := max v ((alook (level, child) s.eth.fin).getD 0)
  s.setEth (fun e => { e with fin := aput (level, child) (f + bytes * 65536 / max 1 weight) e.fin, virt := aput (level, parent) f e.virt })

/-- Does the congestion pacing of its queue pair allow a frame (R358, R388)?
(DEDUCED: log 108.) -/
def State.paceOk (s : State) (f : TxFrame) : Bool :=
  match alook f.queue s.rdm.qps with | some q => q.rate.isNone || q.paceAt ≤ s.now | none => true

/-- A frame of a queue pair whose rate is cut has left: the next leaves no sooner than its length takes at that rate.
(DEDUCED: log 108.) -/
def Qp.paced (q : Qp) (now len : Nat) : Qp :=
  match q.rate with
  | some r => { q with paceAt := max now q.paceAt + ceilDiv (8 * len * 800000) (max 1 r) }
  | none => q

/-- Does a shaper or a pacing hold a frame of the class tree (R388)? -/
def State.txHeld (s : State) (f : TxFrame) : Bool := !s.paceOk f || !(s.path f.port f.cls f.part).all s.shaperOk

/-- May a frame of the class tree leave its port: no pause of its class, nothing that holds it? -/
def State.txReady (s : State) (f : TxFrame) : Bool := (alook (f.port, f.cls) s.eth.pauses).isNone && !s.txHeld f

/-- May a control frame leave: a packet of the transport when its class is not paused (R367)?
(DEDUCED: log 116.) -/
def State.ctrlReady (s : State) (f : TxFrame) : Bool :=
  match f.body with | .rdma .. => (alook (f.port, f.cls) s.eth.pauses).isNone | _ => true

/-- The frame of the class tree that leaves next, of those that may.
(DEDUCED: log 116.) -/
def State.treePick (s : State) (l : Nat) : Option TxFrame :=
  let ready := s.eth.txq.filter (fun f => f.port = l && !f.ctrl && s.txReady f)
  let classes := (List.range 8).filter (fun c => ready.any (fun f => f.cls = c))
  let cls := ((classes.reverse.find? (fun c => s.flag (fTRF_CNODE_STRICT (cNode l c)))).map (cNode l ·)).orElse
    (fun _ => s.wfPick 1 (classes.map (cNode l ·)))
  match cls with
  | none => none
  | some n =>
    let inC := ready.filter (fun f => cNode l f.cls = n)
    match s.wfPick 2 (inC.map (fun f => pNode l f.cls f.part)) with
    | none => none
    | some k =>
      let inP := inC.filter (fun f => pNode l f.cls f.part = k)
      match s.wfPick 3 (inP.map (fun f => k * 1048576 + f.queue)) with
      | none => none
      | some q => inP.find? (fun f => k * 1048576 + f.queue = q)

/-- The address of a query: broadcast for IPv4, the solicited node's for IPv6.
(PRESUMED: log 114.) -/
def askMac (g : BitVec 128) : BitVec 48 :=
  if gidV4 g then 0xFFFFFFFFFFFF else BitVec.ofNat 48 (0x3333FF000000 + beNat ((gidBytes g).drop 13))

/-- A frame leaves (R369): tagged with its partition's VID and a PCP equal to its class, or untagged. -/
def State.txSend (s : State) (f : TxFrame) : State :=
  let vid := s.fld (fETH_PVLAN_VID f.part)
  let mac : BitVec 48 := match f.body with
    | .rdma k _ _ => (alook (s.nextHop f.port k.gid) s.eth.neigh).getD 0
    | .mgmt _ m => m
    | .ask g => askMac g
  let s1 := (s.setEth (fun e => { e with txq := e.txq.erase f })).count (fETH_TX_FRAMES_COUNT f.port) 1
  let s2 := if f.ctrl then s1 else { s1 with rdm := { s1.rdm with qps := amod f.queue (fun q => q.paced s.now f.len) s1.rdm.qps } }
  let pcp := if vid = 0 then 0 else f.cls
  s2.emit (.ethTx f.port vid pcp mac f.body (match f.body with | .rdma k d e => s.roceFrame k d e f.port vid pcp mac | _ => []))

/-- Note which frames of a port only a shaper or a pacing holds; the hold of a work request lasts while one of its frames is
held (R28, R388).
(DEDUCED: log 115.) -/
def State.noteBlocked (s : State) (l : Nat) : State :=
  let s1 := s.setEth (fun e => { e with txq := e.txq.map (fun f =>
    if f.port = l && !f.ctrl then { f with blocked := (alook (f.port, f.cls) e.pauses).isNone && s.txHeld f } else f) })
  (s.que.cmds.map (fun c => c.id)).foldl (fun t id => t.shapeCmd id (s1.eth.txq.any (fun f => f.cmd = some id && f.blocked))) s1

/-- The share of an open sheaf that is being copied to a namespace over associations of logical port `l` (R264, R386).
(DEDUCED: log 115.) -/
def State.sheafShare (s : State) (l : Fin 16) : Option Nat :=
  match s.ckp.sheaf with
  | some x => (match s.ns? x.target with
    | some n => if x.destKind = 3 ∧ x.snap.isSome ∧ n.ports.contains l then some x.share else none
    | none => none)
  | none => none

/-- At a transmit opportunity of a logical port the scheduler chooses a frame (R386). `sheaf` is the length of the frame that an
open sheaf has ready for the port.
(DEDUCED: log 116.) -/
def execEthTxSelect (l : Fin 16) (sheaf : Option Nat) (s : State) : Host.Outcome State Fault Refusal :=
  let n := l.val
  if s.flag (fETH_LPORT_STATUS_LINK n) = false then .next s
  else match s.eth.txq.find? (fun f => f.port = n && f.ctrl && s.ctrlReady f) with
    | some f => .next (s.txSend f)
    | none =>
      let s1 := s.refilled.noteBlocked n
      let tree := s1.treePick n
      let share := (s1.sheafShare l).getD 0
      let flow : Bool := match sheaf, s1.sheafShare l with | some _, some _ => true | _, _ => false
      let first := flow && (share = 100 || tree.isNone || s1.wfPick 0 [2 * n, 2 * n + 1] = some (2 * n))
      if first then
        let len := sheaf.getD 0
        .next (((s1.wfServe 0 n (2 * n) len share).count (fETH_TX_FRAMES_COUNT n) 1).emit (.ethSheaf n len))
      else match tree with
        | none => .next s1
        | some f =>
          let s2 := if flow then s1.wfServe 0 n (2 * n + 1) f.len (100 - share) else s1
          let c := cNode n f.cls
          let k := pNode n f.cls f.part
          let s3 := s2.wfServe 1 n c f.len (s.fld (fTRF_CNODE_WEIGHT c)) |>.wfServe 2 c k f.len (s.fld (fTRF_PNODE_WEIGHT k))
            |>.wfServe 3 k (k * 1048576 + f.queue) f.len 1
          let s4 := (s.path n f.cls f.part).foldl (fun t i => t.chargeShaper f.len i) s3
          .next ((s4.txSend f).noteBlocked n)

/-- A bucket's level in bytes, as TRF_SHP_LEVEL shows it (R391). -/
def State.shpLevel (s : State) (i : Nat) : Nat := match alook i s.eth.shps with | some x => twosOf 32 (x.level / 256) | none => 0

end Sys2Proof.Machine
end

