-- ==== Sys2Proof/Machine/RegW.lean ====
section
/-! DEFINITION. Writes to the registers of BAR0 and BAR2 (R4 to R8, R278, R282, R308, R309), and what a read of BAR0 returns. -/

namespace Sys2Proof.Machine

open Sys2Proof

/-! ### Access codes and ranges (R4, R6, R464) -/

/-- Is a value of a field no reserved encoding (R6)? `word` is the word as written so far, its higher fields first. -/
def ruleAllows (r : FieldRule) (word v : Nat) : Bool :=
  match r with
  | .any => true
  | .range lo hi => decide (lo ≤ v ∧ v ≤ hi)
  | .mult m => decide (v % m = 0)
  | .multMax m hi => decide (v % m = 0 ∧ v ≤ hi)
  | .pow2 lo hi => decide (lo ≤ v ∧ v ≤ hi ∧ 2 ^ Nat.log2 v = v)
  | .rangeTo lo l w => decide (lo ≤ v ∧ v ≤ bitsOf word l w)
  | .atLeast l w => decide (bitsOf word l w ≤ v)
  | .below l w => decide (v < bitsOf word l w)
  | .dscp => true

/-- Sixteen 2-bit colours: a 3 keeps the colour that it would replace. -/
def putColours (old new : Nat) : Nat :=
  (List.range 16).foldl (fun a i => if bitsOf new (2 * i) 2 = 3 then a else putBits a (2 * i) 2 (bitsOf new (2 * i) 2)) old

/-- A write of `new` to one field of a word: RW takes an allowed value, W1C clears the bits written 1, RO and WO keep what they
hold; and whether a reserved value was ignored.
(DEDUCED: log 12.) -/
def writeField (a : Nat × Bool) (new : Nat) (f : FieldDesc) : Nat × Bool :=
  let old := bitsOf a.1 f.lo f.w
  let v := bitsOf new f.lo f.w
  match f.acc with
  | .rw =>
    if f.rule = .dscp then (putBits a.1 f.lo f.w (putColours old v), a.2)
    else if ruleAllows f.rule a.1 v then (putBits a.1 f.lo f.w v, a.2) else (a.1, true)
  | .w1c => (putBits a.1 f.lo f.w (old - (old &&& v)), a.2)
  | .ro => a
  | .wo => a
  | .rsv => a

/-- A write of a word over its fields.
(DEDUCED: log 12, 16.) -/
def writeFields (fs : List FieldDesc) (old new : Nat) : Nat × Bool := fs.foldl (fun a f => writeField a new f) (old, false)

/-- A write that acts by its register's access codes alone, and whether it met a reserved value.
(DEDUCED: log 12, 16.) -/
def State.plainWrite (s : State) (off v : Nat) : State × Bool :=
  match regRow? off with
  | some r =>
    let x := writeFields r.fields (s.reg off).toNat v
    (s.setReg off (BitVec.ofNat 64 x.1), x.2)
  | none => (s, false)

/-! ### Registers that do more, by window -/

/-- The index of a register in its array. -/
def regIdx (off base stride n : Nat) : Option Nat :=
  if base ≤ off ∧ (off - base) % stride = 0 ∧ (off - base) / stride < n then some ((off - base) / stride) else none

/-- The SCH window (R146): while IMG is LOADING a write to an RW field is refused with INVALID_STATE; a reserved value is ignored
with INVALID_FIELD.
(DEDUCED: log 13, 14.) -/
def State.schWrite (s : State) (off v : Nat) : State :=
  if off = rSCH_CTRL then s.schCtrl (BitVec.ofNat 32 v)
  else if off = rSCH_PACE_REQ then s.paceReqWrite (BitVec.ofNat 32 v)
  else if off = rSCH_TS_CTRL then s.tsCtrlWrite (BitVec.ofNat 32 v)
  else
    let rw : Bool := match regRow? off with | some r => r.fields.any (fun f => f.acc = .rw) | none => false
    let asym := (regIdx off (rSCH_TS_ASYM 0) 4 24).isSome
    if rw && !asym && decide (s.fld fSCH_STATE_IMG = 1) then (s.lastStatus .invalidState).logRefused blkSCH off v
    else
      let x := s.plainWrite off v
      if x.2 then x.1.lastStatus .invalidField else x.1

/-- The FAB window.
(DEDUCED: log 13.) -/
def State.fabWrite (s : State) (off v : Nat) : State :=
  let w := BitVec.ofNat 32 v
  if off = rFAB_DEVNUM then s.devnumWrite w
  else if off = rFAB_RT_CTRL then s.rtCtrlWrite w
  else match regIdx off (rFAB_PORT_CTRL 0) 64 24 with
    | some p => s.portCtrlWrite (Fin.ofNat 24 p) w
    | none => (s.plainWrite off v).1

/-- The MEM window. -/
def State.memWindow (s : State) (off v : Nat) : State :=
  if off = rMEM_TRAIN_CTRL then s.memTrainWrite (BitVec.ofNat 32 v)
  else match regIdx off (rMEM_PT_BASE 0) 16 65, regIdx off (rMEM_PT_LEN 0) 16 65 with
    | some p, _ => s.memPtWrite (Fin.ofNat 65 p) false (BitVec.ofNat 64 v)
    | none, some p => s.memPtWrite (Fin.ofNat 65 p) true (BitVec.ofNat 64 v)
    | none, none => (s.plainWrite off v).1

/-- The CXM window. -/
def State.cxmWindow (s : State) (off v : Nat) : State :=
  if off = rCXM_SVC_MASK0 then s.svcMaskWrite 0 (BitVec.ofNat 64 v)
  else if off = rCXM_SVC_MASK1 then s.svcMaskWrite 1 (BitVec.ofNat 64 v)
  else match regIdx off (rCXM_PORT_CTRL 0) 32 2, regIdx off (rCXM_CREDIT 0) 4 65 with
    | some n, _ => s.cxlCtrlWrite n (BitVec.ofNat 32 v)
    | none, some p => s.cxmCreditWrite p (BitVec.ofNat 32 v)
    | none, none => (s.plainWrite off v).1

/-- The CKP window (R275): four registers are written only while PHASE is IDLE, and the reserve and the work area lie in populated
GDDR7, another base being a reserved value (R6).
(DEDUCED: log 14.) -/
def State.ckpWindow (s : State) (off v : Nat) : State :=
  if off = rCKP_CTRL then s.ckpCtrlWrite (BitVec.ofNat 32 v)
  else if (off = rCKP_CFG ∨ off = rCKP_RES_BASE ∨ off = rCKP_WORK_BASE ∨ off = rCKP_AUTO_DESC) ∧ s.fld fCKP_STATE_PHASE ≠ 0 then
    s.raise fCKP_ERR_CFG_DROP
  else if off = rCKP_RES_BASE ∧ v ≠ 0 ∧ s.region? v 0x40000000 ≠ some .gddr then s
  else if off = rCKP_WORK_BASE ∧ v ≠ 0 ∧ s.region? v 0x2000000 ≠ some .gddr then s
  else (s.plainWrite off v).1

/-- The HIF window.
(DEDUCED: log 13.) -/
def State.hifWindow (s : State) (off v : Nat) : State :=
  let w := BitVec.ofNat 32 v
  if off = rHIF_WIN_COMMIT then s.winCommit w
  else if off = rHIF_DCFG_ADDR then s.dcfgAddrWrite w
  else match regIdx off (rHIF_DS_CTRL 0) 64 8, regIdx off (rHIF_SLOT_CTRL 0) 64 16 with
    | some n, _ => s.dsCtrlWrite (Fin.ofNat 8 n) w
    | none, some a => s.slotCtrlWrite (Fin.ofNat 16 a) w
    | none, none => (s.plainWrite off v).1

/-- The QUE window (R323): the admin pair's registers are written only while it is FREE. -/
def State.queWindow (s : State) (off v : Nat) : State :=
  if off = rQUE_ADMIN_CTRL then s.adminCtrlWrite (BitVec.ofNat 32 v)
  else if (off = rQUE_ADMIN_SQ ∨ off = rQUE_ADMIN_CQ) ∧ s.flag fQUE_ADMIN_CTRL_ENABLE then s.raise fQUE_ERR_CFG_DROP
  else (s.plainWrite off v).1

/-- The RDM window (R364): the table registers are written only while no QP and no memory region exists, a GID only while its
partition holds no QP.
(DEDUCED: log 14.) -/
def State.rdmWindow (s : State) (off v : Nat) : State :=
  let table := off = rRDM_QPC_BASE ∨ off = rRDM_QPC_COUNT ∨ off = rRDM_MR_BASE ∨ off = rRDM_MR_COUNT
  if table ∧ (s.rdm.qps ≠ [] ∨ s.rdm.mrs ≠ []) then s.raise fRDM_ERR_CFG_DROP
  else
    let gid := match regIdx off (rRDM_SGID_LO 0) 32 65, regIdx off (rRDM_SGID_HI 0) 32 65 with
      | some p, _ => some p
      | none, x => x
    match gid with
    | some p => if s.rdm.qps.any (fun q => q.2.part = p) then s.raise fRDM_ERR_CFG_DROP else (s.plainWrite off v).1
    | none => (s.plainWrite off v).1

/-- The ETH window (R390): the registers of an absent logical port ignore writes. -/
def State.ethWindow (s : State) (off v : Nat) : State :=
  let w := BitVec.ofNat 32 v
  if off = rETH_CFG then s.ethModeWrite w
  else if off = rETH_ENT_CMD then s.entCmdWrite w
  else if rETH_LPORT_CTRL 0 ≤ off ∧ off < rETH_LPORT_CTRL 0 + 64 * 16 then
    let l := (off - rETH_LPORT_CTRL 0) / 64
    if s.ethPresent l = false then s
    else if off = rETH_LPORT_CTRL l then s.lportWrite l w
    else (s.plainWrite off v).1
  else if rETH_PROG 0 ≤ off ∧ off < rETH_PROG 2048 then s.ethProgWrite ((off - rETH_PROG 0) / 8) (BitVec.ofNat 64 v)
  else if rETH_GNODE 0 0 ≤ off ∧ off < rETH_GNODE 1024 0 then
    s.ethGnodeWrite ((off - rETH_GNODE 0 0) / 32) ((off - rETH_GNODE 0 0) % 32 / 4) w
  else (s.plainWrite off v).1

/-- The TRF window (R389). -/
def State.trfWindow (s : State) (off v : Nat) : State :=
  match regIdx off (rTRF_SHP 0) 16 4096, regIdx off (rTRF_POL_SIZE 0) 32 4096 with
  | some i, _ => s.shaperWrite i (BitVec.ofNat 64 v)
  | none, some i => s.policerCommit i (BitVec.ofNat 64 v)
  | none, none => (s.plainWrite off v).1

/-- The path of a writer to the cipher engine; the power processor has none (R394). -/
def cipPathOf : Writer → Option CipPath
  | .host fn => some (.host fn)
  | .lodge .sec => some (.security [])
  | .lodge .mgmt => some (.management [])
  | .lodge .power => none

/-- The CIP window (R394, R397). -/
def State.cipWindow (s : State) (w : Writer) (off v : Nat) : State :=
  match cipPathOf w with
  | none => s
  | some p =>
    if off = rCIP_LOCK then s.cipLockWrite p (BitVec.ofNat 32 v)
    else if off = rCIP_RING_BASE then s.cipRingBaseWrite p (BitVec.ofNat 64 v)
    else if off = rCIP_RING_CTRL then s.cipRingCtrlWrite p (BitVec.ofNat 32 v)
    else if off = rCIP_TAIL then s.cipTailWrite p (BitVec.ofNat 32 v)
    else (s.plainWrite off v).1

/-- The LDG window (R440): an event controller's registers are written by their own processor; to the host they are RO.
(DEDUCED: log 15.) -/
def State.ldgWindow (s : State) (w : Writer) (off v : Nat) : State :=
  let c := (off - rLDG_EV_CTRL 0) / 4096
  if rLDG_EV_CTRL 0 ≤ off ∧ off < rLDG_EV_CTRL 3 then
    (match w with
     | .lodge k =>
       if lodgeNum k ≠ c then s
       else if off = rLDG_EV_CTRL c then s.evCtrlWrite c (BitVec.ofNat 32 v)
       else match regIdx off (rLDG_EV_SRC c 0) 4 512 with
         | some n => s.evSrcWrite c n (BitVec.ofNat 32 v)
         | none => s
     | .host _ => s)
  else (s.plainWrite off v).1

/-- The PWR window (R457): a reserved value is ignored with CFG_DROP.
(DEDUCED: log 14.) -/
def State.pwrWindow (s : State) (off v : Nat) : State :=
  let x := s.plainWrite off v
  if x.2 then x.1.raise fPWR_ERR_CFG_DROP else x.1

/-- A write, of the right size, to a register by its window. HIF_CFG has a row of its own, with what
that write needs; `b` is what a reset that the write begins finds (R16).
(DEDUCED: log 13.) -/
def State.windowWrite (s : State) (w : Writer) (off v : Nat) (b : BootIn) : State :=
  match off / 0x100000 with
  | 0 => if off = rTOP_RST_CTRL then s.rstCtrlWrite (BitVec.ofNat 32 v) b else (s.plainWrite off v).1
  | 1 => if off = rPAV_RST_CTRL then s.pavRstWrite (BitVec.ofNat 32 v) else (s.plainWrite off v).1
  | 2 => s.schWrite off v
  | 3 => s.fabWrite off v
  | 4 => s.memWindow off v
  | 5 => s.cxmWindow off v
  | 6 => s.ckpWindow off v
  | 7 => s.hifWindow off v
  | 8 => s.queWindow off v
  | 9 => s.rdmWindow off v
  | 10 => s.ethWindow off v
  | 11 => s.trfWindow off v
  | 12 => s.cipWindow w off v
  | 13 => s.ldgWindow w off v
  | 14 => s.pwrWindow off v
  | 15 => s.emuWrite off (BitVec.ofNat 32 v)
  | _ => (s.plainWrite off v).1

/-! ### The MSI-X structures (R282) -/

/-- The 16 bytes of a table entry, and the entry that bytes spell. -/
def msixBytes (e : MsixEntry) : List Byte := leBytes 8 e.addr.toNat ++ leBytes 4 e.data.toNat ++ leBytes 4 (b2n e.mask)
def msixOf (b : List Byte) : MsixEntry :=
  { addr := BitVec.ofNat 64 (fieldAt b 0 8), data := BitVec.ofNat 32 (fieldAt b 8 4), mask := bitOf (fieldAt b 12 4) 0 }

/-- A write of 4 or 8 bytes to a function's own MSI-X table, at a byte offset; vectors that it unmasks are sent.
(DEDUCED: log 15.) -/
def State.msixTableWrite (s : State) (fn : Fin 2) (o size v : Nat) : State :=
  let m := s.hif.msix[fn]
  let b := msixBytes (smGet MsixEntry.reset m.table (o / 16))
  let e := msixOf (b.take (o % 16) ++ leBytes size v ++ b.drop (o % 16 + size))
  (s.setHif (fun h => { h with msix := h.msix.set fn { m with table := smSet MsixEntry.reset m.table (o / 16) e } })).msixFlush fn

/-- A write to its pending-bit array: the bits take the values written.
(DEDUCED: log 15.) -/
def State.msixPbaWrite (s : State) (fn : Fin 2) (o size v : Nat) : State :=
  let m := s.hif.msix[fn]
  let lo := 8 * o
  let keep := m.pba.filter (fun n => decide (n < lo ∨ lo + 8 * size ≤ n))
  let new := ((List.range (8 * size)).filter (fun i => bitOf v i)).map (fun i => lo + i)
  (s.setHif (fun h => { h with msix := h.msix.set fn { m with pba := keep ++ new } })).msixFlush fn

/-! ### BAR0 and BAR2 -/

/-- Has a BAR0 access the size and the alignment of the register that it meets (R7)? At an unassigned offset, 4 or 8 bytes that
touch no register.
(DEDUCED: log 11.) -/
def sizeFits (off size : Nat) : Bool :=
  (size = 4 || size = 8) && off % size = 0 &&
  (match regRow? off with
   | some r => decide (r.width = 8 * size)
   | none => (match regRow? (off - off % 8) with | some r => r.width ≠ 64 | none => true) &&
             (size = 4 || (regRow? (off + 4)).isNone))

/-- Events of the cycle of a write (R5), `sets` naming bits of the register: a flag that hardware sets then reads 1 whatever the write
cleared, and a counter that it increments counts after the clear.
(DEDUCED: log 12.) -/
def State.cycleEvents (s : State) (off sets : Nat) : State :=
  match regRow? off with
  | none => s
  | some r => r.fields.foldl (fun t f =>
      if f.acc = .w1c ∧ bitsOf sets f.lo f.w ≠ 0 then
        (if f.w = 1 then t.raise ⟨off, f.lo, 1⟩ else t.count ⟨off, f.lo, f.w⟩ 1)
      else t) s

/-- A write to BAR0 (R7, R8, R278). The operand's writer is a function of the host, or a lodge processor by its internal path.
(DEDUCED: log 11.) -/
def State.bar0Write (s : State) (w : Writer) (off size : Nat) (v : BitVec 64) (c : RegX) : State :=
  let x := v.toNat % 2 ^ (8 * size)
  if 0x4000000 ≤ off then s
  else match w with
  | .host fn =>
    if 0x780000 ≤ off ∧ off < 0x790000 ∧ (size = 4 ∨ size = 8) ∧ off % size = 0 then s.msixTableWrite fn (off - 0x780000) size x
    else if 0x790000 ≤ off ∧ off < 0x790200 ∧ (size = 4 ∨ size = 8) ∧ off % size = 0 then s.msixPbaWrite fn (off - 0x790000) size x
    else if sizeFits off size = false then s.replyUr fn.val
    else if off = rHIF_CFG then s.hifCfgWrite fn (BitVec.ofNat 32 x)
    else if fn ≠ s.ctrlFn then s.raise fHIF_ERR_RO_WRITE
    else if (regRow? off).isNone then s
    else (s.windowWrite w off x c.boot).cycleEvents off c.sets.toNat
  | .lodge k =>
    if s.lodgeRuns k = false ∨ sizeFits off size = false ∨ (regRow? off).isNone ∨ off = rHIF_CFG then s
    else (s.windowWrite w off x c.boot).cycleEvents off c.sets.toNat

/-- A write to BAR2 (R283, R308, R309): the registers of a partition's window on its home function.
(DEDUCED: log 11.) -/
def State.bar2Write (s : State) (fn : Fin 2) (off size : Nat) (v : BitVec 64) : State :=
  let k := off / 0x100000
  let o := off % 0x100000
  if h : k < 65 then
    let p : Fin 65 := ⟨k, h⟩
    let w := BitVec.ofNat 32 (v.toNat % 2 ^ 32)
    let word := size = 4 ∧ o % 4 = 0
    if s.homeFn p ≠ fn then s
    else if o < 0x10 then (if word then (if o = 0 then s.negotiateQ p w else s) else s.dbMiss p)
    else if 0x100 ≤ o ∧ o < 0x180 then
      s.pwCtrWrite p (Fin.ofNat 16 ((o - 0x100) / 8)) (if o % 8 = 0 then size else 0) v
    else if 0x1000 ≤ o ∧ o < 0x11000 then (if word then s.sqDoorbell p ((o - 0x1000) / 4) w else s.dbMiss p)
    else if 0x11000 ≤ o ∧ o < 0x21000 then (if word then s.cqDoorbell p ((o - 0x11000) / 4) w else s.dbMiss p)
    else s
  else s

/-- A write to a register (R4 to R8). A host's TLP with EP set is discarded (R288).
(DEDUCED: log 11, 13, 82.) -/
def execRegisterWrite (w : Writer) (bar : Bar) (off size : Nat) (v : BitVec 64) (c : RegX) (s : State) :
    Host.Outcome State Fault Refusal :=
  match bar, w with
  | .bar0, .lodge _ => .next (s.bar0Write w off size v c)
  | .bar0, .host fn => .next (if c.ep then s.poisonRx fn.val 0 else s.bar0Write w off size v c)
  | .bar2, .host fn => .next (if c.ep then s.poisonRx fn.val 0 else s.bar2Write fn off size v)
  | .bar2, .lodge _ => .next s

/-! ### What a read returns -/

/-- The fields of a word that a read returns: WO fields and reserved bits read 0 (R4). -/
def readFields (fs : List FieldDesc) (v : Nat) : Nat :=
  (fs.map (fun f => match f.acc with | .wo => 0 | .rsv => 0 | _ => bitsOf v f.lo f.w * 2 ^ f.lo)).sum

/-- The value of R324 of a partition's state. -/
def partCode : PartSt → Nat
  | .unassigned => 0 | .active => 1 | .freezing => 2 | .frozen => 3 | .resetting => 4

/-- A register whose value another part of the state holds: the time base, the queue pool, the states of the partitions, the
requests outstanding, the next event source, the emulated registers while BUSY (R427), the absolute time of R370, the levels of
the shapers; none for any other.
(DEDUCED: log 135.) -/
def State.heldElsewhere (s : State) (off : Nat) : Option Nat :=
  if off = rSCH_TB then some s.sch.tb.toNat
  else if off = rQUE_POOL then some ((16384 - s.que.cqs.length) * 65536 + (16384 - s.que.sqs.length))
  else if off = rRDM_OUTSTANDING then some s.outstanding
  else if off = rETH_PTP_TIME then some s.ptpTime
  else if off / 0x100000 = 15 ∧ s.lodgeRuns .mgmt = false ∧ (regRow? off).isSome then some 0x80000000
  else match regIdx off (rQUE_PSTATE 0) 32 65, regIdx off (rLDG_EV_NEXT 0) 4096 3, regIdx off (rTRF_SHP_LEVEL 0) 16 4096 with
    | some p, _, _ =>
      let x := s.part (Fin.ofNat 65 p)
      some (x.qver.toNat * 65536 + x.gen.toNat * 256 + partCode x.st)
    | _, some c, _ => some (match s.evNext? c with | some n => 512 + n | none => 0)
    | _, _, some i => some (s.shpLevel i)
    | _, _, _ => none

/-- Is a register one of the counters of a logical pavilion that is absent (R83)? -/
def State.absentCounter (s : State) (off : Nat) : Bool :=
  decide (rPAV_CE 0 ≤ off ∧ off < rPAV_CE 128) && !s.present ((off - rPAV_CE 0) / 16)

/-- The value that a read of a BAR0 register returns (R4, R8): 0 at an unassigned offset, for an absent logical port (R390) and for
the counters of an absent logical pavilion (R83). -/
def State.regRead (s : State) (off : Nat) : Nat :=
  match s.heldElsewhere off with
  | some v => v
  | none =>
    if rETH_LPORT_CTRL 0 ≤ off ∧ off < rETH_LPORT_CTRL 0 + 64 * 16 ∧ s.ethPresent ((off - rETH_LPORT_CTRL 0) / 64) = false then 0
    else if s.absentCounter off then 0
    else match regRow? off with
      | some r => readFields r.fields (s.reg off).toNat
      | none => 0

/-- How a host's read of a register ends: Unsupported Request, or the value. -/
inductive RegAnswer where
  | ur
  | data (v : Nat)
  deriving DecidableEq, Repr

/-- Is an access one of 4 or 8 bytes on its natural boundary? -/
def halfOrWhole (off size : Nat) : Bool := (size = 4 || size = 8) && off % size = 0

/-- A read of BAR0 by function `fn` (R7, R8, R282): the MSI-X table and the pending bits are the function's own; an access that
does not fit its register is an Unsupported Request.
(DEDUCED: log 11.) -/
def State.bar0Read (s : State) (fn : Fin 2) (off size : Nat) : RegAnswer :=
  let m := s.hif.msix[fn]
  if 0x780000 ≤ off ∧ off < 0x790000 then
    if halfOrWhole off size then
      .data (fieldAt (msixBytes (smGet MsixEntry.reset m.table ((off - 0x780000) / 16))) (off % 16) size)
    else .ur
  else if 0x790000 ≤ off ∧ off < 0x790200 then
    if halfOrWhole off size then
      .data (((List.range (8 * size)).filter (fun i => m.pba.contains (8 * (off - 0x790000) + i))).map (fun i => 2 ^ i)).sum
    else .ur
  else if sizeFits off size then .data (s.regRead off) else .ur

/-- What a read of BAR0 leaves: PEAK of RDM_MISS counts anew from a read of it (R364).
(DEDUCED: log 11.) -/
def State.bar0ReadDone (s : State) (off : Nat) : State :=
  if off = rRDM_MISS then s.setFld fRDM_MISS_PEAK (s.fld fRDM_MISS_USED) else s

/-- A read of BAR2 by function `fn` (R283, R308, R309): the registers of a partition's window on its home function; 0 on the other
function and where there is no register; an access of another size is an Unsupported Request.
(DEDUCED: log 11.) -/
def State.bar2Read (s : State) (fn : Fin 2) (off size : Nat) : RegAnswer :=
  let k := off / 0x100000
  let o := off % 0x100000
  if h : k < 65 then
    let p : Fin 65 := ⟨k, h⟩
    let x := s.part p
    let word (v : Nat) : RegAnswer := if size = 4 ∧ o % 4 = 0 then .data v else .ur
    if s.homeFn p ≠ fn then .data 0
    else if o < 0x4 then word (statusCode x.verSt * 65536 + x.qver.toNat)
    else if o < 0x8 then word (x.gen.toNat * 256 + partCode x.st)
    else if o < 0xC then word (x.cqMax * 65536 + x.sqMax)
    else if o < 0x10 then word (x.vecCount * 65536 + x.vecBase)
    else if 0x100 ≤ o ∧ o < 0x180 then
      (if size = 8 ∧ o % 8 = 0 then .data (x.ctr[(o - 0x100) / 8 % 16]'(Nat.mod_lt _ (by decide))).toNat else .ur)
    else if 0x1000 ≤ o ∧ o < 0x21000 then word 0
    else .data 0
  else .data 0

end Sys2Proof.Machine
end

