-- ==== Sys2Proof/Machine/Dispatch.lean ====
section
/-! DEFINITION. One arm per command: the direct call of its meaning. -/

namespace Sys2Proof.Machine

open Sys2Proof

def exec (i : Instr) (s : State) : Host.Outcome State Fault Refusal :=
  match i with
  | .powerOn b => Sys2Proof.Machine.execPowerOn b s
  | .porPinLow ns b => Sys2Proof.Machine.execPorPinLow ns b s
  | .rootPllUnlock ns b => Sys2Proof.Machine.execRootPllUnlock ns b s
  | .rootPllLossTimeout b => Sys2Proof.Machine.execRootPllLossTimeout b s
  | .swCold v b => Sys2Proof.Machine.execSwCold v b s
  | .swWarm v b => Sys2Proof.Machine.execSwWarm v b s
  | .upstreamPerst h0 h1 => Sys2Proof.Machine.execUpstreamPerst h0 h1 s
  | .powerDown => Sys2Proof.Machine.execPowerDown s
  | .registerWrite w bar off size v c => Sys2Proof.Machine.execRegisterWrite w bar off size v c s
  | .lodgeFwStart => Sys2Proof.Machine.execLodgeFwStart s
  | .genHoldExpire => Sys2Proof.Machine.execGenHoldExpire s
  | .terraceWave t => Sys2Proof.Machine.execTerraceWave t s
  | .pavSelfTestDone p pass => Sys2Proof.Machine.execPavSelfTestDone p pass s
  | .bringupReady => Sys2Proof.Machine.execBringupReady s
  | .upLinkUp h rate width => Sys2Proof.Machine.execUpLinkUp h rate width s
  | .meshRequestArrive q => Sys2Proof.Machine.execMeshRequestArrive q s
  | .meshResponseArrive r => Sys2Proof.Machine.execMeshResponseArrive r s
  | .meshWriteAck l gen id => Sys2Proof.Machine.execMeshWriteAck l gen id s
  | .semaphoreAdd l adds => Sys2Proof.Machine.execSemaphoreAdd l adds s
  | .mapCommit => Sys2Proof.Machine.execMapCommit s
  | .pavilionReset v => Sys2Proof.Machine.execPavilionReset v s
  | .pavResetComplete l => Sys2Proof.Machine.execPavResetComplete l s
  | .nop l => Sys2Proof.Machine.execNop l s
  | .trap l n => Sys2Proof.Machine.execTrap l n s
  | .rett l k => Sys2Proof.Machine.execRett l k s
  | .push l i1 => Sys2Proof.Machine.execPush l i1 s
  | .pop l i1 parity => Sys2Proof.Machine.execPop l i1 parity s
  | .cset l c i1 => Sys2Proof.Machine.execCset l c i1 s
  | .aluMov l d b => Sys2Proof.Machine.execAluMov l d b s
  | .aluAdd l d b => Sys2Proof.Machine.execAluAdd l d b s
  | .aluAdc l d b => Sys2Proof.Machine.execAluAdc l d b s
  | .aluSub l d b => Sys2Proof.Machine.execAluSub l d b s
  | .aluSbc l d b => Sys2Proof.Machine.execAluSbc l d b s
  | .aluAnd l d b => Sys2Proof.Machine.execAluAnd l d b s
  | .aluOr l d b => Sys2Proof.Machine.execAluOr l d b s
  | .aluXor l d b => Sys2Proof.Machine.execAluXor l d b s
  | .aluCmp l d b => Sys2Proof.Machine.execAluCmp l d b s
  | .aluTst l d b => Sys2Proof.Machine.execAluTst l d b s
  | .aluShl l d b => Sys2Proof.Machine.execAluShl l d b s
  | .aluShr l d b => Sys2Proof.Machine.execAluShr l d b s
  | .aluSar l d b => Sys2Proof.Machine.execAluSar l d b s
  | .aluMul l d b => Sys2Proof.Machine.execAluMul l d b s
  | .aluMulhu l d b => Sys2Proof.Machine.execAluMulhu l d b s
  | .addi l d n => Sys2Proof.Machine.execAddi l d n s
  | .movi l d n => Sys2Proof.Machine.execMovi l d n s
  | .cmpi l d n => Sys2Proof.Machine.execCmpi l d n s
  | .shlImm l d n => Sys2Proof.Machine.execShlImm l d n s
  | .shrImm l d n => Sys2Proof.Machine.execShrImm l d n s
  | .sarImm l d n => Sys2Proof.Machine.execSarImm l d n s
  | .rorImm l d n => Sys2Proof.Machine.execRorImm l d n s
  | .ld l d ea ecc => Sys2Proof.Machine.execLd l d ea ecc s
  | .st l d ea ecc => Sys2Proof.Machine.execSt l d ea ecc s
  | .addp l p n => Sys2Proof.Machine.execAddp l p n s
  | .addpr l p i1 sx => Sys2Proof.Machine.execAddpr l p i1 sx s
  | .addpw l p n => Sys2Proof.Machine.execAddpw l p n s
  | .cmpp l p q => Sys2Proof.Machine.execCmpp l p q s
  | .bcc l cond n => Sys2Proof.Machine.execBcc l cond n s
  | .jmp l t => Sys2Proof.Machine.execJmp l t s
  | .call l t => Sys2Proof.Machine.execCall l t s
  | .jmpr l i1 => Sys2Proof.Machine.execJmpr l i1 s
  | .callr l i1 => Sys2Proof.Machine.execCallr l i1 s
  | .dbnz l d n => Sys2Proof.Machine.execDbnz l d n s
  | .issue l e i1 c parity => Sys2Proof.Machine.execIssue l e i1 c parity s
  | .issueResume l => Sys2Proof.Machine.execIssueResume l s
  | .waite l => Sys2Proof.Machine.execWaite l s
  | .waitc l c t consume => Sys2Proof.Machine.execWaitc l c t consume s
  | .waits l m t consume => Sys2Proof.Machine.execWaits l m t consume s
  | .waitidle l => Sys2Proof.Machine.execWaitidle l s
  | .fence l => Sys2Proof.Machine.execFence l s
  | .signal l t a all => Sys2Proof.Machine.execSignal l t a all s
  | .waitComplete l => Sys2Proof.Machine.execWaitComplete l s
  | .waitTimeout l => Sys2Proof.Machine.execWaitTimeout l s
  | .signalSend l => Sys2Proof.Machine.execSignalSend l s
  | .sequencerRelease l => Sys2Proof.Machine.execSequencerRelease l s
  | .engineCommandComplete l e i1 => Sys2Proof.Machine.execEngineCommandComplete l e i1 s
  | .fadd l e => Sys2Proof.Machine.execFadd l e s
  | .fsub l e => Sys2Proof.Machine.execFsub l e s
  | .fmul l e => Sys2Proof.Machine.execFmul l e s
  | .ffma l e => Sys2Proof.Machine.execFfma l e s
  | .fmin l e => Sys2Proof.Machine.execFmin l e s
  | .fmax l e => Sys2Proof.Machine.execFmax l e s
  | .fcmpeq l e => Sys2Proof.Machine.execFcmpeq l e s
  | .fcmplt l e => Sys2Proof.Machine.execFcmplt l e s
  | .fcmple l e => Sys2Proof.Machine.execFcmple l e s
  | .fcmpun l e => Sys2Proof.Machine.execFcmpun l e s
  | .sel l e => Sys2Proof.Machine.execSel l e s
  | .fabs l e => Sys2Proof.Machine.execFabs l e s
  | .fneg l e => Sys2Proof.Machine.execFneg l e s
  | .fcopysign l e => Sys2Proof.Machine.execFcopysign l e s
  | .fdiv l e => Sys2Proof.Machine.execFdiv l e s
  | .fsqrt l e => Sys2Proof.Machine.execFsqrt l e s
  | .exp2 l e => Sys2Proof.Machine.execExp2 l e s
  | .log2 l e => Sys2Proof.Machine.execLog2 l e s
  | .rcp l e => Sys2Proof.Machine.execRcp l e s
  | .rsqrt l e => Sys2Proof.Machine.execRsqrt l e s
  | .iadd l e => Sys2Proof.Machine.execIadd l e s
  | .isub l e => Sys2Proof.Machine.execIsub l e s
  | .iand l e => Sys2Proof.Machine.execIand l e s
  | .ior l e => Sys2Proof.Machine.execIor l e s
  | .ixor l e => Sys2Proof.Machine.execIxor l e s
  | .ishl l e => Sys2Proof.Machine.execIshl l e s
  | .ishr l e => Sys2Proof.Machine.execIshr l e s
  | .isar l e => Sys2Proof.Machine.execIsar l e s
  | .icmpeq l e => Sys2Proof.Machine.execIcmpeq l e s
  | .icmplt l e => Sys2Proof.Machine.execIcmplt l e s
  | .imul l e => Sys2Proof.Machine.execImul l e s
  | .cvt l e => Sys2Proof.Machine.execCvt l e s
  | .mxq l e => Sys2Proof.Machine.execMxq l e s
  | .mxd l e => Sys2Proof.Machine.execMxd l e s
  | .redsum l e => Sys2Proof.Machine.execRedsum l e s
  | .redmax l e => Sys2Proof.Machine.execRedmax l e s
  | .redmin l e => Sys2Proof.Machine.execRedmin l e s
  | .imm l e => Sys2Proof.Machine.execImm l e s
  | .acc2v l e => Sys2Proof.Machine.execAcc2v l e s
  | .v2acc l e => Sys2Proof.Machine.execV2acc l e s
  | .tileStep l e errs => Sys2Proof.Machine.execTileStep l e errs s
  | .accClear l e => Sys2Proof.Machine.execAccClear l e s
  | .vload l e errs => Sys2Proof.Machine.execVload l e errs s
  | .vstore l e => Sys2Proof.Machine.execVstore l e s
  | .aload l e errs => Sys2Proof.Machine.execAload l e errs s
  | .astore l e => Sys2Proof.Machine.execAstore l e s
  | .get l e bad => Sys2Proof.Machine.execGet l e bad s
  | .put l e errs bad => Sys2Proof.Machine.execPut l e errs bad s
  | .genSetup l e => Sys2Proof.Machine.execGenSetup l e s
  | .timesyncExchange => Sys2Proof.Machine.execTimesyncExchange s
  | .timesyncRequestRx p t1 t2 => Sys2Proof.Machine.execTimesyncRequestRx p t1 t2 s
  | .timesyncReplyRx r => Sys2Proof.Machine.execTimesyncReplyRx r s
  | .tbHoldExpire => Sys2Proof.Machine.execTbHoldExpire s
  | .timePulse => Sys2Proof.Machine.execTimePulse s
  | .timePulseEnd => Sys2Proof.Machine.execTimePulseEnd s
  | .schLoad v => Sys2Proof.Machine.execSchLoad v s
  | .schLoadEnd rd chk => Sys2Proof.Machine.execSchLoadEnd rd chk s
  | .schAbort v => Sys2Proof.Machine.execSchAbort v s
  | .schStop v => Sys2Proof.Machine.execSchStop v s
  | .schClear v => Sys2Proof.Machine.execSchClear v s
  | .schActivate => Sys2Proof.Machine.execSchActivate s
  | .epochBoundary => Sys2Proof.Machine.execEpochBoundary s
  | .pendingFillEnd ok => Sys2Proof.Machine.execPendingFillEnd ok s
  | .replayBoundary => Sys2Proof.Machine.execReplayBoundary s
  | .armedNoticeRx p n => Sys2Proof.Machine.execArmedNoticeRx p n s
  | .faultNoticeRx p n => Sys2Proof.Machine.execFaultNoticeRx p n s
  | .paceNoticeRx p n => Sys2Proof.Machine.execPaceNoticeRx p n s
  | .genNoticeRx p n => Sys2Proof.Machine.execGenNoticeRx p n s
  | .paceReqWrite v => Sys2Proof.Machine.execPaceReqWrite v s
  | .moveStart i1 => Sys2Proof.Machine.execMoveStart i1 s
  | .moveComplete i1 st => Sys2Proof.Machine.execMoveComplete i1 st s
  | .slotTransmit => Sys2Proof.Machine.execSlotTransmit s
  | .flitReceive p slot pos q bytes => Sys2Proof.Machine.execFlitReceive p slot pos q bytes s
  | .flitRelease p ecc tab => Sys2Proof.Machine.execFlitRelease p ecc tab s
  | .nakReceive p seqs => Sys2Proof.Machine.execNakReceive p seqs s
  | .creditReceive p n => Sys2Proof.Machine.execCreditReceive p n s
  | .volunteerPacketReceive p k tab => Sys2Proof.Machine.execVolunteerPacketReceive p k tab s
  | .routedMessageReceive p m => Sys2Proof.Machine.execRoutedMessageReceive p m s
  | .fabRtCommit v => Sys2Proof.Machine.execFabRtCommit v s
  | .fabPortEnable p v => Sys2Proof.Machine.execFabPortEnable p v s
  | .fabPortDisable p v => Sys2Proof.Machine.execFabPortDisable p v s
  | .fabPortRetrain p v => Sys2Proof.Machine.execFabPortRetrain p v s
  | .fabDetectPoll p found => Sys2Proof.Machine.execFabDetectPoll p found s
  | .fabTrainStateDone p x => Sys2Proof.Machine.execFabTrainStateDone p x s
  | .fabTrainTimeout p => Sys2Proof.Machine.execFabTrainTimeout p s
  | .fabLaneFault p lane => Sys2Proof.Machine.execFabLaneFault p lane s
  | .fabDevnumWrite v => Sys2Proof.Machine.execFabDevnumWrite v s
  | .memRequest q => Sys2Proof.Machine.execMemRequest q s
  | .gddr7TrainDone x => Sys2Proof.Machine.execGddr7TrainDone x s
  | .memTrainSave v => Sys2Proof.Machine.execMemTrainSave v s
  | .gddr7Refresh g celsius => Sys2Proof.Machine.execGddr7Refresh g celsius s
  | .gddr7Tracking g => Sys2Proof.Machine.execGddr7Tracking g s
  | .patrolScrub addr o => Sys2Proof.Machine.execPatrolScrub addr o s
  | .cxlPortEnable n v => Sys2Proof.Machine.execCxlPortEnable n v s
  | .cxlPortDisable n v => Sys2Proof.Machine.execCxlPortDisable n v s
  | .cxlPortActive n x => Sys2Proof.Machine.execCxlPortActive n x s
  | .cxlLinkDown n => Sys2Proof.Machine.execCxlLinkDown n s
  | .cxlEventRecord n rec ce => Sys2Proof.Machine.execCxlEventRecord n rec ce s
  | .cxlRequest q => Sys2Proof.Machine.execCxlRequest q s
  | .cxmCreditWrite p v => Sys2Proof.Machine.execCxmCreditWrite p v s
  | .cxmSvcMaskWrite k v => Sys2Proof.Machine.execCxmSvcMaskWrite k v s
  | .memPtWrite p len v => Sys2Proof.Machine.execMemPtWrite p len v s
  | .migrate c => Sys2Proof.Machine.execMigrate c s
  | .migrateComplete c ue => Sys2Proof.Machine.execMigrateComplete c ue s
  | .seal c rd line => Sys2Proof.Machine.execSeal c rd line s
  | .attend c rd line => Sys2Proof.Machine.execAttend c rd line s
  | .serviceRequestStart => Sys2Proof.Machine.execServiceRequestStart s
  | .sheaf c => Sys2Proof.Machine.execSheaf c s
  | .diversionComplete g st line => Sys2Proof.Machine.execDiversionComplete g st line s
  | .reserveSlotFree slot => Sys2Proof.Machine.execReserveSlotFree slot s
  | .sheafStallLimit => Sys2Proof.Machine.execSheafStallLimit s
  | .granuleBackgroundRead g st line => Sys2Proof.Machine.execGranuleBackgroundRead g st line s
  | .shardWriteDone ok => Sys2Proof.Machine.execShardWriteDone ok s
  | .sheafShardsDurable ok => Sys2Proof.Machine.execSheafShardsDurable ok s
  | .manifestDurable ok => Sys2Proof.Machine.execManifestDurable ok s
  | .ckpAbandon v => Sys2Proof.Machine.execCkpAbandon v s
  | .ceTrigger ce => Sys2Proof.Machine.execCeTrigger ce s
  | .ceWindowEnd => Sys2Proof.Machine.execCeWindowEnd s
  | .restoreSelect c ns => Sys2Proof.Machine.execRestoreSelect c ns s
  | .restoreLoad c ns => Sys2Proof.Machine.execRestoreLoad c ns s
  | .hifCtrlPfWrite fn v => Sys2Proof.Machine.execHifCtrlPfWrite fn v s
  | .bar4Access fn x => Sys2Proof.Machine.execBar4Access fn x s
  | .bar4Resize fn sizeLog2 => Sys2Proof.Machine.execBar4Resize fn sizeLog2 s
  | .romRead fn off len => Sys2Proof.Machine.execRomRead fn off len s
  | .pcieCompletionRx k x => Sys2Proof.Machine.execPcieCompletionRx k x s
  | .completionTimeout k tag => Sys2Proof.Machine.execCompletionTimeout k tag s
  | .tagQuarantineEnd k tag => Sys2Proof.Machine.execTagQuarantineEnd k tag s
  | .dcfgRead v => Sys2Proof.Machine.execDcfgRead v s
  | .dcfgWrite v => Sys2Proof.Machine.execDcfgWrite v s
  | .dcfgCrsTimeout => Sys2Proof.Machine.execDcfgCrsTimeout s
  | .dsSplitWrite n v => Sys2Proof.Machine.execDsSplitWrite n v s
  | .slotPresenceChange a present button => Sys2Proof.Machine.execSlotPresenceChange a present button s
  | .slotButtonPress a => Sys2Proof.Machine.execSlotButtonPress a s
  | .slotPowerOn a v => Sys2Proof.Machine.execSlotPowerOn a v s
  | .slotPowerOff a v => Sys2Proof.Machine.execSlotPowerOff a v s
  | .slotPowerRemove a => Sys2Proof.Machine.execSlotPowerRemove a s
  | .slotResetRelease a => Sys2Proof.Machine.execSlotResetRelease a s
  | .slotLinkUp a rate width => Sys2Proof.Machine.execSlotLinkUp a rate width s
  | .slotEnumerate a bars => Sys2Proof.Machine.execSlotEnumerate a bars s
  | .slotTrainTimeout a => Sys2Proof.Machine.execSlotTrainTimeout a s
  | .slotLinkLost a => Sys2Proof.Machine.execSlotLinkLost a s
  | .winCommit v => Sys2Proof.Machine.execWinCommit v s
  | .winSwitch => Sys2Proof.Machine.execWinSwitch s
  | .inboundAccess a x => Sys2Proof.Machine.execInboundAccess a x s
  | .getVersion fn m => Sys2Proof.Machine.execGetVersion fn m s
  | .getCapabilities fn m => Sys2Proof.Machine.execGetCapabilities fn m s
  | .negotiateAlgorithms fn m => Sys2Proof.Machine.execNegotiateAlgorithms fn m s
  | .getDigests fn m => Sys2Proof.Machine.execGetDigests fn m s
  | .getCertificate fn m => Sys2Proof.Machine.execGetCertificate fn m s
  | .challenge fn m => Sys2Proof.Machine.execChallenge fn m s
  | .getMeasurements fn m => Sys2Proof.Machine.execGetMeasurements fn m s
  | .keyExchange fn m => Sys2Proof.Machine.execKeyExchange fn m s
  | .finish fn m => Sys2Proof.Machine.execFinish fn m s
  | .heartbeat fn m => Sys2Proof.Machine.execHeartbeat fn m s
  | .keyUpdate fn m => Sys2Proof.Machine.execKeyUpdate fn m s
  | .endSession fn m => Sys2Proof.Machine.execEndSession fn m s
  | .doeAbort fn => Sys2Proof.Machine.execDoeAbort fn s
  | .ideKm fn m => Sys2Proof.Machine.execIdeKm fn m s
  | .sqDoorbell fn p q v => Sys2Proof.Machine.execSqDoorbell fn p q v s
  | .cqDoorbell fn p q v => Sys2Proof.Machine.execCqDoorbell fn p q v s
  | .queueVersionWrite fn p v => Sys2Proof.Machine.execQueueVersionWrite fn p v s
  | .pwCtrWrite fn p i1 size v => Sys2Proof.Machine.execPwCtrWrite fn p i1 size v s
  | .descriptorFetch late st => Sys2Proof.Machine.execDescriptorFetch late st s
  | .commandStart c buf => Sys2Proof.Machine.execCommandStart c buf s
  | .commandComplete c wr => Sys2Proof.Machine.execCommandComplete c wr s
  | .msixCoalesceTimeout p q => Sys2Proof.Machine.execMsixCoalesceTimeout p q s
  | .queAdminEnable v => Sys2Proof.Machine.execQueAdminEnable v s
  | .cmdNop c => Sys2Proof.Machine.execCmdNop c s
  | .partCreate c => Sys2Proof.Machine.execPartCreate c s
  | .partDestroy c => Sys2Proof.Machine.execPartDestroy c s
  | .queueCreate c => Sys2Proof.Machine.execQueueCreate c s
  | .queueDelete c => Sys2Proof.Machine.execQueueDelete c s
  | .sqDrainDone p q => Sys2Proof.Machine.execSqDrainDone p q s
  | .queueReset c => Sys2Proof.Machine.execQueueReset c s
  | .partFreeze c => Sys2Proof.Machine.execPartFreeze c s
  | .freezeGraceEnd p => Sys2Proof.Machine.execFreezeGraceEnd p s
  | .freezeDrained p => Sys2Proof.Machine.execFreezeDrained p s
  | .freezeDrainTimeout p => Sys2Proof.Machine.execFreezeDrainTimeout p s
  | .partSave c => Sys2Proof.Machine.execPartSave c s
  | .partRestore c => Sys2Proof.Machine.execPartRestore c s
  | .partResume c => Sys2Proof.Machine.execPartResume c s
  | .partReset c => Sys2Proof.Machine.execPartReset c s
  | .partLimits c => Sys2Proof.Machine.execPartLimits c s
  | .qpCreate c => Sys2Proof.Machine.execQpCreate c s
  | .qpModify c => Sys2Proof.Machine.execQpModify c s
  | .qpDestroy c => Sys2Proof.Machine.execQpDestroy c s
  | .qpnHoldEnd qpn => Sys2Proof.Machine.execQpnHoldEnd qpn s
  | .mrReg c => Sys2Proof.Machine.execMrReg c s
  | .mrDereg c => Sys2Proof.Machine.execMrDereg c s
  | .send c rd => Sys2Proof.Machine.execSend c rd s
  | .sendImm c rd => Sys2Proof.Machine.execSendImm c rd s
  | .rdmaWrite c rd => Sys2Proof.Machine.execRdmaWrite c rd s
  | .writeImm c rd => Sys2Proof.Machine.execWriteImm c rd s
  | .rdmaRead c => Sys2Proof.Machine.execRdmaRead c s
  | .fetchAdd c => Sys2Proof.Machine.execFetchAdd c s
  | .cmpSwap c => Sys2Proof.Machine.execCmpSwap c s
  | .recv c => Sys2Proof.Machine.execRecv c s
  | .rdmaPacketReceive k => Sys2Proof.Machine.execRdmaPacketReceive k s
  | .qpcFetchDone qpn => Sys2Proof.Machine.execQpcFetchDone qpn s
  | .qpcFetchTimeout qpn => Sys2Proof.Machine.execQpcFetchTimeout qpn s
  | .retxTimeout qpn => Sys2Proof.Machine.execRetxTimeout qpn s
  | .rnrTimerExpire qpn => Sys2Proof.Machine.execRnrTimerExpire qpn s
  | .rdMessageAbandon k => Sys2Proof.Machine.execRdMessageAbandon k s
  | .rdKeepExpire c => Sys2Proof.Machine.execRdKeepExpire c s
  | .waitRelease c => Sys2Proof.Machine.execWaitRelease c s
  | .trigHoldExpire p tag => Sys2Proof.Machine.execTrigHoldExpire p tag s
  | .ccRecover qpn => Sys2Proof.Machine.execCcRecover qpn s
  | .nsAttach c x => Sys2Proof.Machine.execNsAttach c x s
  | .nsDetach c => Sys2Proof.Machine.execNsDetach c s
  | .nsAttachTimeout c => Sys2Proof.Machine.execNsAttachTimeout c s
  | .nsAssocLost ns => Sys2Proof.Machine.execNsAssocLost ns s
  | .nsReconnect ns ok => Sys2Proof.Machine.execNsReconnect ns ok s
  | .nsReconnectGiveup ns => Sys2Proof.Machine.execNsReconnectGiveup ns s
  | .nvmeRead c pieces => Sys2Proof.Machine.execNvmeRead c pieces s
  | .nvmeWrite c pieces rd => Sys2Proof.Machine.execNvmeWrite c pieces rd s
  | .nvmeFlush c st => Sys2Proof.Machine.execNvmeFlush c st s
  | .ethFrameReceive l f => Sys2Proof.Machine.execEthFrameReceive l f s
  | .pfcPauseEnd l c => Sys2Proof.Machine.execPfcPauseEnd l c s
  | .mgmtFrameReceive l m => Sys2Proof.Machine.execMgmtFrameReceive l m s
  | .nextHopHoldExpire i1 => Sys2Proof.Machine.execNextHopHoldExpire i1 s
  | .ptpEventMessage l x => Sys2Proof.Machine.execPtpEventMessage l x s
  | .ethTxSelect l sheaf => Sys2Proof.Machine.execEthTxSelect l sheaf s
  | .bucketRefill => Sys2Proof.Machine.execBucketRefill s
  | .ethEntWrite v => Sys2Proof.Machine.execEthEntWrite v s
  | .ethEntRead v => Sys2Proof.Machine.execEthEntRead v s
  | .ethEntInvalidate v => Sys2Proof.Machine.execEthEntInvalidate v s
  | .ethEntDone => Sys2Proof.Machine.execEthEntDone s
  | .ethModeWrite v => Sys2Proof.Machine.execEthModeWrite v s
  | .ethProgWrite n v => Sys2Proof.Machine.execEthProgWrite n v s
  | .ethGnodeWrite n w v => Sys2Proof.Machine.execEthGnodeWrite n w v s
  | .ethPortEnable l v => Sys2Proof.Machine.execEthPortEnable l v s
  | .ethLinkChange l up => Sys2Proof.Machine.execEthLinkChange l up s
  | .shaperWrite i1 v => Sys2Proof.Machine.execShaperWrite i1 v s
  | .policerCommit i1 v => Sys2Proof.Machine.execPolicerCommit i1 v s
  | .cipAcquire path v => Sys2Proof.Machine.execCipAcquire path v s
  | .cipRelease path v => Sys2Proof.Machine.execCipRelease path v s
  | .cipLockRevoke => Sys2Proof.Machine.execCipLockRevoke s
  | .cipTailWrite path v => Sys2Proof.Machine.execCipTailWrite path v s
  | .cipRingCtrlWrite path v => Sys2Proof.Machine.execCipRingCtrlWrite path v s
  | .enc i1 f => Sys2Proof.Machine.execEnc i1 f s
  | .dec i1 f => Sys2Proof.Machine.execDec i1 f s
  | .ghash i1 f => Sys2Proof.Machine.execGhash i1 f s
  | .polyval i1 f => Sys2Proof.Machine.execPolyval i1 f s
  | .keyLoad i1 f => Sys2Proof.Machine.execKeyLoad i1 f s
  | .keyUnwrap i1 f => Sys2Proof.Machine.execKeyUnwrap i1 f s
  | .keyClear i1 f => Sys2Proof.Machine.execKeyClear i1 f s
  | .ctr i1 f => Sys2Proof.Machine.execCtr i1 f s
  | .gcmEnc i1 f => Sys2Proof.Machine.execGcmEnc i1 f s
  | .gcmDec i1 f => Sys2Proof.Machine.execGcmDec i1 f s
  | .xtsEnc i1 f => Sys2Proof.Machine.execXtsEnc i1 f s
  | .xtsDec i1 f => Sys2Proof.Machine.execXtsDec i1 f s
  | .cipCmdDone i1 => Sys2Proof.Machine.execCipCmdDone i1 s
  | .fwStage => Sys2Proof.Machine.execFwStage s
  | .fwActivate => Sys2Proof.Machine.execFwActivate s
  | .fwCancel => Sys2Proof.Machine.execFwCancel s
  | .trainSave => Sys2Proof.Machine.execTrainSave s
  | .netCfg => Sys2Proof.Machine.execNetCfg s
  | .distSend full => Sys2Proof.Machine.execDistSend full s
  | .distRecv => Sys2Proof.Machine.execDistRecv s
  | .distSegmentReceive x => Sys2Proof.Machine.execDistSegmentReceive x s
  | .emuCmdDone => Sys2Proof.Machine.execEmuCmdDone s
  | .fwActivation => Sys2Proof.Machine.execFwActivation s
  | .fwDeferredActivate => Sys2Proof.Machine.execFwDeferredActivate s
  | .lodgeWatchdogExpire c => Sys2Proof.Machine.execLodgeWatchdogExpire c s
  | .lodgeFault c mem => Sys2Proof.Machine.execLodgeFault c mem s
  | .lodgeRestartDone c => Sys2Proof.Machine.execLodgeRestartDone c s
  | .eventSourceInput n level => Sys2Proof.Machine.execEventSourceInput n level s
  | .eventDeliver c => Sys2Proof.Machine.execEventDeliver c s
  | .coreWake c => Sys2Proof.Machine.execCoreWake c s
  | .ldgEvSrcWrite c n v => Sys2Proof.Machine.execLdgEvSrcWrite c n v s
  | .loaderSegment l x => Sys2Proof.Machine.execLoaderSegment l x s
  | .loaderReport l => Sys2Proof.Machine.execLoaderReport l s
  | .loaderReportTimeout l => Sys2Proof.Machine.execLoaderReportTimeout l s
  | .repairRound => Sys2Proof.Machine.execRepairRound s
  | .voltageLoop low => Sys2Proof.Machine.execVoltageLoop low s
  | .voutBoostStep => Sys2Proof.Machine.execVoutBoostStep s
  | .voutBoostRelease => Sys2Proof.Machine.execVoutBoostRelease s
  | .sensorScan r => Sys2Proof.Machine.execSensorScan r s
  | .clampRelease => Sys2Proof.Machine.execClampRelease s
  | .tjSample => Sys2Proof.Machine.execTjSample s
  | .feedforwardEval => Sys2Proof.Machine.execFeedforwardEval s
  | .junctionLoop => Sys2Proof.Machine.execJunctionLoop s
  | .coolantLoop x => Sys2Proof.Machine.execCoolantLoop x s
  | .nodePowerLoop x => Sys2Proof.Machine.execNodePowerLoop x s
  | .paceLower => Sys2Proof.Machine.execPaceLower s
  | .tachFlowCount tach flow => Sys2Proof.Machine.execTachFlowCount tach flow s
  | .mctpRequest m => Sys2Proof.Machine.execMctpRequest m s
  | .logReadVdm p start count => Sys2Proof.Machine.execLogReadVdm p start count s
  | .reservedInstruction l parity => Sys2Proof.Machine.execReservedInstruction l parity s
  | .schTsCtrlWrite v => Sys2Proof.Machine.execSchTsCtrlWrite v s
  | .partResetComplete p => Sys2Proof.Machine.execPartResetComplete p s
  | .qpcWritebackDone qpn => Sys2Proof.Machine.execQpcWritebackDone qpn s
  | .upstreamLinkDown h => Sys2Proof.Machine.execUpstreamLinkDown h s
  | .configurationRequest fn x => Sys2Proof.Machine.execConfigurationRequest fn x s
  | .nsKeepAlive ns => Sys2Proof.Machine.execNsKeepAlive ns s

end Sys2Proof.Machine
end

