-- ==== Sys2Proof/Machine/Step.lean ====
section
/-! DEFINITION. One step: the command at the front of the queue, or, when none waits, a tick. -/

namespace Sys2Proof.Machine

open Sys2Proof

/-- Take the command at the front of the queue and answer its outcome on the state with the queue's rest. With an empty queue one
tick of 1.25 ns passes: the table has no row for a tick.
(DESIGN CHOICE: log 3, 6.) -/
def step (s : State) : Host.Outcome State Fault Refusal :=
  match s.pending with
  | c :: l => exec c { s with pending := l }
  | [] => .next (s.advance 1)

/-- The command that a word spells is put at the front of the queue; no row of the table gives bits, so no word spells one.
(DESIGN CHOICE: log 3.) -/
def State.withFetchWord (s : State) (nbits w : Nat) : State :=
  match decodeTableWord nbits w with
  | some c => { s with pending := c :: s.pending }
  | none => s

end Sys2Proof.Machine
end

