-- ==== Sys2Proof/Safety.lean ====
section
/-! DEFINITION. What a safe run is: every step answers a next state, and the invariant of the data structures holds. Beside it
the terms in which the statements say what a command changes and what it leaves. -/

namespace Sys2Proof.Machine

open Sys2Proof

/-- The sparse maps are in their canonical form: keys strictly rising, no entry that holds the default. Memory and scratch are
then equal whenever they read the same. -/
def State.wf (s : State) : Bool :=
  smWf regReset s.regs && Memory.wf s.mem && Memory.wf s.scratch

/-- A step completes. -/
def State.completes (s : State) : Prop := ∃ t, step s = .next t

/-- `n` steps from a state all complete. -/
def State.safeFor : Nat → State → Prop
  | 0, _ => True
  | n + 1, s => ∃ t, step s = .next t ∧ State.safeFor n t

/-! ### The sequencer -/

/-- The program of logical pavilion `l` runs on physical pavilion `p`, whose sequencer is `x`. -/
def State.runs (s : State) (l : Fin 128) (p : Fin 144) (x : Seq) : Prop :=
  s.seqAt l = some p ∧ s.seqOf p = x ∧ x.mode = .running

/-- It runs there, and the words at its PC are the instruction `o`. -/
def State.runsOp (s : State) (l : Fin 128) (p : Fin 144) (x : Seq) (o : BOp) : Prop := s.runs l p x ∧ (s.pav p).fetched = some o

/-- From `s` to `t` the sequencer of physical pavilion `p` has become `y`, and nothing else of the device has changed. -/
def State.onlySeq (s t : State) (p : Fin 144) (y : Seq) : Prop :=
  t = { s with pavs := t.pavs } ∧ t.pav p = { s.pav p with seq := y } ∧ ∀ q, q ≠ p → t.pav q = s.pav q

/-- From `x` to `y` the sequencer has moved past `n` words; but for the registers in `ws` and the flags nothing has changed. -/
def Seq.moved (x y : Seq) (n : Nat) (ws : List (Fin 16)) : Prop :=
  y = { x with w := y.w, n := y.n, z := y.z, c := y.c, v := y.v, pc := x.pc + BitVec.ofNat 16 n } ∧
    ∀ i, i ∉ ws → y.g i = x.g i

/-- The flags are as they were. -/
def Seq.sameFlags (x y : Seq) : Prop := y.n = x.n ∧ y.z = x.z ∧ y.c = x.c ∧ y.v = x.v

/-- N and Z are those of a result. -/
def Seq.nz (y : Seq) (r : BitVec 16) : Prop := y.n = r.msb ∧ y.z = decide (r = 0)

/-! ### The engines -/

/-- The command that engine `e` of logical pavilion `l`, engine `k` of physical pavilion `p`, starts next has the place `i` in its
queue, the class `cls`, the operation `op` and the block `b`. -/
def State.starts (s : State) (l : Fin 128) (e : Fin 16) (p : Fin 144) (k : Fin 8) (i cls op : Nat) (b : List (BitVec 16)) : Prop :=
  s.engAt l e = some (p, k) ∧ (∃ c, nextIn (s.engOf p k).q = some (i, c) ∧ c.blk = b) ∧ blkClass b = cls ∧ blkOp b = op

/-- A queue whose command at place `i` has started, with writes `ids` of its own. -/
def ranIn (q : List QCmd) (i : Nat) (ids : List Nat) : List QCmd := q.mapIdx (fun j c => if j = i then { c with ran := true, ids := ids } else c)

/-- From `s` to `t` engine `k` of physical pavilion `p` has become `g`, and nothing else of the device has changed. -/
def State.onlyEng (s t : State) (p : Fin 144) (k : Fin 8) (g : Eng) : Prop :=
  t = { s with pavs := t.pavs } ∧ (∀ q, q ≠ p → t.pav q = s.pav q) ∧
    t.pav p = { s.pav p with eng := (t.pav p).eng } ∧ t.engOf p k = g ∧ ∀ j, j ≠ k → t.engOf p j = s.engOf p j

/-- From `s` to `t` the sequencer of `p` has become `y` and engine `k` of `q` has become `g`, and nothing else has changed. -/
def State.onlySeqEng (s t : State) (p : Fin 144) (y : Seq) (q : Fin 144) (k : Fin 8) (g : Eng) : Prop :=
  t = { s with pavs := t.pavs } ∧ (∀ r, t.pav r = { s.pav r with seq := (t.pav r).seq, eng := (t.pav r).eng }) ∧
    (∀ r, r ≠ p → t.seqOf r = s.seqOf r) ∧ t.seqOf p = y ∧ t.engOf q k = g ∧
    ∀ r j, (r, j) ≠ (q, k) → t.engOf r j = s.engOf r j

/-! ### Fabric ports -/

/-- From `s` to `t` the entries `l` have been queued behind the control messages of port `p`, and nothing else of the fabric has
changed. -/
def State.onlyPortQ (s t : State) (p : Fin 24) (l : List Queued) : Prop :=
  t.fab = { s.fab with ports := t.fab.ports } ∧ (∀ q, q ≠ p → t.fab.ports[q] = s.fab.ports[q]) ∧
    t.fab.ports[p] = { s.fab.ports[p] with ctrlQ := s.fab.ports[p].ctrlQ ++ l }

/-! ### Registers and memory -/

/-- The place in scratch, physical pavilion and offset, that a device-physical address names (R19). -/
def State.scratchAt (s : State) (a : Nat) : Option (Fin 144 × Nat) :=
  if 0x4000000000 ≤ a ∧ a < 0x4010000000 then
    (s.phys? ((a - 0x4000000000) / 0x200000)).map (fun p => (p, (a - 0x4000000000) % 0x200000))
  else none

/-- From `s` to `t` no byte has changed but those that the `n` addresses from `a` name. -/
def State.onlyBytes (s t : State) (a n : Nat) : Prop :=
  (∀ c, (c < a ∨ a + n ≤ c) → smGet memDefault t.mem c = smGet memDefault s.mem c) ∧
    ∀ q k, k < 0x200000 → (∀ c, a ≤ c → c < a + n → s.scratchAt c ≠ some (q, k)) → t.sbyte q k = s.sbyte q k

/-- From `s` to `t` the bytes `b` have been written from `a` upward, and no other byte has changed. -/
def State.wrote (s t : State) (a : Nat) (b : List Byte) : Prop :=
  t.bytes a b.length = b ∧ s.onlyBytes t a b.length

/-- The scratch that a program of logical pavilion `l` names is there: each half of it present, the halves of a coupled pair in
different physical pavilions. -/
def State.scratchMapped (s : State) (l : Nat) : Prop :=
  (∀ a, a < s.spLimit l → (s.phys? (s.spHalf l a)).isSome) ∧
    ∀ a b, s.spHalf l a ≠ s.spHalf l b → s.phys? (s.spHalf l a) ≠ s.phys? (s.spHalf l b)

/-- From `s` to `t` the bytes `b` have been written to the program's scratch of `l` from byte `a` upward, and no other byte of
any scratch has changed. -/
def State.wroteSp (s t : State) (l a : Nat) (b : List Byte) : Prop :=
  (∀ i, i < b.length → t.spByte l (a + i) = b.getD i 0) ∧
    ∀ q k, k < 0x200000 → (∀ i, i < b.length → ¬ (s.phys? (s.spHalf l (a + i)) = some q ∧ (a + i) % 0x200000 = k)) →
      t.sbyte q k = s.sbyte q k

/-- Every register but those at the offsets of `l` is as it was. -/
def State.sameRegsBut (s t : State) (l : List Nat) : Prop := ∀ o, o ∉ l → t.reg o = s.reg o

/-- `n` bytes at `a` lie in GDDR7 or in the memory of one CXL port. -/
def State.plainAt (s : State) (a n : Nat) : Prop := ∃ r ∈ [Region.gddr, .cxl 0, .cxl 1], s.region? a n = some r

/-- Every byte of the device-physical address space but those of the ranges (address, length) is as it was. -/
def State.sameBytesBut (s t : State) (l : List (Nat × Nat)) : Prop :=
  ∀ a, (∀ r ∈ l, a < r.1 ∨ r.1 + r.2 ≤ a) → t.byte a = s.byte a

/-- `t` has, at the index that `s` writes next, a trouble-log entry with these fields (R468, R470). -/
def State.logged (s t : State) (kind block part : Nat) (st : Status) (detail arg0 arg1 : Nat) : Prop :=
  alook (s.fld fLOG_WR_COUNT % 65536) t.log = some
    { tb := s.sch.tb, seq := BitVec.ofNat 32 (s.fld fLOG_WR_COUNT), kind := kind, block := block, part := part, st := st,
      detail := detail, arg0 := BitVec.ofNat 32 arg0, arg1 := BitVec.ofNat 64 arg1 }

/-! ### Fetched commands -/

/-- Command `id` is `c`: fetched, started, not ended, of opcode `op`. -/
def State.doing (s : State) (id op : Nat) (c : Cmd) : Prop :=
  s.cmd? id = some c ∧ c.started = true ∧ c.done = none ∧ c.op = op

/-- Command `id` has ended with a status, a detail and a result. -/
def State.ended (s : State) (id : Nat) (st : Status) (detail result : Nat) : Prop :=
  ∃ c, s.cmd? id = some c ∧ c.done = some (st, detail, BitVec.ofNat 64 result)

/-- From `s` to `t` only the fetched command `id` has changed. -/
def State.onlyCmd (s t : State) (id : Nat) : Prop :=
  t = { s with que := t.que } ∧ t.que = { s.que with cmds := t.que.cmds } ∧ ∀ j, j ≠ id → t.cmd? j = s.cmd? j

end Sys2Proof.Machine
end

