-- ==== Sys2Proof/WellFormed.lean ====
section
/-! DEFINITION. Well-formed commands: those that the outside can send. The types of the operands hold them to their widths; what
is checked here is the length of a message and the size of an access. -/

namespace Sys2Proof

/-- The bytes of an access: those of a write, or the length of a read. -/
def accessLen (wr : Option (List Byte)) (len : Nat) : Nat := match wr with | some b => b.length | none => len

/-- A size that a PCIe access to a register has. -/
def byteSize (n : Nat) : Bool := n = 1 || n = 2 || n = 4 || n = 8

/-- A PCIe memory request: at least one byte, and none beyond its 4 KiB boundary. -/
def oneTlp (x : TlpX) : Bool :=
  let n := accessLen x.wr x.len
  decide (0 < n) && decide (x.addr % 4096 + n ≤ 4096)

/-- The rates and widths of a PCIe link: 1 to 7 stands for 2.5 to 128 GT/s. -/
def linkRate (r : Nat) : Bool := decide (1 ≤ r ∧ r ≤ 7)
def linkWidth (w : Nat) : Bool := w = 1 || w = 2 || w = 4 || w = 8 || w = 16

/-- Is a command well-formed? -/
def Instr.wellFormed : Instr → Bool
  | .powerOn _ => true
  | .porPinLow _ _ => true
  | .rootPllUnlock _ _ => true
  | .rootPllLossTimeout _ => true
  | .swCold _ _ => true
  | .swWarm _ _ => true
  | .upstreamPerst _ _ => true
  | .powerDown => true
  | .registerWrite _ _ off size v _ => byteSize size && decide (off < 0x8000000) && decide (v.toNat < 2 ^ (8 * size))
  | .lodgeFwStart => true
  | .genHoldExpire => true
  | .terraceWave _ => true
  | .pavSelfTestDone _ _ => true
  | .bringupReady => true
  | .upLinkUp _ rate width => linkRate rate && linkWidth width
  | .meshRequestArrive q => decide (0 < accessLen q.wr q.len)
  | .meshResponseArrive r => (match r.line with | some (_, b) => decide (b.length = 64) | none => true)
  | .meshWriteAck _ _ _ => true
  | .semaphoreAdd _ adds => !adds.isEmpty
  | .mapCommit => true
  | .pavilionReset _ => true
  | .pavResetComplete _ => true
  | .nop _ => true
  | .trap _ _ => true
  | .rett _ _ => true
  | .push _ _ => true
  | .pop _ _ _ => true
  | .cset _ _ _ => true
  | .aluMov _ _ _ => true
  | .aluAdd _ _ _ => true
  | .aluAdc _ _ _ => true
  | .aluSub _ _ _ => true
  | .aluSbc _ _ _ => true
  | .aluAnd _ _ _ => true
  | .aluOr _ _ _ => true
  | .aluXor _ _ _ => true
  | .aluCmp _ _ _ => true
  | .aluTst _ _ _ => true
  | .aluShl _ _ _ => true
  | .aluShr _ _ _ => true
  | .aluSar _ _ _ => true
  | .aluMul _ _ _ => true
  | .aluMulhu _ _ _ => true
  | .addi _ _ _ => true
  | .movi _ _ _ => true
  | .cmpi _ _ _ => true
  | .shlImm _ _ _ => true
  | .shrImm _ _ _ => true
  | .sarImm _ _ _ => true
  | .rorImm _ _ _ => true
  | .ld _ _ _ _ => true
  | .st _ _ _ _ => true
  | .addp _ _ _ => true
  | .addpr _ _ _ _ => true
  | .addpw _ _ _ => true
  | .cmpp _ _ _ => true
  | .bcc _ _ _ => true
  | .jmp _ _ => true
  | .call _ _ => true
  | .jmpr _ _ => true
  | .callr _ _ => true
  | .dbnz _ _ _ => true
  | .issue _ _ _ _ _ => true
  | .issueResume _ => true
  | .waite _ => true
  | .waitc _ _ _ _ => true
  | .waits _ _ _ _ => true
  | .waitidle _ => true
  | .fence _ => true
  | .signal _ _ _ _ => true
  | .waitComplete _ => true
  | .waitTimeout _ => true
  | .signalSend _ => true
  | .sequencerRelease _ => true
  | .engineCommandComplete _ _ _ => true
  | .fadd _ _ => true
  | .fsub _ _ => true
  | .fmul _ _ => true
  | .ffma _ _ => true
  | .fmin _ _ => true
  | .fmax _ _ => true
  | .fcmpeq _ _ => true
  | .fcmplt _ _ => true
  | .fcmple _ _ => true
  | .fcmpun _ _ => true
  | .sel _ _ => true
  | .fabs _ _ => true
  | .fneg _ _ => true
  | .fcopysign _ _ => true
  | .fdiv _ _ => true
  | .fsqrt _ _ => true
  | .exp2 _ _ => true
  | .log2 _ _ => true
  | .rcp _ _ => true
  | .rsqrt _ _ => true
  | .iadd _ _ => true
  | .isub _ _ => true
  | .iand _ _ => true
  | .ior _ _ => true
  | .ixor _ _ => true
  | .ishl _ _ => true
  | .ishr _ _ => true
  | .isar _ _ => true
  | .icmpeq _ _ => true
  | .icmplt _ _ => true
  | .imul _ _ => true
  | .cvt _ _ => true
  | .mxq _ _ => true
  | .mxd _ _ => true
  | .redsum _ _ => true
  | .redmax _ _ => true
  | .redmin _ _ => true
  | .imm _ _ => true
  | .acc2v _ _ => true
  | .v2acc _ _ => true
  | .tileStep _ _ _ => true
  | .accClear _ _ => true
  | .vload _ _ _ => true
  | .vstore _ _ => true
  | .aload _ _ _ => true
  | .astore _ _ => true
  | .get _ _ _ => true
  | .put _ _ _ _ => true
  | .genSetup _ _ => true
  | .timesyncExchange => true
  | .timesyncRequestRx _ _ _ => true
  | .timesyncReplyRx _ => true
  | .tbHoldExpire => true
  | .timePulse => true
  | .timePulseEnd => true
  | .schLoad _ => true
  | .schLoadEnd _ _ => true
  | .schAbort _ => true
  | .schStop _ => true
  | .schClear _ => true
  | .schActivate => true
  | .epochBoundary => true
  | .pendingFillEnd _ => true
  | .replayBoundary => true
  | .armedNoticeRx _ _ => true
  | .faultNoticeRx _ _ => true
  | .paceNoticeRx _ _ => true
  | .genNoticeRx _ _ => true
  | .paceReqWrite _ => true
  | .moveStart _ => true
  | .moveComplete _ _ => true
  | .slotTransmit => true
  | .flitReceive _ _ _ _ bytes => decide (bytes.length = 320)
  | .flitRelease _ _ _ => true
  | .nakReceive _ seqs => decide (1 ≤ seqs.length ∧ seqs.length ≤ 16)
  | .creditReceive _ n => decide (n.length = 16)
  | .volunteerPacketReceive _ _ _ => true
  | .routedMessageReceive _ _ => true
  | .fabRtCommit _ => true
  | .fabPortEnable _ _ => true
  | .fabPortDisable _ _ => true
  | .fabPortRetrain _ _ => true
  | .fabDetectPoll _ _ => true
  | .fabTrainStateDone _ _ => true
  | .fabTrainTimeout _ => true
  | .fabLaneFault _ _ => true
  | .fabDevnumWrite _ => true
  | .memRequest q => decide (0 < accessLen q.wr q.len)
  | .gddr7TrainDone _ => true
  | .memTrainSave _ => true
  | .gddr7Refresh _ _ => true
  | .gddr7Tracking _ => true
  | .patrolScrub _ _ => true
  | .cxlPortEnable _ _ => true
  | .cxlPortDisable _ _ => true
  | .cxlPortActive _ _ => true
  | .cxlLinkDown _ => true
  | .cxlEventRecord _ rec _ => decide (8 ≤ rec.length)
  | .cxlRequest q => decide (0 < accessLen q.wr q.len)
  | .cxmCreditWrite _ _ => true
  | .cxmSvcMaskWrite _ _ => true
  | .memPtWrite _ _ _ => true
  | .migrate _ => true
  | .migrateComplete _ _ => true
  | .seal _ _ _ => true
  | .attend _ _ _ => true
  | .serviceRequestStart => true
  | .sheaf _ => true
  | .diversionComplete _ _ _ => true
  | .reserveSlotFree _ => true
  | .sheafStallLimit => true
  | .granuleBackgroundRead _ _ _ => true
  | .shardWriteDone _ => true
  | .sheafShardsDurable _ => true
  | .manifestDurable _ => true
  | .ckpAbandon _ => true
  | .ceTrigger _ => true
  | .ceWindowEnd => true
  | .restoreSelect _ _ => true
  | .restoreLoad _ _ => true
  | .hifCtrlPfWrite _ _ => true
  | .bar4Access _ x => oneTlp x
  | .bar4Resize _ _ => true
  | .romRead _ _ len => decide (0 < len)
  | .pcieCompletionRx _ _ => true
  | .completionTimeout _ _ => true
  | .tagQuarantineEnd _ _ => true
  | .dcfgRead _ => true
  | .dcfgWrite _ => true
  | .dcfgCrsTimeout => true
  | .dsSplitWrite _ _ => true
  | .slotPresenceChange _ _ _ => true
  | .slotButtonPress _ => true
  | .slotPowerOn _ _ => true
  | .slotPowerOff _ _ => true
  | .slotPowerRemove _ => true
  | .slotResetRelease _ => true
  | .slotLinkUp _ rate width => linkRate rate && linkWidth width
  | .slotEnumerate _ _ => true
  | .slotTrainTimeout _ => true
  | .slotLinkLost _ => true
  | .winCommit _ => true
  | .winSwitch => true
  | .inboundAccess _ x => oneTlp x
  | .getVersion _ _ => true
  | .getCapabilities _ _ => true
  | .negotiateAlgorithms _ _ => true
  | .getDigests _ _ => true
  | .getCertificate _ _ => true
  | .challenge _ _ => true
  | .getMeasurements _ _ => true
  | .keyExchange _ _ => true
  | .finish _ _ => true
  | .heartbeat _ _ => true
  | .keyUpdate _ _ => true
  | .endSession _ _ => true
  | .doeAbort _ => true
  | .ideKm _ _ => true
  | .sqDoorbell _ _ _ _ => true
  | .cqDoorbell _ _ _ _ => true
  | .queueVersionWrite _ _ _ => true
  | .pwCtrWrite _ _ _ size _ => byteSize size
  | .descriptorFetch _ _ => true
  | .commandStart _ _ => true
  | .commandComplete _ _ => true
  | .msixCoalesceTimeout _ _ => true
  | .queAdminEnable _ => true
  | .cmdNop _ => true
  | .partCreate _ => true
  | .partDestroy _ => true
  | .queueCreate _ => true
  | .queueDelete _ => true
  | .sqDrainDone _ _ => true
  | .queueReset _ => true
  | .partFreeze _ => true
  | .freezeGraceEnd _ => true
  | .freezeDrained _ => true
  | .freezeDrainTimeout _ => true
  | .partSave _ => true
  | .partRestore _ => true
  | .partResume _ => true
  | .partReset _ => true
  | .partLimits _ => true
  | .qpCreate _ => true
  | .qpModify _ => true
  | .qpDestroy _ => true
  | .qpnHoldEnd _ => true
  | .mrReg _ => true
  | .mrDereg _ => true
  | .send _ _ => true
  | .sendImm _ _ => true
  | .rdmaWrite _ _ => true
  | .writeImm _ _ => true
  | .rdmaRead _ => true
  | .fetchAdd _ => true
  | .cmpSwap _ => true
  | .recv _ => true
  | .rdmaPacketReceive _ => true
  | .qpcFetchDone _ => true
  | .qpcFetchTimeout _ => true
  | .retxTimeout _ => true
  | .rnrTimerExpire _ => true
  | .rdMessageAbandon _ => true
  | .rdKeepExpire _ => true
  | .waitRelease _ => true
  | .trigHoldExpire _ _ => true
  | .ccRecover _ => true
  | .nsAttach _ _ => true
  | .nsDetach _ => true
  | .nsAttachTimeout _ => true
  | .nsAssocLost _ => true
  | .nsReconnect _ _ => true
  | .nsReconnectGiveup _ => true
  | .nvmeRead _ _ => true
  | .nvmeWrite _ _ _ => true
  | .nvmeFlush _ _ => true
  | .ethFrameReceive _ f => decide (14 ≤ f.bytes.length)
  | .pfcPauseEnd _ _ => true
  | .mgmtFrameReceive _ _ => true
  | .nextHopHoldExpire _ => true
  | .ptpEventMessage _ _ => true
  | .ethTxSelect _ _ => true
  | .bucketRefill => true
  | .ethEntWrite _ => true
  | .ethEntRead _ => true
  | .ethEntInvalidate _ => true
  | .ethEntDone => true
  | .ethModeWrite _ => true
  | .ethProgWrite _ _ => true
  | .ethGnodeWrite _ _ _ => true
  | .ethPortEnable _ _ => true
  | .ethLinkChange _ _ => true
  | .shaperWrite _ _ => true
  | .policerCommit _ _ => true
  | .cipAcquire _ _ => true
  | .cipRelease _ _ => true
  | .cipLockRevoke => true
  | .cipTailWrite _ _ => true
  | .cipRingCtrlWrite _ _ => true
  | .enc _ _ => true
  | .dec _ _ => true
  | .ghash _ _ => true
  | .polyval _ _ => true
  | .keyLoad _ _ => true
  | .keyUnwrap _ _ => true
  | .keyClear _ _ => true
  | .ctr _ _ => true
  | .gcmEnc _ _ => true
  | .gcmDec _ _ => true
  | .xtsEnc _ _ => true
  | .xtsDec _ _ => true
  | .cipCmdDone _ => true
  | .fwStage => true
  | .fwActivate => true
  | .fwCancel => true
  | .trainSave => true
  | .netCfg => true
  | .distSend _ => true
  | .distRecv => true
  | .distSegmentReceive x => decide (x.digest.length = 32 ∧ x.data.length ≤ 4096)
  | .emuCmdDone => true
  | .fwActivation => true
  | .fwDeferredActivate => true
  | .lodgeWatchdogExpire _ => true
  | .lodgeFault _ _ => true
  | .lodgeRestartDone _ => true
  | .eventSourceInput _ _ => true
  | .eventDeliver _ => true
  | .coreWake _ => true
  | .ldgEvSrcWrite _ _ _ => true
  | .loaderSegment _ x => decide (1 ≤ x.data.length ∧ x.data.length ≤ 4096)
  | .loaderReport _ => true
  | .loaderReportTimeout _ => true
  | .repairRound => true
  | .voltageLoop low => decide (1 ≤ low.length ∧ low.length ≤ 16)
  | .voutBoostStep => true
  | .voutBoostRelease => true
  | .sensorScan r => decide (r.length = 64)
  | .clampRelease => true
  | .tjSample => true
  | .feedforwardEval => true
  | .junctionLoop => true
  | .coolantLoop _ => true
  | .nodePowerLoop _ => true
  | .paceLower => true
  | .tachFlowCount _ _ => true
  | .mctpRequest _ => true
  | .logReadVdm _ _ _ => true
  | .reservedInstruction _ _ => true
  | .schTsCtrlWrite _ => true
  | .partResetComplete _ => true
  | .qpcWritebackDone _ => true
  | .upstreamLinkDown _ => true
  | .configurationRequest _ _ => true
  | .nsKeepAlive _ => true

end Sys2Proof
end

