-- ==== Sys2Proof/Certificates/Slice0/Obligations.lean ====
section
/-! DEFINITION. The statements about the model, each a `Prop` of its own, with the terms that a few of them share. A statement of
several parts is the conjunction of its `Clause`s. -/

open Sys2Proof Sys2Proof.Machine

/-- For every command c, queue rest l and state s, a step of the state with c at the front of its queue is exec of c on the
state whose queue is l. What it states beyond the rules is the choice of the model: log entries 3, 6.
[95_what_each_step_holds.md] -/
def Obligations.StepRunsFront : Prop :=
  ∀ (c : Instr) (l : List Instr) (s : State), step { s with pending := c :: l } = exec c { s with pending := l }

/-- The row `c` runs the class 0 command of operation `op` that the engine starts next: it writes, in every lane of VD, `f` of the same
lanes of VA, VB and VC, marks the command as run, and changes nothing else of the device. -/
def laneWise (c : Fin 128 → Fin 16 → Instr) (op : Nat) (f : VecOp → BitVec 32 → BitVec 32 → BitVec 32 → BitVec 32) : Prop :=
  ∀ (s : State) (l : Fin 128) (e : Fin 16) (p : Fin 144) (k : Fin 8) (i : Nat) (b : List (BitVec 16)), s.starts l e p k i 0 op b →
    let x := vecOf b
    ∃ t g, exec (c l e) s = .next t ∧ s.onlyEng t p k g ∧ g = { s.engOf p k with v := g.v, q := ranIn (s.engOf p k).q i [] } ∧
      (∀ r, r ≠ x.vd → g.v[r] = (s.engOf p k).v[r]) ∧
      ∀ j : Fin 64, g.v[x.vd][j] = f x (s.engOf p k).v[x.va][j] (s.engOf p k).v[x.vb][j] (s.engOf p k).v[x.vc][j]

/-- A lane mask: all ones where a condition holds, else 0. -/
def maskOf (q : Prop) [Decidable q] : BitVec 32 := if q then 0xFFFFFFFF else 0

/-- IADD, ISUB, IAND, IOR, IXOR, ISHL, ISHR, ISAR, ICMPEQ, ICMPLT, IMUL, SEL, FABS, FNEG, FCOPYSIGN and IMM write in every lane
of VD the value the OP table gives (32-bit and wrapping, shifts by bits [4:0] of the VB lane, masks of all ones or 0), and
change nothing else; each runs the command of its OP code that its engine starts next, and marks it as run.
[04_berin_isa.md: command blocks (R98, R99), vector OP codes (R100), the order of commands (R101); 03_pavilion_array.md:
vector unit operations (R59)] -/
def Clause.vectorIntegers : Prop :=
  laneWise .iadd 0x14 (fun _ a b _ => BitVec.ofNat 32 (a.toNat + b.toNat)) ∧
  laneWise .isub 0x15 (fun _ a b _ => BitVec.ofInt 32 ((a.toNat : Int) - b.toNat)) ∧
  laneWise .iand 0x16 (fun _ a b _ => BitVec.ofNat 32 (a.toNat &&& b.toNat)) ∧
  laneWise .ior 0x17 (fun _ a b _ => BitVec.ofNat 32 (a.toNat ||| b.toNat)) ∧
  laneWise .ixor 0x18 (fun _ a b _ => BitVec.ofNat 32 (a.toNat ^^^ b.toNat)) ∧
  laneWise .ishl 0x19 (fun _ a b _ => BitVec.ofNat 32 (a.toNat * 2 ^ (b.toNat % 32))) ∧
  laneWise .ishr 0x1A (fun _ a b _ => BitVec.ofNat 32 (a.toNat / 2 ^ (b.toNat % 32))) ∧
  laneWise .isar 0x1B (fun _ a b _ => BitVec.ofInt 32 (a.toInt / (2 ^ (b.toNat % 32) : Nat))) ∧
  laneWise .icmpeq 0x1C (fun _ a b _ => maskOf (a.toNat = b.toNat)) ∧
  laneWise .icmplt 0x1D (fun _ a b _ => maskOf (a.toInt < b.toInt)) ∧
  laneWise .imul 0x1E (fun _ a b _ => BitVec.ofNat 32 (a.toNat * b.toNat)) ∧
  laneWise .sel 0x0A (fun _ a b c => if c = 0 then b else a) ∧
  laneWise .fabs 0x0B (fun _ a _ _ => a &&& 0x7FFFFFFF) ∧
  laneWise .fneg 0x0C (fun _ a _ _ => a ^^^ 0x80000000) ∧
  laneWise .fcopysign 0x0D (fun _ a b _ => (a &&& 0x7FFFFFFF) ||| (b &&& 0x80000000)) ∧
  laneWise .imm 0x25 (fun x _ _ _ => x.imm)

/-- FADD, FSUB, FMUL, FFMA, FMIN, FMAX, the four comparisons, FDIV, FSQRT, EXP2, LOG2, RCP and RSQRT write in every lane of VD
the exact value of the operation rounded once in the command's mode (R44), the minimum or maximum (R36), the mask of a
comparison in which a NaN is unordered (R59), or the member of G of R60, and change nothing else. [02_number_formats.md:
arithmetic inside an engine (R44); 03_pavilion_array.md: vector unit and approximate functions (R59, R60); 04_berin_isa.md:
vector OP codes (R100)] -/
def Clause.vectorFloats : Prop :=
  laneWise .fadd 0x00 (fun x a b _ => fp32 x.rm.val (addVal x.rm.val (val32 a) (val32 b))) ∧
  laneWise .fsub 0x01 (fun x a b _ => fp32 x.rm.val (addVal x.rm.val (val32 a) (negVal (val32 b)))) ∧
  laneWise .fmul 0x02 (fun x a b _ => fp32 x.rm.val (mulVal (val32 a) (val32 b))) ∧
  laneWise .ffma 0x03 (fun x a b c => fp32 x.rm.val (addVal x.rm.val (mulVal (val32 a) (val32 b)) (val32 c))) ∧
  laneWise .fdiv 0x0E (fun x a b _ => fp32 x.rm.val (divVal (val32 a) (val32 b))) ∧
  laneWise .fsqrt 0x0F (fun x a _ _ => fp32 x.rm.val (sqrtVal (val32 a))) ∧
  laneWise .fmin 0x04 (fun _ a b _ => fmin a b) ∧ laneWise .fmax 0x05 (fun _ a b _ => fmax a b) ∧
  laneWise .fcmpeq 0x06 (fun _ a b _ => maskOf (cmpVal (val32 a) (val32 b) = some .eq)) ∧
  laneWise .fcmplt 0x07 (fun _ a b _ => maskOf (cmpVal (val32 a) (val32 b) = some .lt)) ∧
  laneWise .fcmple 0x08 (fun _ a b _ => maskOf (cmpVal (val32 a) (val32 b) = some .lt ∨ cmpVal (val32 a) (val32 b) = some .eq)) ∧
  laneWise .fcmpun 0x09 (fun _ a b _ => maskOf (val32 a = .nan ∨ val32 b = .nan)) ∧
  laneWise .exp2 0x10 (fun _ a _ _ => toG (exp2Val (val32 a))) ∧ laneWise .log2 0x11 (fun _ a _ _ => toG (log2Val (val32 a))) ∧
  laneWise .rcp 0x12 (fun _ a _ _ => toG (rcpVal (val32 a))) ∧ laneWise .rsqrt 0x13 (fun _ a _ _ => toG (rsqrtVal (val32 a)))

/-- The lane-wise vector rows: integers and floating point: integer, select, sign and immediate operations of the vector unit;
floating-point operations of the vector unit. What it states beyond the rules is the choice of the model: log entries 17,
20. -/
def Obligations.VectorArithmetic : Prop := Clause.vectorIntegers ∧ Clause.vectorFloats

/-- For all operands and every rounding-mode code, a result of FADD, FSUB, FMUL, FFMA, FDIV, FSQRT or of an approximate function
that is a NaN is 0x7FC0_0000; with a NaN first operand FADD, FMUL, FDIV and FFMA give that NaN. [02_number_formats.md:
canonical NaN (R34)] -/
def Obligations.CanonicalNaN : Prop :=
  ∀ (rm : Nat) (a b c : BitVec 32),
    (∀ r ∈ [fadd rm a b, fsub rm a b, fmul rm a b, ffma rm a b c, fdiv rm a b, fsqrt rm a, toG (exp2Val (val32 a)),
        toG (log2Val (val32 a)), toG (rcpVal (val32 a)), toG (rsqrtVal (val32 a))], val32 r = .nan → r = 0x7FC00000) ∧
    (val32 a = .nan → fadd rm a b = 0x7FC00000 ∧ fmul rm a b = 0x7FC00000 ∧ fdiv rm a b = 0x7FC00000 ∧ ffma rm a b c = 0x7FC00000)

/-- For operands that are not NaN, FMIN is one of the operands and neither operand is less than it, FMAX is one of them and
neither is greater; of two zeros with different signs FMIN is −0 and FMAX is +0; when either operand is a NaN both are the
canonical NaN. These are the functions that VectorArithmetic shows the rows FMIN and FMAX to compute in every lane. [R36] -/
def Obligations.MinMaxOrder : Prop :=
  ∀ a b : BitVec 32,
    (val32 a = .nan ∨ val32 b = .nan → fmin a b = 0x7FC00000 ∧ fmax a b = 0x7FC00000) ∧
    (val32 a ≠ .nan → val32 b ≠ .nan →
      (fmin a b = a ∨ fmin a b = b) ∧ (fmax a b = a ∨ fmax a b = b) ∧
      (∀ x ∈ [a, b], cmpVal (val32 x) (val32 (fmin a b)) ≠ some .lt ∧ cmpVal (val32 x) (val32 (fmax a b)) ≠ some .gt) ∧
      (a = 0x80000000 ∧ b = 0 ∨ a = 0 ∧ b = 0x80000000 → fmin a b = 0x80000000 ∧ fmax a b = 0))

/-- For a magnitude m × 2^e and a spacing 2^q above 2^e, the rounded quotient with the random word r is the truncated one or one
more, it is one more exactly when D + r ≥ 65,536 where D is the discarded fraction in units of 2^−16, so of the 65,536 words
exactly D round up; with nothing discarded the result is exact. [02_number_formats.md: stochastic rounding (R47)] -/
def Obligations.StochasticRounding : Prop :=
  ∀ (m sh r : Nat), r < 65536 → 
    let t := m / 2 ^ sh
    let d := m % 2 ^ sh * 65536 / 2 ^ sh
    roundQuot m 0 sh (.sr r) = (if 65536 ≤ d + r then t + 1 else t) ∧
    ((List.range 65536).filter (fun w => decide (roundQuot m 0 sh (.sr w) = t + 1))).length = d ∧
    (m % 2 ^ sh = 0 → roundQuot m 0 sh (.sr r) = t)

/-- The combination of R51 of the 2^n entries from index `i` on, absent entries being `none`: a pair of two present values gives
`f` of them, a pair with one absent entry gives the other, a pair of two absent entries is absent. -/
def padTree (f : BitVec 32 → BitVec 32 → BitVec 32) : Nat → (Nat → Option (BitVec 32)) → Nat → Option (BitVec 32)
  | 0, v, i => v i
  | n + 1, v, i =>
    match padTree f n v i, padTree f n v (i + 2 ^ n) with
    | some a, some b => some (f a b)
    | some a, none => some a
    | none, b => b

/-- For every combining function and every list, the tree by levels of adjacent pairs gives what the padded in-place loop of R51
gives: the values padded with absent entries to a power of two, halved level by level, an absent right operand passing the
left one on; the empty list gives +0. [02_number_formats.md: the fixed pairwise sum (R51)] -/
def Obligations.PairwiseSum : Prop :=
  ∀ (f : BitVec 32 → BitVec 32 → BitVec 32) (l : List (BitVec 32)) (n : Nat), l.length ≤ 2 ^ n →
    pairReduce f 0 l = (padTree f n (fun i => l[i]?) 0).getD 0

/-- CVT packs into VD, from bit 0 upward with the bits above written 0, the 64 elements of VA converted once from FMT_A to
FMT_D, element base + i taking its own random word under SR; MXQ writes two blocks to VD and their scales to VC lane 0,
whose bits [31:16] become 0, and no other lane of VC (VD and VC being different registers); MXD decodes the 64 elements with
the scales of VC lane 0; REDSUM, REDMAX and REDMIN write lane 0 of VD by the tree over the lanes of VA and +0 elsewhere.
Nothing else changes. [04_berin_isa.md: vector OP codes (R100); 02_number_formats.md: packing (R32), conversions (R42, R43,
R49), blocks (R39, R40), sums (R51)] -/
def Clause.vectorConversions : Prop :=
  ∀ (s : State) (l : Fin 128) (e : Fin 16) (p : Fin 144) (k : Fin 8) (i : Nat) (b : List (BitVec 16)),
    let x := vecOf b
    let g0 := s.engOf p k
    let q := ranIn g0.q i []
    (s.starts l e p k i 0 0x1F b → ∃ t g, exec (.cvt l e) s = .next t ∧ s.onlyEng t p k g ∧ g = { g0 with v := g.v, q := q } ∧
      (∀ r, r ≠ x.vd → g.v[r] = g0.v[r]) ∧ vregNat g.v[x.vd] < 2 ^ (64 * fmtBits x.fmtD.val) ∧
      ∀ j, j < 64 → bitsOf (vregNat g.v[x.vd]) (fmtBits x.fmtD.val * j) (fmtBits x.fmtD.val) =
        codeOf x.fmtD.val x.rm.val x.sat
          (if x.rm.val = 4 then randomWord g0.seed.toNat x.tensor.toNat g0.step.toNat g0.purpose.toNat (x.base.toNat + j) else 0)
          (codeVal x.fmtA.val (bitsOf (vregNat g0.v[x.va]) (fmtBits x.fmtA.val * j) (fmtBits x.fmtA.val)))
          % 2 ^ fmtBits x.fmtD.val) ∧
    (s.starts l e p k i 0 0x20 b → x.vc ≠ x.vd → ∃ t g, exec (.mxq l e) s = .next t ∧ s.onlyEng t p k g ∧
      g = { g0 with v := g.v, q := q } ∧
      (∀ r, r ≠ x.vd → r ≠ x.vc → g.v[r] = g0.v[r]) ∧ (∀ j : Fin 64, j ≠ 0 → g.v[x.vc][j] = g0.v[x.vc][j]) ∧
      g.v[x.vc][(0 : Fin 64)].toNat = (mxQuant x.fmtD.val x.rm.val ((g0.v[x.va].toList.take 32).map val32)).2 +
        256 * (mxQuant x.fmtD.val x.rm.val ((g0.v[x.va].toList.drop 32).map val32)).2 ∧
      ∀ j, j < 64 → bitsOf (vregNat g.v[x.vd]) (fmtBits x.fmtD.val * j) (fmtBits x.fmtD.val) =
        ((mxQuant x.fmtD.val x.rm.val ((g0.v[x.va].toList.take 32).map val32)).1 ++
          (mxQuant x.fmtD.val x.rm.val ((g0.v[x.va].toList.drop 32).map val32)).1).getD j 0 % 2 ^ fmtBits x.fmtD.val) ∧
    (s.starts l e p k i 0 0x21 b → ∃ t g, exec (.mxd l e) s = .next t ∧ s.onlyEng t p k g ∧ g = { g0 with v := g.v, q := q } ∧
      (∀ r, r ≠ x.vd → g.v[r] = g0.v[r]) ∧
      ∀ j : Fin 64, g.v[x.vd][j] = mxDecode x.fmtA.val (bitsOf g0.v[x.vc][(0 : Fin 64)].toNat (if j.val < 32 then 0 else 8) 8)
        (bitsOf (vregNat g0.v[x.va]) (fmtBits x.fmtA.val * j.val) (fmtBits x.fmtA.val))) ∧
    (∀ c ∈ [(Instr.redsum l e, 0x22, fadd 0), (.redmax l e, 0x23, fmax), (.redmin l e, 0x24, fmin)], s.starts l e p k i 0 c.2.1 b →
      ∃ t g, exec c.1 s = .next t ∧ s.onlyEng t p k g ∧ g = { g0 with v := g.v, q := q } ∧ (∀ r, r ≠ x.vd → g.v[r] = g0.v[r]) ∧
        ∀ j : Fin 64, g.v[x.vd][j] = if j = 0 then pairReduce c.2.2 0 g0.v[x.va].toList else 0)

/-- Row 4k + r of an accumulator lies in lanes 16r to 16r + 15 of the k-th of four registers; a clear makes every element +0; a
tile step whose reads find no error adds to each element of C the sum of the K products of a row of A and a column of B,
with the block scales of an MX step; a generator set-up replaces SEED, STEP and PURPOSE. Each runs the command that its
engine starts next, with the fields of its block, and marks it as run; nothing else of the device changes.
[03_pavilion_array.md: accumulators (R58), tile (R61, R62); 04_berin_isa.md: blocks (R98, R99), the order of commands
(R101); 02_number_formats.md: tile sums (R45, R46)] -/
def Clause.accumulators : Prop :=
  ∀ (s : State) (l : Fin 128) (e : Fin 16) (p : Fin 144) (k : Fin 8) (i : Nat) (b : List (BitVec 16)),
    let x := vecOf b
    let y := tileOf b
    let g0 := s.engOf p k
    let q := ranIn g0.q i []
    (s.starts l e p k i 0 0x26 b → ∃ t g, exec (.acc2v l e) s = .next t ∧ s.onlyEng t p k g ∧ g = { g0 with v := g.v, q := q } ∧
      (∀ (m : Fin 4) (j : Fin 64), g.v[Fin.ofNat 32 (x.vd.val + m.val)][j] = g0.a[x.acc][64 * m.val + j.val]) ∧
      ∀ r : Fin 32, (∀ m : Fin 4, r ≠ Fin.ofNat 32 (x.vd.val + m.val)) → g.v[r] = g0.v[r]) ∧
    (s.starts l e p k i 0 0x27 b → ∃ t g, exec (.v2acc l e) s = .next t ∧ s.onlyEng t p k g ∧ g = { g0 with a := g.a, q := q } ∧
      (∀ c, c ≠ x.acc → g.a[c] = g0.a[c]) ∧
      ∀ (m : Fin 4) (j : Fin 64), g.a[x.acc][64 * m.val + j.val] = g0.v[Fin.ofNat 32 (x.va.val + m.val)][j]) ∧
    (s.starts l e p k i 1 1 b → ∃ t g, exec (.accClear l e) s = .next t ∧ s.onlyEng t p k g ∧ g = { g0 with a := g.a, q := q } ∧
      (∀ c, c ≠ y.acc → g.a[c] = g0.a[c]) ∧ ∀ j : Fin 256, g.a[y.acc][j] = 0) ∧
    (∀ n, s.starts l e p k i 1 0 b → tileK y.fmtA y.fmtB = some n → ∃ t g, exec (.tileStep l e []) s = .next t ∧ s.onlyEng t p k g ∧
      g = { g0 with a := g.a, q := q } ∧ (∀ c, c ≠ y.acc → g.a[c] = g0.a[c]) ∧
      ∀ r c : Fin 16, g.a[y.acc][16 * r.val + c.val]'(by omega) = tileElem y.fmtA y.fmtB
        (g0.a[y.acc][16 * r.val + c.val]'(by omega)) (s.tileRow l.val y.fmtA n y.aLine y.aPitch r.val)
        (s.tileRow l.val y.fmtB n y.bLine y.bPitch c.val)
        (s.spByte l.val (64 * y.saLine + r.val)).toNat (s.spByte l.val (64 * y.sbLine + c.val)).toNat) ∧
    (s.starts l e p k i 4 0 b → ∃ t, exec (.genSetup l e) s = .next t ∧
      s.onlyEng t p k { g0 with seed := BitVec.ofNat 64 (blkAddr b 1), step := BitVec.ofNat 32 (blkWord b 5 + 65536 * blkWord b 6)
                                purpose := BitVec.ofNat 8 (blkWord b 7 / 256), q := q })

/-- Conversions, reductions and the accumulators: CVT, MXQ, MXD and the reductions; ACC2V, V2ACC, ACC_CLEAR, TILE_STEP and
GEN_SETUP. What it states beyond the rules is the choice of the model: log entries 18, 29. -/
def Obligations.ConversionsAndTiles : Prop := Clause.vectorConversions ∧ Clause.accumulators

/-- Lane l of a register lies at bytes 4l to 4l + 3 from the start of LINE, little-endian, and element 16i + j of an accumulator
at bytes 4j to 4j + 3 of line LINE + i. A load whose reads find no error changes the register alone; a store changes those
bytes of scratch alone. Each runs the command that its engine starts next and marks it as run. [04_berin_isa.md: class 2
(R99), the order of commands (R101); 03_pavilion_array.md: registers and scratch (R58, R63, R78)] -/
def Clause.scratchMoves : Prop :=
  ∀ (s : State) (l : Fin 128) (e : Fin 16) (p : Fin 144) (k : Fin 8) (i : Nat) (b : List (BitVec 16)),
    let g0 := s.engOf p k
    let q := ranIn g0.q i []
    let a := 64 * moveLine b
    (s.starts l e p k i 2 0 b → ∃ t g, exec (.vload l e []) s = .next t ∧ s.onlyEng t p k g ∧ g = { g0 with v := g.v, q := q } ∧
      (∀ r, r ≠ moveReg b → g.v[r] = g0.v[r]) ∧ ∀ j : Fin 64, g.v[moveReg b][j].toNat = leNat (s.spBytes l.val (a + 4 * j.val) 4)) ∧
    (s.starts l e p k i 2 2 b → ∃ t g, exec (.aload l e []) s = .next t ∧ s.onlyEng t p k g ∧ g = { g0 with a := g.a, q := q } ∧
      (∀ c, c ≠ moveAcc b → g.a[c] = g0.a[c]) ∧ ∀ j : Fin 256, g.a[moveAcc b][j].toNat = leNat (s.spBytes l.val (a + 4 * j.val) 4)) ∧
    (s.scratchMapped l.val →
      (s.starts l e p k i 2 1 b → a + 256 ≤ s.spLimit l.val → ∃ t, exec (.vstore l e) s = .next t ∧
        s.onlyEng { t with scratch := s.scratch } p k { g0 with q := q } ∧
        s.wroteSp t l.val a (g0.v[moveReg b].toList.flatMap (fun w => leBytes 4 w.toNat))) ∧
      (s.starts l e p k i 2 3 b → a + 1024 ≤ s.spLimit l.val → ∃ t, exec (.astore l e) s = .next t ∧
        s.onlyEng { t with scratch := s.scratch } p k { g0 with q := q } ∧
        s.wroteSp t l.val a (g0.a[moveAcc b].toList.flatMap (fun w => leBytes 4 w.toNat))))

/-- A GET whose target can serve it and whose accesses succeed (with a free tag on the link of its address, if it has one)
copies COUNT lines from ADDR, as they stand when the held writes have been made, into the program's scratch from LINE; a PUT
copies them the other way (where its bytes are not held for copy-before-write, and the range is not in the read-only trouble
log), sends them on the link of a host's or an accelerator's address, and leaves one write of its own to be acknowledged for
each line. No other byte changes. Each runs the command that its engine starts next and marks it as run. [04_berin_isa.md:
class 3 (R99), the order of commands (R101), completion (R102); 03_pavilion_array.md: mesh transfers (R67, R68, R494);
10_pcie_ports.md: writes and tags (R287, R289)] -/
def Clause.meshTransfers : Prop :=
  ∀ (s : State) (l : Fin 128) (e : Fin 16) (p : Fin 144) (k : Fin 8) (i : Nat) (b : List (BitVec 16)),
    let g0 := s.engOf p k
    let a := xferAddr b
    let n := xferCount b
    let z := 64 * xferLine b
    let first := (s.pav p).nextWrite
    s.accessSt a (64 * n) = .ok →
    (s.starts l e p k i 3 0 b → s.noTag a (64 * n) = false → s.scratchMapped l.val → z + 64 * n ≤ s.spLimit l.val →
      ∃ t, exec (.get l e []) s = .next t ∧ s.onlyEng { t with scratch := s.scratch } p k { g0 with q := ranIn g0.q i [] } ∧
        s.wroteSp t l.val z (s.bytesHeld a (64 * n))) ∧
    (s.starts l e p k i 3 1 b → s.region? a (64 * n) ≠ some .log → s.writeHeld a (64 * n) (.put p first n) = false →
      ∃ t, exec (.put l e [] []) s = .next t ∧ t = { s with pavs := t.pavs, mem := t.mem, scratch := t.scratch, out := t.out } ∧
        s.wrote t a (s.spBytes l.val z (64 * n)) ∧ (∀ q, q ≠ p → t.pav q = s.pav q) ∧
        t.pav p = { s.pav p with eng := (t.pav p).eng, nextWrite := first + n,
                                 writes := (s.pav p).writes ++ (List.range n).map (fun j => { id := first + j, dest := s.destOf a }) } ∧
        t.engOf p k = { g0 with q := ranIn g0.q i ((List.range n).map (fun j => first + j)) } ∧
        (∀ j, j ≠ k → t.engOf p j = s.engOf p j) ∧
        (s.linkOf a (64 * n) = none → t.out = s.out) ∧
        ∀ h, s.linkOf a (64 * n) = some h →
          t.out = .memWr h (reqFn h none) (s.relaxed h) (s.ideOn h) a (s.spBytes l.val z (64 * n)) :: s.out)

/-- VLD, VST, VGET and VPUT, and the mesh transfers GET and PUT: VLOAD, VSTORE, ALOAD and ASTORE; GET and PUT. What it states
beyond the rules is the choice of the model: log entries 7, 28, 57. -/
def Obligations.ScratchAndMesh : Prop := Clause.scratchMoves ∧ Clause.meshTransfers

/-- A command whose scratch read finds an uncorrectable error in a line that it reads, or whose target cannot serve it, or one
of whose line accesses fails, stops its engine: the queue is flushed, the registers are kept, STATUS.ENG_ERR of the
program's sequencer is set and no local counter changes. [04_berin_isa.md: failed accesses (R104); 03_pavilion_array.md:
scratch ECC (R65)] -/
def Clause.engineFailure : Prop :=
  ∀ (s : State) (l : Fin 128) (e : Fin 16) (p q : Fin 144) (k : Fin 8) (i : Nat) (b : List (BitVec 16)) (x : LineErr) (f : LineFail)
    (errs : List LineErr) (bad : List LineFail) (c : Instr), s.phys? l.val = some p → x ∈ errs → x.ue = true → f ∈ bad →
    f.i < xferCount b → f.st ≠ .ok → s.noTag (xferAddr b) (64 * xferCount b) = false →
    (c = .vload l e errs ∧ s.starts l e q k i 2 0 b ∧ inLines (moveLine b) 4 x.line.val = true ∨
      c = .aload l e errs ∧ s.starts l e q k i 2 2 b ∧ inLines (moveLine b) 16 x.line.val = true ∨
      (∃ n, c = .tileStep l e errs ∧ s.starts l e q k i 1 0 b ∧ tileK (tileOf b).fmtA (tileOf b).fmtB = some n ∧
        tileReads (tileOf b) n x.line.val = true) ∨
      c = .get l e bad ∧ s.starts l e q k i 3 0 b ∨
      (c = .put l e errs [] ∧ inLines (xferLine b) (xferCount b) x.line.val = true ∨ c = .put l e [] bad) ∧ s.starts l e q k i 3 1 b) →
    ∃ t, exec c s = .next t ∧ t.engOf q k = { s.engOf q k with q := [] } ∧ t.seqOf p = { s.seqOf p with engErr := true } ∧
      (∀ r j, (r, j) ≠ (q, k) → t.engOf r j = s.engOf r j) ∧ ∀ r, r ≠ p → t.seqOf r = s.seqOf r

/-- A request to a present pavilion that is not being reset is served: a write of whole 8-byte units stores its bytes and is
answered OK, a read without an error is answered with the bytes; while the pavilion is being reset the answer is
TARGET_RESET; an uncorrectable error answers DATA_ERROR. A response with the NI's generation number delivers a line to
scratch; one with another number is dropped and counted in PAV_STALE. [03_pavilion_array.md: mesh messages (R67), scratch
ECC (R65), reset (R80, R81)] -/
def Clause.meshRequests : Prop :=
  ∀ (s : State) (q : MeshReq) (r : MeshRsp) (p : Fin 144),
    (s.phys? q.dst.val = some p →
      ((s.pav p).refusing = true → exec (.meshRequestArrive q) s = .next (s.emit (.meshRsp q.gen .targetReset []))) ∧
      ((s.pav p).refusing = false → q.ecc = .ok →
        (∀ b, q.wr = some b → q.ofs + b.length ≤ 0x200000 → ∃ t, exec (.meshRequestArrive q) s = .next t ∧
          t = { s with scratch := t.scratch, out := .meshRsp q.gen .ok [] :: s.out } ∧ t.sbytes p q.ofs b.length = b ∧
          ∀ p' k, k < 0x200000 → (p' ≠ p ∨ k < q.ofs ∨ q.ofs + b.length ≤ k) → t.sbyte p' k = s.sbyte p' k) ∧
        (q.wr = none → q.ofs + q.len ≤ 0x200000 →
          exec (.meshRequestArrive q) s = .next (s.emit (.meshRsp q.gen .ok (s.sbytes p q.ofs q.len))))) ∧
      ((s.pav p).refusing = false → q.ecc = .ue → q.wr = none → q.ofs + q.len ≤ 0x200000 → q.sown = false →
        ∃ t, exec (.meshRequestArrive q) s = .next t ∧ t = { s with regs := t.regs, log := t.log, out := t.out } ∧
          t.out = .meshRsp q.gen .dataError [] :: s.out ∧ t.flag fPAV_ERR_ECC_UE = true)) ∧
    (s.phys? r.dst.val = some p →
      ((s.pav p).niGen ≠ r.gen → ∃ t, exec (.meshResponseArrive r) s = .next t ∧ t = { s with regs := t.regs } ∧
        s.sameRegsBut t [(fPAV_STALE_COUNT r.dst.val).off] ∧
        t.fld (fPAV_STALE_COUNT r.dst.val) = min (s.fld (fPAV_STALE_COUNT r.dst.val) + 1) (2 ^ 32 - 1)) ∧
      ((s.pav p).niGen = r.gen → r.st = .ok → ∀ n b, r.line = some (n, b) → n < 32768 → b.length = 64 →
        ∃ t, exec (.meshResponseArrive r) s = .next t ∧ t = { s with scratch := t.scratch } ∧ t.sbytes p (64 * n) 64 = b ∧
          ∀ p' k, k < 0x200000 → (p' ≠ p ∨ k < 64 * n ∨ 64 * n + 64 ≤ k) → t.sbyte p' k = s.sbyte p' k))

/-- A failing command, and the rows of mesh requests: an access that fails stops its engine; a mesh request and a mesh response
at a pavilion's NI. What it states beyond the rules is the choice of the model: log entries 5, 21. -/
def Obligations.EnginesAndRequests : Prop := Clause.engineFailure ∧ Clause.meshRequests

/-- With the key 0xA55A, no reset in progress and a present pavilion that is not coupled and not bound in the active epoch, the
write names the pavilion in LAST, sets BUSY, makes the NI refuse requests, flushes the engines and advances the NI
generation by 1; when the reset completes and no other pavilion is being reset, scratch, memories, registers, accumulators
and semaphores of that pavilion are 0, its sequencer is held, its NI accepts requests again and BUSY is 0. Without the key
the write is ignored; while BUSY it sets RST_DROP only; for an absent pavilion RST_BAD only. [03_pavilion_array.md: pavilion
reset (R80, R81), PAV registers (R83); 04_berin_isa.md: reset state (R113)] -/
def Clause.pavilionReset : Prop :=
  ∀ (s : State) (v : BitVec 32) (l : Fin 128) (p : Fin 144),
    (bitsOf v.toNat 16 16 ≠ 0xA55A → exec (.pavilionReset v) s = .next s) ∧
    (bitsOf v.toNat 16 16 = 0xA55A → s.flag fPAV_RST_STATUS_BUSY = true → ∃ t, exec (.pavilionReset v) s = .next t ∧
      t = { s with regs := t.regs } ∧ s.sameRegsBut t [fPAV_ERR_RST_DROP.off] ∧ t.flag fPAV_ERR_RST_DROP = true) ∧
    (bitsOf v.toNat 16 16 = 0xA55A → s.flag fPAV_RST_STATUS_BUSY = false → s.present (bitsOf v.toNat 0 8) = false →
      ∃ t, exec (.pavilionReset v) s = .next t ∧ t = { s with regs := t.regs } ∧ s.sameRegsBut t [fPAV_ERR_RST_BAD.off] ∧
        t.flag fPAV_ERR_RST_BAD = true) ∧
    (bitsOf v.toNat 16 16 = 0xA55A → s.flag fPAV_RST_STATUS_BUSY = false → bitsOf v.toNat 0 8 = l.val → s.phys? l.val = some p →
      s.coupled l.val = false → s.bound l.val = false → ∃ t, exec (.pavilionReset v) s = .next t ∧
        t = { s with pavs := t.pavs, regs := t.regs, ldg := t.ldg } ∧ t.flag fPAV_RST_STATUS_BUSY = true ∧
        t.fld fPAV_RST_STATUS_LAST = l.val ∧ (∀ q, q ≠ p → t.pav q = s.pav q) ∧ (t.pav p).refusing = true ∧
        (t.pav p).niGen = (s.pav p).niGen + 1 ∧ (∀ k : Fin 8, (t.engOf p k).q = []) ∧ (t.seqOf p).mode = .halted) ∧
    (s.phys? l.val = some p → (s.pav p).refusing = true →
      (∀ r, r ≠ p → (s.pav r).refusing = false) →
      ∃ t, exec (.pavResetComplete l) s = .next t ∧ t = { s with pavs := t.pavs, regs := t.regs, scratch := t.scratch } ∧
        t.flag fPAV_RST_STATUS_BUSY = false ∧ s.sameRegsBut t [fPAV_RST_STATUS_BUSY.off] ∧ t.seqOf p = Seq.reset ∧
        (∀ k : Fin 8, t.engOf p k = Eng.reset) ∧ (t.pav p).sems = Vector.replicate 64 0 ∧ (t.pav p).imem = [] ∧ (t.pav p).dmem = [] ∧
        (t.pav p).refusing = false ∧ (t.pav p).niGen = (s.pav p).niGen ∧ (∀ q, q ≠ p → t.pav q = s.pav q) ∧
        ∀ q k, k < 0x200000 → t.sbyte q k = if q = p then 0 else s.sbyte q k)

/-- When no schedule is active and no NI holds a message of a pavilion whose mapping changes, MAP_COMMIT writes for each logical
pavilion l the ascending l mod 8-th working pavilion of terrace l / 8, with its stop, or an absent entry; so the mapped
pavilions are distinct and lie in their terrace. Otherwise nothing changes. [03_pavilion_array.md: the logical map (R73,
R75), stops (R57), PAV_MAP (R83)] -/
def Clause.logicalMap : Prop :=
  ∀ s : State,
    (s.running = true ∨ s.mapBusy = true → exec .mapCommit s = .next s) ∧
    (s.running = false → s.mapBusy = false → ∃ t, exec .mapCommit s = .next t ∧ t = { s with regs := t.regs } ∧
      (∀ (l : Fin 128) (p : Fin 144), t.phys? l.val = some p ↔ (s.working (l.val / 8))[l.val % 8]? = some p) ∧
      (∀ (l : Fin 128) (p : Fin 144), t.phys? l.val = some p → p.val / 9 = l.val / 8 ∧ (s.pav p).excluded = false ∧
        t.fld (fPAV_MAP_STOP_X l.val) = p.val / 9 / 2 ∧ t.fld (fPAV_MAP_STOP_Y l.val) = 1 + 3 * (p.val / 9 % 2) + p.val % 9 / 3) ∧
      (∀ (l m : Fin 128) (p : Fin 144), t.phys? l.val = some p → t.phys? m.val = some p → l = m) ∧
      (∀ l : Fin 128, bitOf (if l.val < 64 then t.fld fPAV_PRESENT0_BITS else t.fld fPAV_PRESENT1_BITS) (l.val % 64) = true ↔
        (t.phys? l.val).isSome = true))

/-- Pavilion reset and the logical map: a write of PAV_RST_CTRL begins a pavilion's reset, and its end leaves the reset state;
the committed map numbers the working pavilions of each terrace in order. What it states beyond the rules is the choice of
the model: log entries 23, 24, 154. -/
def Obligations.PavilionsAndMap : Prop := Clause.pavilionReset ∧ Clause.logicalMap

/-- `r` is a + b + k modulo 2^16, and the flags of `y` are its flags: C the carry out, V a signed sum out of range. -/
def sumOf (y : Seq) (r a b : BitVec 16) (k : Nat) : Prop :=
  r.toNat = (a.toNat + b.toNat + k) % 65536 ∧ y.nz r ∧ y.c = decide (65536 ≤ a.toNat + b.toNat + k) ∧
    y.v = decide (a.toInt + b.toInt + k < -32768 ∨ 32767 < a.toInt + b.toInt + k)

/-- `r` is a − b − k modulo 2^16, and the flags of `y` are its flags: C is 1 when no borrow occurs, V when the signed
difference is out of range. -/
def diffOf (y : Seq) (r a b : BitVec 16) (k : Nat) : Prop :=
  (r.toNat + b.toNat + k) % 65536 = a.toNat ∧ y.nz r ∧ y.c = decide (b.toNat + k ≤ a.toNat) ∧
    y.v = decide (a.toInt - b.toInt - k < -32768 ∨ 32767 < a.toInt - b.toInt - k)

/-- On a running sequencer at whose PC their words stand each of the seven rows writes the 16-bit sum or difference of its
operands (CMP and CMPI write no register), sets N, Z, C and V as an exact computation on integers gives them (C of a
subtraction is 1 when no borrow occurs), moves the PC past the instruction and changes nothing else. [04_berin_isa.md: flags
(R85); 04_berin_isa.md: Berin-16 instructions (R93); 04_berin_isa.md: ALU functions (R94)] -/
def Clause.sequencerSums : Prop :=
  ∀ (s : State) (l : Fin 128) (p : Fin 144) (x : Seq) (d : Fin 16) (b : AluB) (n : BitVec 8),
    (s.runsOp l p x (.alu 1 d b) → ∃ t y, exec (.aluAdd l d b) s = .next t ∧ s.onlySeq t p y ∧ x.moved y (aluLen b) [d] ∧ sumOf y (y.g d) (x.g d) (x.aluB b) 0) ∧
    (s.runsOp l p x (.alu 2 d b) → ∃ t y, exec (.aluAdc l d b) s = .next t ∧ s.onlySeq t p y ∧ x.moved y (aluLen b) [d] ∧
      sumOf y (y.g d) (x.g d) (x.aluB b) (b2n x.c)) ∧
    (s.runsOp l p x (.alu 3 d b) → ∃ t y, exec (.aluSub l d b) s = .next t ∧ s.onlySeq t p y ∧ x.moved y (aluLen b) [d] ∧ diffOf y (y.g d) (x.g d) (x.aluB b) 0) ∧
    (s.runsOp l p x (.alu 4 d b) → ∃ t y, exec (.aluSbc l d b) s = .next t ∧ s.onlySeq t p y ∧ x.moved y (aluLen b) [d] ∧
      diffOf y (y.g d) (x.g d) (x.aluB b) (1 - b2n x.c)) ∧
    (s.runsOp l p x (.alu 8 d b) → ∃ t y, exec (.aluCmp l d b) s = .next t ∧ s.onlySeq t p y ∧ x.moved y (aluLen b) [] ∧
      ∃ r, diffOf y r (x.g d) (x.aluB b) 0) ∧
    (s.runsOp l p x (.addi d n) → ∃ t y, exec (.addi l d n) s = .next t ∧ s.onlySeq t p y ∧ x.moved y 1 [d] ∧ sumOf y (y.g d) (x.g d) (n.signExtend 16) 0) ∧
    (s.runsOp l p x (.cmpi d n) → ∃ t y, exec (.cmpi l d n) s = .next t ∧ s.onlySeq t p y ∧ x.moved y 1 [] ∧ ∃ r, diffOf y r (x.g d) (n.signExtend 16) 0)

/-- The flags of a logical result or a product: N and Z of `r`; C and V as they were. -/
def Sys2Proof.Machine.Seq.logic (x y : Seq) (r : BitVec 16) : Prop := y.nz r ∧ y.c = x.c ∧ y.v = x.v

/-- On a running sequencer at whose PC their words stand each of the rows writes the result the ALU function table gives (TST
writes no register), sets N and Z from it (MOV and MOVI change no flag), leaves C and V, moves the PC past the instruction
and changes nothing else. [04_berin_isa.md: Berin-16 instructions (R93); 04_berin_isa.md: ALU functions (R94)] -/
def Clause.sequencerLogic : Prop :=
  ∀ (s : State) (l : Fin 128) (p : Fin 144) (x : Seq) (d : Fin 16) (b : AluB) (n : BitVec 8),
    (s.runsOp l p x (.alu 0 d b) → ∃ t y, exec (.aluMov l d b) s = .next t ∧ s.onlySeq t p y ∧ x.moved y (aluLen b) [d] ∧ y.g d = x.aluB b ∧ x.sameFlags y) ∧
    (s.runsOp l p x (.movi d n) → ∃ t y, exec (.movi l d n) s = .next t ∧ s.onlySeq t p y ∧ x.moved y 1 [d] ∧ y.g d = n.signExtend 16 ∧ x.sameFlags y) ∧
    (s.runsOp l p x (.alu 5 d b) → ∃ t y, exec (.aluAnd l d b) s = .next t ∧ s.onlySeq t p y ∧ x.moved y (aluLen b) [d] ∧ x.logic y (y.g d) ∧
      ∀ i, (y.g d).getLsbD i = ((x.g d).getLsbD i && (x.aluB b).getLsbD i)) ∧
    (s.runsOp l p x (.alu 6 d b) → ∃ t y, exec (.aluOr l d b) s = .next t ∧ s.onlySeq t p y ∧ x.moved y (aluLen b) [d] ∧ x.logic y (y.g d) ∧
      ∀ i, (y.g d).getLsbD i = ((x.g d).getLsbD i || (x.aluB b).getLsbD i)) ∧
    (s.runsOp l p x (.alu 7 d b) → ∃ t y, exec (.aluXor l d b) s = .next t ∧ s.onlySeq t p y ∧ x.moved y (aluLen b) [d] ∧ x.logic y (y.g d) ∧
      ∀ i, (y.g d).getLsbD i = ((x.g d).getLsbD i ^^ (x.aluB b).getLsbD i)) ∧
    (s.runsOp l p x (.alu 9 d b) → ∃ t y, exec (.aluTst l d b) s = .next t ∧ s.onlySeq t p y ∧ x.moved y (aluLen b) [] ∧ x.logic y (x.g d &&& x.aluB b)) ∧
    (s.runsOp l p x (.alu 13 d b) → ∃ t y, exec (.aluMul l d b) s = .next t ∧ s.onlySeq t p y ∧ x.moved y (aluLen b) [d] ∧ x.logic y (y.g d) ∧
      (y.g d).toNat = (x.g d).toNat * (x.aluB b).toNat % 65536) ∧
    (s.runsOp l p x (.alu 14 d b) → ∃ t y, exec (.aluMulhu l d b) s = .next t ∧ s.onlySeq t p y ∧ x.moved y (aluLen b) [d] ∧ x.logic y (y.g d) ∧
      (y.g d).toNat = (x.g d).toNat * (x.aluB b).toNat / 65536)

/-- `r` is `a` shifted left by `n`, with its flags. -/
def shlIs (y : Seq) (r a : BitVec 16) (n : Nat) : Prop :=
  r.toNat = a.toNat * 2 ^ n % 65536 ∧ y.nz r ∧ y.c = (decide (n ≠ 0) && a.getLsbD (16 - n))

/-- `r` is `a` shifted right by `n` with zeros, with its flags. -/
def shrIs (y : Seq) (r a : BitVec 16) (n : Nat) : Prop :=
  r.toNat = a.toNat / 2 ^ n ∧ y.nz r ∧ y.c = (decide (n ≠ 0) && a.getLsbD (n - 1))

/-- `r` is `a` shifted right by `n` with its sign, with its flags. -/
def sarIs (y : Seq) (r a : BitVec 16) (n : Nat) : Prop :=
  r.toInt = a.toInt / (2 ^ n : Nat) ∧ y.nz r ∧ y.c = (decide (n ≠ 0) && a.getLsbD (n - 1))

/-- On a running sequencer at whose PC their words stand a shift or rotate by n from 0 to 15 writes the value that arithmetic on
integers gives, sets N and Z from it and C to the last bit shifted out (0 for n = 0), and leaves V; the words of an ALU
shift with an immediate above 15 are a reserved encoding, which traps with cause 0. [04_berin_isa.md: Berin-16 instructions
(R93); 04_berin_isa.md: ALU functions (R94); 04_berin_isa.md: reserved encodings (R96)] -/
def Clause.sequencerShifts : Prop :=
  ∀ (s : State) (l : Fin 128) (p : Fin 144) (x : Seq) (d n : Fin 16) (b : AluB),
    (s.runsOp l p x (.shift 0 d n) → ∃ t y, exec (.shlImm l d n) s = .next t ∧ s.onlySeq t p y ∧ x.moved y 1 [d] ∧ y.v = x.v ∧ shlIs y (y.g d) (x.g d) n.val) ∧
    (s.runsOp l p x (.shift 1 d n) → ∃ t y, exec (.shrImm l d n) s = .next t ∧ s.onlySeq t p y ∧ x.moved y 1 [d] ∧ y.v = x.v ∧ shrIs y (y.g d) (x.g d) n.val) ∧
    (s.runsOp l p x (.shift 2 d n) → ∃ t y, exec (.sarImm l d n) s = .next t ∧ s.onlySeq t p y ∧ x.moved y 1 [d] ∧ y.v = x.v ∧ sarIs y (y.g d) (x.g d) n.val) ∧
    (s.runsOp l p x (.shift 3 d n) → ∃ t y, exec (.rorImm l d n) s = .next t ∧ s.onlySeq t p y ∧ x.moved y 1 [d] ∧ y.v = x.v ∧ y.nz (y.g d) ∧
      (y.g d).toNat = ((x.g d).toNat / 2 ^ n.val + (x.g d).toNat * 2 ^ (16 - n.val)) % 65536 ∧
      y.c = (decide (n ≠ 0) && (x.g d).getLsbD (n.val - 1))) ∧
    (s.runsOp l p x (.alu 10 d b) → ∃ t y, exec (.aluShl l d b) s = .next t ∧ s.onlySeq t p y ∧ x.moved y (aluLen b) [d] ∧ y.v = x.v ∧
      shlIs y (y.g d) (x.g d) ((x.aluB b).toNat % 16)) ∧
    (s.runsOp l p x (.alu 11 d b) → ∃ t y, exec (.aluShr l d b) s = .next t ∧ s.onlySeq t p y ∧ x.moved y (aluLen b) [d] ∧ y.v = x.v ∧
      shrIs y (y.g d) (x.g d) ((x.aluB b).toNat % 16)) ∧
    (s.runsOp l p x (.alu 12 d b) → ∃ t y, exec (.aluSar l d b) s = .next t ∧ s.onlySeq t p y ∧ x.moved y (aluLen b) [d] ∧ y.v = x.v ∧
      sarIs y (y.g d) (x.g d) ((x.aluB b).toNat % 16)) ∧
    (∀ w : BitVec 16, 16 ≤ w.toNat → ∀ f ∈ [0xA, 0xB, 0xC], s.runs l p x → x.inTrap = false →
      (s.pav p).fetch x.pc = (BitVec.ofNat 16 (0x6000 + 256 * d.val + f), w) →
      ∃ t y, exec (.reservedInstruction l false) s = .next t ∧ s.onlySeq t p y ∧ y.tcause = 0 ∧ y.pc = x.tvec ∧ y.tpc = x.pc ∧
        y.tnext = x.pc + 2 ∧ y.w = x.w)

/-- Logic, moves and shifts of the sequencer: MOV, MOVI, AND, OR, XOR, TST, MUL, MULHU: result and flags; SHL, SHR, SAR in all
forms and ROR: result, the bit shifted out, and the reserved immediates. -/
def Obligations.SequencerLogicAndShifts : Prop := Clause.sequencerLogic ∧ Clause.sequencerShifts

/-- On a running sequencer at whose PC their words stand ADDP, ADDPR and ADDPW add their operand, sign- or zero-extended, to an
address pair modulo 2^32 and change no flag and no other register; CMPP sets the four flags of a 32-bit difference and
writes no register. [04_berin_isa.md: address pairs (R84); 04_berin_isa.md: address arithmetic (R87); 04_berin_isa.md:
Berin-16 instructions (R93)] -/
def Clause.sequencerPairs : Prop :=
  ∀ (s : State) (l : Fin 128) (p : Fin 144) (x : Seq) (a b : Fin 4) (i : Fin 16) (n : BitVec 8) (m : BitVec 16),
    (s.runsOp l p x (.addp a n) → ∃ t y, exec (.addp l a n) s = .next t ∧ s.onlySeq t p y ∧ x.moved y 1 [pairLo a, pairHi a] ∧ x.sameFlags y ∧
      ((y.pair a).toNat : Int) = ((x.pair a).toNat + n.toInt) % 2 ^ 32) ∧
    (s.runsOp l p x (.addpr a i true) → ∃ t y, exec (.addpr l a i true) s = .next t ∧ s.onlySeq t p y ∧ x.moved y 1 [pairLo a, pairHi a] ∧ x.sameFlags y ∧
      ((y.pair a).toNat : Int) = ((x.pair a).toNat + (x.g i).toInt) % 2 ^ 32) ∧
    (s.runsOp l p x (.addpr a i false) → ∃ t y, exec (.addpr l a i false) s = .next t ∧ s.onlySeq t p y ∧ x.moved y 1 [pairLo a, pairHi a] ∧ x.sameFlags y ∧
      (y.pair a).toNat = ((x.pair a).toNat + (x.g i).toNat) % 2 ^ 32) ∧
    (s.runsOp l p x (.addpw a m) → ∃ t y, exec (.addpw l a m) s = .next t ∧ s.onlySeq t p y ∧ x.moved y 2 [pairLo a, pairHi a] ∧ x.sameFlags y ∧
      ((y.pair a).toNat : Int) = ((x.pair a).toNat + m.toInt) % 2 ^ 32) ∧
    (s.runsOp l p x (.cmpp a b) → ∃ t y, exec (.cmpp l a b) s = .next t ∧ s.onlySeq t p y ∧ x.moved y 1 [] ∧
      y.n = (x.pair a - x.pair b).msb ∧ y.z = decide (x.pair a = x.pair b) ∧
      y.c = decide ((x.pair b).toNat ≤ (x.pair a).toNat) ∧
      y.v = decide ((x.pair a).toInt - (x.pair b).toInt < -2 ^ 31 ∨ 2 ^ 31 ≤ (x.pair a).toInt - (x.pair b).toInt))

/-- Sums, differences, products and pairs of the sequencer: ALU ADD, ADC, SUB, SBC, CMP, ADDI and CMPI: result and all four
flags; ADDP, ADDPR, ADDPW and CMPP: address pairs. -/
def Obligations.SequencerArithmetic : Prop := Clause.sequencerSums ∧ Clause.sequencerPairs

/-- On a running sequencer at whose PC their words stand a branch goes to the address past it plus its signed offset when its
condition holds, else past it; DBNZ decrements its register and branches while it is not 0; jumps go to their target, and
calls leave the return address in w14, the target register read first; NOP only moves on; CSET writes a local counter.
Nothing else changes. [04_berin_isa.md: Berin-16 instructions (R93); 04_berin_isa.md: PC arithmetic (R84)] -/
def Obligations.SequencerBranches : Prop :=
  ∀ (s : State) (l : Fin 128) (p : Fin 144) (x : Seq) (k : Fin 15) (n : BitVec 8) (d c : Fin 16) (m : BitVec 16),
    (s.runsOp l p x (.bcc k n) → ∃ t, exec (.bcc l k n) s = .next t ∧
      s.onlySeq t p { x with pc := if x.cond k.val then x.pc + 1 + n.signExtend 16 else x.pc + 1 }) ∧
    (s.runsOp l p x (.jmp m) → ∃ t, exec (.jmp l m) s = .next t ∧ s.onlySeq t p { x with pc := m }) ∧
    (s.runsOp l p x (.jmpr d) → ∃ t, exec (.jmpr l d) s = .next t ∧ s.onlySeq t p { x with pc := x.g d }) ∧
    (s.runsOp l p x (.nop) → ∃ t, exec (.nop l) s = .next t ∧ s.onlySeq t p { x with pc := x.pc + 1 }) ∧
    (s.runsOp l p x (.cset c d) → ∃ t, exec (.cset l c d) s = .next t ∧ s.onlySeq t p { x with ctr := x.ctr.set c (x.g d), pc := x.pc + 1 }) ∧
    (s.runsOp l p x (.dbnz d n) → ∃ t y, exec (.dbnz l d n) s = .next t ∧ s.onlySeq t p y ∧ y = { x with w := y.w, pc := y.pc } ∧ (∀ i, i ≠ d → y.g i = x.g i) ∧
      y.g d = x.g d - 1 ∧ y.pc = if x.g d = 1 then x.pc + 1 else x.pc + 1 + n.signExtend 16) ∧
    (s.runsOp l p x (.call m) → ∃ t y, exec (.call l m) s = .next t ∧ s.onlySeq t p y ∧ y = { x with w := y.w, pc := m } ∧ (∀ i, i ≠ 14 → y.g i = x.g i) ∧
      y.g 14 = x.pc + 2) ∧
    (s.runsOp l p x (.callr d) → ∃ t y, exec (.callr l d) s = .next t ∧ s.onlySeq t p y ∧ y = { x with w := y.w, pc := x.g d } ∧
      (∀ i, i ≠ 14 → y.g i = x.g i) ∧ y.g 14 = x.pc + 1)

/-- Code 0x0 holds when Z = 1, and so on for each of the fifteen codes of the table of R95. [R95] -/
def Obligations.BranchConditions : Prop :=
  ∀ x : Seq,
    (x.cond 0x0 = true ↔ x.z = true) ∧ (x.cond 0x1 = true ↔ x.z = false) ∧ (x.cond 0x2 = true ↔ x.c = true) ∧
    (x.cond 0x3 = true ↔ x.c = false) ∧ (x.cond 0x4 = true ↔ x.n = true) ∧ (x.cond 0x5 = true ↔ x.n = false) ∧
    (x.cond 0x6 = true ↔ x.v = true) ∧ (x.cond 0x7 = true ↔ x.v = false) ∧
    (x.cond 0x8 = true ↔ x.c = true ∧ x.z = false) ∧ (x.cond 0x9 = true ↔ x.c = false ∨ x.z = true) ∧
    (x.cond 0xA = true ↔ x.n = x.v) ∧ (x.cond 0xB = true ↔ x.n ≠ x.v) ∧
    (x.cond 0xC = true ↔ x.z = false ∧ x.n = x.v) ∧ (x.cond 0xD = true ↔ x.z = true ∨ x.n ≠ x.v) ∧ x.cond 0xE = true

/-- On a running sequencer at whose PC the words stand, with INTRAP = 0, TRAP #n enters the handler with cause 16 + n and a
reserved encoding with cause 0: the address of the instruction, that of the next, the flags, the cause and the words are
saved, INTRAP is set and the PC is TVEC + 2 × cause; general registers, TINFO and everything else are kept. RETT returns to
TPC or TNEXT with the flags of TFLAGS and clears INTRAP. With INTRAP = 1 the sequencer halts without taking the trap, and
one entry of kind 0x0002 with TCAUSE and both addresses is in the trouble log. A parity error at the fetch halts it whatever
INTRAP is, with an entry of kind 0x0003 before that of kind 0x0002. [04_berin_isa.md: traps (R110 to R112); 04_berin_isa.md:
lengths (R90); 17_errors_and_logging.md: containment (R459), kinds of entries (R469)] -/
def Clause.trapEntry : Prop :=
  ∀ (s : State) (l : Fin 128) (p : Fin 144) (x : Seq) (n : Fin 16) (k : Fin 2) (w0 w1 : BitVec 16),
    (x.inTrap = false →
      (s.runsOp l p x (.trap n) → ∃ t, exec (.trap l n) s = .next t ∧ s.onlySeq t p { x with
        tpc := x.pc, tnext := x.pc + 1, tflags := x.flagBits, tcause := BitVec.ofNat 16 (16 + n.val),
        tinst0 := BitVec.ofNat 16 (0x0200 + n.val), tinst1 := 0, inTrap := true,
        pc := x.tvec + BitVec.ofNat 16 (2 * (16 + n.val)) }) ∧
      (s.runs l p x → (s.pav p).fetched = none → (s.pav p).fetch x.pc = (w0, w1) → ∃ t, exec (.reservedInstruction l false) s = .next t ∧ s.onlySeq t p { x with
        tpc := x.pc, tnext := x.pc + BitVec.ofNat 16 (instLen w0), tflags := x.flagBits, tcause := 0,
        tinst0 := w0, tinst1 := (if instLen w0 = 2 then w1 else 0), inTrap := true, pc := x.tvec })) ∧
    (s.runsOp l p x (.rett k) → ∃ t, exec (.rett l k) s = .next t ∧ s.onlySeq t p { x with
      n := x.tflags.getLsbD 3, z := x.tflags.getLsbD 2, c := x.tflags.getLsbD 1, v := x.tflags.getLsbD 0, inTrap := false,
      pc := if k = 0 then x.tpc else x.tnext }) ∧
    (∀ c o, (c, o) ∈ [(Instr.trap l n, some (BOp.trap n)), (.reservedInstruction l false, none)] → s.runs l p x → (s.pav p).fetched = o →
      x.inTrap = true → s.bound l.val = false → ∃ t, exec c s = .next t ∧ t.seqOf p = { x with mode := .halted } ∧
        t = { s with pavs := t.pavs, regs := t.regs, log := t.log } ∧
        s.logged t 0x0002 blkPAV noPart .ok 0 (l.val + 256 * x.tcause.toNat) (x.tpc.toNat + 65536 * x.tnext.toNat)) ∧
    (s.runs l p x → s.bound l.val = false → ∃ t, exec (.reservedInstruction l true) s = .next t ∧
      t.seqOf p = { x with mode := .halted } ∧ t = { s with pavs := t.pavs, regs := t.regs, log := t.log } ∧
      s.logged t 0x0003 blkPAV noPart .dataError 0 blkPAV 0)

/-- On a running sequencer at whose PC the words stand PUSH stores a register below w15 and POP loads it back; LD and ST reach
the word at the effective address in data memory, in scratch or among the control words, with the pair update of the mode,
and a load's value written last; a stack pointer or an address outside the ranges traps with cause ADDR, and a parity error
of the word read from data memory halts the sequencer. One word of one memory changes for a store, none for a load. What it
states beyond the rules is the choice of the model: log entries 10, 28. [04_berin_isa.md: address space (R86);
04_berin_isa.md: addressing modes (R91, R92); 04_berin_isa.md: Berin-16 instructions (R93); 04_berin_isa.md: PUSH and POP
(R96)] -/
def Obligations.SequencerMemory : Prop :=
  ∀ (s : State) (l : Fin 128) (p : Fin 144) (x : Seq) (d : Fin 16) (m : EA) (a : Nat),
    (s.runsOp l p x (.push d) → (x.g 15 - 1).toNat ≤ 0x7FFF → ∃ t, exec (.push l d) s = .next t ∧ t = { s with pavs := t.pavs } ∧
      (∀ q, q ≠ p → t.pav q = s.pav q) ∧ t.pav p = { s.pav p with seq := (t.pav p).seq, dmem := (t.pav p).dmem } ∧
      x.moved (t.seqOf p) 1 [15] ∧ x.sameFlags (t.seqOf p) ∧ (t.seqOf p).g 15 = x.g 15 - 1 ∧
      ∀ k, (t.pav p).dword k = if k = (x.g 15 - 1).toNat then x.g d else (s.pav p).dword k) ∧
    (s.runsOp l p x (.pop d) → (x.g 15).toNat ≤ 0x7FFF → ∃ t y, exec (.pop l d false) s = .next t ∧ s.onlySeq t p y ∧ x.moved y 1 [15, d] ∧ x.sameFlags y ∧
      y.g d = (s.pav p).dword (x.g 15).toNat ∧ (d ≠ 15 → y.g 15 = x.g 15 + 1)) ∧
    (seqPlace (s.coupled l.val) (x.ea m).1.toNat = some (.data a) →
      (s.runsOp l p x (.ld d m) → ∃ t, exec (.ld l d m .ok) s = .next t ∧
        s.onlySeq t p (((x.ea m).2.setG d ((s.pav p).dword a)).past (eaLen m))) ∧
      (s.runsOp l p x (.st d m) → ∃ t, exec (.st l d m .ok) s = .next t ∧ t = { s with pavs := t.pavs } ∧ (∀ q, q ≠ p → t.pav q = s.pav q) ∧
        t.pav p = { s.pav p with seq := (x.ea m).2.past (eaLen m), dmem := (t.pav p).dmem } ∧
        ∀ k, (t.pav p).dword k = if k = a then x.g d else (s.pav p).dword k)) ∧
    (seqPlace (s.coupled l.val) (x.ea m).1.toNat = some (.scratch a) →
      (s.runsOp l p x (.ld d m) → ∃ t, exec (.ld l d m .ok) s = .next t ∧ s.onlySeq t p (((x.ea m).2.setG d (s.spWord l.val a)).past (eaLen m))) ∧
      (s.runsOp l p x (.st d m) → ∀ r, s.phys? (s.spHalf l.val a) = some r → ∃ t, exec (.st l d m .ok) s = .next t ∧
        s.onlySeq { t with scratch := s.scratch } p ((x.ea m).2.past (eaLen m)) ∧
        ∀ q k, k < 0x200000 → t.sbyte q k = if q = r ∧ k = a % 0x200000 then BitVec.ofNat 8 (x.g d).toNat
          else if q = r ∧ k = a % 0x200000 + 1 then BitVec.ofNat 8 ((x.g d).toNat / 256) else s.sbyte q k)) ∧
    (seqPlace (s.coupled l.val) (x.ea m).1.toNat = some (.control a) →
      (s.runsOp l p x (.ld d m) → ∃ t, exec (.ld l d m .ok) s = .next t ∧
        s.onlySeq t p (((s.ctrlRead l.val (x.ea m).2 a).2.setG d (s.ctrlRead l.val (x.ea m).2 a).1).past (eaLen m))) ∧
      (s.runsOp l p x (.st d m) → ∃ t, exec (.st l d m .ok) s = .next t ∧ s.onlySeq t p (((x.ea m).2.ctrlWrite a (x.g d)).past (eaLen m)))) ∧
    (x.inTrap = false → seqPlace (s.coupled l.val) (x.ea m).1.toNat = none →
      ∀ c o, (c, o) ∈ [(Instr.ld l d m .ok, BOp.ld d m), (.st l d m .ok, .st d m)] → s.runsOp l p x o → ∃ t y, exec c s = .next t ∧ s.onlySeq t p y ∧ y.tcause = 1 ∧ y.pc = x.tvec + 2 ∧ y.w = x.w ∧ y.tpc = x.pc ∧
        y.tnext = x.pc + BitVec.ofNat 16 (eaLen m)) ∧
    (s.runsOp l p x (.push d) → x.inTrap = false → 0x7FFF < (x.g 15 - 1).toNat → ∃ t y, exec (.push l d) s = .next t ∧ s.onlySeq t p y ∧ y.tcause = 1 ∧ y.w = x.w) ∧
    (s.runsOp l p x (.pop d) → x.inTrap = false → 0x7FFF < (x.g 15).toNat → ∃ t y, exec (.pop l d false) s = .next t ∧ s.onlySeq t p y ∧
      y.tcause = 1 ∧ y.w = x.w) ∧
    (∀ c o, (c, o) ∈ [(Instr.pop l d true, BOp.pop d), (.ld l d m .ue, .ld d m)] → s.runsOp l p x o → s.bound l.val = false →
      (x.g 15).toNat ≤ 0x7FFF → seqPlace (s.coupled l.val) (x.ea m).1.toNat = some (.data a) → ∃ t, exec c s = .next t ∧
        t.seqOf p = { x with mode := .halted } ∧ t = { s with pavs := t.pavs, regs := t.regs, log := t.log })

/-- On a running sequencer at whose PC the words stand an ISSUE whose block lies at a multiple of 8 in range, names an existing
engine and passes the checks is queued as the engine's newest command and the PC moves on; with four commands queued it
stalls, and once there is room ISSUE_RESUME queues the block; once a command has run and no write of its own waits for its
acknowledgement, its completion removes it, and its local counter rises by 1, or stays at 0xFFFF with CTR_SAT set; before
that nothing completes. An address that is no multiple of 8 or above 0x7FF8 traps with cause 1, an absent engine with cause
2, a failed check with cause 3 and its number in TINFO, in this order. [04_berin_isa.md: ISSUE (R97); 04_berin_isa.md:
completion (R102); 04_berin_isa.md: local counters (R103)] -/
def Clause.issueQueues : Prop :=
  ∀ (s : State) (l : Fin 128) (p : Fin 144) (x : Seq) (e i c : Fin 16) (j : Fin 4),
    (s.runsOp l p x (.issue e i c) → (x.g i).toNat % 8 = 0 → (x.g i).toNat ≤ 0x7FF8 → ∀ q k, s.engAt l e = some (q, k) →
      s.checkBlock l.val ((s.pav p).block (x.g i).toNat) = none →
      ((s.engOf q k).q.length < 4 → ∃ t, exec (.issue l e i c false) s = .next t ∧
        s.onlySeqEng t p { x with pc := x.pc + 1 } q k
          { s.engOf q k with q := (s.engOf q k).q ++ [{ blk := (s.pav p).block (x.g i).toNat, ctr := c, ran := false, ids := [] }] }) ∧
      (4 ≤ (s.engOf q k).q.length → ∃ t, exec (.issue l e i c false) s = .next t ∧ s.onlySeq t p { x with mode := .issueStall e i c })) ∧
    (s.seqAt l = some p → s.seqOf p = x → x.mode = .issueStall e i c → ∀ q k, s.engAt l e = some (q, k) →
      (s.engOf q k).q.length < 4 → ∃ t, exec (.issueResume l) s = .next t ∧
        s.onlySeqEng t p { x with pc := x.pc + 1, mode := .running } q k
          { s.engOf q k with q := (s.engOf q k).q ++ [{ blk := (s.pav p).block (x.g i).toNat, ctr := c, ran := false, ids := [] }] }) ∧
    (∀ q k m, s.engAt l e = some (q, k) → s.phys? l.val = some p → (s.engOf q k).q[j.val]? = some m →
      bitOf (m.blk.getD 0 0).toNat 1 = false → s.seqOf p = x →
      (m.ran = true → (∀ w ∈ (s.pav q).writes, w.id ∉ m.ids) → ∃ t, exec (.engineCommandComplete l e j) s = .next t ∧
        s.onlySeqEng { t with sch := s.sch } p
          (if x.ctr[m.ctr] = 0xFFFF then { x with ctrSat := true } else { x with ctr := x.ctr.set m.ctr (x.ctr[m.ctr] + 1) }) q k
          { s.engOf q k with q := (s.engOf q k).q.eraseIdx j.val }) ∧
      (m.ran = false ∨ (∃ w ∈ (s.pav q).writes, w.id ∈ m.ids) →
        exec (.engineCommandComplete l e j) s = .next s)) ∧
    (s.runsOp l p x (.issue e i c) → x.inTrap = false →
      ((x.g i).toNat % 8 ≠ 0 ∨ 0x7FF8 < (x.g i).toNat → ∃ t y, exec (.issue l e i c false) s = .next t ∧ s.onlySeq t p y ∧ y.tcause = 1 ∧ y.w = x.w) ∧
      ((x.g i).toNat % 8 = 0 → (x.g i).toNat ≤ 0x7FF8 → s.engAt l e = none →
        ∃ t y, exec (.issue l e i c false) s = .next t ∧ s.onlySeq t p y ∧ y.tcause = 2 ∧ y.w = x.w) ∧
      ((x.g i).toNat % 8 = 0 → (x.g i).toNat ≤ 0x7FF8 → s.engAt l e ≠ none → ∀ k, s.checkBlock l.val ((s.pav p).block (x.g i).toNat) = some k →
        ∃ t y, exec (.issue l e i c false) s = .next t ∧ s.onlySeq t p y ∧ y.tcause = 3 ∧ y.tinfo = BitVec.ofNat 16 k ∧ y.w = x.w))

/-- A wait keeps the PC at its instruction; once its condition holds the sequencer goes on past it, a consuming WAITC or WAITS
having subtracted its threshold from the counter or the semaphore; a wait still pending after WTO × 1,024 core cycles (512
ticks each 1,024 cycles) traps with cause 4. [04_berin_isa.md: waits (R105); 04_berin_isa.md: Berin-16 instructions (R93);
03_pavilion_array.md: semaphores (R69)] -/
def Clause.waits : Prop :=
  ∀ (s : State) (l : Fin 128) (p : Fin 144) (x : Seq) (c t : Fin 16) (m : Fin 64) (k : Bool) (n : Nat), s.seqAt l = some p →
    s.seqOf p = x →
    (x.mode = .running →
      ((s.pav p).fetched = some .waite → ∃ u, exec (.waite l) s = .next u ∧ s.onlySeq { u with sch := s.sch } p { x with mode := .waitE }) ∧
      ((s.pav p).fetched = some (.waitc c t k) → ∃ u, exec (.waitc l c t k) s = .next u ∧ s.onlySeq u p { x with mode := .waitC c t k s.now }) ∧
      ((s.pav p).fetched = some (.waits m t k) → ∃ u, exec (.waits l m t k) s = .next u ∧ s.onlySeq u p { x with mode := .waitS m t k s.now }) ∧
      ((s.pav p).fetched = some .waitidle → ∃ u, exec (.waitidle l) s = .next u ∧ s.onlySeq u p { x with mode := .waitIdle s.now }) ∧
      ((s.pav p).fetched = some .fence → ∃ u, exec (.fence l) s = .next u ∧ s.onlySeq u p { x with mode := .fence ((s.pav p).writes.map (fun w => w.id)) s.now })) ∧
    (x.mode = .waitC c t k n → (x.g t).toNat ≤ x.ctr[c].toNat → ∃ u y, exec (.waitComplete l) s = .next u ∧ s.onlySeq u p y ∧
      y = { x with ctr := y.ctr, pc := x.pc + 1, mode := .running } ∧
      ∀ j : Fin 16, y.ctr[j] = if j = c ∧ k = true then x.ctr[c] - x.g t else x.ctr[j]) ∧
    (x.mode = .waitS m t k n → (x.g t).toNat ≤ (s.pav p).sems[m].toNat → ∃ u, exec (.waitComplete l) s = .next u ∧
      u = { s with pavs := u.pavs } ∧ (∀ q, q ≠ p → u.pav q = s.pav q) ∧
      u.pav p = { s.pav p with seq := { x with pc := x.pc + 2, mode := .running }, sems := (u.pav p).sems } ∧
      ∀ j : Fin 64, ((u.pav p).sems[j].toNat : Int) = (s.pav p).sems[j].toNat - if j = m ∧ k = true then (x.g t).toNat else 0) ∧
    (x.mode = .waitIdle n → s.engBusy l.val = 0 → ∃ u, exec (.waitComplete l) s = .next u ∧
      s.onlySeq u p { x with pc := x.pc + 1, mode := .running }) ∧
    (∀ ids, x.mode = .fence ids n → (∀ w ∈ (s.pav p).writes, w.id ∉ ids) → ∃ u, exec (.waitComplete l) s = .next u ∧
      s.onlySeq u p { x with pc := x.pc + 1, mode := .running }) ∧
    (x.mode.since = some n → s.waitHolds l.val p x = false → x.wto ≠ 0 → x.inTrap = false → ∃ u,
      exec (.waitTimeout l) s = .next u ∧ u = { s with pavs := u.pavs, now := u.now, sch := u.sch } ∧
      (∀ q, q ≠ p → u.pav q = s.pav q) ∧ n + 512 * x.wto.toNat ≤ u.now ∧ (u.seqOf p).tcause = 4 ∧ (u.seqOf p).tpc = x.pc ∧
      (u.seqOf p).tnext = x.pc + BitVec.ofNat 16 (instLen ((s.pav p).iword x.pc)) ∧ (u.seqOf p).pc = x.tvec + 8 ∧ (u.seqOf p).mode = .running ∧
      (u.seqOf p).inTrap = true ∧ (u.seqOf p).w = x.w ∧ (u.seqOf p).ctr = x.ctr)

/-- ISSUE, FENCE and the waits: ISSUE queues a checked block, stalls on a full queue, resumes, and its completion counts; WAITE,
WAITC, WAITS, WAITIDLE, FENCE, their end and their timeout. What it states beyond the rules is the choice of the model: log
entries 5, 19, 28. -/
def Obligations.IssueAndWaits : Prop := Clause.issueQueues ∧ Clause.waits

/-- A SIGNAL with a valid target, its words at the PC, leaves its ADD held in the NI behind the writes of its scope and the PC
moves on; one with bits [15:13] not 0 or an absent pavilion traps with cause 5; the oldest held ADD leaves once each of
those writes is acknowledged; an ADD that reaches a present pavilion changes its semaphore by the signed amount, saturating
at 0 and 2^32 − 1 with PAV_ERR.SEM_SAT; an ADD of another pavilion is the oldest that it has in flight to the target, and
leaves its NI; an acknowledgement with another generation number is dropped and counted in PAV_STALE; a held sequencer with
a loaded program is released into WAITE. [04_berin_isa.md: SIGNAL (R106); 03_pavilion_array.md: semaphores (R68 to R71);
04_berin_isa.md: reset state (R113)] -/
def Clause.signals : Prop :=
  ∀ (s : State) (l : Fin 128) (p : Fin 144) (x : Seq) (t a : Fin 16) (all : Bool),
    (s.runsOp l p x (.signal t a all) → (x.g t).toNat < 0x2000 → s.present (bitsOf (x.g t).toNat 6 7) = true → ∃ u, exec (.signal l t a all) s = .next u ∧
      u = { s with pavs := u.pavs } ∧ (∀ q, q ≠ p → u.pav q = s.pav q) ∧
      ∃ h : HeldAdd, u.pav p = { s.pav p with seq := { x with pc := x.pc + 1 }, held := (s.pav p).held ++ [h] } ∧
        h.pav = Fin.ofNat 128 ((x.g t).toNat / 64) ∧ h.sem = Fin.ofNat 64 (x.g t).toNat ∧ h.amount = x.g a ∧
        ∀ k, k ∈ h.waits ↔ ∃ w ∈ (s.pav p).writes, w.id = k ∧ (all = true ∨ w.dest = .pav h.pav)) ∧
    (s.runsOp l p x (.signal t a all) → x.inTrap = false → (0x2000 ≤ (x.g t).toNat ∨ s.present (bitsOf (x.g t).toNat 6 7) = false) → ∃ u y,
      exec (.signal l t a all) s = .next u ∧ s.onlySeq u p y ∧ y.tcause = 5 ∧ y.w = x.w) ∧
    (∀ h r, s.phys? l.val = some p → (s.pav p).held = h :: r → (∀ w ∈ (s.pav p).writes, w.id ∉ h.waits) → ∃ u,
      exec (.signalSend l) s = .next u ∧ u = { s with pavs := u.pavs } ∧ (∀ q, q ≠ p → u.pav q = s.pav q) ∧
      u.pav p = { s.pav p with held := r, flight := (s.pav p).flight ++ [h] }) ∧
    (∀ id, s.phys? l.val = some p → s.putHeld p id = false → ∃ u, exec (.meshWriteAck l (s.pav p).niGen id) s = .next u ∧ u = { s with pavs := u.pavs, sch := u.sch } ∧
      (∀ q, q ≠ p → u.pav q = s.pav q) ∧ u.pav p = { s.pav p with writes := (u.pav p).writes } ∧
      ∀ w, w ∈ (u.pav p).writes ↔ w ∈ (s.pav p).writes ∧ w.id ≠ id) ∧
    (∀ id g, s.phys? l.val = some p → g ≠ (s.pav p).niGen → ∃ u, exec (.meshWriteAck l g id) s = .next u ∧ u = { s with regs := u.regs } ∧
      s.sameRegsBut u [(fPAV_STALE_COUNT l.val).off] ∧
      u.fld (fPAV_STALE_COUNT l.val) = min (s.fld (fPAV_STALE_COUNT l.val) + 1) (2 ^ 32 - 1)) ∧
    (∀ (m : Fin 64) (v : BitVec 16) (b : MeshAgent), s.phys? l.val = some p → (∀ k, b ≠ .pav k) → ∃ u,
      exec (.semaphoreAdd l [{ src := b, sem := m, amount := v }]) s = .next u ∧
      u = { s with pavs := u.pavs, regs := u.regs, sch := u.sch } ∧ (∀ q, q ≠ p → u.pav q = s.pav q) ∧
      u.pav p = { s.pav p with sems := (u.pav p).sems } ∧ s.sameRegsBut u [fPAV_ERR_SEM_SAT.off] ∧
      (∀ j, j ≠ m → (u.pav p).sems[j] = (s.pav p).sems[j]) ∧
      ((u.pav p).sems[m].toNat : Int) = max 0 (min 0xFFFFFFFF ((s.pav p).sems[m].toNat + v.toInt)) ∧
      ((s.pav p).sems[m].toNat + v.toInt < 0 ∨ 0xFFFFFFFF < (s.pav p).sems[m].toNat + v.toInt → u.flag fPAV_ERR_SEM_SAT = true)) ∧
    (∀ (k : Fin 128) (q : Fin 144) (h : HeldAdd) (r : List HeldAdd) (m : Fin 64) (v : BitVec 16), s.phys? l.val = some p →
      s.phys? k.val = some q → q ≠ p → (s.pav q).flight = h :: r → h.pav = l →
      (h.sem = m ∧ h.amount = v → ∃ u, exec (.semaphoreAdd l [{ src := .pav k, sem := m, amount := v }]) s = .next u ∧
        u.pav q = { s.pav q with flight := r } ∧
        ((u.pav p).sems[m].toNat : Int) = max 0 (min 0xFFFFFFFF ((s.pav p).sems[m].toNat + v.toInt))) ∧
      (¬ (h.sem = m ∧ h.amount = v) → exec (.semaphoreAdd l [{ src := .pav k, sem := m, amount := v }]) s = .next s)) ∧
    (s.phys? l.val = some p → s.seqOf p = x → x.mode = .held → x.loaded = true → (s.pav p).refusing = false → ∃ u,
      exec (.sequencerRelease l) s = .next u ∧ s.onlySeq u p { x with mode := .waitE })

/-- The logical pavilion whose sequencer executes the instruction that a row stands for, and the instruction; none for the row of
reserved encodings. A row whose operand says that the fetch finds a parity error executes none. -/
def instrOf (c : Instr) : Option (Fin 128 × Option BOp) :=
  match c with
  | .nop l => some (l, some .nop)
  | .trap l n => some (l, some (.trap n))
  | .rett l k => some (l, some (.rett k))
  | .push l i => some (l, some (.push i))
  | .pop l i _ => some (l, some (.pop i))
  | .cset l c i => some (l, some (.cset c i))
  | .aluMov l d b => some (l, some (.alu 0 d b))
  | .aluAdd l d b => some (l, some (.alu 1 d b))
  | .aluAdc l d b => some (l, some (.alu 2 d b))
  | .aluSub l d b => some (l, some (.alu 3 d b))
  | .aluSbc l d b => some (l, some (.alu 4 d b))
  | .aluAnd l d b => some (l, some (.alu 5 d b))
  | .aluOr l d b => some (l, some (.alu 6 d b))
  | .aluXor l d b => some (l, some (.alu 7 d b))
  | .aluCmp l d b => some (l, some (.alu 8 d b))
  | .aluTst l d b => some (l, some (.alu 9 d b))
  | .aluShl l d b => some (l, some (.alu 10 d b))
  | .aluShr l d b => some (l, some (.alu 11 d b))
  | .aluSar l d b => some (l, some (.alu 12 d b))
  | .aluMul l d b => some (l, some (.alu 13 d b))
  | .aluMulhu l d b => some (l, some (.alu 14 d b))
  | .addi l d n => some (l, some (.addi d n))
  | .movi l d n => some (l, some (.movi d n))
  | .cmpi l d n => some (l, some (.cmpi d n))
  | .shlImm l d n => some (l, some (.shift 0 d n))
  | .shrImm l d n => some (l, some (.shift 1 d n))
  | .sarImm l d n => some (l, some (.shift 2 d n))
  | .rorImm l d n => some (l, some (.shift 3 d n))
  | .ld l d m _ => some (l, some (.ld d m))
  | .st l d m _ => some (l, some (.st d m))
  | .addp l p n => some (l, some (.addp p n))
  | .addpr l p i x => some (l, some (.addpr p i x))
  | .addpw l p n => some (l, some (.addpw p n))
  | .cmpp l p q => some (l, some (.cmpp p q))
  | .bcc l k n => some (l, some (.bcc k n))
  | .jmp l m => some (l, some (.jmp m))
  | .call l m => some (l, some (.call m))
  | .jmpr l i => some (l, some (.jmpr i))
  | .callr l i => some (l, some (.callr i))
  | .dbnz l d n => some (l, some (.dbnz d n))
  | .issue l e i c _ => some (l, some (.issue e i c))
  | .waite l => some (l, some .waite)
  | .waitc l c t k => some (l, some (.waitc c t k))
  | .waits l m t k => some (l, some (.waits m t k))
  | .waitidle l => some (l, some .waitidle)
  | .fence l => some (l, some .fence)
  | .signal l t a k => some (l, some (.signal t a k))
  | .reservedInstruction l false => some (l, none)
  | _ => none

/-- Where no program of logical pavilion l runs (the pavilion is absent, the odd half of a coupled pair, held, halted or
waiting), or the words at its PC are not the row's instruction, the row changes nothing; it has no instruction to execute.
This is the model's convention (log entry 5), not a rule of the spec. [95_what_each_step_holds.md; 04_berin_isa.md: reset
state (R113)] -/
def Clause.idleSequencer : Prop :=
  ∀ (s : State) (l : Fin 128) (c : Instr) (o : Option BOp), instrOf c = some (l, o) →
    (∀ p x, s.runs l p x → (s.pav p).fetched ≠ o) → exec c s = .next s

/-- Traps, RETT, and a sequencer that does not run: TRAP, a reserved encoding, RETT, and a trap while a handler runs; an
instruction row whose words are not those at the PC of a running sequencer changes nothing. What it states beyond the rules
is the choice of the model: log entries 5, 28. -/
def Obligations.TrapsAndIdle : Prop := Clause.trapEntry ∧ Clause.idleSequencer

/-- ADDs that reach one pavilion's semaphores in one cycle from distinct sources (stop and attachment index) are applied in the
order of their stops and attachments, so listing them in another order gives the same outcome. [03_pavilion_array.md: the
order of ADDs (R71); 03_pavilion_array.md: attachment index (R497)] -/
def Clause.semaphoreOrder : Prop :=
  ∀ (s : State) (l : Fin 128) (a b : List SemAdd), a.Perm b → (a.map (fun x => s.semRank x.src)).Nodup →
    exec (.semaphoreAdd l a) s = exec (.semaphoreAdd l b) s ∧ ∃ t, exec (.semaphoreAdd l a) s = .next t ∧
      t = { s with pavs := t.pavs, regs := t.regs, sch := t.sch }

/-- SIGNAL, ADDs, and their order: SIGNAL, SIGNAL_SEND, SEMAPHORE_ADD, MESH_WRITE_ACK and SEQUENCER_RELEASE; ADDs of one cycle:
the order in which they are listed does not matter. What it states beyond the rules is the choice of the model: log entries
22. -/
def Obligations.SignalsAndOrder : Prop := Clause.signals ∧ Clause.semaphoreOrder

/-- The number of words of an instruction: ALU functions with an immediate, the indexed mode, ADDPW, JMP, CALL and WAITS have two. -/
def Sys2Proof.Machine.BOp.words (o : BOp) : Nat :=
  match o with
  | .alu _ _ (.imm _) | .ld _ (.index _ _ _ _) | .st _ (.index _ _ _ _) | .addpw _ _ | .jmp _ | .call _ | .waits _ _ _ => 2
  | _ => 1

/-- For every instruction of Berin-16 with fields that its encoding admits, with every operand at every value, the decoder reads
the words of the encoder as that instruction; an instruction of one word has 0 in the second, and R90's length of its first
word is the number of its words. [04_berin_isa.md: lengths (R90); 04_berin_isa.md: addressing modes (R91); 04_berin_isa.md:
Berin-16 instructions (R93); 04_berin_isa.md: ALU functions (R94)] -/
def Obligations.BerinRoundTrip : Prop :=
  ∀ o : BOp, o.wellFormed = true →
    decodeBerin (encodeBerin o).1 (encodeBerin o).2 = some o ∧
      (instLen (encodeBerin o).1 = 2 ↔ o.words = 2) ∧ (o.words = 1 → (encodeBerin o).2 = 0)

/-- A device that is not the root and whose parent port is ACTIVE at version 3 queues a request on that port, 1,024 ticks or
more after its exchange before; a parent queues on the port of the request a reply with the request's two stamps, its LOCKED
and its DEPTH. The send time of each is filled in as it leaves, so it is 0 in the queue. Nothing else is queued.
[05_deterministic_schedule.md: the timing tree (R115, R116); 06_fabric_links.md: control flits (R169)] -/
def Clause.timeExchange : Prop :=
  ∀ (s : State) (p : Fin 24) (t1 t2 : Int), s.portV3 p.val = true →
    (s.flag fSCH_TS_CTRL_ROOT = false → s.parentPort? = some p →
      (s.sch.lastExch + 1024 ≤ s.now ∨ s.sch.lastExch = 0 → ∃ t, exec .timesyncExchange s = .next t ∧
        t = { s with sch := { s.sch with lastExch := s.now }, fab := t.fab } ∧
        s.onlyPortQ t p [{ flit := .ctrl (.tsRequest 0), slot := s.slot }]) ∧
      ∃ t, exec .timesyncExchange s = .next t ∧ (s.sch.lastExch ≠ 0 → s.sch.lastExch + 1024 ≤ t.now)) ∧
    (∃ t, exec (.timesyncRequestRx p t1 t2) s = .next t ∧ t = { s with sch := { s.sch with kids := t.sch.kids }, fab := t.fab } ∧
      (∀ q, q ∈ t.sch.kids ↔ q = p ∨ q ∈ s.sch.kids) ∧
      s.onlyPortQ t p [{ flit := .ctrl (.tsReply t1 t2 0 (s.flag fSCH_TS_STATUS_LOCKED) (s.fld fSCH_TS_STATUS_DEPTH)),
                         slot := s.slot }])

/-- A child computes θ in picoseconds and shows it in SCH_TS_OFFSET; with no schedule present and LOCKED 0 it adds a positive θ,
rounded to whole ticks, to its counter, or holds the counter for a negative one; otherwise it changes its counter by at most
one tick and never backwards. DEPTH becomes the parent's plus 1, at most 15. A parent that is not LOCKED clears LOCKED and
sets LOSS; the 64th good exchange in a row sets LOCKED at depth 8 or less, and a greater depth never does.
[05_deterministic_schedule.md: the timing tree (R115 to R117), SCH_TS_STATUS (R146)] -/
def Clause.timeCorrection : Prop :=
  ∀ (s : State) (r : TsReply) (p : Fin 24), s.flag fSCH_TS_CTRL_ROOT = false → s.parentPort? = some p →
    let th : Int := ((r.t2 - r.t1) - (r.t4 - r.t3)) / 2 - signedOf 32 (s.fld (fSCH_TS_ASYM_ASYM p.val))
    let n : Nat := (th.natAbs + 625) / 1250
    ∃ t, exec (.timesyncReplyRx r) s = .next t ∧ t.fld fSCH_TS_OFFSET_THETA = twosOf 32 th ∧
      t.fld fSCH_TS_STATUS_DEPTH = min (r.depth + 1) 15 ∧ t.pavs = s.pavs ∧ t.rdm = s.rdm ∧ t.eth = s.eth ∧ t.ldg = s.ldg ∧
      (s.schedPresent = false → s.flag fSCH_TS_STATUS_LOCKED = false →
        (0 ≤ th → t.sch.tb = s.sch.tb + BitVec.ofNat 64 n ∧ t.sch.hold = s.sch.hold) ∧
        (th < 0 → t.sch.tb = s.sch.tb ∧ t.sch.hold = n)) ∧
      (s.schedPresent = true ∨ s.flag fSCH_TS_STATUS_LOCKED = true →
        (t.sch.tb = s.sch.tb ∧ t.sch.hold ≤ s.sch.hold + 1 ∨ t.sch.tb = s.sch.tb + 1 ∧ t.sch.hold = s.sch.hold) ∧
        (s.now < s.sch.lastSlew + 1024 → t.sch.tb = s.sch.tb ∧ t.sch.hold = s.sch.hold)) ∧
      (r.locked = false → t.flag fSCH_TS_STATUS_LOCKED = false ∧
        (s.flag fSCH_TS_STATUS_LOCKED = true → t.flag fSCH_TS_STATUS_LOSS = true)) ∧
      (r.locked = true → th.natAbs ≤ 500 → s.sch.good = 63 → r.depth ≤ 7 → t.flag fSCH_TS_STATUS_LOCKED = true) ∧
      (8 ≤ r.depth → s.flag fSCH_TS_STATUS_LOCKED = false → t.flag fSCH_TS_STATUS_LOCKED = false)

/-- The hold of the counter ends with the counter as it was; the ball gpio[31] rises at a tick at which the low PULSE_SHIFT bits
of the counter are 0 and falls 8 ticks later; a write that sets ROOT while RUN is IDLE reads LOCKED 1 and DEPTH 0; one that
changes ROOT while RUN is not IDLE is ignored with INVALID_STATE in LAST_STATUS; clearing ROOT clears LOCKED and sets LOSS.
[05_deterministic_schedule.md: the time base (R115, R116, R118, R146)] -/
def Clause.timePulses : Prop :=
  ∀ (s : State) (v : BitVec 32),
    (∃ t, exec .tbHoldExpire s = .next t ∧ t = { s with now := s.now + s.sch.hold, sch := { s.sch with hold := 0 } }) ∧
    (s.flag fSCH_TS_CTRL_PULSE_EN = true → s.sch.pulse = none → ∃ t, exec .timePulse s = .next t ∧
      t = { s with now := t.now, sch := t.sch, out := .pin "gpio31" true :: s.out } ∧ t.sch.pulse = some (t.now + 8) ∧
      t.sch.tb.toNat % 2 ^ s.fld fSCH_TS_CTRL_PULSE_SHIFT = 0) ∧
    (∀ u, s.sch.pulse = some u → ∃ t, exec .timePulseEnd s = .next t ∧
      t = { s with now := max s.now u, sch := t.sch, out := .pin "gpio31" false :: s.out } ∧ t.sch.pulse = none) ∧
    (s.run = 0 → bitOf v.toNat 6 = true → s.flag fSCH_TS_CTRL_ROOT = false → ∃ t, exec (.schTsCtrlWrite v) s = .next t ∧
      t = { s with regs := t.regs } ∧ t.flag fSCH_TS_CTRL_ROOT = true ∧ t.flag fSCH_TS_STATUS_LOCKED = true ∧
      t.fld fSCH_TS_STATUS_DEPTH = 0 ∧ s.sameRegsBut t [rSCH_TS_CTRL, fSCH_TS_STATUS_LOCKED.off, fSCH_STATE_RUN.off] ∧
      t.fld fSCH_TS_CTRL_PARENT_PORT = (if v.toNat % 32 < 24 then v.toNat % 32 else s.fld fSCH_TS_CTRL_PARENT_PORT) ∧
      t.fld fSCH_TS_CTRL_PULSE_SHIFT = (if 10 ≤ v.toNat / 256 % 32 then v.toNat / 256 % 32 else s.fld fSCH_TS_CTRL_PULSE_SHIFT)) ∧
    (s.run ≠ 0 → bitOf v.toNat 6 ≠ s.flag fSCH_TS_CTRL_ROOT → ∃ t, exec (.schTsCtrlWrite v) s = .next t ∧
      t = { s with regs := t.regs, log := t.log } ∧ t.fld fSCH_STATE_LAST_STATUS = 2 ∧ t.run = s.run ∧
      t.reg rSCH_TS_CTRL = s.reg rSCH_TS_CTRL ∧ s.logged t 0x0008 blkSCH noPart .invalidState 0 rSCH_TS_CTRL v.toNat) ∧
    (s.run = 0 → bitOf v.toNat 6 = false → s.flag fSCH_TS_CTRL_ROOT = true → s.flag fSCH_TS_STATUS_LOCKED = true →
      ∃ t, exec (.schTsCtrlWrite v) s = .next t ∧ t.flag fSCH_TS_CTRL_ROOT = false ∧ t.flag fSCH_TS_STATUS_LOCKED = false ∧
        t.flag fSCH_TS_STATUS_LOSS = true)

/-- The time base: exchange, correction, pulses: TIMESYNC_EXCHANGE and TIMESYNC_REQUEST_RX: requests 1,024 ticks apart, and the
parent's reply; TIMESYNC_REPLY_RX: θ, the correction of the counter, DEPTH and LOCKED; TB_HOLD_EXPIRE, TIME_PULSE,
TIME_PULSE_END and SCH_TS_CTRL_WRITE. What it states beyond the rules is the choice of the model: log entries 30, 41, 44. -/
def Obligations.TimeBase : Prop := Clause.timeExchange ∧ Clause.timeCorrection ∧ Clause.timePulses

/-- A write of SCH_CTRL without the key is ignored. LOAD with no image and RUN IDLE or RUNNING makes IMG LOADING, with the
checked image held or the first failing check kept; ABORT of a loading or armed image makes IMG NONE with INVALID_STATE in
SCH_LOAD_STATUS, and the device's own ARMED notice is disregarded; STOP of a running schedule with no image makes RUN
STOPPING; CLEAR of a halted one makes RUN IDLE; LAST_STATUS reads OK. In any other state the command changes nothing but
LAST_STATUS, which reads INVALID_STATE, and makes one entry; two command bits read INVALID_FIELD.
[05_deterministic_schedule.md: states and commands (R145), SCH_CTRL (R146)] -/
def Clause.scheduleCommands : Prop :=
  ∀ (s : State) (v : BitVec 32), ∀ c ∈ [Instr.schLoad v, .schAbort v, .schStop v, .schClear v],
    (bitsOf v.toNat 16 16 ≠ 0xA55A → exec c s = .next s) ∧
    (bitsOf v.toNat 16 16 = 0xA55A →
      (bitsOf v.toNat 0 4 = 1 → s.fld fSCH_STATE_IMG = 0 → (s.run = 0 ∨ s.run = 1) →
        (∀ f, (s.lastStatus .ok).checkImage = .error f → ∃ t, exec c s = .next t ∧
          t = { s with regs := t.regs, sch := { s.sch with load := some f, held := none } } ∧
          s.sameRegsBut t [fSCH_STATE_IMG.off] ∧ t.fld fSCH_STATE_IMG = 1 ∧ t.run = s.run ∧ t.fld fSCH_STATE_LAST_STATUS = 0) ∧
        (∀ i, (s.lastStatus .ok).checkImage = .ok i → ∃ t h, exec c s = .next t ∧ t.sch.load = none ∧
          t.sch.held = some h ∧ h.img = i ∧ h.armed = false ∧ h.doomed = false ∧ h.idleLoad = decide (s.run = 0) ∧
          h.actTb = s.fld fSCH_ACT_TB_TIME ∧ t.fld fSCH_STATE_IMG = 1 ∧ t.run = s.run ∧ t.fld fSCH_STATE_LAST_STATUS = 0)) ∧
      (bitsOf v.toNat 0 4 = 2 → (s.fld fSCH_STATE_IMG = 1 ∨ s.fld fSCH_STATE_IMG = 2) → ∃ t, exec c s = .next t ∧
        t = { s with regs := t.regs, sch := t.sch, ldg := t.ldg } ∧ t.fld fSCH_STATE_IMG = 0 ∧ t.run = s.run ∧
        t.fld fSCH_STATE_LAST_STATUS = 0 ∧ t.flag fSCH_STATE_LOAD_DONE = true ∧ t.fld fSCH_LOAD_STATUS_STATUS = 2 ∧
        t.sch = { s.sch with held := none, load := none, armed := t.sch.armed } ∧
        s.sameRegsBut t [fSCH_STATE_IMG.off, fSCH_LOAD_STATUS_STATUS.off] ∧
        ∀ h, s.sch.held = some h → ∀ a, a ∈ t.sch.armed ↔ a ∈ s.sch.armed ∧ ¬ (a.image = h.img.id ∧ a.dev = s.devNum)) ∧
      (bitsOf v.toNat 0 4 = 4 → s.run = 1 → s.fld fSCH_STATE_IMG = 0 → ∃ t, exec c s = .next t ∧ t = { s with regs := t.regs } ∧
        s.sameRegsBut t [fSCH_STATE_RUN.off] ∧ t.run = 2 ∧ t.fld fSCH_STATE_IMG = 0 ∧ t.fld fSCH_STATE_LAST_STATUS = 0) ∧
      (bitsOf v.toNat 0 4 = 8 → s.run = 3 → ∃ t, exec c s = .next t ∧ t = { s with regs := t.regs } ∧
        s.sameRegsBut t [fSCH_STATE_RUN.off] ∧ t.run = 0 ∧ t.fld fSCH_STATE_IMG = s.fld fSCH_STATE_IMG ∧
        t.fld fSCH_STATE_LAST_STATUS = 0) ∧
      ((bitsOf v.toNat 0 4 = 1 ∧ ¬ (s.fld fSCH_STATE_IMG = 0 ∧ (s.run = 0 ∨ s.run = 1))) ∨
        (bitsOf v.toNat 0 4 = 2 ∧ ¬ (s.fld fSCH_STATE_IMG = 1 ∨ s.fld fSCH_STATE_IMG = 2)) ∨
        (bitsOf v.toNat 0 4 = 4 ∧ ¬ (s.run = 1 ∧ s.fld fSCH_STATE_IMG = 0)) ∨ (bitsOf v.toNat 0 4 = 8 ∧ s.run ≠ 3) →
        ∃ t, exec c s = .next t ∧ t = { s with regs := t.regs, log := t.log } ∧ t.fld fSCH_STATE_LAST_STATUS = 2 ∧ t.run = s.run ∧
          t.fld fSCH_STATE_IMG = s.fld fSCH_STATE_IMG ∧ s.logged t 0x0008 blkSCH noPart .invalidState 0 rSCH_CTRL v.toNat) ∧
      (bitsOf v.toNat 0 4 ∉ [0, 1, 2, 4, 8] → ∃ t, exec c s = .next t ∧ t = { s with regs := t.regs } ∧
        s.sameRegsBut t [fSCH_STATE_RUN.off] ∧ t.fld fSCH_STATE_LAST_STATUS = 1 ∧ t.run = s.run))

/-- A load whose programs are loaded and whose checks pass ends ARMED: OK in SCH_LOAD_STATUS, LOAD_DONE set, the image held as
armed, and on a LOCKED device its own ARMED notice held. A failed read of the image ends it with the read's status and
detail 0x1000 plus the running check; a failed check with its status and detail; IMG is then NONE and no image is held.
[05_deterministic_schedule.md: loading (R132, R135, R136)] -/
def Clause.loadEnds : Prop :=
  ∀ (s : State) (k : Fin 16), s.fld fSCH_STATE_IMG = 1 →
    (∀ h, s.sch.load = none → s.sch.held = some h → (∀ d ∈ s.ldg.loads, d.svc = false → d.open = false) →
      (s.dropLoads false).recheck h.img = [] → h.doomed = false → (h.idleLoad = true → s.sch.tb.toNat < h.actTb) →
      ∃ t, exec (.schLoadEnd .ok k) s = .next t ∧ t = { s with regs := t.regs, sch := t.sch, ldg := t.ldg, fab := t.fab } ∧
        t.fld fSCH_STATE_IMG = 2 ∧ t.fld fSCH_LOAD_STATUS_STATUS = 0 ∧ t.flag fSCH_STATE_LOAD_DONE = true ∧ t.run = s.run ∧
        t.sch.held = some { h with armed := true } ∧ s.sameRegsBut t [fSCH_STATE_IMG.off, fSCH_LOAD_STATUS_STATUS.off] ∧
        t.sch.armed = if s.flag fSCH_TS_STATUS_LOCKED then
          { image := h.img.id, dev := s.devNum, stamp := s.sch.tb.toNat } :: s.sch.armed else s.sch.armed) ∧
    (∀ st, st ≠ .ok → ∃ t, exec (.schLoadEnd st k) s = .next t ∧ t = { s with regs := t.regs, sch := t.sch, ldg := t.ldg } ∧
      t.fld fSCH_STATE_IMG = 0 ∧ t.fld fSCH_LOAD_STATUS_STATUS = statusCode st ∧ t.fld fSCH_LOAD_STATUS_DETAIL = 0x1000 + k.val ∧
      t.flag fSCH_STATE_LOAD_DONE = true ∧ t.sch = { s.sch with held := none, load := none }) ∧
    (∀ f, s.sch.load = some f → f.detail < 65536 → ∃ t, exec (.schLoadEnd .ok k) s = .next t ∧ t.fld fSCH_STATE_IMG = 0 ∧
      t.fld fSCH_LOAD_STATUS_STATUS = statusCode f.st ∧ t.fld fSCH_LOAD_STATUS_DETAIL = f.detail ∧
      t.flag fSCH_STATE_LOAD_DONE = true ∧ t.sch = { s.sch with held := none, load := none } ∧ t.pavs = s.pavs ∧ t.que = s.que)

/-- SCH_CTRL and the end of a load: SCH_LOAD, SCH_ABORT, SCH_STOP and SCH_CLEAR; SCH_LOAD_END: armed, refused, or a failed read.
What it states beyond the rules is the choice of the model: log entries 31 to 36. -/
def Obligations.SchedulesAndLoads : Prop := Clause.scheduleCommands ∧ Clause.loadEnds

/-- At SCH_ACT_TB an armed image loaded while RUN was IDLE activates when an ARMED notice of every directory device, stamped no
later than 16,000 ticks before, is held: RUN is RUNNING, IMG NONE, the epoch index and the step are those held with the
image, the attempt and the record are 0, and the epoch of record 0 opens at that time with its paced length. Otherwise it is
discarded with NOT_READY, and RUN stays IDLE. What it states beyond the rules is the choice of the model: log entries 35,
37. [05_deterministic_schedule.md: activation (R136), boundaries (R138), epochs and steps (R119 to R121), pace (R143)] -/
def Obligations.Activation : Prop :=
  ∀ (s : State) (h : HeldImage), s.sch.held = some h → h.armed = true → h.idleLoad = true → s.run = 0 →
    ((∀ d ∈ h.img.devs, ∃ a ∈ s.sch.armed, a.image = h.img.id ∧ a.dev = d ∧ a.stamp + 16000 ≤ h.actTb) →
      ∃ t o, exec .schActivate s = .next t ∧ t.run = 1 ∧ t.fld fSCH_STATE_IMG = 0 ∧ t.fld fSCH_LOAD_STATUS_STATUS = 0 ∧
        t.flag fSCH_STATE_LOAD_DONE = true ∧ t.fld fSCH_EPOCH_VALUE = h.actEpoch.toNat ∧ t.fld fSCH_STEP_VALUE = h.startStep.toNat ∧
        t.fld fSCH_ATTEMPT_ATTEMPT = 0 ∧ t.fld fSCH_RECORD_VALUE = 0 ∧ t.sch.active = some h.img ∧ t.sch.held = none ∧
        t.sch.epoch = some o ∧ o.record = 0 ∧ o.opened = h.actTb ∧ o.closed = false ∧ o.blk = h.img.block 0 ∧
        o.lenPaced = (h.img.recAt 0).len + (h.img.recAt 0).len * paceAt s.sch.paces h.actTb / 16) ∧
    ((∃ d ∈ h.img.devs, ∀ a ∈ s.sch.armed, a.image = h.img.id → a.dev = d → h.actTb < a.stamp + 16000) →
      ∃ t, exec .schActivate s = .next t ∧ t = { s with regs := t.regs, sch := t.sch, now := t.now } ∧ t.run = 0 ∧
        t.fld fSCH_STATE_IMG = 0 ∧ t.fld fSCH_LOAD_STATUS_STATUS = 0xF ∧ t.flag fSCH_STATE_LOAD_DONE = true ∧ t.sch.held = none)

/-- At the boundary of the open epoch of a running schedule with no replacement held and no FAULT notice: with nothing late, the
next record opens there, the epoch index advances by 1, the step advances and the attempt is 0 when the record starts a
step, and a COMMIT record commits its step; with something late, the epoch is closed as faulted with the first cause
recorded, the indices and SCH_COMMITTED stay, a T_r at least 16,000 ticks later is held, and no port keeps a late forward.
[05_deterministic_schedule.md: boundaries (R138, R140, R498), epochs and steps (R119 to R121)] -/
def Clause.epochBoundaries : Prop :=
  ∀ (s : State) (i : Image) (e : OpenEpoch) (n : Nat), s.sch.active = some i → s.sch.epoch = some e → s.run = 1 → e.closed = false →
    s.sch.trs = [] → s.sch.held = none → s.sch.tb.toNat = e.opened + 8 * e.lenPaced → i.next? e.record = some n →
    (s.closingFaults e (some (i.block n)) = [] → ∃ t o, exec .epochBoundary s = .next t ∧ t.run = 1 ∧ t.sch.active = some i ∧
      t.fld fSCH_EPOCH_VALUE = (s.fld fSCH_EPOCH_VALUE + 1) % 2 ^ 32 ∧ t.fld fSCH_RECORD_VALUE = n % 2 ^ 32 ∧ t.sch.epoch = some o ∧
      o.record = n ∧ o.opened = s.sch.tb.toNat ∧ o.blk = i.block n ∧ o.closed = false ∧
      (if (i.recAt n).stepStart then t.fld fSCH_STEP_VALUE = (s.fld fSCH_STEP_VALUE + 1) % 2 ^ 32 ∧ t.fld fSCH_ATTEMPT_ATTEMPT = 0
        else t.fld fSCH_STEP_VALUE = s.fld fSCH_STEP_VALUE ∧ t.fld fSCH_ATTEMPT_ATTEMPT = s.fld fSCH_ATTEMPT_ATTEMPT) ∧
      ((i.recAt e.record).commit = true → t.fld fSCH_COMMITTED_VALUE = s.fld fSCH_STEP_VALUE)) ∧
    (∀ c l, s.closingFaults e (some (i.block n)) = c :: l → s.sch.recorded = false → ∃ t, exec .epochBoundary s = .next t ∧
      t.run = 1 ∧ t.sch.epoch = some { e with closed := true } ∧ t.fld fSCH_EPOCH_VALUE = s.fld fSCH_EPOCH_VALUE ∧
      t.fld fSCH_STEP_VALUE = s.fld fSCH_STEP_VALUE ∧ t.fld fSCH_COMMITTED_VALUE = s.fld fSCH_COMMITTED_VALUE ∧
      t.fld fSCH_FAULT_CAUSE = c ∧ t.fld fSCH_FAULT_ORIGIN = s.devNum ∧
      t.fld fSCH_FAULT_COUNT_COUNT = min (s.fld fSCH_FAULT_COUNT_COUNT + 1) (2 ^ 32 - 1) ∧ t.sch.recorded = true ∧
      (∀ r ∈ t.sch.trs, r % 8 = 0 ∧ s.sch.tb.toNat + 16000 ≤ r) ∧ t.sch.trs ≠ [] ∧
      (∀ q : Fin 24, t.fab.ports[q].late = []) ∧ t.pavs = s.pavs)

/-- At a boundary with nothing late, a schedule whose last record has no successor, or one that is STOPPING where the next
record would start a step, ends: RUN is IDLE, no epoch is open, the epoch index advances by 1, and the step that ends
commits. [05_deterministic_schedule.md: the end of a schedule (R120, R121), STOP (R145)] -/
def Clause.scheduleEnds : Prop :=
  ∀ (s : State) (i : Image) (e : OpenEpoch), s.sch.active = some i → s.sch.epoch = some e → e.closed = false → s.sch.trs = [] →
    s.sch.held = none → s.sch.tb.toNat = e.opened + 8 * e.lenPaced → s.closingFaults e none = [] →
    (s.running = true ∧ i.next? e.record = none ∨ s.run = 2 ∧ ∃ n, i.next? e.record = some n ∧ (i.recAt n).stepStart = true) →
    ∃ t, exec .epochBoundary s = .next t ∧ t.run = 0 ∧ t.sch.epoch = none ∧ t.sch.active = none ∧ t.sch.chans = [] ∧
      t.fld fSCH_EPOCH_VALUE = (s.fld fSCH_EPOCH_VALUE + 1) % 2 ^ 32 ∧ t.fld fSCH_STEP_VALUE = s.fld fSCH_STEP_VALUE ∧
      ((i.recAt e.record).commit = true → t.fld fSCH_COMMITTED_VALUE = s.fld fSCH_STEP_VALUE)

/-- At the earliest T_r held, an attempt below the limit opens the record that began the step again: the attempt and the epoch
index advance by 1 and the step stays; at the limit RUN is HALTED, the epoch index advances by 1, no epoch is open, and
every bound pavilion has stopped: engine queues flushed, counters 0, INTRAP 0, its sequencer in WAITE unless halted or held.
The end of the pending fill fills the table, or faults the epoch with cause FILL. [05_deterministic_schedule.md: replay
(R141), pending table (R138, R140); 04_berin_isa.md: a faulted epoch (R109)] -/
def Clause.replays : Prop :=
  ∀ (s : State) (i : Image) (e : OpenEpoch) (r : Nat) (l : List Nat), s.sch.active = some i → s.sch.epoch = some e → s.running = true →
    (s.sch.trs = r :: l → s.sch.held = none →
      (s.fld fSCH_ATTEMPT_ATTEMPT < s.sch.maxAtt → s.fld fSCH_ATTEMPT_ATTEMPT < 255 → ∃ t o, exec .replayBoundary s = .next t ∧
        t.run = s.run ∧ t.fld fSCH_ATTEMPT_ATTEMPT = s.fld fSCH_ATTEMPT_ATTEMPT + 1 ∧
        t.fld fSCH_EPOCH_VALUE = (s.fld fSCH_EPOCH_VALUE + 1) % 2 ^ 32 ∧ t.fld fSCH_STEP_VALUE = s.fld fSCH_STEP_VALUE ∧
        t.sch.active = some i ∧ t.sch.epoch = some o ∧ o.record = s.sch.stepRec ∧ o.opened = l.foldl min r ∧ o.closed = false) ∧
      (s.sch.maxAtt ≤ s.fld fSCH_ATTEMPT_ATTEMPT → ∃ t, exec .replayBoundary s = .next t ∧ t.run = 3 ∧ t.sch.epoch = none ∧
        t.sch.active = none ∧ t.sch.trs = [] ∧ t.fld fSCH_ATTEMPT_ATTEMPT = s.fld fSCH_ATTEMPT_ATTEMPT ∧
        t.fld fSCH_EPOCH_VALUE = (s.fld fSCH_EPOCH_VALUE + 1) % 2 ^ 32 ∧
        ∀ k ∈ e.blk.bound, ∀ p, s.phys? k = some p → (∀ j : Fin 8, (t.engOf p j).q = []) ∧ (t.seqOf p).inTrap = false ∧
          (t.seqOf p).ctr = Vector.replicate 16 0 ∧ (t.seqOf p).w = (s.seqOf p).w ∧
          (t.seqOf p).mode = match (s.seqOf p).mode with | .held => .held | .halted => .halted | _ => .waitE)) ∧
    (s.sch.filled = false →
      (∃ t, exec (.pendingFillEnd true) s = .next t ∧ t = { s with sch := t.sch } ∧ t.sch.filled = true) ∧
      (s.sch.recorded = false → ∃ t, exec (.pendingFillEnd false) s = .next t ∧ t.fld fSCH_FAULT_CAUSE = 11 ∧
        t.fld fSCH_FAULT_ORIGIN = s.devNum ∧ t.sch.filled = false ∧ t.sch.trs = s.replayTime :: s.sch.trs ∧ t.pavs = s.pavs))

/-- Boundaries, the end of a schedule, and replays: EPOCH_BOUNDARY: in time, the next record opens; not in time, the epoch
faults and nothing opens; a schedule without a next record, or STOPPING at a step's end, becomes IDLE; REPLAY_BOUNDARY and
PENDING_FILL_END. What it states beyond the rules is the choice of the model: log entries 37, 38, 39, 45. -/
def Obligations.EpochsAndReplays : Prop := Clause.epochBoundaries ∧ Clause.scheduleEnds ∧ Clause.replays

/-- A notice is later than the latest kept of its origin and kind, its number being compared modulo 2^16 (R170). -/
def isLater (s : State) (kind : Nat) (n : Notice) : Prop :=
  ∀ k, alook (n.origin.val, kind) s.sch.seenNum = some k →
    1 ≤ (n.num.toNat + 65536 - k) % 65536 ∧ (n.num.toNat + 65536 - k) % 65536 < 32768

/-- The notice is the latest kept of its origin and kind, and waits on every port that is ACTIVE at version 3, but for the one
on which it came, to leave no earlier than 2 slots from now; nothing else of the ports has changed. -/
def forwarded (s t : State) (kind : Nat) (p : Fin 24) (n : Notice) : Prop :=
  alook (n.origin.val, kind) t.sch.seenNum = some n.num.toNat ∧ t.fab = { s.fab with ports := t.fab.ports } ∧
    ∀ q : Fin 24, t.fab.ports[q] = { s.fab.ports[q] with ctrlQ := s.fab.ports[q].ctrlQ ++
      (if s.portV3 q.val = true ∧ q ≠ p then [{ flit := .ctrl (.notice kind n), slot := s.slot + 2 }] else []) }

/-- A notice that comes on a port that is ACTIVE at version 3 and is later than the latest kept of its origin and kind is kept
and forwarded on every other such port from 2 slots after; any other is discarded without an effect. An ARMED notice is held
for the activation test, a PACE notice for the next boundary, or, when the pace in force at a boundary that has passed would
have differed, it faults the epoch with cause LATE_NOTICE, a FAULT notice for the current step and attempt makes its T_r
held and, as the attempt's first fault, is recorded with cause REMOTE and its origin. A write of SCH_PACE_REQ makes the
device's own level the larger of the two requests. [05_deterministic_schedule.md: notices (R136, R141, R143, R498);
06_fabric_links.md: flooding (R170)] -/
def Clause.notices : Prop :=
  ∀ (s : State) (p : Fin 24) (n : Notice) (v : BitVec 32),
    (∀ c ∈ [(1, Instr.armedNoticeRx p n), (2, .faultNoticeRx p n), (3, .paceNoticeRx p n)],
      ¬ (s.portV3 p.val = true ∧ isLater s c.1 n) → exec c.2 s = .next s) ∧
    (s.portV3 p.val = true →
      (isLater s 1 n → ∃ t, exec (.armedNoticeRx p n) s = .next t ∧ t = { s with sch := t.sch, fab := t.fab } ∧
        t.sch.armed = { image := n.image, dev := n.origin.val, stamp := n.stamp.toNat } :: s.sch.armed ∧ forwarded s t 1 p n) ∧
      (isLater s 3 n → (∀ o ∈ s.sch.opens, o.1 < n.stamp.toNat + 16000) → ∃ t, exec (.paceNoticeRx p n) s = .next t ∧
        t = { s with sch := t.sch, fab := t.fab, regs := t.regs } ∧
        t.sch.paces = { dev := n.origin.val, level := n.level.val, stamp := n.stamp.toNat } :: s.sch.paces ∧ forwarded s t 3 p n) ∧
      (isLater s 3 n → s.running = true → s.sch.recorded = false →
        (∃ o ∈ s.sch.opens, n.stamp.toNat + 16000 ≤ o.1 ∧
          paceAt ({ dev := n.origin.val, level := n.level.val, stamp := n.stamp.toNat } ::
            s.sch.paces.drop (s.sch.paces.length - o.2)) o.1 ≠ paceAt (s.sch.paces.drop (s.sch.paces.length - o.2)) o.1) →
        ∃ t, exec (.paceNoticeRx p n) s = .next t ∧ t.fld fSCH_FAULT_CAUSE = 9 ∧ t.fld fSCH_FAULT_ORIGIN = s.devNum ∧
          t.sch.recorded = true ∧ t.sch.trs = s.replayTime :: s.sch.trs) ∧
      (isLater s 2 n → ∀ i, s.sch.active = some i → s.running = true → n.image = i.id → n.step.toNat = s.fld fSCH_STEP_VALUE →
        n.attempt.toNat = s.fld fSCH_ATTEMPT_ATTEMPT → s.sch.tb.toNat < n.tr.toNat → s.sch.recorded = false →
        ∃ t, exec (.faultNoticeRx p n) s = .next t ∧ t.sch.trs = n.tr.toNat :: s.sch.trs ∧ t.fld fSCH_FAULT_CAUSE = 10 ∧
          t.fld fSCH_FAULT_ORIGIN = n.origin.val ∧ t.sch.recorded = true ∧ t.sch.ownSent = s.sch.ownSent ∧ forwarded s t 2 p n) ∧
      (isLater s 2 n → (s.running = false ∨ s.sch.active.map (fun i => i.id) ≠ some n.image ∨ n.step.toNat ≠ s.fld fSCH_STEP_VALUE ∨
        n.attempt.toNat ≠ s.fld fSCH_ATTEMPT_ATTEMPT) → ∃ t, exec (.faultNoticeRx p n) s = .next t ∧
          t = { s with sch := t.sch, fab := t.fab } ∧ t.sch = { s.sch with seenNum := t.sch.seenNum } ∧ forwarded s t 2 p n)) ∧
    (∃ t, exec (.paceReqWrite v) s = .next t ∧ t = { s with sch := t.sch, fab := t.fab, regs := t.regs } ∧
      t.fld fSCH_PACE_REQ_LEVEL = v.toNat % 16 ∧ (s.sch.pacePwr < 16 → t.fld fSCH_PACE_OWN = max (v.toNat % 16) s.sch.pacePwr) ∧
      s.sameRegsBut t [fSCH_PACE_REQ_LEVEL.off, fSCH_PACE_OWN.off])

/-- A move whose START has come takes one of the 16 channels when one is free and no move of a lower index waits for one; when
its accesses succeed and its writes are acknowledged its bytes stand at the destination, the channel is free, the move is
complete and one ADD of +1 is sent to SIG; while copy-before-write holds one of its writes the channel stays taken; a failed
access faults the epoch with cause DATA and the move stays incomplete. [05_deterministic_schedule.md: bulk moves (R495,
R128), causes (R140)] -/
def Clause.bulkMoves : Prop :=
  ∀ (s : State) (e : OpenEpoch) (i : Nat) (m : Mv), s.sch.epoch = some e → s.running = true → e.blk.moves[i]? = some m →
    (e.moves[i]? = some .waiting → e.closed = false → s.sch.chans.length < 16 → e.opened + 8 * m.start ≤ s.sch.tb.toNat →
      (∀ k x, k < i → e.blk.moves[k]? = some x → e.moves[k]? = some .waiting → s.sch.tb.toNat < e.opened + 8 * x.start) →
      ∃ t, exec (.moveStart i) s = .next t ∧ t = { s with sch := t.sch } ∧
        t.sch = { s.sch with chans := s.sch.chans ++ [i], epoch := some { e with moves := e.moves.set i .running } }) ∧
    (e.moves[i]? = some .running → s.moveSt m .ok = .ok → s.writeHeld m.dst (64 * (m.len / 64)) (.move i) = true →
      ∃ t, exec (.moveComplete i .ok) s = .next t ∧ (∃ o, t.sch.epoch = some o ∧ o.moves = e.moves.set i .copied) ∧
        t.sch.chans = s.sch.chans ∧ t.mem = s.mem ∧ t.scratch = s.scratch ∧ t.pavs = s.pavs) ∧
    (e.moves[i]? = some .running → s.moveSt m .ok = .ok → s.holds (.move i) = false →
      ∀ r, s.region? m.dst (64 * (m.len / 64)) = some r → r ≠ .log →
      s.writeHeld m.dst (64 * (m.len / 64)) (.move i) = false → ¬ (m.src < m.dst ∧ m.dst < m.src + 64 * (m.len / 64)) →
      ∃ t, exec (.moveComplete i .ok) s = .next t ∧
        t = { s with sch := t.sch, mem := t.mem, scratch := t.scratch, pavs := t.pavs, regs := t.regs, out := t.out } ∧
        s.wrote t m.dst (s.bytesHeld m.src (64 * (m.len / 64))) ∧ t.sch.chans = s.sch.chans.filter (fun k => decide (k ≠ i)) ∧
        (∃ o, t.sch.epoch = some o ∧ o.moves = e.moves.set i .done ∧ o.record = e.record ∧ o.opened = e.opened) ∧
        ∀ q, s.phys? (bitsOf m.sig.toNat 6 7) = some q → ∀ j : Fin 64, ((t.pav q).sems[j].toNat : Int) =
          if j.val = m.sig.toNat % 64 then min 0xFFFFFFFF ((s.pav q).sems[j].toNat + 1) else (s.pav q).sems[j].toNat) ∧
    (∀ st, e.moves[i]? = some .running → s.moveSt m st ≠ .ok → s.sch.recorded = false → ∃ t, exec (.moveComplete i st) s = .next t ∧
      t.fld fSCH_FAULT_CAUSE = 5 ∧ t.sch.epoch = s.sch.epoch ∧ t.sch.chans = s.sch.chans ∧ t.sch.trs = s.replayTime :: s.sch.trs)

/-- Notices and bulk moves: ARMED, FAULT and PACE notices, and a pace request; MOVE_START and MOVE_COMPLETE. What it states
beyond the rules is the choice of the model: log entries 39, 42, 43. -/
def Obligations.NoticesAndMoves : Prop := Clause.notices ∧ Clause.bulkMoves

/-- From `s` to `t` only port `p` and its registers have changed. -/
def onlyPort (s t : State) (p : Fin 24) : Prop :=
  t = { s with regs := t.regs, fab := t.fab } ∧ t.fab = { s.fab with ports := t.fab.ports } ∧
    (∀ q, q ≠ p → t.fab.ports[q] = s.fab.ports[q]) ∧
    s.sameRegsBut t [fFAB_PORT_CTRL_DS p.val |>.off, fFAB_PORT_STATUS_STATE p.val |>.off, fFAB_PORT_PEER_DEV p.val |>.off]

/-- The port has left ACTIVE (R148, R174): LOSS, the entry of 0x0105, a link without state, and GLEAN for an open epoch with a
run on the port; no other port has changed but for a notice that waits there. -/
def leftActive (s t : State) (p : Fin 24) : Prop :=
  t.flag (fFAB_PORT_STATUS_LOSS p.val) = true ∧ t.fld (fFAB_PORT_STATUS_VERSION p.val) = 0 ∧ t.sownOk p = false ∧
    s.logged t 0x0105 blkFAB 0 .targetReset 0 0 p.val ∧ (t.fport p).txSeq = 0 ∧ (t.fport p).replay = [] ∧ (t.fport p).retx = [] ∧
    (t.fport p).elastic = [] ∧ (t.fport p).volQ = (s.fport p).volQ ∧ t.rdm = s.rdm ∧ t.eth = s.eth ∧ t.ckp = s.ckp ∧
    (∀ e, s.sch.epoch = some e → e.blk.usesPort p.val = true → s.running = true → s.sch.recorded = false →
      t.fld fSCH_FAULT_CAUSE = 4 ∧ t.fld fSCH_FAULT_ORIGIN = s.devNum ∧ s.replayTime ∈ t.sch.trs) ∧
    (∀ e, s.sch.epoch = some e → e.blk.usesPort p.val = false → s.flag fSCH_TS_STATUS_LOCKED = false → t.sch.trs = s.sch.trs) ∧
    ∀ q, q ≠ p → t.fab.ports[q] = { s.fab.ports[q] with ctrlQ := t.fab.ports[q].ctrlQ }

/-- A write with ENABLE 1 takes a DISABLED or FAILED port to DETECT; ENABLE 0 takes a port to DISABLED; RETRAIN takes an ACTIVE
port, as a lane fault does, to EQUALIZE with its retrain counted; any other write changes its settings alone. A port that
leaves ACTIVE shows LOSS, VERSION 0 and SOWN_OK 0, logs 0x0105, loses its link's state, and an open epoch with a run on it
faults with cause GLEAN. DETECT goes on or finds a partner; EQUALIZE, ALIGN and NEGOTIATE follow one another, and a port
that enters NEGOTIATE sends a TRAIN flit with the version it offers, its device, port and generation; NEGOTIATE ends in
ACTIVE at the lower of the offered versions with 53 credits a pair, or in FAILED with REASON 1 or 3; a state that fails or
lasts too long gives REASON 2, but for a fast EQUALIZE, which starts again in full. FAB_DEVNUM is written only while every
port is DISABLED. A keyed commit changes BANK at once while no schedule runs, waits for a boundary while one does, and is
ignored with CFG_DROP while one waits. What it states beyond the rules is the choice of the model: log entries 48, 49, 56.
[06_fabric_links.md: training (R172 to R175), loss (R148, R158), credits (R166), SOWN_OK (R159), routing banks (R168),
registers (R181)] -/
def Obligations.PortTraining : Prop :=
  ∀ (s : State) (p : Fin 24) (v : BitVec 32) (x : TrainX) (lane : Fin 4) (found : Bool),
    (s.gated (s.skuField 8 4) p.val = false → ∀ c ∈ [Instr.fabPortEnable p v, .fabPortDisable p v, .fabPortRetrain p v],
      ∃ t, exec c s = .next t ∧ t.pavs = s.pavs ∧ t.fld (fFAB_PORT_CTRL_ENABLE p.val) = v.toNat % 2 ∧
        t.fld (fFAB_PORT_CTRL_DS p.val) = (if v.toNat / 256 % 256 ≤ 240 then v.toNat / 256 % 256 else s.fld (fFAB_PORT_CTRL_DS p.val)) ∧
        (v.toNat % 2 = 1 → s.portState p.val = 0 ∨ s.portState p.val = 7 → onlyPort s t p ∧ t.portState p.val = 1) ∧
        (v.toNat % 2 = 0 → t.portState p.val = 0 ∧ (s.portState p.val = 5 → leftActive s t p) ∧ (s.portState p.val ≠ 5 → onlyPort s t p)) ∧
        (v.toNat % 2 = 1 → s.portState p.val = 5 →
          (bitOf v.toNat 1 = true → t.portState p.val = 2 ∧ leftActive s t p ∧
            t.fld (fFAB_RETRAIN_COUNT p.val) = min (s.fld (fFAB_RETRAIN_COUNT p.val) + 1) (2 ^ 32 - 1)) ∧
          (bitOf v.toNat 1 = false → t = { s with regs := t.regs } ∧ t.portState p.val = 5))) ∧
    (s.portState p.val = 5 → ∃ t, exec (.fabLaneFault p lane) s = .next t ∧ t.pavs = s.pavs ∧ t.portState p.val = 2 ∧ leftActive s t p ∧
      t.fld (fFAB_RETRAIN_COUNT p.val) = min (s.fld (fFAB_RETRAIN_COUNT p.val) + 1) (2 ^ 32 - 1)) ∧
    (s.portState p.val = 1 → ∃ t, exec (.fabDetectPoll p found) s = .next t ∧ t.portState p.val = (if found then 2 else 1) ∧
      (s.fport p).since + 800000 ≤ t.now ∧ t = { s with regs := t.regs, fab := t.fab, now := t.now, sch := t.sch }) ∧
    (s.now ≤ (s.fport p).since + trainLimit (s.portState p.val) (s.fport p).coeffs →
      x.ok = true → (s.portState p.val = 2 ∨ s.portState p.val = 3) → ∃ t, exec (.fabTrainStateDone p x) s = .next t ∧
      onlyPort s { t with out := s.out } p ∧ t.portState p.val = s.portState p.val + 1 ∧
      (s.portState p.val = 2 → (t.fport p).coeffs = true ∧ t.out = s.out) ∧
      (s.portState p.val = 3 → t.out = .flit p.val s.slot 0 (t.onWire p s.slot 0 0
        (.ctrl (.train (min (s.fport p).maxOn 3) s.devNum p.val (s.fld fTOP_GEN_DEV_GEN)))) :: s.out)) ∧
    (s.now ≤ (s.fport p).since + trainLimit (s.portState p.val) (s.fport p).coeffs → x.ok = true → s.portState p.val = 4 → ∃ t, exec (.fabTrainStateDone p x) s = .next t ∧ onlyPort s t p ∧
      if x.peerDev.val = s.devNum then t.portState p.val = 7 ∧ t.fld (fFAB_PORT_STATUS_REASON p.val) = 3
      else if 2 ≤ (s.fport p).maxOn ∧ 2 ≤ x.peerVersion then t.portState p.val = 5 ∧ (t.fport p).credits = Vector.replicate 16 53 ∧
        t.fld (fFAB_PORT_STATUS_VERSION p.val) = min (min (s.fport p).maxOn 3) (min x.peerVersion 3) ∧
        t.flag (fFAB_PORT_PEER_VALID p.val) = true ∧ t.fld (fFAB_PORT_PEER_DEV p.val) = x.peerDev.val ∧
        t.fld (fFAB_PORT_PEER_PORT p.val) = x.peerPort.val ∧ t.fld (fFAB_PORT_PEER_GEN p.val) = x.peerGen.toNat ∧
        (t.sownOk p = true ↔ 3 ≤ (s.fport p).maxOn ∧ 3 ≤ x.peerVersion ∧ 1 ≤ (s.fport p).dsOn ∧ x.delay + 8 ≤ 8 * (s.fport p).dsOn)
      else t.portState p.val = 7 ∧ t.fld (fFAB_PORT_STATUS_REASON p.val) = 1) ∧
    (∀ c, (c = Instr.fabTrainTimeout p ∨
        c = .fabTrainStateDone p x ∧ (s.fport p).since + trainLimit (s.portState p.val) (s.fport p).coeffs < s.now) →
      (s.portState p.val = 2 ∨ s.portState p.val = 3 ∨ s.portState p.val = 4) → ∃ t, exec c s = .next t ∧
      t = { s with regs := t.regs, fab := t.fab, now := t.now, sch := t.sch } ∧
      if s.portState p.val = 2 ∧ (s.fport p).coeffs = true then t.portState p.val = 2 ∧ (t.fport p).coeffs = false
      else t.portState p.val = 7 ∧ t.fld (fFAB_PORT_STATUS_REASON p.val) = 2) ∧
    (∃ t, exec (.fabDevnumWrite v) s = .next t ∧ t = { s with regs := t.regs } ∧ s.sameRegsBut t [fFAB_DEVNUM_DEV.off, fFAB_ERR_CFG_DROP.off] ∧
      ((∀ q : Fin 24, s.portState q.val = 0) → t.devNum = v.toNat % 16384 ∧ t.reg fFAB_ERR_CFG_DROP.off = s.reg fFAB_ERR_CFG_DROP.off) ∧
      ((∃ q : Fin 24, s.portState q.val ≠ 0) → t.devNum = s.devNum ∧ t.flag fFAB_ERR_CFG_DROP = true)) ∧
    (bitsOf v.toNat 16 16 = 0xA55A → bitOf v.toNat 1 = true → ∃ t, exec (.fabRtCommit v) s = .next t ∧
      (s.flag fFAB_RT_CTRL_PENDING = true → t = { s with regs := t.regs } ∧ t.flag fFAB_ERR_CFG_DROP = true ∧
        s.sameRegsBut t [fFAB_ERR_CFG_DROP.off]) ∧
      (s.flag fFAB_RT_CTRL_PENDING = false → s.running = true → t = { s with regs := t.regs } ∧ t.flag fFAB_RT_CTRL_PENDING = true ∧
        s.sameRegsBut t [fFAB_RT_CTRL_PENDING.off]) ∧
      (s.flag fFAB_RT_CTRL_PENDING = false → s.running = false → t = { s with regs := t.regs, fab := t.fab } ∧
        t.fld fFAB_RT_CTRL_BANK = 1 - s.fld fFAB_RT_CTRL_BANK ∧ t.flag fFAB_RT_CTRL_PENDING = false)) ∧
    (bitsOf v.toNat 16 16 ≠ 0xA55A → exec (.fabRtCommit v) s = .next s)

/-- From `s` to `t` only the ports in `l`, and registers, have changed. -/
def onlyPorts (s t : State) (l : List (Fin 24)) : Prop :=
  t = { s with regs := t.regs, fab := t.fab } ∧ t.fab = { s.fab with ports := t.fab.ports } ∧ ∀ q, q ∉ l → t.fport q = s.fport q

/-- A NAK that waits on the port names the SEQ. -/
def named (x : FabPort) (q : Nat) : Prop := ∃ e ∈ x.ctrlQ, ∃ l, e.flit = .ctrl (.nak l) ∧ BitVec.ofNat 10 q ∈ l

/-- On an ACTIVE port with slot alignment: a correct flit with the SEQ expected waits in the elastic buffer for its receive slot
and the SEQ expected advances by 1; a flit whose SEQ is missing waits there too with what was recorded of it, and the SEQ
stays missing until it leaves; a later SEQ or an uncorrectable flit makes each skipped SEQ missing and named in a NAK; an
older one is a duplicate and has no effect; a corrected flit is counted; the 16th uncorrectable flit in a row makes the port
retrain. Without alignment a volunteer flit is passed on at once; its credit is not owed yet. A NAK queues each SEQ that is
not queued for 2 slots later, or makes the port retrain when one has left the replay buffer; a CREDIT adds to each pair, at
most 53. What it states beyond the rules is the choice of the model: log entries 46, 47, 48. [06_fabric_links.md: check
(R151), retransmission (R154 to R156, R158), elastic buffer (R159), credits (R166)] -/
def Obligations.LinkLevel : Prop :=
  ∀ (s : State) (p : Fin 24) (slot : Nat) (pos : Fin 2) (q : Fin 1024) (bytes : List Byte), s.portUp p = true →
    let x := s.fport p
    (∀ b f, checkFlit bytes = some (b, f) → ¬ ((parseHdr b).cls = 0 ∧ (parseHdr b).typ = 0) → ∃ t,
      exec (.flitReceive p slot pos q bytes) s = .next t ∧
      (s.sownOk p = true → onlyPorts s t [p] ∧ s.sameRegsBut t [fFAB_CORR_COUNT p.val |>.off] ∧ (t.fport p).badRun = 0 ∧
        (f = true → s.fld (fFAB_CORR_COUNT p.val) + 1 < 2 ^ 64 → t.fld (fFAB_CORR_COUNT p.val) = s.fld (fFAB_CORR_COUNT p.val) + 1) ∧
        (f = false → t.fld (fFAB_CORR_COUNT p.val) = s.fld (fFAB_CORR_COUNT p.val)) ∧
        (∀ m, x.missing.find? (fun m => m.seq == (parseHdr b).seq) = some m → (t.fport p).rxSeq = x.rxSeq ∧
          (t.fport p).missing = x.missing ∧ (t.fport p).ctrlQ = x.ctrlQ ∧
          (t.fport p).elastic = if x.elastic.any (fun y => y.seq == (parseHdr b).seq && y.miss.isSome && y.bytes.isSome) then x.elastic else
            x.elastic ++ [{ slot := slot + x.dsOn, pos := pos.val, seq := (parseHdr b).seq, bytes := some b, miss := some m }]) ∧
        (x.missing.find? (fun m => m.seq == (parseHdr b).seq) = none →
          (seqBefore (parseHdr b).seq x.rxSeq = true → t.fport p = { x with badRun := 0 }) ∧
          (seqBefore (parseHdr b).seq x.rxSeq = false → (t.fport p).rxSeq = ((parseHdr b).seq + 1) % 1024 ∧
            (t.fport p).elastic = x.elastic ++ [{ slot := slot + x.dsOn, pos := pos.val, seq := (parseHdr b).seq, bytes := some b, miss := none }] ∧
            ((parseHdr b).seq = x.rxSeq → (t.fport p).missing = x.missing ∧ (t.fport p).ctrlQ = x.ctrlQ) ∧
            ∀ k, k < ((parseHdr b).seq + 1024 - x.rxSeq) % 1024 → (∃ m ∈ (t.fport p).missing, m.seq = (x.rxSeq + k) % 1024) ∧
              (x.missing.all (fun m => decide (m.seq ≠ (x.rxSeq + k) % 1024)) = true → named (t.fport p) ((x.rxSeq + k) % 1024))))) ∧
      (s.sownOk p = false → x.missing = [] → x.holdRx = [] → (parseHdr b).cls = 2 → (parseHdr b).seq = x.rxSeq →
        onlyPorts s t [p] ∧ t.fport p = { x with badRun := 0, rxSeq := (x.rxSeq + 1) % 1024 })) ∧
    (checkFlit bytes = none → ∃ t, exec (.flitReceive p slot pos q bytes) s = .next t ∧
      (15 ≤ x.badRun → t.portState p.val = 2 ∧ leftActive s t p) ∧
      (x.badRun < 15 → s.sownOk p = true → x.rxSeq = q.val → (∀ m ∈ x.missing, m.seq ≠ q.val) → onlyPorts s t [p] ∧
        s.sameRegsBut t [fFAB_DISCARD_COUNT p.val |>.off] ∧ (t.fport p).badRun = x.badRun + 1 ∧
        (s.fld (fFAB_DISCARD_COUNT p.val) + 1 < 2 ^ 64 → t.fld (fFAB_DISCARD_COUNT p.val) = s.fld (fFAB_DISCARD_COUNT p.val) + 1) ∧
        (t.fport p).rxSeq = (q.val + 1) % 1024 ∧ (∃ m ∈ (t.fport p).missing, m.seq = q.val) ∧ named (t.fport p) q.val ∧
        (t.fport p).elastic = x.elastic ++ [{ slot := slot + x.dsOn, pos := pos.val, seq := q.val, bytes := none, miss := none }])) ∧
    (∀ l, ∃ t, exec (.nakReceive p l) s = .next t ∧
      ((∀ k ∈ l.take 16, ∃ e ∈ x.replay, e.seq = k.toNat) → onlyPorts s t [p] ∧ t.regs = s.regs ∧
        t.fport p = { x with retx := x.retx ++ (((l.take 16).map (fun k => k.toNat)).filter (fun k =>
          x.retx.all (fun e => decide (e.1 ≠ k)))).map (fun k => (k, s.slot + 2)) }) ∧
      ((∃ k ∈ l.take 16, ∀ e ∈ x.replay, e.seq ≠ k.toNat) → t.portState p.val = 2 ∧ leftActive s t p)) ∧
    ∀ l, ∃ t, exec (.creditReceive p l) s = .next t ∧ onlyPorts s t [p] ∧ t.regs = s.regs ∧
      t.fport p = { x with credits := (t.fport p).credits } ∧
      ∀ i : Fin 16, (t.fport p).credits[i] = min 53 (x.credits[i] + l.getD i.val 0)

/-- Where one port alone is ACTIVE and owes no credits: its run's LOCAL stream fills position 0, before a retransmission;
without a run, a retransmission that is due goes first, then a control flit, then a volunteer flit against a credit; what is
left carries IDLE with the SEQ that comes next. A flit sent for the first time takes the next SEQ and enters the replay
buffer; one sent again keeps its SEQ; a volunteer flit that leaves frees its place in the receive buffer, whose credit is
owed on the port it came from; without a credit it stays. Each flit is on the wire the bytes of the four lanes, with its SEQ
and its CRC, scrambled. What it states beyond the rules is the choice of the model: log entries 46, 54. [06_fabric_links.md:
flits and lanes (R149), scrambling (R152), order of positions (R153, R154), SEQ and replay buffer (R155), credits (R166);
05_deterministic_schedule.md: streams and runs (R128)] -/
def Obligations.SlotTransmission : Prop :=
  ∀ (s : State) (p : Fin 24), s.portUp p = true → (∀ q, q ≠ p → s.portUp q = false) → s.fab.nextTx ≤ s.slot → s.sch.tb.toNat % 8 = 0 →
    (s.fport p).owed = Vector.replicate 16 0 → (s.fport p).late = [] → (s.fport p).replay.length < 1023 →
    let x := s.fport p
    let flit (pos seq : Nat) (f : Flit) : Out := .flit p.val s.slot pos (s.onWire p s.slot pos seq f)
    let idle (pos seq : Nat) : Out := flit pos seq (.ctrl .idle)
    let sent (t : State) (o : List Out) : Prop := exec .slotTransmit s = .next t ∧ t.out = o ++ s.out ∧ t.fab.nextTx = s.slot + 1 ∧
      t = { s with out := t.out, fab := t.fab, sch := t.sch, regs := t.regs } ∧ (∀ q, q ≠ p → t.fport q = s.fport q)
    let nxt := (x.txSeq + 1) % 1024
    (s.runAt p s.slot = none →
      (x.retx = [] → x.ctrlQ = [] → x.volQ = [] → ∃ t, sent t [idle 1 x.txSeq, idle 0 x.txSeq] ∧ t.fport p = x ∧ t.regs = s.regs) ∧
      (∀ k f e, x.retx = [(k, f)] → f ≤ s.slot → x.replay.find? (fun y => y.seq == k) = some e → e.flit.isSown = false → x.volQ = [] →
        ∀ c, x.ctrlQ = [c] → c.slot ≤ s.slot → (c.src ≠ 24 ∨ s.ownFree = true) → ∃ t,
          sent t [flit 1 x.txSeq (s.stamped c.flit), flit 0 k e.flit] ∧ (t.fport p).txSeq = nxt ∧ (t.fport p).ctrlQ = [] ∧
          (t.fport p).retx = [] ∧ (∃ y ∈ (t.fport p).replay, y.seq = x.txSeq ∧ y.flit = s.stamped c.flit) ∧ t.regs = s.regs) ∧
      (∀ c, x.retx = [] → x.ctrlQ = [] → x.volQ = [c] → c.src ≤ 24 → (c.src = 24 → s.ownFree = true) → c.slot ≤ s.slot →
        x.rrIn[volPair c / 2 % 8].2 = false → volPair c < 16 →
        (1 ≤ x.credits[volPair c % 16] → ∃ t, exec .slotTransmit s = .next t ∧ t.out = [idle 1 nxt, flit 0 x.txSeq c.flit] ++ s.out ∧
          t = { s with out := t.out, fab := t.fab } ∧ t.fab.nextTx = s.slot + 1 ∧ (t.fport p).txSeq = nxt ∧
          (t.fport p).volQ = [] ∧ (t.fport p).credits[volPair c % 16] = x.credits[volPair c % 16] - 1 ∧
          (∀ q, q ≠ p → t.fport q = { s.fport q with owed := (t.fport q).owed }) ∧
          ∀ (q : Fin 24) (i : Fin 16), (t.fport q).owed[i] = (s.fport q).owed[i] + (if q.val = c.src ∧ i.val = c.inPair then 1 else 0)) ∧
        (x.credits[volPair c % 16] = 0 → ∃ t, sent t [idle 1 x.txSeq, idle 0 x.txSeq] ∧ (t.fport p).volQ = [c] ∧ (t.fport p).txSeq = x.txSeq))) ∧
    (∀ e r w n k f y, s.sch.epoch = some e → s.runAt p s.slot = some r → r.kind = 1 → r.flits = 1 → e.blk.streams[r.stream]? = some w →
      e.sent[r.stream]? = some n → n < strmFlits w → s.accessSt (w.src + 304 * n) (min 304 (w.len - 304 * n)) = .ok →
      x.retx = [(k, f)] → f ≤ s.slot → x.replay.find? (fun y => y.seq == k) = some y → y.flit.isSown = false → x.ctrlQ = [] → x.volQ = [] →
      ∃ t, sent t [flit 1 k y.flit,
        flit 0 x.txSeq (.sown (sownFlit w n (s.bytes (w.src + 304 * n) (min 304 (w.len - 304 * n)))))] ∧
        (t.fport p).txSeq = nxt ∧ ∃ o, t.sch.epoch = some o ∧ o.sent = e.sent.set r.stream (n + 1))

/-- A sown flit that leaves the elastic buffer of a port that carries sown traffic while an epoch is open, not being missing
before: one dealt to a TRANSIT run waits to leave 2 slots later on the run's port; a local one with OP 0 for this device is
written at its address, and when it is both FIRST and LAST of its stream its signal target is added 1; a local one for
another device or of OP 3 is discarded, counted in FAB_MISROUTE and flagged. While no epoch is open a sown flit is discarded
and counted. An uncorrectable flit that is dealt leaves its output port recorded with its SEQ. What it states beyond the
rules is the choice of the model: log entries 40, 50. [06_fabric_links.md: sown traffic (R159 to R163, R496)] -/
def Obligations.SownArrival : Prop :=
  ∀ (s : State) (p : Fin 24) (e : Elastic) (l : List Elastic) (ecc : EccOutcome), (s.fport p).elastic = e :: l →
    8 * e.slot ≤ s.sch.tb.toNat → (s.fport p).holdRx = [] →
    (∀ b, e.bytes = some b → (parseHdr b).cls = 1 → s.fld (fFAB_PORT_STATUS_VERSION p.val) = 3 → e.miss = none →
      (s.epochSlot = none → ∃ t, exec (.flitRelease p ecc .ok) s = .next t ∧ onlyPorts s t [p] ∧
        t.fport p = { s.fport p with elastic := l } ∧ s.sameRegsBut t [fFAB_DISCARD_COUNT p.val |>.off] ∧
        (s.fld (fFAB_DISCARD_COUNT p.val) + 1 < 2 ^ 64 → t.fld (fFAB_DISCARD_COUNT p.val) = s.fld (fFAB_DISCARD_COUNT p.val) + 1)) ∧
      (∀ o, s.epochSlot = some o → s.sownOk p = true → o ≤ e.slot - (s.fport p).dsOn →
        (∀ q k, q < 24 → q ≠ p.val → dealTo s.transit.1 p.val s.transit.2 e.slot e.pos = some (q, k) → ∃ t,
          exec (.flitRelease p ecc .ok) s = .next t ∧ onlyPorts s t [p, Fin.ofNat 24 q] ∧ t.regs = s.regs ∧
          t.fport p = { s.fport p with elastic := l } ∧
          t.fport (Fin.ofNat 24 q) = { s.fport (Fin.ofNat 24 q) with fwd := (s.fport (Fin.ofNat 24 q)).fwd ++ [(e.slot + 2, k, b)] }) ∧
        (dealTo s.transit.1 p.val s.transit.2 e.slot e.pos = none → s.fab.resetting = false →
          ((parseHdr b).dst ≠ s.devNum ∨ (parseHdr b).op = 3 → ∃ t, exec (.flitRelease p ecc .ok) s = .next t ∧ onlyPorts s t [p] ∧
            t.fport p = { s.fport p with elastic := l } ∧ s.sameRegsBut t [fFAB_MISROUTE_COUNT.off, fFAB_ERR_MISROUTE.off] ∧
            t.fld fFAB_MISROUTE_COUNT = min (s.fld fFAB_MISROUTE_COUNT + 1) (2 ^ 32 - 1) ∧ t.flag fFAB_ERR_MISROUTE = true) ∧
          (∀ r, (parseHdr b).dst = s.devNum → (parseHdr b).op = 0 → 1 ≤ (parseHdr b).plen → (parseHdr b).plen ≤ 19 → b.length = 316 →
            s.region? (parseHdr b).addr (16 * (parseHdr b).plen) = some r → r ≠ .log →
            s.accessSt (parseHdr b).addr (16 * (parseHdr b).plen) = .ok →
            s.writeHeld (parseHdr b).addr (16 * (parseHdr b).plen) (.port p) = false → s.ckp.held = [] → s.ckp.adds = [] →
            ∃ t, exec (.flitRelease p .ok .ok) s = .next t ∧
              t = { s with mem := t.mem, scratch := t.scratch, pavs := t.pavs, regs := t.regs, fab := t.fab, sch := t.sch, log := t.log,
                           out := t.out, que := t.que, hif := t.hif } ∧
              ((parseHdr b).first = true → (parseHdr b).last = true →
                alook (64 * (parseHdr b).lpav + (parseHdr b).sem) s.fab.comps = none →
                s.wrote t (parseHdr b).addr ((b.drop 12).take (16 * (parseHdr b).plen)) ∧ t.fab.comps = s.fab.comps ∧
                ∀ g, s.phys? (parseHdr b).lpav = some g → ∀ j : Fin 64, ((t.pav g).sems[j].toNat : Int) =
                  if j.val = (parseHdr b).sem then min 0xFFFFFFFF ((s.pav g).sems[j].toNat + 1) else (s.pav g).sems[j].toNat) ∧
              ((parseHdr b).first = true → (parseHdr b).last = false →
                alook (64 * (parseHdr b).lpav + (parseHdr b).sem) s.fab.comps = none →
                s.wrote t (parseHdr b).addr ((b.drop 12).take (16 * (parseHdr b).plen)) ∧ t.pavs = s.pavs ∧
                ∃ c, alook (64 * (parseHdr b).lpav + (parseHdr b).sem) t.fab.comps = some c ∧ c.first = some (parseHdr b).addr ∧
                  c.last = none ∧ c.sum = 16 * (parseHdr b).plen ∧ c.clash = false))))) ∧
    (e.bytes = none → ∃ t, exec (.flitRelease p ecc .ok) s = .next t ∧ onlyPorts s t [p] ∧ t.regs = s.regs ∧ (t.fport p).elastic = l ∧
      ∀ q k, e.miss = none → dealTo s.transit.1 p.val s.transit.2 e.slot e.pos = some (q, k) →
        (t.fport p).missing = (s.fport p).missing.map (fun m => if m.seq = e.seq then { m with dealt := some q } else m))

/-- The ports are as they were but for the credits owed on port `p`: `n` flits have left the receive buffer of a pair there (R166). -/
def freedBuf (s t : State) (p : Fin 24) (pair n : Nat) : Prop :=
  (∀ q : Fin 24, t.fport q = { s.fport q with owed := (t.fport q).owed }) ∧
    ∀ (q : Fin 24) (i : Fin 16), (t.fport q).owed[i] = (s.fport q).owed[i] + (if q = p ∧ i.val = pair then n else 0)

/-- A packet or message whose routing entry is not VALID, or is found uncorrectable, is discarded, counted in FAB_DISCARD of its
port and flagged NO_ROUTE. A LOCAL one is judged by its source's generation: another than the known one is counted in
FAB_STALE, one for each flit, and an unknown source's becomes known. A packet that ends here leaves its receive buffer, and
the credits of its flits are owed. Otherwise a packet's flits queue on the set bit of PORTMASK that PATH names, in lane HI
when the entry has DATELINE, and a message queues on CTRL_PORT. A GEN notice with a generation that is not the known one
becomes it, forgets the origin's notice numbers, and floods on; one with the known generation is discarded. What it states
beyond the rules is the choice of the model: log entries 51, 52, 55. [06_fabric_links.md: lanes and classes (R165), routing
(R167), generations (R178); 17_errors_and_logging.md: tables (R460)] -/
def Obligations.Routing : Prop :=
  ∀ (s : State) (p : Fin 24) (k : VolPacket) (m : RoutedMsg) (n : Notice), s.portUp p = true →
    let nk := (volFlits k k.hi).length
    let nm := (routedFlits m).length
    (∀ c ∈ [(Instr.volunteerPacketReceive p k .ok, k.dst.val, k.src.val, k.gen, nk, nk), (.routedMessageReceive p m, m.dst.val, m.src.val, m.gen, nm, 0)],
      ∃ t, exec c.1 s = .next t ∧ (bitOf (s.rtEntry c.2.1) 31 = false ∨ bitOf (s.rtEntry c.2.1) 30 = true →
        t = { s with regs := t.regs, fab := t.fab } ∧ freedBuf s t p (2 * k.vc.val + b2n k.hi) c.2.2.2.2.2) ∧
      (bitOf (s.rtEntry c.2.1) 31 = false → s.sameRegsBut t [fFAB_DISCARD_COUNT p.val |>.off, fFAB_ERR_NO_ROUTE.off] ∧
        t.flag fFAB_ERR_NO_ROUTE = true ∧
        (s.fld (fFAB_DISCARD_COUNT p.val) + 1 < 2 ^ 64 → t.fld (fFAB_DISCARD_COUNT p.val) = s.fld (fFAB_DISCARD_COUNT p.val) + 1)) ∧
      (bitOf (s.rtEntry c.2.1) 31 = true → bitOf (s.rtEntry c.2.1) 30 = true → s.fab.resetting = false →
        (s.flag (fFAB_GEN_KNOWN c.2.2.1) = true → s.fld (fFAB_GEN_GEN c.2.2.1) ≠ c.2.2.2.1.toNat →
          s.sameRegsBut t [fFAB_STALE_COUNT p.val |>.off] ∧
          t.fld (fFAB_STALE_COUNT p.val) = min (s.fld (fFAB_STALE_COUNT p.val) + c.2.2.2.2.1) (2 ^ 32 - 1)) ∧
        (s.flag (fFAB_GEN_KNOWN c.2.2.1) = true → s.fld (fFAB_GEN_GEN c.2.2.1) = c.2.2.2.1.toNat → t.regs = s.regs) ∧
        (s.flag (fFAB_GEN_KNOWN c.2.2.1) = false → t.flag (fFAB_GEN_KNOWN c.2.2.1) = true ∧
          t.fld (fFAB_GEN_GEN c.2.2.1) = c.2.2.2.1.toNat ∧ s.sameRegsBut t [fFAB_GEN_GEN c.2.2.1 |>.off]))) ∧
    (bitOf (s.rtEntry k.dst.val) 31 = true → bitOf (s.rtEntry k.dst.val) 30 = false → ∀ o : Fin 24,
      (maskPorts (s.rtEntry k.dst.val % 2 ^ 24))[k.path.toNat % (maskPorts (s.rtEntry k.dst.val % 2 ^ 24)).length]? = some o →
      ∃ t, exec (.volunteerPacketReceive p k .ok) s = .next t ∧ onlyPorts s t [o] ∧ t.regs = s.regs ∧
        t.fport o = { s.fport o with volQ := (s.fport o).volQ ++ (volFlits k (k.hi || bitOf (s.rtEntry k.dst.val) 29)).map (fun b =>
          { flit := .vol b, slot := s.slot, src := p.val, inPair := 2 * k.vc.val + b2n k.hi }) }) ∧
    (bitOf (s.rtEntry m.dst.val) 31 = true → bitOf (s.rtEntry m.dst.val) 30 = false → ∀ o : Fin 24,
      s.rtEntry m.dst.val / 2 ^ 24 % 32 = o.val → ∃ t, exec (.routedMessageReceive p m) s = .next t ∧ onlyPorts s t [o] ∧
        t.regs = s.regs ∧ t.fport o = { s.fport o with ctrlQ := (s.fport o).ctrlQ ++ (routedFlits m).map (fun f =>
          { flit := .ctrl f, slot := s.slot, src := p.val }) }) ∧
    (∃ t, exec (.volunteerPacketReceive p k .ue) s = .next t ∧ t.rtEntry k.dst.val = 0 ∧ t.flag fLOG_ERR_DEV_UE = true ∧
      t.flag fFAB_ERR_NO_ROUTE = true ∧ freedBuf s t p (2 * k.vc.val + b2n k.hi) nk ∧ (∀ d, d ≠ k.dst.val → t.rtEntry d = s.rtEntry d)) ∧
    (s.portV3 p.val = true →
      (s.flag (fFAB_GEN_KNOWN n.origin.val) = true → s.fld (fFAB_GEN_GEN n.origin.val) = n.gen.toNat → exec (.genNoticeRx p n) s = .next s) ∧
      (s.flag (fFAB_GEN_KNOWN n.origin.val) = false ∨ s.fld (fFAB_GEN_GEN n.origin.val) ≠ n.gen.toNat → ∃ t,
        exec (.genNoticeRx p n) s = .next t ∧ t.flag (fFAB_GEN_KNOWN n.origin.val) = true ∧
        t.fld (fFAB_GEN_GEN n.origin.val) = n.gen.toNat ∧ t.pavs = s.pavs ∧ (∀ kind, alook (n.origin.val, kind) t.sch.seenNum = none) ∧
        (∀ d kind, d ≠ n.origin.val → alook (d, kind) t.sch.seenNum = alook (d, kind) s.sch.seenNum) ∧
        ∀ q : Fin 24, t.fab.ports[q] = { s.fab.ports[q] with ctrlQ := s.fab.ports[q].ctrlQ ++
          (if s.portV3 q.val = true ∧ q ≠ p then [{ flit := .ctrl (.notice 4 n), slot := s.slot + 2 }] else []) }))

/-- A GDDR7 request within the populated range answers the bytes it reads, or writes its lines, with its repeats counted; a
write that copy-before-write holds has no answer yet; an uncorrectable error, in the memory or in a controller buffer, or a
fifth CRC failure, is answered DATA_ERROR, flagged, recorded in MEM_UE_ADDR, logged, and faults the epoch with cause DATA in
sown work; while READY is 0 it is answered NOT_READY. A CXL request to an ACTIVE port is served in the same way, poison
being counted in CXM_POISON; command work of a partition without credits is answered INVALID_STATE, and other command work
waits so that no more requests than the credits are outstanding, and a port that is not ACTIVE gives NOT_READY. A scrub
counts what it corrects. What it states beyond the rules is the choice of the model: log entries 57, 59, 62.
[08_memory_and_context.md: training (R218), CRC and ECC (R219), CXL (R222, R223), scrub (R217); 17_errors_and_logging.md:
memory errors (R459)] -/
def Obligations.MemoryRequests : Prop :=
  ∀ (s : State) (q : MemReq),
    (q.addr < s.gddrBytes → q.addr + q.len ≤ s.gddrBytes → s.flag fMEM_STATUS_READY = true → q.wr = none → q.bufUe = false → q.crcFails ≤ 4 → q.ecc = .ok →
      ∃ t, exec (.memRequest q) s = .next t ∧ t = { s with regs := t.regs, out := .memRsp .ok (s.bytes q.addr q.len) :: s.out } ∧
        s.sameRegsBut t [(fMEM_CRC_RETRY_COUNT (gddrGroup q.addr)).off] ∧ t.fld (fMEM_CRC_RETRY_COUNT (gddrGroup q.addr)) =
          min (s.fld (fMEM_CRC_RETRY_COUNT (gddrGroup q.addr)) + q.crcFails) (2 ^ 32 - 1)) ∧
    (∀ b, q.wr = some b → q.addr < s.gddrBytes → q.addr + b.length ≤ s.gddrBytes → s.flag fMEM_STATUS_READY = true → q.addr % 64 = 0 →
      b.length % 64 = 0 → q.crcFails ≤ 4 → ∃ t, exec (.memRequest q) s = .next t ∧
        (q.bufUe = false → s.writeHeld q.addr b.length = false →
          t = { s with mem := t.mem, regs := t.regs, out := .memRsp .ok [] :: s.out } ∧ s.wrote t q.addr b) ∧
        (q.bufUe = false → s.writeHeld q.addr b.length = true → t.mem = s.mem ∧ t.scratch = s.scratch ∧ t.out = s.out ∧
          t.ckp.held = s.ckp.held ++ [{ addr := q.addr, data := b, sown := q.sown, owner := .rsp }]) ∧
        (q.bufUe = true → q.sown = false → t.pavs = s.pavs ∧ t.fld fMEM_UE_ADDR_ADDR = q.addr / 64 * 64 ∧
          t.flag fMEM_ERR_UE = true ∧ t.out.head? = some (.memRsp .dataError []))) ∧
    (q.addr < s.gddrBytes → q.addr + q.len ≤ s.gddrBytes → s.flag fMEM_STATUS_READY = true → q.wr = none →
      (q.bufUe = true ∨ 5 ≤ q.crcFails ∨ q.ecc = .ue) → ∃ t, exec (.memRequest q) s = .next t ∧ t.pavs = s.pavs ∧ t.rdm = s.rdm ∧
        t.fld fMEM_UE_ADDR_ADDR = q.addr / 64 * 64 ∧ s.logged t 0x0003 blkMEM noPart .dataError 0 blkMEM (q.addr / 64 * 64) ∧
        (q.bufUe = false → 5 ≤ q.crcFails → t.flag fMEM_ERR_CRC_FAIL = true) ∧
        (q.bufUe = true ∨ q.crcFails ≤ 4 → t.flag fMEM_ERR_UE = true) ∧
        (q.sown = false → t.out.head? = some (.memRsp .dataError []) ∧ t.sch = s.sch) ∧
        (q.sown = true → s.running = true → s.sch.recorded = false → t.fld fSCH_FAULT_CAUSE = 5 ∧ t.sch.trs = s.replayTime :: s.sch.trs)) ∧
    (q.addr < s.gddrBytes → q.addr + q.len ≤ s.gddrBytes → s.flag fMEM_STATUS_READY = false → q.wr = none → q.sown = false →
      exec (.memRequest q) s = .next { s with out := .memRsp .notReady [] :: s.out }) ∧
    (∀ n b m, s.regionAt q.addr = some (.cxl n, b, m) → q.addr + q.len ≤ b + m → q.wr = none → s.gddrBytes ≤ q.addr →
      (∀ p, q.part = some p → q.sown = false → s.fld (fCXM_CREDIT_CREDITS p.val) = 0 →
        exec (.cxlRequest q) s = .next { s with out := .memRsp .invalidState [] :: s.out }) ∧
      ((q.part = none ∨ ∃ p, q.part = some p ∧ s.fld (fCXM_CREDIT_CREDITS p.val) ≠ 0) → q.sown = false → q.bufUe = false →
        ∃ t, exec (.cxlRequest q) s = .next t ∧
        t = { s with regs := t.regs, log := t.log, out := t.out, now := t.now, sch := { s.sch with tb := t.sch.tb, hold := t.sch.hold },
                     gmem := { s.gmem with cxl := t.gmem.cxl } } ∧
        (∀ p, q.part = some p → (t.cxlOut p).length ≤ s.fld (fCXM_CREDIT_CREDITS p.val)) ∧ (q.part = none → t.now = s.now) ∧
        (s.fld (fCXM_PORT_STATUS_STATE n) = 3 → q.ecc = .ok →
          t.out = .memRsp .ok (s.bytes q.addr q.len) :: s.out ∧ t.regs = s.regs ∧ t.log = s.log) ∧
        (s.fld (fCXM_PORT_STATUS_STATE n) = 3 → q.ecc = .ue →
          t.out = .memRsp .dataError [] :: s.out ∧ t.flag fCXM_ERR_POISON = true ∧
          t.fld (fCXM_POISON_COUNT n) = min (s.fld (fCXM_POISON_COUNT n) + 1) (2 ^ 32 - 1)) ∧
        (s.fld (fCXM_PORT_STATUS_STATE n) ≠ 3 → t.out = .memRsp .notReady [] :: s.out ∧ t.regs = s.regs ∧ t.log = s.log))) ∧
    (∀ a : BitVec 64, a.toNat < s.gddrBytes → s.flag fMEM_STATUS_READY = true →
      exec (.patrolScrub a .ok) s = .next s ∧
      (∃ t, exec (.patrolScrub a .ce) s = .next t ∧ t = { s with regs := t.regs, ckp := t.ckp } ∧ t.flag fMEM_ERR_CE = true ∧
        t.fld (fMEM_CE_COUNT (gddrGroup a.toNat)) = min (s.fld (fMEM_CE_COUNT (gddrGroup a.toNat)) + 1) (2 ^ 32 - 1)) ∧
      ∃ t, exec (.patrolScrub a .ue) s = .next t ∧ t.flag fMEM_ERR_UE = true ∧ t.fld fMEM_UE_ADDR_ADDR = a.toNat / 64 * 64 ∧ t.sch = s.sch)

/-- The end of a training sets READY, RATE 36, the devices found and FAST, which says that a saved record of these devices
served, saved within 15 °C; a fast start that fails is followed by a full training, and a full one that fails leaves READY
as it was. A keyed SAVE of a trained memory keeps its record. A refresh sets HOT while any group is above 85 °C; tracking
changes no state. ENABLE takes a CXL port that is DISABLED or FAILED to training; it becomes ACTIVE with CAP in units of 256
MiB, at most 4 TiB, when it trained as a Type 3 device, and FAILED otherwise. A port that leaves ACTIVE is flagged and
counted, and a migration from it ends TARGET_RESET; a record of its device is logged with kind 0x0005. A credit write that
makes the sum exceed 8,192 sets CFG_DROP and changes no credit; placement registers are written only while their partition
is FROZEN or UNASSIGNED, and CFG_DROP is set otherwise. What it states beyond the rules is the choice of the model: log
entries 58, 60, 61, 62, 152. [08_memory_and_context.md: training (R217, R218), CXL (R221 to R223), placement registers
(R226), registers (R242, R243)] -/
def Obligations.MemoryControl : Prop :=
  ∀ (s : State) (x : GddrX) (y : CxlX) (v : BitVec 32) (w : BitVec 64) (n : Fin 2) (p : Fin 65) (g : Fin 12) (d : Int),
    (∀ f u, s.gmem.training = some (f, u) →
      (x.ok = true → x.clamshell = false → ∃ t, exec (.gddr7TrainDone x) s = .next t ∧ t = { s with regs := t.regs, gmem := t.gmem } ∧
        s.sameRegsBut t [fMEM_CFG_RATE.off, fMEM_STATUS_READY.off] ∧ t.flag fMEM_STATUS_READY = true ∧ t.fld fMEM_CFG_RATE = 36 ∧
        t.fld fMEM_CFG_DEVICES = 24 ∧ t.flag fMEM_CFG_CLAMSHELL = false ∧ t.flag fMEM_STATUS_FAST = s.fastStart f x ∧
        t.flag fMEM_STATUS_HOT = decide (85 < x.celsius) ∧ t.gmem.training = none ∧ t.gmem.ident = x.ident ∧ t.gmem.saved = s.gmem.saved) ∧
      (x.ok = false → ∃ t, exec (.gddr7TrainDone x) s = .next t ∧ t = { s with gmem := t.gmem } ∧
        t.gmem = { s.gmem with training := if s.fastStart f x then some (false, s.now) else none })) ∧
    (v.toNat / 65536 = 0xA55A → bitOf v.toNat 1 = true → s.flag fMEM_STATUS_READY = true → ∃ t, exec (.memTrainSave v) s = .next t ∧
      t = { s with regs := t.regs, gmem := t.gmem } ∧ t.gmem = { s.gmem with saved := some (s.gmem.ident, s.gmem.temps[0]) } ∧
      t.fld fMEM_TRAIN_CTRL_FORCE_FULL = v.toNat % 2 ∧ s.sameRegsBut t [fMEM_TRAIN_CTRL_FORCE_FULL.off]) ∧
    (v.toNat / 65536 ≠ 0xA55A → exec (.memTrainSave v) s = .next s) ∧
    (s.flag fMEM_STATUS_READY = true → ∃ t, exec (.gddr7Refresh g d) s = .next t ∧ t = { s with regs := t.regs, gmem := t.gmem } ∧
      t.gmem = { s.gmem with temps := s.gmem.temps.set g d } ∧ s.sameRegsBut t [fMEM_STATUS_HOT.off] ∧ t.flag fMEM_STATUS_READY = true ∧
      (t.flag fMEM_STATUS_HOT = true ↔ 85 < d ∨ ∃ j : Fin 12, j ≠ g ∧ 85 < s.gmem.temps[j])) ∧
    exec (.gddr7Tracking g) s = .next s ∧
    (∀ c ∈ [Instr.cxlPortEnable n v, .cxlPortDisable n v], s.gated (s.skuField 12 2) (8 + n.val) = false → ∃ t, exec c s = .next t ∧
      t.flag (fCXM_PORT_CTRL_ENABLE n.val) = bitOf v.toNat 0 ∧ t.flag (fCXM_PORT_CTRL_LAT_OPT n.val) = bitOf v.toNat 1 ∧ t.pavs = s.pavs ∧
      t.fld (fCXM_PORT_STATUS_STATE n.val) = (if bitOf v.toNat 0 = false then 0 else if s.fld (fCXM_PORT_STATUS_STATE n.val) = 0 ∨
        s.fld (fCXM_PORT_STATUS_STATE n.val) = 4 then 1 else s.fld (fCXM_PORT_STATUS_STATE n.val)) ∧
      (bitOf v.toNat 0 = true ∨ s.fld (fCXM_PORT_STATUS_STATE n.val) ≠ 3 → t = { s with regs := t.regs })) ∧
    (s.fld (fCXM_PORT_STATUS_STATE n.val) = 1 ∨ s.fld (fCXM_PORT_STATUS_STATE n.val) = 2 → ∃ t, exec (.cxlPortActive n y) s = .next t ∧
      (y.trained = true → y.type3 = true → t.fld (fCXM_PORT_STATUS_STATE n.val) = 3 ∧
        t.fld (fCXM_PORT_STATUS_CAP n.val) = min (y.bytes / 0x10000000) 16384 ∧ s.logged t 0x0203 blkCXM 0 .ok 0 0 n.val) ∧
      (y.trained = false ∨ y.type3 = false → t = { s with regs := t.regs } ∧ t.fld (fCXM_PORT_STATUS_STATE n.val) = 4)) ∧
    (s.fld (fCXM_PORT_STATUS_STATE n.val) = 3 → ∃ t, exec (.cxlLinkDown n) s = .next t ∧ t.fld (fCXM_PORT_STATUS_STATE n.val) = 4 ∧
      t.flag fCXM_ERR_LINK_DOWN = true ∧ t.pavs = s.pavs ∧
      (s.gmem.svcRun = [] → s.gmem.migs = [] → s.logged t 0x0203 blkCXM 0 .targetReset 0 0 n.val) ∧
      t.fld (fCXM_LINK_DOWN_COUNT n.val) = min (s.fld (fCXM_LINK_DOWN_COUNT n.val) + 1) (2 ^ 32 - 1) ∧
      ∀ (id : Nat) (c : Cmd) (m : Mig), s.cmd? id = some c → c.done = none → c.op = 0x10 → m.cmd = id → s.gmem.svcRun = [] → s.gmem.migs = [m] →
        s.rdm.qps = [] → s.rdm.late = [] → (∃ z, s.regionAt m.src = some (.cxl n.val, z)) → t.ended id .targetReset 0 0 ∧ t.gmem.migs = []) ∧
    (s.fld (fCXM_PORT_STATUS_STATE n.val) = 3 → ∀ b : List Byte, ∀ e, ∃ t, exec (.cxlEventRecord n b e) s = .next t ∧
      t = { s with regs := t.regs, log := t.log, ckp := t.ckp } ∧ t.ckp = { s.ckp with ceCount := s.ckp.ceCount + e } ∧
      s.logged t 0x0005 blkCXM noPart .ok 0 n.val (fieldAt b 0 8)) ∧
    (v.toNat % 8192 ≤ 4096 → ∃ t, exec (.cxmCreditWrite p v) s = .next t ∧ t = { s with regs := t.regs } ∧
      if 8192 < ((List.finRange 65).map (fun q => if q = p then v.toNat % 8192 else s.fld (fCXM_CREDIT_CREDITS q.val))).sum then
        t.flag fCXM_ERR_CFG_DROP = true ∧ s.sameRegsBut t [fCXM_ERR_CFG_DROP.off]
      else t.fld (fCXM_CREDIT_CREDITS p.val) = v.toNat % 8192 ∧ s.sameRegsBut t [(fCXM_CREDIT_CREDITS p.val).off]) ∧
    (∃ t u, exec (.memPtWrite p false w) s = .next t ∧ exec (.memPtWrite p true w) s = .next u ∧ t = { s with regs := t.regs } ∧
      u = { s with regs := u.regs } ∧
      ((s.part p).st = .frozen ∨ (s.part p).st = .unassigned →
        (w.toNat % 64 = 0 → t.fld (fMEM_PT_BASE_BASE p.val) = w.toNat ∧ s.sameRegsBut t [(fMEM_PT_BASE_BASE p.val).off]) ∧
        (w.toNat % 2 ^ 32 ≤ 2 ^ 27 → u.fld (fMEM_PT_LEN_LEN p.val) = w.toNat % 2 ^ 32 ∧ s.sameRegsBut u [(fMEM_PT_LEN_LEN p.val).off])) ∧
      ((s.part p).st = .active ∨ (s.part p).st = .freezing ∨ (s.part p).st = .resetting → ∀ z ∈ [t, u],
        z.flag fMEM_ERR_CFG_DROP = true ∧ s.sameRegsBut z [fMEM_ERR_CFG_DROP.off]))

/-- Two ranges, address and length, do not overlap. -/
def apart (a n b m : Nat) : Prop := a + n ≤ b ∨ b + m ≤ a

/-- MIGRATE of a valid entry sets BUSY in one write, counted in ACTIVE; an entry that is BUSY ends it BUSY, a 17th migration
REFUSED_RESOURCE with detail 0x2800. Its completion copies the page and writes the new page number with BUSY 0 in one write,
or, after an uncorrectable error, clears BUSY, keeps the page and ends DATA_ERROR with MIG_FAIL set. CXM_SVC_MASK is written
only while no schedule is present, and its present pavilions are then loaded with the granary program. A free service
pavilion takes the request whose turn it is; a SEAL whose PAGE is not the sealed count ends INVALID_STATE, one beyond
PAGE_CAP REFUSED_RESOURCE, an ATTEND of more pages than are sealed INVALID_STATE. A SEAL writes its page and its summary
entry, and then the sealed count plus 1 for 64 tokens; an ATTEND writes its records, or ends DATA_ERROR with the page's low
11 bits for a page that is not sound. What it states beyond the rules is the choice of the model: log entries 63 to 69.
[08_memory_and_context.md: migration (R227, R228), granary (R229 to R234), service (R235), attention (R236 to R241)] -/
def Obligations.Granary : Prop :=
  ∀ (s : State) (id : Nat) (c : Cmd),
    (s.doing id 0x10 c → ∀ (p : Fin 65) (n dst src : Nat), p ≠ 0 → c.f 0 1 = p.val → c.f 4 4 = n → c.f 8 8 = dst →
      c.clean [at8 0 0 8, at8 4 0 32, at8 8 0 64] = true → s.migDst dst = true → n < s.fld (fMEM_PT_LEN_LEN p.val) →
      s.region? (s.ptAddr p n) 8 = some .gddr → s.flag fMEM_STATUS_READY = true → s.migSrc (s.ptEntry p n) = some src →
      (∀ m ∈ s.gmem.migs, m.cmd ≠ id) →
      (bitOf (s.ptEntry p n) 61 = true → ∃ t, exec (.migrate id) s = .next t ∧ s.onlyCmd t id ∧ t.ended id .busy 0 0) ∧
      (bitOf (s.ptEntry p n) 61 = false → 16 ≤ s.gmem.migs.length → ∃ t, exec (.migrate id) s = .next t ∧ s.onlyCmd t id ∧
        t.ended id .refusedResource 0x2800 0) ∧
      (bitOf (s.ptEntry p n) 61 = false → s.gmem.migs.length < 16 → s.usable 0 [(src, 0x200000), (dst, 0x200000)] = .ok →
        s.writeHeld (s.ptAddr p n) 8 = false → ∃ t, exec (.migrate id) s = .next t ∧
          t = { s with mem := t.mem, regs := t.regs, gmem := t.gmem } ∧ s.onlyBytes t (s.ptAddr p n) 8 ∧
          t.ptEntry p n = s.ptEntry p n + 2 ^ 61 ∧ t.fld fCXM_MIG_STATUS_ACTIVE = s.gmem.migs.length + 1 ∧
          t.gmem.migs = s.gmem.migs ++ [{ cmd := id, part := p.val, entry := s.ptAddr p n, src := src, dst := dst }])) ∧
    (s.doing id 0x10 c → ∀ m, s.gmem.migs.find? (fun m => m.cmd = id) = some m → s.rdm.qps = [] → s.rdm.late = [] →
      s.region? m.entry 8 = some .gddr → s.writeHeld m.entry 8 = false →
      (s.region? m.dst 0x200000 = some .gddr → m.dst % 0x200000 = 0 → s.writeHeld m.dst 0x200000 = false →
        (m.entry + 8 ≤ m.dst ∨ m.dst + 0x200000 ≤ m.entry) → ∃ t, exec (.migrateComplete id none) s = .next t ∧ t.ended id .ok 0 0 ∧
          t.bytes m.dst 0x200000 = s.bytesHeld m.src 0x200000 ∧ bitOf (t.readN m.entry 8) 61 = false ∧
          bitsOf (t.readN m.entry 8) 0 29 = m.dst / 0x200000 % 2 ^ 29 ∧ bitsOf (t.readN m.entry 8) 62 2 = bitsOf (s.readN m.entry 8) 62 2 ∧
          t.gmem.migs = s.gmem.migs.filter (fun x => decide (x.cmd ≠ id))) ∧
      ∀ a : BitVec 64, a.toNat < s.gddrBytes → ∃ t, exec (.migrateComplete id (some a)) s = .next t ∧
        t.ended id .dataError 0 0 ∧ t.flag fCXM_ERR_MIG_FAIL = true ∧ t.gmem.migs = s.gmem.migs.filter (fun x => decide (x.cmd ≠ id))) ∧
    (∀ k v, ∃ t, exec (.cxmSvcMaskWrite k v) s = .next t ∧
      (s.schedPresent = true → t = { s with regs := t.regs } ∧ t.flag fCXM_ERR_CFG_DROP = true ∧ s.sameRegsBut t [fCXM_ERR_CFG_DROP.off]) ∧
      (s.schedPresent = false → t.fld (if k = 0 then fCXM_SVC_MASK0_BITS else fCXM_SVC_MASK1_BITS) = v.toNat ∧
        ∀ l, l < 128 → (t.service l = true ∧ s.present l = true ↔ ∃ d ∈ t.ldg.loads, d.svc = true ∧ d.lpav = l))) ∧
    (s.svcFree? = none → exec .serviceRequestStart s = .next s) ∧
    (∀ l p q cls, s.svcFree? = some l → s.chooseBy s.svcSqs s.que.rrSvc = some (p, q, cls) → s.svcOf p q = some c → s.cmd? c.id = some c →
      c.done = none → ∃ t, exec .serviceRequestStart s = .next t ∧ t.mem = s.mem ∧ t.scratch = s.scratch ∧ t.regs = s.regs ∧
      (∀ x b, c.op = 0x02 → s.sealOf c = .ok x → s.partRead c.p (x.1.sealedAt x.2.1) 4 = .ok b →
        (x.2.2.1 ≠ leNat b → t.ended c.id .invalidState 0 0 ∧ t.gmem = s.gmem) ∧
        (x.2.2.1 = leNat b → x.1.cap ≤ x.2.2.1 → t.ended c.id .refusedResource 0x2800 0 ∧ t.gmem = s.gmem) ∧
        (x.2.2.1 = leNat b → x.2.2.1 < x.1.cap → t.gmem.svcRun = s.gmem.svcRun ++ [(c.id, l)])) ∧
      (∀ a b, c.op = 0x03 → s.attOf c = .ok a → s.partRead c.p (a.g.sealedAt a.stream) 4 = .ok b →
        (leNat b < a.pages → t.ended c.id .invalidState 0 0 ∧ t.gmem = s.gmem) ∧
        (a.pages ≤ leNat b → t.gmem.svcRun = s.gmem.svcRun ++ [(c.id, l)]))) ∧
    (s.doing id 0x02 c → (∃ l, (id, l) ∈ s.gmem.svcRun) → c.part = 0 → ∀ x src, s.sealOf c = .ok x →
      s.partRead 0 (c.f 8 8) x.1.pageBytes = .ok src →
      s.partRanges 0 (x.1.pageAt x.2.1 x.2.2.1) x.1.pageBytes = .ok [(x.1.pageAt x.2.1 x.2.2.1, x.1.pageBytes)] →
      s.partRanges 0 (x.1.sumAt x.2.1 x.2.2.1) x.1.sumBytes = .ok [(x.1.sumAt x.2.1 x.2.2.1, x.1.sumBytes)] →
      s.partRanges 0 (x.1.sealedAt x.2.1) 4 = .ok [(x.1.sealedAt x.2.1, 4)] →
      apart (x.1.pageAt x.2.1 x.2.2.1) x.1.pageBytes (x.1.sumAt x.2.1 x.2.2.1) x.1.sumBytes → apart (x.1.pageAt x.2.1 x.2.2.1) x.1.pageBytes
        (x.1.sealedAt x.2.1) 4 → apart (x.1.sumAt x.2.1 x.2.2.1) x.1.sumBytes (x.1.sealedAt x.2.1) 4 → x.2.2.2 ≤ 64 →
      s.plainAt (x.1.pageAt x.2.1 x.2.2.1) x.1.pageBytes → s.plainAt (x.1.sumAt x.2.1 x.2.2.1) x.1.sumBytes → s.plainAt (x.1.sealedAt x.2.1) 4 →
      ∀ ln, ∃ t, exec (.seal id .ok ln) s = .next t ∧ t.ended id .ok 0 0 ∧ t = { s with mem := t.mem, scratch := t.scratch, que := t.que, gmem := t.gmem } ∧
        t.bytes (x.1.pageAt x.2.1 x.2.2.1) x.1.pageBytes = x.1.trim src x.2.2.2 ∧
        t.bytes (x.1.sumAt x.2.1 x.2.2.1) x.1.sumBytes = x.1.sumEntry x.2.2.1 x.2.2.2 (c.f 16 8) (x.1.trim src x.2.2.2) ∧
        t.readN (x.1.sealedAt x.2.1) 4 = (if x.2.2.2 = 64 then (x.2.2.1 + 1) % 2 ^ 32 else s.readN (x.1.sealedAt x.2.1) 4) ∧
        ∀ l, (id, l) ∉ t.gmem.svcRun) ∧
    (s.doing id 0x03 c → (∃ l, (id, l) ∈ s.gmem.svcRun) → c.part = 0 → c.f 24 8 = 0 → ∀ a r, s.attOf c = .ok a → s.attend c a = .ok r →
      (∀ i ln, r = .error i → ∃ t, exec (.attend id .ok ln) s = .next t ∧ t.ended id .dataError (0x2800 + i % 2048) 0 ∧
        t.mem = s.mem ∧ t.scratch = s.scratch) ∧
      ∀ recs ids, r = .ok (recs, ids) → s.partRanges 0 (c.f 16 8) recs.length = .ok [(c.f 16 8, recs.length)] →
        ∀ ln, ∃ t, exec (.attend id .ok ln) s = .next t ∧ t.ended id .ok 0 0 ∧ s.wrote t (c.f 16 8) recs ∧ t.regs = s.regs)

/-- Sheaf `x` has ended with a status and a detail (R252): no sheaf is open, every held write has been made, CKP_LAST and the
count say how it ended, its command has ended, and the event has its entry. -/
def sheafOver (s t : State) (x : Sheaf) (st : Status) (detail : Nat) : Prop :=
  t.ckp.sheaf = none ∧ t.ckp.held = [] ∧ t.ckpPhase = 0 ∧ t.fld fCKP_LAST_STATUS = statusCode st ∧ t.fld fCKP_LAST_DETAIL = detail ∧
    (s.ckp.adds = [] → t.pavs = s.pavs) ∧ s.logged t 0x0201 blkCKP 0 st detail 0 x.id ∧ (st ≠ .ok → t.flag fCKP_ERR_ABANDONED = true) ∧
    (if st = .ok then t.fld fCKP_COMMITS_COUNT = min (s.fld fCKP_COMMITS_COUNT + 1) (2 ^ 32 - 1)
      else t.fld fCKP_ABANDONS_COUNT = min (s.fld fCKP_ABANDONS_COUNT + 1) (2 ^ 32 - 1)) ∧
    ∀ id c, x.cmd = some id → s.cmd? id = some c → c.done = none → t.ended id st detail 0

/-- SHEAF ends with its descriptor's status, INVALID_STATE without the bases, or BUSY while the phase is not IDLE; else it waits
for a commit, or takes its snapshot at once with the intent record at MAN_LOC. A diversion leaves the granule's old bytes in
its slot and lets the held write go on, whose requester is answered then; one whose source read fails abandons the sheaf
with DATA; the background copy captures a granule and counts its input bytes; a captured granule's slot frees. The next
shard is written behind zeros to a multiple of 4,096, or the sheaf is abandoned with SPACE or DEST; when all are durable the
phase is SEALING, and a durable manifest commits with OK. The stall allowance, a bad source read, and a keyed ABANDON
abandon it with their causes. A trigger that may not start a sheaf is counted and flagged; a window's end restarts the
count. What it states beyond the rules is the choice of the model: log entries 70 to 75, 77, 78. [09_checkpoint_sheaves.md:
acceptance (R244, R248, R249), phases and ends (R250 to R252), triggers (R253), copy-before-write (R254 to R256);
09_checkpoint_sheaves.md: shards (R259 to R265), manifest (R266 to R268), registers (R275)] -/
def Obligations.Sheaves : Prop :=
  ∀ (s : State) (id : Nat) (c : Cmd) (x : Sheaf),
    (s.doing id 0x11 c → c.clean [at8 0 0 64] = true → (∀ y, s.ckp.sheaf = some y → y.cmd ≠ some id) →
      (∀ st, s.readSheaf (c.f 0 8) (some id) 0 none = .fail st → ∃ t, exec (.sheaf id) s = .next t ∧ s.onlyCmd t id ∧ t.ended id st 0 0) ∧
      (s.readSheaf (c.f 0 8) (some id) 0 none = .ok x →
        (s.fld fCKP_RES_BASE_BASE = 0 ∨ s.fld fCKP_WORK_BASE_BASE = 0 → ∃ t, exec (.sheaf id) s = .next t ∧ s.onlyCmd t id ∧
          t.ended id .invalidState 0 0) ∧
        (s.fld fCKP_RES_BASE_BASE ≠ 0 → s.fld fCKP_WORK_BASE_BASE ≠ 0 →
          (s.ckpPhase ≠ 0 → ∃ t, exec (.sheaf id) s = .next t ∧ s.onlyCmd t id ∧ t.ended id .busy 0 0) ∧
          (s.ckpPhase = 0 → s.run = 1 → s.sheafNow (c.f 0 8) = false → ∃ t, exec (.sheaf id) s = .next t ∧
            t = { s with regs := t.regs, ckp := t.ckp } ∧ t.ckp = { s.ckp with sheaf := some x } ∧ t.ckpPhase = 1 ∧
            t.fld fCKP_SHEAF_ID_ID = x.id % 2 ^ 64 ∧ t.flag fCKP_STATE_AUTO = false) ∧
          (s.ckpPhase = 0 → (s.run ≠ 1 ∨ s.sheafNow (c.f 0 8) = true) → ∃ t y n, exec (.sheaf id) s = .next t ∧ t.ckpPhase = 2 ∧
            t.ckp.sheaf = some y ∧ y.snap = some n ∧ y.regions = x.regions ∧ n.step = x.stepHint ∧ n.tb = s.sch.tb.toNat ∧
            n.device = s.devNum ∧ t.fld fCKP_STEP_STEP = x.stepHint % 2 ^ 32 ∧ t.fld fCKP_TOTAL_BYTES = 0 ∧ t.fld fCKP_DONE_BYTES = 0 ∧ t.pavs = s.pavs ∧
            (x.destKind ≠ 3 → s.ckp.held = [] → (∀ g ∈ granules x.manLoc 260, x.covers g = false) →
              t.bytes x.manLoc 260 = intentRecord x n))))) ∧
    (s.ckp.sheaf = some x →
      (∀ g k line, alook g x.diverting = some k → ∃ t, exec (.diversionComplete g .targetReset line) s = .next t ∧
        sheafOver s t x .sheafAbandoned 0x3004) ∧
      (∀ g k w line, alook g x.diverting = some k → s.accessSt (g * 65536) 65536 = .ok → s.ckp.adds = [] → s.ckp.held = [w] → granules w.addr w.data.length = [g] → s.plainAt (s.slotAddr k) 65536 →
        s.plainAt (g * 65536) 65536 → s.plainAt w.addr w.data.length → apart (s.slotAddr k) 65536 w.addr w.data.length →
        ∃ t y, exec (.diversionComplete g .ok line) s = .next t ∧ t = { s with mem := t.mem, regs := t.regs, ckp := t.ckp, out := t.out } ∧
          t.out = (if w.owner = .rsp then .memRsp .ok [] :: s.out else s.out) ∧
          t.bytes (s.slotAddr k) 65536 = s.bytes (g * 65536) 65536 ∧ t.bytes w.addr w.data.length = w.data ∧ t.ckp.held = [] ∧
          t.ckp.sheaf = some y ∧ y.saved = g :: x.saved ∧ y.slots = x.slots ++ [(k, g)] ∧ alook g y.diverting = none ∧
          (s.fld fCKP_DIVERT_COUNT + 1 < 2 ^ 64 → t.fld fCKP_DIVERT_COUNT = s.fld fCKP_DIVERT_COUNT + 1)) ∧
      (∀ g k, alook k x.slots = some g → (alook g x.captured).isSome = true → s.ckp.held = [] → s.ckp.adds = [] → ∃ t y,
        exec (.reserveSlotFree k) s = .next t ∧ t = { s with regs := t.regs, ckp := t.ckp } ∧ t.ckp.sheaf = some y ∧
          y = { x with slots := adel k x.slots } ∧ (y.used < 65536 → t.fld fCKP_RES_USED = y.used)) ∧
      (∀ g line, x.snap.isSome = true → x.covers g = true → alook g x.captured = none → alook g x.diverting = none →
        (∀ e ∈ x.slots, (alook e.2 x.captured).isSome = true ∧ e.2 ≠ g) →
        (s.ckp.held = [] → s.ckp.adds = [] → s.accessSt (g * 65536) 65536 = .ok → ∃ t y, exec (.granuleBackgroundRead g .ok line) s = .next t ∧ t = { s with regs := t.regs, ckp := t.ckp } ∧
          t.ckp.sheaf = some y ∧ y.captured = x.captured ++ [(g, s.bytes (g * 65536) 65536)] ∧ g ∈ y.saved ∧
          t.fld fCKP_DONE_BYTES = (s.fld fCKP_DONE_BYTES + x.bytesIn g) % 2 ^ 64) ∧
        ∃ t, exec (.granuleBackgroundRead g .targetReset line) s = .next t ∧ sheafOver s t x .sheafAbandoned 0x3004) ∧
      (∀ n ri idx ofs len r, x.snap = some n → s.ckpPhase = 2 → x.shardList[x.next]? = some (ri, idx, ofs, len) → x.regions[ri]? = some r →
        x.has (r.addr + ofs) len = true → let b := shardBytes x n.step ri idx ofs len r
        (x.destLimit < ceilTo x.pos 4096 + b.length → ∃ t, exec (.shardWriteDone true) s = .next t ∧ sheafOver s t x .sheafAbandoned 0x3003) ∧
        (ceilTo x.pos 4096 + b.length ≤ x.destLimit →
          (∃ t, exec (.shardWriteDone false) s = .next t ∧ sheafOver s t x .sheafAbandoned 0x3002) ∧
          (x.destKind = 3 → ∃ t, exec (.shardWriteDone true) s = .next t ∧ t = { s with regs := t.regs, ckp := t.ckp, out := t.out, rdm := t.rdm } ∧
            s.sameRegsBut t [fCKP_TOTAL_BYTES.off] ∧ t.fld fCKP_TOTAL_BYTES = x.total % 2 ^ 64 ∧ t.out = .nsWrite x.target (s.nsTurn x.target) (x.destBase + x.pos) (List.replicate (ceilTo x.pos 4096 - x.pos) 0 ++ b) :: s.out ∧
            ∃ y, t.ckp = { s.ckp with sheaf := some y } ∧ y = { x with next := y.next, pos := y.pos, entries := y.entries } ∧
              y.next = x.next + 1 ∧ y.pos = ceilTo x.pos 4096 + b.length ∧
              y.entries = x.entries ++ [(ri, shardEntry x n.step ri idx (x.destBase + ceilTo x.pos 4096) b)]))) ∧
      (s.ckpPhase = 2 → x.shardList.length ≤ x.next →
        (∃ t, exec (.sheafShardsDurable true) s = .next t ∧ t = { s with regs := t.regs, out := t.out, rdm := t.rdm } ∧ t.ckpPhase = 3 ∧
          t.out = if x.destKind = 3 then .nsFlush x.target (s.nsTurn x.target) :: s.out else s.out) ∧
        ∃ t, exec (.sheafShardsDurable false) s = .next t ∧ sheafOver s t x .sheafAbandoned 0x3002) ∧
      (∀ n, x.snap = some n → s.ckpPhase = 3 →
        (s.fld fLDG_STATE_SEC ≠ 2 → exec (.manifestDurable true) s = .next s) ∧
        (s.fld fLDG_STATE_SEC = 2 → (∃ t, exec (.manifestDurable false) s = .next t ∧ sheafOver s t x .sheafAbandoned 0x3002) ∧
          (x.destKind = 3 → ∃ t l sig q1 q2, exec (.manifestDurable true) s = .next t ∧ sheafOver s t x .ok 0 ∧
            t.out = l ++ .nsFlush x.target q1 :: .nsWrite x.target q2 x.manLoc (manifestBody x n (keyDigest s.sheafPub) ++ sig) :: s.out))) ∧
      (∀ f e, s.ckp.stallFrom = some f → s.sch.epoch = some e →
        let last := f + (e.lenPaced * s.fld fCKP_CFG_MARGIN_PCT / 100 - s.ckp.stallSlots) - 1
        (e.opened + 8 * e.lenPaced ≤ 8 * last → exec .sheafStallLimit s = .next s) ∧
        (8 * last < e.opened + 8 * e.lenPaced → ∃ t, exec .sheafStallLimit s = .next t ∧ t.ckp.sheaf = none ∧ t.ckpPhase = 0 ∧
          t.ckp.held = [] ∧ t.fld fCKP_LAST_DETAIL = 0x3001 ∧ t.fld fCKP_LAST_STATUS = 0xE ∧
          (s.sch.tb.toNat ≤ 8 * last → 8 * last < 2 ^ 64 → t.sch.tb.toNat = 8 * last))) ∧
      (∀ v : BitVec 32, v.toNat / 65536 = 0xA55A → v.toNat % 2 = 1 → ∃ t, exec (.ckpAbandon v) s = .next t ∧
        sheafOver s t x .sheafAbandoned 0x3006)) ∧
    (∀ v : BitVec 32, v.toNat / 65536 ≠ 0xA55A ∨ v.toNat % 2 = 0 ∨ s.ckp.sheaf = none → exec (.ckpAbandon v) s = .next s) ∧
    (∀ ce, ∃ t, exec (.ceTrigger ce) s = .next t ∧ t.pavs = s.pavs ∧
      (s.fld fCKP_CE_LIMIT_LIMIT = 0 ∨ s.ckp.ceCount + ce < s.fld fCKP_CE_LIMIT_LIMIT →
        t = { s with ckp := { s.ckp with ceCount := s.ckp.ceCount + ce } }) ∧
      (0 < s.fld fCKP_CE_LIMIT_LIMIT → s.fld fCKP_CE_LIMIT_LIMIT ≤ s.ckp.ceCount + ce → s.ckp.ceFired = false →
        (s.flag fCKP_CFG_CE_EN = false ∨ s.fld fCKP_AUTO_DESC_ADDR = 0 ∨ s.ckpPhase ≠ 0 → t = { s with regs := t.regs, ckp := t.ckp } ∧
          t.flag fCKP_ERR_AUTO_SKIP = true ∧ t.fld fCKP_SKIPS_COUNT = min (s.fld fCKP_SKIPS_COUNT + 1) (2 ^ 32 - 1) ∧
          t.ckp = { s.ckp with ceCount := s.ckp.ceCount + ce, ceFired := true }))) ∧
    (∃ t, exec .ceWindowEnd s = .next t ∧ t = { s with now := t.now, sch := t.sch, ckp := t.ckp } ∧
      t.ckp = { s.ckp with ceCount := 0, ceFired := false })

/-- A RESTORE whose descriptor is bad ends with that status; while the phase is not IDLE it ends BUSY; else the phase is
RESTORING. A SELECT that is carried out ends OK exactly when some location holds a complete authentic manifest at or below
MAX_STEP, and copies a newest such to REPORT_ADDR + 4,096; MIXED_STEP when there are authentic ones and none is complete;
then AUTH_FAIL, VERSION_MISMATCH, INVALID_STATE 0x3001 and 0x3000 in that order. A LOAD ends INVALID_FIELD,
VERSION_MISMATCH, AUTH_FAIL or MIXED_STEP before it writes anything, or places every shard and ends OK, or ends with the
status and 0x3000 plus the position of the first bad shard. The phase is then IDLE. What it states beyond the rules is the
choice of the model: log entries 72, 76. [09_checkpoint_sheaves.md: restore (R244, R248, R250, R269 to R273)] -/
def Obligations.Restore : Prop :=
  ∀ (s : State) (id : Nat) (c : Cmd) (ns : List NsPiece), s.doing id 0x12 c → c.clean [at8 0 0 64] = true →
    (s.ckp.restore ≠ some id → ∀ k ∈ [(1, Instr.restoreSelect id ns), (2, .restoreLoad id ns)],
      (∀ st, s.readRestore (c.f 0 8) k.1 = .fail st → ∃ t, exec k.2 s = .next t ∧ s.onlyCmd t id ∧ t.ended id st 0 0) ∧
      ∀ d, s.readRestore (c.f 0 8) k.1 = .ok d → ∃ t, exec k.2 s = .next t ∧
        (s.ckpPhase ≠ 0 → s.onlyCmd t id ∧ t.ended id .busy 0 0) ∧
        (s.ckpPhase = 0 → t = { s with regs := t.regs, ckp := t.ckp } ∧ t.ckpPhase = 4 ∧
          t.ckp = { s.ckp with restore := some id, dests := if k.1 = 1 then [] else s.loadDests ns d })) ∧
    (s.ckp.restore = some id → s.ckp.sheaf = none → s.ckp.held = [] →
      (∀ d, s.readRestore (c.f 0 8) 1 = .ok d →
        let found (l : RLoc) : Slot := s.slotOf ns d.maxStep l
        let whole (l : RLoc) : Prop := l ∈ d.locs ∧ (found l).outcome = 2 ∧ (s.mismatches ns (found l).man).1 = 0
        let some' (n : Nat) : Prop := ∃ l ∈ d.locs, (found l).outcome = n
        ∃ t st detail, exec (.restoreSelect id ns) s = .next t ∧ t.ended id st detail 0 ∧ t.ckpPhase = 0 ∧ t.ckp.restore = none ∧
          t.pavs = s.pavs ∧ (st = .ok ↔ ∃ l, whole l) ∧ (st = .mixedStep ↔ (¬ ∃ l, whole l) ∧ some' 2) ∧
          (st = .authFail ↔ ¬ some' 2 ∧ some' 5) ∧ (st = .versionMismatch ↔ ¬ some' 2 ∧ ¬ some' 5 ∧ some' 6) ∧
          (st = .invalidState ↔ ¬ some' 2 ∧ ¬ some' 5 ∧ ¬ some' 6) ∧
          (st = .invalidState → detail = 0x3001 ∧ some' 7 ∨ detail = 0x3000 ∧ ¬ some' 7) ∧
          (st = .ok → ∃ l, whole l ∧ (∀ k, whole k → (found k).step ≤ (found l).step) ∧
            t.bytes (d.report + 4096) (found l).man.length = (found l).man)) ∧
      (∀ d l h pt, s.readRestore (c.f 0 8) 2 = .ok d → d.locs = [l] → s.locBytes ns l.kind l.target l.loc 256 = some h →
        s.partRead 0 d.place (8 * min (fieldAt h 0x32 2) 4096) = .ok pt →
        let n := min (fieldAt h 0x32 2) 4096
        let len (i : Nat) : Nat := fieldAt ((s.locBytes ns l.kind l.target (l.loc + 0x200) (64 * n)).getD []) (64 * i + 8) 8
        let placed : Prop := ∀ i, i < n → s.placeOk (fieldAt pt (8 * i) 8) (len i) = true
        ∃ t, exec (.restoreLoad id ns) s = .next t ∧ t.ckpPhase = 0 ∧ t.ckp.restore = none ∧ t.pavs = s.pavs ∧
          (¬ placed → t.ended id .invalidField 0 0 ∧ t.mem = s.mem ∧ t.scratch = s.scratch) ∧
          (placed → fieldAt h 4 2 ≠ 1 → t.ended id .versionMismatch 0 0 ∧ t.mem = s.mem) ∧
          (placed → fieldAt h 4 2 = 1 → s.authentic ns l h = none → t.ended id .authFail 0 0 ∧ t.mem = s.mem) ∧
          (∀ m, placed → fieldAt h 4 2 = 1 → s.authentic ns l h = some m →
            (fieldAt m 8 8 ≠ d.id ∨ fieldAt m 0x10 4 ≠ d.step ∨ (s.mismatches ns m).1 ≠ 0 → t.ended id .mixedStep 0 0 ∧ t.mem = s.mem) ∧
            (fieldAt m 8 8 = d.id → fieldAt m 0x10 4 = d.step → (s.mismatches ns m).1 = 0 →
              (∀ u, s.loadShards ns (fun i => fieldAt pt (8 * i) 8) (manShards m) 0 = .ok u → t.ended id .ok 0 0 ∧ t.mem = u.mem) ∧
              ∀ st i, s.loadShards ns (fun i => fieldAt pt (8 * i) 8) (manShards m) 0 = .error (st, i) →
                t.ended id st (0x3000 + i % 2048) 0))))

/-- Window `w` is valid and holds an address (R301). -/
def Sys2Proof.Machine.State.winHolds (s : State) (w a : Nat) : Prop :=
  s.flag (fHIF_WIN_CTRL_VALID w) = true ∧ s.fld (fHIF_WIN_BASE_BASE w) ≤ a ∧
    a < s.fld (fHIF_WIN_BASE_BASE w) + 2 ^ s.fld (fHIF_WIN_CTRL_SIZE_LOG2 w)

/-- The checks of R301, and of R471 for the trouble log, for window `w`. -/
def Sys2Proof.Machine.State.winFits (s : State) (w base target z : Nat) (wr : Bool) : Prop :=
  base % 2 ^ z = 0 ∧ target % 2 ^ z = 0 ∧ 21 ≤ z ∧ z ≤ (if w < 64 then 40 else 43) ∧ (64 ≤ w → base + 2 ^ z ≤ 0x80000000000) ∧
    (∃ r, s.region? target (2 ^ z) = some r ∧ (r = .log → wr = false)) ∧
    ∀ i, i < 320 → i ≠ w → (i < 64 ↔ w < 64) → (64 ≤ w → (i - 64) / 16 = (w - 64) / 16) → s.flag (fHIF_WIN_CTRL_VALID i) = true →
      base + 2 ^ z ≤ s.fld (fHIF_WIN_BASE_BASE i) ∨ s.fld (fHIF_WIN_BASE_BASE i) + 2 ^ s.fld (fHIF_WIN_CTRL_SIZE_LOG2 i) ≤ base

/-- A trained link shows its rate and width, a lost one zeros. CTRL_PF changes only through the control function, or the other
while the control link is down, and only while the port is split, partition 0 has no queue and the host holds no part of the
cipher engine; it is dropped with CFG_DROP otherwise. Configuration requests are retried before step 6 of bring-up and then
answer the fixed values; BAR4 is resized only while Memory Space Enable is 0. A commit that meets every check waits for its
switch, one that does not reads INVALID_FIELD, one while BUSY is dropped. An access through the one window that holds its
address reads or writes the target; behind the writes of its link that are held, and is re-issued on the link of a host or
an accelerator; without a permitting window a read is Unsupported Request and a write is discarded; poisoned data is
recorded and discarded whatever it meets. What it states beyond the rules is the choice of the model: log entries 79 to 82,
87, 151. [10_pcie_ports.md: links and control (R277 to R280), configuration (R281), BARs (R284, R285), order and identity
(R286, R288, R296), windows (R301 to R303), registers (R306); 15_bringup_and_firmware.md: R416] -/
def Obligations.HostPort : Prop :=
  ∀ (s : State) (fn : Fin 2) (v : BitVec 32) (x : TlpX) (rate width n off len : Nat),
    (2 ≤ s.ldg.step → (fn = 0 ∨ s.flag fHIF_CFG_BIF = true) → 1 ≤ rate → rate ≤ 7 → 1 ≤ width →
      width ≤ (if s.flag fHIF_CFG_BIF = true then 8 else 16) → ∃ t, exec (.upLinkUp fn rate width) s = .next t ∧
      t = { s with regs := t.regs } ∧ t.fld (fHIF_UP_STATUS_RATE fn.val) = rate ∧ t.fld (fHIF_UP_STATUS_WIDTH fn.val) = width ∧
      t.flag (fHIF_UP_STATUS_LINK_UP fn.val) = true) ∧
    (s.flag (fHIF_UP_STATUS_LINK_UP fn.val) = true → ∃ t, exec (.upstreamLinkDown fn) s = .next t ∧ t = { s with regs := t.regs } ∧
      t.fld (fHIF_UP_STATUS_RATE fn.val) = 0 ∧ t.fld (fHIF_UP_STATUS_WIDTH fn.val) = 0 ∧ t.flag (fHIF_UP_STATUS_LINK_UP fn.val) = false) ∧
    (∃ t, exec (.hifCtrlPfWrite fn v) s = .next t ∧ t = { s with regs := t.regs } ∧
      if fn ≠ s.ctrlFn ∧ s.flag (fHIF_UP_STATUS_LINK_UP s.ctrlFn.val) = true then
        t.flag fHIF_ERR_RO_WRITE = true ∧ s.sameRegsBut t [fHIF_ERR_RO_WRITE.off]
      else if bitOf v.toNat 1 = s.flag fHIF_CFG_CTRL_PF then t = s
      else if s.flag fHIF_CFG_BIF = true ∧ s.flag fQUE_ADMIN_CTRL_ENABLE = false ∧ (∀ e ∈ s.que.sqs, e.1.1 ≠ 0) ∧ (∀ e ∈ s.que.cqs, e.1.1 ≠ 0) ∧
          s.fld fCIP_LOCK_OWNER ≠ 3 ∧ s.flag fCIP_CFG_VEC_EN = false then
        t.flag fHIF_CFG_CTRL_PF = bitOf v.toNat 1 ∧ t.flag fHIF_CFG_BIF = true ∧ s.sameRegsBut t [fHIF_CFG_CTRL_PF.off]
      else t.flag fHIF_ERR_CFG_DROP = true ∧ s.sameRegsBut t [fHIF_ERR_CFG_DROP.off]) ∧
    (s.ldg.step < 6 → ∀ r, exec (.configurationRequest fn r) s = .next { s with out := .cfgRsp none :: s.out }) ∧
    (6 ≤ s.ldg.step →
      (∀ e ∈ [(CfgField.deviceId, 0x8800), (.revisionId, 0xB0), (.classCode, 0x120000), (.intPin, 0), (.maxPayload, 512), (.flr, 0),
          (.msixTable, 0x780000), (.msixPba, 0x790000), (.absent, 0), (.command, s.hif.cfg[fn].command.toNat),
          (.noSoftReset, 1), (.pme, 0), (.extTag, 1), (.ctoRanges, 0), (.ctoDisable, 0), (.aspm, 0), (.tag14Requester, 1), (.tag14Completer, 1),
          (.secondaryPcie, 1), (.laneMargining, 1), (.flitMode, 1), (.flitLogging, 1), (.scaledFlow, 1), (.linkIdeStreams, 1),
          (.selectiveIdeStreams, 0), (.bar4Size, s.hif.cfg[fn].bar4Log2)],
        exec (.configurationRequest fn (.read e.1)) s = .next { s with out := .cfgRsp (some (BitVec.ofNat 64 e.2)) :: s.out } ∧
        ∀ w, e.1 ≠ .command → e.1 ≠ .bar4Size → exec (.configurationRequest fn (.write e.1 w)) s =
          .next { s with out := .cfgRsp (some 0) :: s.out }) ∧
      ∀ w : BitVec 64, ∃ t, exec (.configurationRequest fn (.write .command w)) s = .next t ∧ t = { s with hif := t.hif, out := t.out } ∧
        t.hif.cfg[fn] = { s.hif.cfg[fn] with command := BitVec.ofNat 16 w.toNat } ∧ ∀ g, g ≠ fn → t.hif.cfg[g] = s.hif.cfg[g]) ∧
    (∃ t, exec (.bar4Resize fn n) s = .next t ∧ t = { s with hif := t.hif } ∧ (∀ g, g ≠ fn → t.hif.cfg[g] = s.hif.cfg[g]) ∧
      t.hif.cfg[fn] = { s.hif.cfg[fn] with bar4Log2 := if s.hif.cfg[fn].command.getLsbD 1 = false ∧ 34 ≤ n ∧ n ≤ 40 then n
        else s.hif.cfg[fn].bar4Log2 }) ∧
    (∃ t l, exec (.romRead fn off len) s = .next t ∧ t = { s with out := .cpl l :: s.out } ∧ l.length = len ∧
      ∀ i, i < len → l.getD i 1 = s.ldg.flash.uefi.getD (off + i) 0) ∧
    (∀ c ∈ [(0, 64, fn.val, Instr.bar4Access fn x)] ++ (List.finRange 16).map (fun a => (64 + 16 * a.val, 16, 2 + a.val, .inboundAccess a x)),
      (c.1 = 0 → x.addr < 2 ^ s.hif.cfg[fn].bar4Log2) →
      (x.ep = true → ∃ t, exec c.2.2.2 s = .next t ∧ t = { s with regs := t.regs, hif := t.hif, out := t.out, log := t.log } ∧
        t.flag fHIF_ERR_POISON_RX = true ∧ ∀ d, t.out ≠ .cpl d :: s.out) ∧
      ((∀ i, i < c.2.1 → s.winHolds (c.1 + i) x.addr →
          s.flag (if x.wr.isSome then fHIF_WIN_CTRL_WR (c.1 + i) else fHIF_WIN_CTRL_RD (c.1 + i)) = false) → ∃ t, exec c.2.2.2 s = .next t ∧
        t = { s with regs := t.regs, hif := t.hif, out := t.out, log := t.log } ∧ (x.ep = false → t.log = s.log) ∧
        t.out = (if x.wr = none then .cplUr :: s.out else s.out) ∧ t.flag (if c.1 = 0 then fHIF_ERR_P4_MISS else fHIF_ERR_IW_MISS) = true ∧
        (64 ≤ c.1 → t.fld (fHIF_SLOT_IWMISS_COUNT ((c.1 - 64) / 16)) = min (s.fld (fHIF_SLOT_IWMISS_COUNT ((c.1 - 64) / 16)) + 1) (2 ^ 32 - 1))) ∧
      ∀ i, i < c.2.1 → s.winHolds (c.1 + i) x.addr → (∀ j, j < c.2.1 → j ≠ i → ¬ s.winHolds (c.1 + j) x.addr) → x.ep = false →
        let a := s.fld (fHIF_WIN_TARGET_TARGET (c.1 + i)) + (x.addr - s.fld (fHIF_WIN_BASE_BASE (c.1 + i)))
        (x.wr = none → s.flag (fHIF_WIN_CTRL_RD (c.1 + i)) = true → x.ecc = .ok →
          (s.accessSt a x.len = .ok → ∃ t, exec c.2.2.2 s = .next t ∧ t = { s with out := t.out } ∧
            t.out = .cpl (s.bytesHeld a x.len) :: (match s.linkOf a x.len with
              | none => s.out | some k => .memRd k (reqFn k (some c.2.2.1)) (s.ideOn k) a x.len :: s.out)) ∧
          (s.accessSt a x.len ≠ .ok → ∃ t, exec c.2.2.2 s = .next t ∧ t = { s with regs := t.regs, out := .cplCa :: s.out } ∧
            t.flag fHIF_ERR_WIN_FAIL = true ∧ s.sameRegsBut t [fHIF_ERR_WIN_FAIL.off])) ∧
        ∀ b, x.wr = some b → s.flag (fHIF_WIN_CTRL_WR (c.1 + i)) = true → x.ecc = .ok →
          (s.accessSt a b.length = .ok → s.region? a b.length ≠ some .log → s.writeHeld a b.length (.link c.2.2.1) = false →
            ∃ t, exec c.2.2.2 s = .next t ∧ t = { s with mem := t.mem, scratch := t.scratch, out := t.out } ∧ s.wrote t a b ∧
            t.out = (match s.linkOf a b.length with
              | none => s.out | some k => .memWr k (reqFn k (some c.2.2.1)) (s.relaxed k) (s.ideOn k) a b :: s.out)) ∧
          (s.accessSt a b.length = .ok → s.region? a b.length ≠ some .log → s.writeHeld a b.length (.link c.2.2.1) = true →
            ∃ t, exec c.2.2.2 s = .next t ∧ t.mem = s.mem ∧ t.scratch = s.scratch ∧ t.out = s.out ∧
            t.ckp.held = s.ckp.held ++ [{ addr := a, data := b, sown := false, owner := .link c.2.2.1 }]) ∧
          (s.accessSt a b.length ≠ .ok ∨ s.region? a b.length = some .log → ∃ t, exec c.2.2.2 s = .next t ∧ t = { s with regs := t.regs } ∧
            t.flag fHIF_ERR_WIN_FAIL = true ∧ s.sameRegsBut t [fHIF_ERR_WIN_FAIL.off])) ∧
    (v.toNat / 65536 ≠ 0xA55A ∨ bitOf v.toNat 0 = false → exec (.winCommit v) s = .next s) ∧
    (v.toNat / 65536 = 0xA55A → bitOf v.toNat 0 = true → ∃ t, exec (.winCommit v) s = .next t ∧
      (s.flag fHIF_WIN_STATUS_BUSY = true → t = { s with regs := t.regs } ∧ t.flag fHIF_ERR_CFG_DROP = true ∧
        s.sameRegsBut t [fHIF_ERR_CFG_DROP.off]) ∧
      (s.flag fHIF_WIN_STATUS_BUSY = false → s.fld fHIF_WSH_SEL_W < 320 →
        t = { s with regs := t.regs, hif := t.hif } ∧ s.sameRegsBut t [rHIF_WIN_STATUS] ∧
        let w := s.fld fHIF_WSH_SEL_W
        let c := s.reg rHIF_WSH_CTRL
        let fits : Prop := bitOf c.toNat 31 = false ∨
          s.winFits w (s.reg rHIF_WSH_BASE).toNat (s.reg rHIF_WSH_TARGET).toNat (bitsOf c.toNat 0 6) (bitOf c.toNat 9)
        (fits → t.fld fHIF_WIN_STATUS_STATUS = 0 ∧ t.flag fHIF_WIN_STATUS_BUSY = true ∧
          t.hif = { s.hif with win := some { w := w, base := s.reg rHIF_WSH_BASE, target := s.reg rHIF_WSH_TARGET, ctrl := c } }) ∧
        (¬ fits → t.fld fHIF_WIN_STATUS_STATUS = 1 ∧ t.flag fHIF_WIN_STATUS_BUSY = false ∧ t.hif = s.hif))) ∧
    (∀ p, s.hif.win = some p → ∃ t, exec .winSwitch s = .next t ∧ t = { s with regs := t.regs, hif := t.hif } ∧
      t.hif = { s.hif with win := none } ∧ t.flag fHIF_WIN_STATUS_BUSY = false ∧ t.reg (rHIF_WIN_BASE p.w) = p.base ∧
      t.reg (rHIF_WIN_TARGET p.w) = p.target ∧ t.reg (rHIF_WIN_CTRL p.w) = p.ctrl ∧
      s.sameRegsBut t [rHIF_WIN_BASE p.w, rHIF_WIN_TARGET p.w, rHIF_WIN_CTRL p.w, rHIF_WIN_STATUS])

/-- Presence takes a slot from EMPTY to OFF, its loss to EMPTY from any state; power-on is legal in OFF only, of a slot that
exists under its port's split, and power-off in POWERING and later, and a command elsewhere is answered INVALID_STATE with
one log entry. After 100 ms the reset is released; a link that comes up is shown; 100 ms later it is ENUMERATING;
enumeration makes the slot READY or, when the BARs do not fit, FAILED; a link lost in any of these states leaves it
TRAINING; no link within 1 s makes it FAILED. A departure from READY advances the generation. An accelerator access issues a
request with a free tag, or ends with INVALID_STATE or REFUSED_POLICY; its completion ends it; a timeout ends it with
TIMEOUT and quarantines the tag for twice the timeout; a completion without an outstanding request is late, one of an
earlier generation stale. What it states beyond the rules is the choice of the model: log entries 83 to 86.
[10_pcie_ports.md: completions (R289 to R292), downstream ports (R293 to R295), hot-plug (R297 to R300)] -/
def Obligations.Slots : Prop :=
  ∀ (s : State) (a : Fin 16) (n : Fin 8) (k : Fin 18) (v : BitVec 32) (b : Bool) (tag rate width : Nat) (bars : List Nat) (x : CplX),
    let quiet : Prop := s.gmem.svcRun = [] ∧ s.gmem.migs = []
    let st (u : State) : Nat := u.fld (fHIF_SLOT_STATUS_STATE a.val)
    let gen (u : State) : Nat := u.fld (fHIF_SLOT_STATUS_GEN a.val)
    (∃ t, exec (.dsSplitWrite n v) s = .next t ∧ t = { s with regs := t.regs } ∧
      if s.fld (fHIF_SLOT_STATUS_STATE (2 * n.val)) ≤ 1 ∧ s.fld (fHIF_SLOT_STATUS_STATE (2 * n.val + 1)) ≤ 1 then
        t.flag (fHIF_DS_CTRL_SPLIT n.val) = bitOf v.toNat 0 ∧ s.sameRegsBut t [(fHIF_DS_CTRL_SPLIT n.val).off]
      else t.flag fHIF_ERR_CFG_DROP = true ∧ s.sameRegsBut t [fHIF_ERR_CFG_DROP.off]) ∧
    (s.gated (s.skuField 12 2) (a.val / 2) = false →
      (st s = 0 → ∃ t, exec (.slotPresenceChange a true b) s = .next t ∧ st t = 1 ∧ t.flag (fHIF_SLOT_STATUS_PRESENT a.val) = true ∧
        t.flag (fHIF_SLOT_STATUS_PDC a.val) = true ∧ gen t = gen s ∧ t.pavs = s.pavs ∧ s.logged t 0x0701 blkHIF 0 .ok 0 0 a.val ∧
        (b = true → t.flag (fHIF_SLOT_STATUS_ABP a.val) = true)) ∧
      (st s ≠ 0 → s.hif.dcfg = none → ∃ t, exec (.slotPresenceChange a false b) s = .next t ∧ st t = 0 ∧
        t.flag (fHIF_SLOT_STATUS_PRESENT a.val) = false ∧ t.flag (fHIF_SLOT_STATUS_PDC a.val) = true ∧ t.pavs = s.pavs ∧
        gen t = (if st s = 5 then (gen s + 1) % 256 else gen s) ∧ t.hif.slots[a].power = false ∧ t.hif.slots[a].rst = true ∧
        t.fld (fHIF_SLOT_LINK_RATE a.val) = 0 ∧ (st s ≠ 5 ∨ quiet → s.logged t 0x0701 blkHIF 0 .ok 0 0 a.val) ∧
        (s.fld (fHIF_SLOT_LINK_RATE a.val) ≠ 0 → t.flag (fHIF_SLOT_STATUS_LSC a.val) = true)) ∧
      ∃ t, exec (.slotButtonPress a) s = .next t ∧ st t = st s ∧ t.flag (fHIF_SLOT_STATUS_ABP a.val) = true ∧ t.hif.slots = s.hif.slots ∧
        s.logged t 0x0702 blkHIF 0 .ok 0 0 a.val) ∧
    (∀ c ∈ [Instr.slotPowerOn a v, .slotPowerOff a v], v.toNat / 65536 ≠ 0xA55A → exec c s = .next s) ∧
    (∀ c ∈ [(1, Instr.slotPowerOn a v), (2, .slotPowerOff a v)], v.toNat / 65536 = 0xA55A → bitsOf v.toNat 0 2 = c.1 →
      ∃ t, exec c.2 s = .next t ∧ t.pavs = s.pavs ∧ t.fld (fHIF_SLOT_CTRL_ATN_IND a.val) =
        (if bitsOf v.toNat 4 2 = 3 then s.fld (fHIF_SLOT_CTRL_ATN_IND a.val) else bitsOf v.toNat 4 2) ∧
        (c.1 = 1 → st s = 1 → s.slotExists a = true → st t = 2 ∧ t.fld (fHIF_SLOT_STATUS_LAST_STATUS a.val) = 0 ∧ t.hif.slots[a].power = true ∧
          t.hif.slots[a].rst = true ∧ t.hif.slots[a].since = s.now ∧ t.hif.slots[a].offAt = none ∧ t.log = s.log) ∧
        (c.1 = 2 → 2 ≤ st s → s.hif.dcfg = none → st t = 1 ∧ t.fld (fHIF_SLOT_STATUS_LAST_STATUS a.val) = 0 ∧
          t.hif.slots[a].power = s.hif.slots[a].power ∧ t.hif.slots[a].rst = true ∧ t.hif.slots[a].offAt = some (s.now + 800000) ∧
          gen t = (if st s = 5 then (gen s + 1) % 256 else gen s)) ∧
        ((c.1 = 1 ∧ (st s ≠ 1 ∨ s.slotExists a = false)) ∨ (c.1 = 2 ∧ st s < 2) → t = { s with regs := t.regs, log := t.log } ∧ st t = st s ∧
          t.fld (fHIF_SLOT_STATUS_LAST_STATUS a.val) = 2 ∧
          s.logged t 0x0008 blkHIF noPart .invalidState 0 (rHIF_SLOT_CTRL a.val) v.toNat)) ∧
    (∀ u, s.hif.slots[a].offAt = some u → ∃ t, exec (.slotPowerRemove a) s = .next t ∧ t.regs = s.regs ∧ t.now = max s.now u ∧
      t.hif.slots[a] = { s.hif.slots[a] with power := false, offAt := none }) ∧
    (st s = 2 → ∃ t, exec (.slotResetRelease a) s = .next t ∧ st t = 3 ∧ t.hif.slots[a].rst = false ∧
      t.now = max s.now (s.hif.slots[a].since + 80000000) ∧ t.hif.slots[a].since = t.now ∧ t.pavs = s.pavs) ∧
    (st s = 3 → s.fld (fHIF_SLOT_LINK_RATE a.val) = 0 →
      (1 ≤ rate → rate ≤ 7 → 1 ≤ width →
        width ≤ (if s.hif.split[(Fin.ofNat 8 (a.val / 2) : Fin 8)] = true then 8 else 16) → ∃ t, exec (.slotLinkUp a rate width) s = .next t ∧ st t = 3 ∧
        t.fld (fHIF_SLOT_LINK_RATE a.val) = rate ∧ t.fld (fHIF_SLOT_LINK_WIDTH a.val) = width ∧ t.flag (fHIF_SLOT_STATUS_LSC a.val) = true ∧
        (t.flag (fHIF_SLOT_LINK_DEGRADED a.val) = true ↔
          rate < 7 ∨ width < (if s.hif.split[(Fin.ofNat 8 (a.val / 2) : Fin 8)] = true then 8 else 16)) ∧
        t.hif.slots[a].linkAt = some s.now ∧ s.logged t 0x0703 blkHIF 0 .ok 0 0 a.val) ∧
      ∃ t, exec (.slotTrainTimeout a) s = .next t ∧ st t = 6 ∧ t.now = max s.now (s.hif.slots[a].since + 800000000)) ∧
    (st s = 3 ∨ st s = 4 → ∀ u, s.hif.slots[a].linkAt = some u → ∃ e t, exec (.slotEnumerate a none) s = .next e ∧ st e = 4 ∧
      exec (.slotEnumerate a (some bars)) s = .next t ∧ (∀ z ∈ [e, t], z.now = if st s = 3 then max s.now (u + 80000000) else s.now) ∧
      gen t = gen s ∧ (bars = [] → st t = 5 ∧ t.hif.slots[a].bars = []) ∧
      (∀ z, bars = [z] → z ≤ 0x80000000000 → 0x80000000000 % z = 0 → 1 ≤ z → st t = 5 ∧ t.hif.slots[a].bars = [(0x80000000000, z)]) ∧
      (∀ z ∈ bars, 0x80000000000 < z → st t = 6)) ∧
    (3 ≤ st s → st s ≤ 5 → s.fld (fHIF_SLOT_LINK_RATE a.val) ≠ 0 → s.hif.dcfg = none → ∃ t, exec (.slotLinkLost a) s = .next t ∧ st t = 3 ∧
      gen t = (if st s = 5 then (gen s + 1) % 256 else gen s) ∧
      t.fld (fHIF_SLOT_LINK_RATE a.val) = 0 ∧ t.flag (fHIF_SLOT_STATUS_LSC a.val) = true ∧
      (st s ≠ 5 ∨ quiet → s.logged t 0x0703 blkHIF 0 .targetReset 0 0 a.val)) ∧
    (∀ c ∈ [Instr.dcfgRead v, .dcfgWrite v], ∃ t, exec c s = .next t ∧ t = { s with regs := t.regs, hif := t.hif, out := t.out, log := t.log } ∧
      let slot := bitsOf v.toNat 24 4
      let ready : Prop := s.fld (fHIF_SLOT_STATUS_STATE slot) = 5
      let barred : Prop := bitOf v.toNat 31 = true ∧ (4 ≤ bitsOf v.toNat 2 10 ∧ bitsOf v.toNat 2 10 ≤ 9 ∨ bitsOf v.toNat 2 10 = 12)
      (s.flag fHIF_DCFG_STATUS_BUSY = true → t.hif = s.hif ∧ t.out = s.out ∧ t.flag fHIF_ERR_CFG_DROP = true ∧
        s.sameRegsBut t [fHIF_ERR_CFG_DROP.off]) ∧
      (s.flag fHIF_DCFG_STATUS_BUSY = false → ¬ ready → t.out = s.out ∧ t.flag fHIF_DCFG_STATUS_BUSY = false ∧
        t.fld fHIF_DCFG_STATUS_STATUS = 2 ∧ s.logged t 0x0008 blkHIF noPart .invalidState 0 rHIF_DCFG_ADDR v.toNat) ∧
      (s.flag fHIF_DCFG_STATUS_BUSY = false → ready → barred → t.out = s.out ∧ t.flag fHIF_DCFG_STATUS_BUSY = false ∧
        t.fld fHIF_DCFG_STATUS_STATUS = 3) ∧
      (s.flag fHIF_DCFG_STATUS_BUSY = false → ready → ¬ barred → ∀ g, s.freeTag? (2 + slot) = some g →
        t.flag fHIF_DCFG_STATUS_BUSY = true ∧ t.hif.dcfg = some { slot := slot, tag := some g, write := bitOf v.toNat 31, crs := none } ∧
        alook (2 + slot, g) t.hif.tags = some (.out s.now (s.fld (fHIF_DS_CTO_MICROS (slot / 2))) (s.fld (fHIF_SLOT_STATUS_GEN slot))) ∧
        t.out = .cfgReq slot (bitsOf v.toNat 16 3) (bitsOf v.toNat 2 10)
          (if bitOf v.toNat 31 then some (BitVec.ofNat 32 (s.fld fHIF_DCFG_DATA_DATA)) else none) :: s.out)) ∧
    (∀ i c g, alook (k.val, x.tag) s.hif.tags = some (.out i c g) → 2 ≤ k.val →
      (g ≠ s.fld (fHIF_SLOT_STATUS_GEN (k.val - 2)) → ∃ t, exec (.pcieCompletionRx k x) s = .next t ∧ t.hif.dcfg = s.hif.dcfg ∧ t.out = s.out ∧
        alook (k.val, x.tag) t.hif.tags = none ∧
        t.fld (fHIF_SLOT_STALE_COUNT (k.val - 2)) = min (s.fld (fHIF_SLOT_STALE_COUNT (k.val - 2)) + 1) (2 ^ 32 - 1)) ∧
      (g = s.fld (fHIF_SLOT_STATUS_GEN (k.val - 2)) → ∀ d, s.hif.dcfg = some d → d.slot + 2 = k.val → d.tag = some x.tag →
        ∃ t, exec (.pcieCompletionRx k x) s = .next t ∧ t.pavs = s.pavs ∧
          (x.ep = true → t.hif.dcfg = none ∧ t.flag fHIF_ERR_POISON_RX = true ∧ t.fld fHIF_DCFG_STATUS_STATUS = 8 ∧
            t.flag fHIF_DCFG_STATUS_BUSY = false ∧ t.fld fHIF_DCFG_DATA_DATA = s.fld fHIF_DCFG_DATA_DATA) ∧
          (x.ep = false → x.st = .sc → t.hif.dcfg = none ∧ t.fld fHIF_DCFG_STATUS_STATUS = 0 ∧ t.flag fHIF_DCFG_STATUS_BUSY = false ∧
            t.fld fHIF_DCFG_DATA_DATA = (if d.write then s.fld fHIF_DCFG_DATA_DATA else x.data.toNat) ∧
            alook (k.val, x.tag) t.hif.tags = none) ∧
          (x.ep = false → x.st = .crs → x.tag < 4096 → t.hif.dcfg.isSome = true ∧ t.out.length = s.out.length + 1 ∧
            ∀ e, t.hif.dcfg = some e → e.crs = some (d.crs.getD s.now)))) ∧
    ((∀ i c g, alook (k.val, x.tag) s.hif.tags ≠ some (.out i c g)) → ∃ t, exec (.pcieCompletionRx k x) s = .next t ∧
      t = { s with regs := t.regs, hif := t.hif } ∧ t.flag fHIF_ERR_LATE = true ∧ t.hif.tags = s.hif.tags ∧ t.hif.dcfg = s.hif.dcfg ∧
      let f := if k.val < 2 then fHIF_UP_LATE_COUNT k.val else fHIF_SLOT_LATE_COUNT (k.val - 2)
      t.fld f = min (s.fld f + 1) (2 ^ 32 - 1) ∧
      ∀ h : Fin 2, t.hif.cfg[h].aer = if h.val = k.val then s.hif.cfg[h].aer ||| 0x10000 else s.hif.cfg[h].aer) ∧
    (∀ i c g, alook (k.val, tag) s.hif.tags = some (.out i c g) →
      g = (if k.val < 2 then 0 else s.fld (fHIF_SLOT_STATUS_GEN (k.val - 2))) → ∃ t, exec (.completionTimeout k tag) s = .next t ∧
        t.now = max s.now (i + c * 800) ∧ alook (k.val, tag) t.hif.tags = some (.quar (t.now + 2 * c * 800)) ∧ t.flag fHIF_ERR_CTO = true ∧
        (let f := if k.val < 2 then fHIF_UP_TIMEOUT_COUNT k.val else fHIF_SLOT_TIMEOUT_COUNT (k.val - 2)
        t.fld f = min (s.fld f + 1) (2 ^ 32 - 1)) ∧
        ∀ d, s.hif.dcfg = some d → d.slot + 2 = k.val → d.tag = some tag → t.hif.dcfg = none ∧ t.fld fHIF_DCFG_STATUS_STATUS = 6 ∧
          t.flag fHIF_DCFG_STATUS_BUSY = false) ∧
    (∀ u, alook (k.val, tag) s.hif.tags = some (.quar u) → ∃ t, exec (.tagQuarantineEnd k tag) s = .next t ∧ t.now = max s.now u ∧
      (s.hif.dcfg = none → alook (k.val, tag) t.hif.tags = none ∧ t.out = s.out) ∧
      (∀ d, s.hif.dcfg = some d → d.slot + 2 = k.val → d.tag = none → tag < 4096 → ∃ g, t.hif.dcfg = some { d with tag := some g } ∧
        t.out.length = s.out.length + 1)) ∧
    (∀ d u, s.hif.dcfg = some d → d.crs = some u → ∃ t, exec .dcfgCrsTimeout s = .next t ∧ t.now = max s.now (u + 800000000) ∧
      t.hif.dcfg = none ∧ t.fld fHIF_DCFG_STATUS_STATUS = 6 ∧ t.flag fHIF_DCFG_STATUS_BUSY = false ∧ t.out = s.out)

/-- From `s` to `t` the responder of function `fn` has become `y`, and this response, if any, has been sent. -/
def spdmTo (s t : State) (fn : Fin 2) (y : Sys2Proof.Machine.Spdm) (r : Option SpdmRsp) : Prop :=
  t = { s with hif := t.hif, out := t.out } ∧ t.hif = { s.hif with spdm := t.hif.spdm } ∧ t.hif.spdm[fn] = y ∧
    (∀ g, g ≠ fn → t.hif.spdm[g] = s.hif.spdm[g]) ∧ t.out = (match r with | some q => [.spdm fn.val q] | none => []) ++ s.out

/-- A request is accepted while the security processor runs, the mailbox has no error, the object has at most 4,096 DWORDs, and
a secured message belongs to a session and verifies. GET_VERSION restarts the connection; the later requests need its stages
in order; only ECDSA P-256 with SHA-256 and AES-256-GCM is agreed to. Digests, the chain, challenge answers and measurements
are given in slot 0 only. KEY_EXCHANGE opens a session, FINISH establishes it, END_SESSION ends it; HEARTBEAT, KEY_UPDATE
and IDE_KM need one. A request takes its object from the mailbox. An object that is too large puts the mailbox in error
until DOE Abort; DWORDs are taken only while DOE Status shows neither Busy nor Error. What it states beyond the rules is the
choice of the model: log entries 88, 89. [10_pcie_ports.md: SPDM, DOE and IDE (R304, R305); 14_cipher_and_trust.md: identity
(R409, R410)] -/
def Obligations.Spdm : Prop :=
  ∀ (s : State) (fn : Fin 2) (m : SpdmMsg),
    let x := s.hif.spdm[fn]
    let x0 : Sys2Proof.Machine.Spdm := { x with obj := [] }
    let s0 : State := { s with hif := { s.hif with spdm := s.hif.spdm.set fn x0 } }
    let reqs : List Instr := [.getVersion fn m, .getCapabilities fn m, .negotiateAlgorithms fn m, .getDigests fn m, .getCertificate fn m,
      .challenge fn m, .getMeasurements fn m, .keyExchange fn m, .finish fn m, .heartbeat fn m, .keyUpdate fn m, .endSession fn m, .ideKm fn m]
    let good : Prop := s.fld fLDG_STATE_SEC = 2 ∧ x.aborted = false ∧ m.dwords ≤ 4096 ∧
      ∀ k, m.session = some k → m.authentic = true ∧ ∃ e ∈ x.sessions, e.1 = k
    (∀ c ∈ reqs,
      (s.fld fLDG_STATE_SEC ≠ 2 ∨ x.aborted = true → exec c s = .next s) ∧
      (s.fld fLDG_STATE_SEC = 2 → x.aborted = false → 4096 < m.dwords → ∃ t, exec c s = .next t ∧ spdmTo s t fn { x with aborted := true, obj := [] } none) ∧
      (s.fld fLDG_STATE_SEC = 2 → x.aborted = false → m.dwords ≤ 4096 → ∀ k, m.session = some k →
        (m.authentic = false ∨ ∀ e ∈ x.sessions, e.1 ≠ k) →
        exec c s = .next { s0 with out := .spdm fn.val (.error .decryptError) :: s.out })) ∧
    (∃ t, exec (.doeAbort fn) s = .next t ∧ spdmTo s t fn { x with aborted := false, obj := [] } none) ∧
    (6 ≤ s.ldg.step → ∀ w : BitVec 64, ∃ t, exec (.configurationRequest fn (.write .doeWriteMailbox w)) s = .next t ∧
      t = { s with hif := t.hif, out := .cfgRsp (some 0) :: s.out } ∧ t.hif = { s.hif with spdm := t.hif.spdm } ∧
      (∀ g, g ≠ fn → t.hif.spdm[g] = s.hif.spdm[g]) ∧
      t.hif.spdm[fn] = if s.fld fLDG_STATE_SEC ≠ 2 ∨ x.aborted = true then x
        else if 4096 ≤ x.obj.length then { x with aborted := true, obj := [] } else { x with obj := x.obj ++ [BitVec.ofNat 32 w.toNat] }) ∧
    (6 ≤ s.ldg.step → exec (.configurationRequest fn (.read .doeStatus)) s = .next { s with out := .cfgRsp (some (BitVec.ofNat 64
      ((if s.fld fLDG_STATE_SEC ≠ 2 then 1 else 0) + (if x.aborted = true then 4 else 0)))) :: s.out }) ∧
    (good →
      (∃ t, exec (.getVersion fn m) s = .next t ∧ spdmTo s0 t fn { x0 with stage := 1 } (some .version)) ∧
      (∀ c ∈ [(1, Instr.getCapabilities fn m), (2, .negotiateAlgorithms fn m), (3, .getDigests fn m), (3, .getCertificate fn m),
          (3, .challenge fn m), (3, .getMeasurements fn m), (3, .keyExchange fn m)], x.stage < c.1 →
        exec c.2 s = .next { s0 with out := .spdm fn.val (.error .unexpectedRequest) :: s.out }) ∧
      (1 ≤ x.stage → ∃ t, exec (.getCapabilities fn m) s = .next t ∧ spdmTo s0 t fn { x0 with stage := max x.stage 2 } (some .capabilities)) ∧
      (2 ≤ x.stage → ∃ t, exec (.negotiateAlgorithms fn m) s = .next t ∧
        if m.ecdsaP256 ∧ m.sha256 ∧ m.aes256Gcm then spdmTo s0 t fn { x0 with stage := 3 } (some .algorithms)
        else t = { s0 with out := .spdm fn.val (.error .invalidRequest) :: s.out }) ∧
      (3 ≤ x.stage → ∃ t u v, exec (.getDigests fn m) s = .next t ∧ exec (.getCertificate fn m) s = .next u ∧
        exec (.challenge fn m) s = .next v ∧
        t = { s0 with out := .spdm fn.val (.digests 1 (sha256 s.certChain)) :: s.out } ∧
        (m.p1 = 0 → m.off < s.certChain.length → ∃ portion left, u = { s0 with out := .spdm fn.val (.certificate portion left) :: s.out } ∧
          portion = (s.certChain.drop m.off).take m.len ∧ m.off + portion.length + left = s.certChain.length) ∧
        (m.p1 = 0 → ∃ sig, sig.length = 64 ∧
          v = { s0 with freeCtr := v.freeCtr, out := .spdm fn.val (.challengeAuth (sha256 s.certChain) sig) :: s.out }) ∧
        (m.p1 ≠ 0 → u = { s0 with out := .spdm fn.val (.error .invalidRequest) :: s.out } ∧ v = u)) ∧
      (3 ≤ x.stage → ∃ t, exec (.getMeasurements fn m) s = .next t ∧
        (m.p2 = 0 → t = { s0 with out := .spdm fn.val (.measurementCount 9) :: s.out }) ∧
        (9 < m.p2 → m.p2 ≠ 0xFF → t = { s0 with out := .spdm fn.val (.error .invalidRequest) :: s.out }) ∧
        ((1 ≤ m.p2 ∧ m.p2 ≤ 9) ∨ m.p2 = 0xFF → ∃ l sig, t = { s0 with freeCtr := t.freeCtr, out := .spdm fn.val (.measurements l sig) :: s.out } ∧
          l.map Prod.fst = (if m.p2 = 0xFF then [1, 2, 3, 4, 5, 6, 7, 8, 9] else [m.p2]) ∧ (sig.isSome = true ↔ m.p1 % 2 = 1) ∧
          ∀ e ∈ l, e.1 ≠ 9 ∨ s.sch.active = none → e.2 = s.measured e.1)) ∧
      (3 ≤ x.stage → ∃ t sig, exec (.keyExchange fn m) s = .next t ∧ sig.length = 64 ∧ spdmTo { s0 with freeCtr := t.freeCtr } t fn
        { x0 with sessions := x.sessions ++ [(x.next, false)], next := x.next + 1 } (some (.keyExchange x.next sig))) ∧
      (m.session = none → ∀ c ∈ [Instr.finish fn m, .heartbeat fn m, .keyUpdate fn m, .endSession fn m, .ideKm fn m],
        exec c s = .next { s0 with out := .spdm fn.val (.error .sessionRequired) :: s.out }) ∧
      ∀ k, m.session = some k →
        ((k, false) ∈ x.sessions → ∃ t, exec (.finish fn m) s = .next t ∧
          spdmTo s0 t fn { x0 with sessions := x.sessions.map (fun e => if e.1 = k then (k, true) else e) } (some .finish)) ∧
        ((k, true) ∉ x.sessions → ∀ c ∈ [Instr.heartbeat fn m, .keyUpdate fn m, .endSession fn m, .ideKm fn m],
          exec c s = .next { s0 with out := .spdm fn.val (.error .unexpectedRequest) :: s.out }) ∧
        ((k, true) ∈ x.sessions →
          exec (.heartbeat fn m) s = .next { s0 with out := .spdm fn.val .heartbeat :: s.out } ∧
          exec (.keyUpdate fn m) s = .next { s0 with out := .spdm fn.val .keyUpdate :: s.out } ∧
          (∃ t, exec (.endSession fn m) s = .next t ∧
            spdmTo s0 t fn { x0 with sessions := x.sessions.filter (fun e => decide (e.1 ≠ k)) } (some .endSession)) ∧
          ∃ t, exec (.ideKm fn m) s = .next t ∧
            (m.p1 = 0 → t = { s0 with out := .spdm fn.val (.ideKm (decide (1 ≤ x.ide))) :: s.out }) ∧
            (m.p1 = 2 → spdmTo s0 t fn { x0 with ide := max x.ide 1, keys := aput m.p2 m.key x.keys } (some (.ideKm true))) ∧
            (m.p1 = 4 → 1 ≤ x.ide → t.flag (fHIF_UP_STATUS_IDE fn.val) = true ∧
              spdmTo { s0 with regs := t.regs } t fn { x0 with ide := 2 } (some (.ideKm true))) ∧
            (m.p1 = 5 → t.flag (fHIF_UP_STATUS_IDE fn.val) = false ∧
              spdmTo { s0 with regs := t.regs } t fn { x0 with ide := 0, keys := [] } (some (.ideKm false)))))

/-- From `s` to `t` partition `p` has become `x`, and nothing else of the device has changed. -/
def onlyPart (s t : State) (p : Fin 65) (x : Sys2Proof.Machine.Part) : Prop :=
  t = { s with que := t.que } ∧ t.que = { s.que with parts := t.que.parts } ∧ t.part p = x ∧ ∀ r, r ≠ p → t.part r = s.part r

/-- A tail doorbell of an ACTIVE SQ moves its tail, or puts the SQ in ERROR when it withdraws descriptors or leaves the ring; a
head doorbell does the same for a CQ; both are counted in QUE_PDBMISS when the queue is absent or not ACTIVE, and nothing
happens on the function that is not the partition's home. A version with major 1 is answered 1.min(minor, 2), any other
clears it with VERSION_MISMATCH, and one with work under way is INVALID_STATE, with an entry of the trouble log. A counter
takes an 8-byte write while the partition is not FROZEN. QUE_ADMIN_CTRL makes the admin pair, and is dropped while it
exists. COAL_US after the first unsignalled entry the message goes out, or its pending bit is set. What it states beyond the
rules is the choice of the model: log entries 90, 99, 100. [11_queues_and_partitions.md: rings and doorbells (R307 to R311),
coalescing (R317), versions (R319), queue errors (R321, R322), the admin pair (R323); 10_pcie_ports.md: BAR2 (R283)] -/
def Obligations.QueueRings : Prop :=
  ∀ (s : State) (fn : Fin 2) (p : Fin 65) (q size : Nat) (i : Fin 16) (v : BitVec 32) (w : BitVec 64),
    (s.homeFn p ≠ fn → ∀ c ∈ [Instr.sqDoorbell fn p q v, .cqDoorbell fn p q v, .queueVersionWrite fn p v, .pwCtrWrite fn p i size w],
      exec c s = .next s) ∧
    (s.homeFn p = fn →
      let miss (c : Instr) : Prop := ∃ t, exec c s = .next t ∧ t = { s with regs := t.regs } ∧ s.sameRegsBut t [(fQUE_PDBMISS_COUNT p.val).off] ∧
        t.fld (fQUE_PDBMISS_COUNT p.val) = min (s.fld (fQUE_PDBMISS_COUNT p.val) + 1) (2 ^ (fQUE_PDBMISS_COUNT p.val).w - 1)
      (s.sq? p q = none → miss (.sqDoorbell fn p q v)) ∧
      (s.cq? p q = none → miss (.cqDoorbell fn p q v)) ∧
      (∀ x, s.sq? p q = some x →
        (x.st ≠ .active ∨ (s.part p).st = .resetting ∨ 65536 ≤ v.toNat → miss (.sqDoorbell fn p q v)) ∧
        (x.st = .active → (s.part p).st ≠ .resetting → v.toNat < 65536 → ∃ t, exec (.sqDoorbell fn p q v) s = .next t ∧
          let n := 2 ^ x.size
          if v.toNat < n ∧ (x.tail + n - x.head) % n ≤ (v.toNat + n - x.head) % n then
            t = { s with que := t.que } ∧ t.que = { s.que with sqs := t.que.sqs } ∧ t.sq? p q = some { x with tail := v.toNat } ∧
            ∀ k, k ≠ (p.val, q) → alook k t.que.sqs = alook k s.que.sqs
          else t.sq? p q = some { x with st := .error } ∧ t.pavs = s.pavs ∧ (p = 0 → q = 0 → t.flag fQUE_ERR_ADMIN_ERR = true) ∧
            s.logged t 0x0301 blkQUE p.val .invalidField 0 0 (q + 65536 * p.val))) ∧
      (∀ x, s.cq? p q = some x →
        (x.err = true ∨ (s.part p).st = .resetting ∨ 65536 ≤ v.toNat → miss (.cqDoorbell fn p q v)) ∧
        (x.err = false → (s.part p).st ≠ .resetting → v.toNat < 65536 → (s.part p).pendEv = [] → ∃ t, exec (.cqDoorbell fn p q v) s = .next t ∧
          let n := 2 ^ x.size
          if v.toNat < n ∧ (v.toNat + n - x.head) % n ≤ (x.write + n - x.head) % n then
            t = { s with que := t.que } ∧ t.que = { s.que with cqs := t.que.cqs } ∧ t.cq? p q = some { x with head := v.toNat } ∧
            ∀ k, k ≠ (p.val, q) → alook k t.que.cqs = alook k s.que.cqs
          else t.pavs = s.pavs ∧ (∃ y, t.cq? p q = some y ∧ y.err = true) ∧
            s.logged t 0x0302 blkQUE p.val .invalidField 0 0 (q + 65536 * p.val))) ∧
      (∃ t, exec (.queueVersionWrite fn p v) s = .next t ∧
        if (∃ c ∈ s.que.cmds, c.part = p.val) ∨ (∃ e ∈ s.que.sqs, e.1.1 = p.val ∧ e.2.head ≠ e.2.tail) then
          onlyPart s { t with regs := s.regs, log := s.log } p { s.part p with verSt := .invalidState } ∧
          s.sameRegsBut t [fLOG_WR_COUNT.off, fLOG_ERR_WRAP.off] ∧
          s.logged t 0x0008 blkQUE p.val .invalidState 0 (p.val * 0x100000) v.toNat
        else if bitsOf v.toNat 8 8 = 1 then
          onlyPart s t p { s.part p with qver := BitVec.ofNat 16 (256 + min (bitsOf v.toNat 0 8) 2), verSt := .ok }
        else onlyPart s t p { s.part p with qver := 0, verSt := .versionMismatch }) ∧
      (size = 8 → (s.part p).st ≠ .frozen → ∃ t, exec (.pwCtrWrite fn p i size w) s = .next t ∧
        onlyPart s t p { s.part p with ctr := (s.part p).ctr.set i w }) ∧
      (size ≠ 8 ∨ (s.part p).st = .frozen → miss (.pwCtrWrite fn p i size w))) ∧
    (s.flag fQUE_ADMIN_CTRL_ENABLE = true → ∃ t, exec (.queAdminEnable v) s = .next t ∧ t = { s with regs := t.regs } ∧
      t.flag fQUE_ERR_CFG_DROP = true ∧ s.sameRegsBut t [fQUE_ERR_CFG_DROP.off]) ∧
    (s.flag fQUE_ADMIN_CTRL_ENABLE = false → bitOf v.toNat 0 = true → ∀ z, bitsOf v.toNat 8 5 = z → 4 ≤ z → z ≤ 16 →
      let a := s.fld fQUE_ADMIN_SQ_BASE
      let b := s.fld fQUE_ADMIN_CQ_BASE
      ∃ t, exec (.queAdminEnable v) s = .next t ∧
      (a % 4096 = 0 → b % 4096 = 0 → s.region? a (2 ^ z * 64) = some (.host s.ctrlFn.val) → s.region? b (2 ^ z * 32) = some (.host s.ctrlFn.val) →
        t = { s with regs := t.regs, que := t.que } ∧ t.flag fQUE_ADMIN_CTRL_ENABLE = true ∧ t.fld fQUE_ADMIN_CTRL_SIZE_LOG2 = z ∧
        (∃ y, t.sq? 0 0 = some y ∧ y.st = .active ∧ y.kind = 0 ∧ y.size = z ∧ y.base = a ∧ y.cq = 0 ∧ y.head = 0 ∧ y.tail = 0) ∧
        (∃ y, t.cq? 0 0 = some y ∧ y.err = false ∧ y.size = z ∧ y.base = b ∧ y.vec = 0 ∧ y.head = 0 ∧ y.write = 0 ∧ y.phase = true) ∧
        (t.part 0).evq = 0) ∧
      (a % 4096 ≠ 0 ∨ b % 4096 ≠ 0 → t = { s with regs := t.regs } ∧ t.flag fQUE_ERR_CFG_DROP = true ∧
        t.flag fQUE_ADMIN_CTRL_ENABLE = false)) ∧
    (∀ x, s.cq? p q = some x → x.unsig ≠ 0 → x.err = false → ∃ t, exec (.msixCoalesceTimeout p q) s = .next t ∧
      t.now = max s.now (x.firstUnsig + x.coalUs * 800) ∧ t.cq? p q = some { x with unsig := 0 } ∧ t.regs = s.regs ∧ t.mem = s.mem ∧
      let fn := s.homeFn p
      let n := if p = 0 then x.vec else (s.part p).vecBase + x.vec
      let e := smGet MsixEntry.reset s.hif.msix[fn].table n
      if s.hif.msix[fn].enable = true ∧ s.hif.msix[fn].fmask = false ∧ e.mask = false then
        t.hif = s.hif ∧ t.out = .msix fn e.addr e.data :: s.out
      else t.out = s.out ∧ n ∈ t.hif.msix[fn].pba)

/-- The device serves the highest class with an SQ that can be fetched from, and in it the partition with the least virtual
finish time, none while its CXL credits are exhausted; a descriptor that is read becomes a command, the head moves on, a CQ
entry is reserved, and the partition's finish time grows by its cost over its weight, by the limits last given; one that
cannot be read puts its SQ in ERROR, and so does a read in flight that fails as the SQ drains, whose QUEUE_DELETE ends with
the status; a read waits for a free tag of its link; a tenant whose peak bucket is short is refused with detail 0x4000 plus
its number. A command starts after the earlier ones of its SQ, unless it acts at once, with FENCE after their entries, once
its committed bucket holds the cost; one that may not be executed, or whose descriptor buffer cannot be read, ends with its
status. Its completion entry is written at the CQ's write index with the current phase, in one place only, and the
reservation is given back; a refusal shows no wait. What it states beyond the rules is the choice of the model: log entries
91, 92, 122. [11_queues_and_partitions.md: fetching and starting (R312 to R315), completions (R316, R320), service order
(R335), rates (R336); 01_node_architecture.md: waits (R28)] -/
def Obligations.CommandService : Prop :=
  ∀ (s : State) (id : Nat) (c : Cmd) (st wr : Status),
    (s.chooseSq = none → exec (.descriptorFetch none st) s = .next s) ∧
    (∀ p q, (s.part p).qver = 0 ∨ s.cxlFull p = true → ∀ cls, s.chooseSq ≠ some (p, q, cls)) ∧
    (∀ p q cls x, s.chooseSq = some (p, q, cls) → s.sq? p q = some x →
      (∀ r d, d < 8 → s.partFetches r = true → s.readySqs r d ≠ [] → d ≤ cls ∧ (d = cls → (s.part p).fin ≤ (s.part r).fin)) ∧
      (s.noTag (x.base + 64 * x.head) 64 = true → exec (.descriptorFetch none st) s = .next s) ∧
      (s.noTag (x.base + 64 * x.head) 64 = false → st ≠ .ok → ∃ t, exec (.descriptorFetch none st) s = .next t ∧
        t.sq? p q = some { x with st := .error } ∧ t.que.cmds = s.que.cmds) ∧
      (s.noTag (x.base + 64 * x.head) 64 = false → st = .ok → s.accessSt (x.base + 64 * x.head) 64 = .ok →
        let b := s.bytes (x.base + 64 * x.head) 64
        let y := ((s.part p).refill s.now).applyLimits
        let short : Prop := p ≠ 0 ∧ y.pr ≠ 0 ∧ y.peak < 800000000
        ∃ t k, exec (.descriptorFetch none st) s = .next t ∧ t = { s with regs := t.regs, que := t.que } ∧ t.que.cmds = s.que.cmds ++ [k] ∧
          t.sq? p q = some { x with head := (x.head + 1) % 2 ^ x.size } ∧ k.id = s.que.nextId ∧ t.que.nextId = k.id + 1 ∧ k.part = p.val ∧
          k.sq = q ∧ k.op = fieldAt b 0 1 ∧ k.fence = bitOf (fieldAt b 1 1) 0 ∧ k.cid = fieldAt b 2 2 ∧ k.user.toNat = fieldAt b 8 8 ∧
          k.params = b.drop 16 ∧ k.rsvBad = (decide (2 ≤ fieldAt b 1 1) || decide (fieldAt b 4 4 ≠ 0)) ∧ k.started = false ∧ k.cq = some x.cq ∧ k.freed = none ∧ k.gen = y.gen ∧ k.fetched = s.now ∧
          (∀ e, s.cq? p x.cq = some e → t.cq? p x.cq = some { e with reserved := e.reserved + 1 }) ∧
          (t.part p).fin = max s.que.virt (s.part p).fin + 65536 / max 1 y.weight ∧ (t.part p).newLimits = none ∧ t.que.virt = max s.que.virt (s.part p).fin ∧
          (∀ r, r ≠ p → t.part r = s.part r) ∧
          (short → k.done = some (.refusedPolicy, 0x4000 + p.val, 0) ∧ (t.part p).peak = y.peak) ∧
          (¬ short → k.done = none ∧ t.regs = s.regs ∧ (t.part p).peak = if p ≠ 0 ∧ y.pr ≠ 0 then y.peak - 800000000 else y.peak))) ∧
    (∀ p q x, s.sq? p q = some x → x.st = .draining → st ≠ .ok → ∃ t, exec (.descriptorFetch (some (p, q)) st) s = .next t ∧
      t.sq? p q = some { x with st := .error, delCmd := none } ∧ (x.delCmd = some id → s.doing id 0x23 c → t.ended id st 0 0) ∧
      (∀ j, some j ≠ x.delCmd → t.cmd? j = s.cmd? j)) ∧
    (s.cmd? id = some c → c.started = false → c.done = none → s.mgmtWaits c = false → ∀ h : c.part < 65,
      (c.op ≠ 0x21 → c.op ≠ 0x29 → ∀ d ∈ s.que.cmds, d.part = c.part → d.sq = c.sq → d.freed = c.freed → d.id < id →
        (d.started = false ∨ d.watch = true) → d.done ≠ none) →
      (c.fence = true → ∀ d ∈ s.que.cmds, d.part = c.part → d.sq = c.sq → d.freed = c.freed → ¬ d.id < id) →
      (∃ t, exec (.commandStart id .ue) s = .next t ∧ (∃ k, t.cmd? id = some k ∧ k.started = true ∧ k.done = some (.dataError, 0, 0)) ∧
        t.flag fLOG_ERR_DEV_UE = true) ∧
      let p : Fin 65 := ⟨c.part, h⟩
      let y := (s.part p).refill s.now
      ∃ t k, exec (.commandStart id .ok) s = .next t ∧ t.cmd? id = some k ∧ k.started = true ∧ k = { c with started := true, wait := k.wait, done := k.done } ∧
        k.wait = t.now - c.fetched ∧ t.pavs = s.pavs ∧ t.mem = s.mem ∧ t.scratch = s.scratch ∧
        (∀ r, r ≠ p → t.part r = s.part r) ∧
        (p = 0 ∨ y.cr = 0 ∨ 800000000 ≤ y.commit → t.now = s.now ∧ (p ≠ 0 → y.cr ≠ 0 → (t.part p).commit = y.commit - 800000000)) ∧
        (p ≠ 0 → y.cr ≠ 0 → y.commit < 800000000 → ∃ n, t.now = s.now + n ∧ 800000000 ≤ y.commit + y.cr * n ∧
          (∀ m, m < n → y.commit + y.cr * m < 800000000) ∧ (t.part p).commit = y.commit + y.cr * n - 800000000) ∧
        (s.flag fLDG_STATE_READY = false → k.done = some (.notReady, 0, 0)) ∧
        (s.flag fLDG_STATE_READY = true →
          (c.rsvBad = true ∨ (c.fence = true ∧ (s.part p).qver.toNat < 0x102) → k.done = some (.invalidField, 0, 0)) ∧
          (c.rsvBad = false → c.fence = false →
            (c.part ≠ 0 → (c.op ∈ [0x10, 0x11, 0x12, 0x60, 0x61] ∨ (0x20 ≤ c.op ∧ c.op ≤ 0x2A)) → k.done = some (.refusedPolicy, 0x47FF, 0) ∧
              t.fld (fQUE_PREFUSED_COUNT p.val) = min (s.fld (fQUE_PREFUSED_COUNT p.val) + 1) (2 ^ (fQUE_PREFUSED_COUNT p.val).w - 1)) ∧
            (c.op ∈ [0x01, 0x04, 0x13, 0x1F, 0x2B, 0x3F, 0x45, 0x4F, 0x51, 0x65, 0xFF] → k.done = some (.invalidField, 0, 0)) ∧
            (c.op ∈ [0x02, 0x03] → k.done = if (s.part p).qver.toNat < 0x102 then some (.invalidField, 0, 0) else none) ∧
            (∀ x, s.sq? p c.sq = some x → x.kind ≤ 1 →
              (c.op ∈ [0x40, 0x41, 0x42, 0x43, 0x44, 0x48, 0x49, 0x4A, 0x4B, 0x4C, 0x4D, 0x4E, 0x62, 0x63, 0x64] →
                k.done = if x.kind = 0 then none else some (.invalidField, 0, 0)) ∧
              (c.op = 0x50 → k.done = if x.kind = 1 then none else some (.invalidField, 0, 0)) ∧
              (c.part = 0 → 0x20 ≤ c.op → c.op ≤ 0x2A → k.done = if x.kind = 0 then none else some (.invalidField, 0, 0)))))) ∧
    (∀ r d res x k h, s.cmd? id = some c → c.part < 65 → c.done = some (r, d, res) → r ≠ .abortedPartitionReset → r ≠ .invalidState →
      (c.op ≠ 3 ∨ r = .ok) → c.shaped = false → s.sq? c.p c.sq = some x → ∀ n, c.cq = some n → s.cq? c.p n = some k → k.err = false →
      (wr = .ok → s.region? (k.base + 32 * k.write) 32 = some (.host h) → s.flag (fHIF_UP_STATUS_LINK_UP h) = true →
        ∃ t z, exec (.commandComplete id wr) s = .next t ∧ t.cmd? id = none ∧ t.pavs = s.pavs ∧ t.regs = s.regs ∧ t.log = s.log ∧
          s.sameBytesBut t [(k.base + 32 * k.write, 32)] ∧
          let old := decide ((s.part c.p).qver = 0x100)
          let b := t.bytes (k.base + 32 * k.write) 32
          fieldAt b 0 8 = c.user.toNat ∧ fieldAt b 8 8 = res.toNat ∧ fieldAt b 0x10 2 = c.cid % 65536 ∧ fieldAt b 0x12 2 = c.sq % 65536 ∧
          fieldAt b 0x14 2 = (c.freed.getD x.head) % 65536 ∧ fieldAt b 0x16 2 = (if old then 0 else d % 65536) ∧
          fieldAt b 0x18 2 = (if old ∨ r = .refusedPolicy ∨ r = .refusedResource then 0
            else min ((c.wait + (match c.held with | some a => s.now - a | none => 0) + 799) / 800) 0xFFFF) ∧ fieldAt b 0x1A 2 = 0 ∧ fieldAt b 0x1C 2 = statusCode r ∧
          fieldAt b 0x1E 2 = (if k.phase then 0x8000 else 0) ∧
          t.cq? c.p n = some z ∧ z.reserved = k.reserved - 1 ∧ z.count = k.count + 1 ∧
          (k.write + 1 = 2 ^ k.size → z.write = 0 ∧ z.phase = !k.phase) ∧
          (k.write + 1 ≠ 2 ^ k.size → z.write = k.write + 1 ∧ z.phase = k.phase) ∧ (t.part c.p).seq = (s.part c.p).seq + 1) ∧
      (wr ≠ .ok → ∃ t z, exec (.commandComplete id wr) s = .next t ∧ t.cmd? id = none ∧ t.cq? c.p n = some z ∧ z.err = true ∧
        s.logged t 0x0302 blkQUE c.part wr 0 0 (n + 65536 * c.part))) ∧
    (s.doing id 0x00 c → ∃ t, exec (.cmdNop id) s = .next t ∧ s.onlyCmd t id ∧ t.ended id .ok 0 0)

/-- A partition command names a partition 1 to 64, or ends INVALID_FIELD; in a state that does not allow it, it ends
INVALID_STATE without effect. PART_CREATE of parameters in range makes an UNASSIGNED partition ACTIVE under the next
generation; PART_DESTROY takes its queues, placement registers and credits; PART_LIMITS changes weight and rates.
PART_FREEZE starts a grace period, after which the partition is FROZEN when its commands and migrations have ended, or
ACTIVE again with TIMEOUT. PART_SAVE writes the blob of a FROZEN partition; PART_RESTORE checks magic, version and CRC, in
that order, and makes a FROZEN partition; PART_RESUME makes it ACTIVE. PART_RESET aborts its commands, clears its version,
advances its generation and, once complete, leaves it ACTIVE. [11_queues_and_partitions.md: partitions (R324 to R329),
freezing and state (R330 to R334), limits (R336)] -/
def Clause.partitions : Prop :=
  ∀ (s : State) (id : Nat) (c : Cmd) (p : Fin 65),
    (∀ e ∈ [(0x20, Instr.partCreate id), (0x21, .partDestroy id), (0x25, .partFreeze id), (0x26, .partSave id), (0x27, .partRestore id),
        (0x28, .partResume id), (0x29, .partReset id), (0x2A, .partLimits id)],
      s.doing id e.1 c → (c.f 0 1 = 0 ∨ 64 < c.f 0 1) → ∃ t, exec e.2 s = .next t ∧ s.onlyCmd t id ∧ t.ended id .invalidField 0 0) ∧
    (p ≠ 0 → c.f 0 1 = p.val → c.part = 0 →
      let x := s.part p
      let stops (e : Instr) (st : Status) : Prop := ∃ t, exec e s = .next t ∧ s.onlyCmd t id ∧ t.ended id st 0 0
      let noSave : Prop := ∀ d ∈ s.que.cmds, d.op = 0x26 ∨ d.op = 0x27 → d.started = true → d.done = none → d.f 0 1 ≠ p.val
      (s.doing id 0x20 c →
        (s.createOk c p = false → stops (.partCreate id) .invalidField) ∧
        (s.createOk c p = true → x.st ≠ .unassigned → stops (.partCreate id) .invalidState) ∧
        (s.createOk c p = true → x.st = .unassigned →
          (1 ≤ c.f 2 2 ∧ c.f 2 2 ≤ 16384 ∧ 1 ≤ c.f 4 2 ∧ c.f 4 2 ≤ 16384 ∧ 1 ≤ c.f 8 2 ∧ c.f 6 2 + c.f 8 2 ≤ 4096 ∧ c.f 11 1 ≤ 7 ∧
            (c.f 20 4 = 0 ∨ (c.f 16 4 ≠ 0 ∧ c.f 16 4 ≤ c.f 20 4)) ∧ (c.f 1 1 = 1 → s.flag fHIF_CFG_BIF = true)) ∧
          ∃ t y, exec (.partCreate id) s = .next t ∧ t.ended id .ok 0 0 ∧ t = { s with que := t.que } ∧ t.part p = y ∧ y.st = .active ∧
            y.gen = x.gen + 1 ∧ y.qver = 0 ∧ y.home = c.f 1 1 ∧ y.sqMax = c.f 2 2 ∧ y.cqMax = c.f 4 2 ∧ y.vecBase = c.f 6 2 ∧
            y.vecCount = c.f 8 2 ∧ y.weight = c.f 10 1 ∧ y.classMax = c.f 11 1 ∧ y.evq = c.f 12 2 ∧ y.cr = c.f 16 4 ∧ y.pr = c.f 20 4 ∧
            y.burstUs = c.f 24 2 ∧ y.seq = 0 ∧ y.fin = x.fin ∧ (∀ i, y.ctr[(i : Fin 16)] = 0) ∧ ∀ r, r ≠ p → t.part r = s.part r)) ∧
      (s.doing id 0x21 c → c.clean [at8 0 0 8] = true →
        (x.st = .unassigned ∨ x.st = .resetting → noSave → stops (.partDestroy id) .invalidState) ∧
        (x.st = .active ∨ x.st = .frozen → x.freeze = none → (∀ e ∈ s.que.sqs, e.1.1 = p.val → e.2.delCmd = none) → s.rdm.qps = [] →
          ∃ t, exec (.partDestroy id) s = .next t ∧ t.ended id .ok 0 0 ∧ (t.part p).st = .unassigned ∧ (t.part p).gen = x.gen + 1 ∧
            (∀ q, t.sq? p q = none ∧ t.cq? p q = none) ∧ (∀ d ∈ t.que.cmds, d.part ≠ p.val) ∧ t.fld (fMEM_PT_BASE_BASE p.val) = 0 ∧
            t.fld (fMEM_PT_LEN_LEN p.val) = 0 ∧ t.fld (fCXM_CREDIT_CREDITS p.val) = 0 ∧ ∀ r, r ≠ p → t.part r = s.part r)) ∧
      (s.doing id 0x2A c → c.clean [at8 0 0 8, at8 10 0 8, at8 16 0 32, at8 20 0 32, at8 24 0 16] = true →
        ratesOk (c.f 10 1) (c.f 16 4) (c.f 20 4) (c.f 24 2) = true →
        (x.st ≠ .active → stops (.partLimits id) .invalidState) ∧
        (x.st = .active → ∃ t, exec (.partLimits id) s = .next t ∧ t.ended id .ok 0 0 ∧ t = { s with que := t.que } ∧
          t.part p = { x with newLimits := some { weight := c.f 10 1, cr := c.f 16 4, pr := c.f 20 4, burstUs := c.f 24 2 } } ∧
          (∀ r, r ≠ p → t.part r = s.part r) ∧
          (let y := (t.part p).applyLimits
           y.weight = c.f 10 1 ∧ y.cr = c.f 16 4 ∧ y.pr = c.f 20 4 ∧ y.burstUs = c.f 24 2 ∧ y.newLimits = none ∧
           y.commit ≤ c.f 16 4 * c.f 24 2 * 800 ∧ y.peak ≤ c.f 20 4 * c.f 24 2 * 800 ∧
           (x.cr = 0 → y.commit = c.f 16 4 * c.f 24 2 * 800) ∧ (x.pr = 0 → y.peak = c.f 20 4 * c.f 24 2 * 800)))) ∧
      (s.doing id 0x25 c → c.clean [at8 0 0 8, at8 4 0 32, at8 8 0 16] = true → c.f 4 4 ≤ 10000000 → 1 ≤ c.f 8 2 →
        (∀ f, x.freeze = some f → f.cmd ≠ id) →
        (x.st ≠ .active → stops (.partFreeze id) .invalidState) ∧
        (x.st = .active → x.qver ≠ 0x102 → ∃ t f, exec (.partFreeze id) s = .next t ∧ t.cmd? id = some c ∧ (t.part p).st = .freezing ∧
          (t.part p).freeze = some f ∧ f.cmd = id ∧ f.graceEnd = s.now + c.f 4 4 * 800 ∧
          f.drainEnd = f.graceEnd + c.f 8 2 * 800000 ∧ f.graceOver = false ∧ s.logged t 0x0303 blkQUE p.val .ok 0 0 (c.f 4 4))) ∧
      (s.doing id 0x26 c → c.clean [at8 0 0 8, at8 8 0 64, at8 16 0 64] = true → c.f 8 8 % 64 = 0 →
        (x.st ≠ .frozen → stops (.partSave id) .invalidState) ∧
        (x.st = .frozen → ∀ n, n = 196 + 16 * ((s.que.sqs.filter (fun e => e.1.1 = p.val)).length + (s.que.cqs.filter (fun e => e.1.1 = p.val)).length) →
          (c.f 16 8 < n → stops (.partSave id) .invalidField) ∧
          (n ≤ c.f 16 8 → s.plainAt (c.f 8 8) n → s.partRanges 0 (c.f 8 8) n = .ok [(c.f 8 8, n)] → ∃ t b, exec (.partSave id) s = .next t ∧
            t.ended id .ok 0 0 ∧ s.wrote t (c.f 8 8) b ∧ b.length = n ∧ fieldAt b 0 4 = 0x42545350 ∧ fieldAt b 4 2 = 2 ∧
            fieldAt b 6 2 = x.qver.toNat ∧ (n < 2 ^ 64 → fieldAt b 8 8 = n) ∧ fieldAt b 0x2A 1 = x.gen.toNat ∧ fieldAt b 0x30 8 = x.seq % 2 ^ 64 ∧
            fieldAt b (n - 4) 4 = (crc32c (b.take (n - 4))).toNat ∧ ∀ i : Fin 16, fieldAt b (0x40 + 8 * i.val) 8 = x.ctr[i].toNat))) ∧
      (s.doing id 0x27 c → c.clean [at8 0 0 8, at8 1 0 1, at8 6 0 12, at8 8 0 64, at8 16 0 64, at8 24 0 64] = true → c.f 8 8 % 64 = 0 →
        c.f 1 1 = 0 →
        (x.st ≠ .unassigned → stops (.partRestore id) .invalidState) ∧
        (x.st = .unassigned → c.f 16 8 < 16 → stops (.partRestore id) .invalidField) ∧
        (x.st = .unassigned → 16 ≤ c.f 16 8 → ∀ h, s.partRead 0 (c.f 8 8) 16 = .ok h →
          let len := fieldAt h 8 8
          (fieldAt h 0 4 ≠ 0x42545350 ∨ c.f 16 8 < len → stops (.partRestore id) .invalidField) ∧
          (fieldAt h 0 4 = 0x42545350 → len ≤ c.f 16 8 →
            (fieldAt h 4 2 ≠ 2 → stops (.partRestore id) .versionMismatch) ∧
            (fieldAt h 4 2 = 2 → ∀ b, s.partRead 0 (c.f 8 8) len = .ok b →
              (len < 4 ∨ (crc32c (b.take (len - 4))).toNat ≠ fieldAt b (len - 4) 4 → stops (.partRestore id) .authFail) ∧
              (4 ≤ len → (crc32c (b.take (len - 4))).toNat = fieldAt b (len - 4) 4 → blobHdrOk b = true → s.vecsFree p 0 (c.f 6 2) (fieldAt b 0x18 2) = true →
                fieldAt b 0x10 2 = 0 → fieldAt b 0x12 2 = 0 → s.que.sqs.length ≤ 16384 → s.que.cqs.length ≤ 16384 →
                ∃ t y, exec (.partRestore id) s = .next t ∧ t.ended id .ok 0 0 ∧ t = { s with que := t.que } ∧ t.part p = y ∧ y.st = .frozen ∧
                  y.gen = x.gen + 1 ∧ y.qver.toNat = fieldAt b 6 2 ∧ y.home = 0 ∧ y.vecBase = c.f 6 2 ∧ y.vecCount = fieldAt b 0x18 2 ∧
                  y.weight = fieldAt b 0x1A 1 ∧ y.cr = fieldAt b 0x20 4 ∧ y.seq = fieldAt b 0x30 8 ∧
                  (∀ i : Fin 16, y.ctr[i].toNat = fieldAt b (0x40 + 8 * i.val) 8) ∧ ∀ r, r ≠ p → t.part r = s.part r))))) ∧
      (s.doing id 0x28 c → c.clean [at8 0 0 8] = true →
        (x.st ≠ .frozen → stops (.partResume id) .invalidState) ∧
        (x.st = .frozen → ∃ t, exec (.partResume id) s = .next t ∧ t.ended id .ok 0 0 ∧ (t.part p).st = .active ∧ (t.part p).gen = x.gen ∧
          s.logged t 0x0306 blkQUE p.val .ok 0 0 x.gen.toNat)) ∧
      (s.doing id 0x29 c → c.clean [at8 0 0 8] = true → x.resetCmd ≠ some id →
        (x.st = .unassigned ∨ x.st = .resetting → noSave → stops (.partReset id) .invalidState) ∧
        (x.st = .active ∨ x.st = .freezing ∨ x.st = .frozen → ∃ t, exec (.partReset id) s = .next t ∧ (t.part p).st = .resetting ∧
          (t.part p).gen = x.gen + 1 ∧ (t.part p).qver = 0 ∧ (t.part p).resetCmd = some id ∧ (∀ d ∈ t.que.cmds, d.part ≠ p.val) ∧
          t.pavs = s.pavs ∧ ∀ q y, s.sq? p q = some y → y.st = .active → (∀ e ∈ s.que.sqs, e.1 = (p.val, q) → e.2 = y) →
            t.sq? p q = some { y with head := y.tail }))) ∧
    (∀ f, (s.part p).freeze = some f →
      (f.graceOver = false → ∃ t, exec (.freezeGraceEnd p) s = .next t ∧ t.now = max s.now f.graceEnd ∧
        t.part p = { s.part p with freeze := some { f with graceOver := true } } ∧ ∀ r, r ≠ p → t.part r = s.part r) ∧
      (f.graceOver = true →
        ((∃ d ∈ s.que.cmds, d.part = p.val) ∨ (∃ m ∈ s.gmem.migs, m.part = p.val) → exec (.freezeDrained p) s = .next s) ∧
        ((∀ d ∈ s.que.cmds, d.part ≠ p.val) → (∀ m ∈ s.gmem.migs, m.part ≠ p.val) → s.doing f.cmd 0x25 c → ∀ e, e = .freezeDrained p ∨ e = .freezeDrainTimeout p →
          (s.now ≤ f.drainEnd → ∃ t, exec e s = .next t ∧ t = { s with que := t.que } ∧
            t.part p = { s.part p with st := .frozen, freeze := none } ∧ t.ended f.cmd .ok 0 0) ∧
          (f.drainEnd < s.now → ∃ t, exec e s = .next t ∧ t.now = s.now ∧ (t.part p).st = .active ∧ (t.part p).freeze = none ∧
            t.ended f.cmd .timeout 0 0)) ∧
        ((∃ d ∈ s.que.cmds, d.part = p.val) ∨ (∃ m ∈ s.gmem.migs, m.part = p.val) → s.doing f.cmd 0x25 c → ∃ t,
          exec (.freezeDrainTimeout p) s = .next t ∧ t.now = max s.now f.drainEnd ∧ (t.part p).st = .active ∧
          (t.part p).freeze = none ∧ t.ended f.cmd .timeout 0 0))) ∧
    ((s.part p).st = .resetting → ∃ t, exec (.partResetComplete p) s = .next t ∧ (t.part p).st = .active ∧ (t.part p).resetCmd = none ∧
      (t.part p).gen = (s.part p).gen ∧ s.logged t 0x0305 blkQUE p.val .abortedPartitionReset 0 0 (s.part p).gen.toNat ∧
      (∀ i, (s.part p).resetCmd = some i → s.doing i 0x29 c → t.ended i .ok 0 0))

/-- QUEUE_CREATE of parameters in range makes a FREE queue ACTIVE, empty, with the ring, vector, class and limits given; a queue
that exists, or an SQ whose CQ is not ACTIVE, is INVALID_STATE, a full pool REFUSED_RESOURCE. QUEUE_DELETE frees a CQ that
no SQ names and an SQ in ERROR; an ACTIVE SQ drains, and is FREE when its fetched commands have completed, which completes
the command. QUEUE_RESET makes a queue in ERROR ACTIVE and empty. In another state each ends INVALID_STATE without effect.
[11_queues_and_partitions.md: queue states (R321, R322), partition 0's queues (R323), commands (R325)] -/
def Clause.queueCommands : Prop :=
  ∀ (s : State) (id : Nat) (c : Cmd) (p : Fin 65), c.f 0 1 = p.val →
    let q := c.f 2 2
    let isCq := bitOf (c.f 1 1) 0
    let stops (e : Instr) (st : Status) (d : Nat) : Prop := ∃ t, exec e s = .next t ∧ s.onlyCmd t id ∧ t.ended id st d 0
    (s.doing id 0x22 c → s.queueOk c p (s.part p) = true →
      (4 ≤ c.f 4 1 ∧ c.f 4 1 ≤ 16 ∧ c.f 8 8 % 4096 = 0 ∧
        s.region? (c.f 8 8) (2 ^ c.f 4 1 * (if isCq then 32 else 64)) = some (.host (s.homeFn p).val) ∧
        (isCq = true → p ≠ 0 → c.f 6 2 < (s.part p).vecCount) ∧ (isCq = false → c.f 5 1 ≤ (s.part p).classMax)) ∧
      ((s.part p).st ≠ .active ∨ (isCq = true ∧ (s.cq? p q).isSome = true) ∨ (isCq = false ∧ (s.sq? p q).isSome = true) ∨
          (isCq = false ∧ ∀ k, s.cq? p (c.f 6 2) = some k → k.err = true) → stops (.queueCreate id) .invalidState 0) ∧
      ((s.part p).st = .active → isCq = true → s.cq? p q = none →
        (16384 ≤ s.que.cqs.length → stops (.queueCreate id) .refusedResource 0x4101) ∧
        (s.que.cqs.length < 16384 → ∃ t k, exec (.queueCreate id) s = .next t ∧ t.ended id .ok 0 0 ∧ t = { s with que := t.que } ∧
          t.que.sqs = s.que.sqs ∧ t.cq? p q = some k ∧ k.err = false ∧ k.size = c.f 4 1 ∧ k.vec = c.f 6 2 ∧ k.base = c.f 8 8 ∧
          k.coalCount = c.f 16 2 ∧ k.coalUs = c.f 18 2 ∧ k.head = 0 ∧ k.write = 0 ∧ k.phase = true ∧ k.reserved = 0 ∧
          ∀ j, j ≠ (p.val, q) → alook j t.que.cqs = alook j s.que.cqs)) ∧
      ((s.part p).st = .active → isCq = false → s.sq? p q = none → ∀ k, s.cq? p (c.f 6 2) = some k → k.err = false →
        (16384 ≤ s.que.sqs.length → stops (.queueCreate id) .refusedResource 0x4100) ∧
        (s.que.sqs.length < 16384 → ∃ t y, exec (.queueCreate id) s = .next t ∧ t.ended id .ok 0 0 ∧ t = { s with que := t.que } ∧
          t.que.cqs = s.que.cqs ∧ t.sq? p q = some y ∧ y.st = .active ∧ y.kind = bitsOf (c.f 1 1) 1 2 ∧ y.size = c.f 4 1 ∧ y.cls = c.f 5 1 ∧
          y.cq = c.f 6 2 ∧ y.base = c.f 8 8 ∧ y.head = 0 ∧ y.tail = 0 ∧ ∀ j, j ≠ (p.val, q) → alook j t.que.sqs = alook j s.que.sqs))) ∧
    (s.doing id 0x23 c → c.clean [at8 0 0 8, at8 1 0 1, at8 2 0 16] = true → (∀ e ∈ s.que.sqs, e.2.delCmd ≠ some id) →
      ((s.part p).st ≠ .active ∨ (p = 0 ∧ q = 0) ∨ (isCq = true ∧ (s.cq? p q = none ∨ ∃ e ∈ s.que.sqs, e.1.1 = p.val ∧ e.2.cq = q)) ∨
          (isCq = false ∧ (s.sq? p q = none ∨ ∃ y, s.sq? p q = some y ∧ y.st = .draining)) → stops (.queueDelete id) .invalidState 0) ∧
      ((s.part p).st = .active → p ≠ 0 ∨ q ≠ 0 →
        (isCq = true → (s.cq? p q).isSome = true → (∀ e ∈ s.que.sqs, e.1.1 = p.val → e.2.cq ≠ q) → ∃ t, exec (.queueDelete id) s = .next t ∧
          t.ended id .ok 0 0 ∧ t = { s with que := t.que } ∧ t.cq? p q = none ∧ ∀ j, j ≠ (p.val, q) → alook j t.que.cqs = alook j s.que.cqs) ∧
        (isCq = false → ∀ y, s.sq? p q = some y →
          (y.st = .error → ∃ t, exec (.queueDelete id) s = .next t ∧ t.ended id .ok 0 0 ∧ t.sq? p q = none ∧ t = { s with que := t.que } ∧
            ∀ j, j ≠ (p.val, q) → alook j t.que.sqs = alook j s.que.sqs) ∧
          (y.st = .active → ∃ t, exec (.queueDelete id) s = .next t ∧ t.cmd? id = some c ∧ t = { s with que := t.que } ∧
            t.sq? p q = some { y with st := .draining, delCmd := some id })))) ∧
    (∀ y, s.sq? p q = some y → y.st = .draining →
      ((∃ d ∈ s.que.cmds, d.part = p.val ∧ d.sq = q ∧ d.freed = none ∧ some d.id ≠ y.delCmd) → exec (.sqDrainDone p q) s = .next s) ∧
      ((∀ d ∈ s.que.cmds, d.part = p.val → d.sq = q → d.freed = none → some d.id = y.delCmd) → y.delCmd = some id → s.doing id 0x23 c → ∃ t,
        exec (.sqDrainDone p q) s = .next t ∧ t.sq? p q = none ∧ t.ended id .ok 0 0 ∧ t = { s with que := t.que })) ∧
    (s.doing id 0x24 c → c.clean [at8 0 0 8, at8 1 0 1, at8 2 0 16] = true →
      ((s.part p).st ≠ .active ∧ (s.part p).st ≠ .frozen ∨ (isCq = true ∧ ∀ k, s.cq? p q = some k → k.err = false) ∨
          (isCq = false ∧ ∀ y, s.sq? p q = some y → y.st ≠ .error) → stops (.queueReset id) .invalidState 0) ∧
      ((s.part p).st = .active ∨ (s.part p).st = .frozen →
        (isCq = true → ∀ k, s.cq? p q = some k → k.err = true → ∃ t z, exec (.queueReset id) s = .next t ∧ t.ended id .ok 0 0 ∧
          t = { s with que := t.que } ∧ t.cq? p q = some z ∧ z.err = false ∧ z.head = 0 ∧ z.write = 0 ∧ z.phase = true ∧ z.base = k.base ∧
          z.size = k.size ∧ z.vec = k.vec) ∧
        (isCq = false → ∀ y, s.sq? p q = some y → y.st = .error → ∃ t, exec (.queueReset id) s = .next t ∧ t.ended id .ok 0 0 ∧
          t = { s with que := t.que } ∧ t.sq? p q = some { y with st := .active, head := 0, tail := 0 })))

/-- Partition and queue commands: PART_CREATE to PART_LIMITS: states, generations, freezing, the state blob, resets;
QUEUE_CREATE, QUEUE_DELETE, QUEUE_RESET and the end of a drain. What it states beyond the rules is the choice of the model:
log entries 67, 93 to 98. -/
def Obligations.QueuesAndPartitions : Prop := Clause.partitions ∧ Clause.queueCommands

/-- From `s` to `t` the RDMA packet `a` has left on the fabric (R165, R167, R339): its flits wait in lane LO at the port that the
routing bank gives for its device and path; one without a route is flagged, and one for this device goes round. No other register,
and nothing else of the fabric, has changed. -/
def leftOn (s t : State) (a : RdmaTx) : Prop :=
  t.out = .rdma a :: s.out ∧ a.port = none ∧
    match s.wayTo (a.dev % 16384) (a.path % 256) with
    | .none => t.fab = s.fab ∧ t.flag fFAB_ERR_NO_ROUTE = true ∧ s.sameRegsBut t [fFAB_ERR_NO_ROUTE.off]
    | .here => t.fab = s.fab ∧ t.regs = s.regs
    | .out o => t.regs = s.regs ∧ t.fab = { s.fab with ports := t.fab.ports } ∧ (∀ q, q ≠ o → t.fab.ports[q] = s.fab.ports[q]) ∧
        ∃ l, t.fab.ports[o] = { s.fab.ports[o] with volQ := s.fab.ports[o].volQ ++ l } ∧
          l.length = (rdmaBytes a.op a.data.length + 303) / 304 ∧ ∀ x ∈ l, x.src = 24 ∧ x.slot = s.slot ∧ x.inPair = 2 * (a.vc % 8)



/-- A packet on the fabric from an older generation of its source is dropped and counted in flits. A packet for QP1 goes to
software; a reliable datagram for an unknown endpoint is answered 0x7FF. On a connected queue pair the packet expected is
placed and acknowledged: a SEND into the receive at the head, which completes; a WRITE, a READ and an atomic only where the
key, partition, range and access agree, else an access NAK; one out of sequence is NAKed, one seen before counted; no
receive gives MIN_RNR. A sprayed write is placed in any order within the window, and acknowledged where a message ends or
the highest PSN moves on; a reliable datagram is placed once, and acknowledged again when it comes again. A response of
another generation is stale. A packet whose context is away waits, or is refused with RNR code 1. The timers resend, end
with TIMEOUT, abandon, release or recover as their rules say. What it states beyond the rules is the choice of the model:
log entries 101, 102, 104 to 108. [12_rdma_and_storage.md: transport (R338, R339), remote access (R344, R345), contexts
(R346 to R348), retries (R349, R350), spraying (R351, R352); 12_rdma_and_storage.md: reliable datagrams (R353 to R355),
chaining (R356, R357), congestion (R358), partitions (R359); 11_queues_and_partitions.md: R327; 06_fabric_links.md:
generations (R178), injection (R165, R167)] -/
def Obligations.RdmaTransport : Prop :=
  ∀ (s : State) (n : Nat) (q : Qp) (k : RdmaPkt) (id : Nat) (c : Cmd) (p : Fin 65),
    let known := s.flag (fFAB_GEN_KNOWN k.srcDev.val)
    let gen := s.fld (fFAB_GEN_GEN k.srcDev.val)
    let flits := (rdmaBytes k.op k.data.length + 303) / 304
    let fresh : Prop := (k.port = none → s.fab.resetting = false ∧ known = true ∧ gen = k.srcGen.toNat) ∧
      ∀ l, k.port = some l → ∀ x ∈ s.eth.handed, x.1 ≠ l.val
    (k.port = none → s.fab.resetting = true ∨ (known = true ∧ gen ≠ k.srcGen.toNat) → ∃ t, exec (.rdmaPacketReceive k) s = .next t ∧
      t = { s with regs := t.regs } ∧
      if s.fab.resetting then
        t.fld (fFAB_DISCARD_COUNT k.inPort.val) = min (s.fld (fFAB_DISCARD_COUNT k.inPort.val) + flits) (2 ^ (fFAB_DISCARD_COUNT k.inPort.val).w - 1)
      else t.fld (fFAB_STALE_COUNT k.inPort.val) = min (s.fld (fFAB_STALE_COUNT k.inPort.val) + flits) (2 ^ (fFAB_STALE_COUNT k.inPort.val).w - 1)) ∧
    (k.destQp.toNat = 1 → fresh → exec (.rdmaPacketReceive k) s = .next { s with out := .qp1 k :: s.out }) ∧
    (k.destQp.toNat = 1 → k.port = none → s.fab.resetting = false → known = false → ∃ t, exec (.rdmaPacketReceive k) s = .next t ∧
      t = { s with regs := t.regs, out := .qp1 k :: s.out } ∧ t.flag (fFAB_GEN_KNOWN k.srcDev.val) = true ∧
      t.fld (fFAB_GEN_GEN k.srcDev.val) = k.srcGen.toNat) ∧
    (k.destQp.toNat = 1 → ∀ l x, k.port = some l → s.eth.handed.find? (fun y => some l.val == some y.1) = some x →
      exec (.rdmaPacketReceive k) s = .next { s with out := .qp1 { k with ecn := k.ecn || x.2 } :: s.out,
                                                     eth := { s.eth with handed := s.eth.handed.erase x } }) ∧
    (k.destQp.toNat ≠ 1 → fresh → s.qp? k.destQp.toNat = none →
      (∀ h, k.port = none → k.op = .rdSend h ∨ k.op = .rdWrite h → ∃ t a, exec (.rdmaPacketReceive k) s = .next t ∧ leftOn s t a ∧
        t.rdm = s.rdm ∧ t.mem = s.mem ∧ a.op = .rdNak h.srcEp h.msg 0x7FF ∧ a.dev = k.srcDev.val) ∧
      ((∀ h, k.op ≠ .rdSend h ∧ k.op ≠ .rdWrite h) → (isRsp k.op = false ∨ ∀ x ∈ s.rdm.heldQpns, x.1 ≠ k.destQp.toNat) →
        exec (.rdmaPacketReceive k) s = .next s) ∧
      (isRsp k.op = true → (∀ h, k.op ≠ .rdSend h ∧ k.op ≠ .rdWrite h) → ∀ x, s.rdm.heldQpns.find? (fun y => y.1 = k.destQp.toNat) = some x → x.2.2 < 65 →
        ∃ t, exec (.rdmaPacketReceive k) s = .next t ∧ t = { s with regs := t.regs } ∧
          t.fld (fQUE_PSTALE_COUNT x.2.2) = min (s.fld (fQUE_PSTALE_COUNT x.2.2) + 1) (2 ^ (fQUE_PSTALE_COUNT x.2.2).w - 1))) ∧
    (s.qp? n = some q → n ≠ 1 → k.destQp.toNat = n → fresh → k.port = none → k.ue = .none → q.die = .on → q.waiting = [] →
      let e := exec (.rdmaPacketReceive k) s
      let len := k.data.length
      let reply (op : RdmaOp) (psn : BitVec 24) : Prop := ∃ t a, e = .next t ∧ t.mem = s.mem ∧ t.scratch = s.scratch ∧
        t.que = s.que ∧ leftOn s t a ∧ a.op = op ∧ a.psn = psn ∧ a.dev = k.srcDev.val ∧ a.gen = k.gen
      let goodKey (key : BitVec 32) (va l bit : Nat) : Prop := ∃ m, alook (key.toNat / 256) s.rdm.mrs = some m ∧ m.key = key.toNat % 256 ∧
        m.part = q.part ∧ m.addr ≤ va ∧ va + l ≤ m.addr + m.len ∧ bitOf m.access bit = true
      let free (va l : Nat) (a : Nat) : Prop := s.translate q.p va l true = .ok [(a, l)] ∧ s.usable q.p [(a, l)] = .ok ∧ s.plainAt a l ∧
        s.writeHeld a l = false
      let placed (t : State) (a : Nat) (b : List Byte) : Prop := t.bytes a b.length = b ∧ s.sameBytesBut t [(a, b.length)] ∧ t.pavs = s.pavs
      (isRsp k.op = false → k.op ≠ .cnp → (∀ h, k.op ≠ .rdSend h ∧ k.op ≠ .rdWrite h) → (q.st = .reset ∨ q.st = .init ∨ q.st = .error) → ∃ t,
        e = .next t ∧ t = { s with rdm := t.rdm }) ∧
      (isRsp k.op = true → k.gen ≠ (s.part q.p).gen → q.part < 65 → ∃ t, e = .next t ∧ t = { s with rdm := t.rdm, regs := t.regs } ∧
        t.fld (fQUE_PSTALE_COUNT q.part) = min (s.fld (fQUE_PSTALE_COUNT q.part) + 1) (2 ^ (fQUE_PSTALE_COUNT q.part).w - 1)) ∧
      (q.ty = .rc → q.st = .rts → s.partHalts q.p = true → isRsp k.op = false → k.op ≠ .cnp → (∀ h, k.op ≠ .rdSend h ∧ k.op ≠ .rdWrite h) →
        (∀ a b i, k.op ≠ .ud a b i) → reply (.rnr (Fin.ofNat 32 q.minRnr)) (BitVec.ofNat 24 q.rqPsn)) ∧
      (q.ty = .rc → q.st = .rts → s.partHalts q.p = false →
        (∀ first last imm, k.op = .send first last imm →
          (psnDiff k.psn.toNat q.rqPsn ≠ 0 → psnDiff k.psn.toNat q.rqPsn < 0x800000 → reply (.nak .sequence) (BitVec.ofNat 24 q.rqPsn)) ∧
          (0x800000 ≤ psnDiff k.psn.toNat q.rqPsn → ∃ t a, e = .next t ∧ t.mem = s.mem ∧ t.que = s.que ∧ t.out = .rdma a :: s.out ∧ a.op = .ack ∧
            a.psn = BitVec.ofNat 24 (q.rqPsn + 0xFFFFFF) ∧ t.fld fRDM_DUP_COUNT = min (s.fld fRDM_DUP_COUNT + 1) (2 ^ 64 - 1))) ∧
        (k.psn.toNat = q.rqPsn → q.arriving = none → q.trigRx = false →
          (∀ imm, k.op = .send true true imm →
            (s.headRecv? q = none → reply (.rnr (Fin.ofNat 32 q.minRnr)) k.psn) ∧
            (∀ r, s.headRecv? q = some r → s.cmd? r.id = some r →
              (r.f 8 4 < len → reply (.nak .invalid) k.psn) ∧
              (∀ a, 1 ≤ len → len ≤ r.f 8 4 → free (r.f 0 8) len a → ∃ t y, e = .next t ∧ placed t a k.data ∧ t.qp? n = some y ∧
                y.rqPsn = (q.rqPsn + 1) % 0x1000000 ∧
                t.ended r.id .ok (q.dest % 65536) (len + match imm with | some i => i.toNat * 2 ^ 32 | none => 0) ∧
                (k.ackReq = false → t.out = s.out) ∧ (k.ackReq = true → ∃ z, t.out = .rdma z :: s.out ∧ z.op = .ack ∧ z.psn = k.psn)))) ∧
          (∀ (va : BitVec 64) (key : BitVec 32), k.op = .write (some (va, key, len)) true none →
            (¬ goodKey key va.toNat len 1 → reply (.nak .access) k.psn) ∧
            (∀ a, 1 ≤ len → goodKey key va.toNat len 1 → free va.toNat len a → ∃ t y, e = .next t ∧ placed t a k.data ∧ t.qp? n = some y ∧
              y.rqPsn = (q.rqPsn + 1) % 0x1000000 ∧ t.que = s.que)) ∧
          (∀ (va : BitVec 64) (key : BitVec 32) (l : Nat), k.op = .readReq va key l → l ≤ 1024 → q.pmtu = 3 →
            (¬ goodKey key va.toNat l 0 → reply (.nak .access) k.psn) ∧
            (∀ b, 1 ≤ l → goodKey key va.toNat l 0 → s.partRead q.p va.toNat l = .ok b → b.length = l → ∃ t a, e = .next t ∧ t.mem = s.mem ∧
              t.out = .rdma a :: s.out ∧ a.op = .readRsp true true ∧ a.data = b ∧ a.psn = k.psn)) ∧
          (∀ (va : BitVec 64) (key : BitVec 32) (o : BitVec 64) (sw : Option (BitVec 64)), k.op = .atomic va key o sw →
            (va.toNat % 8 ≠ 0 → reply (.nak .invalid) k.psn) ∧
            (va.toNat % 8 = 0 → ¬ goodKey key va.toNat 8 2 → reply (.nak .access) k.psn) ∧
            (∀ a, va.toNat % 8 = 0 → goodKey key va.toNat 8 2 → s.partRead q.p va.toNat 8 = .ok (s.bytes a 8) → free va.toNat 8 a →
              ∃ t z, e = .next t ∧ s.sameBytesBut t [(a, 8)] ∧ t.out = .rdma z :: s.out ∧ z.psn = k.psn ∧
                z.op = .atomicRsp (BitVec.ofNat 64 (s.readN a 8)) ∧
                t.readN a 8 = (match sw with
                  | none => (s.readN a 8 + o.toNat) % 2 ^ 64
                  | some v => if s.readN a 8 = o.toNat then v.toNat else s.readN a 8))))) ∧
      (q.ty = .spray → q.st = .rts → s.partHalts q.p = false → ∀ h, k.op = .sprayWrite h → len ≤ h.msgLen → h.off = 0 → h.imm = none →
        alook h.msg q.msgs = none → 1 ≤ len → psnDiff k.psn.toNat q.rqPsn < 1024 → q.recorded = [] →
        (¬ goodKey h.rkey h.va.toNat len 1 → reply (.nak .access) (BitVec.ofNat 24 q.rqPsn)) ∧
        (∀ a, goodKey h.rkey h.va.toNat len 1 → free h.va.toNat len a → ∃ t y, e = .next t ∧ placed t a k.data ∧ t.qp? n = some y ∧
          (k.psn.toNat ≠ q.rqPsn → y.rqPsn = q.rqPsn ∧ y.recorded = [k.psn.toNat]) ∧
          (k.psn.toNat = q.rqPsn → y.rqPsn = (q.rqPsn + 1) % 0x1000000 ∧ y.recorded = []) ∧
          (k.psn.toNat = q.rqPsn ∨ h.msgLen = len ∨ 15 ≤ q.unAcked → y.unAcked = 0 ∧
            ∃ z, t.out = .rdma z :: s.out ∧ z.op = .ack ∧ z.psn = BitVec.ofNat 24 (y.rqPsn + 0xFFFFFF)) ∧
          (k.psn.toNat ≠ q.rqPsn → len < h.msgLen → q.unAcked < 15 → y.unAcked = q.unAcked + 1 ∧ t.out = s.out))) ∧
      (q.ty = .rd → q.st = .rts → s.partHalts q.p = false → ∀ h, k.op = .rdWrite h →
        let i : RdId := { dev := some k.srcDev.val, gid := 0, ep := h.srcEp, msg := h.msg }
        (∀ m, s.rdm.rdIn = [m] → m.id = i → m.start + 2 * (s.fld fRDM_CFG_KEEP_US * 800) < s.now → ∃ t, e = .next t ∧ t.mem = s.mem ∧
          t.out = s.out ∧ alook i t.rdm.recent = some (.abandoned s.now) ∧ t.rdm.rdIn = [] ∧ ∀ r, m.recv = some r → s.doing r 0x50 c → t.ended r .timeout 0 0) ∧
        ((∃ u, alook i s.rdm.recent = some (.done u)) → (∀ m ∈ s.rdm.rdIn, m.id ≠ i) → ∃ t a, e = .next t ∧ t.mem = s.mem ∧ t.scratch = s.scratch ∧ t.out = .rdma a :: s.out ∧
          a.op = .rdAck h.srcEp h.msg) ∧
        ((∃ u, alook i s.rdm.recent = some (.abandoned u)) → (∀ m ∈ s.rdm.rdIn, m.id ≠ i) → ∃ t, e = .next t ∧ t = { s with rdm := t.rdm }) ∧
        (alook i s.rdm.recent = none → (∀ m ∈ s.rdm.rdIn, m.id ≠ i) → k.psn.toNat = 0 → h.off = 0 → h.msgLen = len → h.imm = none → 1 ≤ len →
          (¬ goodKey h.rkey h.va.toNat len 1 → ∃ t a, e = .next t ∧ t.mem = s.mem ∧ t.out = .rdma a :: s.out ∧ a.op = .rdNak h.srcEp h.msg 0x7FE) ∧
          (goodKey h.rkey h.va.toNat len 1 → 16384 ≤ s.rdm.rdIn.length → ∃ t a, e = .next t ∧ t.mem = s.mem ∧ t.out = .rdma a :: s.out ∧
            a.op = .rdNak h.srcEp h.msg 0x003) ∧
          (∀ a, goodKey h.rkey h.va.toNat len 1 → s.rdm.rdIn.length < 16384 → s.rdm.recent.length < 65536 → free h.va.toNat len a →
            ∃ t z, e = .next t ∧ placed t a k.data ∧ t.out = .rdma z :: s.out ∧ z.op = .rdAck h.srcEp h.msg ∧
              alook i t.rdm.recent = some (.done s.now) ∧ t.rdm.rdIn = s.rdm.rdIn)))) ∧
    (s.qp? n = some q → n ≠ 1 → k.destQp.toNat = n → fresh → k.port = none → q.die = .off → s.dieUsed < 4096 → ∃ t, exec (.rdmaPacketReceive k) s = .next t ∧
      (s.missUsed + k.size ≤ 0x400000 → t = { s with rdm := t.rdm, regs := t.regs } ∧
        t.qp? n = some { q with waiting := q.waiting ++ [k], die := .fetching (some s.now) }) ∧
      (0x400000 < s.missUsed + k.size → t.flag fRDM_ERR_MISS_FULL = true ∧ t.qp? n = some q ∧
        t.fld fRDM_MISS_REFUSE_COUNT = min (s.fld fRDM_MISS_REFUSE_COUNT + 1) (2 ^ 32 - 1) ∧
        (∀ f l i, k.op = .send f l i → ∃ a, t.out.head? = some (.rdma a) ∧ a.op = .rnr 1))) ∧
    (s.qp? n = some q → ∀ u, q.die = .fetching (some u) →
      (q.waiting = [] → q.waitWr = [] → s.now ≤ u + 40000 → ∃ t, exec (.qpcFetchDone n) s = .next t ∧ t = { s with rdm := t.rdm, regs := t.regs } ∧
        t.qp? n = some { q with die := .on, used := s.rdm.uses }) ∧
      ∀ e, e = .qpcFetchTimeout n ∨ (e = .qpcFetchDone n ∧ u + 40000 < s.now) → ∃ t, exec e s = .next t ∧ t.now = max s.now (u + 40000) ∧ t.qp? n = some { q with die := .off, waiting := [] } ∧
        t.flag fRDM_ERR_FETCH_FAIL = true ∧
        t.fld fRDM_FETCH_FAIL_COUNT = min (s.fld fRDM_FETCH_FAIL_COUNT + q.waiting.length) (2 ^ 32 - 1)) ∧
    (s.qp? n = some q → q.die = .writing → q.waiting = [] → q.waitWr = [] → (∀ x ∈ s.rdm.qps, x.2.die ≠ .fetching none) → ∃ t,
      exec (.qpcWritebackDone n) s = .next t ∧ t = { s with rdm := t.rdm, regs := t.regs } ∧ t.qp? n = some { q with die := .off } ∧
      t.fld fRDM_EVICT_COUNT = min (s.fld fRDM_EVICT_COUNT + 1) (2 ^ 64 - 1)) ∧
    (s.qp? n = some q → q.st = .rts → q.ty = .rc → q.rnrUntil = none → ∀ w, q.out = [w] → s.cmd? w.cmd = some c → c.done = none → c.id = w.cmd →
      (q.retry ≤ q.timeouts → s.ownRecvs n q = [] → s.notSent q = [] → ∃ t y, exec (.retxTimeout n) s = .next t ∧
        t.now = max s.now (q.since + min (8 * 2 ^ q.timeouts) 4000 * 800) ∧ t.ended w.cmd .timeout 0 0 ∧ t.qp? n = some y ∧ y.st = .error ∧
        y.out = [] ∧ t.flag fRDM_ERR_FLUSH = true) ∧
      (q.timeouts < q.retry → w.op = 0x48 → w.len = 0 → w.sent = 1 → w.dest.port = none → w.psn = q.una → q.una < 0x1000000 →
        ∃ t y a, exec (.retxTimeout n) s = .next t ∧ t.now = max s.now (q.since + min (8 * 2 ^ q.timeouts) 4000 * 800) ∧ t.qp? n = some y ∧
        y.st = .rts ∧ y.timeouts = q.timeouts + 1 ∧ y.out = [w] ∧ y.since = t.now ∧ t.out = .rdma a :: s.out ∧ a.op = .send true true none ∧
        a.psn.toNat = w.psn ∧ t.fld fRDM_RETX_COUNT = min (s.fld fRDM_RETX_COUNT + 1) (2 ^ 64 - 1))) ∧
    (s.qp? n = some q → q.out = [] → ∀ u, q.rnrUntil = some u → ∃ t y, exec (.rnrTimerExpire n) s = .next t ∧ t.now = max s.now u ∧
      t.qp? n = some y ∧ y = { q with rnrUntil := none, since := y.since } ∧ t.regs = s.regs ∧ t.out = s.out) ∧
    (∀ m, s.rdm.rdIn[id]? = some m → ∃ t, exec (.rdMessageAbandon id) s = .next t ∧
      t.now = max s.now (m.start + 2 * (s.fld fRDM_CFG_KEEP_US * 800)) ∧ alook m.id t.rdm.recent = some (.abandoned t.now) ∧
      (∀ x ∈ t.rdm.rdIn, x.id ≠ m.id) ∧ t.mem = s.mem ∧ ∀ r, m.recv = some r → s.doing r 0x50 c → t.ended r .timeout 0 0) ∧
    (∀ w, s.rdm.qps.find? (fun x => x.2.ty = .rd && x.2.out.any (fun y => y.cmd = id)) = some (n, q) →
      q.out.find? (fun y => y.cmd = id) = some w → s.cmd? id = some c → c.done = none → ∃ t, exec (.rdKeepExpire id) s = .next t ∧
        t.now = max s.now (w.first + s.fld fRDM_CFG_KEEP_US * 800) ∧ t.mem = s.mem ∧ (w.reason = none → t.ended id .timeout 0 0) ∧
        ∀ r, w.reason = some r → 0 < r → r < 2048 → t.ended id .refusedResource (0x4800 + r) 0) ∧
    (s.qp? n = some q → ∀ r, q.rate = some r → ∃ t y, exec (.ccRecover n) s = .next t ∧
      t.now = max s.now (q.raiseAt + s.fld fRDM_CC_CFG_RECOVER_US * 800) ∧ t.qp? n = some y ∧ y.raiseAt = t.now ∧
      y.rate = (if s.lineRate q.port ≤ r + s.fld fRDM_CC_CFG_ADD * 100000 then none else some (r + s.fld fRDM_CC_CFG_ADD * 100000)) ∧
      t.regs = s.regs) ∧
    (∀ (tag : BitVec 32) u, s.rdm.early.find? (fun e => e.1 = p.val && e.2.1 = tag.toNat) = some (p.val, tag.toNat, u) → ∃ t,
      exec (.trigHoldExpire p tag) s = .next t ∧ t.now = max s.now (u + s.fld fRDM_CFG_TRIG_HOLD_US * 800) ∧
      t.rdm.early = s.rdm.early.erase (p.val, tag.toNat, u) ∧ t.pavs = s.pavs)

/-- Work request `c` of connected queue pair `n`, of one packet with these bytes, has been sent on the fabric with the next PSN
(R338, R343); a read and an atomic take one PSN here. -/
def sentOne (s t : State) (n : Nat) (q : Qp) (c : Cmd) (b : List Byte) : Prop :=
  ∃ y w a, t.qp? n = some y ∧ y.st = .rts ∧ y.out = [w] ∧ w.cmd = c.id ∧ w.op = c.op ∧ w.psn = q.nextPsn ∧
    y.nextPsn = (q.nextPsn + 1) % 0x1000000 ∧ leftOn s t a ∧ a.dev = q.destDev ∧ a.destQp.toNat = q.dest % 2 ^ 24 ∧
    a.psn.toNat = q.nextPsn % 2 ^ 24 ∧ a.part = c.part ∧ a.data = b ∧ t.mem = s.mem ∧ t.scratch = s.scratch ∧
    let va := BitVec.ofNat 64 (c.f 16 8)
    let key := BitVec.ofNat 32 (c.f 24 4)
    let imm := BitVec.ofNat 32 (c.f 4 4)
    a.op = (match c.op with
      | 0x48 => .send true true none
      | 0x49 => .send true true (some imm)
      | 0x4A => .write (some (va, key, c.f 0 4)) true none
      | 0x4B => .write (some (va, key, c.f 0 4)) true (some imm)
      | 0x4C => .readReq va key (c.f 0 4)
      | 0x4D => .atomic va key (BitVec.ofNat 64 (c.f 32 8)) none
      | _ => .atomic va key (BitVec.ofNat 64 (c.f 32 8)) (some (BitVec.ofNat 64 (c.f 0 8))))

/-- QP_CREATE of parameters in range gives the lowest free QPN, in RESET; QP_MODIFY makes the transitions that R342 allows with
their attributes and is INVALID_STATE otherwise; QP_DESTROY removes the queue pair and holds its QPN for 8 ms. MR_REG gives
the lowest free region, MR_DEREG removes it. A work request on a connected queue pair in RTS sends its packet with the next
PSN; with WAIT it is held on its CQ's count until released, with TRIG parked under its tag, or started at once by an early
trigger; out of range it is INVALID_FIELD, off RTS INVALID_STATE, and a source that cannot be read ends it and puts the
queue pair in ERROR. RECV waits to be consumed. What it states beyond the rules is the choice of the model: log entries 102,
103, 107, 109. [12_rdma_and_storage.md: queue pairs (R340 to R342), work requests (R343, R345), memory regions (R344),
chaining (R356, R357); 11_queues_and_partitions.md: refusals (R336)] -/
def Obligations.RdmaCommands : Prop :=
  ∀ (s : State) (id n : Nat) (c : Cmd) (q : Qp) (rd : Status),
    let fails (e : Instr) (st : Status) (d : Nat) : Prop := ∃ t, exec e s = .next t ∧ s.onlyCmd t id ∧ t.ended id st d 0
    (s.doing id 0x40 c → c.part < 65 →
      (s.qpParamsOk c = false → fails (.qpCreate id) .invalidField 0) ∧
      (s.qpParamsOk c = true →
        (bitsOf (c.f 0 1) 2 1 = 1 → c.f 1 1 = 0) ∧ (bitsOf (c.f 0 1) 4 1 = 1 → c.part = 0) ∧
        ((s.qpOf? c.part (c.f 2 2)).isSome = true → fails (.qpCreate id) .invalidState 0) ∧
        (s.qpOf? c.part (c.f 2 2) = none → bitOf (c.f 0 1) 4 = false →
          (s.fld (fRDM_PQP_LIMIT_QPS c.part) ≤ s.fld (fRDM_PQP_USED_QPS c.part) → ∃ t, exec (.qpCreate id) s = .next t ∧
            t.ended id .refusedPolicy 0x4FFF 0 ∧ t.rdm = s.rdm ∧
            t.fld (fQUE_PREFUSED_COUNT c.part) = min (s.fld (fQUE_PREFUSED_COUNT c.part) + 1) (2 ^ (fQUE_PREFUSED_COUNT c.part).w - 1)) ∧
          (s.fld (fRDM_PQP_USED_QPS c.part) < s.fld (fRDM_PQP_LIMIT_QPS c.part) →
            ((∀ i, 2 ≤ i → i < s.fld fRDM_QPC_COUNT_COUNT → (s.qp? i).isSome = true ∨ ∃ x ∈ s.rdm.heldQpns, x.1 = i ∧ s.now < x.2.1 + 6400000) →
              fails (.qpCreate id) .refusedResource 0x4808) ∧
            (2 ≤ n → n < s.fld fRDM_QPC_COUNT_COUNT → s.qp? n = none → (∀ x ∈ s.rdm.heldQpns, x.1 = n → x.2.1 + 6400000 ≤ s.now) →
              (∀ i, 2 ≤ i → i < n → (s.qp? i).isSome = true ∨ ∃ x ∈ s.rdm.heldQpns, x.1 = i ∧ s.now < x.2.1 + 6400000) →
              ∃ t y, exec (.qpCreate id) s = .next t ∧ t.ended id .ok 0 n ∧ t.qp? n = some y ∧ y.st = .reset ∧ y.part = c.part ∧ y.retry = 7 ∧
                y.sq = c.f 2 2 ∧ y.rq = c.f 4 2 ∧ y.out = [] ∧ y.fabric = bitOf (c.f 0 1) 2 ∧ y.trigRx = bitOf (c.f 0 1) 3 ∧ t.mem = s.mem ∧
                ∀ i, i ≠ n → t.qp? i = s.qp? i))))) ∧
    (s.doing id 0x41 c → c.f 0 3 % 0x100000 = n →
      (s.qp? n = none → fails (.qpModify id) .invalidField 0) ∧
      (s.qp? n = some q →
        (q.part ≠ c.part → fails (.qpModify id) .invalidField 0) ∧
        (q.part = c.part → qpModOk q c = true →
          let mask := c.f 40 4
          let next := c.f 3 1
          ((q.st = .reset ∧ next ∈ [2, 3]) ∨ (q.st = .init ∧ next ∈ [1, 3]) ∨ (q.st = .rtr ∧ next ∈ [1, 2]) ∨ (q.st = .rts ∧ next ∈ [1, 2, 3]) ∨
            (q.st = .error ∧ next ∈ [1, 2, 3]) ∨ (q.st = .rtr ∧ next = 3 ∧ (bitOf mask 7 = false ∨ bitOf mask 1 = false ∨ bitOf mask 2 = false)) ∨
            (q.st = .init ∧ next = 2 ∧ q.ty = .rc ∧ (bitOf mask 0 = false ∨ bitOf mask 6 = false ∨ bitOf mask 8 = false ∨
              (q.fabric = true ∧ bitOf mask 9 = false) ∨ (q.fabric = false ∧ (bitOf mask 10 = false ∨ bitOf mask 11 = false)))) →
            fails (.qpModify id) .invalidState 0) ∧
          ((q.st = .reset ∧ next = 1) ∨ (q.st = .rtr ∧ next = 3 ∧ bitOf mask 7 = true ∧ bitOf mask 1 = true ∧ bitOf mask 2 = true) ∨
            (q.st = .init ∧ next = 2 ∧ q.ty = .rc ∧ q.fabric = true ∧ bitOf mask 0 = true ∧ bitOf mask 6 = true ∧ bitOf mask 8 = true ∧ bitOf mask 9 = true) →
            ∃ t y, exec (.qpModify id) s = .next t ∧ t.ended id .ok 0 0 ∧ t = { s with que := t.que, rdm := t.rdm } ∧ t.qp? n = some y ∧
              y.st = (if next = 1 then .init else if next = 2 then .rtr else .rts) ∧ y.ty = q.ty ∧
              y.dest = (if bitOf mask 6 then c.f 8 4 else q.dest) ∧ y.rqPsn = (if bitOf mask 8 then c.f 16 3 else q.rqPsn) ∧
              y.nextPsn = (if bitOf mask 7 then c.f 12 3 else q.nextPsn) ∧ y.pmtu = (if bitOf mask 0 then bitsOf (c.f 4 1) 0 3 else q.pmtu) ∧
              ∀ i, i ≠ n → t.qp? i = s.qp? i) ∧
          (next = 4 ∨ next = 0 → q.out = [] → s.notSent q = [] → s.ownRecvs n q = [] → ∃ t y, exec (.qpModify id) s = .next t ∧ t.ended id .ok 0 0 ∧
            t.qp? n = some y ∧ y.st = (if next = 0 then .reset else .error) ∧ t.pavs = s.pavs)))) ∧
    (s.doing id 0x42 c → c.f 0 3 = n → s.qp? n = some q →
      (q.part ≠ c.part → fails (.qpDestroy id) .invalidField 0) ∧
      (q.part = c.part → c.clean [at8 0 0 20] = true → q.out = [] → s.notSent q = [] → s.ownRecvs n q = [] → ∃ t, exec (.qpDestroy id) s = .next t ∧
        t.ended id .ok 0 0 ∧ t.qp? n = none ∧ t.rdm.heldQpns = s.rdm.heldQpns ++ [(n, s.now, q.part)] ∧ t.mem = s.mem ∧
        t.fld fRDM_FETCH_FAIL_COUNT = min (s.fld fRDM_FETCH_FAIL_COUNT + q.waiting.length) (2 ^ 32 - 1))) ∧
    (∀ u, s.rdm.heldQpns.find? (fun x => x.1 = n) = some (n, u.1, u.2) → ∃ t, exec (.qpnHoldEnd n) s = .next t ∧ t.now = max s.now (u.1 + 6400000) ∧
      t.rdm = { s.rdm with heldQpns := s.rdm.heldQpns.erase (n, u) } ∧ t.regs = s.regs) ∧
    (s.doing id 0x43 c → c.clean [at8 0 0 64, at8 8 0 64, at8 16 0 3, at8 17 0 8] = true →
      (c.f 0 8 % 4096 ≠ 0 ∨ c.f 8 8 % 4096 ≠ 0 → fails (.mrReg id) .invalidField 0) ∧
      (c.f 0 8 % 4096 = 0 → c.f 8 8 % 4096 = 0 → s.inSpace c.p (c.f 0 8) (c.f 8 8) = true →
        ((∀ i, i < s.fld fRDM_MR_COUNT_COUNT → (alook i s.rdm.mrs).isSome = true) → fails (.mrReg id) .refusedResource 0x4809) ∧
        (n < s.fld fRDM_MR_COUNT_COUNT → alook n s.rdm.mrs = none → (∀ i, i < n → (alook i s.rdm.mrs).isSome = true) →
          ∃ t, exec (.mrReg id) s = .next t ∧ t.ended id .ok 0 (256 * n + c.f 17 1) ∧ t = { s with que := t.que, rdm := t.rdm } ∧
            alook n t.rdm.mrs = some { part := c.part, addr := c.f 0 8, len := c.f 8 8, access := c.f 16 1, key := c.f 17 1 } ∧
            ∀ i, i ≠ n → alook i t.rdm.mrs = alook i s.rdm.mrs))) ∧
    (s.doing id 0x44 c → c.clean [at8 0 0 32] = true →
      (alook (c.f 0 4 / 256) s.rdm.mrs = none → fails (.mrDereg id) .invalidField 0) ∧
      ∀ m, alook (c.f 0 4 / 256) s.rdm.mrs = some m →
        (m.part ≠ c.part ∨ m.key ≠ c.f 0 1 → fails (.mrDereg id) .invalidField 0) ∧
        (m.part = c.part → m.key = c.f 0 1 → ∃ t, exec (.mrDereg id) s = .next t ∧ t.ended id .ok 0 0 ∧ t = { s with que := t.que, rdm := t.rdm } ∧
          alook (c.f 0 4 / 256) t.rdm.mrs = none)) ∧
    (∀ e ∈ [(0x48, Instr.send id rd), (0x49, .sendImm id rd), (0x4A, .rdmaWrite id rd), (0x4B, .writeImm id rd), (0x4C, .rdmaRead id),
        (0x4D, .fetchAdd id), (0x4E, .cmpSwap id)], s.doing id e.1 c →
      (s.qpOf? c.part c.sq = none → fails e.2 .invalidState 0) ∧
      (s.qpOf? c.part c.sq = some n → s.qp? n = some q → q.part = c.part → c.watch = false → c.parked = none → q.waitWr = [] → q.out = [] →
        (wrOk q c = false → fails e.2 .invalidField 0) ∧
        (wrOk q c = true → bitOf (c.f 42 1) 0 = false → q.st ≠ .rts → fails e.2 .invalidState (if q.st = .error then 0x4810 else 0)) ∧
        (wrOk q c = true → q.st = .rts → s.wrLocal c = .ok →
          (bitOf (c.f 42 1) 0 = true → s.cqActive c.p (c.f 40 2) = true → s.waitMet c = false →
            (s.que.cmds.filter (fun d => d.watch)).length < 4096 → ∃ t y, exec e.2 s = .next t ∧ s.onlyCmd t id ∧ t.cmd? id = some y ∧
              y.watch = true ∧ y.done = none ∧ y.held = some s.now) ∧
          (bitOf (c.f 42 1) 0 = true → s.cqActive c.p (c.f 40 2) = true → s.waitMet c = false →
            4096 ≤ (s.que.cmds.filter (fun d => d.watch)).length → fails e.2 .refusedResource 0x480A) ∧
          (c.f 42 1 = 2 → s.outstanding ≤ 131072 → (∀ x ∈ s.rdm.early, ¬ (x.1 = c.part ∧ x.2.1 = c.f 44 4)) →
            (s.que.cmds.filter (fun d => d.parked.isSome)).length < 65536 → ∃ t, exec e.2 s = .next t ∧ s.onlyCmd t id ∧
              t.cmd? id = some { c with parked := some (c.f 44 4) }) ∧
          (c.f 42 1 = 0 → s.outstanding ≤ 131072 → q.die = .on → q.ty = .rc → q.fabric = true → q.rnrUntil = none → q.pmtu = 3 → c.part < 65 →
            (e.1 < 0x4C → rd = .ok → c.f 0 4 ≤ 1024 → ∀ b, (c.f 0 4 = 0 ∧ b = [] ∨ 0 < c.f 0 4 ∧ s.partRead c.p (c.f 8 8) (c.f 0 4) = .ok b) →
              ∃ t, exec e.2 s = .next t ∧ sentOne s t n q c b) ∧
            (0x4C ≤ e.1 → (e.1 = 0x4C → c.f 0 4 ≤ 1024) → ∃ t, exec e.2 s = .next t ∧ sentOne s t n q c []) ∧
            (e.1 < 0x4C → rd ≠ .ok → ∃ t y, exec e.2 s = .next t ∧ t.ended id rd 0 0 ∧ t.qp? n = some y ∧ y.st = .error))))) ∧
    (s.cmd? id = some c → c.watch = true → c.done = none →
      (s.waitMet c = false → exec (.waitRelease id) s = .next s) ∧
      (s.waitMet c = true → s.qpOf? c.part c.sq = some n → s.qp? n = some q → q.part = c.part → c.f 42 1 = 1 → s.outstanding < 131072 → q.die = .on →
        q.st = .rts → q.ty = .rc → q.fabric = true → q.rnrUntil = none → q.out = [] → c.op = 0x48 → c.f 0 4 = 0 → c.part < 65 →
        ∃ t y, exec (.waitRelease id) s = .next t ∧ sentOne s t n q c [] ∧ t.cmd? id = some y ∧ y.watch = false ∧ y.held = none ∧ y.done = none)) ∧
    (s.doing id 0x50 c →
      (c.clean [at8 0 0 64, at8 8 0 32] = true → exec (.recv id) s = .next s) ∧
      (c.clean [at8 0 0 64, at8 8 0 32] = false → fails (.recv id) .invalidField 0))

/-- NS_ATTACH of parameters in range connects a namespace that is unused or given up, and ends OK with LBA size and capacity
once it is connected, TIMEOUT after 10 s; an index in use is INVALID_STATE. NS_DETACH ends BUSY while commands are
outstanding. A lost association ends its commands with TARGET_RESET; it is tried again every second, and given up after 60
s. A transfer on a namespace of another partition is REFUSED_POLICY with detail 0x4FFF; one out of range INVALID_FIELD;
otherwise it moves its pieces and ends with the status of the first piece that failed, in offset order. What it states
beyond the rules is the choice of the model: log entries 102, 110. [12_rdma_and_storage.md: the initiator (R361 to R363)] -/
def Obligations.Namespaces : Prop :=
  ∀ (s : State) (id : Nat) (c : Cmd) (x : Ns) (k : Fin 256) (j : NsConn) (pc : List NvmePiece) (st : BitVec 16),
    let fails (e : Instr) (r : Status) : Prop := ∃ t, exec e s = .next t ∧ s.onlyCmd t id ∧ t.ended id r 0 0
    let n := c.f 0 1
    (s.doing id 0x60 c →
      (nsParamsOk s c = false → s.ns? n = none → fails (.nsAttach id none) .invalidField) ∧
      (nsParamsOk s c = true → (1 ≤ c.f 2 2 ∧ c.f 2 2 ≤ 64 ∧ 16 ≤ c.f 4 2 ∧ c.f 4 2 ≤ 1024 ∧ c.f 1 1 ≤ 64) ∧
        (s.ns? n = some x → (x.st = .up ∨ (∃ a b, x.st = .down a b)) → fails (.nsAttach id none) .invalidState) ∧
        (s.ns? n = none ∨ (s.ns? n = some x ∧ x.st = .failed) → s.accessSt (c.f 16 8) 1024 = .ok →
          (∃ t y, exec (.nsAttach id none) s = .next t ∧ t = { s with rdm := t.rdm, out := .nsConnect n :: s.out } ∧ t.ns? n = some y ∧
            y.st = .connecting id s.now ∧ y.owner = c.f 1 1) ∧
          ∃ t y, exec (.nsAttach id (some j)) s = .next t ∧ t.ended id .ok 0 (j.lbaLog2 % 256 + 256 * (j.capacity % 2 ^ 56)) ∧
            t.ns? n = some y ∧ y.st = .up ∧ y.owner = c.f 1 1 ∧ y.lbaLog2 = j.lbaLog2 % 256 ∧ t.mem = s.mem)) ∧
      (∀ u, s.ns? n = some x → x.st = .connecting id u →
        (s.now ≤ u + 8000000000 → ∃ t y, exec (.nsAttach id (some j)) s = .next t ∧
          t.ended id .ok 0 (j.lbaLog2 % 256 + 256 * (j.capacity % 2 ^ 56)) ∧ t.ns? n = some y ∧ y.st = .up) ∧
        (u + 8000000000 < s.now → ∃ t, exec (.nsAttach id (some j)) s = .next t ∧ t.ended id .timeout 0 0 ∧ t.ns? n = none)) ∧
      (∀ u i, s.rdm.ns.find? (fun y => match y.2.st with | .connecting k _ => k = id | _ => false) = some (i, x) → x.st = .connecting id u →
        ∃ t, exec (.nsAttachTimeout id) s = .next t ∧ t.now = max s.now (u + 8000000000) ∧ t.ns? i = none ∧ t.ended id .timeout 0 0)) ∧
    (s.doing id 0x61 c → c.clean [at8 0 0 8] = true →
      (s.ns? n = none → fails (.nsDetach id) .invalidState) ∧
      (s.ns? n = some x → s.nsWork n ≠ [] ∨ x.connects = true → fails (.nsDetach id) .busy) ∧
      (s.ns? n = some x → s.nsWork n = [] → x.connects = false → ∃ t, exec (.nsDetach id) s = .next t ∧ t.ended id .ok 0 0 ∧ t.ns? n = none ∧
        t = { s with que := t.que, rdm := t.rdm } ∧ ∀ i, i ≠ n → t.ns? i = s.ns? i)) ∧
    (s.ns? k.val = some x →
      (x.st = .up → (∃ t, exec (.nsAssocLost k) s = .next t ∧ t.ns? k.val = some { x with st := .down s.now 0 } ∧ t.pavs = s.pavs ∧
          (∀ d, s.nsWork k.val = [d] → s.cmd? d.id = some d → t.ended d.id .targetReset 0 0) ∧
          s.logged t 0x0408 blkRDM (Fin.ofNat 65 x.owner).val .targetReset 0 0 k.val) ∧
        ∃ t, exec (.nsKeepAlive k) s = .next t ∧ t = { s with rdm := t.rdm, out := .nsKeepAlive k.val :: s.out } ∧
          t.ns? k.val = some { x with alive := s.now } ∧ ∀ i, i ≠ k.val → t.ns? i = s.ns? i) ∧
      (∀ u i, x.st = .down u i →
        (s.fld fLDG_STATE_MGT = 2 → i < 60 → s.now ≤ u + 60 * 800000000 →
          (∃ t y, exec (.nsReconnect k true) s = .next t ∧ t.now = max s.now (u + (i + 1) * 800000000) ∧ t.ns? k.val = some y ∧ y.st = .up) ∧
          ∃ t, exec (.nsReconnect k false) s = .next t ∧ t.now = max s.now (u + (i + 1) * 800000000) ∧
            t.ns? k.val = some { x with st := .down u (i + 1) } ∧ t.out = .nsConnect k.val :: s.out ∧ t.regs = s.regs) ∧
        ∀ e, e = .nsReconnectGiveup k ∨ (e = .nsReconnect k true ∧ s.fld fLDG_STATE_MGT = 2 ∧ (60 ≤ i ∨ u + 60 * 800000000 < s.now)) → ∃ t, exec e s = .next t ∧ t.now = max s.now (u + 60 * 800000000) ∧ t.ns? k.val = some { x with st := .failed } ∧
          ∀ d, s.nsWork k.val = [d] → s.cmd? d.id = some d → t.ended d.id .notReady 0 0)) ∧
    (∀ e ∈ [(0x62, Instr.nvmeRead id pc), (0x63, .nvmeWrite id pc .ok), (0x64, .nvmeFlush id st)], s.doing id e.1 c → c.part < 65 →
      (c.part ≠ 0 → (s.ns? n = none ∨ (s.ns? n = some x ∧ x.owner ≠ c.part)) → ∃ t, exec e.2 s = .next t ∧ t.ended id .refusedPolicy 0x4FFF 0 ∧
        t = { s with que := t.que, regs := t.regs }) ∧
      (s.ns? n = some x → x.owner = c.part → x.st = .failed → fails e.2 .notReady) ∧
      (s.ns? n = some x → x.owner = c.part → x.st = .up → e.1 ≠ 0x64 →
        (c.f 4 4 = 0 ∨ 0x1000000 < c.f 4 4 ∨ c.f 4 4 % 2 ^ x.lbaLog2 ≠ 0 ∨ c.f 8 8 % 2 ^ x.lbaLog2 ≠ 0 → fails e.2 .invalidField))) ∧
    (s.ns? n = some x → x.owner = c.part → x.st = .up → c.part < 65 → nvmeOk x c = true → x.mdts = 0 → ∀ z, pc = [z] →
      let r := if z.status.toNat % 2048 = 0 then Status.ok
        else if z.status.toNat % 2048 = 0x80 ∨ z.status.toNat % 2048 = 2 then .invalidField else .dataError
      let res := if r = .ok then 0 else z.status.toNat
      (∀ a, s.doing id 0x62 c → s.partRanges c.p (c.f 16 8) (c.f 4 4) = .ok [(a, c.f 4 4)] → s.plainAt a (c.f 4 4) → z.data.length = c.f 4 4 →
        ∃ t, exec (.nvmeRead id pc) s = .next t ∧ s.wrote t a z.data ∧ t.regs = s.regs ∧ t.ended id r 0 res ∧
          t.out = .nsRead n x.next (c.f 8 8) (c.f 4 4) :: s.out ∧ t.ns? n = some { x with next := (x.next + 1) % max 1 x.qpairs }) ∧
      (∀ b, s.doing id 0x63 c → s.partRead c.p (c.f 16 8) (c.f 4 4) = .ok b → b.length = c.f 4 4 → ∃ t, exec (.nvmeWrite id pc .ok) s = .next t ∧
        t.out = .nsWrite n x.next (c.f 8 8) b :: s.out ∧ t.mem = s.mem ∧ t.ended id r 0 res ∧
        t.ns? n = some { x with next := (x.next + 1) % max 1 x.qpairs })) ∧
    (s.doing id 0x64 c → s.ns? n = some x → x.owner = c.part → x.st = .up → c.clean [at8 0 0 8] = true → ∃ t, exec (.nvmeFlush id st) s = .next t ∧
      t.out = .nsFlush n x.next :: s.out ∧ t.mem = s.mem ∧ (st = 0 → t.ended id .ok 0 0) ∧ (st = 1 → t.ended id .dataError 0 1))

/-- A frame with a bad FCS or length, or one that does not fit, is dropped and counted; a PFC frame pauses the classes that are
honoured; a management frame is taken before parsing; any other is counted and parsed: DROP drops it, a reserved instruction
is an exception, and a lookup that finds nothing takes the port's default, DROP or delivery to partition 0's queue, where
the receive at the head completes with the length and the port. A ternary hit with PRECEDE comes first, then the exact hit,
then the ternary hit. Links, modes, programs and graph nodes change as their rules allow, and set CFG_DROP otherwise. A
table command is refused out of range, ignored while one runs, and writes VALID last. Address queries are answered, answers
learnt, packets without a next hop dropped after 1 ms, and a Sync moves the PTP offset. What it states beyond the rules is
the choice of the model: log entries 111 to 114. [13_ethernet_and_traffic.md: ports (R365 to R370), parsing (R371 to R375),
classification (R376 to R380), registers (R390); 12_rdma_and_storage.md: port events (R360)] -/
def Obligations.EthernetPorts : Prop :=
  ∀ (s : State) (l : Fin 16) (f : EthFrame) (v : BitVec 32) (w : BitVec 64) (pn : Fin 2048) (g : Fin 1024) (gw c : Fin 8),
    let up := s.flag (fETH_LPORT_STATUS_LINK l.val)
    let dropped (t u : State) : Prop := u.fld (fETH_RX_DROP_COUNT l.val) = min (t.fld (fETH_RX_DROP_COUNT l.val) + 1) (2 ^ (fETH_RX_DROP_COUNT l.val).w - 1)
    (s.ethPresent l.val = true → up = true →
      (f.fcsOk = false ∨ f.bytes.length < 60 ∨ 9212 < f.bytes.length → ∃ t, exec (.ethFrameReceive l f) s = .next t ∧ t = { s with regs := t.regs } ∧
        dropped s t ∧ s.sameRegsBut t [(fETH_RX_DROP_COUNT l.val).off]) ∧
      (f.fcsOk = true → 60 ≤ f.bytes.length → f.bytes.length ≤ 9212 →
        (0x800000 < f.used + f.bytes.length → ∃ t, exec (.ethFrameReceive l f) s = .next t ∧ t = { s with regs := t.regs } ∧ dropped s t ∧
          t.flag fETH_ERR_RX_OVF = true) ∧
        (f.used + f.bytes.length ≤ 0x800000 → ∃ t, exec (.ethFrameReceive l f) s = .next t ∧
          t.fld (fETH_RX_FRAMES_COUNT l.val) = min (s.fld (fETH_RX_FRAMES_COUNT l.val) + 1) (2 ^ (fETH_RX_FRAMES_COUNT l.val).w - 1) ∧
          (beNat ((f.bytes.drop 12).take 2) = 0x8808 → beNat ((f.bytes.drop 14).take 2) = 1 → t = { s with regs := t.regs } ∧
            s.sameRegsBut t [(fETH_RX_FRAMES_COUNT l.val).off]) ∧
          (beNat ((f.bytes.drop 12).take 2) = 0x8808 → beNat ((f.bytes.drop 14).take 2) = 0x0101 →
            bitOf (beNat ((f.bytes.drop 16).take 2)) c.val = true → bitOf (s.fld (fETH_LPORT_CTRL_PFC_RX l.val)) c.val = true →
            let n := beNat ((f.bytes.drop (18 + 2 * c.val)).take 2)
            (n = 0 → alook (l.val, c.val) t.eth.pauses = none) ∧
            (0 < n → ∃ e, alook (l.val, c.val) t.eth.pauses = some e ∧ (n * 512 * 800000000 ≤ (e - s.now) * (1000 * s.lineRate l.val)))) ∧
          (beNat ((f.bytes.drop 12).take 2) = 0x0806 → t = { s with regs := t.regs } ∧ s.sameRegsBut t [(fETH_RX_FRAMES_COUNT l.val).off]) ∧
          (s.mgmtTakes f.bytes = false → beNat ((f.bytes.drop 12).take 2) ≠ 0x8808 → beNat ((f.bytes.drop 12).take 2) ≠ 0x8100 → f.ue = none → f.ce = false →
            s.flag (fETH_LPORT_CTRL_UNTAG_GRAPH l.val) = false →
            let i := s.reg (rETH_PROG (256 * s.fld (fETH_LPORT_CTRL_PROG l.val)))
            let toQ : Prop :=
              (s.recvHead? 0 (s.fld fETH_EXC_Q_Q) = none → dropped s t ∧ t.que = s.que) ∧
              ∀ r a, s.recvHead? 0 (s.fld fETH_EXC_Q_Q) = some r → s.cmd? r.id = some r →
                (r.f 8 4 < f.bytes.length → t.ended r.id .invalidField 0 0 ∧ t.mem = s.mem) ∧
                (f.bytes.length ≤ r.f 8 4 → s.translate r.p (r.f 0 8) f.bytes.length true = .ok [(a, f.bytes.length)] →
                  s.usable r.p [(a, f.bytes.length)] = .ok → s.plainAt a f.bytes.length → s.writeHeld a f.bytes.length = false →
                  t.ended r.id .ok 0 (f.bytes.length + l.val * 2 ^ 32) ∧ t.bytes a f.bytes.length = f.bytes ∧
                  s.sameBytesBut t [(a, f.bytes.length)])
            (i = 0x6000000000000000 → t = { s with regs := t.regs } ∧ dropped s t) ∧
            (i = 0x5000000000000000 → s.flag (fETH_LPORT_CTRL_DEF_ACT l.val) = false → t = { s with regs := t.regs } ∧ dropped s t) ∧
            (i = 0x5000000000000000 → s.flag (fETH_LPORT_CTRL_DEF_ACT l.val) = true → toQ) ∧
            (8 ≤ i.toNat / 2 ^ 60 → t.flag fETH_ERR_PARSE_EXC = true ∧
              t.fld (fETH_PARSE_EXC_COUNT l.val) = min (s.fld (fETH_PARSE_EXC_COUNT l.val) + 1) (2 ^ (fETH_PARSE_EXC_COUNT l.val).w - 1) ∧
              (s.flag (fETH_LPORT_CTRL_EXC_ACT l.val) = false → dropped s t ∧ t.que = s.que) ∧
              (s.flag (fETH_LPORT_CTRL_EXC_ACT l.val) = true → toQ)))))) ∧
    (∀ (d : PDone) (p : PState), d.isMatch = false →
      let key := keyPut p.key 0 [BitVec.ofNat 8 ((p.key.getD 0 0).toNat / 16 * 16 + d.kt)]
      (∀ a, d.tern = true → s.ternHit key = some a → bitOf (fieldAt a 0 1) 4 = true → s.classify f.bytes d p = some a) ∧
      (∀ a b, d.exact = true → s.exactHit key = some b → (d.tern = false ∨ s.ternHit key = none ∨
        (s.ternHit key = some a ∧ bitOf (fieldAt a 0 1) 4 = false)) → s.classify f.bytes d p = some b) ∧
      (∀ a, d.tern = true → s.ternHit key = some a → (d.exact = false ∨ s.exactHit key = none) → s.classify f.bytes d p = some a)) ∧
    (∀ t, alook (l.val, c.val) s.eth.pauses = some t → ∃ u, exec (.pfcPauseEnd l c) s = .next u ∧ u.now = max s.now t ∧
      alook (l.val, c.val) u.eth.pauses = none ∧ u.regs = s.regs) ∧
    (s.fld fLDG_STATE_MGT = 2 → up = true →
      (∀ target who mac, ∃ t, exec (.mgmtFrameReceive l (.query target who mac)) s = .next t ∧ t = { s with eth := t.eth } ∧
        alook who t.eth.neigh = some mac ∧ (s.isSgid (gidBytes target) = true → (∀ x ∈ s.eth.hold, x.1 ≠ who) → ∃ a,
          t.eth.txq = s.eth.txq ++ [a] ∧ a.port = l.val ∧ a.ctrl = true ∧ a.body = .mgmt target mac)) ∧
      (∀ who mac, ∃ t, exec (.mgmtFrameReceive l (.answer who mac)) s = .next t ∧ t = { s with eth := t.eth } ∧ alook who t.eth.neigh = some mac ∧
        (∀ x ∈ t.eth.hold, x.1 ≠ who) ∧ t.eth.txq = s.eth.txq ++ (s.eth.hold.filter (fun x => decide (x.1 = who) && s.now ≤ x.2.2 + 800000)).map (fun x => x.2.1)) ∧
      (s.flag (fETH_LPORT_CTRL_PTP l.val) = true →
        (∀ t1 stamp, ∃ t, exec (.ptpEventMessage l (.sync t1 stamp)) s = .next t ∧ t = { s with regs := t.regs, eth := t.eth } ∧
          t.eth.ptp.off = (t1 : Int) + s.eth.ptp.delay - (5 * stamp / 1024 : Nat) ∧ t.eth.ptp.delay = s.eth.ptp.delay ∧
          t.flag (fETH_LPORT_STATUS_PTP_LOCK l.val) = true) ∧
        ∀ t4 stamp a b, s.eth.ptp.sync = some (a, b) → ∃ t, exec (.ptpEventMessage l (.delay t4 stamp)) s = .next t ∧ t = { s with eth := t.eth } ∧
          t.eth.ptp.delay = (b - a + ((t4 : Int) - (5 * stamp / 1024 : Nat))) / 2 ∧ t.eth.ptp.off = a + t.eth.ptp.delay - b)) ∧
    (∀ i x, s.eth.hold[(i : Nat)]? = some x → ∃ t, exec (.nextHopHoldExpire i) s = .next t ∧ t.now = max s.now (x.2.2 + 800000) ∧
      t.eth = { s.eth with hold := s.eth.hold.eraseIdx i } ∧ t.regs = s.regs) ∧
    (s.ethPresent l.val = true →
      (s.flag (fETH_LPORT_CTRL_ENABLE l.val) = true → up = false → ∃ t, exec (.ethLinkChange l true) s = .next t ∧
        t.flag (fETH_LPORT_STATUS_LINK l.val) = true ∧ t.pavs = s.pavs ∧ s.logged t 0x0403 blkRDM 0 .ok 0 0 l.val) ∧
      (up = true → ∃ t, exec (.ethLinkChange l false) s = .next t ∧ t.flag (fETH_LPORT_STATUS_LINK l.val) = false ∧
        t.flag (fETH_LPORT_STATUS_LOSS l.val) = true ∧ s.logged t 0x0402 blkRDM 0 .targetReset 0 0 l.val) ∧
      ∃ t, exec (.ethPortEnable l v) s = .next t ∧ t.fld (fETH_LPORT_CTRL_PFC_RX l.val) = bitsOf v.toNat 24 8 ∧
        t.fld (fETH_LPORT_CTRL_PROG l.val) = bitsOf v.toNat 8 3 ∧
        t.flag (fETH_LPORT_CTRL_ENABLE l.val) = (bitOf v.toNat 0 && !s.gated (s.skuField 12 2) (10 + l.val / 8)) ∧
        (bitOf v.toNat 0 = true ∨ up = false → t = { s with regs := t.regs }) ∧
        (bitOf v.toNat 0 = false → t.flag (fETH_LPORT_STATUS_LINK l.val) = false)) ∧
    (bitsOf v.toNat 4 2 = s.fld fETH_CFG_MODE1 → bitsOf v.toNat 0 2 ≠ 3 → ∃ t, exec (.ethModeWrite v) s = .next t ∧ t = { s with regs := t.regs } ∧
      ((∃ i, i < 8 ∧ s.ethPresent i = true ∧ s.flag (fETH_LPORT_CTRL_ENABLE i) = true) → bitsOf v.toNat 0 2 ≠ s.fld fETH_CFG_MODE0 →
        t.fld fETH_CFG_MODE0 = s.fld fETH_CFG_MODE0 ∧ t.flag fETH_ERR_CFG_DROP = true) ∧
      ((∀ i, i < 8 → s.ethPresent i = true → s.flag (fETH_LPORT_CTRL_ENABLE i) = false) → t.fld fETH_CFG_MODE0 = bitsOf v.toNat 0 2 ∧
        t.fld fETH_CFG_MODE1 = s.fld fETH_CFG_MODE1 ∧ s.sameRegsBut t [fETH_CFG_MODE0.off])) ∧
    (∃ t, exec (.ethProgWrite pn w) s = .next t ∧ t = { s with regs := t.regs } ∧
      let used : Prop := ∃ i, i < 16 ∧ s.ethPresent i = true ∧ s.flag (fETH_LPORT_CTRL_ENABLE i) = true ∧
        s.fld (fETH_LPORT_CTRL_PROG i) = pn.val / 256
      (used → t.flag fETH_ERR_CFG_DROP = true ∧ s.sameRegsBut t [fETH_ERR_CFG_DROP.off]) ∧
      (¬ used → t.reg (rETH_PROG pn.val) = w ∧ s.sameRegsBut t [rETH_PROG pn.val])) ∧
    (∃ t, exec (.ethGnodeWrite g gw v) s = .next t ∧ t = { s with regs := t.regs } ∧
      if s.flag fETH_GRAPH_CTRL_EN = true then t.flag fETH_ERR_CFG_DROP = true ∧ s.sameRegsBut t [fETH_ERR_CFG_DROP.off]
      else t.fld (fETH_GNODE_WORD g.val gw.val) = v.toNat ∧ s.sameRegsBut t [(fETH_GNODE_WORD g.val gw.val).off]) ∧
    (∀ e ∈ [(1, Instr.ethEntWrite v), (2, .ethEntRead v), (3, .ethEntInvalidate v)], bitsOf v.toNat 30 2 = e.1 →
      let t := bitsOf v.toNat 28 2
      let i := bitsOf v.toNat 0 18
      let size := if t = 0 then 262144 else if t = 1 then 16384 else 4096
      ∃ u, exec e.2 s = .next u ∧ u = { s with regs := u.regs, eth := u.eth } ∧
      (s.flag fETH_ENT_STATUS_BUSY = true → u.eth = s.eth ∧ u.flag fETH_ERR_CFG_DROP = true ∧ s.sameRegsBut u [fETH_ERR_CFG_DROP.off]) ∧
      (s.flag fETH_ENT_STATUS_BUSY = false → (t = 3 ∨ size ≤ i) → u.eth = s.eth ∧ u.fld fETH_ENT_STATUS_STATUS = 1 ∧
        u.flag fETH_ENT_STATUS_BUSY = false) ∧
      (s.flag fETH_ENT_STATUS_BUSY = false → (t = 1 ∨ t = 2) → i < size → u.flag fETH_ENT_STATUS_BUSY = true ∧
        (∃ k, u.eth.ent = some k ∧ k.op = e.1 ∧ k.table = t ∧ k.index = i) ∧ (e.1 = 1 → entValid (s.entry t i) = true →
          (s.entry t i).length = entBytes t → entValid (u.entry t i) = false) ∧ (e.1 ≠ 1 → u.eth.tables = s.eth.tables))) ∧
    (∀ k, s.eth.ent = some k → ∃ t, exec .ethEntDone s = .next t ∧ t = { s with regs := t.regs, eth := t.eth } ∧ t.eth.ent = none ∧
      t.flag fETH_ENT_STATUS_BUSY = false ∧ t.fld fETH_ENT_STATUS_STATUS = 0 ∧
      (k.op = 1 → t.entry k.table k.index = k.data ∧ ∀ a b, (a, b) ≠ (k.table, k.index) → t.entry a b = s.entry a b) ∧
      (k.op = 2 → t.eth.tables = s.eth.tables ∧ ∀ i, 4 * i < entBytes k.table →
        t.fld (fETH_ENT_DATA_DATA i) = fieldAt (s.entry k.table k.index) (4 * i) 4) ∧
      (k.op = 3 → ∀ a b, (a, b) ≠ (k.table, k.index) → t.entry a b = s.entry a b))

/-- The RoCEv2 frame of packet `k` in frame `f`: MAC addresses, the tag of a VID, EtherType, an IP header with the ECN field, UDP ports
and length, the Base Transport Header and what follows it, the invariant CRC (R339, R369). -/
def framed (s : State) (f : TxFrame) (k : RdmaTx) (dport ecn vid pcp : Nat) (mac : BitVec 48) (b : List Byte) : Prop :=
  let v4 := gidV4 k.gid
  let body := bth k ++ extHeader k ++ k.data ++ List.replicate (ceilTo k.data.length 4 - k.data.length) 0
  ∃ ip sum crc, b = beBytes 6 mac.toNat ++ beBytes 6 (s.fld (fETH_LPORT_MAC_MAC f.port)) ++
      (if vid = 0 then [] else [0x81, 0x00] ++ beBytes 2 (pcp * 8192 + vid)) ++ (if v4 then [0x08, 0x00] else [0x86, 0xDD]) ++ ip ++
      beBytes 2 k.sport ++ beBytes 2 dport ++ beBytes 2 (body.length + 12) ++ sum ++ body ++ crc ∧
    ip.length = (if v4 then 20 else 40) ∧ sum.length = 2 ∧ crc.length = 4 ∧ (ecn < 4 → v4 = true → beNat ((ip.drop 1).take 1) % 4 = ecn) ∧
    ip.drop (if v4 then 16 else 24) = (gidBytes k.gid).drop (if v4 then 12 else 0)

/-- A shaper or a policer written takes effect at the next refill, at a time-base value that is a multiple of 1,024; a policer
of mode 1 with CIR above PIR is dropped. A refill adds the rates, up to the burst; those that are due are taken before a
write or a decision of the same cycle. A control frame leaves first, unless its class is paused; a frame of a class that is
paused, or of which a shaper on the path is negative, or whose queue pair is paced, waits, and a hold by a shaper or a
pacing begins the wait of its work request; otherwise the frame leaves tagged with its partition's VID and class, and each
shaper on its path is charged. A two-rate policer colours by RFC 2698 and RFC 4115. What it states beyond the rules is the
choice of the model: log entries 115, 116. [12_rdma_and_storage.md: pacing (R358); 13_ethernet_and_traffic.md: policers
(R383 to R385), scheduling (R386 to R388), shapers (R389), registers (R391), transmission (R369)] -/
def Obligations.TrafficControl : Prop :=
  ∀ (s : State) (i : Fin 4096) (v : BitVec 64) (l : Fin 16) (f : TxFrame),
    let due := s.sch.tb.toNat / 1024 - s.eth.refill
    (i ≠ 0 → ∃ t, exec (.shaperWrite i v) s = .next t ∧ t = { s with regs := t.regs, eth := t.eth } ∧
      t.reg (rTRF_SHP i.val) = v &&& 0x7FFFFFFFFFFFFFFF ∧ s.sameRegsBut t [rTRF_SHP i.val] ∧
      (due = 0 → t.eth.shps = s.eth.shps ∧ t.eth.pols = s.eth.pols) ∧ t.eth.refill = s.eth.refill + due ∧
      (i.val, s.sch.tb.toNat, v &&& 0x7FFFFFFFFFFFFFFF) ∈ t.eth.newShps) ∧
    (exec (.shaperWrite 0 v) s = .next s) ∧ (exec (.policerCommit 0 v) s = .next s) ∧
    (i ≠ 0 → ∃ t, exec (.policerCommit i v) s = .next t ∧ t = { s with regs := t.regs, eth := t.eth } ∧
      (due = 0 → t.eth.pols = s.eth.pols ∧ t.eth.shps = s.eth.shps) ∧
      (bitsOf v.toNat 57 2 = 1 → s.fld (fTRF_POL_RATE_PIR i.val) < s.fld (fTRF_POL_RATE_CIR i.val) → t.eth = s.eth ∧
        t.flag fTRF_ERR_CFG_DROP = true ∧ s.sameRegsBut t [fTRF_ERR_CFG_DROP.off]) ∧
      (bitsOf v.toNat 57 2 = 3 → t.fld (fTRF_POL_SIZE_MODE i.val) = s.fld (fTRF_POL_SIZE_MODE i.val) ∧ s.sameRegsBut t [rTRF_POL_SIZE i.val]) ∧
      (bitsOf v.toNat 57 2 = 0 ∨ bitsOf v.toNat 57 2 = 2 ∨ (bitsOf v.toNat 57 2 = 1 ∧ s.fld (fTRF_POL_RATE_CIR i.val) ≤ s.fld (fTRF_POL_RATE_PIR i.val)) → (i.val, s.sch.tb.toNat, s.reg (rTRF_POL_RATE i.val), v &&& 0x077FFFFFFFFFFFFF) ∈ t.eth.newPols ∧
        t.reg (rTRF_POL_SIZE i.val) = v &&& 0x077FFFFFFFFFFFFF)) ∧
    (s.eth.refill = s.sch.tb.toNat / 1024 → s.sch.tb.toNat + 1024 < 2 ^ 64 → s.eth.newShps = [] → s.eth.newPols = [] → ∃ t,
      exec .bucketRefill s = .next t ∧ t.sch.tb.toNat = 1024 * (s.eth.refill + 1) ∧ t.eth.refill = s.eth.refill + 1 ∧ t.regs = s.regs ∧
      (∀ k x, alook k s.eth.shps = some x → ∃ y, alook k t.eth.shps = some y ∧ y.cfg = x.cfg ∧
        y.level = min (256 * (bitsOf x.cfg.toNat 32 24 : Int)) (x.level + (bitsOf x.cfg.toNat 0 32 : Int))) ∧
      ∀ j x, s.eth.pols = [(j, x)] → ∃ y, t.eth.pols = [(j, y)] ∧ y.rate = x.rate ∧ y.size = x.size ∧
        y.tc = min (256 * bitsOf x.size.toNat 0 24) (x.tc + bitsOf x.rate.toNat 0 32) ∧
        y.te = min (256 * bitsOf x.size.toNat 24 24) (x.te + bitsOf x.rate.toNat 32 32)) ∧
    (0 < due → s.eth.newShps = [] → s.eth.newPols = [] → ∃ t, exec .bucketRefill s = .next t ∧ t.eth.refill = s.sch.tb.toNat / 1024 ∧ t.now = s.now ∧
      ∀ k x, alook k s.eth.shps = some x → ∃ y, alook k t.eth.shps = some y ∧ y.cfg = x.cfg ∧
        y.level = min (256 * (bitsOf x.cfg.toNat 32 24 : Int)) (x.level + (due : Int) * (bitsOf x.cfg.toNat 0 32 : Int))) ∧
    (∀ a z, s.eth.newShps = [(i.val, a, z)] → s.eth.newPols = [] → a < 1024 * max (s.eth.refill + 1) (s.sch.tb.toNat / 1024) → s.eth.shps = [] →
      ∃ t x, exec .bucketRefill s = .next t ∧ t.eth.newShps = [] ∧ t.eth.shps = [(i.val, x)] ∧ x.cfg = z) ∧
    (∀ (p : Pol) (inc : Colour) (n : Nat),
      let b := 256 * ((n : Int) + signedOf 7 (bitsOf p.size.toNat 48 7)).toNat
      let c := if bitOf p.size.toNat 56 then inc else .green
      (bitsOf p.size.toNat 57 2 = 1 → ((p.meter inc n).1 = .red ↔ c = .red ∨ p.te < b) ∧
        ((p.meter inc n).1 = .green ↔ c = .green ∧ b ≤ p.te ∧ b ≤ p.tc) ∧ ((p.meter inc n).1 = .green → (p.meter inc n).2.tc = p.tc - b) ∧
        ((p.meter inc n).1 ≠ .red → (p.meter inc n).2.te = p.te - b)) ∧
      (bitsOf p.size.toNat 57 2 = 2 → ((p.meter inc n).1 = .green ↔ c = .green ∧ b ≤ p.tc) ∧
        ((p.meter inc n).1 = .red ↔ ¬ (c = .green ∧ b ≤ p.tc) ∧ (c = .red ∨ p.te < b)) ∧
        ((p.meter inc n).1 = .green → (p.meter inc n).2 = { p with tc := p.tc - b }) ∧
        ((p.meter inc n).1 = .yellow → (p.meter inc n).2 = { p with te := p.te - b }) ∧ ((p.meter inc n).1 = .red → (p.meter inc n).2 = p))) ∧
    (s.flag (fETH_LPORT_STATUS_LINK l.val) = false → ∀ x, exec (.ethTxSelect l x) s = .next s) ∧
    (s.flag (fETH_LPORT_STATUS_LINK l.val) = true →
      (s.eth.txq.find? (fun g => g.port = l.val && g.ctrl && s.ctrlReady g) = some f → ∀ x, ∃ t, exec (.ethTxSelect l x) s = .next t ∧
        t.eth = { s.eth with txq := s.eth.txq.erase f } ∧ t.mem = s.mem ∧
        t.fld (fETH_TX_FRAMES_COUNT l.val) = min (s.fld (fETH_TX_FRAMES_COUNT l.val) + 1) (2 ^ (fETH_TX_FRAMES_COUNT l.val).w - 1) ∧
        ∃ vid pcp mac b, t.out = .ethTx l.val vid pcp mac f.body b :: s.out ∧ vid = s.fld (fETH_PVLAN_VID f.part) ∧
          (pcp = if vid = 0 then 0 else f.cls) ∧ (∀ k d e, f.body = .rdma k d e → framed s f k d e vid pcp mac b)) ∧
      (s.eth.txq = [f] → f.port = l.val → f.ctrl = true → ∀ k a b, f.body = .rdma k a b → (alook (l.val, f.cls) s.eth.pauses).isSome = true →
        ∃ t, exec (.ethTxSelect l none) s = .next t ∧ t.out = s.out ∧ t.regs = s.regs ∧ t.eth.txq = [f]) ∧
      (s.eth.txq = [f] → due = 0 → f.port = l.val → f.ctrl = false → f.cls < 8 → f.part < 65 → f.queue < 1048576 →
        let paused : Prop := (alook (l.val, f.cls) s.eth.pauses).isSome = true
        let shaped : Prop := (∃ k ∈ s.path l.val f.cls f.part, ∃ x, alook k s.eth.shps = some x ∧ x.level < 0) ∨
          ∃ q, alook f.queue s.rdm.qps = some q ∧ q.rate ≠ none ∧ s.now < q.paceAt
        let held : Prop := paused ∨ shaped
        ∃ t, exec (.ethTxSelect l none) s = .next t ∧ t.mem = s.mem ∧
        (held → t.out = s.out ∧ t.regs = s.regs ∧ t.eth.shps = s.eth.shps ∧ t.eth.txq.length = 1) ∧
        (¬ paused → shaped → t.eth.txq = [{ f with blocked := true }] ∧ ∀ id c, f.cmd = some id → s.cmd? id = some c →
          t.cmd? id = some { c with held := some (c.held.getD s.now), shaped := true }) ∧
        (¬ held → t.eth.txq = [] ∧ (∃ vid pcp mac b, t.out = .ethTx l.val vid pcp mac f.body b :: s.out ∧ vid = s.fld (fETH_PVLAN_VID f.part) ∧
            (pcp = if vid = 0 then 0 else f.cls) ∧ ∀ k d e, f.body = .rdma k d e → framed s f k d e vid pcp mac b) ∧
          (∀ q r, alook f.queue s.rdm.qps = some q → q.rate = some r → ∃ y, alook f.queue t.rdm.qps = some y ∧ y.rate = some r ∧
            y.paceAt = max s.now q.paceAt + (8 * f.len * 800000 + max 1 r - 1) / max 1 r) ∧
          ∀ k x, s.path l.val f.cls f.part = [k] → alook k s.eth.shps = some x → ∃ y, alook k t.eth.shps = some y ∧ y.cfg = x.cfg ∧
            y.level = x.level - 256 * (((f.len : Int) + signedOf 7 (bitsOf x.cfg.toNat 56 7)).toNat : Int))))

/-- A write through the other function is refused with RO_WRITE, and a lock write without its key does nothing. ACQUIRE of a
free lock is granted: GEN advances and the ring registers are 0; of a held one it waits. RELEASE from the holder frees the
lock, or passes it to the waiting path with the lowest OWNER. A ring write from another path sets NOT_OWNER. A tail write by
the holder starts commands in ring order, with the status of R400 where a check fails, and is ignored where it would
withdraw descriptors. A command that has ended writes STATUS, DETAIL and DONE once its output is written, then the vector,
and HEAD passes descriptors that are DONE. A host that holds the lock longer than HOLD_MS while a firmware waits loses it;
what has not started ends with BUSY. What it states beyond the rules is the choice of the model: log entries 117, 118.
[14_cipher_and_trust.md: lock (R394 to R396), ring (R397, R398), failures (R400), key slots (R402), registers (R412)] -/
def Obligations.CipherRing : Prop :=
  ∀ (s : State) (p : CipPath) (v : BitVec 32) (fn : Fin 2) (r : CipRun) (o u : Nat),
    let me := cipOwner p
    let own := s.fld fCIP_LOCK_OWNER
    let z := s.fld fCIP_RING_CTRL_SIZE_LOG2
    let waits (q : Nat) : Prop := (alook q s.cip.waits).isSome = true
    let keyed (b : Nat) : Prop := v.toNat / 65536 = 0xA55A ∧ bitOf v.toNat b = true
    let granted (t : State) (q : Nat) : Prop := t.fld fCIP_LOCK_OWNER = q ∧ t.fld fCIP_LOCK_GEN = (s.fld fCIP_LOCK_GEN + 1) % 256 ∧
      t.reg rCIP_RING_BASE = 0 ∧ t.fld fCIP_RING_CTRL_SIZE_LOG2 = 0 ∧ t.fld fCIP_TAIL_INDEX = 0 ∧ t.fld fCIP_HEAD_INDEX = 0 ∧
      t.cip = { s.cip with next := 0, dones := [], waits := adel q s.cip.waits }
    (fn ≠ s.ctrlFn → ∀ c ∈ [Instr.cipAcquire (.host fn) v, .cipRelease (.host fn) v, .cipTailWrite (.host fn) v, .cipRingCtrlWrite (.host fn) v],
      ∃ t, exec c s = .next t ∧ t = { s with regs := t.regs } ∧ t.flag fHIF_ERR_RO_WRITE = true ∧ s.sameRegsBut t [fHIF_ERR_RO_WRITE.off]) ∧
    ((∀ g, p = .host g → g = s.ctrlFn) →
      (∀ c ∈ [Instr.cipAcquire p v, .cipRelease p v],
        (v.toNat / 65536 ≠ 0xA55A → exec c s = .next s) ∧
        (keyed 0 → own = 0 → ∃ t, exec c s = .next t ∧ t = { s with regs := t.regs, cip := t.cip } ∧ granted t me) ∧
        (keyed 0 → own ≠ 0 → own ≠ me → ¬ waits me → ∃ t, exec c s = .next t ∧ t = { s with regs := t.regs, cip := t.cip } ∧
          t.cip = { s.cip with waits := s.cip.waits ++ [(me, s.now)] } ∧ t.flag fCIP_LOCK_WAITING = true ∧ t.fld fCIP_LOCK_OWNER = own ∧
          t.fld fCIP_LOCK_GEN = s.fld fCIP_LOCK_GEN) ∧
        (own = me → bitOf v.toNat 1 = false → exec c s = .next s) ∧
        (own ≠ me → bitOf v.toNat 0 = false → exec c s = .next s) ∧
        (keyed 1 → own = me →
          ((∀ q ∈ [1, 2, 3], ¬ waits q) → ∃ t, exec c s = .next t ∧ t = { s with regs := t.regs } ∧ t.fld fCIP_LOCK_OWNER = 0 ∧
            s.sameRegsBut t [rCIP_LOCK] ∧ t.fld fCIP_LOCK_GEN = s.fld fCIP_LOCK_GEN) ∧
          (1 ≤ o → o ≤ 3 → waits o → (∀ q, 1 ≤ q → q < o → ¬ waits q) → ∃ t, exec c s = .next t ∧
            t = { s with regs := t.regs, cip := t.cip } ∧ granted t o))) ∧
      (own ≠ me → ∀ c ∈ [Instr.cipTailWrite p v, .cipRingCtrlWrite p v], ∃ t, exec c s = .next t ∧ t = { s with regs := t.regs } ∧
        t.flag fCIP_ERR_NOT_OWNER = true ∧ s.sameRegsBut t [fCIP_ERR_NOT_OWNER.off]) ∧
      (own = me → s.cip.running ≠ [] → ∃ t, exec (.cipRingCtrlWrite p v) s = .next t ∧ t = { s with regs := t.regs } ∧
        t.flag fCIP_ERR_NOT_OWNER = true ∧ s.sameRegsBut t [fCIP_ERR_NOT_OWNER.off]) ∧
      (own = me → s.cip.running = [] → ∃ t, exec (.cipRingCtrlWrite p v) s = .next t ∧ t = { s with regs := t.regs, cip := t.cip } ∧
        t.cip = { s.cip with next := 0, dones := [] } ∧ t.fld fCIP_HEAD_INDEX = 0 ∧ t.fld fCIP_TAIL_INDEX = 0 ∧
        t.fld fCIP_RING_CTRL_SIZE_LOG2 = (if 4 ≤ v.toNat % 32 ∧ v.toNat % 32 ≤ 12 then v.toNat % 32 else z) ∧
        s.sameRegsBut t [rCIP_RING_CTRL, rCIP_HEAD, rCIP_TAIL])) ∧
    (own = 3 → 4 ≤ z → z ≤ 12 → s.cip.running = [] → s.cip.next = s.fld fCIP_TAIL_INDEX → s.cip.next < 2 ^ z →
      v.toNat % 65536 = (s.cip.next + 1) % 2 ^ z → (s.region? (s.fld fCIP_RING_BASE_BASE + 64 * s.cip.next) 64).isSome = true → ∃ t x,
        exec (.cipTailWrite (.host s.ctrlFn) v) s = .next t ∧ t = { s with regs := t.regs, cip := t.cip } ∧
        t.fld fCIP_TAIL_INDEX = v.toNat % 65536 ∧ s.sameRegsBut t [rCIP_TAIL] ∧
        t.cip = { s.cip with running := [x], next := (s.cip.next + 1) % 2 ^ z } ∧
        let d := s.bytesHeld (s.fld fCIP_RING_BASE_BASE + 64 * s.cip.next) 64
        let key := fieldAt d 2 2 % 1024
        let len := fieldAt d 0x18 4
        let inRange : Prop := len % 16 = 0 ∧ 16 ≤ len ∧ len ≤ 2 ^ 31 ∧ (s.region? (fieldAt d 8 8) len).isSome = true ∧
          (s.region? (fieldAt d 0x10 8) len).isSome = true
        x.idx = s.cip.next ∧ x.gen = s.fld fCIP_LOCK_GEN ∧ x.path = 3 ∧ x.desc = d ∧ x.k1 = s.cipKey key ∧
        (fieldAt d 0 1 = 0 ∨ 9 ≤ fieldAt d 0 1 → x.result = some (.invalidField, 0x6000)) ∧
        (fieldAt d 0 1 = 8 → 6 ≤ fieldAt d 1 1 % 16 → x.result = some (.invalidField, 0x6000)) ∧
        (∀ n ∈ [1, 2], fieldAt d 0 1 = n → fieldAt d 1 1 % 16 = 0 →
          (¬ inRange → x.result = some (.invalidField, 0x6000)) ∧
          (inRange → s.flag (fCIP_SLOT_VALID key) = false → x.result = some (.invalidState, 0x6000 + key)) ∧
          (inRange → s.flag (fCIP_SLOT_VALID key) = true →
            (key < 128 ∨ bitOf (s.fld (fCIP_SLOT_USE key)) (n - 1) = false → x.result = some (.refusedPolicy, 0x6000 + key)) ∧
            (128 ≤ key → bitOf (s.fld (fCIP_SLOT_USE key)) (n - 1) = true → x.result = none)))) ∧
    (own = 3 → 4 ≤ z → v.toNat % 65536 < 2 ^ z →
      (v.toNat % 65536 + 2 ^ z - s.cip.next) % 2 ^ z < (s.fld fCIP_TAIL_INDEX + 2 ^ z - s.cip.next) % 2 ^ z →
      exec (.cipTailWrite (.host s.ctrlFn) v) s = .next s) ∧
    (s.cip.running = [r] → (r.result = none → exec (.cipCmdDone r.idx) s = .next s) ∧
      ((∃ w ∈ s.ckp.held, w.owner = .cip r.idx r.gen) → exec (.cipCmdDone r.idx) s = .next s) ∧
      ∀ st n, r.result = some (st, n) → n < 65536 → r.path = 3 → own = 3 → s.fld fCIP_LOCK_GEN = r.gen → 4 ≤ z → z ≤ 12 → r.idx < 2 ^ z →
        s.cip.next = s.fld fCIP_TAIL_INDEX → s.plainAt r.at_ 64 → s.writeHeld (r.at_ + 0x38) 8 = false →
        (∀ w ∈ s.ckp.held, w.owner ≠ .cip r.idx r.gen) → (st = .ok ∨ ¬ cdKind r.desc ∈ [0x10, 0x20, 0x81, 0x82, 0x84, 0x85]) → ∃ t, exec (.cipCmdDone r.idx) s = .next t ∧
          t.readN (r.at_ + 0x38) 2 = statusCode st ∧ t.readN (r.at_ + 0x3A) 2 = n ∧ t.readN (r.at_ + 0x3C) 4 % 2 = 1 ∧
          s.sameBytesBut t [(r.at_ + 0x38, 8)] ∧ t.cip.running = [] ∧ t.cip.keys = s.cip.keys ∧
          (s.fld fCIP_HEAD_INDEX = r.idx → s.cip.dones = [] → t.fld fCIP_HEAD_INDEX = (r.idx + 1) % 2 ^ z ∧ t.cip.dones = []) ∧
          (s.fld fCIP_HEAD_INDEX ≠ r.idx → s.fld fCIP_HEAD_INDEX ∉ s.cip.dones → t.fld fCIP_HEAD_INDEX = s.fld fCIP_HEAD_INDEX ∧
            t.cip.dones = r.idx :: s.cip.dones) ∧
          (st = .invalidState → s.logged t 0x0001 blkCIP noPart st n (cdOp r.desc) 0) ∧
          (s.flag fCIP_CFG_VEC_EN = false → t.out = s.out) ∧
          (s.flag fCIP_CFG_VEC_EN = true → s.hif.msix[s.ctrlFn].enable = true → s.hif.msix[s.ctrlFn].fmask = false →
            (smGet MsixEntry.reset s.hif.msix[s.ctrlFn].table (s.fld fCIP_CFG_VECTOR)).mask = false → ∃ a b, t.out = .msix s.ctrlFn a b :: s.out)) ∧
    (own ≠ 3 ∨ (∀ e ∈ s.cip.waits, e.1 = 3) → exec .cipLockRevoke s = .next s) ∧
    (own = 3 → (o = 1 ∨ o = 2) → s.cip.waits = [(o, u)] → 4 ≤ z → z ≤ 12 → s.cip.next < 2 ^ z →
      (s.cip.next = s.fld fCIP_TAIL_INDEX → ∃ t, exec .cipLockRevoke s = .next t ∧ t.now = max s.now (u + 800000 * s.fld fCIP_CFG_HOLD_MS) ∧
        t.flag fCIP_ERR_REVOKED = true ∧ granted t o ∧ t.mem = s.mem ∧ t.pavs = s.pavs) ∧
      (s.fld fCIP_TAIL_INDEX = (s.cip.next + 1) % 2 ^ z → s.flag fCIP_CFG_VEC_EN = false →
        let a := s.fld fCIP_RING_BASE_BASE + 64 * s.cip.next
        s.plainAt a 64 → s.writeHeld (a + 0x38) 8 = false → ∃ t, exec .cipLockRevoke s = .next t ∧ t.flag fCIP_ERR_REVOKED = true ∧
          granted t o ∧ s.sameBytesBut t [(a + 0x38, 8)] ∧ t.readN (a + 0x38) 2 = 0x10 ∧ t.readN (a + 0x3A) 2 = 0x6000 ∧
          t.readN (a + 0x3C) 4 % 2 = 1))

/-- An operation that has started and meets no fault ends with OK and the detail of CIP index 0: ENC, DEC, CTR, GCM_ENC and the
XTS modes write their output at DST, GHASH and POLYVAL 16 bytes, GCM_DEC its plaintext only where the tag verifies; KEY_LOAD
and KEY_UNWRAP load a slot, KEY_CLEAR makes it invalid. A tag or an integrity check that fails gives AUTH_FAIL and writes
nothing; a failed check is counted, a core that fails its test leaves service, a second failure gives DATA_ERROR. The AES
operations need two cores. What it states beyond the rules is the choice of the model: log entries 119 to 121.
[14_cipher_and_trust.md: checks (R392, R393), operations (R399), failures (R400), staging (R401), key slots (R402, R403)] -/
def Obligations.CipherOperations : Prop :=
  ∀ (s : State) (r : CipRun) (f : CipFault) (core : Fin 24) (good again : Bool),
    let i := r.idx
    let d := r.desc
    let src := cdSrc d
    let dst := cdDst d
    let len := cdLen d
    let iv := cdIv d
    let key := fieldAt d 2 2 % 1024
    let x := s.bytesHeld src len
    let pair : Prop := ∃ a b, a < b ∧ b < 24 ∧ bitOf (s.fld fCIP_CORES_IN_SERVICE) a = true ∧ bitOf (s.fld fCIP_CORES_IN_SERVICE) b = true
    let open_ (l : List (Nat × Nat)) : Prop := ∀ y ∈ l, y.2 ≠ 0 → s.accessSt y.1 y.2 = .ok
    let fine (g : CipFault) : Prop := g.checks = [] ∧ g.ue = none ∧ g.rd = .ok
    let finishes (t : State) (st : Status) : Prop := t.cip.running = [{ r with result := some (st, 0x6000), staged := 0 }]
    let put (c : Instr) (b : List Byte) : Prop := ∃ t, exec c s = .next t ∧ t = { s with mem := t.mem, cip := t.cip } ∧
      t.cip = { s.cip with running := t.cip.running } ∧ finishes t .ok ∧ s.wrote t dst b
    let free (n : Nat) : Prop := s.plainAt dst n ∧ s.writeHeld dst n = false
    s.cip.running = [r] → r.result = none →
    (fine f → pair → open_ [(src, len), (dst, len)] → free len →
      (∀ e ∈ [(0x10, Instr.enc i f, aesEncAll r.k1 x), (0x20, .dec i f, aesDecAll r.k1 x), (0x81, .ctr i f, aesCtr r.k1 iv x),
          (0x84, .xtsEnc i f, xtsEnc r.k1 r.k2 iv x), (0x85, .xtsDec i f, xtsDec r.k1 r.k2 iv x)],
        cdKind d = e.1 → e.2.2.length = len → put e.2.1 e.2.2)) ∧
    (fine f → pair → cdKind d = 0x82 → open_ [(src, len), (dst, len + 16), (cdAad d, cdAadLen d)] → free (len + 16) →
      (gcmText r.k1 iv x).length = len → (∀ c, (gcmTag r.k1 iv (s.bytesHeld (cdAad d) (cdAadLen d)) c).length = 16) →
        put (.gcmEnc i f) (gcmText r.k1 iv x ++ gcmTag r.k1 iv (s.bytesHeld (cdAad d) (cdAadLen d)) (gcmText r.k1 iv x))) ∧
    (fine f → pair → cdKind d = 0x83 → open_ [(src, len + 16), (dst, len), (cdAad d, cdAadLen d)] →
      let y := s.bytesHeld src (len + 16)
      let tag := gcmTag r.k1 iv (s.bytesHeld (cdAad d) (cdAadLen d)) (y.take len)
      (tag = y.drop len → free len → (gcmText r.k1 iv (y.take len)).length = len → put (.gcmDec i f) (gcmText r.k1 iv (y.take len))) ∧
      (tag ≠ y.drop len → ∃ t, exec (.gcmDec i f) s = .next t ∧ t = { s with regs := t.regs, cip := t.cip } ∧ finishes t .authFail ∧
        t.fld fCIP_TAGFAIL_COUNT = min (s.fld fCIP_TAGFAIL_COUNT + 1) (2 ^ 32 - 1) ∧ t.flag fCIP_ERR_TAG_FAIL = true ∧
        s.sameRegsBut t [rCIP_TAGFAIL, rCIP_ERR])) ∧
    (fine f → r.k1.length = 16 → open_ [(src, len), (dst, 16)] → free 16 →
      (cdKind d = 0x30 → put (.ghash i f) (ghash r.k1 iv x)) ∧ (cdKind d = 0x40 → put (.polyval i f) (polyval r.k1 iv x))) ∧
    (fine f → open_ [(src, len)] → ∀ k, ((cdKind d = 0x50 ∧ k = x) ∨ (cdKind d = 0x60 ∧ pair ∧ keyUnwrap r.k2 x = some k)) →
      (k.length = 16 ∨ k.length = 32) → ∃ t,
        exec (if cdKind d = 0x50 then .keyLoad i f else .keyUnwrap i f) s = .next t ∧ t = { s with regs := t.regs, cip := t.cip } ∧
        finishes t .ok ∧ t.cipKey key = k ∧ (∀ j, j ≠ key → t.cipKey j = s.cipKey j) ∧ t.flag (fCIP_SLOT_VALID key) = true ∧
        t.fld (fCIP_SLOT_SIZE key) = k.length / 16 ∧ t.fld (fCIP_SLOT_USE key) = cdUse d ∧ s.sameRegsBut t [rCIP_SLOT key]) ∧
    (fine f → pair → open_ [(src, len)] → cdKind d = 0x60 → keyUnwrap r.k2 x = none → ∃ t, exec (.keyUnwrap i f) s = .next t ∧
      t = { s with cip := t.cip } ∧ finishes t .authFail ∧ t.cip.keys = s.cip.keys) ∧
    (fine f → cdKind d = 0x70 → ∃ t, exec (.keyClear i f) s = .next t ∧ t = { s with regs := t.regs, cip := t.cip } ∧ finishes t .ok ∧
      t.cipKey key = [] ∧ (∀ j, j ≠ key → t.cipKey j = s.cipKey j) ∧ t.reg (rCIP_SLOT key) = 0 ∧ s.sameRegsBut t [rCIP_SLOT key]) ∧
    (∀ e ∈ [(0x10, Instr.enc i f), (0x20, .dec i f), (0x81, .ctr i f), (0x82, .gcmEnc i f), (0x83, .gcmDec i f), (0x84, .xtsEnc i f),
        (0x85, .xtsDec i f), (0x60, .keyUnwrap i f)],
      (cdKind d ≠ e.1 → exec e.2 s = .next s) ∧
      (cdKind d = e.1 → ¬ pair → exec e.2 s = .next s) ∧
      (cdKind d = e.1 → pair → f.checks = [{ cores := [(core, good)], second := again }] → f.ue = none → (again = true ∨ f.rd = .dataError) →
        open_ [(src, cdReads d), (dst, cdWrites d), (cdAad d, if cdGcm d then cdAadLen d else 0)] → ∃ t, exec e.2 s = .next t ∧
          t = { s with regs := t.regs, cip := t.cip, log := t.log } ∧ finishes t .dataError ∧ t.cip.keys = s.cip.keys ∧
          (again = true → s.logged t 0x0003 blkCIP noPart .dataError 0 blkCIP 0) ∧ (again = false → t.log = s.log) ∧ t.flag fCIP_ERR_MISMATCH = true ∧
          t.fld fCIP_FAULT_COUNT = min (s.fld fCIP_FAULT_COUNT + 1) (2 ^ 32 - 1) ∧
          (bitOf (t.fld fCIP_CORES_IN_SERVICE) core.val = true ↔ bitOf (s.fld fCIP_CORES_IN_SERVICE) core.val = true ∧ good = true) ∧
          (good = false → bitOf (s.fld fCIP_CORES_IN_SERVICE) core.val = true → t.flag fCIP_ERR_CORE_OUT = true)))

/-- From `s` to `t` every block but the lodge, the root of trust, the pavilions and the registers is as after power-on (R13): the
environment's memory, time and what has been sent stay. -/
def blank (s t : State) : Prop :=
  t.pending = s.pending ∧ t.now = s.now ∧ t.out = s.out ∧ t.scratch = [] ∧ t.log = [] ∧ t.sch = Sch.reset ∧ t.fab = Fab.reset ∧
    t.que = Que.reset ∧ t.hif = Hif.reset ∧ t.ckp = Ckp.reset ∧ t.rdm = Rdm.reset ∧ t.eth = Eth.reset ∧ t.cip = Cip.reset ∧
    t.pwr = Pwr.reset ∧ t.gmem = { Mem.reset with saved := s.gmem.saved, ident := s.gmem.ident, temps := s.gmem.temps } ∧
    ∀ a, volatileAddr a = false → smGet memDefault t.mem a = smGet memDefault s.mem a

/-- The security processor has halted with a code (R407). -/
def halted (t : State) (code : Nat) : Prop :=
  t.fld fCIP_BOOT_STAGE = 15 ∧ t.fld fCIP_BOOT_CODE = code ∧ t.fld fLDG_STATE_SEC = 4

/-- How steps 3 to 6 of the mask ROM have ended in `t`, by the records in its flash (R407). -/
def romEnded (t : State) : Prop :=
  let f := t.ldg.flash
  let k := (flashDir f).active
  let ownerOk : Prop := f.owner = [] ∨ t.recordOk f.owner 1 bindNone false = true
  let skuOk : Prop := t.recordOk f.sku 2 (keyDigest t.devPub) false = true
  let defectOk : Prop := t.recordOk f.defect 3 (keyDigest t.devPub) false = true
  let started (c : Fin 2) : Prop := t.fld fCIP_BOOT_STAGE = 2 ∧ t.fld fCIP_BOOT_CODE = 0 ∧ t.fld fCIP_BOOT_IMG = c.val ∧
    t.fld fCIP_BOOT_SVN = fieldAt (flashPart f c 1) 0xC 4 % 256 ∧ t.fld fLDG_STATE_SEC = 2 ∧ t.measured 2 = sha256 (flashPart f c 1)
  (¬ ownerOk → halted t 2) ∧ (ownerOk → ¬ skuOk → halted t 3) ∧ (ownerOk → skuOk → ¬ defectOk → halted t 4) ∧
    (ownerOk → skuOk → defectOk → t.tru.sku = some f.sku ∧ t.tru.defect = some f.defect ∧
      t.tru.owner = (if f.owner = [] then none else some f.owner) ∧
      (t.fwOk k 1 = true → started k) ∧
      (t.fwOk k 1 = false → t.fwOk (otherSet k) 1 = true → started (otherSet k)) ∧
      (t.fwOk k 1 = false → t.fwOk (otherSet k) 1 = false → halted t 1) ∧
      ∀ p : Fin 144, bitOf (fieldAt f.defect 0x40 18) p.val = true ∨ fieldAt f.sku 0x46 1 ≤ p.val / 9 → (t.pav p).excluded = true)

/-- A cold reset with a cause has led from `s` to `t` (R13, R407, R415). -/
def coldStart (s t : State) (cause : Nat) (b : BootIn) : Prop :=
  blank s t ∧ t.reg rTOP_RST_CAUSE = BitVec.ofNat 64 cause ∧ t.reg rTOP_CLK_STATUS = 7 ∧ (t.flag fHIF_CFG_BIF = true ↔ b.halves = true) ∧
    t.ldg.flash = b.flash.getD s.ldg.flash ∧ t.fld fLDG_STATE_MGT = 0 ∧ t.fld fLDG_STATE_PWR = 0 ∧ t.flag fLDG_STATE_READY = false ∧
    (∀ p, t.pav p = { Pav.reset with excluded := (t.pav p).excluded }) ∧
    (b.puf = false ∨ t.ldg.flash.helper = [] → halted t 5 ∧ t.tru = Tru.reset) ∧
    (b.puf = true → t.ldg.flash.helper ≠ [] → t.tru.uds = some (Config.pufUds t.ldg.flash.helper) ∧ romEnded t)

/-- A warm reset with a cause has led from `s` to `t` (R13, R17, R81, R176, R408, R419). -/
def warmStart (s t : State) (cause : Nat) : Prop :=
  t.reg rTOP_RST_CAUSE = BitVec.ofNat 64 cause ∧ t.sch.tb = s.sch.tb ∧ t.now = s.now ∧ t.run = 0 ∧ t.fld fSCH_STATE_IMG = 0 ∧
    t.sch.active = none ∧ t.que = Que.reset ∧ t.rdm = Rdm.reset ∧ t.eth = Eth.reset ∧ t.ckp = Ckp.reset ∧ t.cip = Cip.reset ∧
    t.fld fCIP_LOCK_OWNER = 0 ∧ t.tru.uds = s.tru.uds ∧ t.ldg.flash = s.ldg.flash ∧ t.scratch = [] ∧ t.fab.resetting = true ∧
    (∀ n ∈ [rLDG_MAPOUT0, rLDG_MAPOUT1, rLDG_MAPOUT2, rCKP_AUTO_COUNT], t.reg n = s.reg n) ∧
    t.flag fFAB_RT_CTRL_PENDING = false ∧ t.gmem.force = (s.gmem.force || s.flag fMEM_TRAIN_CTRL_FORCE_FULL) ∧
    (∀ p, (t.pav p).niGen = (s.pav p).niGen + 1 ∧ (t.pav p).nextWrite = (s.pav p).nextWrite ∧ (t.pav p).seq = Seq.reset ∧ ((s.pav p).excluded = true → (t.pav p).excluded = true)) ∧
    (∀ a : Fin 16, t.fld (fHIF_SLOT_STATUS_STATE a.val) = (if s.flag (fHIF_SLOT_STATUS_PRESENT a.val) = true then 1 else 0)) ∧
    (s.fld fLDG_STATE_SEC = 4 → t.fld fLDG_STATE_SEC = 4 ∧ t.reg rCIP_BOOT = s.reg rCIP_BOOT) ∧
    (s.fld fLDG_STATE_SEC ≠ 4 → romEnded t)

/-- Power-on, a pulse of 2 µs or longer on por_n, a loss of lock longer than 1 µs, and a keyed COLD give a cold reset with their
cause: every block is as State.reset has it, the flash keeps its contents, and the mask ROM runs; it halts with CODE 5 where
the PUF fails, 2 for an invalid owner key record, 3 and 4 for an SKU or a defect record that is missing or invalid, 1 where
no copy of the security firmware passes, and else starts the first copy that passes. A short pulse or a short loss resets
nothing, but the loss is flagged. A keyed WARM, and PERST# of an unsplit port or of both halves, give a warm reset: the time
base, the trouble log, map-outs and the fabric's links stay, the NI generations advance, and RUN's schedule is lost with the
notice of its fault. PERST# of one half takes down its link, ends with TARGET_RESET what a service pavilion has outstanding
there and, for the control function, partition 0's queues. What it states beyond the rules is the choice of the model: log
entries 2, 123 to 128, 130. [01_node_architecture.md: resets (R13 to R18); 14_cipher_and_trust.md: mask ROM (R406 to R408);
15_bringup_and_firmware.md: bring-up (R415), map-outs (R419); 18_package_and_electrical.md: power-up, por_n, thermal trip
(R480 to R484); 06_fabric_links.md: warm reset (R176); 10_pcie_ports.md: PERST# (R280)] -/
def Obligations.Resets : Prop :=
  ∀ (s : State) (v : BitVec 32) (b : BootIn) (ns : Nat) (h0 h1 : Bool),
    let both (c : Nat × Instr) : Prop := ∃ t, exec c.2 s = .next t ∧ coldStart s t c.1 b
    (both (0x01, .powerOn b)) ∧
    (s.ldg.tripped = false →
      (2000 ≤ ns → both (0x02, .porPinLow ns b)) ∧ (1000 < ns → both (0x04, .rootPllUnlock ns b)) ∧ both (0x04, .rootPllLossTimeout b) ∧
      (v.toNat / 65536 = 0xA55A → bitOf v.toNat 1 = true → both (0x08, .swCold v b) ∧ both (0x08, .swWarm v b)) ∧
      (ns < 1000 → ∃ t, exec (.rootPllUnlock ns b) s = .next t ∧ t = { s with regs := t.regs } ∧ t.flag fTOP_CLK_STATUS_ROOT_UNLOCK = true)) ∧
    (ns < 500 ∨ s.ldg.tripped = true → exec (.porPinLow ns b) s = .next s) ∧
    (v.toNat / 65536 ≠ 0xA55A ∨ v.toNat % 4 = 0 → exec (.swCold v b) s = .next s ∧ exec (.swWarm v b) s = .next s) ∧
    (v.toNat / 65536 = 0xA55A → v.toNat % 4 = 1 → ∀ c ∈ [Instr.swCold v b, .swWarm v b], ∃ t, exec c s = .next t ∧ warmStart s t 0x20 ∧
      ∀ h : Fin 2, t.flag (fHIF_UP_STATUS_LINK_UP h.val) = s.flag (fHIF_UP_STATUS_LINK_UP h.val) ∧
        t.hif.spdm[h] = { Spdm.reset with ide := s.hif.spdm[h].ide, keys := s.hif.spdm[h].keys }) ∧
    (h0 = true → s.flag fHIF_CFG_BIF = false ∨ h1 = true → ∃ t, exec (.upstreamPerst h0 h1) s = .next t ∧ warmStart s t 0x10 ∧
      ∀ h : Fin 2, t.flag (fHIF_UP_STATUS_LINK_UP h.val) = false) ∧
    (s.flag fHIF_CFG_BIF = true → h0 ≠ h1 → ∃ t, exec (.upstreamPerst h0 h1) s = .next t ∧
      let h : Fin 2 := if h0 then 0 else 1
      t.flag (fHIF_UP_STATUS_LINK_UP h.val) = false ∧ t.hif.cfg[h] = FnCfg.reset ∧ t.fld (fHIF_UP_QTAGS_COUNT h.val) = 0 ∧
      (s.gmem.migs = [] → s.ckp.restore = none → (∀ p : Fin 65, p ≠ 0 → (s.part p).home = h.val → (s.part p).st ≠ .active ∧ (s.part p).st ≠ .freezing) → t.pavs = s.pavs ∧
        t.sch = s.sch ∧ t.fab = s.fab ∧ t.ldg = s.ldg ∧ t.tru = s.tru ∧ t.mem = s.mem ∧ t.hif.msix[h] = FnMsix.reset ∧
        ∀ d, s.cmd? d.id = some d → s.svcRuns d = true → d.done = none → d.op ≠ 0x10 → (h = s.ctrlFn → d.part ≠ 0) →
          (∃ x ∈ s.cmdSpans d, ∃ b n, s.regionAt x.1 = some (.host h.val, b, n)) → t.ended d.id .targetReset 0 0) ∧
      (∀ g : Fin 2, g ≠ h → t.flag (fHIF_UP_STATUS_LINK_UP g.val) = s.flag (fHIF_UP_STATUS_LINK_UP g.val) ∧ t.hif.cfg[g] = s.hif.cfg[g]) ∧
      (h = s.ctrlFn → t.flag fQUE_ADMIN_CTRL_ENABLE = false ∧ (∀ e ∈ t.que.sqs, e.1.1 ≠ 0) ∧ (∀ e ∈ t.que.cqs, e.1.1 ≠ 0) ∧
        t.fld fCIP_LOCK_OWNER ≠ 3)) ∧
    (h0 = false → s.flag fHIF_CFG_BIF = false ∨ h1 = false → exec (.upstreamPerst h0 h1) s = .next s) ∧
    (∃ t, exec .powerDown s = .next t ∧ blank s t ∧ t.ldg = { Ldg.reset with flash := s.ldg.flash } ∧ t.tru = Tru.reset ∧
      t.reg rTOP_RST_CAUSE = 1 ∧ (∀ o, o ≠ rTOP_RST_CAUSE → t.reg o = regReset o) ∧ t.pavs = Vector.replicate 144 Pav.reset)

/-- Once the security firmware runs, the management and power firmware of its set start when every part verifies: STAGE reads 3,
DEV_GEN advances and is kept, the GEN notice holds the device's own flits for 16,000 ticks, GDDR7 training begins and the
powered slots leave OFF; with an invalid part neither starts. Terrace t is ungated 2t ms after step 7 begins, but for
pavilions that are excluded; a self-test ends 4 ms later, and one that fails maps its pavilion out, with its bit, the flag
and its entry. When all have ended the map is built. READY is set when GDDR7 training has ended too. What it states beyond
the rules is the choice of the model: log entries 129, 131. [15_bringup_and_firmware.md: bring-up (R415), waves and
self-test (R417 to R419), EMU registers (R441); 01_node_architecture.md: DEV_GEN (R17); 06_fabric_links.md: GEN notice
(R177); 10_pcie_ports.md: slots at bring-up (R297)] -/
def Obligations.BringUp : Prop :=
  ∀ (s : State) (tr : Fin 16) (p : Fin 144) (b : Bool),
    let k : Fin 2 := Fin.ofNat 2 (s.fld fCIP_BOOT_IMG)
    (s.ldg.step ≠ 4 ∨ s.fld fLDG_STATE_SEC ≠ 2 → exec .lodgeFwStart s = .next s) ∧
    (s.ldg.step = 4 → s.fld fLDG_STATE_SEC = 2 →
      (s.fwOk k 2 = true ∧ s.fwOk k 3 = true ∧ s.fwOk k 4 = true → ∃ t, exec .lodgeFwStart s = .next t ∧ t.fld fCIP_BOOT_STAGE = 3 ∧
        t.fld fLDG_STATE_MGT = 2 ∧ t.fld fLDG_STATE_PWR = 2 ∧ t.ldg.step = 6 ∧ t.ldg.waveFrom = s.now ∧ t.ldg.waves = [] ∧
        t.ldg.flash = { s.ldg.flash with devGen := s.ldg.flash.devGen + 1 } ∧ t.fld fTOP_GEN_DEV_GEN = (s.ldg.flash.devGen + 1).toNat ∧
        t.fab.genHold = some (s.sch.tb.toNat + 16000) ∧ t.fab.resetting = false ∧ t.gmem.training.isSome = true ∧
        t.tru.meas = s.tru.meas ++ [(6, sha256 (flashPart s.ldg.flash k 2)), (7, sha256 (flashPart s.ldg.flash k 3)),
          (8, sha256 (flashPart s.ldg.flash k 4))] ∧ t.pavs = s.pavs ∧ t.fld fEMU_IF_VERSION_VERSION = 2 ∧ t.flag fEMU_IF_VERSION_BUSY = false ∧
        (∀ a : Fin 16, s.fld (fHIF_SLOT_STATUS_STATE a.val) = 1 → s.gated (s.skuField 12 2) (a.val / 2) = false →
          (a.val % 2 = 0 ∨ s.flag (fHIF_DS_CTRL_SPLIT (a.val / 2)) = true) →
          t.fld (fHIF_SLOT_STATUS_STATE a.val) = 2 ∧ t.hif.slots[a].power = true ∧ t.hif.slots[a].since = s.now) ∧
        (∀ q : Fin 24, s.portV3 q.val = true → ∃ n, (t.fport q).ctrlQ = (s.fport q).ctrlQ ++ [{ flit := .ctrl (.notice 4 n), slot := s.slot }] ∧
          n.gen = s.ldg.flash.devGen + 1 ∧ n.stamp = s.sch.tb)) ∧
      (¬ (s.fwOk k 2 = true ∧ s.fwOk k 3 = true ∧ s.fwOk k 4 = true) → ∃ t, exec .lodgeFwStart s = .next t ∧ t = { s with regs := t.regs } ∧
        t.fld fLDG_STATE_MGT = 4 ∧ t.fld fLDG_STATE_PWR = 4 ∧ t.flag fPWR_STATE_GOV = true)) ∧
    (∀ u, s.fab.genHold = some u → u < 2 ^ 64 → ∃ t, exec .genHoldExpire s = .next t ∧ u ≤ t.sch.tb.toNat ∧ t.fab = { s.fab with genHold := none } ∧
      t.regs = s.regs ∧ t.pavs = s.pavs) ∧
    (s.fab.genHold = none → exec .genHoldExpire s = .next s) ∧
    (s.ldg.step = 6 → tr.val < s.skuField 6 1 → (∀ w ∈ s.ldg.waves, w.1 ≠ tr.val) →
      (∃ q : Fin 144, (s.pav q).excluded = false ∧ (s.pav q).tested = false ∧ q.val / 9 = tr.val) → ∃ t, exec (.terraceWave tr) s = .next t ∧
        t.now = max s.now (s.ldg.waveFrom + 1600000 * tr.val) ∧ t.ldg.waves = (tr.val, t.now) :: s.ldg.waves ∧ t.ldg.step = 6 ∧
        t.regs = s.regs ∧ ∀ q : Fin 144, t.pav q = { s.pav q with ungated := (s.pav q).ungated || (decide (q.val / 9 = tr.val) && !(s.pav q).excluded) }) ∧
    (s.ldg.step ≠ 6 ∨ s.skuField 6 1 ≤ tr.val ∨ (∃ w ∈ s.ldg.waves, w.1 = tr.val) → exec (.terraceWave tr) s = .next s) ∧
    (s.ldg.step = 6 → (s.pav p).ungated = true → (s.pav p).tested = false → ∀ u, s.ldg.waves = [(p.val / 9, u)] → 2 ≤ s.skuField 6 1 →
      ∃ t, exec (.pavSelfTestDone p b) s = .next t ∧ t.now = max s.now (u + 3200000) ∧ t.ldg.step = 6 ∧ (t.pav p).tested = true ∧
        (t.pav p).excluded = ((s.pav p).excluded || !b) ∧ (∀ q, q ≠ p → t.pav q = s.pav q) ∧
        (b = true → t.regs = s.regs ∧ t.log = s.log) ∧
        (b = false → t.flag fLDG_ERR_MAPOUT = true ∧ bitOf (t.fld (if p.val < 64 then fLDG_MAPOUT0_BITS else if p.val < 128 then fLDG_MAPOUT1_BITS
          else fLDG_MAPOUT2_BITS)) (p.val % 64) = true ∧ ∃ e, alook (s.fld fLOG_WR_COUNT % 65536) t.log = some e ∧ e.kind = 0x0505 ∧
            e.arg1 = BitVec.ofNat 64 p.val)) ∧
    (s.ldg.step = 6 → (s.pav p).ungated = true → (s.pav p).tested = false → (∀ q, q ≠ p → (s.pav q).ungated = true → (s.pav q).tested = true) →
      (∀ x, x < min 16 (s.skuField 6 1) → ∃ w ∈ s.ldg.waves, w.1 = x) → ∃ t, exec (.pavSelfTestDone p true) s = .next t ∧ t.ldg.step = 7 ∧
        ∀ l : Fin 128, (t.reg (rPAV_MAP l.val)).toNat = s.mapEntry l.val) ∧
    (s.ldg.step = 7 → s.gmem.training = none → ∃ t, exec .bringupReady s = .next t ∧ t = { s with regs := t.regs, ldg := { s.ldg with step := 8 } } ∧
      t.flag fLDG_STATE_READY = true ∧ s.sameRegsBut t [fLDG_STATE_READY.off]) ∧
    (s.ldg.step ≠ 7 ∨ s.gmem.training ≠ none → exec .bringupReady s = .next s)

/-- A segment whose CRC-32C agrees is written to instruction or data memory and its bit set; a bad one, and one that comes while
the pavilion is being reset, is discarded. A report of a full bitmap whose memories hold the images loads the pavilion and
ends or completes its load; a full bitmap with a mismatched digest is cleared; no report within 100 µs counts as an empty
bitmap. A load that has failed gets another round, three at most, then its pavilion is mapped out, when the map may change,
the map is rebuilt and the load begins again on the pavilion that took its place, or ends where there is none. What it
states beyond the rules is the choice of the model: log entries 133. [15_bringup_and_firmware.md: loading pavilions (R422 to
R425), map-outs (R419); 03_pavilion_array.md: the map (R73, R75)] -/
def Obligations.PavilionLoading : Prop :=
  ∀ (s : State) (l : Fin 128) (p : Fin 144) (d : PavLoad) (x : LoadSeg), s.ldg.loads = [d] → d.lpav = l.val →
    let segs (w : List (BitVec 16)) : Nat := (2 * w.length + 4095) / 4096
    let n := segs d.imem + segs d.dmem
    let full : Prop := d.bitmap.toNat = 2 ^ n - 1
    let onlyLoad (t : State) (y : List PavLoad) : Prop := t.ldg = { s.ldg with loads := y }
    (s.phys? l.val = some p → d.report = none →
      ((s.pav p).refusing = true ∨ crc32c x.data ≠ x.crc ∨ n ≤ x.index.val → ∃ t, exec (.loaderSegment l x) s = .next t ∧ t = { s with ldg := t.ldg } ∧
        onlyLoad t [{ d with lastSeg := s.now }]) ∧
      ((s.pav p).refusing = false → crc32c x.data = x.crc → x.index.val < n → x.data.length ≤ 4096 → ∃ t, exec (.loaderSegment l x) s = .next t ∧
        t = { s with ldg := t.ldg, pavs := t.pavs } ∧ (∀ q, q ≠ p → t.pav q = s.pav q) ∧
        onlyLoad t [{ d with lastSeg := s.now, bitmap := d.bitmap ||| BitVec.ofNat 48 (2 ^ x.index.val) }] ∧
        let inI : Prop := x.index.val < segs d.imem
        let at_ := 2048 * (if x.index.val < segs d.imem then x.index.val else x.index.val - segs d.imem)
        (inI → t.pav p = { s.pav p with imem := (t.pav p).imem }) ∧ (¬ inI → t.pav p = { s.pav p with dmem := (t.pav p).dmem }) ∧
        (∀ j, 2 * j + 1 < x.data.length → (smGet (fun _ => 0) (if x.index.val < segs d.imem then (t.pav p).imem else (t.pav p).dmem) (at_ + j)).toNat =
          (x.data.getD (2 * j) 0).toNat + 256 * (x.data.getD (2 * j + 1) 0).toNat) ∧
        ∀ j, j < at_ ∨ at_ + (x.data.length + 1) / 2 ≤ j → smGet (fun _ => 0) (t.pav p).imem j = smGet (fun _ => 0) (s.pav p).imem j ∧
          smGet (fun _ => 0) (t.pav p).dmem j = smGet (fun _ => 0) (s.pav p).dmem j) ∧
      (full → (∀ i, i < d.imem.length → smGet (fun _ => 0) (s.pav p).imem i = d.imem.getD i 0) →
        (∀ i, i < d.dmem.length → smGet (fun _ => 0) (s.pav p).dmem i = d.dmem.getD i 0) → ∃ t, exec (.loaderReport l) s = .next t ∧
          t = { s with ldg := t.ldg, pavs := t.pavs, regs := t.regs } ∧ (∀ q, q ≠ p → t.pav q = s.pav q) ∧
          t.pav p = { s.pav p with seq := { (s.pav p).seq with loaded := true } } ∧
          onlyLoad t (if d.svc then [] else [{ d with report := some true }])) ∧
      (full → loadMatches (s.pav p) d = false → ∃ t, exec (.loaderReport l) s = .next t ∧ t = { s with ldg := t.ldg, regs := t.regs } ∧
        onlyLoad t [{ d with report := some false, bitmap := 0 }]) ∧
      (¬ full → ∃ t, exec (.loaderReport l) s = .next t ∧ t = { s with ldg := t.ldg, regs := t.regs } ∧
        onlyLoad t [{ d with report := some false }])) ∧
    (d.report = none → ∃ t, exec (.loaderReportTimeout l) s = .next t ∧ t = { s with ldg := t.ldg, now := t.now, sch := t.sch } ∧
      t.now = max s.now (d.lastSeg + 80000) ∧ onlyLoad t [{ d with report := some false, bitmap := 0 }]) ∧
    (d.report ≠ some false → exec .repairRound s = .next s) ∧
    (d.report = some false → d.round < 3 → ∃ t, exec .repairRound s = .next t ∧ t = { s with ldg := t.ldg } ∧
      onlyLoad t [{ d with round := d.round + 1, report := none, lastSeg := s.now }]) ∧
    (d.report = some false → 3 ≤ d.round → s.running = true ∨ (s.outLoads [d]).mapBusy = true → exec .repairRound s = .next s) ∧
    (d.report = some false → 3 ≤ d.round → s.running = false → (s.outLoads [d]).mapBusy = false → s.phys? l.val = some p → ∃ t, exec .repairRound s = .next t ∧
      (t.pav p).excluded = true ∧ t.flag fLDG_ERR_MAPOUT = true ∧ (∀ k : Fin 128, (t.reg (rPAV_MAP k.val)).toNat = t.mapEntry k.val) ∧
      t.phys? l.val ≠ some p ∧ t.flag fPAV_RST_STATUS_BUSY = true ∧ t.fld fPAV_RST_STATUS_LAST = l.val ∧ (∀ q, q ≠ p → (t.pav q).excluded = (s.pav q).excluded) ∧
      t.ldg.loads = if t.present l.val then [{ d with bitmap := 0, report := none, round := 1, lastSeg := s.now }] else [])

/-- FW_STAGE reads a package and makes its checks in their order, the first failure ending it with nothing written; then the set
not booted is EMPTY and holds the package's parts, and the UEFI image its part 5. FW_ACTIVATE makes FW_STATE PENDING, or
DEFERRED where it falls due at once in an emergency; FW_CANCEL makes it STAGED. TRAIN_SAVE keeps a record of each selected
port that is up; NET_CFG takes a gateway record for each port named; DIST_SEND sends the image's segments to every child and
writes its report; DIST_RECV arms or disarms an area. A segment from the parent is checked, forwarded, stored, and reported
after the last. A command that ends writes STATUS, DETAIL and RESULT, EMU_STATUS, and its event. What it states beyond the
rules is the choice of the model: log entries 132, 134 to 136. [15_bringup_and_firmware.md: TRAIN_SAVE (R421), distribution
(R426), commands (R428, R429), staging (R435 to R438), directory (R414); 13_ethernet_and_traffic.md: next hops (R369)] -/
def Obligations.EmuCommands : Prop :=
  ∀ (s : State) (e : EmuRun) (x : DistSeg) (full : List (BitVec 14)) (l : Fin 16), s.fld fLDG_STATE_MGT = 2 → s.ldg.emu = some e →
    let a := emuArg e.block 0
    let n := emuArg e.block 1
    let r := emuArg e.block 2
    let f := s.ldg.flash
    let k := s.stageSet
    let cmd := emuCmd e.block
    let ends (t : State) (st : Status) (res : Nat) : Prop :=
      t.ldg.emu = some { e with result := some (st, if st = .refusedPolicy ∨ st = .refusedResource then 0x7800 else 0, res) }
    let only (t : State) (st : Status) : Prop := t = { s with ldg := t.ldg } ∧ t.ldg = { s.ldg with emu := t.ldg.emu } ∧ ends t st 0
    let free (b m : Nat) : Prop := s.plainAt b m ∧ s.writeHeld b m = false
    (e.result = none →
      (cmd = 1 →
        (25 * 2 ^ 20 < n ∨ s.region? a n = none → ∃ t, exec .fwStage s = .next t ∧ only t .invalidField) ∧
        (n ≤ 25 * 2 ^ 20 → s.accessSt a n ≠ .ok → (s.region? a n).isSome = true → ∃ t, exec .fwStage s = .next t ∧ only t (s.accessSt a n)) ∧
        (n ≤ 25 * 2 ^ 20 → s.accessSt a n = .ok → ∀ p, splitRecords 5 (s.bytesHeld a n) = some p →
          let sigs := if s.cosign then 2 else 1
          let v1 : Prop := ∀ y ∈ p, fieldAt y 6 2 = 1
          let sg : Prop := ∀ y ∈ p, s.recordSigned y bindNone s.cosign = true
          let svn : Prop := ∀ y ∈ p, s.minSvn ≤ fieldAt y 0xC 4
          (packageOk p sigs = false → ∃ t, exec .fwStage s = .next t ∧ only t .invalidField) ∧
          (packageOk p sigs = true → ¬ v1 → ∃ t, exec .fwStage s = .next t ∧ only t .versionMismatch) ∧
          (packageOk p sigs = true → v1 → ¬ sg → ∃ t, exec .fwStage s = .next t ∧ only t .authFail) ∧
          (packageOk p sigs = true → v1 → sg → ¬ svn → ∃ t, exec .fwStage s = .next t ∧ only t .refusedPolicy) ∧
          (packageOk p sigs = true → v1 → sg → svn → ∃ t, exec .fwStage s = .next t ∧ t = { s with ldg := t.ldg, regs := t.regs } ∧
            t.fld fEMU_STATUS_FW_STATE = 1 ∧ ends t .ok k.val ∧ (∀ y ∈ p, fwPart y ≠ 5 → flashPart t.ldg.flash k (fwPart y) = y) ∧
            (∀ j, flashPart t.ldg.flash (otherSet k) j = flashPart f (otherSet k) j) ∧ t.ldg.flash.devGen = f.devGen ∧
            ((∀ y ∈ p, fwPart y ≠ 5) → t.ldg.flash.uefi = f.uefi) ∧
            ((flashDir f).seq.toNat + 1 < 2 ^ 32 → dirState (flashDir t.ldg.flash) k = 0 ∧
              dirState (flashDir t.ldg.flash) (otherSet k) = dirState (flashDir f) (otherSet k))))) ∧
      (cmd = 2 → ∃ t, exec .fwActivate s = .next t ∧ t = { s with regs := t.regs, ldg := t.ldg } ∧ s.sameRegsBut t [rEMU_STATUS] ∧
        if s.running = false ∧ s.flag fPWR_STATE_EMERG = true then t.fld fEMU_STATUS_FW_STATE = 4 ∧ ends t .deferredEmergency 0
        else t.fld fEMU_STATUS_FW_STATE = 3 ∧ ends t .ok 0 ∧ t.ldg.fwDue = false) ∧
      (cmd = 3 → ∃ t, exec .fwCancel s = .next t ∧ t = { s with regs := t.regs, ldg := t.ldg } ∧ s.sameRegsBut t [rEMU_STATUS] ∧
        t.fld fEMU_STATUS_FW_STATE = 2 ∧ ends t .ok 0 ∧ t.ldg.fwDue = false) ∧
      (cmd = 4 → ∃ t res, exec .trainSave s = .next t ∧ t = { s with ldg := t.ldg } ∧ ends t .ok res ∧
        (bitOf a 0 = true → bitOf a 1 = false → bitOf a 2 = false → res = ((List.finRange 24).filter (fun p => s.portState p.val = 5)).length) ∧
        (∀ p : Fin 24, (bitOf a 0 = true ∧ s.portState p.val = 5 → ∃ z ∈ t.ldg.flash.fabTrain, z.1 = p ∧
            z.2.1.toNat = s.fld (fFAB_PORT_PEER_DEV p.val) ∧ z.2.2.toNat = s.fld (fFAB_PORT_PEER_PORT p.val)) ∧
          (¬ (bitOf a 0 = true ∧ s.portState p.val = 5) → ∀ z, z.1 = p → (z ∈ t.ldg.flash.fabTrain ↔ z ∈ f.fabTrain))) ∧
        (∀ c : Fin 2, c ∈ t.ldg.flash.cxlTrain ↔ c ∈ f.cxlTrain ∨ bitOf a 1 = true ∧ s.fld (fCXM_PORT_STATUS_STATE c.val) = 3) ∧
        ∀ c : Fin 16, c ∈ t.ldg.flash.ethTrain ↔ c ∈ f.ethTrain ∨ bitOf a 2 = true ∧ s.flag (fETH_LPORT_STATUS_LINK c.val) = true) ∧
      (cmd = 5 → n % 65536 = 2 ^ l.val →
        (s.region? a 64 = none → ∃ t, exec .netCfg s = .next t ∧ only t .invalidField) ∧
        (s.accessSt a 64 = .ok → ∃ t g, exec .netCfg s = .next t ∧ t = { s with ldg := t.ldg, eth := t.eth } ∧ ends t .ok 0 ∧
          alook l.val t.eth.gateways = some g ∧ (∀ j, j ≠ l.val → alook j t.eth.gateways = alook j s.eth.gateways) ∧
          let b := s.bytesHeld a 64
          g.v4 = b.take 4 ∧ g.v4Len = fieldAt b 4 1 ∧ g.v6 = (b.drop 0x10).take 16 ∧ g.v6Len = fieldAt b 0x20 1)) ∧
      (cmd = 6 →
        (n = 0 ∨ s.region? a n = none ∨ s.region? r 2048 = none → ∃ t, exec (.distSend full) s = .next t ∧ only t .invalidField) ∧
        (1 ≤ n → n ≤ 4096 → s.accessSt a n = .ok → s.accessSt r 2048 = .ok → free r 2048 → ∃ t, exec (.distSend full) s = .next t ∧
          t = { s with ldg := t.ldg, mem := t.mem, out := t.out } ∧ ends t .ok full.eraseDups.length ∧
          (∀ q ∈ s.sch.kids, s.portV3 q.val = true → Out.dist q.val 0 (s.bytesHeld a n) ∈ t.out) ∧ s.sameBytesBut t [(r, 2048)] ∧
          ∀ d : BitVec 14, bitOf (t.readN r 2048) d.toNat = true ↔ d ∈ full)) ∧
      (cmd = 7 →
        (n = 0 → ∃ t, exec .distRecv s = .next t ∧ t = { s with ldg := t.ldg } ∧ ends t .ok 0 ∧ t.ldg.dist = none) ∧
        (n ≠ 0 → a % 64 ≠ 0 ∨ s.region? a n ≠ some .gddr → ∃ t, exec .distRecv s = .next t ∧ only t .invalidField) ∧
        (n ≠ 0 → a % 64 = 0 → s.region? a n = some .gddr → ∃ t, exec .distRecv s = .next t ∧ t = { s with ldg := t.ldg } ∧ ends t .ok 0 ∧
          t.ldg.dist = some { base := a, len := n, img := none, got := [] }))) ∧
    (∀ c ∈ [(1, Instr.fwStage), (2, .fwActivate), (3, .fwCancel), (4, .trainSave), (5, .netCfg), (6, .distSend full), (7, .distRecv)],
      cmd ≠ c.1 ∨ e.result ≠ none → exec c.2 s = .next s) ∧
    (s.portV3 x.port.val = false ∨ s.flag fSCH_TS_CTRL_ROOT = true ∨ s.fld fSCH_TS_CTRL_PARENT_PORT ≠ x.port.val →
      exec (.distSegmentReceive x) s = .next s) ∧
    (s.portV3 x.port.val = true → s.flag fSCH_TS_CTRL_ROOT = false → s.fld fSCH_TS_CTRL_PARENT_PORT = x.port.val → ∃ t,
      exec (.distSegmentReceive x) s = .next t ∧ t.pavs = s.pavs ∧ t.sch = s.sch ∧
      (crc32c x.data ≠ x.crc → t.mem = s.mem ∧ (x.last = false → t.out = s.out)) ∧
      (crc32c x.data = x.crc → ∀ q ∈ s.sch.kids, s.portV3 q.val = true → Out.dist q.val x.index x.data ∈ t.out) ∧
      (s.ldg.dist = none → t.mem = s.mem ∧ (x.last = true → t.out.head? = some (.distReport x.port.val false))) ∧
      ∀ d, s.ldg.dist = some d → d.img = some (x.total, x.digest) → crc32c x.data = x.crc → x.total ≤ d.len →
        4096 * x.index + x.data.length ≤ x.total → free (d.base + 4096 * x.index) x.data.length → 1 ≤ x.total →
        s.wrote t (d.base + 4096 * x.index) x.data ∧
        (x.last = false → d.got = [] → t.ldg.dist = some { d with got := [x.index] }) ∧
        (x.last = true → d.got = [] → x.index = 0 → x.data.length = x.total → x.total ≤ 4096 →
          t.out.head? = some (.distReport x.port.val (decide (sha256 x.data = x.digest))) ∧
          t.ldg.dist = some { d with got := [], img := if sha256 x.data = x.digest then none else d.img })) ∧
    (e.result = none → exec .emuCmdDone s = .next s) ∧
    (∀ st detail res, e.result = some (st, detail, res) → detail < 65536 → res < 2 ^ 64 → e.block.length = 64 → ∃ t, exec .emuCmdDone s = .next t ∧
      t.ldg.emu = none ∧ t.flag fEMU_STATUS_RUNNING = false ∧ t.fld fEMU_STATUS_LAST_CMD = cmd ∧ t.fld fEMU_STATUS_LAST_STATUS = statusCode st ∧
      t.pavs = s.pavs ∧ s.logged t 0x0502 blkEMU 0 st detail 0 cmd ∧
      (s.fld fEMU_STATUS_FW_STATE = 1 → t.fld fEMU_STATUS_FW_STATE = 2 ∧
        ((flashDir f).seq.toNat + 1 < 2 ^ 32 → dirState (flashDir t.ldg.flash) k = 1)) ∧
      (s.fld fEMU_STATUS_FW_STATE ≠ 1 → t.fld fEMU_STATUS_FW_STATE = s.fld fEMU_STATUS_FW_STATE ∧ t.ldg.flash = f) ∧
      (s.cq? 0 (s.part 0).evq = none → free e.addr 64 → s.accessSt e.addr 64 = .ok →
        (∀ b, b < e.addr + 2 ∨ e.addr + 16 ≤ b → smGet memDefault t.mem b = smGet memDefault s.mem b) ∧
        t.readN (e.addr + 2) 2 = statusCode st ∧ t.readN (e.addr + 4) 2 = detail ∧ t.readN (e.addr + 8) 8 = res))

/-- A pending activation that falls due makes the staged set active and restarts the power processor first; in an emergency it
becomes DEFERRED with its event, and takes place once the emergency has been clear for 5 s. A watchdog, a double fault or a
memory error of a running processor restarts it, with its cause, its count, its controller's delivery disabled, and the
effects of its row; the third within 1 s gives a warm reset with cause LODGE. When a restart ends the processor is RUNNING
with its event; in an activation the next one restarts, or the previous set is taken where a part fails. An input of an
event source sets RAW and, by its SENSE, PENDING; the lowest enabled pending source is delivered unless delivery is disabled
or masked; a sleeping core wakes whatever these say. What it states beyond the rules is the choice of the model: log entries
136 to 138. [15_bringup_and_firmware.md: event controllers (R430 to R434), activation (R436 to R438), restarts (R439), LDG
registers (R440); 01_node_architecture.md: LODGE (R15); 14_cipher_and_trust.md: R396, R411] -/
def Obligations.LodgeProcessors : Prop :=
  ∀ (s : State) (c : Lodge) (n : Fin 512) (v : BitVec 32) (level : Bool),
    let num (c : Lodge) : Nat := match c with | .mgmt => 0 | .power => 1 | .sec => 2
    let st (u : State) (c : Lodge) : Nat := match c with | .mgmt => u.fld fLDG_STATE_MGT | .power => u.fld fLDG_STATE_PWR | .sec => u.fld fLDG_STATE_SEC
    let fw := s.fld fEMU_STATUS_FW_STATE
    let k := s.stageSet
    let restarting (u t : State) (c : Lodge) (cause : Nat) : Prop := st t c = 3 ∧ t.fld (fLDG_CAUSE_CAUSE (num c)) = cause ∧
      t.fld (fLDG_RESTARTS_COUNT (num c)) = min (u.fld (fLDG_RESTARTS_COUNT (num c)) + 1) (2 ^ 32 - 1) ∧ t.flag fLDG_ERR_RESTART = true ∧
      t.flag (fLDG_EV_CTRL_DELIVER_DIS (num c)) = true ∧ t.flag (fLDG_EV_CTRL_CORE_MASK (num c)) = false
    let activates (t : State) : Prop := t.fld fEMU_STATUS_FW_STATE = 0 ∧ restarting s t .power 4 ∧ t.flag fPWR_STATE_GOV = true ∧ t.pavs = s.pavs ∧
      t.ldg.act = some { set := k, prev := otherSet k, left := [.power, .mgmt, .sec], fell := false } ∧
      ((flashDir s.ldg.flash).seq.toNat + 1 < 2 ^ 32 → (flashDir t.ldg.flash).active = k ∧ (flashDir t.ldg.flash).stA = 2 ∧ (flashDir t.ldg.flash).stB = 2)
    (fw ≠ 3 ∨ s.ldg.act ≠ none ∨ (s.running = true ∧ s.ldg.fwDue = false) → exec .fwActivation s = .next s) ∧
    (fw = 3 → s.ldg.act = none → s.running = false ∨ s.ldg.fwDue = true → ∃ t, exec .fwActivation s = .next t ∧
      (s.flag fPWR_STATE_EMERG = false → activates t ∧ t.now = s.now) ∧
      (s.flag fPWR_STATE_EMERG = true → t.fld fEMU_STATUS_FW_STATE = 4 ∧ t.ldg.fwDue = false ∧ t.ldg.flash = s.ldg.flash ∧
        (s.ldg.emu = none → s.logged t 0x0504 blkLDG 0 .deferredEmergency 0 0 k.val) ∧
        ∀ e x, s.ldg.emu = some e → emuCmd e.block = 2 → e.result = some x → t.log = s.log ∧
          t.ldg.emu = some { e with result := some (.deferredEmergency, 0, 0) })) ∧
    (fw = 4 → s.flag fPWR_STATE_EMERG = false → s.ldg.act = none → ∀ u, s.pwr.calm = some u →
      (s.running = false → ∃ t, exec .fwDeferredActivate s = .next t ∧ activates t ∧ t.now = max s.now (u + 4000000000)) ∧
      (s.running = true → s.ldg.fwDue = true → ∃ t, exec .fwDeferredActivate s = .next t ∧ activates t ∧ t.now = s.now) ∧
      (s.running = true → s.ldg.fwDue = false → exec .fwDeferredActivate s = .next s)) ∧
    (fw ≠ 4 ∨ s.flag fPWR_STATE_EMERG = true ∨ s.pwr.calm = none → exec .fwDeferredActivate s = .next s) ∧
    (∀ y ∈ [(1, Instr.lodgeWatchdogExpire c), (2, .lodgeFault c false), (3, .lodgeFault c true)],
      let near := (s.ldg.restarts.filter (fun r => r.1 = c ∧ s.now < r.2 + 800000000)).length
      (st s c ≠ 2 → exec y.2 s = .next s) ∧
      (st s c = 2 → 2 ≤ near → ∃ t, exec y.2 s = .next t ∧ warmStart s t 0x40) ∧
      (st s c = 2 → near ≤ 1 → ∃ t, exec y.2 s = .next t ∧ restarting s t c y.1 ∧ t.pavs = s.pavs ∧ t.scratch = s.scratch ∧ t.now = s.now ∧
        (c, s.now) ∈ t.ldg.restarts ∧ t.cip.keys = s.cip.keys ∧ t.ldg.act = s.ldg.act ∧
        (c = .mgmt → (∀ e, s.ldg.emu = some e → e.result = none → t.ldg.emu = some { e with result := some (.notReady, 0, 0) }) ∧
          (s.fld fSCH_STATE_IMG = 1 → t.fld fSCH_STATE_IMG = 0 ∧ (∀ d ∈ t.ldg.loads, d.svc = true)) ∧
          (∀ d, d ∈ s.ldg.loads → d.svc = true → t.fld fCXM_SVC_MASK0_BITS = 0 ∧ t.fld fCXM_SVC_MASK1_BITS = 0) ∧
          (fw = 1 → t.fld fEMU_STATUS_FW_STATE = 0) ∧ t.fld fCIP_LOCK_OWNER ≠ 2) ∧
        (c = .power → t.flag fPWR_STATE_GOV = true ∧ t.pwr = s.pwr) ∧
        (c = .sec → t.fld fCIP_LOCK_OWNER ≠ 1 ∧ ∀ g : Fin 2, t.hif.spdm[g] =
            { s.hif.spdm[g] with sessions := [], aborted := s.hif.spdm[g].aborted || s.hif.spdm[g].obj ≠ [], obj := [] }))) ∧
    (st s c ≠ 3 → exec (.lodgeRestartDone c) s = .next s) ∧
    (st s c = 3 →
      ((∀ a, s.ldg.act = some a → a.left.head? ≠ some c) → ∃ t, exec (.lodgeRestartDone c) s = .next t ∧ st t c = 2 ∧ t.ldg = s.ldg ∧
        s.logged t 0x0501 blkLDG 0 .notReady (s.fld (fLDG_CAUSE_CAUSE (num c))) 0 (num c) ∧ (c = .power → t.flag fPWR_STATE_GOV = false)) ∧
      ∀ a rest, s.ldg.act = some a → a.left = c :: rest →
        let ok : Prop := ∀ m ∈ lodgeParts c, s.fwOk a.set m = true
        (ok → rest = [] → ∃ t, exec (.lodgeRestartDone c) s = .next t ∧ st t c = 2 ∧ t.ldg.act = none ∧ t.fld fEMU_STATUS_RUN_SET = a.set.val ∧
          ∃ e, alook ((s.fld fLOG_WR_COUNT + 1) % 65536) t.log = some e ∧ e.kind = 0x0503 ∧ e.arg1 = BitVec.ofNat 64 a.set.val ∧
            e.st = (if a.fell then .authFail else .ok)) ∧
        (∀ d more, ok → rest = d :: more → d ≠ c → ∃ t, exec (.lodgeRestartDone c) s = .next t ∧ st t c = 2 ∧ restarting s t d 4 ∧
          t.ldg.act = some { a with left := d :: more }) ∧
        (¬ ok → a.fell = true → ∃ t, exec (.lodgeRestartDone c) s = .next t ∧ st t c = 4 ∧ t.ldg = { s.ldg with act := none }) ∧
        (¬ ok → a.fell = false → ∃ t, exec (.lodgeRestartDone c) s = .next t ∧ restarting s t .power 4 ∧
          t.ldg.act = some { set := a.prev, prev := a.prev, left := [.power, .mgmt, .sec], fell := true } ∧
          ((flashDir s.ldg.flash).seq.toNat + 1 < 2 ^ 32 → (flashDir t.ldg.flash).active = a.prev ∧ dirState (flashDir t.ldg.flash) a.set = 0))) ∧
    (260 ≤ n.val → exec (.eventSourceInput n level) s = .next s) ∧
    (n.val < 260 → ∃ t, exec (.eventSourceInput n level) s = .next t ∧ t = { s with regs := t.regs } ∧
      s.sameRegsBut t [rLDG_EV_SRC 0 n.val, rLDG_EV_SRC 1 n.val, rLDG_EV_SRC 2 n.val] ∧ ∀ j, j < 3 →
        let was := s.flag (fLDG_EV_SRC_RAW j n.val)
        let sense := s.fld (fLDG_EV_SRC_SENSE j n.val)
        t.flag (fLDG_EV_SRC_RAW j n.val) = level ∧ t.fld (fLDG_EV_SRC_SENSE j n.val) = sense ∧
        t.flag (fLDG_EV_SRC_ENABLE j n.val) = s.flag (fLDG_EV_SRC_ENABLE j n.val) ∧
        t.flag (fLDG_EV_SRC_PENDING j n.val) = (if sense = 0 then level
          else if (sense ≠ 2 ∧ level = true ∧ was = false) ∨ (sense ≠ 1 ∧ level = false ∧ was = true) then true
          else s.flag (fLDG_EV_SRC_PENDING j n.val))) ∧
    (let due (j : Nat) : Prop := s.flag (fLDG_EV_SRC_ENABLE (num c) j) = true ∧ s.flag (fLDG_EV_SRC_PENDING (num c) j) = true
      let shut : Prop := s.flag (fLDG_EV_CTRL_DELIVER_DIS (num c)) = true ∨ s.flag (fLDG_EV_CTRL_CORE_MASK (num c)) = true
      (shut ∨ (∀ j : Fin 512, ¬ due j.val) → exec (.eventDeliver c) s = .next s) ∧
      (¬ shut → due n.val → (∀ j, j < n.val → ¬ due j) → exec (.eventDeliver c) s = .next { s with out := .evDeliver (num c) n.val :: s.out }) ∧
      (due n.val → exec (.coreWake c) s = .next { s with out := .coreWake (num c) :: s.out }) ∧
      ((∀ j : Fin 512, ¬ due j.val) → exec (.coreWake c) s = .next s)) ∧
    ∃ t, exec (.ldgEvSrcWrite c n v) s = .next t ∧ t = { s with regs := t.regs } ∧ s.sameRegsBut t [rLDG_EV_SRC (num c) n.val] ∧
      t.fld (fLDG_EV_SRC_SENSE (num c) n.val) = v.toNat % 4 ∧ t.flag (fLDG_EV_SRC_ENABLE (num c) n.val) = bitOf v.toNat 2 ∧
      t.flag (fLDG_EV_SRC_RAW (num c) n.val) = s.flag (fLDG_EV_SRC_RAW (num c) n.val) ∧
      t.flag (fLDG_EV_SRC_PENDING (num c) n.val) = (if v.toNat % 4 = 0 then s.flag (fLDG_EV_SRC_RAW (num c) n.val)
        else if s.fld (fLDG_EV_SRC_SENSE (num c) n.val) ≠ v.toNat % 4 ∨ bitOf v.toNat 4 = true then false
        else s.flag (fLDG_EV_SRC_PENDING (num c) n.val))

/-- While the power processor runs and has read every sensor, VOUT_COMMAND moves one step of 5 mV a millisecond towards the
lowest voltage from 650 to 835 mV at which every terrace has margin; before a rising boundary it takes three more steps, at
5, 4 and 3 ms before it, or a step a millisecond before a rising replay, and gives them back 20 ms after. A scan that reads
115 °C or more trips the device: it is held as after power-down with therm_trip_n low. One that reads 105 °C, or 100 °C
under the governor, engages the clamp, which is counted, makes its condition and its entry, and faults the running epoch;
after 10 ms below the release threshold the clamp is released. TJ is the largest reading. What it states beyond the rules is
the choice of the model: log entries 139, 144, 145. [16_power_and_cooling.md: core voltage (R442), sensors (R443), clamp and
trip (R444, R445), conditions (R452, R453), governor (R454)] -/
def Obligations.CoreVoltageAndClamp : Prop :=
  ∀ (s : State) (low : List Nat) (r : List Int) (b u : Nat),
    let on : Prop := s.fld fLDG_STATE_PWR = 2 ∧ ∀ k ∈ [2, 3, 4, 5, 7], k ∈ s.pwr.seen
    let gov := s.flag fPWR_STATE_GOV
    let at_ (k : Fin 8) (n : Nat) : Nat := max s.now (s.pwr.ran[k] + n)
    let steps (t : State) (mv : Nat) : Prop := t.pwr.vcmd = mv ∧ t.pwr.vstep = t.now ∧ t.out = .vout mv :: s.out ∧ t.regs = s.regs ∧
      t = { s with now := t.now, sch := t.sch, pwr := t.pwr, out := t.out }
    (¬ on → ∀ c ∈ [Instr.voltageLoop low, .voutBoostStep], exec c s = .next s) ∧
    (on → low ≠ [] → ∃ t, exec (.voltageLoop low) s = .next t ∧ t.now = at_ 0 800000 ∧ t.pwr.boost = s.pwr.boost ∧
      let goal := max 650 (min 835 ((low.foldl max 0 + 4) / 5 * 5))
      let base := s.pwr.vcmd - 5 * s.pwr.boost
      (s.pwr.vstep + 800000 ≤ t.now → base < goal → steps t (s.pwr.vcmd + 5)) ∧
      (s.pwr.vstep + 800000 ≤ t.now → goal < base → steps t (s.pwr.vcmd - 5)) ∧
      (t.now < s.pwr.vstep + 800000 ∨ base = goal → t.pwr.vcmd = s.pwr.vcmd ∧ t.out = s.out)) ∧
    (on → 3 ≤ s.pwr.boost → exec .voutBoostStep s = .next s) ∧
    (on → s.pwr.boost < 3 → s.sch.trs = [] → risingBoundary s.sch.tb.toNat s.epochsFrom = some b → b < 2 ^ 64 → ∃ t,
      exec .voutBoostStep s = .next t ∧ steps t (min 850 (s.pwr.vcmd + 5)) ∧ t.pwr.boost = s.pwr.boost + 1 ∧
      s.pwr.vstep + 800000 ≤ t.now ∧ (∃ e, t.pwr.boostTill = some e ∧ t.now + 16000000 ≤ e) ∧
      (s.sch.hold = 0 → s.pwr.vstep + 800000 ≤ s.now → t.sch.tb.toNat = max s.sch.tb.toNat (b - (5 - s.pwr.boost) * 800000))) ∧
    (on → s.pwr.boost < 3 → s.risingReplay = some b → ∃ t, exec .voutBoostStep s = .next t ∧ steps t (min 850 (s.pwr.vcmd + 5)) ∧
      t.pwr.boost = s.pwr.boost + 1 ∧ t.now = max s.now (s.pwr.vstep + 800000)) ∧
    (on → s.risingReplay = none → risingBoundary s.sch.tb.toNat s.epochsFrom = none → exec .voutBoostStep s = .next s) ∧
    (s.pwr.boostTill = none → exec .voutBoostRelease s = .next s) ∧
    (on → s.pwr.boostTill = some u → 1 ≤ s.pwr.boost → ∃ t, exec .voutBoostRelease s = .next t ∧ steps t (s.pwr.vcmd - 5) ∧
      t.pwr.boost = s.pwr.boost - 1 ∧ t.now = max s.now (max u (s.pwr.vstep + 800000))) ∧
    (s.ldg.tripped = true → exec (.sensorScan r) s = .next s) ∧
    (s.ldg.tripped = false →
      let hot := if gov then 1600 else 1680
      let cold := if gov then 1552 else 1632
      let cool (now : Nat) : Option Nat := if r.all (fun x => decide (x < cold)) then some (s.pwr.cool.getD now) else none
      ((∃ x ∈ r, 1840 ≤ x) → ∃ t, exec (.sensorScan r) s = .next t ∧ t.ldg = { Ldg.reset with flash := s.ldg.flash, tripped := true } ∧
        t.out = .pin "therm_trip_n" false :: s.out ∧ t.sch = Sch.reset ∧ t.que = Que.reset ∧ t.tru = Tru.reset ∧ t.log = [] ∧
        t.pavs = Vector.replicate 144 Pav.reset) ∧
      (r ≠ [] → (∀ x ∈ r, x < 1840) → (∀ x ∈ r, x < hot) ∨ s.flag fPWR_STATE_CLAMP_ACT = true → ∃ t, exec (.sensorScan r) s = .next t ∧
        t = { s with now := at_ 1 8000, sch := t.sch, pwr := t.pwr } ∧ t.pwr.sensors = r ∧ t.pwr.cool = cool t.now) ∧
      ((∀ x ∈ r, x < 1840) → (∃ x ∈ r, hot ≤ x) → s.flag fPWR_STATE_CLAMP_ACT = false → ∃ t, exec (.sensorScan r) s = .next t ∧
        t.flag fPWR_STATE_CLAMP_ACT = true ∧ t.fld fPWR_CLAMPS_COUNT = min (s.fld fPWR_CLAMPS_COUNT + 1) (2 ^ 32 - 1) ∧ t.pwr.sensors = r ∧
        bitOf (t.fld fPWR_STATE_COND) 1 = true ∧ (bitOf (s.fld fPWR_STATE_COND) 1 = false → t.flag fPWR_STATE_EMERG = true) ∧ t.ldg = s.ldg ∧
        (s.running = true → s.sch.recorded = false → t.fld fSCH_FAULT_CAUSE = 7) ∧ t.tru = s.tru ∧
        ∃ e x, alook (s.fld fLOG_WR_COUNT % 65536) t.log = some e ∧ x ∈ r ∧ (∀ y ∈ r, y ≤ x) ∧ e.kind = 0x0603 ∧
          e.st = (if s.running then .epochFault else .ok) ∧ e.arg1 = BitVec.ofNat 64 (twosOf 16 x))) ∧
    (s.pwr.cool = none ∨ s.flag fPWR_STATE_CLAMP_ACT = false → exec .clampRelease s = .next s) ∧
    (s.pwr.cool = some u → s.flag fPWR_STATE_CLAMP_ACT = true → ∃ t, exec .clampRelease s = .next t ∧ t.now = max s.now (u + 8000000) ∧
      t.flag fPWR_STATE_CLAMP_ACT = false ∧ bitOf (t.fld fPWR_STATE_COND) 1 = false ∧ t.ldg = s.ldg ∧ t.pavs = s.pavs) ∧
    (s.fld fLDG_STATE_PWR ≠ 2 → exec .tjSample s = .next s) ∧
    (s.fld fLDG_STATE_PWR = 2 → s.pwr.sensors ≠ [] → ∃ t x, exec .tjSample s = .next t ∧ t = { s with now := at_ 2 800000, sch := t.sch, pwr := t.pwr, regs := t.regs } ∧
      x ∈ s.pwr.sensors ∧ (∀ y ∈ s.pwr.sensors, y ≤ x) ∧ t.fld fPWR_TJ_TJ = twosOf 16 x ∧ s.sameRegsBut t [rPWR_TJ] ∧ 2 ∈ t.pwr.seen)

/-- While the power processor runs, each loop runs a period after its last run. Feedforward takes the largest PUMP_PCT within
LEAD_PUMP and the smallest pace level for which the plan of the buffer holds, 15 where none does; CLASS_OVER is set where a
class exceeds LIMIT + EB_PMAX. The junction loop's output is the ceiling of u, from 0 to 15, the coolant loop's trim u from
−40 to 40 %. Conditions enter and clear by their thresholds. Once every sensor has been read, a condition that forces the
pump gives 100 %, manual duty MAN_PCT, and a level above the request is requested at once, all others one level a second
where the plan allows. A failed read of a PMBus device sets PMBUS. Without a buffer the converter idles. What it states
beyond the rules is the choice of the model: log entries 139 to 143, 146 to 148. [16_power_and_cooling.md: feedforward (R446
to R448), converter (R449), pace (R450), loops (R451), conditions (R452), devices (R456)] -/
def Obligations.PowerLoops : Prop :=
  ∀ (s : State) (x : CoolIn) (y : NodeIn) (tach flow n : Nat),
    let on : Prop := s.fld fLDG_STATE_PWR = 2
    let at_ (k : Fin 8) (m : Nat) : Nat := max s.now (s.pwr.ran[k] + m)
    let c (u : State) (k : Nat) : Prop := bitOf (u.fld fPWR_STATE_COND) k = true
    let sensed (u : State) : Prop := ∀ k ∈ [2, 3, 4, 5, 7], k ∈ u.pwr.seen
    let pumps (t : State) : Prop := sensed t →
      ((c t 2 ∨ c t 3 ∨ c t 4 ∨ c t 5) → t.fld fPWR_PUMP_DUTY = 100) ∧
      (¬ (c t 2 ∨ c t 3 ∨ c t 4 ∨ c t 5) → s.flag fPWR_CFG_PUMP_MAN = true → t.fld fPWR_PUMP_DUTY = s.fld fPWR_PUMP_MAN_PCT)
    let paces (t : State) : Prop := sensed t → t.pwr.paceTj ≤ 15 → t.pwr.energy ≤ 15 →
      (s.flag fPWR_CFG_PACE_EN = false → t.fld fPWR_STATE_REQ = 0) ∧
      (s.flag fPWR_CFG_PACE_EN = true → t.pwr.paceTj ≤ t.fld fPWR_STATE_REQ ∧ t.pwr.energy ≤ t.fld fPWR_STATE_REQ ∧
        ((c t 0 ∨ c t 2 ∨ c t 5) → s.fld fPWR_TJ_CFG_PACE_HOT ≤ t.fld fPWR_STATE_REQ) ∧
        ((c t 1 ∨ c t 3 ∨ c t 4 ∨ c t 6 ∨ c t 7) → t.fld fPWR_STATE_REQ = 15))
    let runs (i : Instr) (k : Fin 8) (m : Nat) (P : State → Prop) : Prop := ∃ t, exec i s = .next t ∧ t.now = at_ k m ∧ k.val ∈ t.pwr.seen ∧
      t.ldg = s.ldg ∧ t.tru = s.tru ∧ t.cip = s.cip ∧ paces t ∧ P t
    (¬ on → ∀ i ∈ [Instr.feedforwardEval, .junctionLoop, .coolantLoop x, .nodePowerLoop y, .paceLower, .tachFlowCount tach flow],
      exec i s = .next s) ∧
    (on → runs .feedforwardEval 6 80000000 (fun t => pumps t ∧
      let u := s.loopAt 6 80000000
      let near (k : Coming) : Prop := k ∈ u.epochsFrom ∧ k.opens ≤ u.sch.tb.toNat + 800000000 * s.fld fPWR_LEAD_LEAD_PUMP
      (s.flag fPWR_CFG_FF_EN = false → t.pwr.ffDuty = s.fld fPWR_PUMP_CFG_PUMP_MIN) ∧
      (s.flag fPWR_CFG_FF_EN = true → (∀ k, near k → s.fld (fPWR_CLASS_PUMP_PCT k.cls) ≤ t.pwr.ffDuty) ∧
        (t.pwr.ffDuty = 0 ∨ ∃ k, near k ∧ t.pwr.ffDuty = s.fld (fPWR_CLASS_PUMP_PCT k.cls))) ∧
      (s.flag fPWR_CFG_EB_EN = false ∨ s.fld fPWR_NODE_LIMIT = 0 → t.pwr.energy = 0) ∧
      (s.flag fPWR_CFG_EB_EN = true → s.fld fPWR_NODE_LIMIT ≠ 0 → t.pwr.energy ≤ 15 ∧
        (u.planHolds u.comingRecs t.pwr.energy = true ∨ t.pwr.energy = 15) ∧ ∀ p, p < t.pwr.energy → u.planHolds u.comingRecs p = false) ∧
      (∀ k ∈ u.epochsFrom, k.cls < 16 → k.cls ∉ s.pwr.over_ → s.fld fPWR_NODE_LIMIT ≠ 0 →
        s.fld fPWR_NODE_LIMIT + s.ebMax < s.fld (fPWR_CLASS_NODE_W k.cls) → t.flag fPWR_ERR_CLASS_OVER = true))) ∧
    (on → runs .junctionLoop 3 8000000 (fun t =>
      let tj := signedOf 16 (s.fld fPWR_TJ_TJ)
      let e := tj - 16 * (s.fld fPWR_TJ_CFG_TJ_TARGET : Nat)
      let u := 100 * (s.fld fPWR_TJ_GAIN_KP : Nat) * e + (s.fld fPWR_TJ_GAIN_KI : Nat) * s.pwr.iTj
      let w : Int := 16 * (s.fld fPWR_TJ_CFG_TJ_WARN : Nat)
      (s.flag fPWR_CFG_TJ_EN = false → t.pwr.paceTj = 0) ∧
      (s.flag fPWR_CFG_TJ_EN = true → t.pwr.paceTj ≤ 15 ∧ (u ≤ 409600 * (t.pwr.paceTj : Nat) ∨ t.pwr.paceTj = 15) ∧
        (t.pwr.paceTj = 0 ∨ 409600 * ((t.pwr.paceTj : Nat) - 1) < u)) ∧
      (s.fld fPWR_TJ_GAIN_KI ≠ 0 → 0 ≤ t.pwr.iTj ∧ t.pwr.iTj * (s.fld fPWR_TJ_GAIN_KI : Nat) ≤ 40960000) ∧
      (c t 0 ↔ 1600 ≤ tj ∨ c s 0 ∧ 1552 ≤ tj) ∧ (c t 9 ↔ w ≤ tj ∨ c s 9 ∧ w - 32 ≤ tj) ∧ ∀ k, k ≠ 0 → k ≠ 9 → k < 13 → (c t k ↔ c s k))) ∧
    (on → runs (.coolantLoop x) 4 80000000 (fun t => pumps t ∧
      let out := signedOf 16 (t.fld fPWR_COOL_OUTLET)
      let top : Int := 16 * (s.fld fPWR_COOL_CFG_TOUT_MAX : Nat)
      let wrn : Int := 16 * (s.fld fPWR_COOL_CFG_TOUT_WARN : Nat)
      let u := 10 * (s.fld fPWR_COOL_GAIN_KP : Nat) * (out - 16 * (s.fld fPWR_COOL_CFG_TOUT_TARGET : Nat)) + (s.fld fPWR_COOL_GAIN_KI : Nat) * s.pwr.iCool
      (∀ z, x.inlet = some z → t.fld fPWR_COOL_INLET = twosOf 16 z) ∧ (∀ z, x.outlet = some z → t.fld fPWR_COOL_OUTLET = twosOf 16 z) ∧
      (x.inlet = none → t.fld fPWR_COOL_INLET = s.fld fPWR_COOL_INLET ∧ t.pwr.fails[0] = s.pwr.fails[0] + 1) ∧
      (x.outlet = none → t.fld fPWR_COOL_OUTLET = s.fld fPWR_COOL_OUTLET ∧ t.pwr.fails[1] = s.pwr.fails[1] + 1) ∧
      (c t 5 ↔ (3 ≤ t.pwr.fails[0] ∨ 3 ≤ t.pwr.fails[1] ∨ 3 ≤ t.pwr.fails[2]) ∨
        c s 5 ∧ ¬ (t.pwr.fails[0] = 0 ∧ t.pwr.fails[1] = 0 ∧ t.pwr.fails[2] = 0)) ∧
      (c t 2 ↔ top ≤ out ∨ c s 2 ∧ top - 32 ≤ out) ∧ (c t 10 ↔ wrn ≤ out ∨ c s 10 ∧ wrn - 32 ≤ out) ∧
      (s.flag fPWR_CFG_EB_EN = false → (c t 8 ↔ c s 8) ∧ t.fld fPWR_EB_STATUS_SOC = s.fld fPWR_EB_STATUS_SOC) ∧
      (s.flag fPWR_CFG_EB_EN = true → (∀ soc bad, x.eb = some (soc, bad) → (c t 8 ↔ bad = true) ∧ t.fld fPWR_EB_STATUS_SOC = soc % 256) ∧
        (x.eb = none → t.flag fPWR_ERR_PMBUS = true ∧ (c t 8 ↔ c s 8 ∨ 2 ≤ s.pwr.fails[4]))) ∧
      (s.fld fPWR_NODE_LIMIT ≠ 0 → (c t 11 ↔ t.soc < s.fld fPWR_EB_CFG_SOC_WARN ∨ c s 11 ∧ t.soc < s.fld fPWR_EB_CFG_SOC_WARN + 2)) ∧
      t.pwr.trim = (if s.flag fPWR_CFG_COOL_EN then max (-1638400) (min 1638400 u) else 0))) ∧
    (on → runs (.nodePowerLoop y) 5 8000000 (fun t => pumps t ∧
      let lim := s.fld fPWR_NODE_LIMIT
      (∀ p, y.pin = some p → t.fld fPWR_NODE_P_NOW = p % 65536) ∧ (y.pin = none → t.flag fPWR_ERR_PMBUS = true ∧ (c t 7 ↔ c s 7)) ∧
      (∀ mv amps bad, y.vr = some (mv, amps, bad) → t.fld fPWR_VCORE_VOUT = mv % 65536 ∧ t.fld fPWR_VCORE_IOUT = amps % 65536 ∧ (c t 6 ↔ bad = true)) ∧
      (y.vr = none → t.flag fPWR_ERR_PMBUS = true ∧ (c t 6 ↔ c s 6 ∨ 2 ≤ s.pwr.fails[3])) ∧
      (lim = 0 → (c t 7 ↔ c s 7)) ∧
      (∀ p, y.pin = some p → p < 65536 → lim ≠ 0 →
        (lim + s.ebMax < p → ∀ a, s.pwr.overSince = some a → a + 80000000 ≤ t.now → c t 7) ∧
        (lim < p → s.soc ≤ s.fld fPWR_EB_CFG_SOC_MIN → ∀ a, s.pwr.minSince = some a → a + 80000000 ≤ t.now → c t 7) ∧
        (p ≤ lim → (∀ a, s.pwr.underSince = some a → a + 800000000 ≤ t.now → ¬ c t 7) ∧ (s.pwr.underSince = none → (c t 7 ↔ c s 7)))) ∧
      (sensed t → y.pin ≠ none → t.pwr.setpoint ≤ s.fld fPWR_EB_POWER_EB_PMAX ∧
        (s.flag fPWR_CFG_EB_EN = false → t.pwr.setpoint = 0 ∧ t.fld fPWR_EB_STATUS_MODE = 0)))) ∧
    (on → sensed s → s.flag fPWR_CFG_PACE_EN = true → s.paceWant < s.fld fPWR_STATE_REQ → ∃ t, exec .paceLower s = .next t ∧
      t.now = max s.now (s.pwr.lowered + 800000000) ∧ t.ldg = s.ldg ∧ t.pavs = s.pavs ∧
      let u := s.atLeast (s.pwr.lowered + 800000000)
      let ok : Prop := s.flag fPWR_CFG_EB_EN = false ∨ s.fld fPWR_NODE_LIMIT = 0 ∨ u.planHolds u.comingRecs (s.fld fPWR_STATE_REQ - 1) = true
      (ok → t.fld fPWR_STATE_REQ = s.fld fPWR_STATE_REQ - 1 ∧ t.pwr.lowered = t.now ∧ t.sch.pacePwr = s.fld fPWR_STATE_REQ - 1 ∧
        t.fld fSCH_PACE_OWN = max (s.fld fSCH_PACE_REQ_LEVEL) (s.fld fPWR_STATE_REQ - 1)) ∧
      (¬ ok → t.regs = s.regs ∧ t.pwr = s.pwr)) ∧
    (s.flag fPWR_CFG_PACE_EN = false ∨ s.fld fPWR_STATE_REQ ≤ s.paceWant → exec .paceLower s = .next s) ∧
    (on → runs (.tachFlowCount tach flow) 7 800000000 (fun t => pumps t ∧
      let rpm := min 65535 (tach * 60 / s.fld fPWR_PUMP_CFG_TACH_PPR)
      let q := min 65535 (flow * 600 / s.fld fPWR_FLOW_CFG_K_FLOW)
      let low : Prop := rpm < s.fld fPWR_PUMP_CFG_TACH_MIN
      t.fld fPWR_COOL_PUMP_RPM = rpm ∧ t.fld fPWR_COOL_FLOW = q ∧ (c t 3 ↔ q < s.fld fPWR_FLOW_CFG_FLOW_MIN) ∧
      (c t 12 ↔ q < s.fld fPWR_FLOW_CFG_FLOW_WARN) ∧
      (c t 4 ↔ (low ∧ s.fld fPWR_PUMP_CFG_PUMP_MIN ≤ s.fld fPWR_PUMP_DUTY ∧ 1 ≤ s.pwr.tachLow) ∨ c s 4 ∧ (low ∨ s.pwr.tachOk = 0))))

/-- While the management processor runs, an enabled binding, VDM on the control function only, answers each PLDM request: types
0 and 2, the terminus ID, the event receiver, a reading of each sensor from its PWR register, a condition's state; anything
else is unsupported. A log read of 1 to 8 entries answers LOG_WR and the entries, 32 bytes each; a start of 65,536 or more,
or another count, is answered INVALID_FIELD. On a binding that is not enabled, or while the processor does not run, nothing
is answered. What it states beyond the rules is the choice of the model: log entries 149, 150. [17_errors_and_logging.md:
MCTP (R472), PLDM (R473), log reads (R474), trouble log (R468)] -/
def Obligations.Management : Prop :=
  ∀ (s : State) (m : MctpMsg) (start count : Nat),
    let up : Prop := s.fld fLDG_STATE_MGT = 2 ∧ (match m.port with
      | .smbus => s.flag fLOG_MCTP_SMB_EN = true
      | .i3c => s.flag fLOG_MCTP_I3C_EN = true
      | .vdm fn => s.flag fLOG_MCTP_VDM_EN = true ∧ fn = s.ctrlFn)
    let tells (r : PldmRsp) : Prop := exec (.mctpRequest m) s = .next { s with out := .pldm r :: s.out }
    (¬ up → exec (.mctpRequest m) s = .next s ∧ exec (.logReadVdm m.port start count) s = .next s) ∧
    (up →
      (m.req = .getTypes → tells (.types [0, 2])) ∧ (m.req = .getTid → tells (.tid s.ldg.tid)) ∧ (m.req = .other → tells .unsupported) ∧
      (∀ a, m.req = .setTid a → ∃ t, exec (.mctpRequest m) s = .next t ∧ t = { s with ldg := { s.ldg with tid := a }, out := .pldm .ok :: s.out }) ∧
      (∀ a, m.req = .setEventReceiver a → ∃ t, exec (.mctpRequest m) s = .next t ∧
        t = { s with ldg := { s.ldg with receiver := a }, out := .pldm .ok :: s.out }) ∧
      (∀ e ∈ [(PldmSensor.tj, signedOf 16 (s.fld fPWR_TJ_TJ)), (.inlet, signedOf 16 (s.fld fPWR_COOL_INLET)), (.outlet, signedOf 16 (s.fld fPWR_COOL_OUTLET)),
          (.flow, (s.fld fPWR_COOL_FLOW : Nat)), (.pump, (s.fld fPWR_COOL_PUMP_RPM : Nat)), (.power, (s.fld fPWR_NODE_P_NOW : Nat)),
          (.soc, (s.fld fPWR_EB_STATUS_SOC : Nat)), (.vcore, (s.fld fPWR_VCORE_VOUT : Nat)), (.icore, (s.fld fPWR_VCORE_IOUT : Nat))],
        m.req = .reading e.1 → tells (.reading e.2)) ∧
      (∀ n, m.req = .reading (.cond n) → tells (.state (bitOf (s.fld fPWR_STATE_COND) n.val))) ∧
      (65536 ≤ start ∨ count = 0 ∨ 9 ≤ count → exec (.logReadVdm m.port start count) s =
        .next { s with out := .logRsp .invalidField (s.fld fLOG_WR_COUNT) [] :: s.out }) ∧
      (start < 65536 → 1 ≤ count → count ≤ 8 → ∃ t b, exec (.logReadVdm m.port start count) s = .next t ∧
        t = { s with out := .logRsp .ok (s.fld fLOG_WR_COUNT) b :: s.out } ∧ b.length = 32 * count ∧
        ∀ i j e, i < count → j < 32 → alook ((start + i) % 65536) s.log = some e → b.getD (32 * i + j) 0 = (logBytes e).getD j 0))

/-- A write of the wrong size is answered Unsupported Request and changes no register; one through the function that is not the
control function sets RO_WRITE; one beyond BAR0's registers does nothing; a lodge processor that is not RUNNING writes
nothing. A field takes an allowed value, a value it does not allow is ignored, with PWR_ERR.CFG_DROP in the PWR window, a
W1C field loses the bits written 1, an RO field nothing; a flag that hardware sets in the same cycle reads 1 and a counter
that it increments reads 1 after a clear. A host's write with EP set is discarded with POISON_RX. A reserve outside
populated GDDR7 is ignored. A write to a register with a command of its own has that command's effect. A table entry of a
function's own MSI-X structure takes what is written, whichever function it is. A doorbell in a partition's window of BAR2
acts on its home function alone. What it states beyond the rules is the choice of the model: log entries 11 to 16.
[00_scope.md: access codes, reserved values, sizes (R4 to R8); 10_pcie_ports.md: poisoned TLPs (R288);
09_checkpoint_sheaves.md: the reserve (R275); 10_pcie_ports.md: control function (R278), MSI-X structures (R282);
11_queues_and_partitions.md: BAR2 (R308, R309); 16_power_and_cooling.md: PWR registers (R457)] -/
def Obligations.RegisterWrites : Prop :=
  ∀ (s : State) (v : BitVec 32) (x : BitVec 64) (fn : Fin 2) (c : Lodge) (off size q : Nat) (p : Fin 65) (i : Fin 4096) (bi : BootIn)
      (rx : RegX),
    let wr (o z : Nat) (y : BitVec 64) : Host.Outcome State Fault Refusal := exec (.registerWrite (.host fn) .bar0 o z y ⟨0, false, bi⟩) s
    let y := v.setWidth 64
    (∀ w, 0x4000000 ≤ off → (rx.ep = false ∨ ∃ k, w = .lodge k) → exec (.registerWrite w .bar0 off size x rx) s = .next s) ∧
    (∀ bar, rx.ep = true → ∃ t, exec (.registerWrite (.host fn) bar off size x rx) s = .next t ∧
      t = { s with hif := t.hif, regs := t.regs, log := t.log } ∧ t.flag fHIF_ERR_POISON_RX = true ∧
      s.logged t 0x0003 blkHIF noPart .dataError 0 blkHIF 0 ∧ s.sameRegsBut t [fHIF_ERR_POISON_RX.off, rLOG_WR, rLOG_ERR]) ∧
    (off < 0x4000000 → (off < 0x780000 ∨ 0x790200 ≤ off) → sizeFits off size = false → ∃ t, wr off size x = .next t ∧
      t = { s with hif := t.hif, out := .cplUr :: s.out }) ∧
    (∀ e ∈ [(rPWR_TJ_CFG, 8), (rPWR_NODE, 4), (rSCH_STEP, 2), (rFAB_DEVNUM, 8), (rTOP_ID, 1), (rHIF_CFG, 8)], ∃ t, wr e.1 e.2 x = .next t ∧
      t.regs = s.regs ∧ t.out = .cplUr :: s.out) ∧
    (fn ≠ s.ctrlFn → off < 0x4000000 → (off < 0x780000 ∨ 0x790200 ≤ off) → off ≠ rHIF_CFG → sizeFits off size = true → ∃ t,
      wr off size x = .next t ∧ t = { s with regs := t.regs } ∧ t.flag fHIF_ERR_RO_WRITE = true ∧ s.sameRegsBut t [fHIF_ERR_RO_WRITE.off]) ∧
    (wr rHIF_CFG 4 y = exec (.hifCtrlPfWrite fn v) s) ∧
    (s.lodgeRuns c = false → exec (.registerWrite (.lodge c) .bar0 off size x rx) s = .next s) ∧
    (fn = s.ctrlFn →
      (∃ t, wr rPWR_TJ_CFG 4 y = .next t ∧ t = { s with regs := t.regs } ∧ s.sameRegsBut t [rPWR_TJ_CFG, rPWR_ERR] ∧
        t.fld fPWR_TJ_CFG_PACE_HOT = v.toNat / 2 ^ 24 % 16 ∧
        t.fld fPWR_TJ_CFG_TJ_WARN = (if 60 ≤ v.toNat / 65536 % 256 ∧ v.toNat / 65536 % 256 ≤ 99 then v.toNat / 65536 % 256 else s.fld fPWR_TJ_CFG_TJ_WARN) ∧
        t.fld fPWR_TJ_CFG_TJ_TARGET = (if 50 ≤ v.toNat / 256 % 256 ∧ v.toNat / 256 % 256 ≤ 99 then v.toNat / 256 % 256 else s.fld fPWR_TJ_CFG_TJ_TARGET) ∧
        (t.flag fPWR_ERR_CFG_DROP = true ↔ s.flag fPWR_ERR_CFG_DROP = true ∨
          ¬ (60 ≤ v.toNat / 65536 % 256 ∧ v.toNat / 65536 % 256 ≤ 99 ∧ 50 ≤ v.toNat / 256 % 256 ∧ v.toNat / 256 % 256 ≤ 99))) ∧
      (∃ t, wr rPWR_CLAMPS 4 y = .next t ∧ t = { s with regs := t.regs } ∧ s.sameRegsBut t [rPWR_CLAMPS] ∧
        ∀ k, k < 32 → (bitOf (t.fld fPWR_CLAMPS_COUNT) k = true ↔ bitOf (s.fld fPWR_CLAMPS_COUNT) k = true ∧ bitOf v.toNat k = false)) ∧
      (∀ e ∈ [(rPWR_STATE, 4), (rCIP_CORES, 4), (rLDG_STATE, 4), (rCIP_SLOT 5, 4), (rLOG_WR, 8), (rPAV_MAP 7, 4)],
        ∃ t, wr e.1 e.2 x = .next t ∧ t = { s with regs := t.regs } ∧ s.sameRegsBut t []) ∧
      (∃ t, exec (.registerWrite (.host fn) .bar0 rPWR_CLAMPS 4 0xFFFFFFFF ⟨1, false, bi⟩) s = .next t ∧ t.fld fPWR_CLAMPS_COUNT = 1 ∧
        t = { s with regs := t.regs } ∧ s.sameRegsBut t [rPWR_CLAMPS]) ∧
      (∃ t, exec (.registerWrite (.host fn) .bar0 fHIF_ERR_RO_WRITE.off 4 y ⟨BitVec.ofNat 64 (2 ^ fHIF_ERR_RO_WRITE.lo), false, bi⟩) s = .next t ∧
        t.flag fHIF_ERR_RO_WRITE = true ∧ t = { s with regs := t.regs } ∧ s.sameRegsBut t [fHIF_ERR_RO_WRITE.off]) ∧
      (∀ e ∈ [(rFAB_DEVNUM, Instr.fabDevnumWrite v), (rFAB_RT_CTRL, .fabRtCommit v), (rFAB_PORT_CTRL 11, .fabPortEnable 11 v),
          (rSCH_CTRL, .schLoad v), (rSCH_PACE_REQ, .paceReqWrite v), (rSCH_TS_CTRL, .schTsCtrlWrite v), (rPAV_RST_CTRL, .pavilionReset v),
          (rMEM_TRAIN_CTRL, .memTrainSave v), (rTOP_RST_CTRL, .swCold v bi), (rTOP_RST_CTRL, .swWarm v bi), (rCXM_PORT_CTRL 1, .cxlPortEnable 1 v), (rCXM_CREDIT 64, .cxmCreditWrite 64 v),
          (rHIF_WIN_COMMIT, .winCommit v), (rHIF_DCFG_ADDR, .dcfgRead v), (rHIF_DS_CTRL 7, .dsSplitWrite 7 v), (rHIF_SLOT_CTRL 15, .slotPowerOn 15 v),
          (rQUE_ADMIN_CTRL, .queAdminEnable v), (rCIP_LOCK, .cipAcquire (.host fn) v), (rCIP_RING_CTRL, .cipRingCtrlWrite (.host fn) v),
          (rCIP_TAIL, .cipTailWrite (.host fn) v)],
        wr e.1 4 y = exec e.2 s) ∧
      (∀ e ∈ [(rMEM_PT_BASE 3, Instr.memPtWrite 3 false x), (rMEM_PT_LEN 3, .memPtWrite 3 true x), (rTRF_SHP 4095, .shaperWrite 4095 x)],
        wr e.1 8 x = exec e.2 s) ∧
      (s.fld fCKP_STATE_PHASE ≠ 0 → ∃ t, wr rCKP_RES_BASE 8 x = .next t ∧ t = { s with regs := t.regs } ∧ t.flag fCKP_ERR_CFG_DROP = true ∧
        s.sameRegsBut t [rCKP_ERR]) ∧
      (s.fld fCKP_STATE_PHASE = 0 → x ≠ 0 → s.region? x.toNat 0x40000000 ≠ some .gddr → wr rCKP_RES_BASE 8 x = .next s) ∧
      (s.fld fSCH_STATE_IMG = 1 → ∃ t, wr rSCH_ACT_EPOCH 4 y = .next t ∧ t = { s with regs := t.regs, log := t.log } ∧
        t.reg rSCH_ACT_EPOCH = s.reg rSCH_ACT_EPOCH ∧ t.fld fSCH_STATE_LAST_STATUS = 2 ∧
        s.logged t 0x0008 blkSCH noPart .invalidState 0 rSCH_ACT_EPOCH v.toNat) ∧
      (s.fld fSCH_STATE_IMG ≠ 1 → ∃ t, wr rSCH_ACT_EPOCH 4 y = .next t ∧ t = { s with regs := t.regs } ∧ t.fld fSCH_ACT_EPOCH_VALUE = v.toNat ∧
        s.sameRegsBut t [rSCH_ACT_EPOCH])) ∧
    (s.hif.msix[fn].pba = [] → ∀ e, smGet MsixEntry.reset s.hif.msix[fn].table i.val = e →
      ∀ o ∈ [0, 8], ∃ t, wr (0x780000 + 16 * i.val + o) 8 x = .next t ∧ t = { s with hif := t.hif } ∧
        (∀ g, g ≠ fn → t.hif.msix[g] = s.hif.msix[g]) ∧ t.hif.msix[fn].pba = [] ∧
        (∀ j, j ≠ i.val → smGet MsixEntry.reset t.hif.msix[fn].table j = smGet MsixEntry.reset s.hif.msix[fn].table j) ∧
        smGet MsixEntry.reset t.hif.msix[fn].table i.val =
          if o = 0 then { e with addr := x } else { e with data := BitVec.ofNat 32 x.toNat, mask := bitOf x.toNat 32 }) ∧
    (∀ o, o < 0x100000 → exec (.registerWrite (.lodge c) .bar2 (0x100000 * p.val + o) size x rx) s = .next s ∧
      (s.homeFn p ≠ fn → rx.ep = false → exec (.registerWrite (.host fn) .bar2 (0x100000 * p.val + o) size x rx) s = .next s)) ∧
    (q < 0x4000 → exec (.registerWrite (.host fn) .bar2 (0x100000 * p.val + 0x1000 + 4 * q) 4 y ⟨0, false, bi⟩) s = exec (.sqDoorbell fn p q v) s ∧
      exec (.registerWrite (.host fn) .bar2 (0x100000 * p.val + 0x11000 + 4 * q) 4 y ⟨0, false, bi⟩) s = exec (.cqDoorbell fn p q v) s ∧
      (s.homeFn p = fn → ∃ t, exec (.registerWrite (.host fn) .bar2 (0x100000 * p.val + 0x1000 + 4 * q) 8 x ⟨0, false, bi⟩) s = .next t ∧
        t = { s with regs := t.regs } ∧ t.fld (fQUE_PDBMISS_COUNT p.val) = min (s.fld (fQUE_PDBMISS_COUNT p.val) + 1) (2 ^ (fQUE_PDBMISS_COUNT p.val).w - 1)))

/-- Every ADD to a present pavilion's semaphore, whatever row delivers it, adds its signed amount; above 0xFFFF_FFFF the counter
is left at 0xFFFF_FFFF, below 0 at 0, and either sets SEM_SAT; no other semaphore and no other register changes. [R70] -/
def Obligations.SemaphoreSaturation : Prop :=
  ∀ (s : State) (l : Nat) (p : Fin 144) (m : Fin 64) (a : BitVec 16), s.phys? l = some p →
    let t := s.semAdd l m a
    let v : Int := ((s.pav p).sems[m].toNat : Int) + a.toInt
    t = { s with pavs := t.pavs, regs := t.regs } ∧ (∀ q, q ≠ p → t.pav q = s.pav q) ∧
    t.pav p = { s.pav p with sems := (t.pav p).sems } ∧ (∀ i, i ≠ m → (t.pav p).sems[i] = (s.pav p).sems[i]) ∧
    (0xFFFFFFFF < v → (t.pav p).sems[m] = 0xFFFFFFFF) ∧ (v < 0 → (t.pav p).sems[m] = 0) ∧
    (0 ≤ v → v ≤ 0xFFFFFFFF → ((t.pav p).sems[m].toNat : Int) = v ∧ t.regs = s.regs) ∧
    (v < 0 ∨ 0xFFFFFFFF < v → t.flag fPAV_ERR_SEM_SAT = true ∧ s.sameRegsBut t [fPAV_ERR_SEM_SAT.off])

/-- State.reset is in canonical form and holds no pending command; every register reads as the register table's reset value,
every listed byte reads 0 and no pavilion's program runs. That unlisted memory reads 0 and that a register without a stated
reset value holds 0 are choices of the model (log entries 1 and 2). What it states beyond the rules is the choice of the
model: log entries 1, 2. [00_scope.md: reset values of the registers; 01_node_architecture.md: reset (R13); 04_berin_isa.md:
reset state (R113)] -/
def Obligations.ResetIsCanonical : Prop :=
  State.reset.wf = true ∧ State.reset.pending = [] ∧ (∀ o, State.reset.reg o = regReset o) ∧
    (∀ a, (a < 0x4010000000 ∨ 0x4010200000 ≤ a) → State.reset.byte a = 0) ∧
    ∀ p : Fin 144, State.reset.seqOf p = Seq.reset ∧ (State.reset.seqOf p).mode ≠ .running

/-- Every command of the table, on every state, answers a next state: none ends in a fault or a refusal, so a run of any length
from any state completes. What it states beyond the rules is the choice of the model: log entries 5. [00_scope.md: what the
device does with a command] -/
def Obligations.EveryStepCompletes : Prop :=
  ∀ (n : Nat) (s : State), s.completes ∧ s.safeFor n

/-- From every state whose register file, memory and scratch are in canonical form (keys strictly rising, no entry equal to what
an unlisted key reads as), a step answers only states of that form: two states that read the same in them are the same data.
What it states beyond the rules is the choice of the model: log entries 1. [00_scope.md: registers (R4, R5);
01_node_architecture.md: the device-physical address space (R19)] -/
def Obligations.StepKeepsWf : Prop :=
  ∀ s t : State, s.wf = true → step s = .next t → t.wf = true
end

