-- ==== Sys2Proof/Laws/Aes.lean ====
section
/-! SUPPORT. The lengths of what the cipher's operations give. -/

namespace Sys2Proof.Laws

open Sys2Proof Sys2Proof.Machine

theorem xorBytes_length (a b : List Byte) : (xorBytes a b).length = min a.length b.length := by simp [xorBytes]

/-- Every word of the key schedule has 4 bytes, and there are as many as asked for. -/
theorem aesWords_shape (nk : Nat) (hk : 0 < nk) (n i : Nat) (rc : Byte) (w : List (List Byte)) (hw : ∀ x ∈ w, x.length = 4)
    (hn : nk ≤ w.length) : (∀ x ∈ aesWords nk n i rc w, x.length = 4) ∧ (aesWords nk n i rc w).length = w.length + n := by
  induction n generalizing i rc w with
  | zero => exact ⟨fun x hx => hw x (by simpa [aesWords] using hx), by simp [aesWords]⟩
  | succ n ih =>
    have h0 : (w.headD []).length = 4 := by
      cases w with
      | nil => simp at hn; omega
      | cons a r => exact hw a (by simp)
    have h1 : (w.getD (nk - 1) []).length = 4 := by
      have e : nk - 1 < w.length := by omega
      rw [List.getD_eq_getElem _ _ e]
      exact hw _ (List.getElem_mem e)
    simp only [aesWords]
    refine (fun h => ⟨h.1, by rw [h.2]; simp; omega⟩) (ih _ _ _ ?_ (by simp; omega))
    intro x hx
    rcases List.mem_cons.mp hx with rfl | hx
    · rw [xorBytes_length, h1]
      split
      · rw [xorBytes_length]; simp only [List.length_map, List.length_append, List.length_drop, List.length_take, h0, List.length_cons, List.length_nil]
        decide
      · split
        · rw [List.length_map, h0]; rfl
        · rw [h0]; rfl
    · exact hw x hx

theorem flatten_four (l : List (List Byte)) (h : ∀ x ∈ l, x.length = 4) : l.flatten.length = 4 * l.length := by
  induction l with
  | nil => rfl
  | cons a r ih =>
    rw [List.flatten_cons, List.length_append, h a (by simp), ih (fun x hx => h x (by simp [hx])), List.length_cons]; omega

/-- A key of 16 or 32 bytes has round keys of 16 bytes, and at least one. -/
theorem aesKeys_shape (key : List Byte) (h : key.length = 16 ∨ key.length = 32) : (∀ k ∈ aesKeys key, k.length = 16) ∧ aesKeys key ≠ [] := by
  have hk : 0 < key.length / 4 := by omega
  have hw := aesWords_shape (key.length / 4) hk (4 * (aesRounds key + 1) - key.length / 4) (key.length / 4) 1
    ((List.range (key.length / 4)).map (fun i => (key.drop (4 * i)).take 4)).reverse
    (by
      intro x hx
      simp only [List.mem_reverse, List.mem_map, List.mem_range] at hx
      obtain ⟨i, hi, rfl⟩ := hx
      simp only [List.length_take, List.length_drop]; omega)
    (by simp)
  constructor
  · intro k hk2
    simp only [aesKeys, List.mem_map, List.mem_range] at hk2
    obtain ⟨r, hr, rfl⟩ := hk2
    rw [flatten_four]
    · simp only [List.length_take, List.length_drop, hw.2, List.length_reverse, List.length_map, List.length_range]
      simp only [aesRounds] at *; omega
    · intro x hx; exact hw.1 x (List.mem_of_mem_drop (List.mem_of_mem_take hx))
  · intro e
    have := congrArg List.length e
    simp [aesKeys] at this

theorem aesEncGo_length (ks : List (List Byte)) (hk : ∀ k ∈ ks, k.length = 16) (b : List Byte) (hb : b.length = 16) :
    (aesEncGo ks b).length = 16 := by
  induction ks generalizing b with
  | nil => exact hb
  | cons k r ih =>
    cases r with
    | nil => simp [aesEncGo, xorBytes_length, aesShift, hk k]
    | cons k2 r2 =>
      rw [aesEncGo]
      · exact ih (fun x hx => hk x (by simp [hx])) _ (by simp [xorBytes_length, aesMix, hk k])
      · simp

theorem aesDecGo_length (ks : List (List Byte)) (hk : ∀ k ∈ ks, k.length = 16) (b : List Byte) (hb : b.length = 16) :
    (aesDecGo ks b).length = 16 := by
  induction ks generalizing b with
  | nil => exact hb
  | cons k r ih =>
    cases r with
    | nil => simp [aesDecGo, xorBytes_length, aesUnshift, hk k]
    | cons k2 r2 =>
      rw [aesDecGo]
      · exact ih (fun x hx => hk x (by simp [hx])) _ (by simp [aesUnmix])
      · simp

/-- A block stays a block. -/
theorem aesEncK_length (ks : List (List Byte)) (hk : ∀ k ∈ ks, k.length = 16) (b : List Byte) (hb : b.length = 16) :
    (aesEncK ks b).length = 16 := by
  cases ks with
  | nil => exact hb
  | cons k r => exact aesEncGo_length r (fun x hx => hk x (by simp [hx])) _ (by simp [xorBytes_length, hb, hk k])

theorem aesDecK_length (ks : List (List Byte)) (hk : ∀ k ∈ ks, k.length = 16) (b : List Byte) (hb : b.length = 16) :
    (aesDecK ks b).length = 16 := by
  unfold aesDecK
  split
  · exact hb
  · rename_i k r e
    have hm : ∀ x ∈ k :: r, x.length = 16 := fun x hx => hk x (by rw [← List.mem_reverse, e]; exact hx)
    exact aesDecGo_length r (fun x hx => hm x (by simp [hx])) _ (by simp [xorBytes_length, hb, hm k])

theorem eachBlock_length (f : List Byte → List Byte) (hf : ∀ b, b.length = 16 → (f b).length = 16) (n : Nat) (b : List Byte)
    (hb : 16 * n ≤ b.length) : (eachBlock f n b).length = 16 * n := by
  induction n generalizing b with
  | zero => rfl
  | succ n ih =>
    rw [eachBlock, List.length_append, hf _ (by simp; omega), ih _ (by simp; omega)]; omega

/-- Raw block operations over whole blocks keep the length. -/
theorem aesEncAll_length (key b : List Byte) (hk : key.length = 16 ∨ key.length = 32) (hb : b.length % 16 = 0) :
    (aesEncAll key b).length = b.length := by
  unfold aesEncAll
  rw [eachBlock_length _ (aesEncK_length _ (aesKeys_shape key hk).1) _ _ (by omega)]; omega

theorem aesDecAll_length (key b : List Byte) (hk : key.length = 16 ∨ key.length = 32) (hb : b.length % 16 = 0) :
    (aesDecAll key b).length = b.length := by
  unfold aesDecAll
  rw [eachBlock_length _ (aesDecK_length _ (aesKeys_shape key hk).1) _ _ (by omega)]; omega

theorem leBytes_len (n v : Nat) : (leBytes n v).length = n := by
  induction n generalizing v with
  | zero => rfl
  | succ n ih => simp [leBytes, ih]

theorem beBytes_length (n v : Nat) : (beBytes n v).length = n := by simp [beBytes, leBytes_len]

theorem ctrNext_length (c : List Byte) (hc : c.length = 16) : (ctrNext c).length = 16 := by
  simp [ctrNext, beBytes_length, hc]

theorem ctrGo_length (ks : List (List Byte)) (hk : ∀ k ∈ ks, k.length = 16) (n : Nat) (c b : List Byte) (hc : c.length = 16)
    (hb : b.length ≤ 16 * n) : (ctrGo ks n c b).length = b.length := by
  induction n generalizing c b with
  | zero => simp [ctrGo]; omega
  | succ n ih =>
    rw [ctrGo, List.length_append, xorBytes_length, aesEncK_length ks hk c hc, ih _ _ (ctrNext_length c hc) (by simp; omega)]
    simp; omega

/-- CTR keeps the length. -/
theorem aesCtr_length (key iv b : List Byte) (hk : key.length = 16 ∨ key.length = 32) (hi : iv.length = 16) :
    (aesCtr key iv b).length = b.length := ctrGo_length _ (aesKeys_shape key hk).1 _ _ _ hi (by omega)

theorem gcmJ0_length (iv : List Byte) (hi : 12 ≤ iv.length) : (gcmJ0 iv).length = 16 := by simp [gcmJ0]; omega

theorem gcmText_length (key iv b : List Byte) (hk : key.length = 16 ∨ key.length = 32) (hi : 12 ≤ iv.length) :
    (gcmText key iv b).length = b.length := aesCtr_length _ _ _ hk (ctrNext_length _ (gcmJ0_length iv hi))

theorem ghash_length (h a b : List Byte) : (ghash h a b).length = 16 := beBytes_length _ _

/-- A tag has 16 bytes. -/
theorem gcmTag_length (key iv aad ct : List Byte) (hk : key.length = 16 ∨ key.length = 32) (hi : 12 ≤ iv.length) :
    (gcmTag key iv aad ct).length = 16 := by
  rw [gcmTag, xorBytes_length, ghash_length, aesEnc, aesEncK_length _ (aesKeys_shape key hk).1 _ (gcmJ0_length iv hi)]; rfl

theorem xtsGo_length (f : List Byte → List Byte) (hf : ∀ b, b.length = 16 → (f b).length = 16) (n : Nat) (t b : List Byte)
    (ht : t.length = 16) (hb : 16 * n ≤ b.length) : (xtsGo f n t b).length = 16 * n := by
  induction n generalizing t b with
  | zero => rfl
  | succ n ih =>
    have hx : (xorBytes (b.take 16) t).length = 16 := by rw [xorBytes_length, ht, List.length_take]; omega
    have hn : (xtsNext t).length = 16 := by simp [xtsNext, leBytes_len]
    rw [xtsGo, List.length_append, xorBytes_length, hf _ hx, ht, ih _ _ hn (by simp; omega)]; omega

/-- XTS over whole blocks keeps the length. -/
theorem xtsEnc_length (k1 k2 iv b : List Byte) (h1 : k1.length = 16 ∨ k1.length = 32) (h2 : k2.length = 16 ∨ k2.length = 32)
    (hi : iv.length = 16) (hb : b.length % 16 = 0) : (xtsEnc k1 k2 iv b).length = b.length := by
  have ht : (aesEnc k2 iv).length = 16 := aesEncK_length _ (aesKeys_shape k2 h2).1 _ hi
  unfold xtsEnc
  rw [xtsGo_length _ (aesEncK_length _ (aesKeys_shape k1 h1).1) _ _ _ ht (by omega)]; omega

theorem xtsDec_length (k1 k2 iv b : List Byte) (h1 : k1.length = 16 ∨ k1.length = 32) (h2 : k2.length = 16 ∨ k2.length = 32)
    (hi : iv.length = 16) (hb : b.length % 16 = 0) : (xtsDec k1 k2 iv b).length = b.length := by
  have ht : (aesEnc k2 iv).length = 16 := aesEncK_length _ (aesKeys_shape k2 h2).1 _ hi
  unfold xtsDec
  rw [xtsGo_length _ (aesDecK_length _ (aesKeys_shape k1 h1).1) _ _ _ ht (by omega)]; omega

end Sys2Proof.Laws
end

