-- ==== Sys2Proof/Laws/Flits.lean ====
section
/-! SUPPORT. Lemmas about the lanes of a flit. -/

namespace Sys2Proof.Laws

open Sys2Proof Sys2Proof.Machine

/-- The scrambler is additive: scrambling twice from one state gives the bytes back (R152). -/
theorem scramble_scramble (x : BitVec 31) (b : List Byte) : scramble x (scramble x b) = b := by
  induction b generalizing x with
  | nil => rfl
  | cons a r ih => simp [scramble, ih]

theorem scramble_length (x : BitVec 31) (b : List Byte) : (scramble x b).length = b.length := by
  induction b generalizing x with
  | nil => rfl
  | cons a r ih => simp [scramble, ih]

theorem stripe_length (b : List Byte) : (stripe b).length = 4 := rfl

end Sys2Proof.Laws
end

