-- ==== Sys2Proof/Laws/Sparse.lean ====
section
/-! SUPPORT. The laws of the sparse maps: read after write, and the canonical form. -/

namespace Sys2Proof.Machine

open Sys2Proof

variable {α : Type}

theorem smGet_smErase_same (d : Nat → α) (m : SMap α) (k : Nat) : smGet d (smErase k m) k = d k := by
  induction m with
  | nil => rfl
  | cons e r ih =>
    obtain ⟨a, b⟩ := e
    by_cases h : a = k <;> simp [smErase, smGet, h, ih]

theorem smGet_smErase_other (d : Nat → α) (m : SMap α) (j k : Nat) (h : j ≠ k) :
    smGet d (smErase k m) j = smGet d m j := by
  induction m with
  | nil => rfl
  | cons e r ih =>
    obtain ⟨a, b⟩ := e
    by_cases hk : a = k
    · subst hk
      simp [smErase, smGet, ih, Ne.symm h]
    · simp [smErase, smGet, hk, ih]

theorem smGet_smInsert_same (d : Nat → α) (m : SMap α) (k : Nat) (v : α) (h : ∀ e ∈ m, e.1 ≠ k) :
    smGet d (smInsert k v m) k = v := by
  induction m with
  | nil => simp [smInsert, smGet]
  | cons e r ih =>
    obtain ⟨a, b⟩ := e
    have ha : a ≠ k := h (a, b) (by simp)
    have hr := ih (fun e he => h e (by simp [he]))
    by_cases hk : k < a <;> simp [smInsert, smGet, hk, ha, hr]

theorem smGet_smInsert_other (d : Nat → α) (m : SMap α) (j k : Nat) (v : α) (h : j ≠ k) :
    smGet d (smInsert k v m) j = smGet d m j := by
  induction m with
  | nil => simp [smInsert, smGet, Ne.symm h]
  | cons e r ih =>
    obtain ⟨a, b⟩ := e
    by_cases hk : k < a
    · simp [smInsert, hk, smGet, Ne.symm h]
    · simp [smInsert, hk, smGet, ih]

theorem smErase_keys (m : SMap α) (k : Nat) : ∀ e ∈ smErase k m, e ∈ m ∧ e.1 ≠ k := by
  induction m with
  | nil => simp [smErase]
  | cons e r ih =>
    obtain ⟨a, b⟩ := e
    intro x hx
    by_cases h : a = k
    · simp only [smErase, h, if_true] at hx
      exact ⟨by simp [(ih x hx).1], (ih x hx).2⟩
    · simp only [smErase, h, if_false, List.mem_cons] at hx
      rcases hx with rfl | hx
      · exact ⟨by simp, h⟩
      · exact ⟨by simp [(ih x hx).1], (ih x hx).2⟩

/-- Reading the key written gives the value written. -/
@[simp] theorem smGet_smSet_same [DecidableEq α] (d : Nat → α) (m : SMap α) (k : Nat) (v : α) : smGet d (smSet d m k v) k = v := by
  unfold smSet
  split
  · next h => rw [smGet_smErase_same, h]
  · exact smGet_smInsert_same d _ k v (fun e he => (smErase_keys m k e he).2)

/-- Every other key reads as before. -/
theorem smGet_smSet_other [DecidableEq α] (d : Nat → α) (m : SMap α) (j k : Nat) (v : α) (h : j ≠ k) :
    smGet d (smSet d m k v) j = smGet d m j := by
  unfold smSet
  split
  · exact smGet_smErase_other d m j k h
  · rw [smGet_smInsert_other d _ j k v h, smGet_smErase_other d m j k h]

theorem smErase_pairwise (m : SMap α) (k : Nat) (h : m.Pairwise (fun x y => x.1 < y.1)) :
    (smErase k m).Pairwise (fun x y => x.1 < y.1) := by
  induction m with
  | nil => simp [smErase]
  | cons e r ih =>
    obtain ⟨a, b⟩ := e
    rw [List.pairwise_cons] at h
    by_cases hk : a = k
    · simpa [smErase, hk] using ih h.2
    · simp only [smErase, hk, if_false, List.pairwise_cons]
      exact ⟨fun x hx => h.1 x (smErase_keys r k x hx).1, ih h.2⟩

theorem smInsert_mem (m : SMap α) (k : Nat) (v : α) : ∀ e ∈ smInsert k v m, e = (k, v) ∨ e ∈ m := by
  induction m with
  | nil => simp [smInsert]
  | cons e r ih =>
    obtain ⟨a, b⟩ := e
    intro x hx
    by_cases hk : k < a
    · simpa [smInsert, hk] using hx
    · simp only [smInsert, hk, if_false, List.mem_cons] at hx
      rcases hx with rfl | hx
      · simp
      · rcases ih x hx with h | h <;> simp [h]

theorem smInsert_pairwise (m : SMap α) (k : Nat) (v : α) (h : m.Pairwise (fun x y => x.1 < y.1)) (hk : ∀ e ∈ m, e.1 ≠ k) :
    (smInsert k v m).Pairwise (fun x y => x.1 < y.1) := by
  induction m with
  | nil => simp [smInsert]
  | cons e r ih =>
    obtain ⟨a, b⟩ := e
    have ha : a ≠ k := hk (a, b) (by simp)
    rw [List.pairwise_cons] at h
    by_cases hl : k < a
    · simp only [smInsert, hl, if_true, List.pairwise_cons, List.mem_cons]
      refine ⟨fun x hx => ?_, fun x hx => h.1 x hx, h.2⟩
      rcases hx with rfl | hx
      · exact hl
      · exact Nat.lt_trans hl (h.1 x hx)
    · simp only [smInsert, hl, if_false, List.pairwise_cons]
      refine ⟨fun x hx => ?_, ih h.2 (fun e he => hk e (by simp [he]))⟩
      rcases smInsert_mem r k v x hx with rfl | hx
      · show a < k; omega
      · exact h.1 x hx

/-- A write keeps the canonical form. -/
theorem smWf_smSet [DecidableEq α] (d : Nat → α) (m : SMap α) (k : Nat) (v : α) (h : smWf d m = true) : smWf d (smSet d m k v) = true := by
  simp only [smWf, Bool.and_eq_true, decide_eq_true_eq, List.all_eq_true] at h ⊢
  unfold smSet
  split
  · exact ⟨smErase_pairwise m k h.1, fun e he => h.2 e (smErase_keys m k e he).1⟩
  · next hv =>
    refine ⟨smInsert_pairwise _ k v (smErase_pairwise m k h.1) (fun e he => (smErase_keys m k e he).2), fun e he => ?_⟩
    rcases smInsert_mem _ k v e he with rfl | he
    · exact hv
    · exact h.2 e (smErase_keys m k e he).1

/-- Dropping entries keeps the canonical form. -/
theorem smWf_filter [DecidableEq α] (d : Nat → α) (m : SMap α) (f : Nat × α → Bool) (h : smWf d m = true) : smWf d (m.filter f) = true := by
  simp only [smWf, Bool.and_eq_true, decide_eq_true_eq, List.all_eq_true] at h ⊢
  exact ⟨h.1.filter f, fun e he => h.2 e (List.mem_filter.mp he).1⟩

/-- A map without entries is canonical. -/
@[simp] theorem smWf_nil [DecidableEq α] (d : Nat → α) : smWf d ([] : SMap α) = true := rfl

/-- Writing several entries keeps the canonical form. -/
theorem smWf_foldl_smSet [DecidableEq α] {β : Type} (d : Nat → α) (l : List β) (k : β → Nat) (v : β → α) (m : SMap α) (h : smWf d m = true) :
    smWf d (l.foldl (fun m e => smSet d m (k e) (v e)) m) = true := by
  induction l generalizing m with
  | nil => exact h
  | cons e r ih => exact ih _ (smWf_smSet d m (k e) (v e) h)

end Sys2Proof.Machine
end

