-- ==== Sys2Proof/Laws/State.lean ====
section
/-! SUPPORT. What the plain updates of the state leave: one lemma for each field and update, and the value that the update gives. -/

namespace Sys2Proof.Machine

open Sys2Proof

/-! `State.setReg` -/

@[simp] theorem State.setReg_pending (s : State) (off : Nat) (v : BitVec 64) : (s.setReg off v).pending = s.pending := rfl
@[simp] theorem State.setReg_mem (s : State) (off : Nat) (v : BitVec 64) : (s.setReg off v).mem = s.mem := rfl
@[simp] theorem State.setReg_scratch (s : State) (off : Nat) (v : BitVec 64) : (s.setReg off v).scratch = s.scratch := rfl
@[simp] theorem State.setReg_now (s : State) (off : Nat) (v : BitVec 64) : (s.setReg off v).now = s.now := rfl
@[simp] theorem State.setReg_freeCtr (s : State) (off : Nat) (v : BitVec 64) : (s.setReg off v).freeCtr = s.freeCtr := rfl
@[simp] theorem State.setReg_out (s : State) (off : Nat) (v : BitVec 64) : (s.setReg off v).out = s.out := rfl
@[simp] theorem State.setReg_log (s : State) (off : Nat) (v : BitVec 64) : (s.setReg off v).log = s.log := rfl
@[simp] theorem State.setReg_pavs (s : State) (off : Nat) (v : BitVec 64) : (s.setReg off v).pavs = s.pavs := rfl
@[simp] theorem State.setReg_sch (s : State) (off : Nat) (v : BitVec 64) : (s.setReg off v).sch = s.sch := rfl
@[simp] theorem State.setReg_fab (s : State) (off : Nat) (v : BitVec 64) : (s.setReg off v).fab = s.fab := rfl
@[simp] theorem State.setReg_que (s : State) (off : Nat) (v : BitVec 64) : (s.setReg off v).que = s.que := rfl
@[simp] theorem State.setReg_hif (s : State) (off : Nat) (v : BitVec 64) : (s.setReg off v).hif = s.hif := rfl
@[simp] theorem State.setReg_ldg (s : State) (off : Nat) (v : BitVec 64) : (s.setReg off v).ldg = s.ldg := rfl
@[simp] theorem State.setReg_gmem (s : State) (off : Nat) (v : BitVec 64) : (s.setReg off v).gmem = s.gmem := rfl
@[simp] theorem State.setReg_ckp (s : State) (off : Nat) (v : BitVec 64) : (s.setReg off v).ckp = s.ckp := rfl
@[simp] theorem State.setReg_tru (s : State) (off : Nat) (v : BitVec 64) : (s.setReg off v).tru = s.tru := rfl
@[simp] theorem State.setReg_rdm (s : State) (off : Nat) (v : BitVec 64) : (s.setReg off v).rdm = s.rdm := rfl
@[simp] theorem State.setReg_eth (s : State) (off : Nat) (v : BitVec 64) : (s.setReg off v).eth = s.eth := rfl
@[simp] theorem State.setReg_cip (s : State) (off : Nat) (v : BitVec 64) : (s.setReg off v).cip = s.cip := rfl
@[simp] theorem State.setReg_pwr (s : State) (off : Nat) (v : BitVec 64) : (s.setReg off v).pwr = s.pwr := rfl

/-! `State.setFld` -/

@[simp] theorem State.setFld_pending (s : State) (f : Fld) (v : Nat) : (s.setFld f v).pending = s.pending := rfl
@[simp] theorem State.setFld_mem (s : State) (f : Fld) (v : Nat) : (s.setFld f v).mem = s.mem := rfl
@[simp] theorem State.setFld_scratch (s : State) (f : Fld) (v : Nat) : (s.setFld f v).scratch = s.scratch := rfl
@[simp] theorem State.setFld_now (s : State) (f : Fld) (v : Nat) : (s.setFld f v).now = s.now := rfl
@[simp] theorem State.setFld_freeCtr (s : State) (f : Fld) (v : Nat) : (s.setFld f v).freeCtr = s.freeCtr := rfl
@[simp] theorem State.setFld_out (s : State) (f : Fld) (v : Nat) : (s.setFld f v).out = s.out := rfl
@[simp] theorem State.setFld_log (s : State) (f : Fld) (v : Nat) : (s.setFld f v).log = s.log := rfl
@[simp] theorem State.setFld_pavs (s : State) (f : Fld) (v : Nat) : (s.setFld f v).pavs = s.pavs := rfl
@[simp] theorem State.setFld_sch (s : State) (f : Fld) (v : Nat) : (s.setFld f v).sch = s.sch := rfl
@[simp] theorem State.setFld_fab (s : State) (f : Fld) (v : Nat) : (s.setFld f v).fab = s.fab := rfl
@[simp] theorem State.setFld_que (s : State) (f : Fld) (v : Nat) : (s.setFld f v).que = s.que := rfl
@[simp] theorem State.setFld_hif (s : State) (f : Fld) (v : Nat) : (s.setFld f v).hif = s.hif := rfl
@[simp] theorem State.setFld_ldg (s : State) (f : Fld) (v : Nat) : (s.setFld f v).ldg = s.ldg := rfl
@[simp] theorem State.setFld_gmem (s : State) (f : Fld) (v : Nat) : (s.setFld f v).gmem = s.gmem := rfl
@[simp] theorem State.setFld_ckp (s : State) (f : Fld) (v : Nat) : (s.setFld f v).ckp = s.ckp := rfl
@[simp] theorem State.setFld_tru (s : State) (f : Fld) (v : Nat) : (s.setFld f v).tru = s.tru := rfl
@[simp] theorem State.setFld_rdm (s : State) (f : Fld) (v : Nat) : (s.setFld f v).rdm = s.rdm := rfl
@[simp] theorem State.setFld_eth (s : State) (f : Fld) (v : Nat) : (s.setFld f v).eth = s.eth := rfl
@[simp] theorem State.setFld_cip (s : State) (f : Fld) (v : Nat) : (s.setFld f v).cip = s.cip := rfl
@[simp] theorem State.setFld_pwr (s : State) (f : Fld) (v : Nat) : (s.setFld f v).pwr = s.pwr := rfl

/-! `State.raise` -/

@[simp] theorem State.raise_pending (s : State) (f : Fld) : (s.raise f).pending = s.pending := rfl
@[simp] theorem State.raise_mem (s : State) (f : Fld) : (s.raise f).mem = s.mem := rfl
@[simp] theorem State.raise_scratch (s : State) (f : Fld) : (s.raise f).scratch = s.scratch := rfl
@[simp] theorem State.raise_now (s : State) (f : Fld) : (s.raise f).now = s.now := rfl
@[simp] theorem State.raise_freeCtr (s : State) (f : Fld) : (s.raise f).freeCtr = s.freeCtr := rfl
@[simp] theorem State.raise_out (s : State) (f : Fld) : (s.raise f).out = s.out := rfl
@[simp] theorem State.raise_log (s : State) (f : Fld) : (s.raise f).log = s.log := rfl
@[simp] theorem State.raise_pavs (s : State) (f : Fld) : (s.raise f).pavs = s.pavs := rfl
@[simp] theorem State.raise_sch (s : State) (f : Fld) : (s.raise f).sch = s.sch := rfl
@[simp] theorem State.raise_fab (s : State) (f : Fld) : (s.raise f).fab = s.fab := rfl
@[simp] theorem State.raise_que (s : State) (f : Fld) : (s.raise f).que = s.que := rfl
@[simp] theorem State.raise_hif (s : State) (f : Fld) : (s.raise f).hif = s.hif := rfl
@[simp] theorem State.raise_ldg (s : State) (f : Fld) : (s.raise f).ldg = s.ldg := rfl
@[simp] theorem State.raise_gmem (s : State) (f : Fld) : (s.raise f).gmem = s.gmem := rfl
@[simp] theorem State.raise_ckp (s : State) (f : Fld) : (s.raise f).ckp = s.ckp := rfl
@[simp] theorem State.raise_tru (s : State) (f : Fld) : (s.raise f).tru = s.tru := rfl
@[simp] theorem State.raise_rdm (s : State) (f : Fld) : (s.raise f).rdm = s.rdm := rfl
@[simp] theorem State.raise_eth (s : State) (f : Fld) : (s.raise f).eth = s.eth := rfl
@[simp] theorem State.raise_cip (s : State) (f : Fld) : (s.raise f).cip = s.cip := rfl
@[simp] theorem State.raise_pwr (s : State) (f : Fld) : (s.raise f).pwr = s.pwr := rfl

/-! `State.count` -/

@[simp] theorem State.count_pending (s : State) (f : Fld) (k : Nat) : (s.count f k).pending = s.pending := rfl
@[simp] theorem State.count_mem (s : State) (f : Fld) (k : Nat) : (s.count f k).mem = s.mem := rfl
@[simp] theorem State.count_scratch (s : State) (f : Fld) (k : Nat) : (s.count f k).scratch = s.scratch := rfl
@[simp] theorem State.count_now (s : State) (f : Fld) (k : Nat) : (s.count f k).now = s.now := rfl
@[simp] theorem State.count_freeCtr (s : State) (f : Fld) (k : Nat) : (s.count f k).freeCtr = s.freeCtr := rfl
@[simp] theorem State.count_out (s : State) (f : Fld) (k : Nat) : (s.count f k).out = s.out := rfl
@[simp] theorem State.count_log (s : State) (f : Fld) (k : Nat) : (s.count f k).log = s.log := rfl
@[simp] theorem State.count_pavs (s : State) (f : Fld) (k : Nat) : (s.count f k).pavs = s.pavs := rfl
@[simp] theorem State.count_sch (s : State) (f : Fld) (k : Nat) : (s.count f k).sch = s.sch := rfl
@[simp] theorem State.count_fab (s : State) (f : Fld) (k : Nat) : (s.count f k).fab = s.fab := rfl
@[simp] theorem State.count_que (s : State) (f : Fld) (k : Nat) : (s.count f k).que = s.que := rfl
@[simp] theorem State.count_hif (s : State) (f : Fld) (k : Nat) : (s.count f k).hif = s.hif := rfl
@[simp] theorem State.count_ldg (s : State) (f : Fld) (k : Nat) : (s.count f k).ldg = s.ldg := rfl
@[simp] theorem State.count_gmem (s : State) (f : Fld) (k : Nat) : (s.count f k).gmem = s.gmem := rfl
@[simp] theorem State.count_ckp (s : State) (f : Fld) (k : Nat) : (s.count f k).ckp = s.ckp := rfl
@[simp] theorem State.count_tru (s : State) (f : Fld) (k : Nat) : (s.count f k).tru = s.tru := rfl
@[simp] theorem State.count_rdm (s : State) (f : Fld) (k : Nat) : (s.count f k).rdm = s.rdm := rfl
@[simp] theorem State.count_eth (s : State) (f : Fld) (k : Nat) : (s.count f k).eth = s.eth := rfl
@[simp] theorem State.count_cip (s : State) (f : Fld) (k : Nat) : (s.count f k).cip = s.cip := rfl
@[simp] theorem State.count_pwr (s : State) (f : Fld) (k : Nat) : (s.count f k).pwr = s.pwr := rfl

/-! `State.advance` -/

@[simp] theorem State.advance_pending (s : State) (n : Nat) : (s.advance n).pending = s.pending := rfl
@[simp] theorem State.advance_regs (s : State) (n : Nat) : (s.advance n).regs = s.regs := rfl
@[simp] theorem State.advance_mem (s : State) (n : Nat) : (s.advance n).mem = s.mem := rfl
@[simp] theorem State.advance_scratch (s : State) (n : Nat) : (s.advance n).scratch = s.scratch := rfl
@[simp] theorem State.advance_freeCtr (s : State) (n : Nat) : (s.advance n).freeCtr = s.freeCtr := rfl
@[simp] theorem State.advance_out (s : State) (n : Nat) : (s.advance n).out = s.out := rfl
@[simp] theorem State.advance_log (s : State) (n : Nat) : (s.advance n).log = s.log := rfl
@[simp] theorem State.advance_pavs (s : State) (n : Nat) : (s.advance n).pavs = s.pavs := rfl
@[simp] theorem State.advance_fab (s : State) (n : Nat) : (s.advance n).fab = s.fab := rfl
@[simp] theorem State.advance_que (s : State) (n : Nat) : (s.advance n).que = s.que := rfl
@[simp] theorem State.advance_hif (s : State) (n : Nat) : (s.advance n).hif = s.hif := rfl
@[simp] theorem State.advance_ldg (s : State) (n : Nat) : (s.advance n).ldg = s.ldg := rfl
@[simp] theorem State.advance_gmem (s : State) (n : Nat) : (s.advance n).gmem = s.gmem := rfl
@[simp] theorem State.advance_ckp (s : State) (n : Nat) : (s.advance n).ckp = s.ckp := rfl
@[simp] theorem State.advance_tru (s : State) (n : Nat) : (s.advance n).tru = s.tru := rfl
@[simp] theorem State.advance_rdm (s : State) (n : Nat) : (s.advance n).rdm = s.rdm := rfl
@[simp] theorem State.advance_eth (s : State) (n : Nat) : (s.advance n).eth = s.eth := rfl
@[simp] theorem State.advance_cip (s : State) (n : Nat) : (s.advance n).cip = s.cip := rfl
@[simp] theorem State.advance_pwr (s : State) (n : Nat) : (s.advance n).pwr = s.pwr := rfl

/-! `State.atLeast` -/

@[simp] theorem State.atLeast_pending (s : State) (t : Nat) : (s.atLeast t).pending = s.pending := rfl
@[simp] theorem State.atLeast_regs (s : State) (t : Nat) : (s.atLeast t).regs = s.regs := rfl
@[simp] theorem State.atLeast_mem (s : State) (t : Nat) : (s.atLeast t).mem = s.mem := rfl
@[simp] theorem State.atLeast_scratch (s : State) (t : Nat) : (s.atLeast t).scratch = s.scratch := rfl
@[simp] theorem State.atLeast_freeCtr (s : State) (t : Nat) : (s.atLeast t).freeCtr = s.freeCtr := rfl
@[simp] theorem State.atLeast_out (s : State) (t : Nat) : (s.atLeast t).out = s.out := rfl
@[simp] theorem State.atLeast_log (s : State) (t : Nat) : (s.atLeast t).log = s.log := rfl
@[simp] theorem State.atLeast_pavs (s : State) (t : Nat) : (s.atLeast t).pavs = s.pavs := rfl
@[simp] theorem State.atLeast_fab (s : State) (t : Nat) : (s.atLeast t).fab = s.fab := rfl
@[simp] theorem State.atLeast_que (s : State) (t : Nat) : (s.atLeast t).que = s.que := rfl
@[simp] theorem State.atLeast_hif (s : State) (t : Nat) : (s.atLeast t).hif = s.hif := rfl
@[simp] theorem State.atLeast_ldg (s : State) (t : Nat) : (s.atLeast t).ldg = s.ldg := rfl
@[simp] theorem State.atLeast_gmem (s : State) (t : Nat) : (s.atLeast t).gmem = s.gmem := rfl
@[simp] theorem State.atLeast_ckp (s : State) (t : Nat) : (s.atLeast t).ckp = s.ckp := rfl
@[simp] theorem State.atLeast_tru (s : State) (t : Nat) : (s.atLeast t).tru = s.tru := rfl
@[simp] theorem State.atLeast_rdm (s : State) (t : Nat) : (s.atLeast t).rdm = s.rdm := rfl
@[simp] theorem State.atLeast_eth (s : State) (t : Nat) : (s.atLeast t).eth = s.eth := rfl
@[simp] theorem State.atLeast_cip (s : State) (t : Nat) : (s.atLeast t).cip = s.cip := rfl
@[simp] theorem State.atLeast_pwr (s : State) (t : Nat) : (s.atLeast t).pwr = s.pwr := rfl

/-! `State.emit` -/

@[simp] theorem State.emit_pending (s : State) (o : Out) : (s.emit o).pending = s.pending := rfl
@[simp] theorem State.emit_regs (s : State) (o : Out) : (s.emit o).regs = s.regs := rfl
@[simp] theorem State.emit_mem (s : State) (o : Out) : (s.emit o).mem = s.mem := rfl
@[simp] theorem State.emit_scratch (s : State) (o : Out) : (s.emit o).scratch = s.scratch := rfl
@[simp] theorem State.emit_now (s : State) (o : Out) : (s.emit o).now = s.now := rfl
@[simp] theorem State.emit_freeCtr (s : State) (o : Out) : (s.emit o).freeCtr = s.freeCtr := rfl
@[simp] theorem State.emit_log (s : State) (o : Out) : (s.emit o).log = s.log := rfl
@[simp] theorem State.emit_pavs (s : State) (o : Out) : (s.emit o).pavs = s.pavs := rfl
@[simp] theorem State.emit_sch (s : State) (o : Out) : (s.emit o).sch = s.sch := rfl
@[simp] theorem State.emit_fab (s : State) (o : Out) : (s.emit o).fab = s.fab := rfl
@[simp] theorem State.emit_que (s : State) (o : Out) : (s.emit o).que = s.que := rfl
@[simp] theorem State.emit_hif (s : State) (o : Out) : (s.emit o).hif = s.hif := rfl
@[simp] theorem State.emit_ldg (s : State) (o : Out) : (s.emit o).ldg = s.ldg := rfl
@[simp] theorem State.emit_gmem (s : State) (o : Out) : (s.emit o).gmem = s.gmem := rfl
@[simp] theorem State.emit_ckp (s : State) (o : Out) : (s.emit o).ckp = s.ckp := rfl
@[simp] theorem State.emit_tru (s : State) (o : Out) : (s.emit o).tru = s.tru := rfl
@[simp] theorem State.emit_rdm (s : State) (o : Out) : (s.emit o).rdm = s.rdm := rfl
@[simp] theorem State.emit_eth (s : State) (o : Out) : (s.emit o).eth = s.eth := rfl
@[simp] theorem State.emit_cip (s : State) (o : Out) : (s.emit o).cip = s.cip := rfl
@[simp] theorem State.emit_pwr (s : State) (o : Out) : (s.emit o).pwr = s.pwr := rfl

/-! `State.setPav` -/

@[simp] theorem State.setPav_pending (s : State) (p : Fin 144) (x : Pav) : (s.setPav p x).pending = s.pending := rfl
@[simp] theorem State.setPav_regs (s : State) (p : Fin 144) (x : Pav) : (s.setPav p x).regs = s.regs := rfl
@[simp] theorem State.setPav_mem (s : State) (p : Fin 144) (x : Pav) : (s.setPav p x).mem = s.mem := rfl
@[simp] theorem State.setPav_scratch (s : State) (p : Fin 144) (x : Pav) : (s.setPav p x).scratch = s.scratch := rfl
@[simp] theorem State.setPav_now (s : State) (p : Fin 144) (x : Pav) : (s.setPav p x).now = s.now := rfl
@[simp] theorem State.setPav_freeCtr (s : State) (p : Fin 144) (x : Pav) : (s.setPav p x).freeCtr = s.freeCtr := rfl
@[simp] theorem State.setPav_out (s : State) (p : Fin 144) (x : Pav) : (s.setPav p x).out = s.out := rfl
@[simp] theorem State.setPav_log (s : State) (p : Fin 144) (x : Pav) : (s.setPav p x).log = s.log := rfl
@[simp] theorem State.setPav_sch (s : State) (p : Fin 144) (x : Pav) : (s.setPav p x).sch = s.sch := rfl
@[simp] theorem State.setPav_fab (s : State) (p : Fin 144) (x : Pav) : (s.setPav p x).fab = s.fab := rfl
@[simp] theorem State.setPav_que (s : State) (p : Fin 144) (x : Pav) : (s.setPav p x).que = s.que := rfl
@[simp] theorem State.setPav_hif (s : State) (p : Fin 144) (x : Pav) : (s.setPav p x).hif = s.hif := rfl
@[simp] theorem State.setPav_ldg (s : State) (p : Fin 144) (x : Pav) : (s.setPav p x).ldg = s.ldg := rfl
@[simp] theorem State.setPav_gmem (s : State) (p : Fin 144) (x : Pav) : (s.setPav p x).gmem = s.gmem := rfl
@[simp] theorem State.setPav_ckp (s : State) (p : Fin 144) (x : Pav) : (s.setPav p x).ckp = s.ckp := rfl
@[simp] theorem State.setPav_tru (s : State) (p : Fin 144) (x : Pav) : (s.setPav p x).tru = s.tru := rfl
@[simp] theorem State.setPav_rdm (s : State) (p : Fin 144) (x : Pav) : (s.setPav p x).rdm = s.rdm := rfl
@[simp] theorem State.setPav_eth (s : State) (p : Fin 144) (x : Pav) : (s.setPav p x).eth = s.eth := rfl
@[simp] theorem State.setPav_cip (s : State) (p : Fin 144) (x : Pav) : (s.setPav p x).cip = s.cip := rfl
@[simp] theorem State.setPav_pwr (s : State) (p : Fin 144) (x : Pav) : (s.setPav p x).pwr = s.pwr := rfl

/-! `State.setPart` -/

@[simp] theorem State.setPart_pending (s : State) (p : Fin 65) (x : Part) : (s.setPart p x).pending = s.pending := rfl
@[simp] theorem State.setPart_regs (s : State) (p : Fin 65) (x : Part) : (s.setPart p x).regs = s.regs := rfl
@[simp] theorem State.setPart_mem (s : State) (p : Fin 65) (x : Part) : (s.setPart p x).mem = s.mem := rfl
@[simp] theorem State.setPart_scratch (s : State) (p : Fin 65) (x : Part) : (s.setPart p x).scratch = s.scratch := rfl
@[simp] theorem State.setPart_now (s : State) (p : Fin 65) (x : Part) : (s.setPart p x).now = s.now := rfl
@[simp] theorem State.setPart_freeCtr (s : State) (p : Fin 65) (x : Part) : (s.setPart p x).freeCtr = s.freeCtr := rfl
@[simp] theorem State.setPart_out (s : State) (p : Fin 65) (x : Part) : (s.setPart p x).out = s.out := rfl
@[simp] theorem State.setPart_log (s : State) (p : Fin 65) (x : Part) : (s.setPart p x).log = s.log := rfl
@[simp] theorem State.setPart_pavs (s : State) (p : Fin 65) (x : Part) : (s.setPart p x).pavs = s.pavs := rfl
@[simp] theorem State.setPart_sch (s : State) (p : Fin 65) (x : Part) : (s.setPart p x).sch = s.sch := rfl
@[simp] theorem State.setPart_fab (s : State) (p : Fin 65) (x : Part) : (s.setPart p x).fab = s.fab := rfl
@[simp] theorem State.setPart_hif (s : State) (p : Fin 65) (x : Part) : (s.setPart p x).hif = s.hif := rfl
@[simp] theorem State.setPart_ldg (s : State) (p : Fin 65) (x : Part) : (s.setPart p x).ldg = s.ldg := rfl
@[simp] theorem State.setPart_gmem (s : State) (p : Fin 65) (x : Part) : (s.setPart p x).gmem = s.gmem := rfl
@[simp] theorem State.setPart_ckp (s : State) (p : Fin 65) (x : Part) : (s.setPart p x).ckp = s.ckp := rfl
@[simp] theorem State.setPart_tru (s : State) (p : Fin 65) (x : Part) : (s.setPart p x).tru = s.tru := rfl
@[simp] theorem State.setPart_rdm (s : State) (p : Fin 65) (x : Part) : (s.setPart p x).rdm = s.rdm := rfl
@[simp] theorem State.setPart_eth (s : State) (p : Fin 65) (x : Part) : (s.setPart p x).eth = s.eth := rfl
@[simp] theorem State.setPart_cip (s : State) (p : Fin 65) (x : Part) : (s.setPart p x).cip = s.cip := rfl
@[simp] theorem State.setPart_pwr (s : State) (p : Fin 65) (x : Part) : (s.setPart p x).pwr = s.pwr := rfl

/-! `State.setSq` -/

@[simp] theorem State.setSq_pending (s : State) (p : Fin 65) (q : Nat) (x : Sq) : (s.setSq p q x).pending = s.pending := rfl
@[simp] theorem State.setSq_regs (s : State) (p : Fin 65) (q : Nat) (x : Sq) : (s.setSq p q x).regs = s.regs := rfl
@[simp] theorem State.setSq_mem (s : State) (p : Fin 65) (q : Nat) (x : Sq) : (s.setSq p q x).mem = s.mem := rfl
@[simp] theorem State.setSq_scratch (s : State) (p : Fin 65) (q : Nat) (x : Sq) : (s.setSq p q x).scratch = s.scratch := rfl
@[simp] theorem State.setSq_now (s : State) (p : Fin 65) (q : Nat) (x : Sq) : (s.setSq p q x).now = s.now := rfl
@[simp] theorem State.setSq_freeCtr (s : State) (p : Fin 65) (q : Nat) (x : Sq) : (s.setSq p q x).freeCtr = s.freeCtr := rfl
@[simp] theorem State.setSq_out (s : State) (p : Fin 65) (q : Nat) (x : Sq) : (s.setSq p q x).out = s.out := rfl
@[simp] theorem State.setSq_log (s : State) (p : Fin 65) (q : Nat) (x : Sq) : (s.setSq p q x).log = s.log := rfl
@[simp] theorem State.setSq_pavs (s : State) (p : Fin 65) (q : Nat) (x : Sq) : (s.setSq p q x).pavs = s.pavs := rfl
@[simp] theorem State.setSq_sch (s : State) (p : Fin 65) (q : Nat) (x : Sq) : (s.setSq p q x).sch = s.sch := rfl
@[simp] theorem State.setSq_fab (s : State) (p : Fin 65) (q : Nat) (x : Sq) : (s.setSq p q x).fab = s.fab := rfl
@[simp] theorem State.setSq_hif (s : State) (p : Fin 65) (q : Nat) (x : Sq) : (s.setSq p q x).hif = s.hif := rfl
@[simp] theorem State.setSq_ldg (s : State) (p : Fin 65) (q : Nat) (x : Sq) : (s.setSq p q x).ldg = s.ldg := rfl
@[simp] theorem State.setSq_gmem (s : State) (p : Fin 65) (q : Nat) (x : Sq) : (s.setSq p q x).gmem = s.gmem := rfl
@[simp] theorem State.setSq_ckp (s : State) (p : Fin 65) (q : Nat) (x : Sq) : (s.setSq p q x).ckp = s.ckp := rfl
@[simp] theorem State.setSq_tru (s : State) (p : Fin 65) (q : Nat) (x : Sq) : (s.setSq p q x).tru = s.tru := rfl
@[simp] theorem State.setSq_rdm (s : State) (p : Fin 65) (q : Nat) (x : Sq) : (s.setSq p q x).rdm = s.rdm := rfl
@[simp] theorem State.setSq_eth (s : State) (p : Fin 65) (q : Nat) (x : Sq) : (s.setSq p q x).eth = s.eth := rfl
@[simp] theorem State.setSq_cip (s : State) (p : Fin 65) (q : Nat) (x : Sq) : (s.setSq p q x).cip = s.cip := rfl
@[simp] theorem State.setSq_pwr (s : State) (p : Fin 65) (q : Nat) (x : Sq) : (s.setSq p q x).pwr = s.pwr := rfl

/-! `State.setCq` -/

@[simp] theorem State.setCq_pending (s : State) (p : Fin 65) (q : Nat) (x : Cq) : (s.setCq p q x).pending = s.pending := rfl
@[simp] theorem State.setCq_regs (s : State) (p : Fin 65) (q : Nat) (x : Cq) : (s.setCq p q x).regs = s.regs := rfl
@[simp] theorem State.setCq_mem (s : State) (p : Fin 65) (q : Nat) (x : Cq) : (s.setCq p q x).mem = s.mem := rfl
@[simp] theorem State.setCq_scratch (s : State) (p : Fin 65) (q : Nat) (x : Cq) : (s.setCq p q x).scratch = s.scratch := rfl
@[simp] theorem State.setCq_now (s : State) (p : Fin 65) (q : Nat) (x : Cq) : (s.setCq p q x).now = s.now := rfl
@[simp] theorem State.setCq_freeCtr (s : State) (p : Fin 65) (q : Nat) (x : Cq) : (s.setCq p q x).freeCtr = s.freeCtr := rfl
@[simp] theorem State.setCq_out (s : State) (p : Fin 65) (q : Nat) (x : Cq) : (s.setCq p q x).out = s.out := rfl
@[simp] theorem State.setCq_log (s : State) (p : Fin 65) (q : Nat) (x : Cq) : (s.setCq p q x).log = s.log := rfl
@[simp] theorem State.setCq_pavs (s : State) (p : Fin 65) (q : Nat) (x : Cq) : (s.setCq p q x).pavs = s.pavs := rfl
@[simp] theorem State.setCq_sch (s : State) (p : Fin 65) (q : Nat) (x : Cq) : (s.setCq p q x).sch = s.sch := rfl
@[simp] theorem State.setCq_fab (s : State) (p : Fin 65) (q : Nat) (x : Cq) : (s.setCq p q x).fab = s.fab := rfl
@[simp] theorem State.setCq_hif (s : State) (p : Fin 65) (q : Nat) (x : Cq) : (s.setCq p q x).hif = s.hif := rfl
@[simp] theorem State.setCq_ldg (s : State) (p : Fin 65) (q : Nat) (x : Cq) : (s.setCq p q x).ldg = s.ldg := rfl
@[simp] theorem State.setCq_gmem (s : State) (p : Fin 65) (q : Nat) (x : Cq) : (s.setCq p q x).gmem = s.gmem := rfl
@[simp] theorem State.setCq_ckp (s : State) (p : Fin 65) (q : Nat) (x : Cq) : (s.setCq p q x).ckp = s.ckp := rfl
@[simp] theorem State.setCq_tru (s : State) (p : Fin 65) (q : Nat) (x : Cq) : (s.setCq p q x).tru = s.tru := rfl
@[simp] theorem State.setCq_rdm (s : State) (p : Fin 65) (q : Nat) (x : Cq) : (s.setCq p q x).rdm = s.rdm := rfl
@[simp] theorem State.setCq_eth (s : State) (p : Fin 65) (q : Nat) (x : Cq) : (s.setCq p q x).eth = s.eth := rfl
@[simp] theorem State.setCq_cip (s : State) (p : Fin 65) (q : Nat) (x : Cq) : (s.setCq p q x).cip = s.cip := rfl
@[simp] theorem State.setCq_pwr (s : State) (p : Fin 65) (q : Nat) (x : Cq) : (s.setCq p q x).pwr = s.pwr := rfl

/-! `State.clearScratch` -/

@[simp] theorem State.clearScratch_pending (s : State) (p : Fin 144) : (s.clearScratch p).pending = s.pending := rfl
@[simp] theorem State.clearScratch_regs (s : State) (p : Fin 144) : (s.clearScratch p).regs = s.regs := rfl
@[simp] theorem State.clearScratch_mem (s : State) (p : Fin 144) : (s.clearScratch p).mem = s.mem := rfl
@[simp] theorem State.clearScratch_now (s : State) (p : Fin 144) : (s.clearScratch p).now = s.now := rfl
@[simp] theorem State.clearScratch_freeCtr (s : State) (p : Fin 144) : (s.clearScratch p).freeCtr = s.freeCtr := rfl
@[simp] theorem State.clearScratch_out (s : State) (p : Fin 144) : (s.clearScratch p).out = s.out := rfl
@[simp] theorem State.clearScratch_log (s : State) (p : Fin 144) : (s.clearScratch p).log = s.log := rfl
@[simp] theorem State.clearScratch_pavs (s : State) (p : Fin 144) : (s.clearScratch p).pavs = s.pavs := rfl
@[simp] theorem State.clearScratch_sch (s : State) (p : Fin 144) : (s.clearScratch p).sch = s.sch := rfl
@[simp] theorem State.clearScratch_fab (s : State) (p : Fin 144) : (s.clearScratch p).fab = s.fab := rfl
@[simp] theorem State.clearScratch_que (s : State) (p : Fin 144) : (s.clearScratch p).que = s.que := rfl
@[simp] theorem State.clearScratch_hif (s : State) (p : Fin 144) : (s.clearScratch p).hif = s.hif := rfl
@[simp] theorem State.clearScratch_ldg (s : State) (p : Fin 144) : (s.clearScratch p).ldg = s.ldg := rfl
@[simp] theorem State.clearScratch_gmem (s : State) (p : Fin 144) : (s.clearScratch p).gmem = s.gmem := rfl
@[simp] theorem State.clearScratch_ckp (s : State) (p : Fin 144) : (s.clearScratch p).ckp = s.ckp := rfl
@[simp] theorem State.clearScratch_tru (s : State) (p : Fin 144) : (s.clearScratch p).tru = s.tru := rfl
@[simp] theorem State.clearScratch_rdm (s : State) (p : Fin 144) : (s.clearScratch p).rdm = s.rdm := rfl
@[simp] theorem State.clearScratch_eth (s : State) (p : Fin 144) : (s.clearScratch p).eth = s.eth := rfl
@[simp] theorem State.clearScratch_cip (s : State) (p : Fin 144) : (s.clearScratch p).cip = s.cip := rfl
@[simp] theorem State.clearScratch_pwr (s : State) (p : Fin 144) : (s.clearScratch p).pwr = s.pwr := rfl

@[simp] theorem State.advance_now (s : State) (n : Nat) : (s.advance n).now = s.now + n := rfl
@[simp] theorem State.emit_out (s : State) (o : Out) : (s.emit o).out = o :: s.out := rfl
@[simp] theorem State.setPav_pavs (s : State) (p : Fin 144) (x : Pav) : (s.setPav p x).pavs = s.pavs.set p x := rfl
@[simp] theorem State.setReg_regs (s : State) (off : Nat) (v : BitVec 64) :
    (s.setReg off v).regs = smSet regReset s.regs off v := rfl

/-- Time only moves forward to the moment named. -/
theorem State.atLeast_now (s : State) (t : Nat) : (s.atLeast t).now = max s.now t := by
  simp only [State.atLeast, State.advance_now]; omega

end Sys2Proof.Machine
end

