-- ==== Sys2Proof/Laws/Reg.lean ====
section
/-! SUPPORT. The laws of registers and their fields, and of memory: read after write, and what a write leaves. -/

namespace Sys2Proof.Machine

open Sys2Proof

/-! ### Fields of a word -/

theorem bits_split (n lo w : Nat) : n = n / 2 ^ (lo + w) * 2 ^ (lo + w) + bitsOf n lo w * 2 ^ lo + n % 2 ^ lo := by
  have h1 := Nat.div_add_mod n (2 ^ lo)
  have h2 := Nat.div_add_mod (n / 2 ^ lo) (2 ^ w)
  have h3 : n / 2 ^ (lo + w) = n / 2 ^ lo / 2 ^ w := by rw [Nat.pow_add, Nat.div_div_eq_div_mul]
  rw [h3, bitsOf, Nat.pow_add]
  generalize n / 2 ^ lo / 2 ^ w = c at *
  generalize n / 2 ^ lo % 2 ^ w = b at *
  generalize n % 2 ^ lo = a at *
  generalize n / 2 ^ lo = q at *
  subst h2
  rw [← h1]; ring

theorem putBits_eq (n lo w v : Nat) : putBits n lo w v = n / 2 ^ (lo + w) * 2 ^ (lo + w) + v % 2 ^ w * 2 ^ lo + n % 2 ^ lo := by
  have h := bits_split n lo w
  unfold putBits
  omega

/-- Two parts of a word side by side. -/
theorem parts_lt (a b lo w : Nat) (ha : a < 2 ^ w) (hb : b < 2 ^ lo) : a * 2 ^ lo + b < 2 ^ (lo + w) := by
  calc a * 2 ^ lo + b < a * 2 ^ lo + 2 ^ lo := by omega
    _ = (a + 1) * 2 ^ lo := by ring
    _ ≤ 2 ^ w * 2 ^ lo := Nat.mul_le_mul_right _ (by omega)
    _ = 2 ^ (lo + w) := by rw [Nat.pow_add]; ring

theorem putBits_lt (n lo w v : Nat) (hn : n < 2 ^ 64) (h : lo + w ≤ 64) : putBits n lo w v < 2 ^ 64 := by
  rw [putBits_eq]
  obtain ⟨k, hk⟩ : ∃ k, 64 = lo + w + k := ⟨64 - (lo + w), by omega⟩
  have h1 : n / 2 ^ (lo + w) < 2 ^ k := by
    rw [Nat.div_lt_iff_lt_mul (by positivity), ← Nat.pow_add]; rw [hk] at hn; rwa [Nat.add_comm k]
  have h2 := parts_lt _ _ lo w (Nat.mod_lt v (by positivity)) (Nat.mod_lt n (show 0 < 2 ^ lo by positivity))
  rw [hk, Nat.add_assoc]
  exact parts_lt _ _ (lo + w) k h1 h2

/-- The field written reads as the value, cut to its width. -/
theorem bitsOf_putBits_same (n lo w v : Nat) : bitsOf (putBits n lo w v) lo w = v % 2 ^ w := by
  rw [putBits_eq, bitsOf, Nat.pow_add]
  have e : n / (2 ^ lo * 2 ^ w) * (2 ^ lo * 2 ^ w) + v % 2 ^ w * 2 ^ lo + n % 2 ^ lo =
      n % 2 ^ lo + 2 ^ lo * (n / (2 ^ lo * 2 ^ w) * 2 ^ w + v % 2 ^ w) := by ring
  rw [e, Nat.add_mul_div_left _ _ (by positivity), Nat.div_eq_of_lt (Nat.mod_lt _ (by positivity))]
  simp [Nat.add_mod, Nat.mul_mod_left]

/-- A field above or below the one written keeps its value. -/
theorem bitsOf_putBits_other (n lo w v l k : Nat) (h : l + k ≤ lo ∨ lo + w ≤ l) : bitsOf (putBits n lo w v) l k = bitsOf n l k := by
  rw [putBits_eq]
  conv_rhs => rw [bits_split n lo w]
  have hb : bitsOf n lo w * 2 ^ lo + n % 2 ^ lo < 2 ^ (lo + w) :=
    parts_lt _ _ lo w (Nat.mod_lt _ (by positivity)) (Nat.mod_lt n (by positivity))
  have hv : v % 2 ^ w * 2 ^ lo + n % 2 ^ lo < 2 ^ (lo + w) :=
    parts_lt _ _ lo w (Nat.mod_lt v (by positivity)) (Nat.mod_lt n (by positivity))
  rcases h with h | h
  · obtain ⟨d, rfl⟩ : ∃ d, lo = l + k + d := ⟨lo - (l + k), by omega⟩
    have key : ∀ c a : Nat, bitsOf (c * 2 ^ (l + k + d + w) + a * 2 ^ (l + k + d) + n % 2 ^ (l + k + d)) l k =
        bitsOf (n % 2 ^ (l + k + d)) l k := by
      intro c a
      have e : c * 2 ^ (l + k + d + w) + a * 2 ^ (l + k + d) + n % 2 ^ (l + k + d) =
          n % 2 ^ (l + k + d) + 2 ^ l * (2 ^ k * (c * 2 ^ (d + w) + a * 2 ^ d)) := by
        rw [show l + k + d + w = l + (k + (d + w)) by omega, show l + k + d = l + (k + d) by omega]
        rw [Nat.pow_add 2 l, Nat.pow_add 2 k (d + w), Nat.pow_add 2 l (k + d), Nat.pow_add 2 k d]; ring
      rw [e, bitsOf, bitsOf, Nat.add_mul_div_left _ _ (by positivity), Nat.add_mul_mod_self_left]
    rw [key, key]
  · obtain ⟨d, rfl⟩ : ∃ d, l = lo + w + d := ⟨l - (lo + w), by omega⟩
    have key : ∀ r c : Nat, r < 2 ^ (lo + w) → (c * 2 ^ (lo + w) + r) / 2 ^ (lo + w + d) = c / 2 ^ d := by
      intro r c hr
      rw [Nat.pow_add 2 (lo + w) d, ← Nat.div_div_eq_div_mul, Nat.add_comm, Nat.add_mul_div_right _ _ (by positivity),
        Nat.div_eq_of_lt hr, Nat.zero_add]
    have e1 := key _ (n / 2 ^ (lo + w)) hv
    have e2 := key _ (n / 2 ^ (lo + w)) hb
    rw [← Nat.add_assoc] at e1 e2
    show _ / 2 ^ (lo + w + d) % 2 ^ k = _ / 2 ^ (lo + w + d) % 2 ^ k
    rw [e1, e2]

/-! ### Registers -/

@[simp] theorem State.reg_setReg_same (s : State) (off : Nat) (v : BitVec 64) : (s.setReg off v).reg off = v := by
  simp [State.reg, State.setReg]

theorem State.reg_setReg_other (s : State) (off o : Nat) (v : BitVec 64) (h : o ≠ off) : (s.setReg off v).reg o = s.reg o := by
  simp [State.reg, State.setReg, smGet_smSet_other _ _ _ _ _ h]

theorem State.reg_setFld_other (s : State) (f : Fld) (v o : Nat) (h : o ≠ f.off) : (s.setFld f v).reg o = s.reg o :=
  State.reg_setReg_other s f.off o _ h

/-- The field written reads as the value, cut to its width. -/
theorem State.fld_setFld_same (s : State) (f : Fld) (v : Nat) (h : f.lo + f.w ≤ 64) : (s.setFld f v).fld f = v % 2 ^ f.w := by
  simp only [State.fld, State.setFld, State.reg_setReg_same]
  rw [BitVec.toNat_ofNat, Nat.mod_eq_of_lt (putBits_lt _ _ _ _ (s.reg f.off).isLt h), bitsOf_putBits_same]

/-- A field of another register keeps its value. -/
theorem State.fld_setFld_off (s : State) (f g : Fld) (v : Nat) (h : g.off ≠ f.off) : (s.setFld f v).fld g = s.fld g := by
  simp only [State.fld, State.reg_setFld_other s f v g.off h]

/-- A field of the same register that does not overlap keeps its value. -/
theorem State.fld_setFld_bits (s : State) (f g : Fld) (v : Nat) (hf : f.lo + f.w ≤ 64) (ho : g.off = f.off)
    (h : g.lo + g.w ≤ f.lo ∨ f.lo + f.w ≤ g.lo) : (s.setFld f v).fld g = s.fld g := by
  simp only [State.fld, State.setFld, ho, State.reg_setReg_same]
  rw [BitVec.toNat_ofNat, Nat.mod_eq_of_lt (putBits_lt _ _ _ _ (s.reg f.off).isLt hf), bitsOf_putBits_other _ _ _ _ _ _ h]

theorem State.fld_setReg_off (s : State) (off : Nat) (g : Fld) (v : BitVec 64) (h : g.off ≠ off) : (s.setReg off v).fld g = s.fld g := by
  simp only [State.fld, State.reg_setReg_other s off g.off v h]

/-- Updates of other parts of the state leave the registers. -/
theorem State.reg_congr {s t : State} (h : t.regs = s.regs) (o : Nat) : t.reg o = s.reg o := by simp [State.reg, h]
theorem State.fld_congr {s t : State} (h : t.regs = s.regs) (f : Fld) : t.fld f = s.fld f := by simp [State.fld, State.reg_congr h]

/-! ### Memory -/

/-- A byte written to mapped scratch, or outside the log, reads back. -/
theorem State.byte_setByte_same (s : State) (a : Nat) (v : Byte) (hl : a < 0x4010000000 ∨ 0x4010200000 ≤ a)
    (hs : 0x4000000000 ≤ a → a < 0x4010000000 → (s.phys? ((a - 0x4000000000) / 0x200000)).isSome) : (s.setByte a v).byte a = v := by
  unfold State.setByte
  by_cases h1 : 0x4000000000 ≤ a ∧ a < 0x4010000000
  · rw [if_pos h1]
    obtain ⟨p, hp⟩ := Option.isSome_iff_exists.mp (hs h1.1 h1.2)
    rw [hp]
    have hp' : ({ s with scratch := smSet memDefault s.scratch (p.val * 0x200000 + (a - 0x4000000000) % 0x200000) v } : State).phys?
        ((a - 0x4000000000) / 0x200000) = some p := hp
    simp [State.byte, h1, hp']
  · rw [if_neg h1, if_neg (by omega)]
    have h2 : ¬(0x4010000000 ≤ a ∧ a < 0x4010200000) := by omega
    simp only [State.byte, if_neg h1, if_neg h2, smGet_smSet_same]

/-- A byte of memory that is neither scratch nor log, at another address, keeps its value. -/
theorem State.byte_setByte_other (s : State) (a b : Nat) (v : Byte) (h : b ≠ a) (hb : b < 0x4000000000 ∨ 0x4010200000 ≤ b) :
    (s.setByte a v).byte b = s.byte b := by
  have h1 : ¬(0x4000000000 ≤ b ∧ b < 0x4010000000) := by omega
  have h2 : ¬(0x4010000000 ≤ b ∧ b < 0x4010200000) := by omega
  unfold State.setByte
  split
  · split <;> simp only [State.byte, if_neg h1, if_neg h2]
  · split
    · rfl
    · simp only [State.byte, if_neg h1, if_neg h2, smGet_smSet_other _ _ _ _ _ h]

/-! ### The canonical form -/

theorem State.wf_iff (s : State) : s.wf = true ↔ smWf regReset s.regs = true ∧ Memory.wf s.mem = true ∧ Memory.wf s.scratch = true := by
  simp [State.wf, Bool.and_eq_true, and_assoc]

/-- The form depends on registers, memory and scratch alone. -/
theorem State.wf_congr {s t : State} (hr : t.regs = s.regs) (hm : t.mem = s.mem) (hs : t.scratch = s.scratch) : t.wf = s.wf := by
  simp [State.wf, hr, hm, hs]

theorem State.wf_setReg (s : State) (off : Nat) (v : BitVec 64) (h : s.wf = true) : (s.setReg off v).wf = true := by
  rw [State.wf_iff] at h ⊢
  exact ⟨smWf_smSet _ _ _ _ h.1, h.2⟩

theorem State.wf_setFld (s : State) (f : Fld) (v : Nat) (h : s.wf = true) : (s.setFld f v).wf = true := State.wf_setReg s _ _ h
theorem State.wf_raise (s : State) (f : Fld) (h : s.wf = true) : (s.raise f).wf = true := State.wf_setFld s _ _ h
theorem State.wf_count (s : State) (f : Fld) (k : Nat) (h : s.wf = true) : (s.count f k).wf = true := State.wf_setFld s _ _ h

theorem State.wf_setByte (s : State) (a : Nat) (v : Byte) (h : s.wf = true) : (s.setByte a v).wf = true := by
  rw [State.wf_iff] at h
  unfold State.setByte
  split
  · split
    · rw [State.wf_iff]; exact ⟨h.1, h.2.1, smWf_smSet _ _ _ _ h.2.2⟩
    · rw [State.wf_iff]; exact h
  · split
    · rw [State.wf_iff]; exact h
    · rw [State.wf_iff]; exact ⟨h.1, smWf_smSet _ _ _ _ h.2.1, h.2.2⟩

theorem State.wf_setBytes (b : List Byte) : ∀ (s : State) (a : Nat), s.wf = true → (s.setBytes a b).wf = true := by
  induction b with
  | nil => intro s a h; exact h
  | cons x r ih => intro s a h; exact ih _ _ (State.wf_setByte s a x h)

theorem State.wf_setSbytes (b : List Byte) : ∀ (s : State) (p : Fin 144) (o : Nat), s.wf = true → (s.setSbytes p o b).wf = true := by
  induction b with
  | nil => intro s p o h; exact h
  | cons x r ih =>
    intro s p o h
    refine ih _ _ _ ?_
    rw [State.wf_iff] at h ⊢
    exact ⟨h.1, h.2.1, smWf_smSet _ _ _ _ h.2.2⟩

theorem State.wf_clearScratch (s : State) (p : Fin 144) (h : s.wf = true) : (s.clearScratch p).wf = true := by
  rw [State.wf_iff] at h ⊢
  exact ⟨h.1, h.2.1, smWf_filter _ _ _ h.2.2⟩

theorem State.wf_freeBytes (n : Nat) : ∀ (s : State) (a : Nat), s.wf = true → (s.freeBytes a n).wf = true := by
  induction n with
  | zero => intro s a h; exact h
  | succ n ih =>
    intro s a h
    refine ih _ _ ?_
    have h2 : (s.takeFree 8).2.wf = true := h
    split
    · exact State.wf_setByte _ _ _ h2
    · exact h2

theorem State.wf_logWrite (s : State) (kind block part : Nat) (st : Status) (detail a0 a1 : Nat) (h : s.wf = true) :
    (s.logWrite kind block part st detail a0 a1).wf = true := by
  unfold State.logWrite
  dsimp only
  split
  · exact State.wf_raise _ _ (State.wf_setFld _ _ _ h)
  · exact State.wf_setFld _ _ _ h

theorem State.wf_srcLevel (s : State) (n : Nat) (l : Bool) (h : s.wf = true) : (s.srcLevel n l).wf = true := by
  unfold State.srcLevel
  generalize List.range 3 = r
  induction r generalizing s with
  | nil => exact h
  | cons c r ih =>
    refine ih _ ?_
    have h1 := State.wf_setFld s (fLDG_EV_SRC_RAW c n) (b2n l) h
    dsimp only
    split
    · exact State.wf_setFld _ _ _ h1
    · split
      · exact State.wf_setFld _ _ _ h1
      · exact h1
    · split
      · exact State.wf_setFld _ _ _ h1
      · exact h1
    · split
      · exact State.wf_setFld _ _ _ h1
      · exact h1

theorem State.wf_pulse (s : State) (n : Nat) (h : s.wf = true) : (s.pulse n).wf = true := State.wf_srcLevel _ _ _ (State.wf_srcLevel _ _ _ h)

theorem State.wf_msixSend (s : State) (fn : Fin 2) (v : Nat) (h : s.wf = true) : (s.msixSend fn v).wf = true := by
  unfold State.msixSend
  dsimp only
  split <;> exact h

theorem State.wf_cqSignal (s : State) (p : Fin 65) (q : Nat) (h : s.wf = true) : (s.cqSignal p q).wf = true := by
  unfold State.cqSignal
  split
  · exact h
  · exact State.wf_msixSend _ _ _ h

@[simp] theorem State.wf_setCq (s : State) (p : Fin 65) (q : Nat) (x : Cq) : (s.setCq p q x).wf = s.wf := rfl

/-- A message that leaves on a link changes no cell. -/
@[simp] theorem State.wf_sendWr (s : State) (f : Option Nat) (ro : Nat → Bool) (a : Nat) (b : List Byte) : (s.sendWr f ro a b).wf = s.wf := by
  unfold State.sendWr
  split <;> rfl

theorem State.wf_cqPost (s : State) (p : Fin 65) (q : Nat) (e : CqEntry) (h : s.wf = true) : (s.cqPost p q e).wf = true := by
  unfold State.cqPost
  split
  · exact h
  · split
    · exact h
    · dsimp only
      split
      · exact State.wf_cqSignal _ _ _ (by rw [State.wf_setCq, State.wf_sendWr]; exact State.wf_setBytes _ _ _ h)
      · rw [State.wf_setCq, State.wf_sendWr]; exact State.wf_setBytes _ _ _ h

theorem State.wf_cqBreak (s : State) (p : Fin 65) (q : Nat) (x : Cq) (h : s.wf = true) : (s.cqBreak p q x).wf = true := by
  unfold State.cqBreak
  dsimp only
  split
  · exact State.wf_raise _ _ h
  · exact h

/-- Posting one event to each of several partitions keeps the canonical form if posting it once does. -/
theorem State.wf_foldl_post (post : State → Fin 65 → EvRec → State) (hp : ∀ t d r, t.wf = true → (post t d r).wf = true) (r : EvRec) :
    ∀ (l : List (Fin 65)) (t : State), t.wf = true → (l.foldl (fun t d => post t d r) t).wf = true := by
  intro l
  induction l with
  | nil => intro t ht; exact ht
  | cons d l ih => intro t ht; exact ih _ (hp t d r ht)

theorem State.wf_evWrite (s : State) (post : State → Fin 65 → EvRec → State) (hp : ∀ t d r, t.wf = true → (post t d r).wf = true)
    (p : Fin 65) (q : Nat) (c : Cq) (e : EvRec) (h : s.wf = true) : (s.evWrite post p q c e).wf = true := by
  unfold State.evWrite
  dsimp only
  split
  · exact State.wf_cqPost _ _ _ _ h
  · exact State.wf_foldl_post post hp _ _ _ (State.wf_logWrite _ _ _ _ _ _ _ _ (State.wf_cqBreak _ _ _ _ (State.wf_count _ _ _ h)))

theorem State.wf_evPostN (n : Nat) : ∀ (s : State) (p : Fin 65) (e : EvRec), s.wf = true → (State.evPostN n s p e).wf = true := by
  induction n with
  | zero =>
    intro s p e h
    unfold State.evPostN
    dsimp only
    split
    · exact State.wf_count _ _ _ h
    · split
      · exact State.wf_count _ _ _ h
      · split
        · exact State.wf_cqPost _ _ _ _ h
        · split
          · exact h
          · exact State.wf_count _ _ _ h
  | succ n ih =>
    intro s p e h
    unfold State.evPostN
    dsimp only
    split
    · exact State.wf_count _ _ _ h
    · split
      · exact State.wf_count _ _ _ h
      · split
        · exact State.wf_evWrite _ _ ih _ _ _ _ h
        · split
          · exact h
          · exact State.wf_count _ _ _ h

theorem State.wf_evPost (s : State) (p : Fin 65) (e : EvRec) (h : s.wf = true) : (s.evPost p e).wf = true := by
  exact State.wf_evPostN 3 s p e h

theorem State.wf_event (s : State) (block : Nat) (dests : List (Fin 65)) (e : EvRec) (a : Nat) (h : s.wf = true) :
    (s.event block dests e a).wf = true := by
  unfold State.event
  refine State.wf_foldl_post State.evPost State.wf_evPost e _ _ (State.wf_logWrite _ _ _ _ _ _ _ _ ?_)
  split
  · exact State.wf_pulse _ _ h
  · exact h

theorem State.wf_event0 (s : State) (block code result : Nat) (st : Status) (detail : Nat) (h : s.wf = true) :
    (s.event0 block code result st detail).wf = true := State.wf_event _ _ _ _ _ h

end Sys2Proof.Machine
end

