-- ==== Sys2Proof/Laws/Seq.lean ====
section
/-! SUPPORT. What the operations on sequencers, engines and pavilions leave. -/

namespace Sys2Proof.Machine

open Sys2Proof

@[simp] theorem State.reg_setPav (s : State) (p : Fin 144) (x : Pav) (o : Nat) : (s.setPav p x).reg o = s.reg o := rfl
@[simp] theorem State.fld_setPav (s : State) (p : Fin 144) (x : Pav) (f : Fld) : (s.setPav p x).fld f = s.fld f := rfl
@[simp] theorem State.phys_setPav (s : State) (p : Fin 144) (x : Pav) (l : Nat) : (s.setPav p x).phys? l = s.phys? l := rfl

theorem State.pav_setPav (s : State) (p q : Fin 144) (x : Pav) : (s.setPav p x).pav q = if q = p then x else s.pav q := by
  simp only [State.pav, State.setPav, Fin.getElem_fin]
  rw [Vector.getElem_set]
  by_cases h : q = p
  · simp [h]
  · rw [if_neg (fun e => h (Fin.ext e.symm)), if_neg h]

@[simp] theorem State.pav_setPav_same (s : State) (p : Fin 144) (x : Pav) : (s.setPav p x).pav p = x := by
  simp [State.pav_setPav]

theorem State.pav_setPav_other (s : State) (p q : Fin 144) (x : Pav) (h : q ≠ p) : (s.setPav p x).pav q = s.pav q := by
  simp [State.pav_setPav, h]

@[simp] theorem State.seqOf_setSeq (s : State) (p : Fin 144) (y : Seq) : (s.setSeq p y).seqOf p = y := by
  simp [State.seqOf, State.setSeq]

theorem State.onlySeq_setSeq (s : State) (p : Fin 144) (y : Seq) : s.onlySeq (s.setSeq p y) p y := by
  refine ⟨rfl, by simp [State.setSeq], fun q h => ?_⟩
  rw [State.setSeq, State.pav_setPav_other _ _ _ _ h]

/-- A row that runs on a running sequencer. -/
theorem State.onRun_of_runs {s : State} {l : Fin 128} {p : Fin 144} {x : Seq} {o : Option BOp} (h : s.runs l p x)
    (ho : (s.pav p).fetched = o) (f : Fin 144 → Seq → State) : s.onRun l o f = .next (f p x) := by
  obtain ⟨h1, h2, h3⟩ := h
  simp [State.onRun, h1, h2, h3, ho]

/-- A row whose whole effect is on the running sequencer. -/
theorem State.onRun_seq {s : State} {l : Fin 128} {p : Fin 144} {x : Seq} {o : Option BOp} (h : s.runs l p x)
    (ho : (s.pav p).fetched = o) (f : Fin 144 → Seq → State) (y : Seq) (hf : f p x = s.setSeq p y) :
    ∃ t, s.onRun l o f = .next t ∧ s.onlySeq t p y :=
  ⟨_, by rw [State.onRun_of_runs h ho, hf], State.onlySeq_setSeq s p y⟩

@[simp] theorem Seq.g_setG_same (x : Seq) (i : Fin 16) (v : BitVec 16) : (x.setG i v).g i = v := by
  simp [Seq.g, Seq.setG]

theorem Seq.g_setG_other (x : Seq) (i j : Fin 16) (v : BitVec 16) (h : j ≠ i) : (x.setG i v).g j = x.g j := by
  simp only [Seq.g, Seq.setG, Fin.getElem_fin]
  rw [Vector.getElem_set_ne]
  exact fun e => h (Fin.ext e.symm)

end Sys2Proof.Machine
end

