-- ==== Sys2Proof/Machine/Kernel.lean ====
section
/-! DEFINITION. What the programs of collectives and of the optimizer update compute (R182 to R188, R195 to R207, R209, R210).
They are pavilion programs that the schedule binds: no command of the table carries one, and a pavilion runs them by its
instructions and its engines' commands. The definitions here give their results over the device's memory, so that a claim
about such a program can be stated; no step calls them. What other devices hold reaches them as an argument. -/

namespace Sys2Proof.Machine

open Sys2Proof

/-! ### Virtual ranks (R182, R183, R53 to R55) -/

/-- The shard size of a tensor of `m` elements over `n` virtual ranks (R182). -/
def shardSize (m n : Nat) : Nat := 32 * ceilDiv m (32 * n)

/-- The first global index of rank `j`'s shard, and how many elements it holds (R182). -/
def shardOf (m n j : Nat) : Nat × Nat :=
  (j * shardSize m n, min ((j + 1) * shardSize m n) m - min (j * shardSize m n) m)

/-- The leaf value of a virtual rank at one element: its inputs in order (R183). -/
def leafOf (inputs : List (BitVec 32)) : BitVec 32 := psum inputs

/-- The sum over the virtual ranks' leaves, in rank order (R53). -/
def rankSum (leaves : List (BitVec 32)) : BitVec 32 := psum leaves

/-- A value times 2^k, rounded once (R55, R197, R200, R207). -/
def timesPow2 (x : BitVec 32) (k : Int) : BitVec 32 := fp32 0 ((val32 x).scale k)

/-- The mean over 2^`k` virtual ranks (R55). -/
def rankMean (k : Nat) (sum : BitVec 32) : BitVec 32 := timesPow2 sum (-(k : Int))

/-! ### Arrays in memory (R32, R38) -/

/-- The bytes of `n` elements of a format, an MX tensor completed to whole blocks (R38). -/
def arrayBytes (fmt n : Nat) : Nat := ceilDiv (fmtBits fmt * (if isMx fmt then 32 * ceilDiv n 32 else n)) 8

/-- The codes of `n` elements at `a`. -/
def State.codesAt (s : State) (fmt a n : Nat) : List Nat := unpackNat (fmtBits fmt) n (s.readN a (arrayBytes fmt n))

/-- The FP32 values of `n` elements: decoded exactly (R40, R42, R183). -/
def State.valuesAt (s : State) (fmt a scale n : Nat) : List (BitVec 32) :=
  let sc := if isMx fmt then s.bytes scale (ceilDiv n 32) else []
  (s.codesAt fmt a n).mapIdx (fun i c =>
    if isMx fmt then mxDecode fmt (fieldAt sc (i / 32) 1) c else fp32 0 (codeVal fmt c))

/-- One element of an MX block with the random word of its index (R39, R47, R185). -/
def mxElemSr (c rm : Nat) (x : Int) (r : Nat) (v : FVal) : Nat :=
  match v, fmtOf c with
  | .fin s m e, some f => f.encode rm true r (.fin s m (e - x))
  | .fin s m e, none =>
    let q := if m = 0 then 0 else roundQuot m (e - x + 6) 0 (if rm = 4 then .sr r else magMode rm s)
    twosOf 8 (sgn s (min q 127))
  | _, _ => 0

/-- A block of at most 32 values in an MX format, completed with +0; `rand` gives the random word of the element at its place in
the block (R38, R39, R185). -/
def mxBlockOf (c rm : Nat) (rand : Nat → Nat) (l : List (BitVec 32)) : List Nat × Nat :=
  let v := l.map val32 ++ List.replicate (32 - l.length) (.fin false 0 0)
  let q := mxQuant c 0 v
  if v.any FVal.special ∨ v.all FVal.isZero then q
  else (v.mapIdx (fun i x => mxElemSr c rm ((q.2 : Int) - 127) (rand i) x), q.2)

/-- A list cut into pieces of `k`; at most `n` of them. -/
def piecesOf {α : Type} (k : Nat) : Nat → List α → List (List α)
  | 0, _ => []
  | n + 1, l => if l.isEmpty then [] else l.take k :: piecesOf k n (l.drop k)

/-- A run of values, the first with global index `e`, converted to a format: the bytes of its element array and of its scale
array (R39, R41 to R43, R47, R49). -/
def convertRun (fmt rm : Nat) (sat : Bool) (seed tensor step purpose e : Nat) (l : List (BitVec 32)) : List Byte × List Byte :=
  let rand (i : Nat) : Nat := randomWord seed tensor step purpose i
  if isMx fmt then
    let bs := (piecesOf 32 l.length l).mapIdx (fun k b => mxBlockOf fmt rm (fun i => rand (e + 32 * k + i)) b)
    (leBytes (arrayBytes fmt l.length) (packNat (fmtBits fmt) (bs.flatMap Prod.fst)), bs.map (fun b => BitVec.ofNat 8 b.2))
  else
    (leBytes (arrayBytes fmt l.length) (packNat (fmtBits fmt) (l.mapIdx (fun i x => codeOf fmt rm sat (rand (e + i)) (val32 x)))), [])

/-! ### Collectives (R185 to R188, R195) -/

/-- A collective descriptor (R186). -/
structure Coll where
  op : Nat
  inFmt : Nat
  outFmt : Nat
  mean : Bool
  mxWire : Bool
  outSat : Bool
  outRm : Nat
  vrank : Nat
  tensor : Nat
  count : Nat
  inTab : Nat
  outTab : Nat
  inCount : Nat
  held : Nat
  root : Nat
  wireFmt : Nat
  heldTab : Nat
  seed : Nat
  block : Nat
  /-- No reserved bit is set. -/
  clean : Bool
  deriving DecidableEq, Repr

/-- A collective descriptor read from its 64 bytes (R186). -/
def parseColl (b : List Byte) : Coll :=
  { op := fieldAt b 0 1, inFmt := bitsOf (fieldAt b 1 1) 0 4, outFmt := bitsOf (fieldAt b 1 1) 4 4
    mean := bitOf (fieldAt b 2 2) 0, mxWire := bitOf (fieldAt b 2 2) 1, outSat := bitOf (fieldAt b 2 2) 2
    outRm := bitsOf (fieldAt b 2 2) 3 3, vrank := fieldAt b 4 1, tensor := fieldAt b 6 2, count := fieldAt b 8 8
    inTab := fieldAt b 0x10 8, outTab := fieldAt b 0x18 8, inCount := fieldAt b 0x20 2, held := fieldAt b 0x22 2 + 1
    root := fieldAt b 0x24 2, wireFmt := bitsOf (fieldAt b 0x26 2) 0 4, heldTab := fieldAt b 0x28 8, seed := fieldAt b 0x30 8
    block := fieldAt b 0x38 8
    clean := decide (bitsOf (fieldAt b 2 2) 6 10 = 0 ∧ bitsOf (fieldAt b 0x26 2) 4 12 = 0) }

/-- Does an operation reduce (R185)? -/
def Coll.reduces (d : Coll) : Bool := d.op = 1 || d.op = 3

/-- Are the descriptor's own fields in range (R185, R186)?
(DEDUCED: log 156.) -/
def Coll.ok (d : Coll) : Bool :=
  d.clean && decide (1 ≤ d.vrank ∧ d.vrank ≤ 16) && decide (1 ≤ d.op ∧ d.op ≤ 5 ∧ d.outRm ≤ 4 ∧ 1 ≤ d.count ∧ d.count ≤ 2 ^ 48 ∧ 1 ≤ d.inCount ∧ d.inCount ≤ 64 ∧
    d.held ≤ 2 ^ d.vrank) &&
  (if d.reduces then decide (d.inFmt ≠ 8 ∧ d.inFmt ≠ 9 ∧ d.outFmt ≠ 8 ∧ d.outFmt ≠ 9) && (!d.mxWire || decide (0xA ≤ d.wireFmt))
   else decide (d.outFmt = d.inFmt ∧ d.inCount = 1) && !d.mean && !d.mxWire) &&
  (d.op ≠ 4 || decide (d.root < 2 ^ d.vrank)) &&
  (if d.op = 5 then decide (0 < d.block ∧ d.block % 32 = 0) else decide (d.block = 0))

/-- The elements of a held rank's input and output (R185). -/
def Coll.inLen (d : Coll) (j : Nat) : Nat :=
  if d.op = 2 then (shardOf d.count (2 ^ d.vrank) j).2 else if d.op = 5 then 2 ^ d.vrank * d.block else d.count
def Coll.outLen (d : Coll) (j : Nat) : Nat :=
  if d.op = 1 then (shardOf d.count (2 ^ d.vrank) j).2 else if d.op = 5 then 2 ^ d.vrank * d.block else d.count

/-- The held ranks of a descriptor (R186). -/
def State.heldRanks (s : State) (d : Coll) : List Nat := (List.range d.held).map (fun i => s.readN (d.heldTab + 2 * i) 2)

/-- A table entry: the addresses of an element array and of a scale array (R187). -/
def State.tabEntry (s : State) (tab i : Nat) : Nat × Nat := (s.readN (tab + 16 * i) 8, s.readN (tab + 16 * i + 8) 8)

/-- Does a table entry name arrays of `n` elements in populated memory (R187, R188)? -/
def State.entryOk (s : State) (fmt n : Nat) (x : Nat × Nat) : Bool :=
  decide (x.1 % 64 = 0) && (s.region? x.1 (arrayBytes fmt n)).isSome &&
    (if isMx fmt then decide (x.2 % 64 = 0) && (s.region? x.2 (ceilDiv n 32)).isSome else decide (x.2 = 0))

/-- The check of a collective descriptor (R188): what its STATUS is. `image` is the image header's VRANK_LOG2.
(DEDUCED: log 155.) -/
def State.collCheck (s : State) (d : Coll) (image : Nat) : Status :=
  if d.ok = false ∨ (s.region? d.heldTab (2 * d.held)).isNone ∨ (s.region? d.inTab (16 * d.held * d.inCount)).isNone ∨
      (s.region? d.outTab (16 * d.held)).isNone then .invalidField
  else if d.vrank ≠ image then .invalidState
  else
    let js := s.heldRanks d
    if (List.zip js (js.drop 1)).all (fun x => decide (x.1 < x.2)) && js.all (fun j => decide (j < 2 ^ d.vrank)) &&
        (js.mapIdx (fun h j => (List.range d.inCount).all (fun i =>
          s.entryOk d.inFmt (d.inLen j) (s.tabEntry d.inTab (h * d.inCount + i))) &&
          s.entryOk d.outFmt (d.outLen j) (s.tabEntry d.outTab h))).all id then .ok
    else .invalidField

/-- Write the status of a descriptor's check at its STATUS byte (R186, R188, R203): the low byte of the status. -/
def State.putCheck (s : State) (a : Nat) (st : Status) : State := s.setBytes a (leBytes 1 (statusCode st))

/-- The start of a kernel on the collective descriptor at `a` (R186, R188): its check, STATUS at byte 5, and whether the kernel goes
on; one that does not never reaches WAITE, and its epoch faults with cause PAV_LATE (R107). A descriptor that is not 64-byte
aligned fails the check.
(DEDUCED: log 155.) -/
def State.collStart (s : State) (a : Nat) : State × Bool :=
  let image := match s.sch.active with | some i => i.vrankLog2 | none => 0
  let st := if a % 64 ≠ 0 then Status.invalidField else s.collCheck (parseColl (s.bytes a 64)) image
  (s.putCheck (a + 5) st, decide (st = .ok))

/-- The leaves of the `h`-th held rank (R183). -/
def State.leavesOf (s : State) (d : Coll) (h j : Nat) : List (BitVec 32) :=
  let ins := (List.range d.inCount).map (fun i =>
    let x := s.tabEntry d.inTab (h * d.inCount + i)
    s.valuesAt d.inFmt x.1 x.2 (d.inLen j))
  (List.range (d.inLen j)).map (fun e => leafOf (ins.map (fun l => l.getD e 0)))

/-- The wire records of a shard's leaves (R195, R194): the last one completed with +0. -/
def wireRecords (fmt : Nat) (l : List (BitVec 32)) : List (List Byte) :=
  match wireShape fmt with
  | none => []
  | some (nb, su) => (piecesOf (32 * nb) l.length l).map (fun r =>
      let full := r ++ List.replicate (32 * nb - r.length) 0
      let bs := (piecesOf 32 nb full).map (fun b => mxQuant fmt 0 (b.map val32))
      leBytes 1 fmt ++ bs.map (fun b => BitVec.ofNat 8 b.2) ++ List.replicate (16 * su - 1 - nb) 0 ++
        leBytes (304 - 16 * su) (packNat (fmtBits fmt) (bs.flatMap Prod.fst)))

/-- A wire record decoded to FP32 (R195). -/
def wireValues (r : List Byte) : List (BitVec 32) :=
  let fmt := fieldAt r 0 1
  match wireShape fmt with
  | none => []
  | some (nb, su) => (unpackNat (fmtBits fmt) (32 * nb) (leNat (r.drop (16 * su)))).mapIdx (fun i c =>
      mxDecode fmt (fieldAt r (1 + i / 32) 1) c)

/-- The reduced values of one shard, from every virtual rank's leaves over that shard, in rank order (R185, R195). -/
def Coll.reduceShard (d : Coll) (leaves : List (List (BitVec 32))) : List (BitVec 32) :=
  let n := (leaves.headD []).length
  let sums :=
    if d.mxWire then
      let recs := leaves.map (wireRecords d.wireFmt)
      let node (k : Nat) : List Byte := pairReduce (fun a b => (wireAdd a b).getD []) [] (recs.map (fun l => l.getD k []))
      (((List.range (recs.headD []).length).map node).flatMap wireValues).take n
    else (List.range n).map (fun e => rankSum (leaves.map (fun l => l.getD e 0)))
  if d.mean then sums.map (rankMean d.vrank) else sums

/-- The reduced tensor, shard after shard; `leaves` holds every rank's leaves over the whole tensor (R185).
(DEDUCED: log 155.) -/
def Coll.reduce (d : Coll) (leaves : List (List (BitVec 32))) : List (BitVec 32) :=
  (List.range (2 ^ d.vrank)).flatMap (fun j =>
    let r := shardOf d.count (2 ^ d.vrank) j
    d.reduceShard (leaves.map (fun l => (l.drop r.1).take r.2)))

/-- What a reducing operation writes for rank `j`: the bytes of its element array and of its scale array (R185).
(DEDUCED: log 156.) -/
def Coll.reduceOut (d : Coll) (step : Nat) (leaves : List (List (BitVec 32))) (j : Nat) : List Byte × List Byte :=
  let r := if d.op = 1 then shardOf d.count (2 ^ d.vrank) j else (0, d.count)
  convertRun d.outFmt d.outRm d.outSat d.seed d.tensor step 0x03 r.1 (((d.reduce leaves).drop r.1).take r.2)

/-- What a copying operation gives rank `j`: a list of elements, or of scales, from the lists of the ranks' inputs; `block` is how
many of them a block of ALL_TO_ALL has (R185).
(DEDUCED: log 155.) -/
def Coll.copyOut {α : Type} (d : Coll) (block : Nat) (inputs : List (List α)) (j : Nat) : List α :=
  if d.op = 2 then inputs.flatten
  else if d.op = 4 then inputs.getD d.root []
  else inputs.flatMap (fun l => (l.drop (j * block)).take block)

/-- What a copying operation writes for rank `j`, from the codes and the scales of every rank's input: the bytes of its element
array, and, for an MX format, of its scale array, one scale for each 32 elements (R38, R185).
(DEDUCED: log 155.) -/
def Coll.copyBytes (d : Coll) (inputs : List (List Nat × List Byte)) (j : Nat) : List Byte × List Byte :=
  let es := d.copyOut d.block (inputs.map Prod.fst) j
  (leBytes (arrayBytes d.inFmt es.length) (packNat (fmtBits d.inFmt) es),
   if isMx d.inFmt then d.copyOut (d.block / 32) (inputs.map Prod.snd) j else [])

/-- The input of the `h`-th held rank of a copying operation: its codes and its scales (R187). -/
def State.copyIn (s : State) (d : Coll) (h j : Nat) : List Nat × List Byte :=
  let x := s.tabEntry d.inTab (h * d.inCount)
  (s.codesAt d.inFmt x.1 (d.inLen j), if isMx d.inFmt then s.bytes x.2 (ceilDiv (d.inLen j) 32) else [])

/-- Write an element array and a scale array at the addresses of a table entry (R187). -/
def State.putArrays (s : State) (x : Nat × Nat) (o : List Byte × List Byte) : State := (s.setBytes x.1 o.1).setBytes x.2 o.2

/-- The output of a collective at every held rank, written to the arrays of OUT_TAB (R185, R187): for a reducing operation from
every rank's leaves, for a copying one from every rank's input.
(DEDUCED: log 155.) -/
def State.collWrite (s : State) (d : Coll) (leaves : List (List (BitVec 32))) (inputs : List (List Nat × List Byte)) : State :=
  ((s.heldRanks d).zipIdx).foldl (fun t x =>
    t.putArrays (s.tabEntry d.outTab x.2)
      (if d.reduces then d.reduceOut (s.fld fSCH_STEP_VALUE) leaves x.1 else d.copyBytes inputs x.1)) s

/-! ### The norm epoch (R196 to R201) -/

/-- One copy of the step state block (R196). -/
structure StepState where
  t : BitVec 32
  good : BitVec 32
  ls : Int
  lsMin : Int
  lsMax : Int
  skip : Bool
  lsDyn : Bool
  growth : BitVec 32
  maxNorm : BitVec 32
  clipEps : BitVec 32
  q : BitVec 32
  norm : BitVec 32
  c : BitVec 32
  k : BitVec 32
  step : BitVec 32
  deriving DecidableEq, Repr

/-- A copy read from its 64 bytes (R196). -/
def parseStepState (b : List Byte) : StepState :=
  let w (o : Nat) : BitVec 32 := BitVec.ofNat 32 (fieldAt b o 4)
  { t := w 0, good := w 4, ls := signedOf 8 (fieldAt b 8 1), lsMin := signedOf 8 (fieldAt b 9 1), lsMax := signedOf 8 (fieldAt b 10 1)
    skip := bitOf (fieldAt b 11 1) 0, lsDyn := bitOf (fieldAt b 11 1) 1, growth := w 0x0C, maxNorm := w 0x10, clipEps := w 0x14
    q := w 0x18, norm := w 0x1C, c := w 0x20, k := w 0x24, step := w 0x28 }

/-- The 64 bytes of a copy (R196). -/
def stepStateBytes (x : StepState) : List Byte :=
  leBytes 4 x.t.toNat ++ leBytes 4 x.good.toNat ++ leBytes 1 (twosOf 8 x.ls) ++ leBytes 1 (twosOf 8 x.lsMin) ++
    leBytes 1 (twosOf 8 x.lsMax) ++ leBytes 1 (b2n x.skip + 2 * b2n x.lsDyn) ++ leBytes 4 x.growth.toNat ++
    leBytes 4 x.maxNorm.toNat ++ leBytes 4 x.clipEps.toNat ++ leBytes 4 x.q.toNat ++ leBytes 4 x.norm.toNat ++
    leBytes 4 x.c.toNat ++ leBytes 4 x.k.toNat ++ leBytes 4 x.step.toNat ++ List.replicate 20 0

/-- A virtual rank's partial sum over its tensors' shards, ascending (R197). -/
def normPartial (ls : Int) (tensors : List (List (BitVec 32))) : BitVec 32 :=
  psum (tensors.map (fun l => psum (l.map (fun g => let u := timesPow2 g (-ls); fmul 0 u u))))

/-- Is a sum of squares not finite (R199)? -/
def skips (q : BitVec 32) : Bool := (val32 q).special

/-- The clip factor (R199, R200). -/
def clipFactor (x : StepState) (q norm : BitVec 32) : BitVec 32 :=
  if skips q ∨ (val32 x.maxNorm).isZero ∨ cmpVal (val32 norm) (val32 x.maxNorm) = some .lt ∨
      cmpVal (val32 norm) (val32 x.maxNorm) = some .eq then 0x3F800000
  else fdiv 0 x.maxNorm (fadd 0 norm x.clipEps)

/-- The loss-scale exponent and the finite steps since its change (R201). -/
def lossScale (x : StepState) (skip : Bool) : Int × BitVec 32 :=
  if x.lsDyn = false then (x.ls, x.good)
  else if skip then (max (x.ls - 1) x.lsMin, 0)
  else if x.growth ≤ x.good + 1 then (min (x.ls + 1) x.lsMax, 0)
  else (x.ls, x.good + 1)

/-- The copy that a step's norm epoch writes, from the copy it reads and every rank's partial sum (R196, R198 to R201). On a
skipped step the factor K, of which R200 speaks for a finite Q only, is formed by the same formula.
(DEDUCED: log 156.) -/
def normStep (x : StepState) (parts : List (BitVec 32)) (step : BitVec 32) : StepState :=
  let q := rankSum parts
  let norm := fsqrt 0 q
  let skip := skips q
  let c := clipFactor x q norm
  let l := lossScale x skip
  { x with t := if skip then x.t else x.t + 1, good := l.2, ls := l.1, skip := skip, q := q, norm := norm, c := c,
           k := timesPow2 c (-x.ls), step := step }

/-- The address of the copy that step `n` writes (R196). -/
def stepCopy (base n : Nat) : Nat := base + 64 * (n % 2)

/-! ### The update (R202 to R207) -/

/-- An update descriptor (R203). -/
structure Upd where
  opt : Nat
  nesterov : Bool
  mBf16 : Bool
  vBf16 : Bool
  emitSr : Bool
  emitSat : Bool
  emitFmt : Nat
  emitExp : Int
  tensor : Nat
  recAddr : Nat
  recCount : Nat
  lrLen : Nat
  gAddr : Nat
  emitAddr : Nat
  emitScale : Nat
  lrTab : Nat
  seed : Nat
  stateAddr : Nat
  lr : BitVec 32
  b1 : BitVec 32
  omb1 : BitVec 32
  b2 : BitVec 32
  omb2 : BitVec 32
  eps : BitVec 32
  wd : BitVec 32
  /-- No reserved bit is set. -/
  clean : Bool
  deriving DecidableEq, Repr

/-- An update descriptor read from its 128 bytes (R203). -/
def parseUpd (b : List Byte) : Upd :=
  let w (o : Nat) : BitVec 32 := BitVec.ofNat 32 (fieldAt b o 4)
  let f := fieldAt b 1 1
  { opt := fieldAt b 0 1, nesterov := bitOf f 0, mBf16 := bitOf f 1, vBf16 := bitOf f 2, emitSr := bitOf f 3, emitSat := bitOf f 4
    emitFmt := bitsOf (fieldAt b 2 1) 0 4, emitExp := signedOf 8 (fieldAt b 3 1), tensor := fieldAt b 6 2, recAddr := fieldAt b 8 8
    recCount := fieldAt b 0x10 4, lrLen := fieldAt b 0x14 4, gAddr := fieldAt b 0x18 8, emitAddr := fieldAt b 0x20 8
    emitScale := fieldAt b 0x28 8, lrTab := fieldAt b 0x30 8, seed := fieldAt b 0x38 8, stateAddr := fieldAt b 0x40 8
    lr := w 0x48, b1 := w 0x4C, omb1 := w 0x50, b2 := w 0x54, omb2 := w 0x58, eps := w 0x5C, wd := w 0x60
    clean := decide (bitsOf f 5 3 = 0 ∧ bitsOf (fieldAt b 2 1) 4 4 = 0 ∧ fieldAt b 5 1 = 0) &&
      ((b.drop 0x64).take 28).all (fun x => x = 0) }

/-- Parameters per record (R202). -/
def Upd.perRecord (d : Upd) : Nat :=
  if d.opt = 0 then (if d.mBf16 then 10880 else 8160)
  else match d.mBf16, d.vBf16 with
    | false, false => 5440
    | true, true => 8160
    | _, _ => 6528

/-- Are the fields of an update descriptor in range (R203)? -/
def Upd.ok (d : Upd) : Bool :=
  d.clean && decide (d.opt ≤ 3 ∧ (d.nesterov = false ∨ d.opt = 0) ∧ (d.vBf16 = false ∨ d.opt ≠ 0)) &&
    decide (d.emitFmt ∈ [0x1, 0x2, 0x3, 0x4, 0xA, 0xB, 0xC, 0xD, 0xE]) && !(d.emitSr && isMx d.emitFmt) &&
    decide (-64 ≤ d.emitExp ∧ d.emitExp ≤ 64 ∧ d.recAddr % 65536 = 0 ∧ 1 ≤ d.recCount) &&
    (d.opt = 0 || decide (cmpVal (val32 0) (val32 d.eps) = some .lt))

/-- Parameters that a descriptor's records hold (R202). -/
def State.updParams (s : State) (d : Upd) : Nat := ((List.range d.recCount).map (fun r => s.readN (d.recAddr + 65536 * r + 6) 2)).sum

/-- The check of an update descriptor over every address that it holds (R188, R203).
(DEDUCED: log 155.) -/
def State.updCheck (s : State) (d : Upd) : Status :=
  let n := s.updParams d
  if d.ok && decide (s.region? d.recAddr (65536 * d.recCount) = some .gddr) && (s.region? d.gAddr (4 * n)).isSome &&
      (s.region? d.emitAddr (arrayBytes d.emitFmt n)).isSome && (!isMx d.emitFmt || (s.region? d.emitScale (ceilDiv n 32)).isSome) &&
      (s.region? d.stateAddr 128).isSome && (d.lrLen = 0 || (s.region? d.lrTab (4 * d.lrLen)).isSome) then .ok
  else .invalidField

/-- The start of the update kernel on the descriptor at `a`: as for a collective, with STATUS at byte 4 (R188, R203).
(DEDUCED: log 155.) -/
def State.updStart (s : State) (a : Nat) : State × Bool :=
  let st := if a % 64 ≠ 0 then Status.invalidField else s.updCheck (parseUpd (s.bytes a 128))
  (s.putCheck (a + 4) st, decide (st = .ok))

/-- The reduced gradients of a descriptor's parameters (R203). -/
def State.gradsOf (s : State) (d : Upd) : List (BitVec 32) :=
  (List.range (s.updParams d)).map (fun i => BitVec.ofNat 32 (s.readN (d.gAddr + 4 * i) 4))

/-- The partial sum of a held virtual rank, from the descriptors of its shards: ascending by tensor, within one by the global index
of their first parameter (R197).
(DEDUCED: log 155.) -/
def State.rankPartial (s : State) (ls : Int) (ds : List Upd) : BitVec 32 :=
  let key (d : Upd) : Nat := d.tensor * 2 ^ 64 + s.readN (d.recAddr + 8) 8
  let l := sortBy (fun a b => decide (key a ≤ key b)) ds
  normPartial ls ((l.map (fun d => d.tensor)).eraseDups.map (fun t => (l.filter (fun d => decide (d.tensor = t))).flatMap s.gradsOf))

/-- The norm epoch of step `n`: it reads the other copy and writes this one, from the partial sums of the held ranks and those that
ALL_GATHER brings of the others (R196 to R198).
(DEDUCED: log 155.) -/
def State.normEpoch (s : State) (base n vrank : Nat) (held : List (Nat × List Upd)) (others : List (Nat × BitVec 32)) : State :=
  let x := parseStepState (s.bytes (stepCopy base (n + 1)) 64)
  let part (j : Nat) : BitVec 32 := match alook j held with
    | some ds => s.rankPartial x.ls ds
    | none => (alook j others).getD 0
  s.setBytes (stepCopy base n) (stepStateBytes (normStep x ((List.range (2 ^ vrank)).map part) (BitVec.ofNat 32 n)))

/-- A power by squaring, most significant bit first (R204). -/
def powr (b : BitVec 32) (t : Nat) : BitVec 32 :=
  (List.range 32).foldl (fun r i =>
    let q := fmul 0 r r
    if bitOf t (31 - i) then fmul 0 q b else q) 0x3F800000

/-- An FP32 number with its sign changed. -/
def neg32 (x : BitVec 32) : BitVec 32 := x ^^^ 0x80000000

/-- The scalars of one step (R204). -/
structure UpdScalars where
  lr : BitVec 32
  a : BitVec 32
  ib2 : BitVec 32
  nlrwd : BitVec 32
  deriving DecidableEq, Repr

/-- The scalars of a step, from T of its copy (R204). -/
def State.updScalars (s : State) (d : Upd) (t : Nat) : UpdScalars :=
  let lr : BitVec 32 := if d.lrLen = 0 then d.lr else BitVec.ofNat 32 (s.readN (d.lrTab + 4 * (min t d.lrLen - 1)) 4)
  let bc : Bool := d.opt = 1 || d.opt = 2
  { lr := lr
    a := if bc then fdiv 0 lr (fsub 0 0x3F800000 (powr d.b1 t)) else lr
    ib2 := if bc then fdiv 0 0x3F800000 (fsub 0 0x3F800000 (powr d.b2 t)) else 0x3F800000
    nlrwd := fmul 0 (neg32 lr) d.wd }

/-- A parameter: its weight and its two moments, in FP32. -/
structure Param where
  w : BitVec 32
  m : BitVec 32
  v : BitVec 32
  deriving DecidableEq, Repr

/-- The update of one parameter (R205); `k` is the gradient factor of R200. -/
def Upd.param (d : Upd) (x : UpdScalars) (k g0 : BitVec 32) (p : Param) : Param :=
  let decay : Bool := !(val32 d.wd).isZero
  let g := fmul 0 g0 k
  if d.opt = 0 then
    let g1 := if decay then ffma 0 d.wd p.w g else g
    let m := ffma 0 d.b1 p.m (fmul 0 d.omb1 g1)
    let dir := if d.nesterov then ffma 0 d.b1 m g1 else m
    { p with w := ffma 0 (neg32 x.lr) dir p.w, m := m }
  else
    let g1 := if d.opt = 1 ∧ decay then ffma 0 d.wd p.w g else g
    let w := if 2 ≤ d.opt then ffma 0 x.nlrwd p.w p.w else p.w
    let m := ffma 0 d.b1 p.m (fmul 0 d.omb1 g1)
    let v := ffma 0 d.b2 p.v (fmul 0 d.omb2 (fmul 0 g1 g1))
    let den := fadd 0 (fsqrt 0 (fmul 0 v x.ib2)) d.eps
    { w := ffma 0 (neg32 x.a) (fdiv 0 m den) w, m := m, v := v }

/-- The offsets and widths of a record's m and v arrays (R202). -/
def Upd.mWidth (d : Upd) : Nat := if d.mBf16 then 2 else 4
def Upd.vWidth (d : Upd) : Nat := if d.opt = 0 then 0 else if d.vBf16 then 2 else 4
/-- (DEDUCED: log 156.) -/
def Upd.mOff (d : Upd) : Nat := 0x40 + 4 * d.perRecord
/-- (DEDUCED: log 156.) -/
def Upd.vOff (d : Upd) : Nat := d.mOff + d.mWidth * d.perRecord

/-- A stored number of 2 or 4 bytes in FP32; BF16 widens exactly (R205). -/
def wide (b : List Byte) (o n : Nat) : BitVec 32 :=
  if n = 2 then fp32 0 (codeVal 0x1 (fieldAt b o 2)) else BitVec.ofNat 32 (fieldAt b o n)

/-- Parameter `i` of a record (R202). -/
def Upd.paramAt (d : Upd) (rec : List Byte) (i : Nat) : Param :=
  { w := BitVec.ofNat 32 (fieldAt rec (0x40 + 4 * i) 4), m := wide rec (d.mOff + d.mWidth * i) d.mWidth
    v := wide rec (d.vOff + d.vWidth * i) d.vWidth }

/-- A moment as it is stored: FP32, or narrowed to BF16 with SR (R206).
(DEDUCED: log 156.) -/
def Upd.stored (d : Upd) (bf16 : Bool) (purpose step e : Nat) (x : BitVec 32) : List Byte :=
  if bf16 then leBytes 2 (codeOf 0x1 4 false (randomWord d.seed d.tensor step purpose e) (val32 x)) else leBytes 4 x.toNat

/-- The count and the first global index of a record (R202). -/
def headCount (rec : List Byte) : Nat := fieldAt rec 6 2
def headFirst (rec : List Byte) : Nat := fieldAt rec 8 8

/-- A record after its update in step `step` (R202, R205, R206, R209).
(DEDUCED: log 155.) -/
def Upd.record (d : Upd) (x : UpdScalars) (k : BitVec 32) (step : Nat) (rec : List Byte) (grads : List (BitVec 32)) : List Byte :=
  let n := headCount rec
  let ps := (List.range n).map (fun i => d.param x k (grads.getD i 0) (d.paramAt rec i))
  let rest (o w : Nat) : List Byte := (rec.drop (o + w * n)).take (w * (d.perRecord - n))
  let vs : List Byte := if d.opt = 0 then [] else ps.mapIdx (fun i p => d.stored d.vBf16 0x12 step (headFirst rec + i) p.v) |>.flatten
  leBytes 4 step ++ (rec.drop 4).take 0x3C ++ ps.flatMap (fun p => leBytes 4 p.w.toNat) ++ rest 0x40 4 ++
    (ps.mapIdx (fun i p => d.stored d.mBf16 0x02 step (headFirst rec + i) p.m)).flatten ++ rest d.mOff d.mWidth ++
    vs ++ rest d.vOff d.vWidth ++ rec.drop (d.vOff + d.vWidth * d.perRecord)

/-- What a record emits: the bytes of its elements and of its scales, from its stored weights (R207).
(DEDUCED: log 155.) -/
def Upd.emit (d : Upd) (step : Nat) (rec : List Byte) : List Byte × List Byte :=
  convertRun d.emitFmt (if d.emitSr then 4 else 0) d.emitSat d.seed d.tensor step 0x01 (headFirst rec)
    ((List.range (headCount rec)).map (fun i => timesPow2 (d.paramAt rec i).w d.emitExp))

/-- Is a record left as it is and only emitted again: the step is skipped (R199), or, in a replay, its bit of the commit map is set
or its TAG is the step (R210)? -/
def State.recordKept (s : State) (map : Nat) (st : StepState) (step attempt a : Nat) : Bool :=
  st.skip || (decide (attempt ≠ 0) &&
    (bitOf (s.readN (map + a / 65536 / 8) 1) (a / 65536 % 8) || decide (s.readN a 4 = step)))

/-- Set the bit of the record at `a` in the commit map (R209). -/
def State.setCommit (s : State) (map a : Nat) : State :=
  let b := map + a / 65536 / 8
  s.setBytes b (leBytes 1 (Nat.lor (s.readN b 1) (2 ^ (a / 65536 % 8))))

/-- One record of an update descriptor, at `a`, whose first parameter is parameter `o` of the descriptor (R209, R210). -/
def State.updRecord (s : State) (d : Upd) (map : Nat) (st : StepState) (step attempt a o : Nat) : State :=
  let old := s.bytes a 65536
  let kept := s.recordKept map st step attempt a
  let new := if kept then old
    else d.record (s.updScalars d st.t.toNat) st.k step old
      ((List.range (headCount old)).map (fun i => BitVec.ofNat 32 (s.readN (d.gAddr + 4 * (o + i)) 4)))
  let e := d.emit step new
  let s1 := (s.setBytes (d.emitAddr + o * fmtBits d.emitFmt / 8) e.1).setBytes (d.emitScale + o / 32) e.2
  let s2 := if kept then s1 else s1.setBytes a new
  if st.skip then s2 else s2.setCommit map a

/-- `n` records from `a` on. -/
def State.updRecords (s : State) (d : Upd) (map : Nat) (st : StepState) (step attempt : Nat) : Nat → Nat → Nat → State
  | 0, _, _ => s
  | n + 1, a, o => (s.updRecord d map st step attempt a o).updRecords d map st step attempt n (a + 65536) (o + s.readN (a + 6) 2)

/-- The update of a descriptor's records in an attempt of step `step` (R203 to R210); `map` is the epoch's commit map.
(DEDUCED: log 155.) -/
def State.update (s : State) (d : Upd) (map step attempt : Nat) : State :=
  s.updRecords d map (parseStepState (s.bytes (stepCopy d.stateAddr step) 64)) step attempt d.recCount d.recAddr 0

/-- The GDDR7 traffic that an update epoch declares, for `r` records that hold `p` parameters (R213). -/
def updTraffic (r p : Nat) : Nat := 131072 * r + 4 * p

end Sys2Proof.Machine
end

