-- ==== Sys2Proof/Machine/Package.lean ====
section
/-! DEFINITION. The package (R476 to R492): the balls and their groups, the rails, the resets that the device drives to its
slots, pin levels, the limits that the board keeps. The board's side of these rules acts on no state of the device. -/

namespace Sys2Proof.Machine

open Sys2Proof

/-- Is a position of the 92 × 92 grid populated (R476)? -/
def ballPopulated (col row : Nat) : Bool :=
  let corner (n : Nat) : Bool := n ≤ 3 || 90 ≤ n
  let centre (n : Nat) : Bool := 45 ≤ n && n ≤ 48
  1 ≤ col && col ≤ 92 && 1 ≤ row && row ≤ 92 && !(corner col && corner row) && !(centre col && centre row)

/-- The name of a ball: its column and its row, each as three digits (R476). -/
def ballName (col row : Nat) : String :=
  let d3 (n : Nat) : String := toString (n / 100 % 10) ++ toString (n / 10 % 10) ++ toString (n % 10)
  d3 col ++ "-" ++ d3 row

/-- The edges (R476). -/
inductive Edge where
  | south | north | west | east
  deriving DecidableEq, Repr

/-- Does a ball lie on an edge? -/
def onEdge (e : Edge) (col row : Nat) : Bool :=
  match e with
  | .south => row ≤ 16 | .north => 77 ≤ row | .west => col ≤ 16 | .east => 77 ≤ col

/-- The groups of the balls, with how many each has (R477). -/
def ballGroups : List (String × Nat) :=
  [("serdes", 1152), ("ref_clk", 2), ("gddr7", 1248), ("flash", 12), ("management", 152), ("vcore_sense", 2), ("reserved", 10),
   ("vdd_core", 1400), ("vdd_ser", 300), ("vdd_ser_h", 120), ("vddq_m", 200), ("vdd_io", 20), ("vdd_pll", 8), ("vdd_aon", 6),
   ("vss", 3780)]

/-- The rails (R478). -/
inductive Rail where
  | core | ser | serH | ddr | io | pll | aon
  deriving DecidableEq, Repr

/-- The operating range of a rail, in units of 100 µV; that of vdd_core is around the setpoint of R442, in mV. -/
def railRange (setpoint : Nat) : Rail → Nat × Nat
  | .core => (10 * setpoint - 200, 10 * setpoint + 300)
  | .ser | .aon => (7275, 7725)
  | .serH | .ddr => (11640, 12360)
  | .io => (17100, 18900)
  | .pll => (17460, 18540)

/-- The largest current of a rail, in A (R478). -/
def railCurrent : Rail → Nat
  | .core => 900 | .ser => 180 | .serH => 60 | .ddr => 45 | .io => 6 | .pll => 3 | .aon => 5

/-- The step of power-up in which a rail rises (R480). -/
def railStep : Rail → Nat
  | .aon => 1 | .io | .pll => 2 | .core => 3 | .ser | .serH | .ddr => 4

/-- May a rail that is at `v` rise beside one that is at `w`, in percent of the nominal voltage: no rail of a later step is above 10 %
before each rail of an earlier step has reached its minimum (R480), nor as the rails fall (R481)? -/
def railOrderOk (early late : Rail) (earlyUp : Bool) (latePercent : Nat) : Bool :=
  decide (railStep late ≤ railStep early) || earlyUp || decide (latePercent ≤ 10)

/-- Does the device drive the reset of a slot low (R487): while the slot is EMPTY, OFF, POWERING or FAILED? -/
def State.slotRstLow (s : State) (a : Fin 16) : Bool :=
  let st := s.fld (fHIF_SLOT_STATUS_STATE a.val)
  decide (st ≤ 2 ∨ st = 6)

/-- The absolute maximum of a rail, in mV (R479); every minimum is -300 mV. -/
def railLimit : Rail → Nat
  | .core | .ser | .aon => 950
  | .serH | .ddr => 1400
  | .io | .pll => 2100

/-- An event on the core rail: the largest step in A, and the fastest slew in mA/µs (R485). -/
inductive CoreEvent where
  | ungating | boundaryUp | boundaryDown | clamp
  deriving DecidableEq, Repr
def coreTransient : CoreEvent → Nat × Nat
  | .ungating => (15, 150)
  | .boundaryUp | .boundaryDown => (450, 500000)
  | .clamp => (300, 500000)

/-- The kinds of the management and sideband pins (R487). -/
inductive PinKind where
  | cmos | smbus | i3c | sideIn | sideOut | pumpPwm | tach | thermTrip
  deriving DecidableEq, Repr

/-- VIL and VIH of an input and VOL of an output in mV, where the table gives them (R487). -/
def pinLevels : PinKind → Option (Nat × Nat) × Option Nat
  | .cmos => (some (540, 1260), some 360)
  | .smbus => (some (540, 1260), some 400)
  | .i3c => (some (540, 1260), some 360)
  | .sideIn => (some (800, 2000), none)
  | .sideOut | .pumpPwm | .thermTrip => (none, some 400)
  | .tach => (some (600, 1500), none)

/-- The most that a pin tolerates, in mV, with vdd_io at `io` (R479, R487). -/
def pinTolerates (io : Nat) : PinKind → Nat
  | .cmos => min (io + 300) 2100
  | .i3c => 1980
  | .smbus | .sideIn | .sideOut | .thermTrip => 3600
  | .pumpPwm | .tach => 5500

/-- The level that an input reads: low, high, or neither between the two thresholds (R487). -/
def pinReads (k : PinKind) (mv : Nat) : Option Bool :=
  match (pinLevels k).1 with
  | some (lo, hi) => if mv ≤ lo then some false else if hi ≤ mv then some true else none
  | none => none

/-- The hottest junction in the steady state, in thousandths of a degree (R489): the coolant inlet in thousandths, the power in W, the
cold plate in mK/W, and 25 mK/W of the package. -/
def junction (inlet watts plate : Nat) : Nat := inlet + watts * (plate + 25)

/-- Is a GDDR7 population, the part number at each position, and whether each position carries a clamshell pair, one that can train
(R490, R406): complete, of one part, and clamshell only where the SKU record allows it? -/
def populationOk (parts : List Nat) (clamshell allowed : Bool) : Bool :=
  match parts with
  | p :: _ => parts.all (fun x => x = p) && decide (parts.length = if clamshell then 48 else 24) && (!clamshell || allowed)
  | [] => false

/-- Sizes of the flash, in bits, that the device takes (R492). -/
def flashSizeOk (bits : Nat) : Bool := decide (512 * 2 ^ 20 ≤ bits ∧ bits ≤ 2 ^ 31)

end Sys2Proof.Machine
end

