-- ==== Sys2Proof/Tests/Slice0.lean ====
section
/-! SUPPORT. Tests: ill-formed commands that the check refuses, states that meet the hypotheses of the statements, and single
steps on small states. -/

namespace Sys2Proof.Tests

open Sys2Proof Sys2Proof.Machine

-- one proof at a time: the kernel evaluates most of these, and many at once would need a stack each
set_option Elab.async false

/-! ### The states of the tests -/

/-- `s` with fields set. -/
def withFlds (l : List (Fld × Nat)) (s : State) : State := l.foldl (fun t e => t.setFld e.1 e.2) s

/-- `s` with bytes stored at `a`. -/
def withBytes (a : Nat) (b : List Byte) (s : State) : State := s.setBytes a b

/-- Logical pavilions 0 and 127 are present. -/
def base : State :=
  withFlds [(fPAV_MAP_VALID 0, 1), (fPAV_MAP_PHYS 0, 3), (fPAV_MAP_VALID 127, 1), (fPAV_MAP_PHYS 127, 143)] State.reset

/-- Logical pavilions 2 and 3 are present and coupled. -/
def pair : State :=
  withFlds [(fPAV_MAP_VALID 2, 1), (fPAV_MAP_PHYS 2, 4), (fPAV_MAP_VALID 3, 1), (fPAV_MAP_PHYS 3, 5), (fPAV_PAIR_BITS, 2)] State.reset

/-- A sequencer that runs. -/
def going : Seq := { Seq.reset with mode := .running }

/-- `base` with a sequencer `x` in pavilion 0. -/
def seqBase (x : Seq) : State := base.setSeq 3 x

/-- `pair`'s program with a sequencer `x`. -/
def seqPair (x : Seq) : State := pair.setSeq 4 x

/-- `base` with GDDR7 ready. -/
def memBase : State := withFlds [(fMEM_STATUS_READY, 1)] base

/-- `base` with the block `b`, not started, in the queue of engine 0 of pavilion 0. -/
def engBase (b : List (BitVec 16)) : State :=
  base.setEng 3 0 { base.engOf 3 0 with q := [⟨b, 0, false, []⟩] }

/-- The same with GDDR7 ready. -/
def engMem (b : List (BitVec 16)) : State := withFlds [(fMEM_STATUS_READY, 1)] (engBase b)

/-- A block of class `c` and operation `o` with words 1 to 7. -/
def blk (c o : Nat) (w : List Nat) : List (BitVec 16) := BitVec.ofNat 16 (c * 4096 + o * 64) :: w.map (BitVec.ofNat 16)

theorem engAt_base : base.engAt 0 0 = some (3, 0) := by decide
theorem engAt_memBase : memBase.engAt 0 0 = some (3, 0) := by decide

/-- The block starts next. -/
theorem starts_engBase (b : List (BitVec 16)) : (engBase b).starts 0 0 3 0 0 (blkClass b) (blkOp b) b :=
  ⟨engAt_base, ⟨⟨b, 0, false, []⟩, by rfl, rfl⟩, rfl, rfl⟩
theorem starts_engMem (b : List (BitVec 16)) : (engMem b).starts 0 0 3 0 0 (blkClass b) (blkOp b) b :=
  ⟨engAt_memBase, ⟨⟨b, 0, false, []⟩, by rfl, rfl⟩, rfl, rfl⟩

/-- No operand of a register write but its value. -/
def regX : RegX := ⟨0, false, ⟨false, true, none⟩⟩

/-! ### Ill-formed commands are refused -/

theorem test_wf_registerWrite : Instr.wellFormed (.registerWrite (.host 0) .bar0 0 3 0 regX) = false ∧
    Instr.wellFormed (.registerWrite (.host 0) .bar0 0x8000000 4 0 regX) = false ∧
    Instr.wellFormed (.registerWrite (.host 0) .bar0 0 4 0x100000000 regX) = false ∧
    Instr.wellFormed (.registerWrite (.host 0) .bar0 0 4 0xFFFFFFFF regX) = true := by decide
theorem test_wf_link : Instr.wellFormed (.upLinkUp 0 8 16) = false ∧ Instr.wellFormed (.upLinkUp 0 7 3) = false ∧
    Instr.wellFormed (.slotLinkUp 0 0 16) = false ∧ Instr.wellFormed (.slotLinkUp 0 7 32) = false ∧
    Instr.wellFormed (.upLinkUp 1 7 16) = true := by decide
theorem test_wf_meshRequest : Instr.wellFormed (.meshRequestArrive ⟨0, 0, 0, some [], 8, .ok, false⟩) = false ∧
    Instr.wellFormed (.meshRequestArrive ⟨0, 0, 0, none, 0, .ok, false⟩) = false := by decide
theorem test_wf_meshResponse : Instr.wellFormed (.meshResponseArrive ⟨0, 0, none, .ok, some (0, [1])⟩) = false := by decide
theorem test_wf_semaphoreAdd : Instr.wellFormed (.semaphoreAdd 0 []) = false := by decide
theorem test_wf_flit : Instr.wellFormed (.flitReceive 0 0 0 0 [1, 2, 3]) = false ∧
    Instr.wellFormed (.nakReceive 0 []) = false ∧ Instr.wellFormed (.nakReceive 0 (List.replicate 17 0)) = false ∧
    Instr.wellFormed (.creditReceive 0 [1]) = false := by decide
theorem test_wf_memory : Instr.wellFormed (.memRequest ⟨false, none, 0, none, 0, 0, .ok, false, 0⟩) = false ∧
    Instr.wellFormed (.cxlRequest ⟨false, none, 0, some [], 1, 0, .ok, false, 0⟩) = false ∧
    Instr.wellFormed (.cxlEventRecord 0 [0, 0, 0, 0, 0, 0, 0] 0) = false := by decide
theorem test_wf_pcie : Instr.wellFormed (.bar4Access 0 ⟨0, none, 0, false, .ok⟩) = false ∧
    Instr.wellFormed (.bar4Access 0 ⟨4093, none, 4, false, .ok⟩) = false ∧
    Instr.wellFormed (.inboundAccess 0 ⟨4093, none, 4, false, .ok⟩) = false ∧
    Instr.wellFormed (.romRead 0 0 0) = false ∧ Instr.wellFormed (.bar4Access 0 ⟨4092, none, 4, false, .ok⟩) = true := by decide
theorem test_wf_pwCtr : Instr.wellFormed (.pwCtrWrite 0 0 0 3 0) = false := by decide
theorem test_wf_ethFrame : Instr.wellFormed (.ethFrameReceive 0 ⟨List.replicate 13 0, true, 0, false, none⟩) = false := by decide
theorem test_wf_segments :
    Instr.wellFormed (.distSegmentReceive ⟨0, 0, 1, [], [], 0, true⟩) = false ∧
    Instr.wellFormed (.loaderSegment 0 ⟨0, [], 0⟩) = false := by decide
theorem test_wf_power : Instr.wellFormed (.voltageLoop []) = false ∧ Instr.wellFormed (.voltageLoop (List.replicate 17 0)) = false ∧
    Instr.wellFormed (.sensorScan []) = false := by decide

/-! ### The hypotheses of the statements can be met -/

theorem witness_VectorArithmetic : (∀ o : Fin 40, (engBase (blk 0 o.val [0, 0, 0, 0, 0, 0, 0])).starts 0 0 3 0 0 0 o.val (blk 0 o.val [0, 0, 0, 0, 0, 0, 0])) ∧
    base.engAt 127 7 = some (143, 7) ∧ pair.engAt 2 15 = some (5, 7) :=
  ⟨fun o => ⟨engAt_base, ⟨⟨blk 0 o.val [0, 0, 0, 0, 0, 0, 0], 0, false, []⟩, by rfl, rfl⟩, by revert o; decide, by revert o; decide⟩, by decide, by decide⟩

theorem witness_MinMaxOrder : (val32 0x7FC00001 = .nan) ∧ (val32 0xFF800000 ≠ .nan ∧ val32 0x7F800000 ≠ .nan) ∧
    (val32 0x80000000 ≠ .nan ∧ val32 0 ≠ .nan) := by decide

theorem witness_CanonicalNaN : fadd 0 0x7F800000 0xFF800000 = 0x7FC00000 ∧ val32 (fadd 0 0x7F800000 0xFF800000) = .nan ∧
    val32 0x7F800001 = .nan := by decide

theorem witness_StochasticRounding : 65535 < 65536 ∧ roundQuot 3 0 1 (.sr 32768) = 2 ∧ roundQuot 3 0 1 (.sr 32767) = 1 ∧
    4 % 2 ^ 1 = 0 := by decide

theorem witness_PairwiseSum : ([1, 2, 3, 4] : List (BitVec 32)).length ≤ 2 ^ 2 ∧ ([] : List (BitVec 32)).length ≤ 2 ^ 0 := by decide

theorem witness_ConversionsAndTiles :
    (∀ o : Fin 40, (engBase (blk 0 o.val [0x0401, 0x0400, 0, 0, 0, 0, 0])).starts 0 0 3 0 0 0 o.val (blk 0 o.val [0x0401, 0x0400, 0, 0, 0, 0, 0])) ∧
    (vecOf (blk 0 0x20 [0x0401, 0x0800, 0, 0, 0, 0, 0])).vc ≠ (vecOf (blk 0 0x20 [0x0401, 0x0800, 0, 0, 0, 0, 0])).vd ∧
    (engBase (blk 1 0 [0x440, 0, 64, 0, 0, 0, 0])).starts 0 0 3 0 0 1 0 (blk 1 0 [0x440, 0, 64, 0, 0, 0, 0]) ∧
    (tileK (tileOf (blk 1 0 [0x440, 0, 64, 0, 0, 0, 0])).fmtA (tileOf (blk 1 0 [0x440, 0, 64, 0, 0, 0, 0])).fmtB).isSome ∧
    (engBase (blk 1 1 [0, 0, 0, 0, 0, 0, 0])).starts 0 0 3 0 0 1 1 (blk 1 1 [0, 0, 0, 0, 0, 0, 0]) ∧
    (engBase (blk 4 0 [1, 2, 3, 4, 5, 6, 0x1000])).starts 0 0 3 0 0 4 0 (blk 4 0 [1, 2, 3, 4, 5, 6, 0x1000]) :=
  ⟨fun o => ⟨engAt_base, ⟨⟨blk 0 o.val [0x0401, 0x0400, 0, 0, 0, 0, 0], 0, false, []⟩, by rfl, rfl⟩, by revert o; decide, by revert o; decide⟩,
    by decide, starts_engBase _, by decide, starts_engBase _, starts_engBase _⟩

theorem witness_scratchMapped : base.scratchMapped 0 ∧ pair.scratchMapped 2 := by
  have h : base.coupled 0 = false := by decide
  have h2 : pair.coupled 2 = true := by decide
  constructor
  · refine ⟨fun a _ => ?_, fun a b e => ?_⟩
    · have e : base.spHalf 0 a = 0 := by simp [State.spHalf, h]
      rw [e]; decide
    · simp [State.spHalf, h] at e
  · have e2 : pair.phys? 2 = some 4 := by decide
    have e3 : pair.phys? 3 = some 5 := by decide
    refine ⟨fun a _ => ?_, fun a b e => ?_⟩
    · by_cases ha : 0x200000 ≤ a <;> simp [State.spHalf, h2, ha, e2, e3]
    · by_cases ha : 0x200000 ≤ a <;> by_cases hb : 0x200000 ≤ b <;> simp [State.spHalf, h2, ha, hb, e2, e3] at e ⊢

/-- The block of a GET (0) or PUT (1) of two lines from line 32,766 and an address in GDDR7. -/
def xfer (o : Nat) : List (BitVec 16) := blk 3 o [32766, 2, 0x1000, 0, 0, 0, 0]

theorem witness_ScratchAndMesh :
    (∀ o : Fin 4, (engBase (blk 2 o.val [0, 32752, 0, 0, 0, 0, 0])).starts 0 0 3 0 0 2 o.val (blk 2 o.val [0, 32752, 0, 0, 0, 0, 0]) ∧
      64 * 32752 + 1024 ≤ base.spLimit 0) ∧
    (∀ o, o < 2 → (engMem (xfer o)).starts 0 0 3 0 0 3 o (xfer o) ∧ (engMem (xfer o)).accessSt 0x1000 128 = .ok ∧
      (engMem (xfer o)).noTag 0x1000 128 = false ∧ 64 * 32766 + 128 ≤ (engMem (xfer o)).spLimit 0 ∧
      (engMem (xfer o)).region? 0x1000 128 = some .gddr ∧ (engMem (xfer o)).writeHeld 0x1000 128 (.put 3 0 2) = false ∧
      (engMem (xfer o)).linkOf 0x1000 128 = none) := by
  constructor
  · intro o
    exact ⟨⟨engAt_base, ⟨⟨blk 2 o.val [0, 32752, 0, 0, 0, 0, 0], 0, false, []⟩, by rfl, rfl⟩, by revert o; decide, by revert o; decide⟩, by decide⟩
  · intro o h
    have : o = 0 ∨ o = 1 := by omega
    rcases this with rfl | rfl
    · exact ⟨starts_engMem _, by decide⟩
    · exact ⟨starts_engMem _, by decide⟩

theorem witness_EnginesAndRequests :
    ((engBase (blk 2 0 [0, 32752, 0, 0, 0, 0, 0])).starts 0 0 3 0 0 2 0 (blk 2 0 [0, 32752, 0, 0, 0, 0, 0]) ∧
      inLines (moveLine (blk 2 0 [0, 32752, 0, 0, 0, 0, 0])) 4 32755 = true ∧ base.phys? 0 = some 3 ∧
      1 < xferCount (xfer 0) ∧ (engMem (xfer 0)).noTag (xferAddr (xfer 0)) (64 * xferCount (xfer 0)) = false ∧
      tileReads (tileOf (blk 1 0 [0x440, 0, 64, 0, 0, 0, 0])) 8 64 = true) ∧
    ((base.setPav 3 { base.pav 3 with refusing := true }).phys? 0 = some 3 ∧
      ((base.setPav 3 { base.pav 3 with refusing := true }).pav 3).refusing = true ∧ (base.pav 3).refusing = false ∧
      0x1FFFF8 + 8 ≤ 0x200000 ∧ (base.pav 3).niGen ≠ (base.pav 3).niGen + 1 ∧ 32767 < 32768) :=
  ⟨⟨starts_engBase _, by decide⟩, by decide⟩

/-- Pavilion 0 in reset. -/
def resetting : State := (withFlds [(fPAV_RST_STATUS_BUSY, 1)] base).setPav 3 { base.pav 3 with refusing := true }

theorem witness_PavilionsAndMap :
    (bitsOf 0 16 16 ≠ 0xA55A) ∧ (bitsOf 0xA55A0000 16 16 = 0xA55A ∧ resetting.flag fPAV_RST_STATUS_BUSY = true) ∧
    (base.flag fPAV_RST_STATUS_BUSY = false ∧ base.present (bitsOf 0xA55A0001 0 8) = false) ∧
    (bitsOf 0xA55A007F 0 8 = 127 ∧ base.phys? 127 = some 143 ∧ base.coupled 127 = false ∧ base.bound 127 = false) ∧
    (resetting.phys? 0 = some 3 ∧ (resetting.pav 3).refusing = true ∧ resetting.phys? 1 = none) ∧
    base.running = false := by decide

theorem witness_logicalMap : base.running = false ∧ base.mapBusy = false := by decide +kernel

/-- A running sequencer with a register set. -/
def goingW (i : Fin 16) (v : BitVec 16) : Seq := going.setG i v

/-- `base` with the sequencer `x` in pavilion 0 and the words of `o` at its PC, which is 0. -/
def prog (x : Seq) (o : BOp) : State :=
  (seqBase x).setPav 3 { (seqBase x).pav 3 with imem := smSet 0 (smSet 0 [] 0 (encodeBerin o).1) 1 (encodeBerin o).2 }

theorem seqAt_base : base.seqAt 0 = some 3 := by decide

/-- Its program runs. -/
theorem prog_runs (x : Seq) (o : BOp) (h : x.mode = .running) : (prog x o).runs 0 3 x := ⟨seqAt_base, rfl, h⟩

theorem witness_runs : (seqBase going).runs 0 3 going ∧ (seqPair going).runs 2 4 going := by
  constructor <;> exact ⟨by decide, by decide, by decide⟩

theorem witness_SequencerArithmetic :
    (prog (goingW 1 0x7FFF) (.alu 1 1 (.imm 1))).runsOp 0 3 (goingW 1 0x7FFF) (.alu 1 1 (.imm 1)) ∧
    ∀ o ∈ [BOp.alu 2 3 (.reg 4), .alu 3 3 (.reg 4), .alu 4 3 (.imm 0xFFFF), .alu 8 0 (.reg 15), .addi 7 0x80, .cmpi 7 0xFF, .addp 3 0x80,
      .addpr 1 5 true, .addpr 1 5 false, .addpw 2 0x8000, .cmpp 0 3], ((prog going o).pav 3).fetched = some o :=
  ⟨⟨prog_runs _ _ rfl, by decide⟩, by decide⟩

theorem witness_SequencerLogicAndShifts :
    (∀ o ∈ [BOp.alu 0 1 (.reg 2), .movi 1 0xFF, .alu 5 1 (.reg 2), .alu 6 1 (.imm 0xF0F0), .alu 7 1 (.reg 2), .alu 9 1 (.imm 1),
      .alu 13 1 (.reg 2), .alu 14 1 (.reg 2), .shift 0 1 15, .shift 1 1 0, .shift 2 1 1, .shift 3 1 8, .alu 10 1 (.imm 15),
      .alu 11 1 (.reg 2), .alu 12 1 (.imm 0)], ((prog going o).pav 3).fetched = some o) ∧
    (∀ f ∈ [0xA, 0xB, 0xC], ((((seqBase going).setPav 3 { (seqBase going).pav 3 with imem := [(0, BitVec.ofNat 16 (0x6000 + f)), (1, 16)] }).pav 3).fetch 0
      = (BitVec.ofNat 16 (0x6000 + f), 16))) ∧ 16 ≤ (16 : BitVec 16).toNat ∧ going.inTrap = false := by decide

theorem witness_SequencerBranches :
    (∀ o ∈ [BOp.bcc 0 0x80, .bcc 1 0x7F, .jmp 0xFFFF, .jmpr 3, .nop, .cset 15 1, .dbnz 2 0xFF, .call 0x1234, .callr 14],
      ((prog (goingW 2 1) o).pav 3).fetched = some o) ∧ (goingW 2 1).g 2 = 1 ∧ going.cond 1 = true ∧ going.cond 0 = false := by decide

theorem witness_TrapsAndIdle :
    (∀ o ∈ [BOp.trap 15, .rett 0, .rett 1], ((prog going o).pav 3).fetched = some o) ∧ going.inTrap = false ∧
    (((seqBase going).setPav 3 { (seqBase going).pav 3 with imem := [(0, 0x0100)] }).pav 3).fetched = none ∧
    (prog going .nop).bound 0 = false ∧
    (∀ p x, (prog going .nop).runs 0 p x → ((prog going .nop).pav p).fetched ≠ some (.jmp 0)) ∧
    (∀ p x, ¬ base.runs 0 p x) ∧ (∀ p x, ¬ pair.runs 3 p x) := by
  refine ⟨by decide, by decide, by decide, by decide, fun p x h => ?_, fun p x h => ?_, fun p x h => ?_⟩
  · have e : (prog going .nop).seqAt 0 = some 3 := seqAt_base
    have h1 := h.1
    rw [e] at h1
    injection h1 with h1
    subst h1
    decide
  · obtain ⟨h1, h2, h3⟩ := h
    rw [seqAt_base] at h1
    injection h1 with h1
    subst h1 h2
    revert h3
    decide
  · have e : pair.seqAt 3 = none := by decide
    rw [h.1] at e
    cases e

/-- Words of the instruction table of R93, bit by bit: 0x1231 is ADD w2, w3 (opcode 1, rd 2, rs 3, f 1); 0x6A00 0x1234 MOVW w10;
0x7FA0 would be reserved; 0x71C0 with 0x2405 loads w1 at P0 + 2 × w2 scaled by 1, plus 5; 0xE642 WAITC c2, w1 consuming. -/
theorem test_decode_words :
    decodeBerin 0x1231 0 = some (.alu 1 2 (.reg 3)) ∧ decodeBerin 0x6A00 0x1234 = some (.alu 0 10 (.imm 0x1234)) ∧
    decodeBerin 0x71C0 0x2405 = some (.ld 1 (.index 0 2 1 5)) ∧ decodeBerin 0xE642 0 = some (.waitc 2 1 true) ∧
    decodeBerin 0xD123 0 = some (.issue 1 2 3) ∧ decodeBerin 0xB400 0xABCD = some (.call 0xABCD) ∧
    decodeBerin 0xA0FE 0 = some (.bcc 0 0xFE) ∧ decodeBerin 0x03FF 0 = none ∧ decodeBerin 0xAF00 0 = none ∧
    decodeBerin 0x600A 0x10 = none ∧ decodeBerin 0x100F 0 = none := by decide

theorem witness_BerinRoundTrip :
    (∀ o ∈ [BOp.alu 12 15 (.imm 15), .alu 14 15 (.imm 0xFFFF), .waits 63 15 true, .signal 15 15 true, .bcc 14 0xFF, .ld 15 (.index 3 15 3 0x3FF)],
      o.wellFormed = true) ∧ BOp.wellFormed (.alu 10 0 (.imm 16)) = false := by decide

theorem witness_SequencerMemory :
    (∀ o ∈ [BOp.push 14, .pop 15, .ld 0 (.disp 0 0), .ld 0 (.postInc 3 1), .st 0 (.preDec 3 3), .st 15 (.index 1 15 3 0x200)],
      ((prog (goingW 15 0x8000) o).pav 3).fetched = some o) ∧ ((goingW 15 0x8000).g 15 - 1).toNat ≤ 0x7FFF ∧
    ((goingW 15 0x7FFF).g 15).toNat ≤ 0x7FFF ∧ 0x7FFF < ((goingW 15 0).g 15 - 1).toNat ∧ 0x7FFF < ((goingW 15 0x8000).g 15).toNat ∧
    seqPlace false ((goingW 8 0x7FFF).setG 0 0x7FFF |>.ea (.disp 0 0)).1.toNat = some (.data 0x7FFF) ∧
    seqPlace false 0x1FFFFF = some (.scratch 0x1FFFFE) ∧ seqPlace true 0x2FFFFF = some (.scratch 0x3FFFFE) ∧
    seqPlace false 0x200000 = none ∧ seqPlace false 0x40002F = some (.control 0x2F) ∧ seqPlace false 0x400030 = none ∧
    seqPlace false 0x8000 = none ∧ base.phys? (base.spHalf 0 0x1FFFFE) = some 3 ∧ going.inTrap = false := by
  decide

/-- The block of GEN_SETUP with PURPOSE 0x10, at data-memory address 8. -/
def withBlock (s : State) : State := s.setPav 3 (((s.pav 3).setDword 8 0x4000).setDword 15 0x1000)

/-- An engine queue with `n` commands that have run. -/
def queued (n : Nat) (s : State) : State :=
  s.setEng 3 0 { s.engOf 3 0 with q := List.replicate n ⟨[0x4000, 0, 0, 0, 0, 0, 0, 0x1000], 2, true, []⟩ }

theorem witness_IssueQueues :
    let s := withBlock (prog (goingW 1 8) (.issue 0 1 2))
    ((s.pav 3).fetched = some (.issue 0 1 2) ∧ ((goingW 1 8).g 1).toNat % 8 = 0 ∧ ((goingW 1 8).g 1).toNat ≤ 0x7FF8 ∧ s.engAt 0 0 = some (3, 0) ∧
      s.checkBlock 0 ((s.pav 3).block 8) = none ∧ ((queued 3 s).engOf 3 0).q.length < 4 ∧ 4 ≤ ((queued 4 s).engOf 3 0).q.length) ∧
    ((seqBase { going with mode := .issueStall 0 1 2 }).seqAt 0 = some 3) ∧
    ((queued 1 s).engOf 3 0).q[0]? = some ⟨[0x4000, 0, 0, 0, 0, 0, 0, 0x1000], 2, true, []⟩ ∧ bitOf 0x4000 1 = false ∧
    (s.pav 3).writes = [] ∧ ((engBase (blk 4 0 [])).engOf 3 0).q[0]?.map (fun c => c.ran) = some false ∧
    (((goingW 1 9).g 1).toNat % 8 ≠ 0 ∧ 0x7FF8 < ((goingW 1 0x8000).g 1).toNat ∧ s.engAt 0 8 = none ∧
      s.checkBlock 0 [0x5000, 0, 0, 0, 0, 0, 0, 0] = some 1) := by
  decide

theorem witness_Waits :
    (∀ o ∈ [BOp.waite, .waitc 2 1 true, .waits 63 1 false, .waitidle, .fence], ((prog going o).pav 3).fetched = some o) ∧
    ((seqBase going).seqAt 0 = some 3 ∧ going.mode = .running) ∧
    (((goingW 1 5).g 1).toNat ≤ ({ goingW 1 5 with ctr := going.ctr.set 2 5 }).ctr[2].toNat) ∧
    (((goingW 1 0).g 1).toNat ≤ ((base.pav 3).sems[63]).toNat) ∧ base.engBusy 0 = 0 ∧ (base.pav 3).writes = [] ∧
    SeqMode.since (.waitC 2 1 true 7) = some 7 ∧
    base.waitHolds 0 3 { goingW 1 5 with mode := .waitC 2 1 true 0, wto := 1 } = false := by
  decide

theorem witness_SignalsAndOrder :
    (((prog (goingW 1 0x1FC0) (.signal 1 2 true)).pav 3).fetched = some (.signal 1 2 true) ∧
      ((goingW 1 0x1FC0).g 1).toNat < 0x2000 ∧ base.present (bitsOf ((goingW 1 0x1FC0).g 1).toNat 6 7) = true ∧
      0x2000 ≤ ((goingW 1 0x2000).g 1).toNat ∧ base.present (bitsOf ((goingW 1 0x40).g 1).toNat 6 7) = false) ∧
    (base.setPav 3 { base.pav 3 with held := [⟨127, 0, 1, []⟩] }).phys? 0 = some 3 ∧ base.putHeld 3 0 = false ∧
    (1 : BitVec 8) ≠ (base.pav 3).niGen ∧ (base.phys? 0 = some 3 ∧ base.phys? 127 = some 143 ∧ (143 : Fin 144) ≠ 3) ∧
    ((base.seqOf 3).mode = .held ∧ (base.pav 3).refusing = false) ∧
    ([⟨.gddr 3, 1, 1⟩, ⟨.gddr 9, 1, 2⟩] : List SemAdd).Perm [⟨.gddr 9, 1, 2⟩, ⟨.gddr 3, 1, 1⟩] ∧
    (([⟨.gddr 3, 1, 1⟩, ⟨.gddr 9, 1, 2⟩] : List SemAdd).map (fun x => base.semRank x.src)).Nodup := by
  decide

/-- Fabric port 0 ACTIVE at version 3. -/
def linkBase : State := withFlds [(fFAB_PORT_STATUS_STATE 0, 5), (fFAB_PORT_STATUS_VERSION 0, 3)] base

/-- A reply whose stamps give an offset of `d` picoseconds. -/
def reply (d : Int) (locked : Bool) (depth : Nat) : TsReply := ⟨0, 2 * d, 0, 0, locked, depth⟩

theorem witness_TimeBase :
    (linkBase.portV3 0 = true ∧ linkBase.flag fSCH_TS_CTRL_ROOT = false ∧ linkBase.parentPort? = some 0 ∧ linkBase.sch.lastExch = 0) ∧
    (linkBase.schedPresent = false ∧ linkBase.flag fSCH_TS_STATUS_LOCKED = false ∧
      (0 : Int) ≤ ((reply 0 true 7).t2 - (reply 0 true 7).t1 - ((reply 0 true 7).t4 - (reply 0 true 7).t3)) / 2 ∧
      ((reply (-1) true 7).t2 - (reply (-1) true 7).t1 - ((reply (-1) true 7).t4 - (reply (-1) true 7).t3)) / 2 < (0 : Int) ∧
      ((reply 500 true 7).t2 - (reply 500 true 7).t1 - ((reply 500 true 7).t4 - (reply 500 true 7).t3)) / 2 = (500 : Int)) ∧
    ((withFlds [(fSCH_STATE_RUN, 1)] linkBase).schedPresent = true) ∧
    ((withFlds [(fSCH_TS_CTRL_PULSE_EN, 1)] base).flag fSCH_TS_CTRL_PULSE_EN = true ∧ base.sch.pulse = none) := by decide

/-- An image of one device, device 0: two records of 1,000 slots, each a step, looping to record 0. -/
def image : Image :=
  { id := 7, recs := [⟨1000, true, true, 0, 0⟩, ⟨1000, true, true, 0, 0⟩], loop := 0, devs := [0], vrankLog2 := 1, progs := [], blocks := [none, none] }

/-- It without a loop. -/
def image1 : Image := { image with recs := [⟨1000, true, true, 0, 0⟩], loop := 5, blocks := [none] }

def heldImg : HeldImage := { img := image, idleLoad := true, actTb := 16008, actEpoch := 5, startStep := 9, armed := false, doomed := false }

/-- `s` with the schedule unit changed. -/
def withSch (f : Sch → Sch) (s : State) : State := { s with sch := f s.sch }

theorem witness_SchedulesAndLoads :
    (bitsOf 0xA55A0001 16 16 = 0xA55A ∧ bitsOf 0xA55A0001 0 4 = 1 ∧ base.fld fSCH_STATE_IMG = 0 ∧ base.run = 0 ∧
      (withFlds [(fSCH_STATE_RUN, 1)] base).run = 1 ∧ bitsOf 0 16 16 ≠ 0xA55A ∧ bitsOf 0xA55A0003 0 4 ∉ [0, 1, 2, 4, 8]) ∧
    (bitsOf 0xA55A0002 0 4 = 2 ∧ (withFlds [(fSCH_STATE_IMG, 1)] base).fld fSCH_STATE_IMG = 1 ∧
      (withFlds [(fSCH_STATE_IMG, 2)] base).fld fSCH_STATE_IMG = 2) ∧
    (bitsOf 0xA55A0004 0 4 = 4 ∧ bitsOf 0xA55A0008 0 4 = 8 ∧ (withFlds [(fSCH_STATE_RUN, 3)] base).run = 3) ∧
    (let s := withSch (fun x => { x with held := some heldImg }) (withFlds [(fSCH_STATE_IMG, 1)] base)
     s.fld fSCH_STATE_IMG = 1 ∧ s.sch.load = none ∧ s.sch.held = some heldImg ∧ (∀ d ∈ s.ldg.loads, d.svc = false → d.open = false) ∧
      (s.dropLoads false).recheck heldImg.img = [] ∧ heldImg.doomed = false ∧ s.sch.tb.toNat < heldImg.actTb) := by decide

/-- A load of an image that memory does not hold is refused. -/
theorem witness_loadRefused : (⟨.invalidField, 0x1001, 0, [], 7⟩ : LoadFail).detail < 65536 ∧ Status.dataError ≠ .ok ∧
    (base.lastStatus .ok).checkImage.toOption = none := by decide

theorem witness_Activation :
    let s := withSch (fun x => { x with held := some { heldImg with armed := true }, armed := [⟨7, 0, 8⟩] }) base
    (∀ d ∈ image.devs, ∃ a ∈ s.sch.armed, a.image = image.id ∧ a.dev = d ∧ a.stamp + 16000 ≤ heldImg.actTb) ∧ s.run = 0 ∧
    (∃ d ∈ image.devs, ∀ a ∈ [(⟨7, 0, 9⟩ : ArmedN)], a.image = image.id → a.dev = d → heldImg.actTb < a.stamp + 16000) := by decide

/-- An epoch of record `r` that opened at 0. -/
def openEpoch (r : Nat) (blk : EpochBlock) (moves : List MoveSt) : OpenEpoch :=
  { record := r, opened := 0, lenPaced := 1000, glean := 0, blk := blk, moves := moves, sent := [], metAt := 0, closed := false }

/-- A schedule that runs, at the boundary that closes its epoch. -/
def atEnd (i : Image) (r run : Nat) : State :=
  withSch (fun x => { x with active := some i, epoch := some (openEpoch r EpochBlock.empty []), filled := true, tb := 8000 })
    (withFlds [(fSCH_STATE_RUN, run)] base)

theorem witness_EpochsAndReplays :
    ((atEnd image 1 1).sch.tb.toNat = 0 + 8 * 1000 ∧ image.next? 1 = some 0 ∧ image.next? 0 = some 1 ∧
      (atEnd image 1 1).closingFaults (openEpoch 1 EpochBlock.empty []) (some (image.block 0)) = [] ∧ (atEnd image 1 1).run = 1) ∧
    ((withSch (fun x => { x with filled := false }) (atEnd image 0 1)).closingFaults (openEpoch 0 EpochBlock.empty []) (some EpochBlock.empty) = [11]) ∧
    ((atEnd image1 0 1).running = true ∧ image1.next? 0 = none ∧ (atEnd image1 0 1).closingFaults (openEpoch 0 EpochBlock.empty []) none = []) ∧
    ((atEnd image 0 2).run = 2 ∧ (image.recAt 1).stepStart = true) ∧
    (let s := withSch (fun x => { x with trs := [24000], maxAtt := 3 }) (atEnd image 0 1)
     s.sch.trs = [24000] ∧ s.sch.held = none ∧ s.fld fSCH_ATTEMPT_ATTEMPT < s.sch.maxAtt ∧ s.fld fSCH_ATTEMPT_ATTEMPT < 255) ∧
    (3 ≤ (withFlds [(fSCH_ATTEMPT_ATTEMPT, 3)] (atEnd image 0 1)).fld fSCH_ATTEMPT_ATTEMPT) ∧ (atEnd image 0 1).sch.recorded = false := by
  decide

/-- A notice of device 5. -/
def notice (num : BitVec 16) : Notice := ⟨5, num, 8, 7, 0, 0, 1, 24000, 3, 0⟩

/-- A block of one move of 128 bytes. -/
def moveBlk : EpochBlock := { EpochBlock.empty with moves := [⟨0, 0x1000, 128, 2, 0⟩] }

/-- An epoch with that move, 16 ticks after its opening. -/
def moving (m : MoveSt) : State :=
  withSch (fun x => { x with active := some image, epoch := some (openEpoch 0 moveBlk [m]), filled := true, tb := 16 })
    (withFlds [(fSCH_STATE_RUN, 1)] memBase)

theorem witness_NoticesAndMoves :
    (base.portV3 0 = false ∧ linkBase.portV3 0 = true ∧ linkBase.sch.opens = [] ∧ alook ((5 : Nat), 1) linkBase.sch.seenNum = none ∧
      (1 + 65536 - 65535) % 65536 = 2 ∧ linkBase.sch.epoch = none) ∧
    (let s := atEnd image 0 1
     image.id = (notice 1).image ∧ (notice 1).step.toNat = s.fld fSCH_STEP_VALUE ∧ (notice 1).attempt.toNat = s.fld fSCH_ATTEMPT_ATTEMPT ∧
      s.sch.tb.toNat < (notice 1).tr.toNat ∧ s.running = true ∧ linkBase.running = false) ∧ base.sch.pacePwr < 16 ∧
    (moveBlk.moves[0]? = some ⟨0, 0x1000, 128, 2, 0⟩ ∧ (moving .waiting).sch.chans.length < 16 ∧ 0 + 8 * 2 ≤ (moving .waiting).sch.tb.toNat) ∧
    ((notice 1).stamp.toNat + 16000 ≤ 16008 ∧ paceAt [⟨5, 3, 8⟩] 16008 ≠ paceAt [] 16008) ∧
    ((moving .running).moveSt ⟨0, 0x1000, 128, 2, 0⟩ .ok = .ok ∧ (moving .running).moveSt ⟨0, 0x1000, 128, 2, 0⟩ .timeout ≠ .ok ∧
      (moving .running).holds (.move 0) = false) ∧
    ((moving .running).region? 0x1000 (64 * (128 / 64)) = some .gddr ∧ (moving .running).writeHeld 0x1000 (64 * (128 / 64)) = false ∧
      ¬ (0 < 0x1000 ∧ 0x1000 < 0 + 64 * (128 / 64)) ∧ (moving .running).sch.recorded = false ∧
      (moving .running).phys? (bitsOf 0 6 7) = some 3) := by decide

/-- A schedule image (R122 to R128) of device 0: one record of 1,000 slots that begins and commits its step, no activity; its
CRC-32C stands in the last four bytes. -/
def imgBytes : List Byte :=
  [0x52, 0x5A, 0x53, 0x49, 4, 0, 0, 0, 0xD4, 0, 0, 0, 0, 0, 0, 0] ++ ([7, 0, 0, 0, 0, 0, 0, 0, 1, 0, 0, 0, 0, 0, 0, 0]
  ++ ([1, 0, 1, 0, 0, 0, 0, 0, 0x80, 0, 0, 0, 0, 0, 0, 0] ++ ([0x90, 0, 0, 0, 0, 0, 0, 0, 0, 0, 0, 0, 0, 0, 0, 0]
  ++ ([0, 0, 0, 0, 0, 0, 0, 0, 0, 0, 0, 0, 0, 0, 0, 0] ++ ([0, 0, 0, 0, 0, 0, 0, 0, 0, 0, 0, 0, 0, 0, 0, 0]
  ++ ([0, 0, 0, 0, 0, 0, 0, 0, 0, 0, 0, 0, 0, 0, 0, 0] ++ ([0, 0, 0, 0, 0, 0, 0, 0, 0, 0, 0, 0, 0, 0, 0, 0]
  ++ ([0xE8, 3, 0, 0, 3, 0, 0, 0, 0, 0, 0, 0, 0, 0, 0, 0] ++ ([0, 0, 0, 0, 0x30, 0, 0, 0, 0xA0, 0, 0, 0, 0, 0, 0, 0]
  ++ ([0, 0, 0, 0, 0, 0, 0, 0, 0, 0, 0, 0, 0, 0, 0, 0] ++ ([0x20, 0, 0, 0, 0, 0, 0, 0, 0, 0, 0, 0, 0, 0, 0, 0]
  ++ ([0, 0, 0, 0, 0, 0, 0, 0, 0, 0, 0, 0, 0, 0, 0, 0] ++ ([0x94, 1, 0xF5, 0x62]
 )))))))))))))

theorem crcGo_append (a b : List Byte) : ∀ c, crcGo (a ++ b) c = crcGo b (crcGo a c) := by
  induction a with
  | nil => intro c; rfl
  | cons x r ih => intro c; exact ih _

theorem img_crc : crc32c (imgBytes.take 208) = 0x62F50194 := by
  have e : imgBytes.take 208 = [0x52, 0x5A, 0x53, 0x49, 4, 0, 0, 0, 0xD4, 0, 0, 0, 0, 0, 0, 0] ++ ([7, 0, 0, 0, 0, 0, 0, 0, 1, 0, 0, 0, 0, 0, 0, 0] ++ ([1, 0, 1, 0, 0, 0, 0, 0, 0x80, 0, 0, 0, 0, 0, 0, 0] ++ ([0x90, 0, 0, 0, 0, 0, 0, 0, 0, 0, 0, 0, 0, 0, 0, 0] ++ ([0, 0, 0, 0, 0, 0, 0, 0, 0, 0, 0, 0, 0, 0, 0, 0] ++ ([0, 0, 0, 0, 0, 0, 0, 0, 0, 0, 0, 0, 0, 0, 0, 0] ++ ([0, 0, 0, 0, 0, 0, 0, 0, 0, 0, 0, 0, 0, 0, 0, 0] ++ ([0, 0, 0, 0, 0, 0, 0, 0, 0, 0, 0, 0, 0, 0, 0, 0] ++ ([0xE8, 3, 0, 0, 3, 0, 0, 0, 0, 0, 0, 0, 0, 0, 0, 0] ++ ([0, 0, 0, 0, 0x30, 0, 0, 0, 0xA0, 0, 0, 0, 0, 0, 0, 0] ++ ([0, 0, 0, 0, 0, 0, 0, 0, 0, 0, 0, 0, 0, 0, 0, 0] ++ ([0x20, 0, 0, 0, 0, 0, 0, 0, 0, 0, 0, 0, 0, 0, 0, 0] ++ ([0, 0, 0, 0, 0, 0, 0, 0, 0, 0, 0, 0, 0, 0, 0, 0])))))))))))) := by decide +kernel
  rw [e, crc32c]
  simp only [crcGo_append]
  rw [show crcGo [0x52, 0x5A, 0x53, 0x49, 4, 0, 0, 0, 0xD4, 0, 0, 0, 0, 0, 0, 0] 0xFFFFFFFF = 0x0EDAE898 from by decide +kernel]
  rw [show crcGo [7, 0, 0, 0, 0, 0, 0, 0, 1, 0, 0, 0, 0, 0, 0, 0] 0x0EDAE898 = 0x530D8CC1 from by decide +kernel]
  rw [show crcGo [1, 0, 1, 0, 0, 0, 0, 0, 0x80, 0, 0, 0, 0, 0, 0, 0] 0x530D8CC1 = 0xFE116EF6 from by decide +kernel]
  rw [show crcGo [0x90, 0, 0, 0, 0, 0, 0, 0, 0, 0, 0, 0, 0, 0, 0, 0] 0xFE116EF6 = 0x5D342B88 from by decide +kernel]
  rw [show crcGo [0, 0, 0, 0, 0, 0, 0, 0, 0, 0, 0, 0, 0, 0, 0, 0] 0x5D342B88 = 0xB72DFEDA from by decide +kernel]
  rw [show crcGo [0, 0, 0, 0, 0, 0, 0, 0, 0, 0, 0, 0, 0, 0, 0, 0] 0xB72DFEDA = 0x60924F9C from by decide +kernel]
  rw [show crcGo [0, 0, 0, 0, 0, 0, 0, 0, 0, 0, 0, 0, 0, 0, 0, 0] 0x60924F9C = 0x14CDCD56 from by decide +kernel]
  rw [show crcGo [0, 0, 0, 0, 0, 0, 0, 0, 0, 0, 0, 0, 0, 0, 0, 0] 0x14CDCD56 = 0xA73B7A85 from by decide +kernel]
  rw [show crcGo [0xE8, 3, 0, 0, 3, 0, 0, 0, 0, 0, 0, 0, 0, 0, 0, 0] 0xA73B7A85 = 0xD82081CB from by decide +kernel]
  rw [show crcGo [0, 0, 0, 0, 0x30, 0, 0, 0, 0xA0, 0, 0, 0, 0, 0, 0, 0] 0xD82081CB = 0x1C9DA19E from by decide +kernel]
  rw [show crcGo [0, 0, 0, 0, 0, 0, 0, 0, 0, 0, 0, 0, 0, 0, 0, 0] 0x1C9DA19E = 0xAC03BE24 from by decide +kernel]
  rw [show crcGo [0x20, 0, 0, 0, 0, 0, 0, 0, 0, 0, 0, 0, 0, 0, 0, 0] 0xAC03BE24 = 0x85AF5CE7 from by decide +kernel]
  rw [show crcGo [0, 0, 0, 0, 0, 0, 0, 0, 0, 0, 0, 0, 0, 0, 0, 0] 0x85AF5CE7 = 0x9D0AFE6B from by decide +kernel]
  rfl

/-- The image stands at 0x1000, whole, and the commit map at 0. -/
def imgBase : State :=
  withBytes 0x1000 imgBytes (withFlds [(fSCH_IMG_ADDR_ADDR, 0x1000), (fSCH_IMG_LEN_LEN, 212), (fSCH_STORE_SIZE_SIZE, 1)] memBase)

def imgState : State := imgBase.lastStatus .ok

/-- What the device keeps of it. -/
def imgKept : Image :=
  { id := 7, recs := [⟨1000, true, true, 0, 0⟩], loop := 0, devs := [0], vrankLog2 := 1, progs := [], blocks := [none] }

/-- A well-formed image passes every check of its load. -/
theorem test_checkImage : imgState.checkImage = .ok imgKept := by
  have hh : imgState.bytes (imgState.fld fSCH_IMG_ADDR_ADDR) 128 = imgBytes.take 128 := by decide +kernel
  have hb : imgState.bytes (imgState.fld fSCH_IMG_ADDR_ADDR) 212 = imgBytes := by decide +kernel
  have h8 : fieldAt (imgBytes.take 128) 8 8 = 212 := by decide +kernel
  have hs : bitOf (fieldAt (imgBytes.take 128) 6 2) 0 = false := by decide +kernel
  have hd : findDir imgBytes 208 imgState.devNum = some ((imgBytes.drop 144).take 16) := by decide +kernel
  have h5 : imgState.failures imgKept 208 = [] := by decide +kernel
  have h4 : parseImage imgBytes ((imgBytes.drop (fieldAt ((imgBytes.drop 144).take 16) 8 8)).take (fieldAt ((imgBytes.drop 144).take 16) 4 4)) =
      imgKept := by decide +kernel
  have h6 : (imgState.region? (imgState.fld fSCH_IMG_ADDR_ADDR) (imgState.fld fSCH_IMG_LEN_LEN)) = some .gddr := by decide +kernel
  unfold State.checkImage
  simp only [hh, h6, h8, hb, hs]
  rw [if_neg (by decide +kernel), if_neg (by decide +kernel), if_neg (by decide +kernel)]
  simp only [Bool.false_eq_true, if_false, show (212 - 4 : Nat) = 208 from rfl, img_crc, hd, h4]
  rw [if_neg (by decide +kernel), if_neg (by decide +kernel), if_neg (by decide +kernel), if_neg (by decide +kernel)]
  rw [show 128 + 16 * imgKept.recs.length + 16 * imgKept.devs.length +
    ((imgBytes.drop (fieldAt ((imgBytes.drop 144).take 16) 8 8)).take (fieldAt ((imgBytes.drop 144).take 16) 4 4)).length = 208 from by decide +kernel, h5]

/-- A sown flit for device 0 with SEQ 3, FIRST and LAST: 16 bytes 0xA5 for address 0x1000, target 0. -/
def flitBody : List Byte := [0x0D, 0, 0, 0x84, 1, 0, 0, 4, 0, 0, 0, 0] ++ (List.replicate 16 0xA5 ++ List.replicate 288 0)

/-- It with its CRC-32C. -/
def flit : List Byte := flitBody ++ [0x6D, 0x50, 1, 0x85]

/-- It with one bit of the CRC wrong. -/
def flitBad : List Byte := flitBody ++ [0x6C, 0x50, 1, 0x85]

theorem crcGo_zeros : ∀ (n : Nat) (c : BitVec 32), crcGo (List.replicate (n + 16) 0) c = crcGo (List.replicate n 0) (crcGo (List.replicate 16 0) c) := by
  intro n c
  rw [show List.replicate (n + 16) (0 : Byte) = List.replicate 16 0 ++ List.replicate n 0 from by
    rw [← List.replicate_add, Nat.add_comm], crcGo_append]

theorem flit_crc : crc32c flitBody = 0x8501506D := by
  rw [crc32c, flitBody]
  simp only [crcGo_append]
  rw [show crcGo [0x0D, 0, 0, 0x84, 1, 0, 0, 4, 0, 0, 0, 0] 0xFFFFFFFF = 0x7F951D6C from by decide +kernel]
  rw [show crcGo (List.replicate 16 0xA5) 0x7F951D6C = 0x5D192797 from by decide +kernel]
  rw [crcGo_zeros 272, show crcGo (List.replicate 16 0) 0x5D192797 = 0x5AC30763 from by decide +kernel]
  rw [crcGo_zeros 256, show crcGo (List.replicate 16 0) 0x5AC30763 = 0x9223F0FE from by decide +kernel]
  rw [crcGo_zeros 240, show crcGo (List.replicate 16 0) 0x9223F0FE = 0x4FFA9425 from by decide +kernel]
  rw [crcGo_zeros 224, show crcGo (List.replicate 16 0) 0x4FFA9425 = 0xF24C05AB from by decide +kernel]
  rw [crcGo_zeros 208, show crcGo (List.replicate 16 0) 0xF24C05AB = 0x381C1B23 from by decide +kernel]
  rw [crcGo_zeros 192, show crcGo (List.replicate 16 0) 0x381C1B23 = 0xEB9DACD1 from by decide +kernel]
  rw [crcGo_zeros 176, show crcGo (List.replicate 16 0) 0xEB9DACD1 = 0xE57BE2E2 from by decide +kernel]
  rw [crcGo_zeros 160, show crcGo (List.replicate 16 0) 0xE57BE2E2 = 0x9278F5B2 from by decide +kernel]
  rw [crcGo_zeros 144, show crcGo (List.replicate 16 0) 0x9278F5B2 = 0xEC561809 from by decide +kernel]
  rw [crcGo_zeros 128, show crcGo (List.replicate 16 0) 0xEC561809 = 0x9D4BA5BE from by decide +kernel]
  rw [crcGo_zeros 112, show crcGo (List.replicate 16 0) 0x9D4BA5BE = 0x4BF57B0D from by decide +kernel]
  rw [crcGo_zeros 96, show crcGo (List.replicate 16 0) 0x4BF57B0D = 0xE3497F9C from by decide +kernel]
  rw [crcGo_zeros 80, show crcGo (List.replicate 16 0) 0xE3497F9C = 0x229BB019 from by decide +kernel]
  rw [crcGo_zeros 64, show crcGo (List.replicate 16 0) 0x229BB019 = 0x1291A6D4 from by decide +kernel]
  rw [crcGo_zeros 48, show crcGo (List.replicate 16 0) 0x1291A6D4 = 0x704C9BB8 from by decide +kernel]
  rw [crcGo_zeros 32, show crcGo (List.replicate 16 0) 0x704C9BB8 = 0x6CD28EC4 from by decide +kernel]
  rw [crcGo_zeros 16, show crcGo (List.replicate 16 0) 0x6CD28EC4 = 0x04961651 from by decide +kernel]
  rw [crcGo_zeros 0, show crcGo (List.replicate 16 0) 0x04961651 = 0x7AFEAF92 from by decide +kernel]
  rfl

theorem flit_ok : checkFlit flit = some (flitBody, false) := by
  have e : flit.take 316 = flitBody := by decide +kernel
  unfold checkFlit
  rw [if_neg (by decide +kernel), e]
  simp only [flit_crc]
  decide +kernel

theorem flit_corrected : checkFlit flitBad = some (flitBody, true) := by
  have e : flitBad.take 316 = flitBody := by decide +kernel
  unfold checkFlit
  rw [if_neg (by decide +kernel), e]
  simp only [flit_crc]
  decide +kernel

/-- Port 0 ACTIVE with slot alignment and SEQ 3 expected. -/
def upBase : State :=
  (withFlds [(fFAB_PORT_STATUS_SOWN_OK 0, 1)] linkBase).setPort 0 { FabPort.reset with rxSeq := 3, dsOn := 4, badRun := 14 }

theorem witness_PortTraining :
    (base.gated (base.skuField 8 4) 0 = false ∧ base.portState 0 = 0 ∧ (withFlds [(fFAB_PORT_STATUS_STATE 0, 7)] base).portState 0 = 7 ∧
      linkBase.portState 0 = 5 ∧ (0x103 : BitVec 32).toNat % 2 = 1 ∧ bitOf (0x103 : BitVec 32).toNat 1 = true ∧
      base.now ≤ (base.fport 0).since + trainLimit 2 (base.fport 0).coeffs ∧
      (base.fport 0).since + trainLimit 2 (base.fport 0).coeffs < 2 ^ 40) ∧
    ((withFlds [(fFAB_PORT_STATUS_STATE 23, 1)] base).portState 23 = 1 ∧ (withFlds [(fFAB_PORT_STATUS_STATE 23, 2)] base).portState 23 = 2 ∧
      (withFlds [(fFAB_PORT_STATUS_STATE 23, 4)] base).portState 23 = 4) ∧
    (∀ q : Fin 24, base.portState q.val = 0) ∧ (∃ q : Fin 24, linkBase.portState q.val ≠ 0) ∧
    (bitsOf 0xA55A0002 16 16 = 0xA55A ∧ bitOf 0xA55A0002 1 = true ∧ base.flag fFAB_RT_CTRL_PENDING = false ∧
      (withFlds [(fFAB_RT_CTRL_PENDING, 1)] base).flag fFAB_RT_CTRL_PENDING = true) := by
  refine ⟨by decide, by decide, by decide +kernel, ⟨0, by decide⟩, by decide⟩

theorem witness_LinkLevel :
    (upBase.portUp 0 = true ∧ upBase.sownOk 0 = true ∧ (upBase.fport 0).missing = [] ∧ (upBase.fport 0).rxSeq = 3 ∧ (upBase.fport 0).badRun < 15) ∧
    (checkFlit flit = some (flitBody, false) ∧ checkFlit flitBad = some (flitBody, true) ∧ checkFlit [] = none) ∧
    ((parseHdr flitBody).cls = 1 ∧ (parseHdr flitBody).seq = 3 ∧ seqBefore 3 3 = false ∧ seqBefore 2 3 = true ∧ seqBefore 1023 0 = true) ∧
    (linkBase.sownOk 0 = false ∧ (linkBase.fport 0).missing = [] ∧ (linkBase.fport 0).holdRx = []) := by
  refine ⟨by decide, ⟨flit_ok, flit_corrected, by decide⟩, by decide, by decide⟩

/-- An epoch at whose slot 1 a LOCAL run sends the one flit of a stream on port 0, while a retransmission is due. -/
def sending : State :=
  (withSch (fun x => { x with epoch := some { openEpoch 0 { EpochBlock.empty with
      runs := [⟨1, 1, 0, 1, 1, 0, 0⟩], streams := [⟨0, 0x1000, 304, 0, 0, 0⟩] } [] with sent := [0] }, tb := 8 })
    (withFlds [(fSCH_STATE_RUN, 1)] (withFlds [(fFAB_PORT_STATUS_STATE 0, 5), (fFAB_PORT_STATUS_VERSION 0, 3), (fFAB_PORT_STATUS_SOWN_OK 0, 1)] memBase))).setPort 0
    { FabPort.reset with retx := [(1023, 1)], replay := [⟨1023, .ctrl (.nak []), 0⟩], txSeq := 0 }

theorem witness_SlotTransmission :
    (linkBase.portUp 0 = true ∧ (∀ q : Fin 24, q ≠ 0 → linkBase.portUp q = false) ∧ linkBase.fab.nextTx ≤ linkBase.slot ∧
      linkBase.sch.tb.toNat % 8 = 0 ∧ (linkBase.fport 0).owed = Vector.replicate 16 0 ∧ linkBase.runAt 0 0 = none) ∧
    (volPair ⟨.vol (2 :: List.replicate 315 0), 0, 0, 0⟩ < 16 ∧ { linkBase with fab := { linkBase.fab with genDue := false } }.ownFree = true ∧ (linkBase.fport 0).late = [] ∧
      (linkBase.fport 0).replay.length < 1023 ∧ (linkBase.fport 0).rrIn[0].2 = false) ∧
    (sending.runAt 0 sending.slot = some ⟨1, 1, 0, 1, 1, 0, 0⟩ ∧ 0 < strmFlits ⟨0, 0x1000, 304, 0, 0, 0⟩ ∧
      sending.accessSt (0 + 304 * 0) (min 304 (304 - 304 * 0)) = .ok ∧ 1 ≤ sending.slot ∧
      (sending.fport 0).replay.find? (fun y => y.seq == 1023) = some ⟨1023, .ctrl (.nak []), 0⟩ ∧ (sending.fport 0).replay.length < 1023) := by
  refine ⟨⟨by decide, by decide +kernel, by decide, by decide, by decide, by decide⟩, by decide, by decide⟩

/-- The flit waits in the elastic buffer of port 0, with an epoch open that forwards from port 1 to port 2. -/
def arriving : State :=
  (withSch (fun x => { x with epoch := some (openEpoch 0 { EpochBlock.empty with runs := [⟨0, 100, 2, 2, 1, 1, 0⟩] } []), tb := 80 })
    (withFlds [(fSCH_STATE_RUN, 1)] (withFlds [(fFAB_PORT_STATUS_STATE 0, 5), (fFAB_PORT_STATUS_VERSION 0, 3), (fFAB_PORT_STATUS_SOWN_OK 0, 1)] memBase))).setPort 0
    { FabPort.reset with elastic := [⟨10, 0, 3, some flitBody, none⟩], dsOn := 4 }

theorem witness_SownArrival :
    ((arriving.fport 0).elastic = [⟨10, 0, 3, some flitBody, none⟩] ∧ 8 * 10 ≤ arriving.sch.tb.toNat ∧ (arriving.fport 0).holdRx = []) ∧
    ((parseHdr flitBody).cls = 1 ∧ arriving.fld (fFAB_PORT_STATUS_VERSION 0) = 3 ∧ arriving.epochSlot = some 0 ∧ linkBase.epochSlot = none ∧
      dealTo arriving.transit.1 1 arriving.transit.2 10 0 = some (2, 0) ∧ dealTo arriving.transit.1 0 arriving.transit.2 10 0 = none) ∧
    ((parseHdr flitBody).dst = arriving.devNum ∧ (parseHdr flitBody).op = 0 ∧ (parseHdr flitBody).plen = 1 ∧ flitBody.length = 316 ∧
      (parseHdr flitBody).first = true ∧ (parseHdr flitBody).last = true ∧ (parseHdr flitBody).addr = 0x1000) ∧
    (arriving.region? 0x1000 16 = some .gddr ∧ arriving.accessSt 0x1000 16 = .ok ∧ arriving.writeHeld 0x1000 16 (.port 0) = false ∧ arriving.ckp.held = [] ∧ arriving.ckp.adds = [] ∧ arriving.sownOk 0 = true ∧
      alook ((0 : Nat)) arriving.fab.comps = none ∧ arriving.fab.resetting = false) := by
  refine ⟨by decide +kernel, by decide +kernel, by decide +kernel, by decide⟩

/-- Port 0 up, device 5 routed on port 1, device 0 LOCAL, device 6 unrouted. -/
def routeBase : State :=
  { linkBase with fab := { linkBase.fab with rt := [(0, 0xC0000000), (5, 0xA1000002)] } }

theorem witness_Routing :
    (routeBase.portUp 0 = true ∧ bitOf (routeBase.rtEntry 6) 31 = false ∧ bitOf (routeBase.rtEntry 0) 31 = true ∧ bitOf (routeBase.rtEntry 0) 30 = true) ∧
    (routeBase.flag (fFAB_GEN_KNOWN 5) = false ∧ (withFlds [(fFAB_GEN_KNOWN 5, 1), (fFAB_GEN_GEN 5, 4)] routeBase).flag (fFAB_GEN_KNOWN 5) = true ∧
      (withFlds [(fFAB_GEN_KNOWN 5, 1), (fFAB_GEN_GEN 5, 4)] routeBase).fld (fFAB_GEN_GEN 5) = 4) ∧
    (bitOf (routeBase.rtEntry 5) 31 = true ∧ bitOf (routeBase.rtEntry 5) 30 = false ∧
      (maskPorts (routeBase.rtEntry 5 % 2 ^ 24))[255 % (maskPorts (routeBase.rtEntry 5 % 2 ^ 24)).length]? = some 1 ∧
      routeBase.rtEntry 5 / 2 ^ 24 % 32 = 1) ∧ routeBase.portV3 0 = true := by decide

/-- `base` with GDDR7 ready, and 512 MiB of CXL memory ACTIVE on port 0. -/
def cxlBase : State := withFlds [(fCXM_PORT_STATUS_CAP 0, 2), (fCXM_PORT_STATUS_STATE 0, 3), (fCXM_CREDIT_CREDITS 1, 4)] memBase

def rd (sown : Bool) (part : Option (Fin 65)) (addr len crc : Nat) (e : EccOutcome) : MemReq := ⟨sown, part, addr, none, len, crc, e, false, 0⟩

theorem witness_MemoryRequests :
    (memBase.gddrBytes = 0x1800000000 ∧ 0x17FFFFFFC0 + 64 ≤ memBase.gddrBytes ∧ memBase.flag fMEM_STATUS_READY = true ∧
      base.flag fMEM_STATUS_READY = false ∧ 0x17FFFFFFC0 % 64 = 0 ∧ memBase.writeHeld 0x17FFFFFFC0 64 = false ∧
      (rd false none 0x17FFFFFFC0 64 4 .ok).crcFails ≤ 4 ∧ (rd false none 0 64 0 .ok).bufUe = false ∧ (⟨false, none, 0, some [], 0, 0, .ok, true, 0⟩ : MemReq).bufUe = true ∧ 5 ≤ (rd true none 0 64 5 .ok).crcFails) ∧
    (withFlds [(fSCH_STATE_RUN, 1)] memBase).running = true ∧ memBase.sch.recorded = false ∧
    (cxlBase.regionAt 0x10001FFFFFC0 = some (.cxl 0, 0x100000000000, 0x20000000) ∧ 0x10001FFFFFC0 + 64 ≤ 0x100000000000 + 0x20000000 ∧
      cxlBase.gddrBytes ≤ 0x10001FFFFFC0 ∧ cxlBase.fld (fCXM_CREDIT_CREDITS 2) = 0 ∧ cxlBase.fld (fCXM_CREDIT_CREDITS 1) ≠ 0 ∧
      cxlBase.fld (fCXM_PORT_STATUS_STATE 0) = 3 ∧ (withFlds [(fCXM_PORT_STATUS_STATE 0, 4)] cxlBase).fld (fCXM_PORT_STATUS_STATE 0) ≠ 3) := by
  decide

theorem witness_MemoryControl :
    ({ base with gmem := { base.gmem with training := some (true, 0) } }).gmem.training = some (true, 0) ∧
    ((0xA55A0002 : BitVec 32).toNat / 65536 = 0xA55A ∧ bitOf (0xA55A0002 : BitVec 32).toNat 1 = true ∧ (0 : BitVec 32).toNat / 65536 ≠ 0xA55A) ∧
    (memBase.gated (memBase.skuField 12 2) (8 + 1) = false ∧ memBase.flag fMEM_STATUS_READY = true ∧
      (withFlds [(fCXM_PORT_STATUS_STATE 1, 1)] base).fld (fCXM_PORT_STATUS_STATE 1) = 1 ∧ cxlBase.fld (fCXM_PORT_STATUS_STATE 0) = 3) ∧
    ((4096 : BitVec 32).toNat % 8192 ≤ 4096 ∧
      8192 < ((List.finRange 65).map (fun q : Fin 65 => if q = 0 then 4096 else
        (withFlds [(fCXM_CREDIT_CREDITS 1, 4096), (fCXM_CREDIT_CREDITS 2, 1)] base).fld (fCXM_CREDIT_CREDITS q.val))).sum) ∧
    ((64 : Fin 65) ≠ 0 ∧ (base.part 64).st = .unassigned ∧ (2 ^ 27 : Nat) % 2 ^ 32 ≤ 2 ^ 27) := by
  refine ⟨by decide, by decide, by decide, ⟨by decide, by decide +kernel⟩, by decide⟩

/-- A started command of partition 0 with an opcode and fields (offset, value) of its parameters. -/
def cmdOf (op : Nat) (l : List (Nat × Nat)) : Cmd :=
  { id := 1, part := 0, gen := 0, sq := 0, cid := 3, user := 9, op := op, fence := false, rsvBad := false,
    params := leBytes 48 (l.map (fun x => x.2 * 256 ^ x.1)).sum, fetched := 0, started := true, cq := some 0, freed := none, wait := 0,
    done := none, held := none, paged := false, shaped := false, watch := false, parked := none }

/-- `s` with one fetched command. -/
def withCmd (c : Cmd) (s : State) : State := { s with que := { s.que with cmds := [c] } }

/-- Partition 1's placement table of two entries at 0x1000: entry 0 names page 1, entry 1 names page 2 and is BUSY. -/
def placed : State :=
  withBytes 0x1000 (leBytes 8 (2 ^ 63 + 1) ++ leBytes 8 (2 ^ 63 + 2 ^ 61 + 2)) (withFlds [(fMEM_PT_BASE_BASE 1, 0x1000), (fMEM_PT_LEN_LEN 1, 2)] memBase)

def migCmd (n : Nat) : Cmd := cmdOf 0x10 [(0, 1), (4, n), (8, 0x600000)]

theorem witness_migrate :
    let s := withCmd (migCmd 0) placed
    (s.doing 1 0x10 (migCmd 0) ∧ (migCmd 0).f 0 1 = 1 ∧ (migCmd 1).f 4 4 = 1 ∧ (migCmd 0).f 8 8 = 0x600000 ∧
      (migCmd 0).clean [at8 0 0 8, at8 4 0 32, at8 8 0 64] = true) ∧
    (s.migDst 0x600000 = true ∧ 1 < s.fld (fMEM_PT_LEN_LEN 1) ∧ s.region? (s.ptAddr 1 0) 8 = some .gddr ∧ s.flag fMEM_STATUS_READY = true ∧
      s.migSrc (s.ptEntry 1 0) = some 0x200000 ∧ (∀ m ∈ s.gmem.migs, m.cmd ≠ 1) ∧ bitOf (s.ptEntry 1 1) 61 = true ∧
      bitOf (s.ptEntry 1 0) 61 = false ∧ s.gmem.migs.length < 16 ∧ s.usable 0 [(0x200000, 0x200000), (0x600000, 0x200000)] = .ok ∧
      s.writeHeld (s.ptAddr 1 0) 8 = false) ∧ s.rdm.qps = [] ∧ s.rdm.late = [] := by
  refine ⟨by unfold State.doing; decide +kernel, by decide +kernel, by decide, by decide⟩

/-- A migration from the memory of CXL port 0 runs when the link goes down. -/
theorem witness_linkDown :
    let m : Mig := ⟨1, 1, 0x1000, 0x100000000000, 0x600000⟩
    let s : State := { withCmd (migCmd 0) cxlBase with gmem := { cxlBase.gmem with migs := [m] } }
    s.fld (fCXM_PORT_STATUS_STATE 0) = 3 ∧ s.cmd? 1 = some (migCmd 0) ∧ (migCmd 0).done = none ∧ (migCmd 0).op = 0x10 ∧ m.cmd = 1 ∧
      s.gmem.svcRun = [] ∧ s.gmem.migs = [m] ∧ s.rdm.qps = [] ∧ s.rdm.late = [] ∧
      s.regionAt m.src = some (.cxl 0, 0x100000000000, 0x20000000) := by decide +kernel

theorem witness_migrateComplete :
    let m : Mig := ⟨1, 1, 0x1000, 0x200000, 0x600000⟩
    let s : State := { withCmd (migCmd 0) placed with gmem := { placed.gmem with migs := [m] } }
    s.gmem.migs.find? (fun m => m.cmd = 1) = some m ∧ s.region? m.entry 8 = some .gddr ∧ s.writeHeld m.entry 8 = false ∧
      s.region? m.dst 0x200000 = some .gddr ∧ m.dst % 0x200000 = 0 ∧ s.writeHeld m.dst 0x200000 = false ∧ m.entry + 8 ≤ m.dst := by
  refine ⟨by decide, by decide +kernel, by decide +kernel, by decide +kernel, by decide, ?_, by decide⟩
  have h : ∀ (s : State), s.ckp.sheaf = none → s.ckp.held = [] → ∀ a n, s.writeHeld a n = false := by
    intro s h1 h2 a n
    simp [State.writeHeld, State.unsaved, h1, h2]
  exact h _ rfl rfl _ _

/-- A granary of one layer, one head, D 64 and E4M3 elements: pages at 0x10000, summaries at 0x40000, sealed counts at 0x50000. -/
def granary : List Byte :=
  leBytes 4 0x47524E59 ++ leBytes 2 1 ++ leBytes 2 3 ++ leBytes 2 1 ++ leBytes 2 1 ++ leBytes 2 64 ++ leBytes 2 0 ++ leBytes 4 2 ++ leBytes 4 0 ++
    leBytes 8 0x10000 ++ leBytes 8 0x40000 ++ leBytes 8 0x50000

def sealCmd (page : Nat) : Cmd := cmdOf 0x02 [(0, 0x1000), (8, 0x8000), (16, 77), (24, page), (28, 64)]
def attCmd (pages : Nat) : Cmd := cmdOf 0x03 [(0, 0x1000), (8, 0x9000), (16, 0x60000), (32, pages), (42, 1), (43, 1)]

/-- The granary stands at 0x1000; pavilion 0 serves. -/
def granBase (c : Cmd) : State :=
  { withCmd c (withBytes 0x1000 granary (withFlds [(fCXM_SVC_MASK0_BITS, 1)] memBase)) with
    que := { memBase.que with cmds := [c], sqs := [((0, 0), ⟨.active, 0, 4, 2, 0, 0, 0, 0, none⟩)] } }

def gran : Gran := ⟨3, 1, 1, 64, 2, 0x10000, 0x40000, 0x50000⟩

theorem witness_serviceRequestStart :
    base.svcFree? = none ∧
    (let s := granBase (sealCmd 0)
     s.svcFree? = some 0 ∧ s.chooseBy s.svcSqs s.que.rrSvc = some (0, 0, 2) ∧ s.svcOf 0 0 = some (sealCmd 0) ∧ s.cmd? 1 = some (sealCmd 0) ∧
      s.sealOf (sealCmd 0) = .ok (gran, 0, 0, 64) ∧ s.sealOf (sealCmd 2) = .ok (gran, 0, 2, 64) ∧
      s.partRead 0 (gran.sealedAt 0) 4 = .ok [0, 0, 0, 0]) ∧
    (let s := granBase (attCmd 0)
     s.attOf (attCmd 0) = .ok ⟨gran, 0, 0, 0, 1, true⟩ ∧ s.attOf (attCmd 1) = .ok ⟨gran, 0, 1, 0, 1, true⟩ ∧ s.svcOf 0 0 = some (attCmd 0)) := by
  refine ⟨by decide +kernel, by decide +kernel, by decide +kernel⟩

/-- The service pavilion carries the command out. -/
def serving (c : Cmd) : State := { granBase c with gmem := { memBase.gmem with svcRun := [(1, 0)] } }

theorem witness_seal :
    let s := serving (sealCmd 0)
    s.doing 1 0x02 (sealCmd 0) ∧ (∃ l, (1, l) ∈ s.gmem.svcRun) ∧ s.sealOf (sealCmd 0) = .ok (gran, 0, 0, 64) ∧
      (∃ src, s.partRead 0 ((sealCmd 0).f 8 8) gran.pageBytes = .ok src) ∧
      (s.partRanges 0 (gran.pageAt 0 0) gran.pageBytes = .ok [(0x10000, 8192)] ∧ gran.pageAt 0 0 = 0x10000 ∧ gran.pageBytes = 8192) ∧
      (s.partRanges 0 (gran.sumAt 0 0) gran.sumBytes = .ok [(0x40000, 320)] ∧ gran.sumAt 0 0 = 0x40000 ∧ gran.sumBytes = 320) ∧
      (s.partRanges 0 (gran.sealedAt 0) 4 = .ok [(0x50000, 4)] ∧ gran.sealedAt 0 = 0x50000) ∧
      s.plainAt 0x10000 8192 ∧ s.plainAt 0x40000 320 ∧ s.plainAt 0x50000 4 := by
  refine ⟨by unfold State.doing; decide +kernel, ⟨0, by decide⟩, by decide +kernel, ?_, by decide +kernel, by decide +kernel,
    by decide +kernel, by unfold State.plainAt; decide +kernel, by unfold State.plainAt; decide +kernel, by unfold State.plainAt; decide +kernel⟩
  have h : (serving (sealCmd 0)).translate 0 ((sealCmd 0).f 8 8) gran.pageBytes false = .ok [(0x8000, 8192)] := by decide +kernel
  have u : (serving (sealCmd 0)).usable 0 [(0x8000, 8192)] = .ok := by decide +kernel
  have v : (serving (sealCmd 0)).noTag 0x8000 8192 = false := by decide +kernel
  exact ⟨(serving (sealCmd 0)).rangeBytes [(0x8000, 8192)], by unfold State.partRead; rw [h]; simp [u, v]⟩

theorem witness_attend :
    (let s := serving (attCmd 0)
     s.doing 1 0x03 (attCmd 0) ∧ (attCmd 0).f 24 8 = 0 ∧ s.attOf (attCmd 0) = .ok ⟨gran, 0, 0, 0, 1, true⟩ ∧
      s.partRanges 0 0x60000 320 = .ok [(0x60000, 320)]) ∧
    ((serving (attCmd 1)).attOf (attCmd 1) = .ok ⟨gran, 0, 1, 0, 1, true⟩) := by
  refine ⟨⟨by unfold State.doing; decide +kernel, by decide, by decide +kernel, by decide +kernel⟩, by decide +kernel⟩

/-- Bytes from fields (offset, value), `n` in all. -/
def packed (n : Nat) (l : List (Nat × Nat)) : List Byte := leBytes n (l.map (fun x => x.2 * 256 ^ x.1)).sum

/-- A sheaf descriptor of one COPY region of 4 MiB at 0x400000, to namespace 2; `imm` is IMMEDIATE. -/
def sheafDesc (imm : Nat) : List Byte :=
  packed 64 [(0, 1), (2, imm), (4, 1), (6, 50), (7, 22), (8, 5), (0x10, 7), (0x14, 3), (0x15, 2), (0x18, 0x10000), (0x20, 0x1000000), (0x28, 0x2000),
    (0x30, 0x3000)]

def ckpBase (imm run : Nat) : State :=
  withBytes 0x3000 (packed 48 [(0, 0x400000), (8, 0x400000), (17, 4)]) (withBytes 0x1000 (sheafDesc imm)
    (withFlds [(fCKP_RES_BASE_BASE, 0x100000000), (fCKP_WORK_BASE_BASE, 0x200000000), (fSCH_STATE_RUN, run)] memBase))

def sheafCmd : Cmd := cmdOf 0x11 [(0, 0x1000)]

/-- The sheaf that the descriptor gives. -/
def sheaf : Sheaf :=
  { cmd := some 1, trigger := 0, shardLog2 := 22, id := 5, stepHint := 7, destKind := 3, share := 50, target := 2, destBase := 0x10000,
    destLimit := 0x1000000, manLoc := 0x2000, userAddr := 0, regions := [⟨0x400000, 0x400000, 0, 4, 0, 0, 0, 0, 0⟩], snap := none, saved := [],
    captured := [], slots := [], diverting := [], next := 0, pos := 0, entries := [] }

theorem witness_sheaf :
    (let s := withCmd sheafCmd (ckpBase 0 1)
     s.doing 1 0x11 sheafCmd ∧ sheafCmd.clean [at8 0 0 64] = true ∧ s.ckp.sheaf = none ∧ s.readSheaf (sheafCmd.f 0 8) (some 1) 0 none = .ok sheaf ∧
      s.fld fCKP_RES_BASE_BASE ≠ 0 ∧ s.fld fCKP_WORK_BASE_BASE ≠ 0 ∧ s.ckpPhase = 0 ∧ s.run = 1 ∧ s.sheafNow (sheafCmd.f 0 8) = false) ∧
    ((withCmd sheafCmd (ckpBase 1 1)).sheafNow (sheafCmd.f 0 8) = true ∧ (withCmd sheafCmd (ckpBase 0 0)).run ≠ 1) ∧
    ((withCmd sheafCmd memBase).readSheaf (sheafCmd.f 0 8) (some 1) 0 none = .fail .versionMismatch) ∧
    ((withFlds [(fCKP_STATE_PHASE, 4)] (ckpBase 0 1)).ckpPhase ≠ 0) := by
  refine ⟨by unfold State.doing; decide +kernel, by decide +kernel, by decide +kernel, by decide⟩

/-- `s` with an open sheaf. -/
def withSheaf (x : Sheaf) (s : State) : State := { s with ckp := { s.ckp with sheaf := some x } }

def snap : Snap := ⟨7, 0, 0, 0, 0, 0, 0, 0, []⟩

/-- Granule 64 diverts to reserve slot 16,383, for a held write. -/
def diverting : State :=
  { withSheaf { sheaf with snap := some snap, diverting := [(64, 16383)] } (ckpBase 0 1) with
    ckp := { (withSheaf { sheaf with snap := some snap, diverting := [(64, 16383)] } (ckpBase 0 1)).ckp with held := [⟨0x400040, [1, 2], true, .plain⟩] } }

theorem witness_copyBeforeWrite :
    (alook 64 [((64 : Nat), (16383 : Nat))] = some 16383 ∧ granules 0x400040 2 = [64] ∧ diverting.slotAddr 16383 = 0x13FFF0000 ∧
      diverting.plainAt 0x13FFF0000 65536 ∧ diverting.plainAt (64 * 65536) 65536 ∧ diverting.plainAt 0x400040 2 ∧ apart 0x13FFF0000 65536 0x400040 2) ∧
    (sheaf.covers 64 = true ∧ sheaf.covers 127 = true ∧ sheaf.covers 63 = false ∧ sheaf.covers 128 = false) := by
  refine ⟨⟨by decide, by decide, by decide +kernel, by unfold State.plainAt; decide +kernel, by unfold State.plainAt; decide +kernel,
    by unfold State.plainAt; decide +kernel, Or.inr (by decide)⟩, by decide⟩

/-- Every granule of the region is captured. -/
def captured : Sheaf := { sheaf with snap := some snap, captured := (List.range 64).map (fun i => (64 + i, [])) }

theorem witness_sheafEnds :
    (captured.shardList[0]? = some (0, 0, 0, 0x400000) ∧ captured.shardList.length ≤ 1 ∧ captured.has (0x400000 + 0) 0x400000 = true ∧
      (withFlds [(fCKP_STATE_PHASE, 2)] base).ckpPhase = 2 ∧ (withFlds [(fCKP_STATE_PHASE, 3)] base).ckpPhase = 3) ∧
    (base.fld fLDG_STATE_SEC ≠ 2 ∧ (withFlds [(fLDG_STATE_SEC, 2)] base).fld fLDG_STATE_SEC = 2) ∧
    ((0xA55A0001 : BitVec 32).toNat / 65536 = 0xA55A ∧ (0xA55A0001 : BitVec 32).toNat % 2 = 1 ∧ (0xA55A0000 : BitVec 32).toNat % 2 = 0) ∧
    (let s := withFlds [(fCKP_CE_LIMIT_LIMIT, 3)] base
     0 < s.fld fCKP_CE_LIMIT_LIMIT ∧ s.fld fCKP_CE_LIMIT_LIMIT ≤ s.ckp.ceCount + 3 ∧ s.ckp.ceFired = false ∧ s.flag fCKP_CFG_CE_EN = false) ∧
    (let s := withFlds [(fCKP_CFG_MARGIN_PCT, 10)] (atEnd image 0 1)
     8 * (0 + (1000 * s.fld fCKP_CFG_MARGIN_PCT / 100 - 0) - 1) < 0 + 8 * 1000 ∧ 0 + 8 * 1000 ≤ 8 * (1901 + (100 - 0) - 1)) := by
  refine ⟨by decide +kernel, by decide, by decide, by decide, by decide⟩

/-- A SELECT of one location, namespace 2 at 0x2000. -/
def restBase (phase : Nat) : State :=
  withBytes 0x3000 (packed 32 [(0, 3), (1, 2), (8, 0x2000)]) (withBytes 0x1000 (packed 44 [(0, 1), (2, phase), (3, 1), (4, 100), (8, 0x3000), (0x10, 0x10000000),
    (0x18, 0x4000)]) memBase)

def restCmd : Cmd := cmdOf 0x12 [(0, 0x1000)]

theorem witness_Restore :
    (withCmd restCmd (restBase 1)).doing 1 0x12 restCmd ∧ restCmd.clean [at8 0 0 64] = true ∧
    (withCmd restCmd (restBase 1)).ckp.restore ≠ some 1 ∧ (withCmd restCmd (restBase 1)).ckpPhase = 0 ∧
    (withCmd restCmd memBase).readRestore (restCmd.f 0 8) 1 = .fail .versionMismatch ∧
    (∃ d, (withCmd restCmd (restBase 1)).readRestore (restCmd.f 0 8) 1 = .ok d ∧ d.locs = [⟨3, 2, 0x2000, 0⟩] ∧
      ∃ l ∈ d.locs, ((withCmd restCmd (restBase 1)).slotOf [⟨2, 0x2000, List.replicate 256 0⟩] d.maxStep l).outcome = 0) ∧
    (∃ d, (withCmd restCmd (restBase 2)).readRestore (restCmd.f 0 8) 2 = .ok d ∧ d.locs = [⟨3, 2, 0x2000, 0⟩]) ∧
    (restBase 2).locBytes [⟨2, 0x2000, List.replicate 256 0⟩] 3 2 0x2000 256 = some (List.replicate 256 0) ∧
    (withCmd restCmd (restBase 2)).partRead 0 0x4000 (8 * min (fieldAt (List.replicate 256 0) 0x32 2) 4096) = .ok [] := by
  refine ⟨by unfold State.doing; decide +kernel, by decide +kernel, by decide +kernel, by decide +kernel, by decide +kernel,
    ⟨⟨1, [⟨3, 2, 0x2000, 0⟩], 100, 0x10000000, 0x4000, 0, 0⟩, by decide +kernel, rfl, _, List.mem_singleton.mpr rfl, by decide +kernel⟩,
    ⟨⟨2, [⟨3, 2, 0x2000, 0⟩], 100, 0x10000000, 0x4000, 0, 0⟩, by decide +kernel, rfl⟩, by decide +kernel, by decide +kernel⟩

/-! ### PCIe -/

/-- Window `w` from `b` to GDDR7 address 0x200000 of 2 MiB, with bits `ctrl` (RD 1 << 8, WR 1 << 9). -/
def winBase (w b ctrl : Nat) : State :=
  withFlds [(fHIF_WIN_CTRL_VALID w, 1), (fHIF_WIN_CTRL_SIZE_LOG2 w, 21), (fHIF_WIN_BASE_BASE w, b), (fHIF_WIN_TARGET_TARGET w, 0x200000),
    (fHIF_WIN_CTRL_RD w, ctrl % 2), (fHIF_WIN_CTRL_WR w, ctrl / 2)] memBase

/-- The loader at step `n` of bring-up. -/
def atStep (n : Nat) (s : State) : State := { s with ldg := { s.ldg with step := n } }

theorem witness_windows :
    (let s := winBase 63 0x200000 3
     s.winHolds 63 0x200000 ∧ s.winHolds 63 0x3FFFFF ∧ (∀ j, j < 64 → 0 + j ≠ 63 → ¬ s.winHolds (0 + j) 0x3FFFFF) ∧
      s.flag (fHIF_WIN_CTRL_RD 63) = true ∧ s.flag (fHIF_WIN_CTRL_WR 63) = true ∧ s.accessSt (0x200000 + 0x1FFFFF) 1 = .ok ∧
      s.plainAt 0x3FFFFF 1 ∧ s.writeHeld 0x3FFFFF 1 (.link 0) = false ∧ s.linkOf 0x3FFFFF 1 = none ∧ 0x3FFFFF < 2 ^ s.hif.cfg[(0 : Fin 2)].bar4Log2 ∧
      s.fld fHIF_WSH_SEL_W < 320 ∧ s.flag fHIF_WIN_STATUS_BUSY = false ∧ s.winFits 0 0 0x200000 21 true ∧
      ¬ s.winFits 62 0x200000 0x200000 21 true) ∧
    (let s := winBase 64 0x7FFFFE00000 0
     s.winHolds 64 0x7FFFFFFFFFF ∧ s.flag (fHIF_WIN_CTRL_RD 64) = false ∧ ∀ i, i < 16 → s.winHolds (64 + i) 0 → False) ∧
    (let s := withFlds [(fMEM_STATUS_READY, 0)] (winBase 63 0x200000 3)
     s.accessSt 0x200000 64 ≠ .ok) := by
  refine ⟨⟨by unfold State.winHolds; decide +kernel, by unfold State.winHolds; decide +kernel, by unfold State.winHolds; decide +kernel,
    by decide, by decide, by decide +kernel, by unfold State.plainAt; decide +kernel, by decide, by decide, by decide, by decide, by decide, ?_, ?_⟩,
    by unfold State.winHolds; decide +kernel, by decide +kernel⟩
  · unfold State.winFits; refine ⟨by decide, by decide, by decide, by decide, by decide, ⟨.gddr, by decide +kernel, by decide⟩, ?_⟩
    have h0 : ∀ i, i < 320 → (winBase 63 0x200000 3).flag (fHIF_WIN_CTRL_VALID i) = true →
        0 + 2 ^ 21 ≤ (winBase 63 0x200000 3).fld (fHIF_WIN_BASE_BASE i) := by decide +kernel
    exact fun i hi _ _ _ hv => Or.inl (h0 i hi hv)
  · intro h; exact absurd (h.2.2.2.2.2.2 63 (by decide) (by decide) (by decide) (by decide) (by decide)) (by decide)

theorem witness_hostLink :
    (2 ≤ (atStep 2 base).ldg.step ∧ (withFlds [(fHIF_CFG_BIF, 1)] base).flag fHIF_CFG_BIF = true ∧
      (withFlds [(fHIF_UP_STATUS_LINK_UP 1, 1)] base).flag (fHIF_UP_STATUS_LINK_UP 1) = true) ∧
    ((withFlds [(fHIF_UP_STATUS_LINK_UP 0, 1)] base).ctrlFn = 0 ∧ (withFlds [(fHIF_UP_STATUS_LINK_UP 0, 1)] base).flag (fHIF_UP_STATUS_LINK_UP 0) = true) ∧
    (let s := withFlds [(fHIF_CFG_BIF, 1)] base
     bitOf 2 1 ≠ s.flag fHIF_CFG_CTRL_PF ∧ s.flag fQUE_ADMIN_CTRL_ENABLE = false ∧ (∀ e ∈ s.que.sqs, e.1.1 ≠ 0) ∧
      (∀ e ∈ s.que.cqs, e.1.1 ≠ 0) ∧ s.fld fCIP_LOCK_OWNER ≠ 3 ∧ s.flag fCIP_CFG_VEC_EN = false) ∧
    ((atStep 5 base).ldg.step < 6 ∧ 6 ≤ (atStep 6 base).ldg.step) ∧
    (base.hif.cfg[(0 : Fin 2)].command.getLsbD 1 = false ∧ (0xA55A0001 : BitVec 32).toNat / 65536 = 0xA55A ∧
      bitOf (0xA55A0001 : BitVec 32).toNat 0 = true ∧ (withFlds [(fHIF_WIN_STATUS_BUSY, 1)] base).flag fHIF_WIN_STATUS_BUSY = true) := by
  decide

/-- `base` with slot 15 in state `st`, its slot record `x`. -/
def slotBase (st : Nat) (x : SlotX) : State :=
  let s := withFlds [(fHIF_SLOT_STATUS_STATE 15, st), (fHIF_SLOT_STATUS_GEN 15, 255)] base
  { s with hif := { s.hif with slots := s.hif.slots.set 15 x } }

/-- A configuration access to slot 15 is outstanding with tag 7; its request was issued in generation `g`. -/
def asking (g : Nat) : State :=
  let s := slotBase 5 SlotX.reset
  { s with hif := { s.hif with dcfg := some ⟨15, some 7, false, none⟩, tags := [((17, 7), .out 0 1000 g)] } }

theorem witness_slotStates :
    (base.gated (base.skuField 12 2) 7 = false ∧ base.fld (fHIF_SLOT_STATUS_STATE 15) = 0 ∧ base.hif.dcfg = none) ∧
    ((slotBase 1 SlotX.reset).fld (fHIF_SLOT_STATUS_STATE 15) = 1 ∧ (slotBase 6 SlotX.reset).fld (fHIF_SLOT_STATUS_STATE 15) = 6) ∧
    (let v : BitVec 32 := 0xA55A0031
     v.toNat / 65536 = 0xA55A ∧ bitsOf v.toNat 0 2 = 1 ∧ bitsOf (0xA55A0002 : BitVec 32).toNat 0 2 = 2) ∧
    ((slotBase 1 { SlotX.reset with offAt := some 800000 }).hif.slots[(15 : Fin 16)].offAt = some 800000) ∧
    (let s := slotBase 3 { SlotX.reset with linkAt := some 5 }
     s.fld (fHIF_SLOT_STATUS_STATE 15) = 3 ∧ s.fld (fHIF_SLOT_LINK_RATE 15) = 0 ∧ s.hif.slots[(15 : Fin 16)].linkAt = some 5 ∧
      0x80000000000 % 0x80000000000 = 0) := by decide

theorem witness_slotExists : base.slotExists 14 = true ∧ base.slotExists 15 = false ∧
    (withFlds [(fHIF_DS_CTRL_SPLIT 7, 1)] base).slotExists 15 = true ∧
    (withFlds [(fHIF_SLOT_LINK_RATE 15, 5)] (slotBase 5 SlotX.reset)).fld (fHIF_SLOT_LINK_RATE 15) ≠ 0 ∧
    base.gmem.svcRun = [] ∧ base.gmem.migs = [] := by decide

theorem witness_slotAccess :
    (let s := slotBase 5 SlotX.reset
     s.fld (fHIF_SLOT_STATUS_STATE (bitsOf 0x0F000000 24 4)) = 5 ∧ s.flag fHIF_DCFG_STATUS_BUSY = false ∧ s.freeTag? 17 = some 0) ∧
    (alook (17, 7) (asking 255).hif.tags = some (.out 0 1000 255) ∧ (asking 255).fld (fHIF_SLOT_STATUS_GEN 15) = 255 ∧
      (asking 255).hif.dcfg = some ⟨15, some 7, false, none⟩ ∧ (asking 254).fld (fHIF_SLOT_STATUS_GEN 15) ≠ 254) ∧
    (∀ i c g, alook (17, 8) (asking 255).hif.tags ≠ some (.out i c g)) ∧
    (let s := { base with hif := { base.hif with tags := [((17, 7), .quar 9)], dcfg := some ⟨15, none, false, some 4⟩ } }
     alook (17, 7) s.hif.tags = some (.quar 9) ∧ s.hif.dcfg = some ⟨15, none, false, some 4⟩) := by
  refine ⟨⟨by decide, by decide, by decide +kernel⟩, by decide, fun i c g => ?_, by decide⟩
  have h : alook (17, 8) (asking 255).hif.tags = none := by decide
  rw [h]; exact nofun

/-! ### SPDM -/

/-- A request in session `k`. -/
def msg (k : Option Nat) (p1 p2 : Nat) : SpdmMsg := ⟨8, k, p1, p2, 0, 64, true, true, true, true, []⟩

/-- Function 0's responder is `x`, the security processor runs. -/
def spdmBase (x : Spdm) : State :=
  let s := withFlds [(fLDG_STATE_SEC, 2)] base
  { s with hif := { s.hif with spdm := s.hif.spdm.set 0 x }, ldg := { s.ldg with flash := { s.ldg.flash with devCert := [0x30] } } }

theorem witness_Spdm :
    base.fld fLDG_STATE_SEC ≠ 2 ∧
    (let s := spdmBase ⟨3, [(1, false), (2, true)], 3, 1, [], [], false⟩
     let x := s.hif.spdm[(0 : Fin 2)]
     s.fld fLDG_STATE_SEC = 2 ∧ x.aborted = false ∧ 3 ≤ x.stage ∧ (msg (some 1) 0 0).dwords ≤ 4096 ∧ (msg (some 1) 0 0).authentic = true ∧
      (∃ e ∈ x.sessions, e.1 = 1) ∧ (1, false) ∈ x.sessions ∧ (2, true) ∈ x.sessions ∧ (1, true) ∉ x.sessions ∧ 1 ≤ x.ide ∧
      (msg none 0 0).session = none ∧ (msg none 0 10).p2 ≠ 0xFF ∧ (msg none 1 9).p2 ≤ 9 ∧ (∀ e ∈ x.sessions, e.1 ≠ 7) ∧
      (msg none 0 0).off < s.certChain.length) ∧
    ((spdmBase ⟨0, [], 1, 0, [], [], true⟩).hif.spdm[(0 : Fin 2)].aborted = true ∧ (spdmBase ⟨0, [], 1, 0, [], [], false⟩).hif.spdm[(0 : Fin 2)].stage < 1) := by
  refine ⟨by decide, ⟨by decide, by decide, by decide, by decide, by decide, by decide, by decide, by decide, by decide, by decide, by decide,
    by decide, by decide, by decide, ?_⟩, by decide⟩
  have h : ∀ s : State, 0 < s.ldg.flash.devCert.length → 0 < s.certChain.length := by
    intro s hs; simp only [State.certChain, List.length_append]; omega
  exact h _ (by decide)

/-! ### Queues and partitions -/

def sq0 : Sq := ⟨.active, 0, 4, 2, 0, 0x2000000000000, 15, 1, none⟩
def cq0 : Cq := ⟨false, 4, 0, 0, 10, 0x2000000001000, 15, 15, true, 1, 2, 100, 5⟩

/-- Partition 1, active at version 1.2, all of it. -/
def part1 : Part :=
  { Part.reset with st := .active, gen := 255, qver := 0x102, sqMax := 4, cqMax := 4, vecCount := 4, weight := 1, classMax := 3, cr := 1, pr := 1, burstUs := 1 }

/-- SQ 0 and CQ 0 of partition `p`, which is `x`; the host link is up. -/
def queBase (p : Fin 65) (x : Part) (q : Sq) (k : Cq) : State :=
  let s := withFlds [(fHIF_UP_STATUS_LINK_UP 0, 1)] memBase
  { s with que := { s.que with parts := s.que.parts.set p x, sqs := [((p.val, 0), q)], cqs := [((p.val, 0), k)] } }

theorem witness_QueueRings :
    (let s := queBase 1 part1 sq0 cq0
     s.homeFn 1 = 0 ∧ s.homeFn 1 ≠ 1 ∧ s.sq? 1 7 = none ∧ s.cq? 1 7 = none ∧ s.sq? 1 0 = some sq0 ∧ sq0.st = .active ∧ (s.part 1).st ≠ .resetting ∧
      (s.part 1).st ≠ .frozen ∧ (s.part 1).pendEv = [] ∧ s.cq? 1 0 = some cq0 ∧ cq0.err = false ∧ cq0.unsig ≠ 0 ∧ (65535 : BitVec 32).toNat < 65536 ∧
      65536 ≤ (65536 : BitVec 32).toNat) ∧
    (let s := queBase 1 { part1 with st := .frozen } { sq0 with st := .error } { cq0 with err := true }
     (s.part 1).st = .frozen ∧ s.sq? 1 0 = some { sq0 with st := .error } ∧ s.cq? 1 0 = some { cq0 with err := true }) ∧
    ((withFlds [(fQUE_ADMIN_CTRL_ENABLE, 1)] base).flag fQUE_ADMIN_CTRL_ENABLE = true ∧ base.flag fQUE_ADMIN_CTRL_ENABLE = false ∧
      bitOf (0x1001 : BitVec 32).toNat 0 = true ∧ bitsOf (0x1001 : BitVec 32).toNat 8 5 = 16) ∧
    (let s := withFlds [(fQUE_ADMIN_SQ_BASE, 0x2000000000000), (fQUE_ADMIN_CQ_BASE, 0x2FFFFFFFFF000)] base
     s.fld fQUE_ADMIN_SQ_BASE % 4096 = 0 ∧ s.region? (s.fld fQUE_ADMIN_SQ_BASE) (2 ^ 16 * 64) = some (.host 0) ∧
      s.region? (s.fld fQUE_ADMIN_CQ_BASE) (2 ^ 4 * 32) = some (.host 0)) := by decide

/-- A command of partition `p` waiting to start. -/
def waitingCmd (op p : Nat) : Cmd := { cmdOf op [] with part := p, started := false }

theorem witness_CommandService :
    base.chooseSq = none ∧
    (let s := queBase 1 part1 sq0 { cq0 with reserved := 0, head := 0, write := 0 }
     s.chooseSq = some (1, 0, 2) ∧ s.sq? 1 0 = some sq0 ∧ s.accessSt (sq0.base + 64 * sq0.head) 64 = .ok ∧
      s.noTag (sq0.base + 64 * sq0.head) 64 = false ∧ s.cxlFull 1 = false ∧ (base.part 64).qver = 0 ∧
      ((s.part 1).refill s.now).pr ≠ 0 ∧ ((s.part 1).refill s.now).peak < 800000000) ∧
    (let s := withFlds [(fLDG_STATE_READY, 1)] (withCmd (waitingCmd 0x10 1) (queBase 1 { part1 with commit := 5 } sq0 cq0))
     let c := waitingCmd 0x10 1
     s.cmd? 1 = some c ∧ c.started = false ∧ c.done = none ∧ s.mgmtWaits c = false ∧ (∀ d ∈ s.que.cmds, ¬ d.id < 1) ∧
      ((s.part 1).refill s.now).cr ≠ 0 ∧ ((s.part 1).refill s.now).commit < 800000000 ∧ s.flag fLDG_STATE_READY = true) ∧
    (let c := { cmdOf 0 [] with part := 1, done := some (Status.ok, 0, (0 : BitVec 64)) }
     let s := withCmd c (queBase 1 part1 sq0 cq0)
     s.cmd? 1 = some c ∧ s.sq? c.p c.sq = some sq0 ∧ s.cq? c.p sq0.cq = some cq0 ∧ s.region? (cq0.base + 32 * cq0.write) 32 = some (.host 0) ∧
      s.flag (fHIF_UP_STATUS_LINK_UP (0 : Fin 2)) = true) ∧
    (withCmd (cmdOf 0 []) base).doing 1 0 (cmdOf 0 []) := by
  refine ⟨by decide +kernel, by decide +kernel, by decide +kernel, by decide +kernel, by unfold State.doing; decide⟩

def create (p : Nat) : Cmd := cmdOf 0x20 [(0, p), (2, 16384), (4, 1), (6, 4), (8, 4092), (10, 255), (11, 7), (12, 0xFFFF), (24, 1)]

/-- The header of a state blob of an empty partition, and its CRC-32C. -/
def blobHdr : List Byte := [0x50, 0x53, 0x54, 0x42, 2, 0, 2, 1, 0xC4, 0, 0, 0, 0, 0, 0, 0] ++
    ([0, 0, 0, 0, 1, 0, 1, 0, 1, 0, 1, 0, 0, 0, 0, 0] ++
    ([0, 0, 0, 0, 0, 0, 0, 0, 1, 0, 0, 0, 0, 0, 0, 0] ++
    ([0, 0, 0, 0, 0, 0, 0, 0, 0, 0, 0, 0, 0, 0, 0, 0] ++
    ([0, 0, 0, 0, 0, 0, 0, 0, 0, 0, 0, 0, 0, 0, 0, 0] ++
    ([0, 0, 0, 0, 0, 0, 0, 0, 0, 0, 0, 0, 0, 0, 0, 0] ++
    ([0, 0, 0, 0, 0, 0, 0, 0, 0, 0, 0, 0, 0, 0, 0, 0] ++
    ([0, 0, 0, 0, 0, 0, 0, 0, 0, 0, 0, 0, 0, 0, 0, 0] ++
    ([0, 0, 0, 0, 0, 0, 0, 0, 0, 0, 0, 0, 0, 0, 0, 0] ++
    ([0, 0, 0, 0, 0, 0, 0, 0, 0, 0, 0, 0, 0, 0, 0, 0] ++
    ([0, 0, 0, 0, 0, 0, 0, 0, 0, 0, 0, 0, 0, 0, 0, 0] ++
    ([0, 0, 0, 0, 0, 0, 0, 0, 0, 0, 0, 0, 0, 0, 0, 0])))))))))))

theorem blobHdr_crc : crc32c blobHdr = 0x06A46F9B := by
  rw [crc32c, blobHdr]
  simp only [crcGo_append]
  rw [show crcGo [0x50, 0x53, 0x54, 0x42, 2, 0, 2, 1, 0xC4, 0, 0, 0, 0, 0, 0, 0] 0xFFFFFFFF = 0x853C8C3D from by decide +kernel]
  rw [show crcGo [0, 0, 0, 0, 1, 0, 1, 0, 1, 0, 1, 0, 0, 0, 0, 0] 0x853C8C3D = 0xBB734938 from by decide +kernel]
  rw [show crcGo [0, 0, 0, 0, 0, 0, 0, 0, 1, 0, 0, 0, 0, 0, 0, 0] 0xBB734938 = 0xB03C1CC9 from by decide +kernel]
  rw [show crcGo [0, 0, 0, 0, 0, 0, 0, 0, 0, 0, 0, 0, 0, 0, 0, 0] 0xB03C1CC9 = 0x4AB9701C from by decide +kernel]
  rw [show crcGo [0, 0, 0, 0, 0, 0, 0, 0, 0, 0, 0, 0, 0, 0, 0, 0] 0x4AB9701C = 0x1E3DE13E from by decide +kernel]
  rw [show crcGo [0, 0, 0, 0, 0, 0, 0, 0, 0, 0, 0, 0, 0, 0, 0, 0] 0x1E3DE13E = 0xF9E3E1A1 from by decide +kernel]
  rw [show crcGo [0, 0, 0, 0, 0, 0, 0, 0, 0, 0, 0, 0, 0, 0, 0, 0] 0xF9E3E1A1 = 0x51FCE07D from by decide +kernel]
  rw [show crcGo [0, 0, 0, 0, 0, 0, 0, 0, 0, 0, 0, 0, 0, 0, 0, 0] 0x51FCE07D = 0x4BC556E8 from by decide +kernel]
  rw [show crcGo [0, 0, 0, 0, 0, 0, 0, 0, 0, 0, 0, 0, 0, 0, 0, 0] 0x4BC556E8 = 0xE3CAA38F from by decide +kernel]
  rw [show crcGo [0, 0, 0, 0, 0, 0, 0, 0, 0, 0, 0, 0, 0, 0, 0, 0] 0xE3CAA38F = 0x31357387 from by decide +kernel]
  rw [show crcGo [0, 0, 0, 0, 0, 0, 0, 0, 0, 0, 0, 0, 0, 0, 0, 0] 0x31357387 = 0x34462860 from by decide +kernel]
  rw [show crcGo [0, 0, 0, 0, 0, 0, 0, 0, 0, 0, 0, 0, 0, 0, 0, 0] 0x34462860 = 0xF95B9064 from by decide +kernel]
  rfl

/-- The blob. -/
def blob : List Byte := blobHdr ++ [0x9B, 0x6F, 0xA4, 6]


/-- A QUEUE_DELETE waits for SQ 0 to drain when a read of it fails. -/
theorem witness_lateRead :
    let c := cmdOf 0x23 [(0, 1)]
    let s := withCmd c (queBase 1 part1 { sq0 with st := .draining, delCmd := some 1 } cq0)
    s.sq? 1 0 = some { sq0 with st := .draining, delCmd := some 1 } ∧ s.doing 1 0x23 c := by
  unfold State.doing
  decide +kernel

theorem witness_partitionStates :
    (let s := withCmd (create 64) (queBase 1 part1 sq0 cq0)
     s.doing 1 0x20 (create 64) ∧ (create 64).f 0 1 = 64 ∧ (create 64).part = 0 ∧ s.createOk (create 64) 64 = true ∧ (s.part 64).st = .unassigned ∧
      s.createOk (cmdOf 0x20 [(0, 64)]) 64 = false ∧ s.createOk { create 64 with params := (create 1).params } 1 = true ∧ (s.part 1).st ≠ .unassigned) ∧
    (let d := cmdOf 0x21 [(0, 1)]
     let s := withCmd d (queBase 1 part1 sq0 cq0)
     s.doing 1 0x21 d ∧ d.clean [at8 0 0 8] = true ∧ (s.part 1).st = .active ∧ (s.part 1).freeze = none ∧
      (∀ e ∈ s.que.sqs, e.1.1 = 1 → e.2.delCmd = none) ∧ s.rdm.qps = [] ∧ (s.part 2).st = .unassigned) ∧
    (let d := cmdOf 0x2A [(0, 1), (10, 255), (16, 1), (20, 2), (24, 1000)]
     d.clean [at8 0 0 8, at8 10 0 8, at8 16 0 32, at8 20 0 32, at8 24 0 16] = true ∧ ratesOk (d.f 10 1) (d.f 16 4) (d.f 20 4) (d.f 24 2) = true ∧
      (withCmd d (queBase 1 part1 sq0 cq0)).doing 1 0x2A d) ∧
    (let d := cmdOf 0x25 [(0, 1), (4, 10000000), (8, 1)]
     d.clean [at8 0 0 8, at8 4 0 32, at8 8 0 16] = true ∧ d.f 4 4 ≤ 10000000 ∧ 1 ≤ d.f 8 2 ∧ (withCmd d (queBase 1 part1 sq0 cq0)).doing 1 0x25 d ∧
      ((queBase 1 { part1 with qver := 0x101 } sq0 cq0).part 1).qver ≠ 0x102) ∧
    (let d := cmdOf 0x26 [(0, 1), (8, 0x10000), (16, 228)]
     let s := withCmd d (queBase 1 { part1 with st := .frozen } sq0 cq0)
     s.doing 1 0x26 d ∧ d.clean [at8 0 0 8, at8 8 0 64, at8 16 0 64] = true ∧ d.f 8 8 % 64 = 0 ∧ (s.part 1).st = .frozen ∧ 228 ≤ d.f 16 8 ∧
      s.plainAt (d.f 8 8) 228 ∧ s.partRanges 0 (d.f 8 8) 228 = .ok [(d.f 8 8, 228)] ∧
      (s.que.sqs.filter (fun e => e.1.1 = 1)).length + (s.que.cqs.filter (fun e => e.1.1 = 1)).length = 2) ∧
    (let d := cmdOf 0x28 [(0, 1)]
     d.clean [at8 0 0 8] = true ∧ (withCmd d base).doing 1 0x28 d ∧ (withCmd { d with op := 0x29 } base).doing 1 0x29 { d with op := 0x29 } ∧
      ((queBase 1 { part1 with st := .resetting, resetCmd := some 1 } sq0 cq0).part 1).resetCmd = some 1) ∧
    (let d := cmdOf 0x25 [(0, 0)]
     let s := withCmd d (queBase 1 { part1 with st := .freezing, freeze := some ⟨1, 8, 9, true⟩ } sq0 cq0)
     s.doing 1 0x25 d ∧ d.f 0 1 = 0 ∧ (s.part 1).freeze = some ⟨1, 8, 9, true⟩ ∧ s.now ≤ 9 ∧ (∀ d ∈ s.que.cmds, d.part ≠ 1) ∧ (∀ m ∈ s.gmem.migs, m.part ≠ 1)) := by
  unfold State.doing State.plainAt
  refine ⟨by decide +kernel, by decide +kernel, by decide +kernel, by decide +kernel, by decide +kernel, by decide +kernel, by decide +kernel⟩

def restoring : Cmd := cmdOf 0x27 [(0, 1), (8, 0x10000), (16, 196)]

theorem restoring_bytes : (withBytes 0x10000 blob memBase).rangeBytes [(0x10000, 196)] = blob := by decide +kernel

theorem witness_partitionRestore :
    let d := restoring
    let s := withCmd d (withBytes 0x10000 blob memBase)
    s.doing 1 0x27 d ∧ d.clean [at8 0 0 8, at8 1 0 1, at8 6 0 12, at8 8 0 64, at8 16 0 64, at8 24 0 64] = true ∧ d.f 8 8 % 64 = 0 ∧ d.f 1 1 = 0 ∧
      (s.part 1).st = .unassigned ∧ 16 ≤ d.f 16 8 ∧
      (∃ h, s.partRead 0 (d.f 8 8) 16 = .ok h ∧ fieldAt h 0 4 = 0x42545350 ∧ fieldAt h 4 2 = 2 ∧ fieldAt h 8 8 = 196 ∧ 196 ≤ d.f 16 8) ∧
      ∃ b, s.partRead 0 (d.f 8 8) 196 = .ok b ∧ fieldAt b 0 4 = 0x42545350 ∧ fieldAt b 4 2 = 2 ∧ fieldAt b 8 8 = 196 ∧
        (crc32c (b.take 192)).toNat = fieldAt b 192 4 ∧ blobHdrOk b = true ∧ s.vecsFree 1 0 (d.f 6 2) (fieldAt b 0x18 2) = true ∧
        fieldAt b 0x10 2 = 0 ∧ fieldAt b 0x12 2 = 0 := by
  refine ⟨by unfold State.doing; decide +kernel, by decide +kernel, by decide, by decide, by decide +kernel, by decide,
    ⟨blob.take 16, by decide +kernel, by decide +kernel, by decide +kernel, by decide +kernel, by decide⟩, blob, by decide +kernel, by decide +kernel, by decide +kernel, by decide +kernel, ?_,
    by decide +kernel, by decide +kernel, by decide +kernel, by decide +kernel⟩
  rw [show blob.take 192 = blobHdr from by decide +kernel, blobHdr_crc]
  decide +kernel

def qc (op p flags q : Nat) (l : List (Nat × Nat)) : Cmd := cmdOf op ([(0, p), (1, flags), (2, q)] ++ l)

theorem witness_queueCreate :
    (let c := qc 0x22 1 1 3 [(4, 16), (6, 3), (8, 0x2000000000000)]
     let s := withCmd c (queBase 1 part1 sq0 cq0)
     s.doing 1 0x22 c ∧ c.f 0 1 = 1 ∧ s.queueOk c 1 (s.part 1) = true ∧ bitOf (c.f 1 1) 0 = true ∧ s.cq? 1 (c.f 2 2) = none ∧
      s.que.cqs.length < 16384) ∧
    (let c := qc 0x22 1 2 3 [(4, 4), (5, 3), (6, 0), (8, 0x2FFFFFFFFF000)]
     let s := withCmd c (queBase 1 part1 sq0 cq0)
     s.queueOk c 1 (s.part 1) = true ∧ bitOf (c.f 1 1) 0 = false ∧ s.sq? 1 (c.f 2 2) = none ∧ s.cq? 1 (c.f 6 2) = some cq0) := by
  unfold State.doing
  decide +kernel

theorem witness_queueDelete :
    (let c := qc 0x23 1 1 3 []
     let s := withCmd c { queBase 1 part1 sq0 cq0 with que := { (queBase 1 part1 sq0 cq0).que with cqs := [((1, 3), cq0)] } }
     s.doing 1 0x23 c ∧ c.clean [at8 0 0 8, at8 1 0 1, at8 2 0 16] = true ∧ (∀ e ∈ s.que.sqs, e.2.delCmd ≠ some 1) ∧ (s.part 1).st = .active ∧
      bitOf (c.f 1 1) 0 = true ∧ (s.cq? 1 3).isSome = true ∧ (∀ e ∈ s.que.sqs, e.1.1 = 1 → e.2.cq ≠ 3)) ∧
    (let c := qc 0x23 1 0 0 []
     bitOf (c.f 1 1) 0 = false ∧ (withCmd c (queBase 1 part1 { sq0 with st := .draining, delCmd := some 1 } cq0)).sq? 1 0 =
      some { sq0 with st := .draining, delCmd := some 1 } ∧ (withCmd c (queBase 1 part1 { sq0 with st := .error } cq0)).sq? 1 0 =
      some { sq0 with st := .error } ∧ (∀ d ∈ (withCmd c base).que.cmds, d.part = 1 → d.sq = 0 → some d.id = some 1)) ∧
    (let c := qc 0x24 1 0 0 []
     (withCmd c base).doing 1 0x24 c ∧ c.clean [at8 0 0 8, at8 1 0 1, at8 2 0 16] = true ∧
      ((queBase 1 part1 sq0 { cq0 with err := true }).cq? 1 0) = some { cq0 with err := true }) := by
  unfold State.doing
  decide +kernel

/-! ### RDMA and storage -/

/-- Queue pair of partition 0: type TYPE on the fabric, ready to send. -/
def qpOf (ty : Nat) : Qp := { newQp (cmdOf 0 [(0, 4 + ty), (2, 0), (4, 1)]) with num := 2, st := .rts, die := .on, dest := 5, destDev := 9 }

/-- Queue pair 2, its queues 0 (COMMAND) and 1 (RECEIVE), CQ 0; region 3 with key 7 over all of GDDR7. -/
def rdmBase (q : Qp) (cmds : List Cmd) : State :=
  let s := withFlds [(fRDM_QPC_COUNT_COUNT, 4), (fRDM_MR_COUNT_COUNT, 4), (fRDM_PQP_LIMIT_QPS 0, 16), (fFAB_GEN_KNOWN 9, 1)] memBase
  { s with rdm := { s.rdm with qps := [(2, q)], mrs := [(3, ⟨0, 0, 0x1800000000, 7, 7⟩)] },
           que := { s.que with cmds := cmds, sqs := [((0, 0), sq0), ((0, 1), { sq0 with kind := 1 }), ((0, 2), sq0)], cqs := [((0, 0), cq0)] } }

/-- A packet for queue pair `n`. -/
def pkt (n : Nat) (op : RdmaOp) (data : List Byte) : RdmaPkt :=
  ⟨none, 9, 0, 0, 0, 0, BitVec.ofNat 24 n, 0, true, false, 0, 128, op, data, .none⟩

/-- A receive of `n` bytes at `a`. -/
def recvCmd (a n : Nat) : Cmd := { cmdOf 0x50 [(0, a), (8, n)] with sq := 1 }

def header (va : Nat) : Placement := ⟨4, none, 77, 4, 0, 0x307, BitVec.ofNat 64 va⟩

theorem witness_responder :
    ((pkt 1 .ack []).destQp.toNat = 1 ∧ (pkt 3 .ack []).destQp.toNat ≠ 1 ∧ (rdmBase (qpOf 0) []).qp? 3 = none) ∧
    (let s := rdmBase (qpOf 0) [recvCmd 0x1000 4]
     let q := qpOf 0
     s.qp? 2 = some q ∧ q.die = .on ∧ q.waiting = [] ∧ q.ty = .rc ∧ q.st = .rts ∧ s.partHalts q.p = false ∧ q.arriving = none ∧ q.trigRx = false ∧
      (pkt 2 (.send true true none) [1, 2, 3, 4]).psn.toNat = q.rqPsn ∧ s.headRecv? q = some (recvCmd 0x1000 4) ∧
      s.cmd? 1 = some (recvCmd 0x1000 4) ∧ (recvCmd 0x1000 4).f 8 4 = 4 ∧ s.translate q.p 0x1000 4 true = .ok [(0x1000, 4)] ∧
      s.usable q.p [(0x1000, 4)] = .ok ∧ s.plainAt 0x1000 4 ∧ s.writeHeld 0x1000 4 = false ∧ q.pmtu = 3) ∧
    ((rdmBase (qpOf 0) []).headRecv? (qpOf 0) = none ∧ psnDiff 5 (qpOf 0).rqPsn < 0x800000 ∧ 0x800000 ≤ psnDiff 0xFFFFFF (qpOf 0).rqPsn) ∧
    (let s := rdmBase (qpOf 0) []
     alook ((0x307 : BitVec 32).toNat / 256) s.rdm.mrs = some ⟨0, 0, 0x1800000000, 7, 7⟩ ∧ (0x307 : BitVec 32).toNat % 256 = 7 ∧
      0x17FFFFFFF8 + 8 ≤ 0x1800000000 ∧ bitOf 7 2 = true ∧ s.partRead (qpOf 0).p 0x17FFFFFFF8 8 = .ok (s.bytes 0x17FFFFFFF8 8) ∧
      s.translate (qpOf 0).p 0x17FFFFFFF8 8 true = .ok [(0x17FFFFFFF8, 8)] ∧ s.plainAt 0x17FFFFFFF8 8) ∧
    (isRsp (.ack) = true ∧ isRsp (.send true true none) = false ∧ (pkt 2 .ack []).gen ≠ ((queBase 0 { part1 with gen := 1 } sq0 cq0).part 0).gen) ∧
    (let s := rdmBase { qpOf 0 with st := .error, part := 1 } []
     let h := { s with que := { s.que with parts := s.que.parts.set 1 { part1 with st := .frozen } } }
     h.partHalts { qpOf 0 with st := .error, part := 1 }.p = true ∧ h.qp? 2 = some { qpOf 0 with st := .error, part := 1 }) := by
  unfold State.plainAt
  refine ⟨by decide, by decide +kernel, by decide +kernel, by decide +kernel, by decide +kernel, by decide +kernel⟩

theorem witness_sprayAndDatagram :
    (let s := rdmBase (qpOf 1) []
     s.qp? 2 = some (qpOf 1) ∧ (qpOf 1).ty = .spray ∧ alook (header 0x2000).msg (qpOf 1).msgs = none ∧ psnDiff 1023 (qpOf 1).rqPsn < 1024 ∧
      (qpOf 1).recorded = [] ∧ s.mrOk 0 (header 0x2000).rkey 0x2000 4 1 = true ∧ s.translate (qpOf 1).p 0x2000 4 true = .ok [(0x2000, 4)] ∧
      (header 0x2000).msgLen = 4) ∧
    (let s := rdmBase (qpOf 3) []
     s.qp? 2 = some (qpOf 3) ∧ (qpOf 3).ty = .rd ∧ alook (⟨some 9, 0, 4, 77⟩ : RdId) s.rdm.recent = none ∧ s.rdm.rdIn.length < 16384 ∧
      s.rdm.recent.length < 65536) ∧
    (∃ u, alook (⟨some 9, 0, 4, 77⟩ : RdId) [((⟨some 9, 0, 4, 77⟩ : RdId), RdFate.done 3)] = some (.done u)) ∧
    (∃ u, alook (⟨some 9, 0, 4, 77⟩ : RdId) [((⟨some 9, 0, 4, 77⟩ : RdId), RdFate.abandoned 3)] = some (.abandoned u)) := by
  refine ⟨by decide +kernel, by decide +kernel, ⟨3, by decide⟩, ⟨3, by decide⟩⟩

/-- A SEND of no bytes in flight. -/
def flying : Wr :=
  ⟨1, 0x48, 0, 1, 1, 0, 0, [], ⟨none, 9, 0, 0, 0, 0, 0, 0, 0, 5, 0, true, .ack, []⟩, 0, 0, 0, 0, 0, none⟩

def sendCmd (l : List (Nat × Nat)) : Cmd := cmdOf 0x48 l

theorem witness_contexts :
    (let s := rdmBase { qpOf 0 with die := .off } []
     s.qp? 2 = some { qpOf 0 with die := .off } ∧ s.dieUsed < 4096 ∧ s.missUsed + (pkt 2 .ack []).size ≤ 0x400000 ∧
      0x400000 < s.missUsed + { pkt 2 .ack [] with size := 0x400001 }.size) ∧
    (let q := { qpOf 0 with die := .fetching (some 4) }
     (rdmBase q []).qp? 2 = some q ∧ q.waiting = [] ∧ q.waitWr = []) ∧
    (let q := { qpOf 0 with die := .writing }
     (rdmBase q []).qp? 2 = some q ∧ ∀ x ∈ (rdmBase q []).rdm.qps, x.2.die ≠ .fetching none) := by
  decide

theorem witness_timers :
    (let q := { qpOf 0 with out := [flying], timeouts := 7 }
     let s := rdmBase q [sendCmd []]
     s.qp? 2 = some q ∧ q.rnrUntil = none ∧ s.cmd? flying.cmd = some (sendCmd []) ∧ (sendCmd []).done = none ∧ q.retry ≤ q.timeouts ∧
      s.ownRecvs 2 q = [] ∧ s.notSent q = [] ∧ flying.psn = q.una ∧ flying.dest.port = none) ∧
    (let q := { qpOf 0 with rnrUntil := some 5, rate := some 1000 }
     (rdmBase q []).qp? 2 = some q ∧ q.out = []) ∧
    (let s := { rdmBase (qpOf 3) [] with rdm := { (rdmBase (qpOf 3) []).rdm with rdIn := [⟨⟨some 9, 0, 4, 77⟩, 2, none, [], 0, 6⟩], early := [(64, 8, 2)] } }
     s.rdm.rdIn[0]? = some ⟨⟨some 9, 0, 4, 77⟩, 2, none, [], 0, 6⟩ ∧
      s.rdm.early.find? (fun e => e.1 = (64 : Fin 65).val && e.2.1 = (8 : BitVec 32).toNat) = some (64, 8, 2)) ∧
    (let q := { qpOf 3 with out := [{ flying with reason := some 2047 }] }
     let s := rdmBase q [sendCmd []]
     s.rdm.qps.find? (fun x => x.2.ty = .rd && x.2.out.any (fun y => y.cmd = 1)) = some (2, q) ∧
      q.out.find? (fun y => y.cmd = 1) = some { flying with reason := some 2047 }) := by
  decide +kernel

def qpCmd : Cmd := cmdOf 0x40 [(0, 4), (2, 2), (4, 0xFFFF)]
def modCmd (next mask : Nat) : Cmd := cmdOf 0x41 [(0, 2), (3, next), (4, 3), (8, 0xFFFFFF), (40, mask)]

theorem witness_qpCommands :
    (let s := rdmBase (qpOf 0) [qpCmd]
     s.doing 1 0x40 qpCmd ∧ s.qpParamsOk qpCmd = true ∧ s.qpParamsOk (cmdOf 0x40 [(0, 4), (1, 1)]) = false ∧
      (s.qpOf? 0 0).isSome = true ∧ s.qpOf? 0 (qpCmd.f 2 2) = none ∧ bitOf (qpCmd.f 0 1) 4 = false ∧
      s.fld (fRDM_PQP_USED_QPS 0) < s.fld (fRDM_PQP_LIMIT_QPS 0) ∧ 3 < s.fld fRDM_QPC_COUNT_COUNT ∧ s.qp? 3 = none ∧
      (∀ x ∈ s.rdm.heldQpns, x.1 ≠ 3) ∧ (∀ i, i < 3 → 2 ≤ i → (s.qp? i).isSome = true)) ∧
    (∀ e ∈ [(QpSt.reset, 1, 0), (.init, 2, 0x341), (.rtr, 3, 0x86), (.rts, 4, 0), (.error, 0, 0), (.reset, 3, 0)],
      let q := { qpOf 0 with st := e.1 }
      let s := rdmBase q [modCmd e.2.1 e.2.2]
      s.doing 1 0x41 (modCmd e.2.1 e.2.2) ∧ (modCmd e.2.1 e.2.2).f 0 3 % 0x100000 = 2 ∧ s.qp? 2 = some q ∧ q.part = 0 ∧
        qpModOk q (modCmd e.2.1 e.2.2) = true ∧ s.notSent q = [] ∧ s.ownRecvs 2 q = []) ∧
    (let c := cmdOf 0x42 [(0, 2)]
     (rdmBase (qpOf 0) [c]).doing 1 0x42 c ∧ c.f 0 3 = 2 ∧ c.clean [at8 0 0 20] = true) ∧
    (let c := cmdOf 0x43 [(0, 0x1000), (8, 0x1000), (16, 7), (17, 255)]
     let s := rdmBase (qpOf 0) [c]
     s.doing 1 0x43 c ∧ c.clean [at8 0 0 64, at8 8 0 64, at8 16 0 3, at8 17 0 8] = true ∧ c.f 0 8 % 4096 = 0 ∧ c.f 8 8 % 4096 = 0 ∧
      s.inSpace c.p (c.f 0 8) (c.f 8 8) = true ∧ alook 0 s.rdm.mrs = none) ∧
    (let c := cmdOf 0x44 [(0, 0x307)]
     (rdmBase (qpOf 0) [c]).doing 1 0x44 c ∧ c.clean [at8 0 0 32] = true ∧
      alook (c.f 0 4 / 256) (rdmBase (qpOf 0) [c]).rdm.mrs = some ⟨0, 0, 0x1800000000, 7, c.f 0 1⟩) := by
  unfold State.doing
  refine ⟨by decide +kernel, by decide +kernel, by decide +kernel, by decide +kernel, by decide +kernel⟩

theorem witness_workRequests :
    (∀ e ∈ [(0x48, 1024), (0x49, 1), (0x4A, 4), (0x4B, 4), (0x4C, 1024), (0x4D, 8), (0x4E, 0)],
      let c := cmdOf e.1 [(0, e.2), (8, 0x1000), (16, 0x8000), (24, 0x307)]
      let s := rdmBase (qpOf 0) [c]
      s.doing 1 e.1 c ∧ s.qpOf? c.part c.sq = some 2 ∧ s.qp? 2 = some (qpOf 0) ∧ (qpOf 0).waitWr = [] ∧ (qpOf 0).out = [] ∧
        wrOk (qpOf 0) c = true ∧ s.wrLocal c = .ok ∧ c.f 42 1 = 0 ∧ s.outstanding ≤ 131072 ∧ (qpOf 0).ty = .rc ∧ (qpOf 0).fabric = true ∧
        (qpOf 0).pmtu = 3) ∧
    (let c := sendCmd [(42, 1), (44, 6)]
     let s := rdmBase (qpOf 0) [c]
     bitOf (c.f 42 1) 0 = true ∧ s.cqActive c.p (c.f 40 2) = true ∧ s.waitMet c = false ∧ wrOk (qpOf 0) c = true ∧
      (s.que.cmds.filter (fun d => d.watch)).length < 4096) ∧
    (let c := sendCmd [(42, 2), (44, 6)]
     c.f 42 1 = 2 ∧ wrOk (qpOf 0) c = true ∧ (∀ x ∈ (rdmBase (qpOf 0) [c]).rdm.early, ¬ (x.1 = c.part ∧ x.2.1 = c.f 44 4))) ∧
    (let c := { sendCmd [(42, 1), (44, 5)] with watch := true }
     let s := rdmBase (qpOf 0) [c]
     s.cmd? 1 = some c ∧ s.waitMet c = true ∧ c.f 42 1 = 1 ∧ s.outstanding < 131072) ∧
    (recvCmd 0 4).clean [at8 0 0 64, at8 8 0 32] = true ∧ (cmdOf 0x50 [(12, 1)]).clean [at8 0 0 64, at8 8 0 32] = false := by
  unfold State.doing
  refine ⟨by decide +kernel, by decide +kernel, by decide +kernel, by decide +kernel, by decide, by decide⟩

def nsDown : Ns := ⟨.down 3 1, 0, 1, 16, 1, 0, 0x1000, 9, 100, 0, [], 0, 0⟩

/-- Namespace 7 in state `st`. -/
def nsBase (st : NsSt) (c : Cmd) : State :=
  { withCmd c (withFlds [(fLDG_STATE_MGT, 2)] memBase) with rdm := { memBase.rdm with ns := [(7, { nsDown with st := st })] } }

theorem witness_Namespaces :
    (let c := cmdOf 0x60 [(0, 7), (1, 64), (2, 64), (4, 1024), (16, 0x1000)]
     (withCmd c memBase).doing 1 0x60 c ∧ nsParamsOk (withCmd c memBase) c = true ∧ (withCmd c memBase).ns? 7 = none ∧
      (withCmd c memBase).accessSt (c.f 16 8) 1024 = .ok ∧ (nsBase .up c).ns? 7 = some { nsDown with st := .up } ∧
      (nsBase .failed c).ns? 7 = some { nsDown with st := .failed } ∧
      (nsBase (.connecting 1 5) c).rdm.ns.find? (fun y => match y.2.st with | .connecting k _ => k = 1 | _ => false) =
        some (7, { nsDown with st := .connecting 1 5 }) ∧ nsParamsOk memBase (cmdOf 0x60 [(0, 7)]) = false) ∧
    (let c := cmdOf 0x61 [(0, 7)]
     c.clean [at8 0 0 8] = true ∧ (nsBase .up c).doing 1 0x61 c ∧ (nsBase .up c).nsWork 7 = [] ∧
      (nsBase .up (cmdOf 0x64 [(0, 7)])).nsWork 7 ≠ []) ∧
    ((nsBase (.down 3 1) (cmdOf 0 [])).ns? 7 = some nsDown ∧ (nsBase (.down 3 1) (cmdOf 0 [])).fld fLDG_STATE_MGT = 2) ∧
    (let c := cmdOf 0x62 [(0, 7), (4, 512), (8, 1024), (16, 0x8000)]
     let s := nsBase .up c
     s.doing 1 0x62 c ∧ nvmeOk { nsDown with st := .up } c = true ∧ s.partRanges c.p (c.f 16 8) 512 = .ok [(0x8000, 512)] ∧
      s.plainAt 0x8000 512 ∧ ({ nsDown with st := .up } : Ns).owner = c.part) ∧
    (let c := cmdOf 0x63 [(0, 7), (4, 512), (8, 1024), (16, 0x8000)]
     (nsBase .up c).doing 1 0x63 c ∧ ∃ b, (nsBase .up c).partRead c.p (c.f 16 8) (c.f 4 4) = .ok b ∧ b.length = c.f 4 4) ∧
    (let c := { cmdOf 0x64 [(0, 7)] with part := 1 }
     (nsBase .up c).doing 1 0x64 c ∧ c.part ≠ 0 ∧ (nsBase .up c).ns? (c.f 0 1) = some { nsDown with st := .up } ∧
      ({ nsDown with st := .up } : Ns).owner ≠ c.part ∧ (cmdOf 0x64 [(0, 7)]).clean [at8 0 0 8] = true) := by
  unfold State.doing State.plainAt
  refine ⟨by decide +kernel, by decide +kernel, by decide +kernel, by decide +kernel, ⟨by decide +kernel, List.replicate 512 0, by decide +kernel⟩,
    by decide +kernel⟩

/-- Packets of the source's known generation, of another one, of a source not heard of yet, in a reset, and handed up by a logical
port; the response to a destroyed queue pair. -/
theorem witness_packetSource :
    (let s := rdmBase (qpOf 0) []
     (pkt 1 .ack []).port = none ∧ s.fab.resetting = false ∧ s.flag (fFAB_GEN_KNOWN (pkt 1 .ack []).srcDev.val) = true ∧
      s.fld (fFAB_GEN_GEN (pkt 1 .ack []).srcDev.val) = (pkt 1 .ack []).srcGen.toNat ∧
      s.fld (fFAB_GEN_GEN (pkt 1 .ack []).srcDev.val) ≠ { pkt 1 .ack [] with srcGen := 1 }.srcGen.toNat) ∧
    ({ base with fab := { base.fab with resetting := true } } : State).fab.resetting = true ∧
    base.flag (fFAB_GEN_KNOWN (pkt 1 .ack []).srcDev.val) = false ∧ base.fab.resetting = false ∧
    (let s : State := { base with eth := { base.eth with handed := [(3, true)] } }
     { pkt 1 .ack [] with port := some 3 }.port = some 3 ∧
      s.eth.handed.find? (fun y => some (3 : Fin 16).val == some y.1) = some (3, true) ∧ ∀ x ∈ base.eth.handed, x.1 ≠ 3) ∧
    (let s : State := { base with rdm := { base.rdm with heldQpns := [(5, 0, 0)] } }
     isRsp .ack = true ∧ s.qp? 5 = none ∧ s.rdm.heldQpns.find? (fun y => y.1 = (pkt 5 .ack []).destQp.toNat) = some (5, 0, 0)) := by
  decide +kernel

/-- What ends at its longest time: a fetch, a message in progress, an attachment, a reconnection. -/
theorem witness_lateRdma :
    (let s : State := { rdmBase { qpOf 0 with die := .fetching (some 4) } [] with now := 40005 }
     s.qp? 2 = some { qpOf 0 with die := .fetching (some 4) } ∧ 4 + 40000 < s.now ∧ (rdmBase (qpOf 0) []).now ≤ 4 + 40000) ∧
    (let m : RdIn := ⟨⟨some 9, 0, 4, 77⟩, 2, none, [], 0, 6⟩
     let s : State := { rdmBase (qpOf 3) [] with now := 6400007, rdm := { (rdmBase (qpOf 3) []).rdm with rdIn := [m] } }
     s.rdm.rdIn = [m] ∧ m.start + 2 * (s.fld fRDM_CFG_KEEP_US * 800) < s.now ∧ s.qp? 2 = some (qpOf 3)) ∧
    (let c := cmdOf 0x60 [(0, 7)]
     let s := nsBase (.connecting 1 5) c
     s.doing 1 0x60 c ∧ s.ns? 7 = some { nsDown with st := .connecting 1 5 } ∧ s.now ≤ 5 + 8000000000 ∧
      5 + 8000000000 < ({ s with now := 8000000006 } : State).now ∧ ({ nsDown with st := .connecting 1 5 } : Ns).connects = true ∧
      ({ nsDown with st := .up } : Ns).connects = false) ∧
    ((nsBase (.down 3 60) (cmdOf 0 [])).ns? 7 = some { nsDown with st := .down 3 60 } ∧ (nsBase (.down 3 1) (cmdOf 0 [])).now ≤ 3 + 60 * 800000000) := by
  unfold State.doing
  refine ⟨by decide +kernel, by decide +kernel, by decide +kernel, by decide +kernel⟩

/-! ### Ethernet and traffic -/

/-- Frame bytes of an EtherType, with more bytes after it. -/
def frame (et : Nat) (l : List Byte) : List Byte :=
  let b := List.replicate 12 0 ++ [BitVec.ofNat 8 (et / 256), BitVec.ofNat 8 et] ++ l
  b ++ List.replicate (60 - b.length) 0

/-- Port 8 has its link; its first parser instruction is `i`. -/
def ethBase (i : Nat) : State :=
  let s := withFlds [(fETH_LPORT_STATUS_LINK 8, 1), (fETH_LPORT_CTRL_PFC_RX 8, 0x80), (fETH_LPORT_CTRL_PTP 8, 1), (fLDG_STATE_MGT, 2)] memBase
  s.setReg (rETH_PROG 0) (BitVec.ofNat 64 i)

theorem witness_ethFrames :
    ((ethBase 0).ethPresent (8 : Fin 16).val = true ∧ (ethBase 0).flag (fETH_LPORT_STATUS_LINK (8 : Fin 16).val) = true) ∧
    (frame 0x9000 []).length = 60 ∧ 0x7FFFC4 + (frame 0x9000 []).length ≤ 0x800000 ∧ 0x800000 < 0x7FFFC5 + (frame 0x9000 []).length ∧
    (beNat (((frame 0x8808 [0, 1]).drop 12).take 2) = 0x8808 ∧ beNat (((frame 0x8808 [0, 1]).drop 14).take 2) = 1) ∧
    (let b := frame 0x8808 ([1, 1, 0, 0x80] ++ List.replicate 14 0 ++ [0xFF, 0xFF])
     beNat ((b.drop 14).take 2) = 0x0101 ∧ bitOf (beNat ((b.drop 16).take 2)) 7 = true ∧
      bitOf ((ethBase 0).fld (fETH_LPORT_CTRL_PFC_RX (8 : Fin 16).val)) 7 = true ∧ beNat ((b.drop (18 + 2 * 7)).take 2) = 65535) ∧
    (let s := ethBase 0x6000000000000000
     s.mgmtTakes (frame 0x9000 []) = false ∧ beNat (((frame 0x9000 []).drop 12).take 2) = 0x9000 ∧
      s.flag (fETH_LPORT_CTRL_UNTAG_GRAPH (8 : Fin 16).val) = false ∧
      s.reg (rETH_PROG (256 * s.fld (fETH_LPORT_CTRL_PROG (8 : Fin 16).val))) = 0x6000000000000000 ∧
      (withFlds [(fETH_LPORT_CTRL_DEF_ACT 8, 1)] s).flag (fETH_LPORT_CTRL_DEF_ACT (8 : Fin 16).val) = true) ∧
    (let s := withCmd (recvCmd 0x1000 60) (ethBase 0x8000000000000000)
     8 ≤ (s.reg (rETH_PROG 0)).toNat / 2 ^ 60 ∧ s.recvHead? 0 0 = none ∧
      (withFlds [(fETH_EXC_Q_Q, 1)] s).recvHead? 0 ((withFlds [(fETH_EXC_Q_Q, 1)] s).fld fETH_EXC_Q_Q) = some (recvCmd 0x1000 60) ∧
      s.translate 0 0x1000 60 true = .ok [(0x1000, 60)] ∧ s.usable 0 [(0x1000, 60)] = .ok ∧ s.plainAt 0x1000 60) := by
  unfold State.plainAt
  refine ⟨by decide, by decide, by decide, by decide, by decide, by decide, by decide, by decide +kernel⟩

/-- A ternary entry that matches every key: PRECEDE is bit 4 of the action's first byte. -/
def ternEntry (a : Nat) : List Byte := List.replicate 128 0 ++ packed 16 [(0, a), (12, 2 ^ 31)]

theorem witness_classify :
    (let s := { base with eth := { base.eth with tables := [((1, 16383), ternEntry 16)] } }
     s.ternHit (List.replicate 64 0) = some (entAction (ternEntry 16)) ∧ bitOf (fieldAt (entAction (ternEntry 16)) 0 1) 4 = true) ∧
    bitOf (fieldAt (entAction (ternEntry 0)) 0 1) 4 = false ∧ base.ternHit (List.replicate 64 0) = none ∧
    bucketsOf (List.replicate 64 0) = (0x36AA, 0x1522) ∧
    (let e := List.replicate 32 0 ++ packed 16 [(12, 2 ^ 31)]
     let s := { base with eth := { base.eth with tables := [((0, 8 * 0x1522), e)] } }
     s.exactHit (List.replicate 64 0) = some (entAction e)) := by
  refine ⟨by decide +kernel, by decide +kernel, by decide +kernel, by decide +kernel, by decide +kernel⟩

theorem witness_ethControl :
    (alook (8, 7) [(((8 : Nat), (7 : Nat)), (55 : Nat))] = some 55) ∧
    ((ethBase 0).fld fLDG_STATE_MGT = 2 ∧ (ethBase 0).isSgid (gidBytes 0) = true ∧ (∀ x ∈ (ethBase 0).eth.hold, x.1 ≠ 0) ∧
      (ethBase 0).flag (fETH_LPORT_CTRL_PTP (8 : Fin 16).val) = true) ∧
    (withFlds [(fETH_LPORT_CTRL_ENABLE 8, 1)] base).flag (fETH_LPORT_CTRL_ENABLE (8 : Fin 16).val) = true ∧
    base.flag (fETH_LPORT_STATUS_LINK (8 : Fin 16).val) = false ∧
    (bitsOf (2 : BitVec 32).toNat 4 2 = base.fld fETH_CFG_MODE1 ∧ bitsOf (2 : BitVec 32).toNat 0 2 = 2 ∧
      (∀ i, i < 8 → base.ethPresent i = true → base.flag (fETH_LPORT_CTRL_ENABLE i) = false) ∧
      (let s := withFlds [(fETH_LPORT_CTRL_ENABLE 0, 1)] base
       s.ethPresent 0 = true ∧ s.flag (fETH_LPORT_CTRL_ENABLE 0) = true ∧ s.fld (fETH_LPORT_CTRL_PROG 0) = (255 : Fin 2048).val / 256)) ∧
    (bitsOf (0x60000FFF : BitVec 32).toNat 30 2 = 1 ∧ bitsOf (0x60000FFF : BitVec 32).toNat 28 2 = 2 ∧ bitsOf (0x60000FFF : BitVec 32).toNat 0 18 = 4095 ∧
      base.flag fETH_ENT_STATUS_BUSY = false ∧ bitsOf (0x90004000 : BitVec 32).toNat 0 18 = 16384 ∧
      (withFlds [(fETH_ENT_STATUS_BUSY, 1)] base).flag fETH_ENT_STATUS_BUSY = true ∧ (ternEntry 0).length = entBytes 1 ∧
      entValid (ternEntry 0) = true) := by
  refine ⟨by decide, by decide +kernel, by decide, by decide, by decide +kernel, by decide +kernel⟩

/-- A frame of partition 0 at port 8, class 7. -/
def leaving (ctrl : Bool) : TxFrame := ⟨8, ctrl, 7, 0, 1048575, 64, .mgmt 0 0, none, false⟩

theorem witness_TrafficControl :
    (let s := { ethBase 0 with eth := { (ethBase 0).eth with shps := [(4095, ⟨0x0100000100000001, -3⟩)], pols := [(9, ⟨5, 7, 1, 1⟩)] } }
     s.eth.refill = s.sch.tb.toNat / 1024 ∧ s.sch.tb.toNat + 1024 < 2 ^ 64 ∧ s.eth.newShps = [] ∧ s.eth.newPols = [] ∧
      alook 4095 s.eth.shps = some ⟨0x0100000100000001, -3⟩) ∧
    (0 < 1024 * max (base.eth.refill + 1) (base.sch.tb.toNat / 1024) ∧ base.eth.shps = []) ∧
    (bitsOf (0x0200000000000000 : BitVec 64).toNat 57 2 = 1 ∧ bitsOf (0x0400000000000000 : BitVec 64).toNat 57 2 = 2 ∧
      (let s := withFlds [(fTRF_POL_RATE_CIR 4095, 2), (fTRF_POL_RATE_PIR 4095, 1)] base
       s.fld (fTRF_POL_RATE_PIR 4095) < s.fld (fTRF_POL_RATE_CIR 4095))) ∧
    (let s := { ethBase 0 with eth := { (ethBase 0).eth with txq := [leaving true] } }
     s.eth.txq.find? (fun g => g.port = 8 && g.ctrl) = some (leaving true) ∧ s.flag (fETH_LPORT_STATUS_LINK 8) = true) ∧
    (let s := { withFlds [(fTRF_CNODE_SHAPER (cNode 8 7), 4095)] (ethBase 0) with
                eth := { (ethBase 0).eth with txq := [leaving false], shps := [(4095, ⟨0x0100000100000001, -3⟩)] } }
     s.path 8 7 0 = [4095] ∧ s.eth.txq = [leaving false] ∧ s.sch.tb.toNat / 1024 - s.eth.refill = 0 ∧ (leaving false).cls < 8 ∧
      (leaving false).queue < 1048576 ∧ alook (8, 7) s.eth.pauses = none ∧ s.cmd? 1 = none ∧ (withCmd (cmdOf 0x48 []) s).cmd? 1 = some (cmdOf 0x48 [])) := by
  refine ⟨by decide, by decide, by decide, by decide, by decide⟩

/-- Refills are due; a control packet of a paused class; a frame of a queue pair that is paced. -/
theorem witness_trafficWaits :
    (let s : State := { base with sch := { base.sch with tb := 4096 } }
     0 < s.sch.tb.toNat / 1024 - s.eth.refill ∧ s.eth.newShps = [] ∧ s.eth.newPols = []) ∧
    (let s : State := { base with eth := { base.eth with pauses := [((8, 7), 55)] } }
     (alook (8, 7) s.eth.pauses).isSome = true ∧ s.ctrlReady (leaving true) = true) ∧
    (let q := { qpOf 0 with rate := some 1000, paceAt := 5 }
     let s := rdmBase q []
     alook 2 s.rdm.qps = some q ∧ q.rate ≠ none ∧ s.now < q.paceAt) := by
  decide

/-! ### The cipher engine -/

/-- Host 0 holds the lock, the ring of 16 descriptors at 0x4000. -/
def cipBase (l : List Nat) : State :=
  withBytes 0x4000 (packed 64 [(0, l.getD 0 0), (1, 0), (2, 128), (8, 0x10000), (0x10, 0x20000), (0x18, 16)])
    (withFlds [(fCIP_LOCK_OWNER, 3), (fCIP_RING_CTRL_SIZE_LOG2, 4), (fCIP_RING_BASE_BASE, 0x4000), (fCIP_SLOT_VALID 128, 1), (fCIP_SLOT_USE 128, 1),
      (fCIP_CORES_IN_SERVICE, 0x800001)] memBase)

def cipRun (kind : Nat) (l : List (Nat × Nat)) : CipRun :=
  ⟨0, 0, 3, 0x4000, packed 64 ([(0, kind / 16), (1, kind % 16), (2, 1023), (8, 0x10000), (0x10, 0x20000), (0x18, 16)] ++ l), List.replicate 16 0,
    List.replicate 16 0, 0, none⟩

/-- One command runs. -/
def ciphering (r : CipRun) (s : State) : State := { s with cip := { s.cip with running := [r] } }

theorem witness_CipherRing :
    (base.ctrlFn ≠ 1 ∧ base.fld fCIP_LOCK_OWNER = 0 ∧ cipOwner (.host 0) = 3 ∧ (0xA55A0003 : BitVec 32).toNat / 65536 = 0xA55A ∧
      bitOf (0xA55A0003 : BitVec 32).toNat 1 = true) ∧
    (let s := cipBase []
     s.fld fCIP_LOCK_OWNER = 3 ∧ cipOwner (.management []) ≠ 3 ∧ cipOwner (.management []) ≠ 0 ∧
      (∀ q ∈ [1, 2, 3], ¬ (alook q s.cip.waits).isSome = true) ∧ s.cip.running = []) ∧
    (let s := { cipBase [] with cip := { (cipBase []).cip with waits := [(2, 5)] } }
     (alook 2 s.cip.waits).isSome = true ∧ (alook 1 s.cip.waits).isSome = false) ∧
    (∀ l ∈ [[1], [2], [9], [8]],
      let s := cipBase l
      let d := s.bytesHeld (s.fld fCIP_RING_BASE_BASE + 64 * s.cip.next) 64
      4 ≤ s.fld fCIP_RING_CTRL_SIZE_LOG2 ∧ s.cip.next = s.fld fCIP_TAIL_INDEX ∧ (1 : BitVec 32).toNat % 65536 = (s.cip.next + 1) % 2 ^ 4 ∧
        (s.region? (s.fld fCIP_RING_BASE_BASE + 64 * s.cip.next) 64).isSome = true ∧ [fieldAt d 0 1] = l ∧ fieldAt d 2 2 % 1024 = 128 ∧
        fieldAt d 0x18 4 = 16 ∧ (s.region? (fieldAt d 8 8) 16).isSome = true ∧ (s.region? (fieldAt d 0x10 8) 16).isSome = true ∧
        s.flag (fCIP_SLOT_VALID 128) = true ∧ bitOf (s.fld (fCIP_SLOT_USE 128)) 0 = true ∧ bitOf (s.fld (fCIP_SLOT_USE 128)) 1 = false) ∧
    (let r := { cipRun 0x10 [] with result := some (.ok, 0x6000) }
     let s := ciphering r (withFlds [(fCIP_CFG_VEC_EN, 1)] (cipBase [1]))
     s.cip.running = [r] ∧ r.path = 3 ∧ s.fld fCIP_LOCK_GEN = r.gen ∧ s.cip.next = s.fld fCIP_TAIL_INDEX ∧ s.plainAt r.at_ 64 ∧
      s.writeHeld (r.at_ + 0x38) 8 = false ∧ s.fld fCIP_HEAD_INDEX = r.idx ∧ s.cip.dones = [] ∧
      (let t := { s with hif := { s.hif with msix := s.hif.msix.set 0 ⟨true, false, [(0, ⟨8, 9, false⟩)], []⟩ } }
       t.hif.msix[t.ctrlFn].enable = true ∧ (smGet MsixEntry.reset t.hif.msix[t.ctrlFn].table (t.fld fCIP_CFG_VECTOR)).mask = false)) ∧
    (let s := withFlds [(fCIP_TAIL_INDEX, 1)] (cipBase [1])
     s.fld fCIP_TAIL_INDEX = (s.cip.next + 1) % 2 ^ 4 ∧ s.flag fCIP_CFG_VEC_EN = false ∧ s.plainAt 0x4000 64) := by
  unfold State.plainAt
  refine ⟨by decide, by decide, by decide, by decide +kernel, by decide +kernel, by decide +kernel⟩

/-- The tail is ahead of the next descriptor, so that index 0 would withdraw one; the output of a command is held. -/
theorem witness_cipherWaits :
    (let s := withFlds [(fCIP_TAIL_INDEX, 1)] (cipBase [1])
     s.fld fCIP_LOCK_OWNER = 3 ∧ (0 : BitVec 32).toNat % 65536 < 2 ^ 4 ∧
      ((0 : BitVec 32).toNat % 65536 + 2 ^ 4 - s.cip.next) % 2 ^ 4 < (s.fld fCIP_TAIL_INDEX + 2 ^ 4 - s.cip.next) % 2 ^ 4) ∧
    (let r := { cipRun 0x10 [] with result := some (.ok, 0x6000) }
     let b := ciphering r (cipBase [1])
     let s : State := { b with ckp := { b.ckp with held := [⟨0x20000, [0], false, .cip r.idx r.gen⟩] } }
     (∃ w ∈ s.ckp.held, w.owner = .cip r.idx r.gen) ∧ ∀ w ∈ b.ckp.held, w.owner ≠ .cip r.idx r.gen) ∧
    ({ cipRun 0x10 [] with result := some (.invalidState, 0x6000) } : CipRun).result = some (.invalidState, 0x6000) := by
  decide +kernel

theorem witness_cipherPair : ∃ a b, a < b ∧ b < 24 ∧ bitOf ((cipBase [1]).fld fCIP_CORES_IN_SERVICE) a = true ∧
    bitOf ((cipBase [1]).fld fCIP_CORES_IN_SERVICE) b = true := ⟨0, 23, by decide, by decide, by decide +kernel, by decide +kernel⟩

theorem witness_cipherBlocks :
    (∀ e ∈ [0x10, 0x20, 0x81, 0x82, 0x83, 0x84, 0x85, 0x30, 0x40, 0x50, 0x60, 0x70],
      let r := cipRun e []
      let s := ciphering r (cipBase [1])
      s.cip.running = [r] ∧ r.result = none ∧ cdKind r.desc = e ∧ cdSrc r.desc = 0x10000 ∧ cdDst r.desc = 0x20000 ∧ cdLen r.desc = 16 ∧
        s.accessSt (cdSrc r.desc) 32 = .ok ∧ s.accessSt (cdDst r.desc) 32 = .ok ∧ s.accessSt (cdAad r.desc) (cdAadLen r.desc) = .ok ∧ r.k1.length = 16) ∧
    (let s := ciphering (cipRun 0x10 []) (cipBase [1])
     s.plainAt 0x20000 32 ∧ s.writeHeld 0x20000 32 = false ∧ (s.bytesHeld 0x10000 16).length = 16) ∧
    ¬ (∃ a b, a < b ∧ b < 24 ∧ bitOf ((withFlds [(fCIP_CORES_IN_SERVICE, 1)] base).fld fCIP_CORES_IN_SERVICE) a = true ∧
      bitOf ((withFlds [(fCIP_CORES_IN_SERVICE, 1)] base).fld fCIP_CORES_IN_SERVICE) b = true) := by
  refine ⟨by decide +kernel, by unfold State.plainAt; decide +kernel, ?_⟩
  have h : ∀ b, b < 24 → bitOf ((withFlds [(fCIP_CORES_IN_SERVICE, 1)] base).fld fCIP_CORES_IN_SERVICE) b = true → b = 0 := by decide +kernel
  rintro ⟨a, b, h1, h2, _, h4⟩
  have := h b h2 h4
  omega

/-- Test case 2 of the GCM specification: key, IV and plaintext zero. -/
def gcmCt : List Byte := [0x03, 0x88, 0xDA, 0xCE, 0x60, 0xB6, 0xA3, 0x92, 0xF3, 0x28, 0xC2, 0xB9, 0x71, 0xB2, 0xFE, 0x78]
def gcmTg : List Byte := [0xAB, 0x6E, 0x47, 0xD4, 0x2C, 0xEC, 0x13, 0xBD, 0xF5, 0x3A, 0x67, 0xB2, 0x12, 0x57, 0xBD, 0xDF]

theorem test_gcmTag : gcmTag (List.replicate 16 0) (List.replicate 16 0) [] ((gcmCt ++ gcmTg).take 16) = (gcmCt ++ gcmTg).drop 16 := by
  decide +kernel

theorem witness_cipherLengths (x : List Byte) (hx : x.length = 16) :
    let r := cipRun 0x10 []
    (aesEncAll r.k1 x).length = cdLen r.desc ∧ (aesDecAll r.k1 x).length = cdLen r.desc ∧ (aesCtr r.k1 (cdIv r.desc) x).length = cdLen r.desc ∧
      (xtsEnc r.k1 r.k2 (cdIv r.desc) x).length = cdLen r.desc ∧ (gcmText r.k1 (cdIv r.desc) x).length = cdLen r.desc ∧
      ∀ c, (gcmTag r.k1 (cdIv r.desc) [] c).length = 16 := by
  have hl : cdLen (cipRun 0x10 []).desc = 16 := by decide
  have hi : (cdIv (cipRun 0x10 []).desc).length = 16 := by decide
  refine ⟨by rw [Laws.aesEncAll_length _ _ (Or.inl rfl) (by omega), hx, hl], by rw [Laws.aesDecAll_length _ _ (Or.inl rfl) (by omega), hx, hl],
    by rw [Laws.aesCtr_length _ _ _ (Or.inl rfl) hi, hx, hl],
    by rw [Laws.xtsEnc_length _ _ _ _ (Or.inl rfl) (Or.inl rfl) hi (by omega), hx, hl],
    by rw [Laws.gcmText_length _ _ _ (Or.inl rfl) (by omega), hx, hl], fun c => Laws.gcmTag_length _ _ _ _ (Or.inl rfl) (by omega)⟩

/-- A packet of the transport in a frame on port 8, its destination an IPv4 address. -/
theorem witness_framed :
    let k : RdmaTx := ⟨some 8, 0, v4Gid [192, 0, 2, 1], 7, 0, 49152, 0, 0, 0, 5, 0, true, .ack, []⟩
    let s := ethBase 0
    let f : TxFrame := { leaving true with body := .rdma k 4791 2 }
    (∃ u d e, f.body = .rdma u d e) ∧ gidV4 k.gid = true ∧ (alook (8, f.cls) s.eth.pauses).isSome = false ∧ f.ctrl = true := by
  exact ⟨⟨_, _, _, rfl⟩, by decide +kernel, by decide +kernel, rfl⟩

/-! ### Resets, bring-up, the lodge -/

/-- `s` with the lodge's state `l`. -/
def withLdg (l : Ldg) (s : State) : State := { s with ldg := l }

theorem witness_Resets :
    base.ldg.tripped = false ∧ (withLdg { Ldg.reset with tripped := true } base).ldg.tripped = true ∧
    ((0xA55A0003 : BitVec 32).toNat / 65536 = 0xA55A ∧ bitOf (0xA55A0003 : BitVec 32).toNat 1 = true ∧ (0xA55A0001 : BitVec 32).toNat % 4 = 1 ∧
      (0xA55A0004 : BitVec 32).toNat % 4 = 0) ∧
    (base.flag fHIF_CFG_BIF = false ∧ (withFlds [(fHIF_CFG_BIF, 1)] base).flag fHIF_CFG_BIF = true ∧ base.ctrlFn = 0 ∧
      base.gmem.migs = [] ∧ base.ckp.restore = none ∧ ∀ p : Fin 65, p ≠ 0 → (base.part p).st ≠ .active ∧ (base.part p).st ≠ .freezing) := by decide +kernel

/-- A SEAL that has started has its descriptor in the memory of host 1. -/
theorem witness_serviceAtPerst :
    let d := cmdOf 0x02 [(0, 0x3000000000000)]
    let b := withCmd d (withFlds [(fHIF_CFG_BIF, 1)] base)
    let s : State := { b with gmem := { b.gmem with svcRun := [(d.id, 0)] } }
    s.cmd? d.id = some d ∧ s.svcRuns d = true ∧ d.done = none ∧ d.op ≠ 0x10 ∧ (1 : Fin 2) ≠ s.ctrlFn ∧
      ∃ x ∈ s.cmdSpans d, ∃ b n, s.regionAt x.1 = some (.host (1 : Fin 2).val, b, n) :=
  ⟨by decide, by decide, by decide, by decide, by decide +kernel, (0x3000000000000, 64), by decide +kernel, 0x3000000000000,
    0x1000000000000, by decide +kernel⟩

/-- A flash with helper data, no record valid: no key makes an empty record verify. -/
theorem witness_rom : ∀ s : State, s.recordOk [] 2 (keyDigest s.devPub) false = false := by
  intro s
  have h : recordForm [] 2 1 = false := by decide
  simp [State.recordOk, h]

/-- An SKU record whose TERRACES is 16, the wave of terrace 0 made. -/
def wakeBase (step : Nat) : State :=
  let s := withLdg { Ldg.reset with step := step, waves := [(0, 7)] } (withFlds [(fLDG_STATE_SEC, 2), (fHIF_SLOT_STATUS_STATE 15, 1)] base)
  { s with tru := { s.tru with sku := some (packed 96 [(0x46, 16), (0x4C, 0xFFFF)]) } }

/-- The vendor's key is open, so records that verify under it are a premise here. -/
theorem witness_firmware (a b c : List Byte)
    (h : let s := withLdg { Ldg.reset with step := 4, flash := { flashEmpty with setA := [(2, a), (3, b), (4, c)] } } (withFlds [(fLDG_STATE_SEC, 2)] base)
      s.fwOk 0 2 = true ∧ s.fwOk 0 3 = true ∧ s.fwOk 0 4 = true) :
    ∃ s : State, s.ldg.step = 4 ∧ s.fld fLDG_STATE_SEC = 2 ∧ s.fld fCIP_BOOT_IMG = 0 ∧ s.fwOk 0 2 = true ∧ s.fwOk 0 3 = true ∧ s.fwOk 0 4 = true := by
  refine ⟨withLdg { Ldg.reset with step := 4, flash := { flashEmpty with setA := [(2, a), (3, b), (4, c)] } } (withFlds [(fLDG_STATE_SEC, 2)] base), rfl, ?_, ?_, h⟩
  · show (withFlds [(fLDG_STATE_SEC, 2)] base).fld fLDG_STATE_SEC = 2
    decide
  · show (withFlds [(fLDG_STATE_SEC, 2)] base).fld fCIP_BOOT_IMG = 0
    decide

theorem witness_BringUp :
    (let s := wakeBase 4
     s.ldg.step = 4 ∧ s.fld fLDG_STATE_SEC = 2 ∧ (wakeBase 6).ldg.step ≠ 4 ∧ s.fld (fHIF_SLOT_STATUS_STATE (15 : Fin 16).val) = 1 ∧
      s.gated (s.skuField 12 2) 7 = false ∧ (14 : Fin 16).val % 2 = 0) ∧
    (∀ s : State, s.ldg.flash = flashEmpty → s.fwOk 0 2 = false) ∧
    ((wakeBase 6).ldg.step = 6 ∧ (15 : Fin 16).val < (wakeBase 6).skuField 6 1 ∧ (∀ w ∈ (wakeBase 6).ldg.waves, w.1 ≠ 15) ∧
      ((wakeBase 6).pav 143).excluded = false ∧ ((wakeBase 6).pav 143).tested = false ∧ (143 : Fin 144).val / 9 = 15 ∧
      2 ≤ (wakeBase 6).skuField 6 1) ∧
    (let s := (wakeBase 6).setPav 8 { (wakeBase 6).pav 8 with ungated := true }
     (s.pav 8).ungated = true ∧ (s.pav 8).tested = false ∧ s.ldg.waves = [((8 : Fin 144).val / 9, 7)]) ∧
    (let s := (withLdg { Ldg.reset with step := 6, waves := (List.range 16).map (fun x => (x, 7)) } base).setPav 8 { base.pav 8 with ungated := true }
     (∀ q : Fin 144, q ≠ 8 → (s.pav q).ungated = true → (s.pav q).tested = true) ∧
      ∀ x, x < min 16 (s.skuField 6 1) → ∃ w ∈ s.ldg.waves, w.1 = x) ∧
    ((wakeBase 7).ldg.step = 7 ∧ (wakeBase 7).gmem.training = none) ∧ base.fab.genHold = none := by
  refine ⟨by decide +kernel, fun s h => ?_, by decide +kernel, by decide +kernel, by decide +kernel, by decide, by decide⟩
  have e : flashPart s.ldg.flash 0 2 = [] := by rw [h]; decide
  have f : recordForm [] 4 (if s.cosign then 2 else 1) = false := by cases s.cosign <;> decide
  simp [State.fwOk, State.recordOk, e, f]

/-- Pavilion 127 is being loaded with two halfwords of program. -/
def loading (r : Option Bool) (round : Nat) : PavLoad := ⟨127, false, [0x1234, 0x5678], [], 1, r, round, 9⟩

def loadBase (d : PavLoad) : State := withLdg { Ldg.reset with loads := [d] } base

theorem witness_PavilionLoading :
    (let d := loading none 0
     let s := loadBase d
     s.ldg.loads = [d] ∧ d.lpav = (127 : Fin 128).val ∧ s.phys? (127 : Fin 128).val = some 143 ∧ d.report = none ∧
      crc32c [0, 0] ≠ 0 ∧ crc32c [0, 0] = 0xF16177D2 ∧ d.bitmap.toNat = 2 ^ 1 - 1) ∧
    (let s := (loadBase (loading none 0)).setPav 143 { (loadBase (loading none 0)).pav 143 with imem := [(0, 0x1234), (1, 0x5678)] }
     ∀ i, i < 2 → smGet (fun _ => 0) (s.pav 143).imem i = (loading none 0).imem.getD i 0) ∧
    (((loadBase (loading none 0)).setPav 143 { base.pav 143 with refusing := true }).pav 143).refusing = true ∧ (base.pav 143).refusing = false ∧
    loadMatches (base.pav 143) (loading none 0) = false ∧
    (loading (some false) 2).report = some false ∧ (loading (some false) 2).round < 3 ∧ 3 ≤ (loading (some false) 3).round ∧
    (loadBase (loading (some false) 3)).running = false ∧ ((loadBase (loading (some false) 3)).outLoads [loading (some false) 3]).mapBusy = false ∧
    (withFlds [(fSCH_STATE_RUN, 2)] base).running = true := by
  refine ⟨by decide +kernel, by decide +kernel, by decide +kernel, by decide, by decide +kernel, by decide, by decide, by decide, by decide,
    by decide +kernel, by decide⟩

/-- An EMU command block of CMD `c` with its arguments. -/
def emuBlock (c a n r : Nat) : List Byte := packed 64 [(0, c), (0x10, a), (0x18, n), (0x20, r)]

/-- It runs, at address 0x100. -/
def emuBase (c a n r : Nat) (res : Option (Status × Nat × Nat)) : State :=
  withLdg { Ldg.reset with emu := some ⟨0x100, emuBlock c a n r, res⟩ } (withFlds [(fLDG_STATE_MGT, 2)] memBase)

/-- A firmware record of 128 bytes of part `n`; its signature is zero. -/
def fwRec (n : Nat) : List Byte := packed 128 [(0, 0x44524353), (4, 4), (6, 1), (8, 128), (0x40, n)]

theorem witness_EmuCommands :
    (let s := emuBase 1 0x1000 512 0 none
     s.fld fLDG_STATE_MGT = 2 ∧ s.ldg.emu = some ⟨0x100, emuBlock 1 0x1000 512 0, none⟩ ∧ emuCmd (emuBlock 1 0x1000 512 0) = 1 ∧
      emuArg (emuBlock 1 0x1000 512 0) 1 = 512 ∧ s.accessSt 0x1000 512 = .ok ∧ s.region? 0x2000000000 512 = none ∧ base.accessSt 0 512 ≠ .ok ∧
      (base.region? 0 512).isSome = true ∧ s.stageSet = 1) ∧
    (let s := withBytes 0x1000 (fwRec 1 ++ fwRec 2 ++ fwRec 3 ++ fwRec 4) memBase
     splitRecords 5 (s.bytesHeld 0x1000 512) = some [fwRec 1, fwRec 2, fwRec 3, fwRec 4]) ∧
    (packageOk [fwRec 1, fwRec 2, fwRec 3, fwRec 4] 1 = true ∧ packageOk [fwRec 1] 1 = false ∧ base.cosign = false ∧
      (∀ y ∈ [fwRec 1, fwRec 2, fwRec 3, fwRec 4], fieldAt y 6 2 = 1 ∧ base.minSvn ≤ fieldAt y 0xC 4) ∧ sigOk Config.vendorKey [] (List.replicate 64 0) = false) ∧
    ((∀ c ∈ [2, 3, 4, 5, 6, 7], emuCmd (emuBlock c 0 0 0) = c) ∧ emuArg (emuBlock 5 0x2000 0x8000 0) 1 % 65536 = 2 ^ (15 : Fin 16).val ∧
      (emuBase 5 0x2000 0x8000 0 none).accessSt 0x2000 64 = .ok ∧ (emuBase 6 0x2000 4096 0x8000 none).accessSt 0x8000 2048 = .ok ∧
      (emuBase 6 0x2000 4096 0x8000 none).plainAt 0x8000 2048 ∧ (emuBase 7 0x2000 4096 0 none).region? 0x2000 4096 = some .gddr) ∧
    ((emuBlock 1 0 0 0).length = 64 ∧ base.cq? 0 (base.part 0).evq = none ∧ memBase.plainAt 0x100 64) := by
  unfold State.plainAt
  refine ⟨by decide +kernel, by decide +kernel, ⟨by decide +kernel, by decide +kernel, by decide, by decide +kernel, ?_⟩, by decide +kernel, by decide +kernel⟩
  have h1 : beNat ((List.replicate 64 (0 : Byte)).take 32) = 0 := by decide
  simp [sigOk, ecdsaOk, beNat, leNat]

/-- A segment of 2 bytes. -/
def distSeg (crc : Nat) : DistSeg := ⟨0, 0, 2, sha256 [0, 0], [0, 0], BitVec.ofNat 32 crc, true⟩

theorem witness_distribution :
    (let s := withFlds [(fSCH_TS_CTRL_ROOT, 0), (fSCH_TS_CTRL_PARENT_PORT, 0)] linkBase
     s.portV3 (distSeg 0).port.val = true ∧ s.flag fSCH_TS_CTRL_ROOT = false ∧ s.fld fSCH_TS_CTRL_PARENT_PORT = (distSeg 0).port.val) ∧
    crc32c (distSeg 0xF16177D2).data = (distSeg 0xF16177D2).crc ∧ crc32c (distSeg 0).data ≠ (distSeg 0).crc ∧
    (let d : Dist := ⟨0x4000, 4096, some (2, (distSeg 0).digest), []⟩
     d.img = some ((distSeg 0).total, (distSeg 0).digest) ∧ (distSeg 0).total ≤ d.len ∧ 4096 * (distSeg 0).index + 2 ≤ (distSeg 0).total) := by
  decide +kernel

/-- The firmware update is in state `fw`, the management processor in state `mgt`. -/
def lodgeBase (fw mgt : Nat) : State := withFlds [(fEMU_STATUS_FW_STATE, fw), (fLDG_STATE_MGT, mgt), (fLDG_EV_SRC_ENABLE 0 511, 1), (fLDG_EV_SRC_PENDING 0 511, 1), (fLDG_EV_CTRL_DELIVER_DIS 0, 0), (fLDG_EV_CTRL_CORE_MASK 0, 0)] base

theorem witness_LodgeProcessors :
    ((lodgeBase 3 2).fld fEMU_STATUS_FW_STATE = 3 ∧ (lodgeBase 3 2).ldg.act = none ∧ (lodgeBase 3 2).running = false ∧
      (lodgeBase 3 2).flag fPWR_STATE_EMERG = false ∧ (withFlds [(fPWR_STATE_EMERG, 1)] (lodgeBase 3 2)).flag fPWR_STATE_EMERG = true ∧
      (flashDir base.ldg.flash).seq.toNat + 1 < 2 ^ 32) ∧
    ((lodgeBase 4 2).fld fEMU_STATUS_FW_STATE = 4 ∧ (lodgeBase 4 2).pwr.calm = some 0) ∧
    (let s := withLdg { Ldg.reset with fwDue := true } (atEnd image 0 1)
     s.running = true ∧ s.ldg.fwDue = true) ∧
    ((lodgeBase 0 2).fld fLDG_STATE_MGT = 2 ∧ ((lodgeBase 0 2).ldg.restarts.filter (fun r => r.1 = .mgmt ∧ 0 < r.2 + 800000000)).length ≤ 1 ∧
      (let s := withLdg { Ldg.reset with restarts := [(.mgmt, 0), (.mgmt, 0)] } (lodgeBase 0 2)
       2 ≤ (s.ldg.restarts.filter (fun r => r.1 = .mgmt ∧ s.now < r.2 + 800000000)).length)) ∧
    ((lodgeBase 0 3).fld fLDG_STATE_MGT = 3 ∧
      (let s := withLdg { Ldg.reset with act := some ⟨1, 0, [.mgmt, .sec], false⟩ } (lodgeBase 0 3)
       s.ldg.act = some ⟨1, 0, [.mgmt, .sec], false⟩ ∧ s.fwOk 1 2 = false)) ∧
    ((259 : Fin 512).val < 260 ∧ 260 ≤ (260 : Fin 512).val) ∧
    (let s := lodgeBase 0 2
     s.flag (fLDG_EV_SRC_ENABLE 0 511) = true ∧ s.flag (fLDG_EV_SRC_PENDING 0 511) = true ∧ s.flag (fLDG_EV_CTRL_DELIVER_DIS 0) = false ∧
      s.flag (fLDG_EV_CTRL_CORE_MASK 0) = false ∧ ∀ j, j < 511 → s.flag (fLDG_EV_SRC_ENABLE 0 j) = false) := by
  refine ⟨by decide +kernel, by decide +kernel, by decide, by decide +kernel, ⟨by decide +kernel, rfl, ?_⟩, by decide, by decide +kernel⟩
  have g : ∀ s : State, s.ldg.flash = flashEmpty → s.tru.owner = none → s.fwOk 1 2 = false := by
    intro s h1 h2
    have f : recordForm [] 4 1 = false := by decide
    have e : flashPart s.ldg.flash 1 2 = [] := by rw [h1]; decide
    simp [State.fwOk, State.recordOk, State.cosign, e, f, h2]
  exact g _ rfl rfl

/-! ### Power and management -/

/-- The power processor runs; record 1 of the schedule has the higher class. -/
def powered (w : Pwr) : State :=
  { withFlds [(fLDG_STATE_PWR, 2), (fPWR_CFG_PACE_EN, 1), (fPWR_STATE_REQ, 5)] (atEnd { image with recs := [⟨1000, true, true, 0, 0⟩, ⟨1000, true, true, 3, 0⟩] } 0 1)
    with pwr := w }

theorem witness_CoreVoltageAndClamp :
    (let s := powered Pwr.reset
     s.fld fLDG_STATE_PWR = 2 ∧ (∀ k ∈ [2, 3, 4, 5, 7], k ∈ s.pwr.seen) ∧ s.pwr.boost < 3 ∧ s.sch.trs = [] ∧ s.sch.hold = 0) ∧
    (let s := withSch (fun x => { x with tb := 7000 }) (powered Pwr.reset)
     risingBoundary s.sch.tb.toNat s.epochsFrom = some 8000 ∧ s.risingReplay = none) ∧
    (let s := withSch (fun x => { x with trs := [24000], stepRec := 1 }) (powered Pwr.reset)
     s.risingReplay = some 24000) ∧
    (base.risingReplay = none ∧ risingBoundary base.sch.tb.toNat base.epochsFrom = none ∧ base.fld fLDG_STATE_PWR ≠ 2) ∧
    ((powered { Pwr.reset with boostTill := some 9, boost := 3 }).pwr.boostTill = some 9 ∧ 3 ≤ (powered { Pwr.reset with boost := 3 }).pwr.boost) ∧
    (base.ldg.tripped = false ∧ (∃ x ∈ [(0 : Int), 1840], 1840 ≤ x) ∧ (∀ x ∈ [(1839 : Int)], x < 1840) ∧ base.flag fPWR_STATE_CLAMP_ACT = false ∧
      (powered Pwr.reset).running = true ∧ (powered Pwr.reset).sch.recorded = false) ∧
    (let s := { withFlds [(fPWR_STATE_CLAMP_ACT, 1)] base with pwr := { Pwr.reset with cool := some 4, sensors := [1600] } }
     s.pwr.cool = some 4 ∧ s.flag fPWR_STATE_CLAMP_ACT = true ∧ s.pwr.sensors ≠ []) := by
  decide +kernel

theorem witness_PowerLoops :
    (powered Pwr.reset).fld fLDG_STATE_PWR = 2 ∧ base.fld fLDG_STATE_PWR ≠ 2 ∧ (powered Pwr.reset).flag fPWR_CFG_PACE_EN = true ∧
    (powered Pwr.reset).paceWant < (powered Pwr.reset).fld fPWR_STATE_REQ ∧ (∀ k ∈ [2, 3, 4, 5, 7], k ∈ (powered Pwr.reset).pwr.seen) ∧
    (powered Pwr.reset).pwr.paceTj ≤ 15 ∧ (powered Pwr.reset).pwr.energy ≤ 15 ∧
    (let s := powered { Pwr.reset with overSince := some 1, minSince := some 2, underSince := some 3 }
     s.pwr.overSince = some 1 ∧ s.pwr.minSince = some 2 ∧ s.pwr.underSince = some 3) := by
  decide +kernel

theorem witness_Management :
    (let s := withFlds [(fLOG_MCTP_SMB_EN, 1), (fLOG_MCTP_I3C_EN, 1), (fLOG_MCTP_VDM_EN, 1)] (lodgeBase 0 2)
     s.fld fLDG_STATE_MGT = 2 ∧ s.flag fLOG_MCTP_SMB_EN = true ∧ s.flag fLOG_MCTP_I3C_EN = true ∧ s.flag fLOG_MCTP_VDM_EN = true ∧ s.ctrlFn = 0) ∧
    (alook ((65535 + 1) % 65536) [(0, (⟨0, 0, 0, 0, 0, .ok, 0, 0, 0⟩ : LogEntry))]).isSome = true := by decide +kernel

theorem witness_RegisterWrites :
    (0x3FFFFF8 < 0x4000000 ∧ 0x790200 ≤ 0x3FFFFF8 ∧ sizeFits 0x3FFFFF8 3 = false ∧ sizeFits rFAB_DEVNUM 4 = true ∧ rFAB_DEVNUM < 0x780000) ∧
    (base.ctrlFn = 0 ∧ base.lodgeRuns .mgmt = false ∧ (base.hif.msix[(1 : Fin 2)].pba = [])) ∧
    ((withFlds [(fCKP_STATE_PHASE, 1)] base).fld fCKP_STATE_PHASE ≠ 0 ∧ (withFlds [(fSCH_STATE_IMG, 1)] base).fld fSCH_STATE_IMG = 1 ∧
      base.fld fSCH_STATE_IMG ≠ 1 ∧ base.homeFn 64 = 0 ∧ base.homeFn 64 ≠ 1) ∧
    (({ regX with ep := true } : RegX).ep = true ∧ regX.ep = false ∧ base.fld fCKP_STATE_PHASE = 0 ∧ (0x1800000000 : BitVec 64) ≠ 0 ∧
      base.region? (0x1800000000 : BitVec 64).toNat 0x40000000 ≠ some .gddr) := by decide

theorem witness_SemaphoreSaturation :
    base.phys? 127 = some 143 ∧ (let s := base.setPav 143 { base.pav 143 with sems := (base.pav 143).sems.set 63 0xFFFFFFFF }
      0xFFFFFFFF < (((s.pav 143).sems[63]).toNat : Int) + (1 : BitVec 16).toInt ∧
      (((base.pav 143).sems[63]).toNat : Int) + (0xFFFF : BitVec 16).toInt < 0) := by decide

theorem witness_StepKeepsWf : State.reset.wf = true ∧ base.wf = true ∧ ∃ t, step base = .next t := by
  refine ⟨by decide, by decide, ?_⟩
  exact ⟨_, rfl⟩

/-! ### The spec's worked examples -/

/-- Number Formats, Example 1 (R39): elements 40 and 13 of an MXFP4 block. -/
theorem test_mxfp4 : mxQuant 0xE 0 ([40, 13].map (fun n => FVal.fin false n 0) ++ List.replicate 30 (.fin false 0 0)) =
    ([6, 3] ++ List.replicate 30 0, 0x82) := by decide +kernel

/-- Number Formats, Example 2: FP32 to BF16. -/
theorem test_bf16 : fmtBF16.encode 0 false 0 (val32 0x3F808000) = 0x3F80 ∧ fmtBF16.encode 0 false 0 (val32 0x3F818000) = 0x3F82 := by
  decide +kernel

/-- Number Formats, Example 4 (R48). -/
theorem test_pairSum : psum [0x4B800000, 0x3F800000, 0x3F800000, 0xCB800000] = 0x3F800000 := by decide +kernel

/-- Memory and Context, Example 1 (R237): 2.5, 4, −1, 4, 2.5, NaN. -/
theorem test_selectPages : selectPages [0x40200000, 0x40800000, 0xBF800000, 0x40800000, 0x40200000, 0x7FC00000] 3 = [0, 1, 3] := by
  decide +kernel

/-- Collectives, Example 2: 1 − 0x3F66_6666. -/
theorem test_omb1 : fsub 0 0x3F800000 0x3F666666 = 0x3DCCCCD0 := by decide +kernel

/-- Ethernet, Example 2 (R385): the 21st, the 22nd, the 43rd and the 44th frame of 1,500 bytes. -/
theorem test_policer :
    let p (tc te : Nat) : Pol := ⟨BitVec.ofNat 64 (409600 + 819200 * 2 ^ 32), BitVec.ofNat 64 (32768 + 65536 * 2 ^ 24 + 2 ^ 57), 256 * tc, 256 * te⟩
    (p 2768 35536).meter .green 1500 = (.green, p 1268 34036) ∧ (p 1268 34036).meter .green 1500 = (.yellow, p 1268 32536) ∧
      (p 1268 2536).meter .green 1500 = (.yellow, p 1268 1036) ∧ (p 1268 1036).meter .green 1500 = (.red, p 1268 1036) := by decide +kernel

/-- PCIe, Example 2 (R301): slot 4's window lies at TARGET 0x0001_4800_0000_0000. -/
theorem test_slotTarget : base.region? 0x1480000000000 0x1000000000 = some (.accel 4) := by decide +kernel

/-- Ethernet, Example 1 (R373): the words at index 1, for an EtherType that is not IPv4, and at index 7, for IHL 5. -/
theorem test_parseWords :
    let p : PState := ⟨0, fun i => if i = 1 then 5 else 0x86DD, List.replicate 64 0, none, none, none, none⟩
    (match parseStep [] 0x20B0000001000800 1 p with | .go _ pc => pc | .stop _ => 999) = 11 ∧
      (match parseStep [] 0x3000000E01021000 7 p with | .go q pc => (q.c, pc) | .stop _ => (0, 0)) = (34, 8) := by decide +kernel

/-- Collectives, Examples 1 and 3 (R182, R202, R213). -/
theorem test_shards : shardSize 1000 8 = 128 ∧ shardOf 1000 8 7 = (896, 104) ∧ shardOf 1000 16 15 = (960, 40) ∧
    shardSize 1280000000000 512 = 2500000000 ∧ ceilDiv 2500000000 6528 = 382966 ∧
    updTraffic 1531864 10000000000 = 240784478208 := by decide +kernel

/-- Collectives, Example 2 (R204): at T = 1 the power of B1 is B1. -/
theorem test_powr : powr 0x3F666666 1 = 0x3F666666 := by decide +kernel

/-- A step whose sum is not finite is skipped (R199, R201): T stays, C is 1.0, LS_EXP falls by 1. -/
theorem test_skip :
    let x := normStep (parseStepState (stepStateBytes ⟨7, 3, 10, -5, 20, false, true, 100, 0, 0, 0, 0, 0, 0, 4⟩))
      [0x3F800000, 0x7F800000] 5
    (x.t, x.good, x.ls, x.skip, x.c, x.step) = (7, 0, 9, true, 0x3F800000, 5) := by decide +kernel

end Sys2Proof.Tests
end

section
/-! SUPPORT. Every step keeps the canonical form of registers, memory and scratch.

Registers, memory and scratch are written through a few plain updates alone, which keep the form (`State.wf_setReg`,
`State.wf_setByte` and the like). For each function of the machine that answers a state, one lemma `State.Canon.<its name>` says
that it keeps the form, by the lemmas of what the function calls, in the model's order. Its proof follows the function's body: `hs.f.g`
where the body is `(s.f ..).g ..`, `.ite` where it branches, `frame` where it writes other parts of the state; a state that the
body names with `let` has its form in a `have` of its own, after which its value is forgotten (`clear_value`). -/

namespace Sys2Proof.Machine

open Sys2Proof

/-- The canonical form of registers, memory and scratch, as a structure of its own, so that its lemmas chain: `hs.f.g`. -/
structure State.Canon (s : State) : Prop where
  wf : s.wf = true

/-- A next state, where there is one, is canonical. -/
def CanonNext (o : Host.Outcome State Fault Refusal) : Prop := ∀ t, o = .next t → t.Canon

/-- A state, where there is one, is canonical. -/
def CanonSome (o : Option State) : Prop := ∀ t, o = some t → t.Canon

theorem CanonNext.next {t : State} (ht : t.Canon) : CanonNext (.next t) := by
  rintro _ ⟨⟩
  exact ht

theorem CanonNext.ite {c : Prop} {_ : Decidable c} {a b : Host.Outcome State Fault Refusal} (ha : CanonNext a)
    (hb : CanonNext b) : CanonNext (if c then a else b) := by
  split
  · exact ha
  · exact hb

theorem CanonSome.none : CanonSome none := by
  rintro _ ⟨⟩

theorem CanonSome.some {t : State} (ht : t.Canon) : CanonSome (some t) := by
  rintro _ ⟨⟩
  exact ht

theorem CanonSome.ite {c : Prop} {_ : Decidable c} {a b : Option State} (ha : CanonSome a) (hb : CanonSome b) :
    CanonSome (if c then a else b) := by
  split
  · exact ha
  · exact hb

theorem CanonSome.map {o : Option State} {f : State → State} (ho : CanonSome o) (hf : ∀ {t}, t.Canon → (f t).Canon) :
    CanonSome (o.map f) := by
  cases o with
  | none => exact .none
  | some t => exact .some (hf (ho t rfl))

namespace State.Canon

variable {s t : State}

theorem ite {c : Prop} {_ : Decidable c} {a b : State} (ha : a.Canon) (hb : b.Canon) : (if c then a else b).Canon := by
  split
  · exact ha
  · exact hb

theorem dite {c : Prop} {_ : Decidable c} {a : c → State} {b : ¬c → State} (ha : ∀ {h}, (a h).Canon) (hb : ∀ {h}, (b h).Canon) :
    (if h : c then a h else b h).Canon := by
  split
  · exact ha
  · exact hb

/-- A branch that answers a pair of a state and a value. -/
theorem iteFst {α : Type} {c : Prop} {_ : Decidable c} {a b : State × α} (ha : a.1.Canon) (hb : b.1.Canon) :
    (if c then a else b).1.Canon := by
  split
  · exact ha
  · exact hb

/-- The form of the three cell maps makes the form of the state. -/
theorem of_cells (hr : smWf regReset t.regs = true) (hm : Memory.wf t.mem = true) (hc : Memory.wf t.scratch = true) : t.Canon :=
  ⟨(State.wf_iff t).mpr ⟨hr, hm, hc⟩⟩

/-- The form depends on registers, memory and scratch alone: the other parts of the state may change. -/
theorem frame {pending now freeCtr out log pavs sch fab que hif ldg gmem ckp tru rdm eth cip pwr} (hs : s.Canon) :
    (State.mk pending s.regs s.mem s.scratch now freeCtr out log pavs sch fab que hif ldg gmem ckp tru rdm eth cip pwr).Canon :=
  ⟨(State.wf_congr rfl rfl rfl).trans hs.wf⟩

theorem getD {o : Option State} (ho : CanonSome o) (hs : s.Canon) : (o.getD s).Canon := by
  cases o with
  | none => exact hs
  | some t => exact ho t rfl

/-- The form of the first of a pair, under the name that a `match` on the pair gives it. -/
theorem ofFst {α : Type} {p : State × α} {a : α} (hp : p.1.Canon) (e : p = (t, a)) : t.Canon := by
  subst e; exact hp

/-- A fold keeps the form when each of its steps does. -/
theorem foldl {α : Type} {f : State → α → State} {l : List α} (hs : s.Canon) (hf : ∀ {t x}, t.Canon → (f t x).Canon) :
    (l.foldl f s).Canon := by
  induction l generalizing s with
  | nil => exact hs
  | cons x r ih => exact ih (hf hs)

/-! The plain updates of the state. -/

theorem setReg {off v} (hs : s.Canon) : (s.setReg off v).Canon := ⟨State.wf_setReg _ _ _ hs.wf⟩
theorem setBytes {a b} (hs : s.Canon) : (s.setBytes a b).Canon := ⟨State.wf_setBytes _ _ _ hs.wf⟩
theorem setSbytes {p o b} (hs : s.Canon) : (s.setSbytes p o b).Canon := ⟨State.wf_setSbytes _ _ _ _ hs.wf⟩
theorem clearScratch {p} (hs : s.Canon) : (s.clearScratch p).Canon := ⟨State.wf_clearScratch _ _ hs.wf⟩
theorem freeBytes {a n} (hs : s.Canon) : (s.freeBytes a n).Canon := ⟨State.wf_freeBytes _ _ _ hs.wf⟩
theorem logWrite {kind block part st detail a0 a1} (hs : s.Canon) : (s.logWrite kind block part st detail a0 a1).Canon :=
  ⟨State.wf_logWrite _ _ _ _ _ _ _ _ hs.wf⟩

theorem setFld {f v} (hs : s.Canon) : (s.setFld f v).Canon := ⟨State.wf_setFld _ _ _ hs.wf⟩
theorem raise {f} (hs : s.Canon) : (s.raise f).Canon := ⟨State.wf_raise _ _ hs.wf⟩
theorem count {f k} (hs : s.Canon) : (s.count f k).Canon := ⟨State.wf_count _ _ _ hs.wf⟩
theorem srcLevel {n l} (hs : s.Canon) : (s.srcLevel n l).Canon := ⟨State.wf_srcLevel _ _ _ hs.wf⟩
theorem pulse {n} (hs : s.Canon) : (s.pulse n).Canon := ⟨State.wf_pulse _ _ hs.wf⟩
theorem msixSend {fn v} (hs : s.Canon) : (s.msixSend fn v).Canon := ⟨State.wf_msixSend _ _ _ hs.wf⟩
theorem cqSignal {p q} (hs : s.Canon) : (s.cqSignal p q).Canon := ⟨State.wf_cqSignal _ _ _ hs.wf⟩
theorem sendWr {f ro a b} (hs : s.Canon) : (s.sendWr f ro a b).Canon := ⟨(State.wf_sendWr s f ro a b).trans hs.wf⟩
theorem cqPost {p q e} (hs : s.Canon) : (s.cqPost p q e).Canon := ⟨State.wf_cqPost _ _ _ _ hs.wf⟩
theorem cqBreak {p q x} (hs : s.Canon) : (s.cqBreak p q x).Canon := ⟨State.wf_cqBreak _ _ _ _ hs.wf⟩
theorem evWrite {post p q c e} (hs : s.Canon) (hp : ∀ {t d r}, t.Canon → (post t d r).Canon) : (s.evWrite post p q c e).Canon :=
  ⟨State.wf_evWrite _ _ (fun _ _ _ ht => (hp ⟨ht⟩).wf) _ _ _ _ hs.wf⟩

theorem evPostN {n p e} (hs : s.Canon) : (State.evPostN n s p e).Canon := ⟨State.wf_evPostN _ _ _ _ hs.wf⟩
theorem event {block dests e a} (hs : s.Canon) : (s.event block dests e a).Canon := ⟨State.wf_event _ _ _ _ _ hs.wf⟩
theorem event0 {block code result st detail} (hs : s.Canon) : (s.event0 block code result st detail).Canon :=
  ⟨State.wf_event0 _ _ _ _ _ _ hs.wf⟩

end State.Canon

variable {s : State}

/-! ### The functions of Machine.State -/

theorem State.Canon.reset : State.reset.Canon := ⟨rfl⟩

/-! ### The functions of Machine.Ops -/

theorem State.Canon.advance {n} (hs : s.Canon) : (s.advance n).Canon := hs.frame
theorem State.Canon.atLeast {t} (hs : s.Canon) : (s.atLeast t).Canon := hs.advance
theorem State.Canon.atTb {t} (hs : s.Canon) : (s.atTb t).Canon := .ite hs.advance hs
theorem State.Canon.takeFree {w} (hs : s.Canon) : (s.takeFree w).2.Canon := hs.frame
theorem State.Canon.emit {o} (hs : s.Canon) : (s.emit o).Canon := hs.frame
theorem State.Canon.nsPiece {n f} (hs : s.Canon) : (s.nsPiece n f).Canon := hs.frame.emit
theorem State.Canon.setPav {p x} (hs : s.Canon) : (s.setPav p x).Canon := hs.frame

theorem State.Canon.sendRd {from_ a n} (hs : s.Canon) : (s.sendRd from_ a n).Canon := by
  unfold State.sendRd
  split
  · exact hs
  · exact hs.emit

theorem State.Canon.msixFlush {fn} (hs : s.Canon) : (s.msixFlush fn).Canon := hs.frame.foldl fun ht => ht.msixSend
theorem State.Canon.setPart {p x} (hs : s.Canon) : (s.setPart p x).Canon := hs.frame
theorem State.Canon.setSq {p q x} (hs : s.Canon) : (s.setSq p q x).Canon := hs.frame
theorem State.Canon.setCq {p q x} (hs : s.Canon) : (s.setCq p q x).Canon := hs.frame

theorem State.Canon.evDrain {p n} (hs : s.Canon) : (s.evDrain p n).Canon := by
  induction n generalizing s with
  | zero => exact hs
  | succ n ih =>
    unfold State.evDrain
    dsimp only
    split
    · exact .ite (ih (hs.setPart.evWrite fun ht => ht.evPostN)) hs
    · exact hs

theorem State.Canon.logRefused {block off v} (hs : s.Canon) : (s.logRefused block off v).Canon := hs.logWrite
theorem State.Canon.logUe {block addr} (hs : s.Canon) : (s.logUe block addr).Canon := hs.logWrite
theorem State.Canon.devUe {block k entry} (hs : s.Canon) : (s.devUe block k entry).Canon := hs.count.raise.logWrite.event0

/-! ### The functions of Machine.Epoch -/

theorem State.Canon.metNow (hs : s.Canon) : s.metNow.Canon := by
  unfold State.metNow
  split
  · exact hs
  · exact hs.frame

theorem State.Canon.met {l} (hs : s.Canon) : (s.met l).Canon := .ite hs.metNow hs
theorem State.Canon.setPort {p x} (hs : s.Canon) : (s.setPort p x).Canon := hs.frame
theorem State.Canon.queueCtrl {p m slot} (hs : s.Canon) : (s.queueCtrl p m slot).Canon := hs.setPort
theorem State.Canon.flood {kind n but slot} (hs : s.Canon) : (s.flood kind n but slot).Canon :=
  hs.foldl fun ht => .ite ht.queueCtrl ht
theorem State.Canon.acceptNotice? {kind p n} (hs : s.Canon) : CanonSome (s.acceptNotice? kind p n) :=
  .ite (.some hs.frame.flood) .none
theorem State.Canon.floodOwn {kind n} (hs : s.Canon) : (s.floodOwn kind n).Canon := hs.frame.flood

theorem State.Canon.recordFault {cause origin carried} (hs : s.Canon) : (s.recordFault cause origin carried).Canon := by
  unfold State.recordFault
  exact hs.setFld.setFld.setFld.count.frame.event

theorem State.Canon.holdTr {t} (hs : s.Canon) : (s.holdTr t).Canon := hs.frame
theorem State.Canon.fault {cause} (hs : s.Canon) : (s.fault cause).Canon :=
  .ite (.ite hs.logWrite.holdTr hs.recordFault.holdTr.floodOwn.frame) hs
theorem State.Canon.faultIfBound {l cause} (hs : s.Canon) : (s.faultIfBound l cause).Canon := .ite hs.fault hs

theorem State.Canon.semAdd {l m a} (hs : s.Canon) : (s.semAdd l m a).Canon := by
  unfold State.semAdd
  split
  · exact hs
  · exact .ite hs.setPav.raise hs.setPav

theorem State.Canon.signalTarget {sig} (hs : s.Canon) : (s.signalTarget sig).Canon := hs.semAdd

/-! ### The functions of Machine.Cmds -/

theorem State.Canon.setCmd {c} (hs : s.Canon) : (s.setCmd c).Canon := hs.frame

theorem State.Canon.endCmd {id st detail result} (hs : s.Canon) : (s.endCmd id st detail result).Canon := by
  unfold State.endCmd
  split
  · exact .ite hs.setCmd hs
  · exact hs

theorem State.Canon.holdCmd {id} (hs : s.Canon) : (s.holdCmd id).Canon := by
  unfold State.holdCmd
  split
  · exact hs.setCmd
  · exact hs

theorem State.Canon.shapeCmd {id on} (hs : s.Canon) : (s.shapeCmd id on).Canon := by
  unfold State.shapeCmd
  split
  · exact .ite hs.setCmd (.ite hs (.ite hs.setCmd hs.setCmd))
  · exact hs

theorem State.Canon.goneRsp {id op n} (hs : s.Canon) : (s.goneRsp id op n).Canon := by
  unfold State.goneRsp
  split
  · exact hs.frame.count
  · exact hs

theorem State.Canon.onCmd {id op f n} (hs : s.Canon) (hf : ∀ {c}, (f c).Canon) : CanonNext (s.onCmd id op f n) := by
  unfold State.onCmd
  split
  · exact .ite (.next hf) (.next hs)
  · exact .next hs.goneRsp

/-! ### The functions of Machine.Tags -/

theorem State.Canon.setHif {f} (hs : s.Canon) : (s.setHif f).Canon := hs.frame
theorem State.Canon.setCfg {fn c} (hs : s.Canon) : (s.setCfg fn c).Canon := hs.setHif

theorem State.Canon.aerLog {link bit} (hs : s.Canon) : (s.aerLog link bit).Canon := by
  unfold State.aerLog
  split
  · exact hs.setCfg
  · exact hs

theorem State.Canon.setTags {l} (hs : s.Canon) : (s.setTags l).Canon := hs.setHif.setFld.setFld
theorem State.Canon.reportTimeout {link} (hs : s.Canon) : (s.reportTimeout link).Canon :=
  .aerLog (.raise (.ite hs.count hs.count))

theorem State.Canon.ctoTag {link} (hs : s.Canon) : (s.ctoTag link).Canon := by
  unfold State.ctoTag
  dsimp only
  split
  · exact hs.advance.reportTimeout
  · exact hs.advance.reportTimeout.setTags

theorem State.Canon.issueTag {link n t} (hs : s.Canon) (e : s.issueTag link = some (n, t)) : t.Canon := by
  obtain ⟨_, -, he⟩ := Option.map_eq_some_iff.mp e
  cases he
  exact hs.setTags

theorem State.Canon.poisonRx {link a} (hs : s.Canon) : (s.poisonRx link a).Canon := hs.raise.aerLog.logUe

theorem State.Canon.noteRead {a n st} (hs : s.Canon) : (s.noteRead a n st).Canon := by
  unfold State.noteRead
  split
  · exact hs
  · exact .ite hs.ctoTag (.ite hs.poisonRx hs)

/-! ### The functions of Machine.Write -/

theorem State.Canon.setCkp {f} (hs : s.Canon) : (s.setCkp f).Canon := hs.frame
theorem State.Canon.setSheaf {x} (hs : s.Canon) : (s.setSheaf x).Canon := hs.setCkp
theorem State.Canon.showSlots {x} (hs : s.Canon) : (s.showSlots x).Canon := hs.setFld.setFld

theorem State.Canon.divert {g} (hs : s.Canon) : (s.divert g).Canon := by
  unfold State.divert
  split
  · exact hs
  · refine .ite ?_ hs
    split
    · exact hs
    · exact hs.setSheaf.showSlots

theorem State.Canon.divertRange {a n} (hs : s.Canon) : (s.divertRange a n).Canon := hs.foldl fun ht => ht.divert

theorem State.Canon.stallCount {e} (hs : s.Canon) : (s.stallCount e).Canon := by
  unfold State.stallCount
  split
  · exact hs
  · exact hs.count.setCkp

theorem State.Canon.stallOn (hs : s.Canon) : s.stallOn.Canon := .ite hs.setCkp hs
theorem State.Canon.stallNote (hs : s.Canon) : s.stallNote.Canon := hs.stallCount.stallOn
theorem State.Canon.stallEpoch (hs : s.Canon) : s.stallEpoch.Canon := hs.stallCount.setCkp.stallOn
theorem State.Canon.land {a b o} (hs : s.Canon) : (s.land a b o).Canon := hs.setBytes.sendWr
theorem State.Canon.devWrite {a b sown o} (hs : s.Canon) : (s.devWrite a b sown o).Canon :=
  .ite hs.setCkp.divertRange.stallNote hs.land

theorem State.Canon.releaseGo {l kept} (hs : s.Canon) : (s.releaseGo l kept).Canon := by
  induction l generalizing s kept with
  | nil => exact hs.setCkp
  | cons w r ih =>
    unfold State.releaseGo
    exact .ite (ih hs) (ih (.ite hs.land.emit hs.land))

theorem State.Canon.addsGo {l kept} (hs : s.Canon) : (s.addsGo l kept).Canon := by
  induction l generalizing s kept with
  | nil => exact hs.setCkp
  | cons a r ih =>
    unfold State.addsGo
    exact .ite (ih hs) (ih hs.semAdd.metNow)

theorem State.Canon.portAdd {p l m all} (hs : s.Canon) : (s.portAdd p l m all).Canon := hs.setCkp.addsGo
theorem State.Canon.release (hs : s.Canon) : s.release.Canon := (hs.releaseGo.addsGo.foldl fun ht => ht.divertRange).stallNote

theorem State.Canon.takeBytes {n} (hs : s.Canon) : (s.takeBytes n).2.Canon := by
  induction n generalizing s with
  | zero => exact hs
  | succ n ih => exact ih hs.takeFree

theorem State.Canon.moveLines {src dst n o} (hs : s.Canon) : (s.moveLines src dst n o).Canon :=
  .ite hs.takeBytes.devWrite hs.devWrite
theorem State.Canon.noteCe {n} (hs : s.Canon) : (s.noteCe n).Canon := hs.setCkp

theorem State.Canon.tableRead {x ue} (hs : s.Canon) (hue : ∀ {t}, t.Canon → (ue t).Canon) : (s.tableRead x ue).Canon := by
  cases x with
  | ok => exact hs
  | ce => exact hs.count.noteCe
  | ue => exact hue hs

/-! ### The functions of Machine.Engine -/

theorem State.Canon.setEng {p k x} (hs : s.Canon) : (s.setEng p k x).Canon := hs.setPav

theorem State.Canon.onEng {l e f} (hs : s.Canon) : (s.onEng l e f).Canon := by
  unfold State.onEng
  split
  · exact hs
  · exact hs.setEng

theorem State.Canon.setSpByte {l a b} (hs : s.Canon) : (s.setSpByte l a b).Canon := by
  unfold State.setSpByte
  split
  · exact hs
  · exact hs.setSbytes

theorem State.Canon.setSp {l a b} (hs : s.Canon) : (s.setSp l a b).Canon := by
  induction b generalizing s a with
  | nil => exact hs
  | cons x r ih => exact ih hs.setSpByte

theorem State.Canon.scratchEcc {l a x} (hs : s.Canon) : (s.scratchEcc l a x).Canon := by
  unfold State.scratchEcc
  split
  · exact hs
  · exact hs.count.raise.noteCe
  · exact hs.raise.logUe

theorem State.Canon.lineErrs {l reads errs} (hs : s.Canon) : (s.lineErrs l reads errs).1.Canon :=
  hs.foldl fun ht => ht.scratchEcc
theorem State.Canon.engFail {l e} (hs : s.Canon) : (s.engFail l e).Canon :=
  .faultIfBound (by split; exacts [hs.onEng, hs.onEng.setPav])
theorem State.Canon.markRan {p k i ids} (hs : s.Canon) : (s.markRan p k i ids).Canon := hs.setEng

theorem State.Canon.runCmd {l e cls op f} (hs : s.Canon) (hf : ∀ {t p k i b}, t.Canon → (f t p k i b).Canon) :
    CanonNext (s.runCmd l e cls op f) := by
  unfold State.runCmd
  split
  · exact .next hs
  · split
    · exact .next hs
    · exact .ite (.next (hf hs.markRan)) (.next hs)

theorem State.Canon.vecCmd {l e op f} (hs : s.Canon) : CanonNext (s.vecCmd l e op f) := hs.runCmd fun ht => ht.setEng
theorem State.Canon.lanes {l e op f} (hs : s.Canon) : CanonNext (s.lanes l e op f) := hs.vecCmd
theorem State.Canon.reduce {l e op f} (hs : s.Canon) : CanonNext (s.reduce l e op f) := hs.vecCmd
theorem State.Canon.execGet {l e bad} (hs : s.Canon) : CanonNext (execGet l e bad s) :=
  hs.runCmd fun ht => .ite hs (.ite ht.engFail (by split; exacts [ht.setSp, ht.setSp.noteRead.engFail]))
theorem State.Canon.putLine {l p b i} (hs : s.Canon) : (s.putLine l p b i).Canon := hs.setPav.devWrite

theorem State.Canon.execPut {l e errs bad} (hs : s.Canon) : CanonNext (execPut l e errs bad s) := by
  unfold Machine.execPut
  exact hs.runCmd fun ht => .ite ht.lineErrs.engFail (.ite ht.lineErrs.setPav.devWrite.markRan (ht.lineErrs.foldl fun hu =>
    hu.putLine).engFail)

theorem State.Canon.execEngineCommandComplete {l e i} (hs : s.Canon) : CanonNext (execEngineCommandComplete l e i s) := by
  unfold Machine.execEngineCommandComplete
  split
  · dsimp only
    split
    · exact .next hs
    · exact .ite (.next hs) (.next (.met (.setPav (.ite hs.setEng.setPav hs.setEng))))
  · exact .next hs

/-! ### The functions of Machine.Berin -/

theorem State.Canon.setSeq {p x} (hs : s.Canon) : (s.setSeq p x).Canon := hs.setPav

theorem State.Canon.onRun {l o f} (hs : s.Canon) (hf : ∀ {p x}, (f p x).Canon) : CanonNext (s.onRun l o f) := by
  unfold State.onRun
  split
  · exact .next hs
  · exact .ite (.next hf) (.next hs)

theorem State.Canon.haltSeq {l p x} (hs : s.Canon) : (s.haltSeq l p x).Canon := hs.setSeq.logWrite.pulse.faultIfBound
theorem State.Canon.memHalt {l p x} (hs : s.Canon) : (s.memHalt l p x).Canon := hs.logUe.haltSeq
theorem State.Canon.trap {l p x cause info} (hs : s.Canon) : (s.trap l p x cause info).Canon := .ite hs.haltSeq hs.setSeq
theorem State.Canon.execPop {l i parity} (hs : s.Canon) : CanonNext (execPop l i parity s) :=
  hs.onRun (.ite hs.trap (.ite hs.memHalt hs.setSeq))
theorem State.Canon.alu {l k d b wr f} (hs : s.Canon) : CanonNext (s.alu l k d b wr f) := hs.onRun hs.setSeq
theorem State.Canon.aluShift {l k d b g} (hs : s.Canon) : CanonNext (s.aluShift l k d b g) := hs.alu
theorem State.Canon.regOp {l o d wr f} (hs : s.Canon) : CanonNext (s.regOp l o d wr f) := hs.onRun hs.setSeq

theorem State.Canon.execLd {l d ea ecc} (hs : s.Canon) : CanonNext (execLd l d ea ecc s) := by
  unfold Machine.execLd
  refine hs.onRun fun {p x} => ?_
  dsimp only
  split
  · exact hs.trap
  · exact .ite hs.memHalt hs.setSeq
  · exact .ite hs.scratchEcc.haltSeq hs.scratchEcc.setSeq
  · exact hs.setSeq

theorem State.Canon.execSt {l d ea ecc} (hs : s.Canon) : CanonNext (execSt l d ea ecc s) := by
  unfold Machine.execSt
  refine hs.onRun fun {p x} => ?_
  dsimp only
  split
  · exact hs.trap
  · exact hs.setPav
  · exact .ite hs.scratchEcc.haltSeq hs.scratchEcc.setSp.setSeq
  · exact hs.setSeq

theorem State.Canon.enqueue {p x q k b c} (hs : s.Canon) : (s.enqueue p x q k b c).Canon := hs.setEng.setSeq

theorem State.Canon.execIssue {l e i c parity} (hs : s.Canon) : CanonNext (execIssue l e i c parity s) := by
  unfold Machine.execIssue
  refine hs.onRun fun {p x} => ?_
  dsimp only
  refine .ite hs.trap ?_
  split
  · exact hs.trap
  · exact .ite hs.memHalt (by split; exacts [hs.trap, .ite hs.setSeq hs.enqueue])

theorem State.Canon.execIssueResume {l} (hs : s.Canon) : CanonNext (execIssueResume l s) := by
  unfold Machine.execIssueResume
  split
  · exact .next hs
  · dsimp only
    split
    · split
      · exact .next hs
      · exact .ite (.next hs.enqueue) (.next hs)
    · exact .next hs

theorem State.Canon.execWaitComplete {l} (hs : s.Canon) : CanonNext (execWaitComplete l s) := by
  unfold Machine.execWaitComplete
  split
  · exact .next hs
  · dsimp only
    refine .ite ?_ (.next hs)
    split
    · exact .next hs.setSeq
    · exact .next hs.setPav
    · exact .next hs.setSeq

theorem State.Canon.execWaitTimeout {l} (hs : s.Canon) : CanonNext (execWaitTimeout l s) := by
  unfold Machine.execWaitTimeout
  split
  · exact .next hs
  · dsimp only
    split
    · exact .next hs
    · exact .ite (.next hs) (.next hs.atLeast.trap)

theorem State.Canon.execSignalSend {l} (hs : s.Canon) : CanonNext (execSignalSend l s) := by
  unfold Machine.execSignalSend
  split
  · exact .next hs
  · dsimp only
    split
    · exact .next hs
    · exact .ite (.next hs) (.next hs.setPav)

theorem State.Canon.execSequencerRelease {l} (hs : s.Canon) : CanonNext (execSequencerRelease l s) := by
  unfold Machine.execSequencerRelease
  split
  · exact .next hs
  · exact .ite (.next hs.setSeq) (.next hs)

theorem State.Canon.execReservedInstruction {l parity} (hs : s.Canon) : CanonNext (execReservedInstruction l parity s) := by
  unfold Machine.execReservedInstruction
  refine .ite ?_ (hs.onRun hs.trap)
  split
  · exact .next hs
  · exact .ite (.next hs.memHalt) (.next hs)

/-! ### The functions of Machine.Mem -/

theorem State.Canon.gddrUe {a} (hs : s.Canon) : (s.gddrUe a).Canon := hs.count.raise.setFld.logUe.event0

theorem State.Canon.eccAt {a o} (hs : s.Canon) : (s.eccAt a o).Canon := by
  unfold State.eccAt
  split
  · exact hs
  · exact hs.count.raise.noteCe
  · exact hs.gddrUe
  · exact hs.scratchEcc
  · exact hs.count.raise.logUe
  · exact hs

theorem State.Canon.serve {c} (hs : s.Canon) : (s.serve c).Canon := by
  unfold State.serve
  extract_lets n fail g isG s1 reads s2
  have hfail : ∀ {t st}, t.Canon → (fail t st).Canon := fun ht => .ite ht.emit.fault ht.emit
  have h1 : s1.Canon := .ite hs.count hs
  have h2 : s2.Canon := .ite h1.eccAt h1
  clear_value s2
  split
  · refine .ite (hfail (.ite h1.gddrUe h1.logUe)) (.ite (hfail h1.raise.setFld.logUe) (.ite (hfail h2) ?_))
    split
    · exact .ite h2.devWrite h2.devWrite.emit
    · exact h2.emit
  · exact hfail hs

theorem State.Canon.cxlIssue {p a n t} (hs : s.Canon) : (s.cxlIssue p a n t).Canon := State.Canon.frame (.ite hs hs.atLeast)

theorem State.Canon.execCxlRequest {q} (hs : s.Canon) : CanonNext (execCxlRequest q s) := by
  unfold Machine.execCxlRequest
  split
  · exact .ite (.next hs.emit) (.ite (.next hs.serve) (.next hs.cxlIssue.serve))
  · exact .next hs.serve
  · exact .next hs.emit

theorem State.Canon.beginTraining (hs : s.Canon) : s.beginTraining.Canon := hs.frame

theorem State.Canon.execGddr7TrainDone {x} (hs : s.Canon) : CanonNext (execGddr7TrainDone x s) := by
  unfold Machine.execGddr7TrainDone
  split
  · exact .next hs
  · dsimp only
    exact .ite (.next hs.frame.setFld.setFld.setFld.setFld.setFld.raise) (.ite (.next hs.frame) (.next hs.frame))

theorem State.Canon.memTrainWrite {v} (hs : s.Canon) : (s.memTrainWrite v).Canon := .ite hs (.ite hs.setFld.frame hs.setFld)
theorem State.Canon.setCxl {n st} (hs : s.Canon) : (s.setCxl n st).Canon := hs.setFld.pulse
theorem State.Canon.execCxlPortActive {n x} (hs : s.Canon) : CanonNext (execCxlPortActive n x s) :=
  .ite (.next hs) (.ite (.next hs.setFld.setCxl.event0) (.next hs.setCxl))
theorem State.Canon.cxmCreditWrite {p v} (hs : s.Canon) : (s.cxmCreditWrite p v).Canon := .ite hs (.ite hs.raise hs.setFld)
theorem State.Canon.memPtWrite {p len v} (hs : s.Canon) : (s.memPtWrite p len v).Canon :=
  .ite hs.raise (.ite (.ite hs.setFld hs) (.ite hs.setFld hs))

/-! ### The functions of Machine.Ecc -/

theorem State.Canon.signFree {d msg} (hs : s.Canon) : (s.signFree d msg).2.Canon := by
  unfold State.signFree
  dsimp only
  exact hs.takeFree

/-! ### The functions of Machine.Cipher -/

theorem State.Canon.setCip {f} (hs : s.Canon) : (s.setCip f).Canon := hs.frame
theorem State.Canon.cipWrite {p f} (hs : s.Canon) (hf : ∀ {t}, t.Canon → (f t).Canon) : (s.cipWrite p f).Canon :=
  .ite (hf hs) hs.raise
theorem State.Canon.cipShowWaits (hs : s.Canon) : s.cipShowWaits.Canon := .ite hs.setFld hs.setFld.srcLevel
theorem State.Canon.cipGrant {o} (hs : s.Canon) : (s.cipGrant o).Canon :=
  hs.setFld.setFld.setFld.setFld.setFld.setFld.setCip.cipShowWaits

theorem State.Canon.cipFree (hs : s.Canon) : s.cipFree.Canon := by
  unfold State.cipFree
  dsimp only
  split
  · exact hs.setFld.cipGrant
  · exact hs.setFld

theorem State.Canon.cipForceRelease {o} (hs : s.Canon) : (s.cipForceRelease o).Canon :=
  have h1 := hs.setCip.cipShowWaits
  .ite h1.setCip.cipFree h1

theorem State.Canon.cipLockWrite {p v} (hs : s.Canon) : (s.cipLockWrite p v).Canon := by
  unfold State.cipLockWrite
  exact hs.cipWrite fun ht => .ite ht (.ite (.ite ht.cipFree ht) (.ite (.ite ht.cipGrant (.ite ht ht.setCip.cipShowWaits)) ht))

theorem State.Canon.fwPut {o a b} (hs : s.Canon) : (s.fwPut o a b).Canon := by
  induction b generalizing s a with
  | nil => exact hs
  | cons x r ih => exact ih hs.setCip

theorem State.Canon.cipWriteDone {o a old st detail} (hs : s.Canon) : (s.cipWriteDone o a old st detail).Canon :=
  .ite (.ite (.msixSend (.ite hs.devWrite hs)) (.ite hs.devWrite hs)) hs.fwPut

theorem State.Canon.cipStart {n} (hs : s.Canon) : (s.cipStart n).Canon := by
  induction n generalizing s with
  | zero => exact hs
  | succ n ih => exact .ite hs (.ite hs (ih hs.setCip))

theorem State.Canon.cipTailWrite {p v} (hs : s.Canon) : (s.cipTailWrite p v).Canon :=
  hs.cipWrite fun ht => .ite ht.raise (.ite ht ht.fwPut.setFld.cipStart)
theorem State.Canon.cipRingCtrlWrite {p v} (hs : s.Canon) : (s.cipRingCtrlWrite p v).Canon :=
  hs.cipWrite fun ht => .ite ht.raise (.setCip (.setFld (.setFld (.ite ht.setFld ht))))
theorem State.Canon.cipRingBaseWrite {p v} (hs : s.Canon) : (s.cipRingBaseWrite p v).Canon :=
  hs.cipWrite fun ht => .ite ht.raise (.ite ht.setFld ht)

theorem State.Canon.cipBusy {n} (hs : s.Canon) : (s.cipBusy n).Canon := by
  induction n generalizing s with
  | zero => exact hs
  | succ n ih => exact .ite hs (ih hs.cipWriteDone.setCip)

theorem State.Canon.execCipLockRevoke (hs : s.Canon) : CanonNext (execCipLockRevoke s) := by
  unfold Machine.execCipLockRevoke
  split
  · exact .next hs
  · exact .next (.cipFree (.ite hs.atLeast.raise hs.atLeast.raise.cipBusy))

theorem State.Canon.setCipRun {r} (hs : s.Canon) : (s.setCipRun r).Canon := hs.setCip
theorem State.Canon.cipCheckFail {x} (hs : s.Canon) : (s.cipCheckFail x).Canon :=
  hs.count.raise.foldl fun ht => .ite ht.setFld.raise ht
theorem State.Canon.cipEnd {r st} (hs : s.Canon) : (s.cipEnd r st).Canon := hs.setCipRun
theorem State.Canon.cipUndefined {d} (hs : s.Canon) : (s.cipUndefined d).Canon :=
  .ite (.ite hs.takeBytes.devWrite hs.takeBytes.freeBytes) hs

theorem State.Canon.cipOp {i kind f eff} (hs : s.Canon) (heff : ∀ {t r b}, t.Canon → (eff t r b).1.Canon) :
    (s.cipOp i kind f eff).Canon := by
  unfold State.cipOp
  split
  · exact hs
  · refine .ite hs ?_
    extract_lets s1 twice s2
    have h1 : s1.Canon := hs.foldl fun ht => ht.cipCheckFail
    have h2 : s2.Canon := by
      unfold s2
      split
      · exact h1.eccAt
      · exact h1
    exact .ite (.cipEnd (.ite h2.logUe h2)) (heff h2).cipEnd

theorem State.Canon.cipPut {r b} (hs : s.Canon) : (s.cipPut r b).1.Canon := hs.devWrite
theorem State.Canon.cipLoad {n key use} (hs : s.Canon) : (s.cipLoad n key use).Canon := hs.setFld.setFld.setFld.setCip
theorem State.Canon.cipClear {n} (hs : s.Canon) : (s.cipClear n).Canon := hs.setReg.setCip

theorem State.Canon.cipHash {r b h} (hs : s.Canon) : (s.cipHash r b h).1.Canon := by
  unfold State.cipHash
  split
  · exact hs.cipPut
  · exact hs.takeBytes.cipPut

theorem State.Canon.execKeyUnwrap {i f} (hs : s.Canon) : CanonNext (execKeyUnwrap i f s) :=
  .next (hs.cipOp fun ht => by split; exacts [ht.cipLoad, ht])

theorem State.Canon.execGcmDec {i f} (hs : s.Canon) : CanonNext (execGcmDec i f s) := by
  refine .next (hs.cipOp fun ht => ?_)
  dsimp only
  split
  · exact ht.cipPut
  · exact ht.count.raise

theorem State.Canon.cipAdvance {n} (hs : s.Canon) : (s.cipAdvance n).Canon := by
  induction n generalizing s with
  | zero => exact hs
  | succ n ih => exact .ite (ih hs.setFld.setCip) hs

theorem State.Canon.execCipCmdDone {i} (hs : s.Canon) : CanonNext (execCipCmdDone i s) := by
  unfold Machine.execCipCmdDone
  split
  · exact .next hs
  · split
    · exact .next hs
    · extract_lets sL s0 s1 s2 mine
      have hL : sL.Canon := .ite hs.logWrite hs
      have h0 : s0.Canon := .ite hL.cipUndefined hL
      have h2 : s2.Canon := h0.setCip.cipWriteDone
      exact .ite (.next hs) (.next (State.Canon.ite h2.setCip.cipAdvance h2).cipStart)

/-! ### The functions of Machine.Image -/

theorem State.Canon.writeReport {f} (hs : s.Canon) : (s.writeReport f).Canon := .ite hs.devWrite hs.freeBytes

/-! ### The functions of Machine.Mesh -/

theorem State.Canon.execMeshRequestArrive {q} (hs : s.Canon) : CanonNext (execMeshRequestArrive q s) := by
  unfold Machine.execMeshRequestArrive
  split
  · exact .next hs.emit
  · extract_lets n reads s1 s2
    have h1 : s1.Canon := .ite hs.scratchEcc hs
    have h2 : s2.Canon := h1.emit
    clear_value n reads s2 s1
    refine .ite (.next hs.emit) (.ite (.next hs.emit) (.ite (.next (.ite h2.fault h2)) ?_))
    split
    · exact .next h1.setSbytes.emit
    · exact .next h1.emit

theorem State.Canon.execMeshResponseArrive {r} (hs : s.Canon) : CanonNext (execMeshResponseArrive r s) := by
  unfold Machine.execMeshResponseArrive
  split
  · exact .next hs
  · refine .ite (.next hs.count) ?_
    split
    · split
      · exact .next hs.engFail
      · exact .next hs
    · split
      · exact .ite (.next hs.setSbytes) (.next hs)
      · exact .next hs

theorem State.Canon.execMeshWriteAck {l gen id} (hs : s.Canon) : CanonNext (execMeshWriteAck l gen id s) := by
  unfold Machine.execMeshWriteAck
  split
  · exact .next hs
  · exact .ite (.next hs.count) (.ite (.next hs) (.next hs.setPav.met))

theorem State.Canon.addArrives {l a} (hs : s.Canon) : (s.addArrives l a).Canon := by
  unfold State.addArrives
  split
  · split
    · exact hs
    · split
      · exact hs
      · exact hs.setPav.semAdd.met
  · exact hs.semAdd

theorem State.Canon.buildMap (hs : s.Canon) : s.buildMap.Canon :=
  (hs.foldl fun ht => ht.setReg).setFld.setFld.setFld.setFld.setFld.setFld

theorem State.Canon.beginPavReset {l} (hs : s.Canon) : (s.beginPavReset l).Canon := by
  unfold State.beginPavReset
  split
  · exact hs
  · exact hs.setPav

theorem State.Canon.endPavReset {l} (hs : s.Canon) : (s.endPavReset l).Canon := by
  unfold State.endPavReset
  split
  · exact hs
  · exact .ite hs.clearScratch.setPav hs

theorem State.Canon.resetLoads {ls} (hs : s.Canon) : (s.resetLoads ls).Canon := hs.frame

theorem State.Canon.startPavReset {l} (hs : s.Canon) : (s.startPavReset l).Canon :=
  have h1 := (hs.resetLoads.setFld.raise.foldl (fun ht => ht.beginPavReset))
  .ite h1.setFld.fault h1.setFld

theorem State.Canon.pavRstWrite {v} (hs : s.Canon) : (s.pavRstWrite v).Canon :=
  .ite hs (.ite hs.raise (.ite hs.raise hs.startPavReset))

theorem State.Canon.execPavResetComplete {l} (hs : s.Canon) : CanonNext (execPavResetComplete l s) := by
  unfold Machine.execPavResetComplete
  split
  · exact .next hs
  · exact .ite (.next (.ite hs.endPavReset.endPavReset hs.endPavReset.endPavReset.setFld)) (.next hs)

/-! ### The functions of Machine.Load -/

theorem State.Canon.beginLoads {svc named} (hs : s.Canon) : (s.beginLoads svc named).Canon :=
  (hs.foldl fun ht => ht.startPavReset).frame
theorem State.Canon.dropLoads {svc} (hs : s.Canon) : (s.dropLoads svc).Canon := hs.frame

/-! ### The functions of Machine.Sheaf -/

theorem State.Canon.destWrite {x loc b} (hs : s.Canon) : (s.destWrite x loc b).Canon := .ite hs.nsPiece hs.devWrite
theorem State.Canon.snapshot {x step} (hs : s.Canon) : (s.snapshot x step).Canon :=
  hs.setSheaf.setFld.setFld.setFld.setFld.setFld.setFld.destWrite
theorem State.Canon.showTotal {x} (hs : s.Canon) : (s.showTotal x).Canon := hs.setFld

theorem State.Canon.cutRestore (hs : s.Canon) : s.cutRestore.Canon := by
  unfold State.cutRestore
  split
  · exact hs
  · exact (hs.foldl fun ht => ht.freeBytes).setCkp.setFld

theorem State.Canon.sheafAtCommit (hs : s.Canon) : s.sheafAtCommit.Canon := by
  unfold State.sheafAtCommit
  split
  · exact .ite hs.snapshot hs
  · exact hs

theorem State.Canon.endSheaf {st detail} (hs : s.Canon) : (s.endSheaf st detail).Canon := by
  unfold State.endSheaf
  split
  · exact hs
  · extract_lets s1 s2 s3 s4
    have h2 : s2.Canon := hs.stallNote.setCkp.release.setFld.setFld.setFld.setFld.setFld
    have h3 : s3.Canon := .ite h2.count h2.count.raise
    have h4 : s4.Canon := by
      unfold s4
      split
      · exact h3.endCmd
      · exact h3
    exact h4.event0

theorem State.Canon.abandon {cause} (hs : s.Canon) : (s.abandon cause).Canon := hs.endSheaf
theorem State.Canon.sheafHalt (hs : s.Canon) : s.sheafHalt.Canon := .ite hs.abandon hs

/-! ### The functions of Machine.Sched -/

theorem State.Canon.loseLock (hs : s.Canon) : s.loseLock.Canon := .ite hs.frame.setFld.raise.event0.fault hs.frame

theorem State.Canon.execTimesyncExchange (hs : s.Canon) : CanonNext (execTimesyncExchange s) := by
  unfold Machine.execTimesyncExchange
  refine .ite (.next hs) ?_
  dsimp only
  split
  · split
    · exact .ite (.next hs.frame.queueCtrl) (.next hs.frame)
    · exact .ite (.next hs.atLeast.frame.queueCtrl) (.next hs.atLeast.frame)
  · exact .next (State.Canon.frame (.ite hs hs.atLeast))

theorem State.Canon.correct {th} (hs : s.Canon) : (s.correct th).Canon :=
  .ite (.ite hs.frame hs.frame) (.ite (.ite hs.frame hs.frame) hs)
theorem State.Canon.lockStep {r th} (hs : s.Canon) : (s.lockStep r th).Canon :=
  .ite hs.frame.loseLock (.ite hs.frame.raise hs.frame)

theorem State.Canon.execTimesyncReplyRx {r} (hs : s.Canon) : CanonNext (execTimesyncReplyRx r s) := by
  unfold Machine.execTimesyncReplyRx
  refine .ite (.next hs) ?_
  split
  · exact .next hs
  · exact .next hs.correct.setFld.setFld.setFld.lockStep

theorem State.Canon.execTimePulseEnd (hs : s.Canon) : CanonNext (execTimePulseEnd s) := by
  unfold Machine.execTimePulseEnd
  split
  · exact .next hs
  · exact .next hs.atLeast.frame.emit

theorem State.Canon.lastStatus {x} (hs : s.Canon) : (s.lastStatus x).Canon := hs.setFld

theorem State.Canon.tsCtrlWrite {v} (hs : s.Canon) : (s.tsCtrlWrite v).Canon := by
  unfold State.tsCtrlWrite
  extract_lets root was badP badS port shift s1 s2 s3
  have h1 : s1.Canon := .ite hs.lastStatus hs
  have h2 : s2.Canon := .ite h1.loseLock h1
  have h3 : s3.Canon := h2.setFld.setFld.setFld.setFld
  clear_value s3
  exact .ite hs.lastStatus.logRefused (.ite h3.setFld.setFld h3)

theorem State.Canon.setImg {n} (hs : s.Canon) : (s.setImg n).Canon := hs.setFld
theorem State.Canon.setRun {n} (hs : s.Canon) : (s.setRun n).Canon := hs.setFld
theorem State.Canon.loadStatus {st detail} (hs : s.Canon) : (s.loadStatus st detail).Canon := hs.setFld.setFld.raise
theorem State.Canon.endHeld {st detail} (hs : s.Canon) : (s.endHeld st detail).Canon := hs.setImg.loadStatus.frame

theorem State.Canon.schLoad (hs : s.Canon) : s.schLoad.Canon := by
  unfold State.schLoad
  dsimp only
  split
  · exact hs.setImg.frame
  · exact hs.setImg.frame.beginLoads

theorem State.Canon.schAbort (hs : s.Canon) : s.schAbort.Canon := hs.endHeld.dropLoads.frame

theorem State.Canon.schCtrl {v} (hs : s.Canon) : (s.schCtrl v).Canon :=
  have h1 := hs.lastStatus.logRefused
  .ite hs (.ite hs (.ite (.ite hs.lastStatus.schLoad h1) (.ite (.ite hs.lastStatus.schAbort h1) (.ite (.ite
    hs.lastStatus.setRun h1) (.ite (.ite hs.lastStatus.setRun h1) hs.lastStatus)))))

theorem State.Canon.arm {h} (hs : s.Canon) : (s.arm h).Canon :=
  have h1 := hs.setImg.loadStatus
  .ite h1.frame.floodOwn.frame h1.frame

theorem State.Canon.logLoad (hs : s.Canon) : s.logLoad.Canon := hs.logRefused

theorem State.Canon.execSchLoadEnd {rd chk} (hs : s.Canon) : CanonNext (execSchLoadEnd rd chk s) := by
  unfold Machine.execSchLoadEnd
  refine .ite (.next hs) (.ite (.next hs.endHeld.dropLoads) ?_)
  split
  · exact .next (.endHeld (.ite hs.writeReport (.ite hs.logLoad hs)))
  · refine .ite (.next hs) ?_
    dsimp only
    split
    · exact .ite (.next hs.dropLoads.logLoad.endHeld) (.next hs.dropLoads.arm)
    · exact .next hs.dropLoads.writeReport.endHeld
  · exact .next hs.endHeld

theorem State.Canon.switchRt (hs : s.Canon) : s.switchRt.Canon := by
  obtain ⟨hr, hm, hc⟩ := (State.wf_iff s).mp hs.wf
  refine .setFld (.setFld (.of_cells ?_ hm hc))
  exact smWf_foldl_smSet _ _ _ _ _ (smWf_filter _ _ _ hr)

theorem State.Canon.rtBoundary (hs : s.Canon) : s.rtBoundary.Canon := .ite hs.switchRt hs

theorem State.Canon.onPav {l f} (hs : s.Canon) : (s.onPav l f).Canon := by
  unfold State.onPav
  split
  · exact hs
  · exact hs.setPav

theorem State.Canon.openEpoch {i r b how} (hs : s.Canon) : (s.openEpoch i r b how).Canon := by
  unfold State.openEpoch
  extract_lets e k p len s1 t s2 s3 can o again sch fab s4 s4f s5 s6 s7
  have h1 : s1.Canon := hs.stallEpoch.rtBoundary.setFld
  have h2 : s2.Canon := by
    unfold s2
    split
    · exact h1.setFld.setFld.setFld
    · exact h1.setFld.setFld
    · exact .ite h1.setFld.setFld.setFld h1.setFld
  have h3 : s3.Canon := h2.setFld
  have h4 : s4f.Canon := .ite h3.frame.fault h3.frame
  have h6 : s6.Canon := h4.setFld.foldl fun ht => ht.onPav
  have h7 : s7.Canon := h6.frame
  clear_value s7 s4f
  exact .ite (.ite h7.fault h7) h4.fault

theorem State.Canon.activate {h b} (hs : s.Canon) : (s.activate h b).Canon := by
  unfold State.activate
  exact hs.setImg.loadStatus.setRun.frame.openEpoch

theorem State.Canon.execSchActivate (hs : s.Canon) : CanonNext (execSchActivate s) := by
  unfold Machine.execSchActivate
  split
  · exact .next hs
  · exact .ite (.ite (.next hs.atTb.activate) (.next hs.atTb.endHeld)) (.next hs)

theorem State.Canon.refuseReplacement {h} (hs : s.Canon) : (s.refuseReplacement h).Canon := hs.endHeld.logWrite
theorem State.Canon.doomLate (hs : s.Canon) : s.doomLate.Canon := hs.frame

theorem State.Canon.dropReplacement (hs : s.Canon) : s.dropReplacement.Canon := by
  unfold State.dropReplacement
  split
  · exact hs
  · exact .ite hs (.ite hs.refuseReplacement hs.frame)

theorem State.Canon.nextEpoch (hs : s.Canon) : s.nextEpoch.Canon := hs.setFld
theorem State.Canon.finish (hs : s.Canon) : s.finish.Canon := hs.nextEpoch.rtBoundary.setRun.frame.dropReplacement
theorem State.Canon.commitStep {e mapped} (hs : s.Canon) : (s.commitStep e mapped).Canon :=
  .event0 (.ite hs.setFld.devWrite hs.setFld)
theorem State.Canon.countSlack {e b} (hs : s.Canon) : (s.countSlack e b).Canon := hs.count
theorem State.Canon.fwBoundary (hs : s.Canon) : s.fwBoundary.Canon := .ite hs.frame hs

theorem State.Canon.holdBoost {t : State} (hs : s.Canon) : (s.holdBoost t).Canon := by
  unfold State.holdBoost
  split
  · exact .ite hs.frame hs
  · exact hs

theorem State.Canon.dropLate {p} (hs : s.Canon) : (s.dropLate p).Canon := hs.setPort.count

theorem State.Canon.epochBoundary (hs : s.Canon) : s.epochBoundary.Canon := by
  unfold State.epochBoundary
  split
  · extract_lets b s1 nxt opensStep here replace ends opens causes s2 _ s3 s2' rc s3' s4
    clear_value nxt here replace
    have h1 : s1.Canon := hs.atTb.pulse.fwBoundary.doomLate
    have h2 : s2.Canon := h1.foldl fun ht => ht.fault
    have h3 : s3.Canon := h2.frame
    have h2' : s2'.Canon := h1.countSlack
    have h3' : s3'.Canon := .ite h2'.commitStep.sheafAtCommit h2'
    have h4 : s4.Canon := by
      unfold s4
      split
      · exact .ite h3'.endHeld h3'.refuseReplacement
      · exact h3'
    clear_value s3 s3' s4
    refine .ite hs (.ite (h3.foldl fun ht => ht.dropLate) ?_)
    split
    · exact h3'.activate
    · split
      · exact .ite h4.finish h4.openEpoch
      · exact h4.finish
  · exact hs

theorem State.Canon.execPendingFillEnd {ok} (hs : s.Canon) : CanonNext (execPendingFillEnd ok s) := by
  unfold Machine.execPendingFillEnd
  split
  · exact .next hs
  · exact .ite (.next hs) (.ite (.next hs.frame.metNow) (.next hs.fault))

theorem State.Canon.cancelMove {m} (hs : s.Canon) : (s.cancelMove m).Canon := hs.takeFree.moveLines
theorem State.Canon.disown (hs : s.Canon) : s.disown.Canon := hs.setCkp
theorem State.Canon.dropSown {p} (hs : s.Canon) : (s.dropSown p).Canon := hs.setPort.count

theorem State.Canon.replayBoundary (hs : s.Canon) : s.replayBoundary.Canon := by
  unfold State.replayBoundary
  split
  · extract_lets tr s1 s2 s3 s4 s5 _ _ s6 s5'
    have h1 : s1.Canon := hs.atTb
    have h2 : s2.Canon := h1.foldl fun ht => ht.onPav
    have h3 : s3.Canon := h2.foldl fun ht => .ite ht.cancelMove ht
    have h4 : s4.Canon := (h3.foldl fun ht => ht.dropSown).disown.doomLate
    have h5 : s5.Canon := h4.nextEpoch.rtBoundary.setRun
    have h6 : s6.Canon := h5.frame
    have h5' : s5'.Canon := by
      unfold s5'
      split
      · exact .ite h4.refuseReplacement h4
      · exact h4
    clear_value s6 s5'
    exact .ite hs (.ite h6.dropReplacement.event0.sheafHalt h5'.openEpoch)
  · exact hs

theorem State.Canon.execArmedNoticeRx {p n} (hs : s.Canon) : CanonNext (execArmedNoticeRx p n s) := by
  unfold Machine.execArmedNoticeRx
  split
  · exact .next hs
  · exact .next (hs.acceptNotice? _ ‹_›).frame

theorem State.Canon.execFaultNoticeRx {p n} (hs : s.Canon) : CanonNext (execFaultNoticeRx p n s) := by
  unfold Machine.execFaultNoticeRx
  split
  · exact .next hs
  · refine .ite ?_ (.next (hs.acceptNotice? _ ‹_›))
    split
    · exact .next (hs.acceptNotice? _ ‹_›).fault
    · exact .next (.holdTr (.ite (hs.acceptNotice? _ ‹_›) (hs.acceptNotice? _ ‹_›).recordFault))

theorem State.Canon.execPaceNoticeRx {p n} (hs : s.Canon) : CanonNext (execPaceNoticeRx p n s) := by
  unfold Machine.execPaceNoticeRx
  split
  · exact .next hs
  · exact .next (.ite (hs.acceptNotice? _ ‹_›).pulse.frame.fault (hs.acceptNotice? _ ‹_›).pulse.frame)

theorem State.Canon.ownPace (hs : s.Canon) : s.ownPace.Canon := .ite hs hs.setFld.floodOwn.frame
theorem State.Canon.paceReqWrite {v} (hs : s.Canon) : (s.paceReqWrite v).Canon := hs.setFld.ownPace
theorem State.Canon.setMove {i m} (hs : s.Canon) : (s.setMove i m).Canon := hs.frame

theorem State.Canon.execMoveStart {i} (hs : s.Canon) : CanonNext (execMoveStart i s) := by
  unfold Machine.execMoveStart
  split
  · exact .next hs
  · split
    · exact .next hs
    · exact .ite (.next hs) (.next hs.atTb.frame.setMove)

theorem State.Canon.endMove {i m} (hs : s.Canon) : (s.endMove i m).Canon := hs.setMove.frame.signalTarget.metNow

theorem State.Canon.execMoveComplete {i st} (hs : s.Canon) : CanonNext (execMoveComplete i st s) := by
  unfold Machine.execMoveComplete
  split
  · exact .next hs
  · split
    · exact .ite (.next hs) (.ite (.next hs.fault) (.next (.ite hs.moveLines.setMove hs.moveLines.endMove)))
    · exact .next (.ite hs hs.endMove)
    · exact .next hs

/-! ### The functions of Machine.Fabric -/

theorem State.Canon.discardFlit {p} (hs : s.Canon) : (s.discardFlit p).Canon := hs.count

theorem State.Canon.leaveFab {p} (hs : s.Canon) : (s.leaveFab p).Canon := by
  unfold State.leaveFab
  extract_lets x keep _ s1 s2 s3
  have h2 : s2.Canon := hs.setPort.setFld.setFld.raise.event0
  have h3 : s3.Canon := by
    unfold s3
    split
    · exact .ite h2.fault h2
    · exact h2
  clear_value s3
  exact .ite hs (.ite h3.loseLock h3)

theorem State.Canon.sendTrain {p} (hs : s.Canon) : (s.sendTrain p).Canon := hs.emit

theorem State.Canon.trainState {p st reason} (hs : s.Canon) : (s.trainState p st reason).Canon :=
  have h1 := hs.leaveFab.setFld.setFld
  .setPort (.pulse (.ite h1.sendTrain h1))

theorem State.Canon.retrain {p} (hs : s.Canon) : (s.retrain p).Canon := hs.trainState.count

theorem State.Canon.portCtrlWrite {p v} (hs : s.Canon) : (s.portCtrlWrite p v).Canon :=
  have h1 : State.Canon _ := .ite hs.setFld hs
  have h2 : State.Canon _ := .ite h1.setFld h1
  .ite h2 (.ite (.ite h2.setFld h2.setFld.trainState) (.ite h2.setFld.trainState (.ite h2.setFld.retrain h2.setFld)))

theorem State.Canon.execFabDetectPoll {p found} (hs : s.Canon) : CanonNext (execFabDetectPoll p found s) :=
  .ite (.next hs) (.next hs.atLeast.trainState)
theorem State.Canon.trainFail {p} (hs : s.Canon) : (s.trainFail p).Canon := .ite hs.setPort hs.trainState

theorem State.Canon.execFabTrainStateDone {p x} (hs : s.Canon) : CanonNext (execFabTrainStateDone p x s) := by
  unfold Machine.execFabTrainStateDone
  dsimp only
  refine .ite (.next hs) (.ite (.next hs.trainFail) (.ite (.next hs.setPort.trainState) (.ite (.next hs.trainState) ?_)))
  split
  · exact .next hs.trainState
  · exact .next hs.trainState.setPort.setFld.setFld.setFld.setFld.setFld.setFld.raise

theorem State.Canon.devnumWrite {v} (hs : s.Canon) : (s.devnumWrite v).Canon := .ite hs.raise hs.setFld
theorem State.Canon.rtCtrlWrite {v} (hs : s.Canon) : (s.rtCtrlWrite v).Canon :=
  .ite hs (.ite hs.raise (.ite hs.raise hs.switchRt))
theorem State.Canon.sendNew {p slot pos f} (hs : s.Canon) : (s.sendNew p slot pos f).Canon := hs.setPort.emit
theorem State.Canon.sendAgain {p slot pos e} (hs : s.Canon) : (s.sendAgain p slot pos e).Canon := hs.emit

theorem State.Canon.streamFlit {k t f} (hs : s.Canon) (e : s.streamFlit k = some (t, f)) : t.Canon := by
  unfold State.streamFlit at e
  split at e
  · cases e
  · split at e
    · split at e
      · cases e
      · dsimp only at e
        split at e
        · cases e
          exact hs.fault
        · cases e
          exact .ite (State.Canon.metNow hs.frame) hs.frame
    · cases e

theorem State.Canon.sendRun {p r slot pos} (hs : s.Canon) : (s.sendRun p r slot pos).1.Canon := by
  unfold State.sendRun
  split
  · exact hs
  · split
    · split
      · exact (hs.streamFlit ‹_›).sendNew
      · exact hs.streamFlit ‹_›
      · exact hs
    · dsimp only
      split
      · exact hs
      · exact hs.setPort.sendNew

theorem State.Canon.sendRetx {p slot pos l} (hs : s.Canon) : (s.sendRetx p slot pos l).1.Canon := by
  induction l generalizing s with
  | nil => exact hs
  | cons q l ih =>
    unfold State.sendRetx
    refine .iteFst (ih hs) ?_
    extract_lets x s1 counts g
    have h1 : s1.Canon := hs.setPort
    clear_value s1
    split
    · exact ih hs
    · exact .iteFst h1.sendAgain (.iteFst (ih h1.fault) h1.setPort.count.sendAgain)

theorem State.Canon.sendLate {p slot pos} (hs : s.Canon) : CanonSome (s.sendLate p slot pos) := by
  unfold State.sendLate
  dsimp only
  split
  · exact .none
  · exact .some hs.setPort.count.sendNew

theorem State.Canon.sendCtrl {p slot pos} (hs : s.Canon) : CanonSome (s.sendCtrl p slot pos) := by
  unfold State.sendCtrl
  dsimp only
  split
  · exact .none
  · exact .some hs.setPort.sendNew

theorem State.Canon.freeBuf {src pair n} (hs : s.Canon) : (s.freeBuf src pair n).Canon := by
  unfold State.freeBuf
  split
  · exact hs.setPort
  · exact hs

theorem State.Canon.sendVol {p slot pos} (hs : s.Canon) : CanonSome (s.sendVol p slot pos) := by
  unfold State.sendVol
  dsimp only
  split
  · exact .none
  · exact .some hs.setPort.freeBuf.sendNew

theorem State.Canon.sendPos {p slot pos} (hs : s.Canon) : (s.sendPos p slot pos).Canon := by
  unfold State.sendPos
  extract_lets own again t
  have h1 : own.1.Canon := by
    unfold own
    split
    · exact hs.sendRun
    · exact hs
  have h2 : again.1.Canon := h1.sendRetx
  refine .ite h1 (.ite h2 ?_)
  split
  · exact h2.sendLate _ ‹_›
  · split
    · exact h2.sendCtrl _ ‹_›
    · split
      · exact h2.sendVol _ ‹_›
      · exact h2.emit

theorem State.Canon.returnCredits {p slot} (hs : s.Canon) : (s.returnCredits p slot).Canon := .ite hs.setPort hs
theorem State.Canon.execSlotTransmit (hs : s.Canon) : CanonNext (execSlotTransmit s) :=
  .next (hs.atTb.frame.foldl fun ht => .ite ht.returnCredits.sendPos.sendPos ht)
theorem State.Canon.misroute (hs : s.Canon) : s.misroute.Canon := hs.count.raise
theorem State.Canon.complete {p h} (hs : s.Canon) : (s.complete p h).Canon :=
  .ite hs (.ite hs.frame.raise.fault (by split; exacts [.ite hs.frame.portAdd hs.frame, hs.frame]))

theorem State.Canon.localFlit {p b ecc} (hs : s.Canon) : (s.localFlit p b ecc).Canon := by
  unfold State.localFlit
  extract_lets h n data near u reads s1
  have h1 : s1.Canon := .ite hs.eccAt hs
  clear_value near u reads s1
  refine .ite hs.discardFlit (.ite hs.misroute (.ite hs.fault (.ite h1.fault ?_)))
  refine .ite h1.devWrite.complete (.ite h1.devWrite.complete ?_)
  split
  · exact h1.misroute
  · exact h1.devWrite.complete

theorem State.Canon.sownRelease {p e b ecc} (hs : s.Canon) : (s.sownRelease p e b ecc).Canon := by
  unfold State.sownRelease
  refine .ite hs.discardFlit ?_
  split
  · exact hs.discardFlit
  · refine .ite hs.discardFlit ?_
    split
    · exact .dite hs.setPort hs
    · exact hs.localFlit
  · refine .ite hs.discardFlit ?_
    split
    · exact .dite hs.setPort hs
    · exact hs.localFlit

theorem State.Canon.passFlit {p b} (hs : s.Canon) : (s.passFlit p b).Canon := .ite hs.discardFlit hs
theorem State.Canon.releaseHeld {p} (hs : s.Canon) : (s.releaseHeld p).Canon := hs.setPort.foldl fun ht => ht.passFlit

theorem State.Canon.handleFlit {p e ecc} (hs : s.Canon) : (s.handleFlit p e ecc).Canon := by
  unfold State.handleFlit
  dsimp only
  split
  · split
    · exact hs.setPort
    · exact hs
  · exact .ite (.releaseHeld (.sownRelease (.ite hs.setPort hs))) (.releaseHeld (.setPort (.ite hs.setPort hs)))

theorem State.Canon.missSeqs {p sent l} (hs : s.Canon) : (s.missSeqs p sent l).Canon := hs.foldl fun ht => ht.setPort
theorem State.Canon.buffer {p sent pos seq b m} (hs : s.Canon) : (s.buffer p sent pos seq b m).Canon :=
  .ite hs.setPort hs.handleFlit

theorem State.Canon.execFlitReceive {p slot pos q bytes} (hs : s.Canon) : CanonNext (execFlitReceive p slot pos q bytes s) := by
  unfold Machine.execFlitReceive
  extract_lets x old skipped rx s1
  have h1 : s1.Canon := hs.discardFlit.setPort
  clear_value s1
  refine .ite (.next hs) ?_
  split
  · exact .ite (.next hs.retrain) (.next h1.missSeqs.buffer)
  · extract_lets h s0 x0 s2
    have h0 : s0.Canon := (State.Canon.ite hs.count hs).setPort
    have h2 : s2.Canon := h0.setPort.missSeqs
    clear_value x0 s2 s0
    refine .ite (.ite (.next h0.setPort.missSeqs) (.next h0)) ?_
    split
    · exact .ite (.next h0) (.next h0.buffer)
    · exact .ite (.next h0) (.next h2.buffer)

theorem State.Canon.compUe {key} (hs : s.Canon) : (s.compUe key).Canon := hs.frame.devUe.fault

theorem State.Canon.execFlitRelease {p ecc tab} (hs : s.Canon) : CanonNext (execFlitRelease p ecc tab s) := by
  unfold Machine.execFlitRelease
  split
  · exact .next hs
  · exact .next (.handleFlit (.setPort (.ite (hs.atTb.tableRead fun ht => ht.compUe) hs.atTb)))

theorem State.Canon.execNakReceive {p seqs} (hs : s.Canon) : CanonNext (execNakReceive p seqs s) :=
  .ite (.next hs) (.ite (.next hs.retrain) (.next hs.setPort))
theorem State.Canon.genCheck {src g} (hs : s.Canon) : CanonSome (s.genCheck src g) :=
  .ite (.ite (.some hs) .none) (.some hs.raise.setFld)
theorem State.Canon.noRoute {p} (hs : s.Canon) : (s.noRoute p).Canon := hs.discardFlit.raise
theorem State.Canon.routeUe {d} (hs : s.Canon) : (s.routeUe d).Canon := hs.frame.devUe
theorem State.Canon.queueVol {o k src} (hs : s.Canon) : (s.queueVol o k src).Canon := hs.setPort

theorem State.Canon.inject {k} (hs : s.Canon) : (s.inject k).Canon := by
  unfold State.inject
  split
  · exact hs.raise
  · exact hs
  · exact hs.queueVol

theorem State.Canon.execVolunteerPacketReceive {p k tab} (hs : s.Canon) : CanonNext (execVolunteerPacketReceive p k tab s) := by
  unfold Machine.execVolunteerPacketReceive
  extract_lets t n free
  have ht : t.Canon := .ite (hs.tableRead fun hu => hu.routeUe) hs
  refine .ite (.next ht) ?_
  split
  · exact .next ht.freeBuf.noRoute
  · refine .ite (.next ht.freeBuf.count) ?_
    split
    · exact .next ht.freeBuf.count
    · exact .next (ht.freeBuf.genCheck _ ‹_›)
  · exact .next ht.queueVol

theorem State.Canon.execRoutedMessageReceive {p m} (hs : s.Canon) : CanonNext (execRoutedMessageReceive p m s) := by
  unfold Machine.execRoutedMessageReceive
  refine .ite (.next hs) ?_
  dsimp only
  refine .ite (.next hs.noRoute) ?_
  split
  · refine .ite (.next hs.count) ?_
    split
    · exact .next hs.count
    · exact .next (hs.genCheck _ ‹_›).frame
  · split
    · exact .next hs.setPort
    · exact .next hs.noRoute

theorem State.Canon.learnGen? {p n} (hs : s.Canon) : CanonSome (s.learnGen? p n) :=
  .ite .none (.some (hs.raise.setFld.frame.foldl fun ht => ht.emit).flood)

/-! ### The functions of Machine.Place -/

theorem State.Canon.rangeWrite {l b} (hs : s.Canon) : (s.rangeWrite l b).Canon := by
  induction l generalizing s b with
  | nil => exact hs
  | cons r l ih => exact ih hs.devWrite

theorem State.Canon.waitCmd {id l} (hs : s.Canon) : (s.waitCmd id l).Canon := (hs.foldl fun ht => ht.divertRange).holdCmd

/-! ### The functions of Machine.Queue -/

theorem State.Canon.dbMiss {p} (hs : s.Canon) : (s.dbMiss p).Canon := hs.count
theorem State.Canon.sqError {p q x st} (hs : s.Canon) : (s.sqError p q x st).Canon := .event (.ite hs.setSq.raise hs.setSq)
theorem State.Canon.cqError {p q x st} (hs : s.Canon) : (s.cqError p q x st).Canon := hs.cqBreak.event

theorem State.Canon.lateFail {p q x st} (hs : s.Canon) : (s.lateFail p q x st).Canon := by
  unfold State.lateFail
  dsimp only
  split
  · exact .endCmd (.ite hs.setSq.raise hs.setSq)
  · exact .ite hs.setSq.raise hs.setSq

theorem State.Canon.sqDoorbell {p q v} (hs : s.Canon) : (s.sqDoorbell p q v).Canon := by
  unfold State.sqDoorbell
  split
  · exact hs.dbMiss
  · exact .ite hs.dbMiss (.ite hs.sqError hs.setSq)

theorem State.Canon.cqDoorbell {p q v} (hs : s.Canon) : (s.cqDoorbell p q v).Canon := by
  unfold State.cqDoorbell
  split
  · exact hs.dbMiss
  · exact .ite hs.dbMiss (.ite hs.cqError hs.setCq.evDrain)

theorem State.Canon.negotiateQ {p v} (hs : s.Canon) : (s.negotiateQ p v).Canon :=
  .ite hs.setPart.logWrite (.ite hs.setPart hs.setPart)
theorem State.Canon.pwCtrWrite {p i size v} (hs : s.Canon) : (s.pwCtrWrite p i size v).Canon := .ite hs.dbMiss hs.setPart

theorem State.Canon.execDescriptorFetch {late st} (hs : s.Canon) : CanonNext (execDescriptorFetch late st s) := by
  unfold Machine.execDescriptorFetch
  split
  · split
    · exact .next hs
    · exact .ite (.next hs) (.next hs.lateFail)
  · exact .next hs
  · split
    · exact .next hs
    · extract_lets st1 y v cmd y1 short y2 cmd1 s1 s2 _ s3
      have h1 : s1.Canon := hs.setPart.setSq
      have h2 : s2.Canon := by
        unfold s2
        split
        · exact h1.setCq
        · exact h1
      have h3 : s3.Canon := h2.frame
      clear_value s3
      exact .ite (.next hs) (.ite (.next hs.noteRead.sqError) (.next (.ite h3.count h3)))

theorem State.Canon.execCommandStart {id buf} (hs : s.Canon) : CanonNext (execCommandStart id buf s) := by
  unfold Machine.execCommandStart
  split
  · exact .next hs
  · extract_lets before
    refine .ite (.next hs) ?_
    split
    · extract_lets p y lack s1 y1 s2 c1 kind
      have h2 : s2.Canon := hs.advance.setPart.tableRead fun ht => ht.devUe
      clear_value kind s2
      split
      · exact .next h2.setCmd
      · exact .next (.ite h2.setCmd.count h2.setCmd)
    · exact .next hs

theorem State.Canon.complete1 {c st detail result wr} (hs : s.Canon) : (s.complete1 c st detail result wr).Canon := by
  unfold State.complete1
  extract_lets p y _ s0 s1 _ s2 head
  have h0 : s0.Canon := hs.frame
  have h1 : s1.Canon := .ite h0.logWrite h0
  have h2 : s2.Canon := h1.setPart
  clear_value head s2
  split
  · exact h2
  · split
    · exact h2
    · exact .ite h2.setCq (.ite h2.setCq.cqError h2.setCq.cqPost)

theorem State.Canon.execMsixCoalesceTimeout {p q} (hs : s.Canon) : CanonNext (execMsixCoalesceTimeout p q s) := by
  unfold Machine.execMsixCoalesceTimeout
  split
  · exact .next hs
  · exact .ite (.next hs) (.next hs.atLeast.cqSignal)

theorem State.Canon.adminCtrlWrite {v} (hs : s.Canon) : (s.adminCtrlWrite v).Canon := by
  unfold State.adminCtrlWrite
  refine .ite hs.raise ?_
  dsimp only
  split
  · exact .ite hs.setFld hs
  · exact .ite (.setPart (.setSq (.setCq (.raise (.ite hs.setFld hs))))) (.raise (.ite hs.setFld hs))

/-! ### The functions of Machine.Wire -/

theorem State.Canon.setEth {f} (hs : s.Canon) : (s.setEth f).Canon := hs.frame

theorem State.Canon.holdFor {hop f} (hs : s.Canon) : (s.holdFor hop f).Canon := by
  unfold State.holdFor
  exact hs.setEth

theorem State.Canon.sendRdma {k qpn cmd} (hs : s.Canon) : (s.sendRdma k qpn cmd).Canon := by
  unfold State.sendRdma
  split
  · exact hs.emit.inject
  · exact .ite hs.setEth hs.holdFor

/-! ### The functions of Machine.Rdma -/

theorem State.Canon.setRdm {f} (hs : s.Canon) : (s.setRdm f).Canon := hs.frame
theorem State.Canon.setQp {n q} (hs : s.Canon) : (s.setQp n q).Canon := hs.setRdm
theorem State.Canon.modQp {n f} (hs : s.Canon) : (s.modQp n f).Canon := hs.setRdm
theorem State.Canon.answer {q k destQp psn op data} (hs : s.Canon) : (s.answer q k destQp psn op data).Canon := hs.sendRdma

theorem State.Canon.placeAt {p a b t} (hs : s.Canon) (e : s.placeAt p a b = .ok t) : t.Canon := by
  unfold State.placeAt at e
  split at e
  · cases e
    exact hs
  · split at e
    · cases e
    · cases e
    · split at e
      · cases e
        exact hs.rangeWrite
      · cases e

theorem State.Canon.deliver {c b result} (hs : s.Canon) : (s.deliver c b result).Canon := by
  unfold State.deliver
  split
  · exact (hs.placeAt ‹_›).endCmd
  · exact hs.endCmd
  · exact hs.setRdm

theorem State.Canon.finishRecv {id len imm src} (hs : s.Canon) : (s.finishRecv id len imm src).Canon := hs.endCmd

theorem State.Canon.sendPkts {qpn q w c l} (hs : s.Canon) : (s.sendPkts qpn q w c l).1.Canon := by
  induction l generalizing s with
  | nil => exact hs
  | cons i l ih =>
    unfold State.sendPkts
    split
    · exact ih hs.sendRdma
    · exact hs
    · exact hs

theorem State.Canon.flushQp {qpn st detail} (hs : s.Canon) : (s.flushQp qpn st detail).Canon := by
  unfold State.flushQp
  split
  · exact hs
  · dsimp only
    split
    · exact ((hs.foldl fun ht => ht.endCmd).foldl fun ht => ht.endCmd).modQp
    · exact ((hs.foldl fun ht => ht.endCmd).foldl fun ht => ht.endCmd).modQp.logWrite

theorem State.Canon.qpError {qpn st detail} (hs : s.Canon) : (s.qpError qpn st detail).Canon := by
  unfold State.qpError
  split
  · exact hs
  · exact hs.modQp.flushQp.raise.event

theorem State.Canon.pumpGo {qpn l} (hs : s.Canon) : (s.pumpGo qpn l).Canon := by
  induction l generalizing s with
  | nil => exact hs
  | cons w l ih =>
    unfold State.pumpGo
    split
    · refine .ite hs ?_
      dsimp only
      split
      · exact ih (hs.sendPkts.ofFst ‹_›).modQp
      · exact (hs.sendPkts.ofFst ‹_›).qpError
    · exact ih hs

theorem State.Canon.pump {qpn} (hs : s.Canon) : (s.pump qpn).Canon := by
  unfold State.pump
  split
  · exact hs.pumpGo
  · exact hs

theorem State.Canon.resendGo {qpn l} (hs : s.Canon) : (s.resendGo qpn l).Canon := by
  induction l generalizing s with
  | nil => exact hs
  | cons w l ih =>
    unfold State.resendGo
    split
    · split
      · exact ih (hs.sendPkts.ofFst ‹_›).count
      · exact (hs.sendPkts.ofFst ‹_›).qpError
    · exact ih hs

theorem State.Canon.resend {qpn} (hs : s.Canon) : (s.resend qpn).Canon := by
  unfold State.resend
  split
  · exact hs.resendGo.modQp
  · exact hs

theorem State.Canon.finishWrs {qpn} (hs : s.Canon) : (s.finishWrs qpn).Canon := by
  unfold State.finishWrs
  split
  · exact hs
  · exact hs.modQp.foldl fun ht => ht.endCmd

theorem State.Canon.ackTo {qpn psn} (hs : s.Canon) : (s.ackTo qpn psn).Canon := by
  unfold State.ackTo
  split
  · exact hs
  · exact .ite hs.modQp.finishWrs.pump hs.finishWrs

theorem State.Canon.touchQp {qpn} (hs : s.Canon) : (s.touchQp qpn).Canon := hs.modQp.setRdm

theorem State.Canon.launch {qpn c rd} (hs : s.Canon) : (s.launch qpn c rd).Canon := by
  unfold State.launch
  split
  · exact hs.endCmd
  · refine .ite hs.endCmd (.ite hs.endCmd.qpError ?_)
    split
    · exact hs.endCmd
    · exact hs.holdCmd
    · exact .ite hs.modQp.pump.touchQp.modQp.endCmd hs.modQp.pump.touchQp

theorem State.Canon.wantCtx {qpn} (hs : s.Canon) : (s.wantCtx qpn).Canon := by
  unfold State.wantCtx
  split
  · exact .ite hs (.ite hs.setQp (by split; exacts [hs.modQp.setQp, hs.setQp]))
  · exact hs

theorem State.Canon.runWr {qpn c rd} (hs : s.Canon) : (s.runWr qpn c rd).Canon := by
  unfold State.runWr
  split
  · exact hs.endCmd
  · exact .ite hs.launch hs.setQp.wantCtx

theorem State.Canon.releaseTag {part tag} (hs : s.Canon) : (s.releaseTag part tag).Canon :=
  hs.foldl fun ht => by split; exacts [.ite ht.setCmd.runWr ht, ht]
theorem State.Canon.trigger {part tag} (hs : s.Canon) : CanonSome (s.trigger part tag) :=
  .ite (.some hs.count.releaseTag) (.ite (.some hs.setRdm) .none)

theorem State.Canon.deliverImm {q len src imm} (hs : s.Canon) : CanonSome (s.deliverImm q len src imm) := by
  unfold State.deliverImm
  split
  · exact .some hs
  · refine .ite hs.trigger ?_
    split
    · exact .some hs.finishRecv
    · exact .some hs

theorem State.Canon.rxAdvance {qpn n} (hs : s.Canon) : (s.rxAdvance qpn n).Canon := hs.modQp
theorem State.Canon.rcNak {q k code} (hs : s.Canon) : (s.rcNak q k code).Canon := hs.answer
theorem State.Canon.rcRnr {q k code} (hs : s.Canon) : (s.rcRnr q k code).Canon := hs.answer
theorem State.Canon.rcAck {q k} (hs : s.Canon) : (s.rcAck q k).Canon := .ite hs.answer hs
theorem State.Canon.readRsps {q k b} (hs : s.Canon) : (s.readRsps q k b).Canon := hs.foldl fun ht => ht.answer

theorem State.Canon.rcSend {qpn q k first last imm} (hs : s.Canon) : CanonSome (s.rcSend qpn q k first last imm) := by
  unfold State.rcSend
  extract_lets n cur
  clear_value cur
  refine .ite ?_ (.ite (.some hs.rcNak) ?_)
  · split
    · exact .some (hs.deliverImm _ ‹_›).rxAdvance.rcAck
    · exact .some hs.rcRnr
  · split
    · exact .some (.ite hs.rcRnr hs.rcNak)
    · split
      · exact .some hs
      · extract_lets drop
        have hdrop : ∀ {t st}, t.Canon → (drop t st).Canon := fun ht => .ite ht ht.modQp.endCmd
        clear_value drop
        refine .ite (.some (hdrop hs.rcNak)) (.ite (.some hs.rcRnr) ?_)
        split
        · exact .none
        · exact .some (hdrop hs.rcNak)
        · extract_lets t1 t2
          have h1 : t1.Canon := (hs.placeAt ‹_›).rxAdvance.modQp
          have h2 : t2.Canon := .ite h1 (.ite (.getD h1.deliverImm h1) h1.finishRecv)
          exact .some h2.rcAck

theorem State.Canon.rcWrite {qpn q k reth last imm} (hs : s.Canon) : CanonSome (s.rcWrite qpn q k reth last imm) := by
  unfold State.rcWrite
  extract_lets n cur
  clear_value cur
  split
  · exact .some hs.rcNak
  · refine .ite (.some hs.rcNak) (.ite (.some hs.rcNak) ?_)
    split
    · exact .some hs.rcRnr
    · split
      · exact .none
      · exact .some hs.rcNak
      · extract_lets t1
        have h1 : t1.Canon := (hs.placeAt ‹_›).rxAdvance.modQp
        exact .some (State.Canon.getD h1.deliverImm h1).rcAck

theorem State.Canon.rcIn {qpn q k} (hs : s.Canon) : CanonSome (s.rcIn qpn q k) := by
  unfold State.rcIn
  extract_lets d s1
  have h1 : s1.Canon := hs.count
  clear_value s1
  refine .ite ?_ (.ite (.some hs.rcNak) ?_)
  · split
    · refine .ite ?_ (.some h1)
      split
      · exact .some h1.readRsps
      · exact .some h1
    · split
      · exact .some h1.answer
      · exact .some h1
    · exact .some h1.answer
  · split
    · exact hs.rcSend
    · exact hs.rcWrite
    · refine .ite (.some hs.rcNak) ?_
      split
      · exact .some hs.rxAdvance.readRsps
      · exact .some hs.rcNak
      · exact .none
    · refine .ite (.some hs.rcNak) (.ite (.some hs.rcNak) ?_)
      split
      · exact .none
      · exact .some hs.rcNak
      · extract_lets old
        split
        · exact .none
        · exact .some hs.rcNak
        · exact .some (hs.placeAt ‹_›).rxAdvance.modQp.answer
    · exact .some hs.rcNak

theorem State.Canon.sprayRecord {qpn k whole} (hs : s.Canon) : (s.sprayRecord qpn k whole).Canon := by
  unfold State.sprayRecord
  split
  · exact hs
  · exact .ite hs.setQp hs.setQp.answer

theorem State.Canon.sprayRsps {q k h b} (hs : s.Canon) : (s.sprayRsps q k h b).Canon := hs.foldl fun ht => ht.answer

theorem State.Canon.sprayIn {qpn q k} (hs : s.Canon) : CanonSome (s.sprayIn qpn q k) := by
  unfold State.sprayIn
  extract_lets d again s0 n
  refine .ite (.some hs) ?_
  split
  · have h0 : s0.Canon := .ite hs.count hs
    clear_value s0
    refine .ite (.some h0.rcNak) ?_
    split
    · exact .some (State.Canon.ite h0 h0.sprayRecord).sprayRsps
    · exact .some h0.rcNak
    · exact .none
  · refine .ite (.some hs.count.answer) ?_
    extract_lets bytes whole
    clear_value bytes
    refine .ite (.some hs.rcNak) (.ite (.some hs.rcNak) ?_)
    split
    · exact .some hs.rcRnr
    · split
      · exact .none
      · exact .some hs.rcNak
      · extract_lets t1 t2
        have h1 : t1.Canon := (hs.placeAt ‹_›).modQp
        have h2 : t2.Canon := .ite (.getD h1.deliverImm h1) h1
        exact .some h2.sprayRecord
  · exact .some hs.rcNak

theorem State.Canon.udIn {q k qkey src imm} (hs : s.Canon) : CanonSome (s.udIn q k qkey src imm) := by
  unfold State.udIn
  refine .ite (.some hs) (.ite (.some (.getD hs.deliverImm hs)) ?_)
  split
  · exact .some hs
  · refine .ite (.some hs) ?_
    split
    · exact .none
    · exact .some hs
    · exact .some (hs.placeAt ‹_›).finishRecv

theorem State.Canon.rdNak {q k h reason} (hs : s.Canon) : (s.rdNak q k h reason).Canon := hs.answer
theorem State.Canon.rdAck {q k h} (hs : s.Canon) : (s.rdAck q k h).Canon := hs.answer

theorem State.Canon.rdPlace {q k h m} (hs : s.Canon) : CanonSome (s.rdPlace q k h m) := by
  unfold State.rdPlace
  extract_lets n got whole isSend trig recvIn dst m1
  clear_value dst
  split
  · exact .some hs.rdNak
  · split
    · exact .none
    · exact .some hs.rdNak
    · next t e =>
      have ht : t.Canon := by
        split at e
        · exact hs.placeAt e
        · cases e
          exact hs
      extract_lets t1 t2
      have h1 : t1.Canon := ht.setRdm
      have h2 : t2.Canon := by
        unfold t2
        split
        · exact h1.finishRecv
        · exact .getD h1.deliverImm h1
      exact .ite (.some ht.setRdm) (.some h2.rdAck)

theorem State.Canon.rdAbandon {m} (hs : s.Canon) : (s.rdAbandon m).Canon := by
  unfold State.rdAbandon
  dsimp only
  split
  · exact hs.setRdm.endCmd
  · exact hs.setRdm

theorem State.Canon.rdInPkt {qpn q k h} (hs : s.Canon) : CanonSome (s.rdInPkt qpn q k h) := by
  unfold State.rdInPkt
  extract_lets id isSend recv m
  split
  · exact .some hs.rdAbandon
  · split
    · exact .some hs.rdAck
    · exact .some hs
    · refine .ite (.some hs.rdNak) (.ite (.some hs.rdNak) ?_)
      split
      · exact .ite (.some hs.count) hs.rdPlace
      · refine .ite (.some hs.rdNak) ?_
        split
        · exact .some hs.rdNak
        · exact .ite (.some hs.rdNak) (.ite (.some hs.rdNak) hs.setRdm.rdPlace)

theorem State.Canon.staleRsp {q} (hs : s.Canon) : (s.staleRsp q).Canon := hs.count

theorem State.Canon.placeRsp {qpn q w off b} (hs : s.Canon) : CanonSome (s.placeRsp qpn q w off b) := by
  unfold State.placeRsp
  split
  · exact .some hs
  · refine .ite (.some hs.count) ?_
    split
    · exact .none
    · exact .some hs.endCmd.qpError
    · exact .some (hs.placeAt ‹_›).modQp

theorem State.Canon.rdGiveUp {qpn w} (hs : s.Canon) : (s.rdGiveUp qpn w).Canon := by
  unfold State.rdGiveUp
  dsimp only
  split
  · exact hs.modQp.endCmd
  · exact hs.modQp.endCmd

theorem State.Canon.rspIn {qpn q k} (hs : s.Canon) : CanonSome (s.rspIn qpn q k) := by
  unfold State.rspIn
  extract_lets psn prev s1
  have h1 : s1.Canon := hs.ackTo
  clear_value s1
  split
  · exact .some hs.ackTo
  · exact .some (by split; exacts [h1.resend, h1.qpError, h1.qpError, h1.qpError])
  · split
    · exact .some h1
    · exact .ite (.some h1.qpError) (.some h1.setQp)
  · split
    · exact .some hs.staleRsp
    · exact .map hs.placeRsp fun ht => ht.ackTo
  · split
    · exact .some hs.staleRsp
    · exact .map hs.placeRsp fun ht => ht.ackTo
  · split
    · exact .some hs.staleRsp
    · exact .map hs.placeRsp fun ht => ht.finishWrs
  · split
    · exact .some hs.staleRsp
    · exact .ite (.some hs.rdGiveUp) (.some hs.modQp.endCmd)
  · split
    · exact .some hs.staleRsp
    · exact .ite (.some hs.rdGiveUp) (.ite (.some hs.modQp) (.some hs.modQp.endCmd))
  · exact .some hs

theorem State.Canon.sendCnp {qpn k} (hs : s.Canon) : (s.sendCnp qpn k).Canon := by
  unfold State.sendCnp
  split
  · exact hs
  · exact .ite hs.setQp.count.answer hs

theorem State.Canon.cnpIn {qpn q} (hs : s.Canon) : (s.cnpIn qpn q).Canon := hs.count.setQp

theorem State.Canon.handlePkt {qpn k} (hs : s.Canon) : CanonSome (s.handlePkt qpn k) := by
  unfold State.handlePkt
  split
  · exact .some hs
  · extract_lets s0 s1 q up
    have h0 : s0.Canon := .ite (hs.tableRead fun ht => ht) (.ite hs.devUe hs)
    have h1 : s1.Canon := h0.sendCnp.touchQp
    clear_value q s1
    refine .ite (.some h1.devUe.qpError) (.ite (.ite (.some h1.count) (.ite h1.rspIn (.some h1))) (.ite (.some h1.cnpIn) ?_))
    split
    case h_3 => exact .ite h1.udIn (.some h1)
    case h_4 => exact .ite (.some h1) (.ite (.some h1.rcRnr) (.ite h1.rcIn h1.sprayIn))
    all_goals exact .ite (.some h1) (.ite (.some h1.rdNak) (.ite (.some h1.rdNak) h1.rdInPkt))

theorem State.Canon.missShow (hs : s.Canon) : s.missShow.Canon := hs.setFld.setFld

theorem State.Canon.drainQp {qpn n} (hs : s.Canon) : (s.drainQp qpn n).Canon := by
  induction n generalizing s with
  | zero => exact hs
  | succ n ih =>
    unfold State.drainQp
    split
    · exact hs
    · refine .ite hs ?_
      split
      · split
        · exact ih (hs.setQp.handlePkt _ ‹_›)
        · exact hs
      · dsimp only
        split
        · exact ih hs.setQp.launch
        · exact ih hs.setQp
      · exact hs

theorem State.Canon.drainAll {qpn} (hs : s.Canon) : (s.drainAll qpn).Canon := by
  unfold State.drainAll
  split
  · exact hs.drainQp.missShow
  · exact hs

theorem State.Canon.drainWaits (hs : s.Canon) : s.drainWaits.Canon :=
  (hs.foldl fun ht => .ite ht ht.drainAll).setRdm.foldl fun ht => by split; exacts [ht.deliver, ht]

theorem State.Canon.missRefuse {q k} (hs : s.Canon) : (s.missRefuse q k).Canon := by
  unfold State.missRefuse
  extract_lets s1 due s2
  have h1 : s1.Canon := hs.count.raise
  have h2 : s2.Canon := .ite h1.setRdm.event h1
  clear_value s2
  generalize k.op = op
  cases op
  case rdSend | rdWrite => exact h2.rdNak
  case ud | cnp => exact h2
  all_goals exact .ite h2 h2.answer

theorem State.Canon.arrive {qpn k} (hs : s.Canon) : (s.arrive qpn k).Canon := by
  unfold State.arrive
  split
  · exact hs
  · refine .ite ?_ (.ite hs.missRefuse (.ite hs.setQp.missShow.drainAll hs.setQp.missShow.wantCtx))
    split
    · exact hs.handlePkt _ ‹_›
    · exact hs.setQp.missShow

theorem State.Canon.goneQpRsp {n} (hs : s.Canon) : (s.goneQpRsp n).Canon := by
  unfold State.goneQpRsp
  split
  · exact hs.count
  · exact hs

theorem State.Canon.takePkt {k} (hs : s.Canon) : (s.takePkt k).Canon := by
  unfold State.takePkt
  dsimp only
  refine .ite hs.emit ?_
  split
  · exact hs.arrive
  · split
    · exact hs.sendRdma
    · exact hs.sendRdma
    · exact .ite hs.goneQpRsp hs

theorem State.Canon.takeHanded {k} (hs : s.Canon) : (s.takeHanded k).2.Canon := by
  unfold State.takeHanded
  split
  · dsimp only
    exact hs.setEth
  · exact hs

theorem State.Canon.execRdmaPacketReceive {k} (hs : s.Canon) : CanonNext (execRdmaPacketReceive k s) := by
  unfold Machine.execRdmaPacketReceive
  refine .ite (.next hs.takeHanded.takePkt) (.ite (.next hs.count) ?_)
  split
  · exact .next hs.count
  · exact .next (hs.genCheck _ ‹_›).takePkt

theorem State.Canon.fetchFail {qpn q t} (hs : s.Canon) : (s.fetchFail qpn q t).Canon :=
  hs.atLeast.setQp.count.raise.missShow.event

theorem State.Canon.execQpcFetchDone {qpn} (hs : s.Canon) : CanonNext (execQpcFetchDone qpn s) := by
  unfold Machine.execQpcFetchDone
  split
  · split
    · exact .ite (.next hs.fetchFail) (.next hs.setQp.touchQp.drainAll)
    · exact .next hs
  · exact .next hs

theorem State.Canon.execQpcFetchTimeout {qpn} (hs : s.Canon) : CanonNext (execQpcFetchTimeout qpn s) := by
  unfold Machine.execQpcFetchTimeout
  split
  · split
    · exact .next hs.fetchFail
    · exact .next hs
  · exact .next hs

theorem State.Canon.execQpcWritebackDone {qpn} (hs : s.Canon) : CanonNext (execQpcWritebackDone qpn s) := by
  unfold Machine.execQpcWritebackDone
  split
  · split
    · exact .next hs
    · exact .next (.ite (.wantCtx (by split; exacts [hs.setQp.count.setQp, hs.setQp.count])) (by split; exacts
        [hs.setQp.count.setQp, hs.setQp.count]))
  · exact .next hs

theorem State.Canon.execRetxTimeout {qpn} (hs : s.Canon) : CanonNext (execRetxTimeout qpn s) := by
  unfold Machine.execRetxTimeout
  split
  · exact .next hs
  · refine .ite (.next hs) (.ite ?_ (.ite (.next hs) (.ite (.next hs.atLeast.qpError) (.next hs.atLeast.setQp.resend.pump))))
    split
    · exact .next hs
    · exact .ite (.next hs.atLeast.endCmd.qpError) (.ite (.next hs.atLeast) (.next hs.atLeast.setQp.resendGo))

theorem State.Canon.execRnrTimerExpire {qpn} (hs : s.Canon) : CanonNext (execRnrTimerExpire qpn s) := by
  unfold Machine.execRnrTimerExpire
  split
  · exact .next hs
  · split
    · exact .next hs
    · exact .next hs.atLeast.setQp.resend.pump

theorem State.Canon.execRdMessageAbandon {k} (hs : s.Canon) : CanonNext (execRdMessageAbandon k s) := by
  unfold Machine.execRdMessageAbandon
  split
  · exact .next hs
  · exact .next hs.atLeast.rdAbandon

theorem State.Canon.execRdKeepExpire {id} (hs : s.Canon) : CanonNext (execRdKeepExpire id s) := by
  unfold Machine.execRdKeepExpire
  split
  · exact .next hs
  · split
    · exact .next hs
    · exact .next hs.atLeast.rdGiveUp

theorem State.Canon.execCcRecover {qpn} (hs : s.Canon) : CanonNext (execCcRecover qpn s) := by
  unfold Machine.execCcRecover
  split
  · exact .next hs
  · split
    · exact .next hs
    · exact .next hs.atLeast.setQp

theorem State.Canon.execTrigHoldExpire {p tag} (hs : s.Canon) : CanonNext (execTrigHoldExpire p tag s) := by
  unfold Machine.execTrigHoldExpire
  split
  · exact .next hs
  · exact .next hs.atLeast.setRdm.event

/-! ### The functions of Machine.Granary -/

theorem State.Canon.setMigs {l} (hs : s.Canon) : (s.setMigs l).Canon := hs.frame.setFld
theorem State.Canon.putEntry {a v} (hs : s.Canon) : (s.putEntry a v).Canon := hs.devWrite

theorem State.Canon.execMigrate {id} (hs : s.Canon) : CanonNext (execMigrate id s) := by
  unfold Machine.execMigrate
  refine hs.onCmd fun {c} => ?_
  dsimp only
  refine .ite hs (.ite hs.endCmd (.ite hs.endCmd ?_))
  split
  · exact hs.endCmd
  · exact .ite hs.endCmd (.ite hs.endCmd (by split; exacts [hs.putEntry.setMigs, hs.endCmd]))

theorem State.Canon.execMigrateComplete {id ue} (hs : s.Canon) : CanonNext (execMigrateComplete id ue s) := by
  unfold Machine.execMigrateComplete
  split
  · exact .next hs
  · dsimp only
    split
    · exact .ite (.next hs.waitCmd) (.next hs.setMigs.devWrite.putEntry.endCmd.drainWaits)
    · exact .next hs.setMigs.eccAt.putEntry.raise.endCmd.drainWaits

theorem State.Canon.svcMaskWrite {k v} (hs : s.Canon) : (s.svcMaskWrite k v).Canon := .ite hs.raise hs.setFld.beginLoads
theorem State.Canon.svcLeave {id} (hs : s.Canon) : (s.svcLeave id).Canon := hs.frame
theorem State.Canon.svcEnd {id st detail} (hs : s.Canon) : (s.svcEnd id st detail).Canon := hs.svcLeave.endCmd
theorem State.Canon.readFail {a rd} (hs : s.Canon) : (s.readFail a rd).Canon := .noteRead (.ite hs.eccAt hs)
theorem State.Canon.svcDo {id op rd line f} (hs : s.Canon) (hf : ∀ {c}, (f c).Canon) : CanonNext (s.svcDo id op rd line f) :=
  hs.onCmd (.ite (.ite hf hs.readFail.svcEnd) (.ite hs.endCmd hs))

theorem State.Canon.execSeal {id rd line} (hs : s.Canon) : CanonNext (execSeal id rd line s) := by
  unfold Machine.execSeal
  refine hs.svcDo fun {x} => ?_
  split
  · exact hs.waitCmd
  · exact hs.svcEnd
  · exact (hs.foldl fun ht => ht.rangeWrite).svcEnd

theorem State.Canon.execAttend {id rd line} (hs : s.Canon) : CanonNext (execAttend id rd line s) := by
  unfold Machine.execAttend
  refine hs.svcDo fun {x} => ?_
  split
  · exact hs.waitCmd
  · exact hs.svcEnd
  · exact hs.svcEnd
  · dsimp only
    split
    · exact hs.waitCmd
    · exact hs.svcEnd
    · exact (hs.foldl fun ht => ht.rangeWrite).svcEnd

theorem State.Canon.migFail {id st} (hs : s.Canon) : (s.migFail id st).Canon := by
  unfold State.migFail
  split
  · exact hs
  · exact hs.setMigs.putEntry.endCmd.drainWaits

theorem State.Canon.loseRegion {r} (hs : s.Canon) : (s.loseRegion r).Canon := hs.foldl fun ht => .ite ht.migFail ht.svcEnd
theorem State.Canon.leaveCxl {n st} (hs : s.Canon) : (s.leaveCxl n st).Canon :=
  .ite hs.loseRegion.setCxl.count.raise.event0 hs.setCxl

theorem State.Canon.cxlCtrlWrite {n v} (hs : s.Canon) : (s.cxlCtrlWrite n v).Canon :=
  have h1 := hs.setFld.setFld
  .ite hs.setFld (.ite (.ite h1.setCxl h1) h1.leaveCxl)

theorem State.Canon.undefOut {c st} (hs : s.Canon) : (s.undefOut c st).Canon := .ite (hs.foldl fun ht => ht.freeBytes) hs

theorem State.Canon.execCommandComplete {id wr} (hs : s.Canon) : CanonNext (execCommandComplete id wr s) := by
  unfold Machine.execCommandComplete
  split
  · exact .next hs
  · split
    · exact .next hs
    · exact .ite (.next hs) (.next hs.undefOut.complete1)

theorem State.Canon.execServiceRequestStart (hs : s.Canon) : CanonNext (execServiceRequestStart s) := by
  unfold Machine.execServiceRequestStart
  split
  · split
    · exact .next hs
    · dsimp only
      split
      · exact .next hs.setPart.setCmd.frame.endCmd
      · exact .next hs.setPart.setCmd.frame
  · exact .next hs

/-! ### The functions of Machine.Hif -/

theorem State.Canon.execUpLinkUp {h rate width} (hs : s.Canon) : CanonNext (execUpLinkUp h rate width s) :=
  .ite (.next hs) (.next hs.setFld.setFld.raise.pulse)
theorem State.Canon.dropLink {h} (hs : s.Canon) : (s.dropLink h).Canon := hs.setFld.setFld.setFld.setFld.pulse
theorem State.Canon.hifCfgWrite {fn v} (hs : s.Canon) : (s.hifCfgWrite fn v).Canon :=
  .ite hs.raise (.ite hs (.ite hs.setFld hs.raise))
theorem State.Canon.resizeBar4 {fn n} (hs : s.Canon) : (s.resizeBar4 fn n).Canon := .ite hs hs.setCfg
theorem State.Canon.setSpdm {fn x} (hs : s.Canon) : (s.setSpdm fn x).Canon := hs.setHif
theorem State.Canon.doeAbort {fn} (hs : s.Canon) : (s.doeAbort fn).Canon := hs.setSpdm
theorem State.Canon.doeWord {fn v} (hs : s.Canon) : (s.doeWord fn v).Canon := .ite hs (.ite hs.setSpdm hs.setSpdm)

theorem State.Canon.cfgWrite {fn f v} (hs : s.Canon) : (s.cfgWrite fn f v).Canon := by
  unfold State.cfgWrite
  dsimp only
  split
  · exact hs.setCfg
  · exact hs.setCfg
  · exact hs.setCfg
  · exact .ite hs.setCfg hs
  · exact hs.setCfg
  · exact hs.setHif.msixFlush
  · exact hs.resizeBar4
  · exact hs.setCfg
  · exact .ite hs.doeAbort hs
  · exact hs.doeWord
  · exact hs

theorem State.Canon.execConfigurationRequest {fn x} (hs : s.Canon) : CanonNext (execConfigurationRequest fn x s) := by
  unfold Machine.execConfigurationRequest
  refine .ite (.next hs.emit) ?_
  split
  · exact .next hs.emit
  · exact .next hs.cfgWrite.emit

theorem State.Canon.replyUr {link} (hs : s.Canon) : (s.replyUr link).Canon := hs.aerLog.emit

theorem State.Canon.winAccess {link first n x miss} (hs : s.Canon) (hmiss : ∀ {t}, t.Canon → (miss t).Canon) :
    (s.winAccess link first n x miss).Canon := by
  unfold State.winAccess
  extract_lets wr len goal s0 fail
  have h0 : s0.Canon := .ite hs.poisonRx hs
  have hfail : ∀ {t}, t.Canon → (fail t).Canon := fun ht => .raise (.ite ht ht.emit)
  clear_value goal s0 fail
  have hm : (if wr = true then miss s0 else (miss s0).replyUr link).Canon := .ite (hmiss h0) (hmiss h0).replyUr
  split
  · exact hm
  · refine .ite hm (.ite h0 ?_)
    extract_lets a u reads s1
    have h1 : s1.Canon := .ite hs.eccAt hs
    clear_value s1
    refine .ite (hfail hs) (.ite (hfail h1) ?_)
    split
    · exact h1.devWrite
    · exact h1.sendRd.emit

theorem State.Canon.execBar4Access {fn x} (hs : s.Canon) : CanonNext (execBar4Access fn x s) :=
  .ite (.next (hs.winAccess fun ht => ht.raise)) (.next hs)
theorem State.Canon.execInboundAccess {a x} (hs : s.Canon) : CanonNext (execInboundAccess a x s) :=
  .next (hs.winAccess fun ht => ht.count.raise)
theorem State.Canon.winCommit {v} (hs : s.Canon) : (s.winCommit v).Canon :=
  .ite hs (.ite hs.raise (.ite hs.setFld hs.setHif.setFld.raise))

theorem State.Canon.execWinSwitch (hs : s.Canon) : CanonNext (execWinSwitch s) := by
  unfold Machine.execWinSwitch
  split
  · exact .next hs
  · exact .next hs.setHif.setReg.setReg.setReg.setFld

theorem State.Canon.endDcfg {st} (hs : s.Canon) : (s.endDcfg st).Canon := hs.setHif.setFld.setFld

theorem State.Canon.issueDcfg {d} (hs : s.Canon) : (s.issueDcfg d).Canon := by
  unfold State.issueDcfg
  split
  · exact hs.setHif
  · exact (hs.issueTag ‹_›).setHif.emit

theorem State.Canon.dcfgAddrWrite {v} (hs : s.Canon) : (s.dcfgAddrWrite v).Canon := by
  unfold State.dcfgAddrWrite
  refine .ite hs.raise ?_
  dsimp only
  split
  · exact hs.setFld.setFld.setFld.setFld.endDcfg.logRefused
  · exact .ite hs.setFld.setFld.setFld.setFld.endDcfg hs.setFld.setFld.setFld.setFld.raise.issueDcfg

theorem State.Canon.dcfgCpl {d x} (hs : s.Canon) : (s.dcfgCpl d x).Canon := by
  unfold State.dcfgCpl
  refine .ite hs.poisonRx.endDcfg ?_
  split
  · exact .endDcfg (.ite hs hs.setFld)
  · exact hs.issueDcfg
  · exact hs.takeFree.endDcfg

theorem State.Canon.execPcieCompletionRx {k x} (hs : s.Canon) : CanonNext (execPcieCompletionRx k x s) := by
  unfold Machine.execPcieCompletionRx
  split
  · dsimp only
    refine .ite (.next hs.setTags.count) ?_
    split
    · exact .ite (.next hs.setTags.dcfgCpl) (.next hs.setTags)
    · exact .next hs.setTags
  · exact .next (.aerLog (.raise (.ite hs.count hs.count)))

theorem State.Canon.execCompletionTimeout {k tag} (hs : s.Canon) : CanonNext (execCompletionTimeout k tag s) := by
  unfold Machine.execCompletionTimeout
  split
  · extract_lets s1 s2
    have h1 : s1.Canon := hs.atLeast
    have h2 : s2.Canon := h1.setTags.reportTimeout
    clear_value s2 s1
    refine .ite (.next h1.setTags) ?_
    split
    · exact .ite (.next h2.endDcfg) (.next h2)
    · exact .next h2
  · exact .next hs

theorem State.Canon.execTagQuarantineEnd {k tag} (hs : s.Canon) : CanonNext (execTagQuarantineEnd k tag s) := by
  unfold Machine.execTagQuarantineEnd
  split
  · dsimp only
    split
    · exact .ite (.next hs.atLeast.setTags.issueDcfg) (.next hs.atLeast.setTags)
    · exact .next hs.atLeast.setTags
  · exact .next hs

theorem State.Canon.execDcfgCrsTimeout (hs : s.Canon) : CanonNext (execDcfgCrsTimeout s) := by
  unfold Machine.execDcfgCrsTimeout
  split
  · exact .next hs
  · split
    · exact .next hs
    · exact .next (.endDcfg (by split; exacts [hs.atLeast.setTags, hs.atLeast]))

theorem State.Canon.setSlotX {a f} (hs : s.Canon) : (s.setSlotX a f).Canon := hs.setHif
theorem State.Canon.enterSlot {a st} (hs : s.Canon) : (s.enterSlot a st).Canon := hs.setFld.pulse.setSlotX
theorem State.Canon.slotReset {a on} (hs : s.Canon) : (s.slotReset a on).Canon := hs.setSlotX.emit
theorem State.Canon.slotPower {a on} (hs : s.Canon) : (s.slotPower a on).Canon := hs.setSlotX.emit
theorem State.Canon.slotEvent {a code st} (hs : s.Canon) : (s.slotEvent a code st).Canon :=
  .event0 (by split; exacts [hs.raise, hs.raise, hs.raise, hs])
theorem State.Canon.slotNoLink {a} (hs : s.Canon) : (s.slotNoLink a).Canon := hs.setFld.setFld.setFld.setSlotX

theorem State.Canon.leaveReady {a} (hs : s.Canon) : (s.leaveReady a).Canon := by
  unfold State.leaveReady
  refine .ite ?_ hs
  dsimp only
  split
  · exact .ite hs.loseRegion.setFld.endDcfg hs.loseRegion.setFld
  · exact hs.loseRegion.setFld

theorem State.Canon.execSlotPresenceChange {a present button} (hs : s.Canon) :
    CanonNext (execSlotPresenceChange a present button s) := by
  unfold Machine.execSlotPresenceChange
  extract_lets press up s1 s2
  have hpress : ∀ {t}, t.Canon → (press t).Canon := fun ht => .ite ht.slotEvent ht
  have h1 : s1.Canon := hs.leaveReady.slotNoLink.slotReset.slotPower.enterSlot.setFld.slotEvent
  have h2 : s2.Canon := hpress h1
  clear_value s2
  exact .ite (.next hs) (.ite (.next (hpress hs.enterSlot.raise.slotEvent)) (.ite (.next (.ite h2.slotEvent h2)) (.next hs)))

theorem State.Canon.slotRefuse {a v} (hs : s.Canon) : (s.slotRefuse a v).Canon := hs.setFld.logRefused

theorem State.Canon.slotCtrlWrite {a v} (hs : s.Canon) : (s.slotCtrlWrite a v).Canon := by
  unfold State.slotCtrlWrite
  extract_lets ind s1 done n s2 up s2'
  have h1 : s1.Canon := .ite hs hs.setFld
  have h2 : s2.Canon := h1.setHif
  have h2' : s2'.Canon := h1.leaveReady.slotNoLink.slotReset.enterSlot.setSlotX
  clear_value s2 s2' s1
  refine .ite hs ?_
  split
  · exact .ite h2.slotReset.slotPower.enterSlot.setFld h1.slotRefuse
  · exact .ite (State.Canon.ite h2'.slotEvent h2').setFld h1.slotRefuse
  · exact h1

theorem State.Canon.execSlotPowerRemove {a} (hs : s.Canon) : CanonNext (execSlotPowerRemove a s) := by
  unfold Machine.execSlotPowerRemove
  split
  · exact .next hs
  · exact .next hs.atLeast.slotPower

theorem State.Canon.execSlotResetRelease {a} (hs : s.Canon) : CanonNext (execSlotResetRelease a s) :=
  .ite (.next hs.atLeast.slotReset.enterSlot) (.next hs)
theorem State.Canon.execSlotLinkUp {a rate width} (hs : s.Canon) : CanonNext (execSlotLinkUp a rate width s) :=
  .ite (.next hs) (.next hs.setFld.setFld.setFld.setSlotX.slotEvent)
theorem State.Canon.enumStart {a linkAt} (hs : s.Canon) : (s.enumStart a linkAt).Canon := .ite hs.atLeast.enterSlot hs

theorem State.Canon.execSlotEnumerate {a bars} (hs : s.Canon) : CanonNext (execSlotEnumerate a bars s) := by
  unfold Machine.execSlotEnumerate
  split
  · exact .next hs
  · refine .ite (.next hs) ?_
    dsimp only
    split
    · exact .next hs.enumStart
    · exact .ite (.next hs.enumStart.enterSlot.setSlotX.slotEvent) (.next hs.enumStart.enterSlot.slotEvent)

theorem State.Canon.execSlotTrainTimeout {a} (hs : s.Canon) : CanonNext (execSlotTrainTimeout a s) :=
  .ite (.next hs.atLeast.enterSlot.slotEvent) (.next hs)
theorem State.Canon.execSlotLinkLost {a} (hs : s.Canon) : CanonNext (execSlotLinkLost a s) :=
  .ite (.next hs.leaveReady.slotNoLink.enterSlot.slotEvent) (.next hs)
theorem State.Canon.dsCtrlWrite {n v} (hs : s.Canon) : (s.dsCtrlWrite n v).Canon := .ite hs.setFld hs.raise

/-! ### The functions of Machine.RdmaCmd -/

theorem State.Canon.refusePolicy {c detail} (hs : s.Canon) : (s.refusePolicy c detail).Canon := hs.endCmd.count
theorem State.Canon.showQps {p} (hs : s.Canon) : (s.showQps p).Canon := hs.setFld

theorem State.Canon.execQpCreate {id} (hs : s.Canon) : CanonNext (execQpCreate id s) := by
  unfold Machine.execQpCreate
  refine hs.onCmd fun {c} => ?_
  refine .ite hs.endCmd ?_
  dsimp only
  refine .ite hs.endCmd (.ite hs.refusePolicy ?_)
  split
  · exact hs.endCmd
  · exact .endCmd (.showQps (.touchQp (.setQp (.ite (by split; exacts [hs.modQp, hs]) hs))))

theorem State.Canon.execQpModify {id} (hs : s.Canon) : CanonNext (execQpModify id s) := by
  unfold Machine.execQpModify
  refine hs.onCmd fun {c} => ?_
  dsimp only
  split
  · exact hs.endCmd
  · refine .ite hs.endCmd (.ite hs.endCmd ?_)
    split
    · exact .endCmd (.ite hs.setQp hs.setQp.qpError)
    · exact hs.setQp.flushQp.modQp.missShow.endCmd
    · exact hs.setQp.modQp.endCmd

theorem State.Canon.dropQp {n} (hs : s.Canon) : (s.dropQp n).Canon := by
  unfold State.dropQp
  split
  · exact hs
  · exact hs.flushQp.count.setRdm.showQps.missShow

theorem State.Canon.execQpDestroy {id} (hs : s.Canon) : CanonNext (execQpDestroy id s) := by
  refine hs.onCmd fun {c} => ?_
  split
  · exact hs.endCmd
  · exact .ite hs.endCmd hs.dropQp.endCmd

theorem State.Canon.execQpnHoldEnd {qpn} (hs : s.Canon) : CanonNext (execQpnHoldEnd qpn s) := by
  unfold Machine.execQpnHoldEnd
  split
  · exact .next hs
  · exact .next hs.atLeast.setRdm

theorem State.Canon.execMrReg {id} (hs : s.Canon) : CanonNext (execMrReg id s) :=
  hs.onCmd (.ite hs.endCmd (by split; exacts [hs.endCmd, hs.setRdm.endCmd]))

theorem State.Canon.execMrDereg {id} (hs : s.Canon) : CanonNext (execMrDereg id s) := by
  refine hs.onCmd fun {c} => ?_
  split
  · exact hs.endCmd
  · exact .ite hs.endCmd hs.setRdm.endCmd

theorem State.Canon.startWr {qpn c rd} (hs : s.Canon) : (s.startWr qpn c rd).Canon := by
  unfold State.startWr
  refine .ite hs.endCmd (.ite ?_ hs.runWr)
  dsimp only
  split
  · exact hs.setRdm.count.runWr
  · exact .ite hs.endCmd hs.setCmd

theorem State.Canon.workReq {id op rd} (hs : s.Canon) : CanonNext (s.workReq id op rd) := by
  unfold State.workReq
  refine hs.onCmd fun {c} => ?_
  split
  · exact hs.endCmd
  · split
    · exact hs.endCmd
    · exact .ite hs (.ite hs.endCmd (.ite hs.endCmd (.ite hs.endCmd (.ite (.ite hs.endCmd hs.setCmd) hs.startWr))))

theorem State.Canon.execWaitRelease {id} (hs : s.Canon) : CanonNext (execWaitRelease id s) := by
  unfold Machine.execWaitRelease
  split
  · exact .next hs
  · refine .ite (.next hs) ?_
    dsimp only
    split
    · exact .next hs.setCmd.endCmd
    · exact .next hs.setCmd.startWr

theorem State.Canon.setNs {n x} (hs : s.Canon) : (s.setNs n x).Canon := hs.setRdm
theorem State.Canon.nsEvent {n x code st} (hs : s.Canon) : (s.nsEvent n x code st).Canon := hs.event
theorem State.Canon.nsTimeout {n id} (hs : s.Canon) : (s.nsTimeout n id).Canon := hs.setRdm.endCmd

theorem State.Canon.nsUp {c y x} (hs : s.Canon) : (s.nsUp c y x).Canon := by
  unfold State.nsUp
  split
  · exact hs
  · exact hs.setNs.endCmd

theorem State.Canon.execNsAttach {id x} (hs : s.Canon) : CanonNext (execNsAttach id x s) := by
  unfold Machine.execNsAttach
  refine hs.onCmd fun {c} => ?_
  dsimp only
  split
  · exact .ite hs.endCmd (.ite hs.endCmd hs.setNs.emit.nsUp)
  · split
    · exact .ite hs.endCmd (.ite hs.endCmd hs.setNs.emit.nsUp)
    · exact .ite (.ite hs.nsTimeout hs.nsUp) (.ite hs.endCmd hs.endCmd)
    · exact .ite hs.endCmd hs.endCmd

theorem State.Canon.execNsDetach {id} (hs : s.Canon) : CanonNext (execNsDetach id s) :=
  hs.onCmd (.ite hs.endCmd (by split; exacts [hs.endCmd, .ite hs.endCmd hs.setRdm.endCmd]))

theorem State.Canon.execNsAttachTimeout {id} (hs : s.Canon) : CanonNext (execNsAttachTimeout id s) := by
  unfold Machine.execNsAttachTimeout
  split
  · exact .next hs
  · split
    · exact .next hs.atLeast.nsTimeout
    · exact .next hs

theorem State.Canon.execNsAssocLost {n} (hs : s.Canon) : CanonNext (execNsAssocLost n s) := by
  unfold Machine.execNsAssocLost
  split
  · exact .next hs
  · exact .ite (.next hs) (.next (hs.setNs.foldl fun ht => ht.endCmd).nsEvent)

theorem State.Canon.nsGiveUp {n x t} (hs : s.Canon) : (s.nsGiveUp n x t).Canon :=
  (hs.atLeast.setNs.foldl fun ht => ht.endCmd).nsEvent

theorem State.Canon.execNsReconnect {n ok} (hs : s.Canon) : CanonNext (execNsReconnect n ok s) := by
  unfold Machine.execNsReconnect
  split
  · exact .next hs
  · split
    · exact .ite (.next hs) (.ite (.next hs.nsGiveUp) (.next (.ite hs.atLeast.emit.setNs.nsEvent hs.atLeast.emit.setNs)))
    · exact .next hs

theorem State.Canon.execNsReconnectGiveup {n} (hs : s.Canon) : CanonNext (execNsReconnectGiveup n s) := by
  unfold Machine.execNsReconnectGiveup
  split
  · exact .next hs
  · split
    · exact .next hs.nsGiveUp
    · exact .next hs

theorem State.Canon.execNsKeepAlive {n} (hs : s.Canon) : CanonNext (execNsKeepAlive n s) := by
  unfold Machine.execNsKeepAlive
  split
  · exact .next hs
  · exact .ite (.next hs.setNs.emit) (.next hs)

theorem State.Canon.endNvme {id l} (hs : s.Canon) : (s.endNvme id l).Canon := by
  unfold State.endNvme
  split
  · exact hs.endCmd
  · exact hs.endCmd

theorem State.Canon.withNs {c f} (hs : s.Canon) (hf : ∀ {x}, (f x).Canon) : (s.withNs c f).Canon := by
  unfold State.withNs
  split
  · exact .ite hs.refusePolicy hs.endCmd
  · refine .ite hs.refusePolicy ?_
    split
    · exact hf
    · exact hs.holdCmd
    · exact hs.endCmd

theorem State.Canon.putPieces {l n i ps} (hs : s.Canon) : (s.putPieces l n i ps).Canon := by
  induction ps generalizing s i with
  | nil => exact hs
  | cons p r ih => exact ih hs.rangeWrite

theorem State.Canon.execNvmeRead {id pieces} (hs : s.Canon) : CanonNext (execNvmeRead id pieces s) := by
  unfold Machine.execNvmeRead
  refine hs.onCmd fun {c} => ?_
  refine .withNs hs fun {x} => ?_
  refine .ite hs.endCmd (.ite hs ?_)
  split
  · exact hs.endCmd
  · exact hs.waitCmd
  · exact (hs.foldl fun ht => ht.nsPiece).putPieces.endNvme

theorem State.Canon.execNvmeWrite {id pieces rd} (hs : s.Canon) : CanonNext (execNvmeWrite id pieces rd s) := by
  unfold Machine.execNvmeWrite
  refine hs.onCmd fun {c} => ?_
  refine .withNs hs fun {x} => ?_
  refine .ite hs.endCmd (.ite hs ?_)
  split
  · exact hs.endCmd
  · exact hs.waitCmd
  · exact .ite hs.endCmd (hs.foldl fun ht => ht.nsPiece).endNvme

theorem State.Canon.execNvmeFlush {id st} (hs : s.Canon) : CanonNext (execNvmeFlush id st s) :=
  hs.onCmd (hs.withNs (.ite hs.endCmd hs.nsPiece.endNvme))
theorem State.Canon.rdmPartReset {p} (hs : s.Canon) : (s.rdmPartReset p).Canon := hs.setRdm.missShow

theorem State.Canon.rdmPartDestroy {p} (hs : s.Canon) : (s.rdmPartDestroy p).Canon := by
  unfold State.rdmPartDestroy
  exact (hs.rdmPartReset.foldl fun ht => ht.dropQp).setRdm

theorem State.Canon.endTo {dev} (hs : s.Canon) : (s.endTo dev).Canon := hs.setRdm.foldl fun ht => ht.endCmd

theorem State.Canon.failTo {dev} (hs : s.Canon) : (s.failTo dev).Canon := by
  unfold State.failTo
  refine .endTo (.foldl hs fun {t x} ht => ?_)
  split
  · exact ht
  · exact .ite (ht.setQp.foldl fun hu => hu.endCmd) (.ite ht.qpError ht)

theorem State.Canon.execGenNoticeRx {p n} (hs : s.Canon) : CanonNext (execGenNoticeRx p n s) := by
  unfold Machine.execGenNoticeRx
  split
  · exact .next hs
  · exact .next (hs.learnGen? _ ‹_›).failTo

/-! ### The functions of Machine.Part -/

theorem State.Canon.mgmt {id op zero f} (hs : s.Canon) (hf : ∀ {c p x}, (f c p x).Canon) : CanonNext (s.mgmt id op zero f) :=
  hs.onCmd (.ite hs.endCmd hf)
theorem State.Canon.dropSvc {p} (hs : s.Canon) : (s.dropSvc p).Canon := hs.frame
theorem State.Canon.dropCmds {p} (hs : s.Canon) : (s.dropCmds p).Canon := hs.frame

theorem State.Canon.endFreeze {p st} (hs : s.Canon) : (s.endFreeze p st).Canon := by
  unfold State.endFreeze
  split
  · exact hs.setPart.endCmd
  · exact hs

theorem State.Canon.endDelete {x} (hs : s.Canon) : (s.endDelete x).Canon := by
  unfold State.endDelete
  split
  · exact hs.endCmd
  · exact hs

theorem State.Canon.endSave {p} (hs : s.Canon) : (s.endSave p).Canon := hs.foldl fun ht => ht.endCmd
theorem State.Canon.cancelRsps {p} (hs : s.Canon) : (s.cancelRsps p).Canon := hs.frame.count

theorem State.Canon.execPartDestroy {id} (hs : s.Canon) : CanonNext (execPartDestroy id s) := by
  unfold Machine.execPartDestroy
  exact hs.mgmt (.ite hs.endCmd (.ite hs.endSave.endCmd (hs.endFreeze.endSave.foldl fun ht =>
    ht.endDelete).cancelRsps.rdmPartDestroy.dropSvc.dropCmds.frame.setPart.setFld.setFld.setFld.endCmd))

theorem State.Canon.execQueueCreate {id} (hs : s.Canon) : CanonNext (execQueueCreate id s) := by
  unfold Machine.execQueueCreate
  exact hs.mgmt (.ite hs.endCmd (.ite hs.endCmd (.ite (.ite hs.endCmd (.ite hs.endCmd hs.setCq.endCmd)) (.ite hs.endCmd (.ite
    hs.endCmd hs.setSq.endCmd)))))

theorem State.Canon.freeSq {p q} (hs : s.Canon) : (s.freeSq p q).Canon := hs.frame
theorem State.Canon.freeCq {p q} (hs : s.Canon) : (s.freeCq p q).Canon := hs.frame

theorem State.Canon.execQueueDelete {id} (hs : s.Canon) : CanonNext (execQueueDelete id s) := by
  unfold Machine.execQueueDelete
  refine hs.mgmt fun {c p x} => ?_
  extract_lets q
  refine .ite hs (.ite hs.endCmd (.ite hs.endCmd (.ite (.ite hs.endCmd hs.freeCq.endCmd) ?_)))
  split
  · exact hs.endCmd
  · split
    · exact hs.setSq
    · exact hs.endCmd
    · exact hs.freeSq.endCmd

theorem State.Canon.execSqDrainDone {p q} (hs : s.Canon) : CanonNext (execSqDrainDone p q s) := by
  unfold Machine.execSqDrainDone
  split
  · exact .next hs
  · exact .ite (.next hs) (.next hs.freeSq.endDelete)

theorem State.Canon.execQueueReset {id} (hs : s.Canon) : CanonNext (execQueueReset id s) := by
  unfold Machine.execQueueReset
  exact (hs.mgmt (.ite hs.endCmd (.ite hs.endCmd (.ite (by split; exacts [.ite hs.setCq.endCmd hs.endCmd, hs.endCmd]) (by
    split; exacts [.ite hs.setSq.endCmd hs.endCmd, hs.endCmd])))))

theorem State.Canon.execPartFreeze {id} (hs : s.Canon) : CanonNext (execPartFreeze id s) :=
  hs.mgmt (.ite hs (.ite hs.endCmd (.ite hs.endCmd (.ite hs.setPart.event hs.setPart.logWrite))))

theorem State.Canon.execFreezeGraceEnd {p} (hs : s.Canon) : CanonNext (execFreezeGraceEnd p s) := by
  unfold Machine.execFreezeGraceEnd
  split
  · exact .ite (.next hs) (.next hs.atLeast.setPart)
  · exact .next hs

theorem State.Canon.freezeDone {p f} (hs : s.Canon) : (s.freezeDone p f).Canon := hs.setPart.endCmd
theorem State.Canon.freezeFailed {p f} (hs : s.Canon) : (s.freezeFailed p f).Canon := hs.atLeast.setPart.endCmd.event

theorem State.Canon.execFreezeDrained {p} (hs : s.Canon) : CanonNext (execFreezeDrained p s) := by
  unfold Machine.execFreezeDrained
  split
  · exact .ite (.next hs) (.ite (.next hs.freezeFailed) (.next hs.freezeDone))
  · exact .next hs

theorem State.Canon.execFreezeDrainTimeout {p} (hs : s.Canon) : CanonNext (execFreezeDrainTimeout p s) := by
  unfold Machine.execFreezeDrainTimeout
  split
  · exact .ite (.next hs) (.ite (.next hs.freezeDone) (.next hs.freezeFailed))
  · exact .next hs

theorem State.Canon.execPartSave {id} (hs : s.Canon) : CanonNext (execPartSave id s) := by
  unfold Machine.execPartSave
  exact hs.mgmt (.ite hs.endCmd (.ite hs.endCmd (.ite hs.endCmd (by split; exacts [hs.endCmd, hs.waitCmd,
    hs.devWrite.endCmd]))))

theorem State.Canon.execPartRestore {id} (hs : s.Canon) : CanonNext (execPartRestore id s) := by
  unfold Machine.execPartRestore
  refine hs.mgmt fun {c p x} => ?_
  extract_lets src room
  refine .ite hs.endCmd (.ite hs.endCmd (.ite hs.endCmd ?_))
  split
  · exact hs
  · exact hs.endCmd
  · extract_lets len
    refine .ite hs.endCmd (.ite hs.endCmd ?_)
    split
    · exact hs
    · exact hs.endCmd
    · extract_lets n s1
      have h1 : s1.Canon := hs.setPart
      refine .ite hs.endCmd (.ite hs.endCmd ?_)
      split
      · exact hs
      · exact hs.endCmd
      · extract_lets bases
        split
        · exact hs.endCmd
        · extract_lets s2
          have h2 : s2.Canon := (h1.foldl fun ht => ht.setSq).foldl fun ht => ht.setCq
          clear_value s2
          exact .ite hs.endCmd (.ite hs.endCmd h2.endCmd)

theorem State.Canon.execPartResume {id} (hs : s.Canon) : CanonNext (execPartResume id s) :=
  hs.mgmt (.ite hs.endCmd (.ite hs.endCmd hs.setPart.event.endCmd))

theorem State.Canon.partReset {p cmd} (hs : s.Canon) : (s.partReset p cmd).Canon := by
  unfold State.partReset
  exact ((hs.endFreeze.endSave.cancelRsps.setPart.dropSvc.rdmPartReset.foldl fun ht => ht.undefOut.complete1).foldl fun ht => by
    split; exacts [ht.setSq, ht.freeSq.endDelete, ht]).setPart

theorem State.Canon.execPartReset {id} (hs : s.Canon) : CanonNext (execPartReset id s) :=
  hs.mgmt (.ite hs (.ite hs.endCmd (.ite hs.endSave.endCmd hs.partReset)))
theorem State.Canon.execPartResetComplete {p} (hs : s.Canon) : CanonNext (execPartResetComplete p s) :=
  .ite (.next hs) (.next (by split; exacts [hs.setPart.event.endCmd, hs.setPart.event]))

/-! ### The functions of Machine.Spdm -/

theorem State.Canon.reply {fn r} (hs : s.Canon) : (s.reply fn r).Canon := hs.emit
theorem State.Canon.endObj {fn} (hs : s.Canon) : (s.endObj fn).Canon := hs.setSpdm

theorem State.Canon.onSpdm {fn m f} (hs : s.Canon) (hf : ∀ {x}, (f x).Canon) : CanonNext (s.onSpdm fn m f) := by
  refine .ite (.next hs) (.ite (.next hs.setSpdm) ?_)
  split
  · exact .ite (.next hf.endObj) (.next hs.reply.endObj)
  · exact .next hf.endObj

theorem State.Canon.atStage {fn x n t} (hs : s.Canon) (ht : t.Canon) : (s.atStage fn x n t).Canon := .ite ht hs.reply

theorem State.Canon.inSession {fn x m f} (hs : s.Canon) (hf : ∀ {k}, (f k).Canon) : (s.inSession fn x m f).Canon := by
  unfold State.inSession
  split
  · exact .ite hf hs.reply
  · exact hs.reply

theorem State.Canon.execNegotiateAlgorithms {fn m} (hs : s.Canon) : CanonNext (execNegotiateAlgorithms fn m s) :=
  hs.onSpdm (hs.atStage (.ite hs.setSpdm.reply hs.reply))
theorem State.Canon.execGetCertificate {fn m} (hs : s.Canon) : CanonNext (execGetCertificate fn m s) :=
  hs.onSpdm (hs.atStage (.ite hs.reply hs.reply))
theorem State.Canon.spdmSign (hs : s.Canon) : s.spdmSign.2.Canon := hs.takeBytes
theorem State.Canon.execChallenge {fn m} (hs : s.Canon) : CanonNext (execChallenge fn m s) :=
  hs.onSpdm (hs.atStage (.ite hs.reply hs.spdmSign.reply))

theorem State.Canon.measurement {i} (hs : s.Canon) : (s.measurement i).2.Canon := by
  unfold State.measurement
  split
  · exact hs.takeBytes
  · exact hs

theorem State.Canon.measureAll {l} (hs : s.Canon) : (s.measureAll l).2.Canon := by
  induction l generalizing s with
  | nil => exact hs
  | cons i r ih => exact ih hs.measurement

theorem State.Canon.execGetMeasurements {fn m} (hs : s.Canon) : CanonNext (execGetMeasurements fn m s) := by
  refine hs.onSpdm fun {x} => ?_
  extract_lets send
  have hsend : ∀ {l}, (send l).Canon := .ite hs.measureAll.spdmSign.reply hs.measureAll.reply
  exact hs.atStage (.ite hs.reply (.ite hsend (.ite hsend hs.reply)))

theorem State.Canon.execKeyExchange {fn m} (hs : s.Canon) : CanonNext (execKeyExchange fn m s) :=
  hs.onSpdm (hs.atStage hs.spdmSign.setSpdm.reply)
theorem State.Canon.execFinish {fn m} (hs : s.Canon) : CanonNext (execFinish fn m s) :=
  hs.onSpdm (by split; exacts [.ite hs.setSpdm.reply hs.reply, hs.reply])

theorem State.Canon.execIdeKm {fn m} (hs : s.Canon) : CanonNext (execIdeKm fn m s) := by
  unfold Machine.execIdeKm
  refine hs.onSpdm fun {x} => ?_
  refine .inSession hs fun {x} => ?_
  split
  · exact hs.reply
  · exact hs.setSpdm.reply
  · exact .ite hs.reply hs.setSpdm.raise.reply
  · exact hs.setSpdm.setFld.reply
  · exact hs.reply

theorem State.Canon.spdmRestart (hs : s.Canon) : s.spdmRestart.Canon := hs.setHif

/-! ### The functions of Machine.Boot -/

theorem State.Canon.setLdg {f} (hs : s.Canon) : (s.setLdg f).Canon := hs.frame
theorem State.Canon.setFlash {f} (hs : s.Canon) : (s.setFlash f).Canon := hs.setLdg
theorem State.Canon.markSet {k x} (hs : s.Canon) : (s.markSet k x).Canon := hs.setFlash
theorem State.Canon.romHalt {code} (hs : s.Canon) : (s.romHalt code).Canon := hs.setFld.setFld.setFld
theorem State.Canon.applyRecords {sku defect cores} (hs : s.Canon) : (s.applyRecords sku defect cores).Canon := hs.frame.setFld
theorem State.Canon.romAccept {k} (hs : s.Canon) : (s.romAccept k).Canon := hs.frame.setFld.setFld.setFld.setFld.setFld

theorem State.Canon.romBoot {cores} (hs : s.Canon) : (s.romBoot cores).Canon := by
  unfold State.romBoot
  extract_lets f _ s1 _ s2 me s3 k
  have h1 : s1.Canon := hs.frame
  have h2 : s2.Canon := h1.frame
  have h3 : s3.Canon := h2.applyRecords.setFld
  clear_value s3 s2 s1
  exact .ite h1.romHalt (.ite h2.romHalt (.ite h2.romHalt (.ite h3.romAccept (.ite h3.romAccept h3.romHalt))))

theorem State.Canon.freeMem (hs : s.Canon) : s.freeMem.Canon := by
  obtain ⟨hr, hm, hc⟩ := (State.wf_iff s).mp hs.wf
  exact .of_cells hr (smWf_foldl_smSet _ _ _ _ _ (smWf_filter _ _ _ hm)) hc

theorem State.Canon.coldState {cause} (hs : s.Canon) : (s.coldState cause).Canon := by
  obtain ⟨hr, -, hc⟩ := (State.wf_iff _).mp State.Canon.reset.wf
  obtain ⟨-, hm, -⟩ := (State.wf_iff _).mp hs.freeMem.wf
  exact .setReg (.of_cells hr hm hc)

theorem State.Canon.coldReset {cause b} (hs : s.Canon) : (s.coldReset cause b).Canon :=
  have h1 : State.Canon _ := .setFld (.setReg (.coldState (by split; exacts [hs.setFlash, hs])))
  .ite h1.setLdg.romHalt h1.frame.setLdg.romBoot

theorem State.Canon.warmReset {cause links} (hs : s.Canon) : (s.warmReset cause links).Canon := by
  unfold State.warmReset
  extract_lets _ s0 s1 s2 halted here h _ _ _ _ _ _ _ s3 s4 s5 s6
  have h0 : s0.Canon := (State.Canon.ite hs.floodOwn hs).rtBoundary
  have h1 : s1.Canon := h0.frame.abandon.cutRestore
  have h2 : s2.Canon := h1.freeMem
  have h3 : s3.Canon := by
    obtain ⟨hr, hm, -⟩ := (State.wf_iff s2).mp h2.wf
    exact .of_cells (smWf_filter _ _ _ hr) hm rfl
  have h4 : s4.Canon := h3.setReg.setFld
  have h5 : s5.Canon := h4.foldl fun ht => .ite ht.raise.setFld ht
  clear_value s5
  exact .ite h5.setFld h5.setReg.setLdg.romBoot

theorem State.Canon.execPorPinLow {ns b} (hs : s.Canon) : CanonNext (execPorPinLow ns b s) :=
  .ite (.next hs) (.ite (.next hs.coldReset) (.ite (.next hs.takeFree.coldReset) (.next hs.takeFree)))

theorem State.Canon.execRootPllUnlock {ns b} (hs : s.Canon) : CanonNext (execRootPllUnlock ns b s) := by
  unfold Machine.execRootPllUnlock
  refine .ite (.next hs) ?_
  split
  · exact .next hs.raise.pulse
  · exact .ite (.next hs.coldReset) (.ite (.next hs.takeFree.coldReset) (.next hs.takeFree.raise.pulse))

theorem State.Canon.rstCtrlWrite {v b} (hs : s.Canon) : (s.rstCtrlWrite v b).Canon :=
  .ite hs (.ite hs.coldReset (.ite hs.warmReset hs))

theorem State.Canon.halfPerst {h} (hs : s.Canon) : (s.halfPerst h).Canon :=
  have h1 := (hs.loseRegion.dropLink.setHif.setTags.foldl (fun ht => ht.partReset))
  .ite h1.cutRestore.dropCmds.frame.setPart.setReg.setReg.setReg.cipForceRelease h1

theorem State.Canon.execUpstreamPerst {h0 h1} (hs : s.Canon) : CanonNext (execUpstreamPerst h0 h1 s) := by
  unfold Machine.execUpstreamPerst
  dsimp only
  refine .ite ?_ (.ite (.next hs.dropLink.dropLink.warmReset) (.next hs))
  exact .ite (.next hs.dropLink.dropLink.warmReset) (.ite (.next hs.halfPerst) (.ite (.next hs.halfPerst) (.next hs)))

theorem State.Canon.lodgeAccept {k} (hs : s.Canon) : (s.lodgeAccept k).Canon := hs.frame.setFld.setFld.setFld
theorem State.Canon.emuStart {k} (hs : s.Canon) : (s.emuStart k).Canon := hs.setReg.setReg.setReg.setReg.setReg.setFld.setFld
theorem State.Canon.slotsOn (hs : s.Canon) : s.slotsOn.Canon :=
  hs.foldl fun ht => .ite ht.setHif.slotReset.slotPower.enterSlot ht
theorem State.Canon.genStart (hs : s.Canon) : s.genStart.Canon := hs.setFlash.setFld.floodOwn.frame

theorem State.Canon.execLodgeFwStart (hs : s.Canon) : CanonNext (execLodgeFwStart s) := by
  unfold Machine.execLodgeFwStart
  refine .ite (.next hs) ?_
  dsimp only
  exact .ite (.next hs.lodgeAccept.emuStart.genStart.beginTraining.slotsOn.setLdg) (.next hs.setFld.setFld.raise.pulse)

theorem State.Canon.execGenHoldExpire (hs : s.Canon) : CanonNext (execGenHoldExpire s) := by
  unfold Machine.execGenHoldExpire
  split
  · exact .next hs
  · exact .next hs.atTb.frame

theorem State.Canon.mapOut {p} (hs : s.Canon) : (s.mapOut p).Canon := hs.setPav.setFld.raise.event0
theorem State.Canon.endWaves (hs : s.Canon) : s.endWaves.Canon := .ite hs.buildMap.setLdg hs
theorem State.Canon.execTerraceWave {t} (hs : s.Canon) : CanonNext (execTerraceWave t s) :=
  .ite (.next hs) (.next hs.atLeast.frame.setLdg.endWaves)
theorem State.Canon.execPavSelfTestDone {p pass} (hs : s.Canon) : CanonNext (execPavSelfTestDone p pass s) :=
  .ite (.next hs) (.next (.endWaves (.ite hs.atLeast.setPav hs.atLeast.setPav.mapOut)))

/-! ### The functions of Machine.Ckp -/

theorem State.Canon.openSheaf {x now} (hs : s.Canon) : (s.openSheaf x now).Canon :=
  have h1 := hs.setSheaf.setFld.setFld
  .ite h1.setFld h1.snapshot

theorem State.Canon.execSheaf {id} (hs : s.Canon) : CanonNext (execSheaf id s) := by
  unfold Machine.execSheaf
  refine hs.onCmd fun {c} => ?_
  refine .ite hs (.ite hs.endCmd ?_)
  split
  · exact hs.waitCmd
  · exact hs.endCmd
  · exact .ite hs.endCmd (.ite hs.endCmd hs.openSheaf)

theorem State.Canon.sourceFail {g st line} (hs : s.Canon) : (s.sourceFail g st line).Canon := .abandon (.ite hs.eccAt hs)

theorem State.Canon.execDiversionComplete {g st line} (hs : s.Canon) : CanonNext (execDiversionComplete g st line s) := by
  unfold Machine.execDiversionComplete
  split
  · exact .next hs
  · split
    · exact .next hs
    · exact .ite (.next hs.sourceFail) (.next hs.setBytes.setSheaf.showTotal.count.release)

theorem State.Canon.execReserveSlotFree {k} (hs : s.Canon) : CanonNext (execReserveSlotFree k s) := by
  unfold Machine.execReserveSlotFree
  split
  · exact .next hs
  · split
    · exact .next hs
    · exact .ite (.next hs) (.next hs.setSheaf.showSlots.release)

theorem State.Canon.execSheafStallLimit (hs : s.Canon) : CanonNext (execSheafStallLimit s) := by
  unfold Machine.execSheafStallLimit
  split
  · exact .ite (.next hs) (.next hs.atTb.abandon)
  · exact .next hs

theorem State.Canon.execGranuleBackgroundRead {g st line} (hs : s.Canon) :
    CanonNext (execGranuleBackgroundRead g st line s) := by
  unfold Machine.execGranuleBackgroundRead
  split
  · exact .next hs
  · exact .ite (.next hs) (.ite (.next hs.sourceFail) (.next hs.setSheaf.showTotal.setFld.release))

theorem State.Canon.execShardWriteDone {ok} (hs : s.Canon) : CanonNext (execShardWriteDone ok s) := by
  unfold Machine.execShardWriteDone
  split
  · exact .next hs
  · split
    · split
      · exact .next hs
      · exact .ite (.next hs) (.ite (.next hs.abandon) (.ite (.next hs.abandon) (.next hs.setSheaf.showTotal.destWrite)))
    · exact .next hs

theorem State.Canon.execSheafShardsDurable {ok} (hs : s.Canon) : CanonNext (execSheafShardsDurable ok s) := by
  unfold Machine.execSheafShardsDurable
  split
  · exact .next hs
  · exact .ite (.next hs) (.next (.ite (.setFld (.ite hs.nsPiece hs)) (.abandon (.ite hs.nsPiece hs))))

theorem State.Canon.execManifestDurable {ok} (hs : s.Canon) : CanonNext (execManifestDurable ok s) := by
  unfold Machine.execManifestDurable
  split
  · exact .next hs
  · split
    · exact .next hs
    · refine .ite (.next hs) ?_
      dsimp only
      exact .ite (.next hs.signFree.abandon) (.next (.endSheaf (.ite hs.signFree.destWrite.nsPiece hs.signFree.destWrite)))

theorem State.Canon.ckpCtrlWrite {v} (hs : s.Canon) : (s.ckpCtrlWrite v).Canon := .ite hs.abandon hs
theorem State.Canon.autoSheaf {trigger enabled} (hs : s.Canon) : (s.autoSheaf trigger enabled).Canon :=
  .ite hs.count.raise (by split; exacts [hs.setFld.setCkp.openSheaf, hs.count.raise])
theorem State.Canon.warnTrigger (hs : s.Canon) : s.warnTrigger.Canon := hs.autoSheaf
theorem State.Canon.execCeTrigger {ce} (hs : s.Canon) : CanonNext (execCeTrigger ce s) :=
  .ite (.next hs.noteCe) (.next hs.noteCe.setCkp.autoSheaf)
theorem State.Canon.endRestore {id st detail} (hs : s.Canon) : (s.endRestore id st detail).Canon := hs.setCkp.setFld.endCmd

theorem State.Canon.onRestore {id phase dests f} (hs : s.Canon) (hf : ∀ {c d}, (f c d).Canon) :
    CanonNext (s.onRestore id phase dests f) := by
  refine hs.onCmd fun {c} => ?_
  split
  · exact hs.waitCmd
  · exact .ite hs.endRestore hs.endCmd
  · exact .ite hf (.ite hs.endCmd hs.setCkp.setFld)

theorem State.Canon.execRestoreSelect {id ns} (hs : s.Canon) : CanonNext (execRestoreSelect id ns s) :=
  hs.onRestore (.endRestore (by split; exacts [hs.devWrite.devWrite, hs.devWrite]))

theorem State.Canon.loadShards {ns dest l i t} (hs : s.Canon) (e : s.loadShards ns dest l i = .ok t) : t.Canon := by
  induction l generalizing s i with
  | nil =>
    cases e
    exact hs
  | cons x r ih =>
    unfold State.loadShards at e
    dsimp only at e
    split at e
    · exact ih hs e
    · split at e
      · cases e
      · split at e
        · cases e
        · split at e
          · cases e
          · exact ih hs.devWrite e

theorem State.Canon.execRestoreLoad {id ns} (hs : s.Canon) : CanonNext (execRestoreLoad id ns s) := by
  unfold Machine.execRestoreLoad
  refine hs.onRestore fun {c d} => ?_
  split
  · exact hs.endRestore
  · split
    · exact hs.endRestore
    · extract_lets lens n
      split
      · exact hs.waitCmd
      · exact hs.endRestore
      · extract_lets dest
        refine .ite hs.endRestore (.ite hs.endRestore ?_)
        split
        · exact hs.endRestore
        · refine .ite hs.endRestore ?_
          split
          · exact (hs.loadShards ‹_›).endRestore
          · exact (hs.foldl fun ht => ht.freeBytes).endRestore

/-! ### The functions of Machine.Eth -/

theorem State.Canon.ethLink {l up} (hs : s.Canon) : (s.ethLink l up).Canon :=
  .ite hs (.event (.ite hs.setFld hs.setFld.raise.setFld))

theorem State.Canon.lportWrite {l v} (hs : s.Canon) : (s.lportWrite l v).Canon := by
  unfold State.lportWrite
  extract_lets x s1 s2
  have h1 : s1.Canon := hs.setFld.setFld.setFld.setFld.setFld.setFld.setFld
  have h2 : s2.Canon := .ite h1 h1.setFld
  clear_value s2
  exact .ite hs (.ite h2 h2.ethLink)

theorem State.Canon.setMode {k m} (hs : s.Canon) : (s.setMode k m).Canon := .ite hs (.ite hs.raise hs.setFld)
theorem State.Canon.ethModeWrite {v} (hs : s.Canon) : (s.ethModeWrite v).Canon := hs.setMode.setMode
theorem State.Canon.ethProgWrite {n v} (hs : s.Canon) : (s.ethProgWrite n v).Canon := .ite hs.raise hs.setReg
theorem State.Canon.ethGnodeWrite {n w v} (hs : s.Canon) : (s.ethGnodeWrite n w v).Canon := .ite hs.raise hs.setFld
theorem State.Canon.setEntry {t i b} (hs : s.Canon) : (s.setEntry t i b).Canon := hs.setEth
theorem State.Canon.entCmdWrite {v} (hs : s.Canon) : (s.entCmdWrite v).Canon :=
  .ite hs (.ite hs.raise (.ite hs.setFld (.ite hs.raise.setEth.setEntry hs.raise.setEth)))

theorem State.Canon.execEthEntDone (hs : s.Canon) : CanonNext (execEthEntDone s) := by
  unfold Machine.execEthEntDone
  split
  · exact .next hs
  · extract_lets s1
    have h1 : s1.Canon := hs.setFld.setFld.setEth
    clear_value s1
    refine .next ?_
    split
    · exact h1.setEntry
    · exact h1.foldl fun ht => ht.setFld
    · exact h1.setEntry

theorem State.Canon.refillTo {k} (hs : s.Canon) : (s.refillTo k).Canon := by
  unfold State.refillTo
  exact hs.setEth

theorem State.Canon.refilled (hs : s.Canon) : s.refilled.Canon := .ite hs.refillTo hs

theorem State.Canon.police {i dscp len} (hs : s.Canon) : (s.police i dscp len).2.Canon := by
  unfold State.police
  split
  · exact hs
  · dsimp only
    split
    · exact hs.refilled.count
    · exact hs.refilled.setEth.count

theorem State.Canon.rxDrop {l} (hs : s.Canon) : (s.rxDrop l).Canon := hs.count
theorem State.Canon.isolDrop {l} (hs : s.Canon) : (s.isolDrop l).Canon := hs.count.raise

theorem State.Canon.ethDeliver {l part queue f} (hs : s.Canon) : (s.ethDeliver l part queue f).Canon := by
  unfold State.ethDeliver
  split
  · exact hs.rxDrop
  · exact .ite hs.endCmd hs.deliver

theorem State.Canon.parseExc {l f} (hs : s.Canon) : (s.parseExc l f).Canon :=
  .ite hs.count.raise.ethDeliver hs.count.raise.rxDrop
theorem State.Canon.pfcFrame {l f} (hs : s.Canon) : (s.pfcFrame l f).Canon := hs.foldl fun ht => .ite ht.setEth ht

theorem State.Canon.execPfcPauseEnd {l c} (hs : s.Canon) : CanonNext (execPfcPauseEnd l c s) := by
  unfold Machine.execPfcPauseEnd
  split
  · exact .next hs
  · exact .next hs.atLeast.setEth

theorem State.Canon.handOver {l yellow} (hs : s.Canon) : (s.handOver l yellow).Canon := hs.setEth

theorem State.Canon.ethAct {l graph f p a} (hs : s.Canon) : (s.ethAct l graph f p a).Canon := by
  unfold State.ethAct
  extract_lets len act part c s0 r
  have h0 : s0.Canon := .ite hs.count.count hs
  have hr : r.2.Canon := h0.police
  clear_value act r
  refine .ite hr (.ite hr.isolDrop ?_)
  split
  · refine .ite hr.parseExc ?_
    split
    · exact .ite hr.handOver hr.isolDrop
    · exact hr.handOver
  · exact .ite hr.ethDeliver hr.rxDrop
  · exact hr.ethDeliver
  · exact hr.rxDrop

theorem State.Canon.ethParse {l f} (hs : s.Canon) : (s.ethParse l f).Canon := by
  unfold State.ethParse
  dsimp only
  split
  · exact hs.parseExc
  · exact hs.rxDrop
  · split
    · exact hs.ethAct
    · exact .ite hs.ethDeliver hs.rxDrop

theorem State.Canon.entryUe {t i} (hs : s.Canon) : (s.entryUe t i).Canon := hs.setEntry.devUe

theorem State.Canon.execEthFrameReceive {l f} (hs : s.Canon) : CanonNext (execEthFrameReceive l f s) := by
  unfold Machine.execEthFrameReceive
  extract_lets n len s1 o s2 s3
  have h1 : s1.Canon := hs.count
  have h2 : s2.Canon := .ite (h1.tableRead fun ht => ht) h1
  have h3 : s3.Canon := by
    unfold s3
    split
    · exact .ite h2.entryUe h2
    · exact h2
  clear_value s1 s3
  exact .ite (.next hs) (.ite (.next hs.rxDrop) (.ite (.next hs.rxDrop.raise) (.ite (.next (.ite h1.pfcFrame h1)) (.ite (.next
    h1) (.next h3.ethParse)))))

theorem State.Canon.learn {g mac} (hs : s.Canon) : (s.learn g mac).Canon := hs.setEth

theorem State.Canon.execMgmtFrameReceive {l m} (hs : s.Canon) : CanonNext (execMgmtFrameReceive l m s) := by
  unfold Machine.execMgmtFrameReceive
  refine .ite (.next hs) ?_
  split
  · exact .next (.ite hs.learn.setEth hs.learn)
  · exact .next hs.learn
  · exact .next hs

theorem State.Canon.execNextHopHoldExpire {i} (hs : s.Canon) : CanonNext (execNextHopHoldExpire i s) := by
  unfold Machine.execNextHopHoldExpire
  split
  · exact .next hs
  · exact .next hs.atLeast.setEth

theorem State.Canon.execPtpEventMessage {l x} (hs : s.Canon) : CanonNext (execPtpEventMessage l x s) := by
  unfold Machine.execPtpEventMessage
  refine .ite (.next hs) ?_
  dsimp only
  split
  · exact .next hs.setEth.raise
  · split
    · exact .next hs
    · exact .next hs.setEth

/-! ### The functions of Machine.Lodge -/

theorem State.Canon.execEventDeliver {c} (hs : s.Canon) : CanonNext (execEventDeliver c s) := by
  unfold Machine.execEventDeliver
  split
  · exact .next hs.emit
  · exact .next hs

theorem State.Canon.evSrcWrite {c n v} (hs : s.Canon) : (s.evSrcWrite c n v).Canon :=
  have h1 := hs.setFld.setFld
  .ite h1.setFld (.ite h1.setFld h1)

theorem State.Canon.evCtrlWrite {c v} (hs : s.Canon) : (s.evCtrlWrite c v).Canon := hs.setFld
theorem State.Canon.setLoad {d} (hs : s.Canon) : (s.setLoad d).Canon := hs.setLdg

theorem State.Canon.execLoaderSegment {l x} (hs : s.Canon) : CanonNext (execLoaderSegment l x s) := by
  unfold Machine.execLoaderSegment
  split
  · exact .ite (.next hs.setLoad) (.next hs.setPav.setLoad)
  · exact .next hs

theorem State.Canon.execLoaderReport {l} (hs : s.Canon) : CanonNext (execLoaderReport l s) := by
  unfold Machine.execLoaderReport
  split
  · exact .next (.pulse (.ite (.setLdg (.ite hs.setPav hs)) (.setLoad (.ite hs.setPav hs))))
  · exact .next hs

theorem State.Canon.execLoaderReportTimeout {l} (hs : s.Canon) : CanonNext (execLoaderReportTimeout l s) := by
  unfold Machine.execLoaderReportTimeout
  split
  · exact .next hs.atLeast.setLoad
  · exact .next hs

theorem State.Canon.outLoads {bad} (hs : s.Canon) : (s.outLoads bad).Canon :=
  hs.foldl fun ht => by split; exacts [ht.mapOut, ht]

theorem State.Canon.remapLoads {svc bad} (hs : s.Canon) : (s.remapLoads svc bad).Canon := by
  unfold State.remapLoads
  exact (hs.outLoads.buildMap.foldl fun ht => ht.startPavReset).setLdg

theorem State.Canon.repair {svc} (hs : s.Canon) : (s.repair svc).Canon := .ite hs (.ite hs.setLdg (.ite hs hs.remapLoads))
theorem State.Canon.setEmu {e} (hs : s.Canon) : (s.setEmu e).Canon := hs.setLdg
theorem State.Canon.emuGo (hs : s.Canon) : s.emuGo.Canon :=
  .ite hs.setFld.setFld (.ite hs.setFld.setFld (.setEmu (.raise (.ite hs.logRefused hs))))

theorem State.Canon.emuWrite {off v} (hs : s.Canon) : (s.emuWrite off v).Canon := by
  unfold State.emuWrite
  dsimp only
  exact .ite hs.raise (.ite hs.pulse.setFld (.ite hs.pulse.setFld (.ite (.ite hs.pulse.raise hs.pulse.emuGo) hs.pulse)))

theorem State.Canon.onEmu {cmd f} (hs : s.Canon) (hf : ∀ {e}, (f e).Canon) : CanonNext (s.onEmu cmd f) := by
  unfold State.onEmu
  split
  · exact .ite (.next hf) (.next hs)
  · exact .next hs

theorem State.Canon.emuEnd {e st result} (hs : s.Canon) : (s.emuEnd e st result).Canon := hs.setEmu

theorem State.Canon.execFwStage (hs : s.Canon) : CanonNext (execFwStage s) := by
  unfold Machine.execFwStage
  refine hs.onEmu fun {x} => ?_
  dsimp only
  refine .ite hs.emuEnd (.ite hs.emuEnd ?_)
  split
  · exact hs.emuEnd
  · exact .ite hs.emuEnd (.ite hs.emuEnd (.ite hs.emuEnd (.ite hs.emuEnd hs.markSet.setFlash.setFld.emuEnd)))

theorem State.Canon.execFwActivate (hs : s.Canon) : CanonNext (execFwActivate s) :=
  hs.onEmu (.ite hs.setFld.emuEnd hs.setFld.setLdg.emuEnd)
theorem State.Canon.execNetCfg (hs : s.Canon) : CanonNext (execNetCfg s) :=
  hs.onEmu (.ite hs.emuEnd (.ite hs.emuEnd hs.setEth.emuEnd))
theorem State.Canon.distDown {i b} (hs : s.Canon) : (s.distDown i b).Canon := hs.foldl fun ht => ht.emit

theorem State.Canon.execDistSend {full} (hs : s.Canon) : CanonNext (execDistSend full s) := by
  unfold Machine.execDistSend
  exact hs.onEmu (.ite hs.emuEnd (.ite hs.emuEnd (.ite hs.emuEnd (hs.foldl fun ht => ht.distDown).devWrite.emuEnd)))

theorem State.Canon.execDistRecv (hs : s.Canon) : CanonNext (execDistRecv s) :=
  hs.onEmu (.ite hs.setLdg.emuEnd (.ite hs.emuEnd hs.setLdg.emuEnd))

theorem State.Canon.execDistSegmentReceive {x} (hs : s.Canon) : CanonNext (execDistSegmentReceive x s) := by
  unfold Machine.execDistSegmentReceive
  extract_lets good s1
  have h1 : s1.Canon := .ite hs.distDown hs
  clear_value s1
  refine .ite (.next hs) ?_
  split
  · exact .next (.ite h1.emit h1)
  · extract_lets d fits s2 d1 full ok d2
    have h2 : s2.Canon := .ite h1.devWrite h1
    exact .ite (.next h2.setLdg.emit) (.next h2.setLdg)

theorem State.Canon.execEmuCmdDone (hs : s.Canon) : CanonNext (execEmuCmdDone s) := by
  unfold Machine.execEmuCmdDone
  split
  · exact .next hs
  · split
    · exact .next hs
    · split
      · exact .next hs
      · exact .next (.event0 (.setEmu (.setFld (.setFld (.setFld (.ite (.devWrite (.ite hs.markSet.setFld hs)) (.ite
          hs.markSet.setFld hs)))))))

theorem State.Canon.mgmtStops (hs : s.Canon) : s.mgmtStops.Canon :=
  have h1 : State.Canon _ := by split; exacts [.ite hs.setEmu hs, hs]
  have h2 : State.Canon _ := .ite h1.markSet.setFld h1
  have h3 : State.Canon _ := .ite h2.endHeld.dropLoads h2
  .cipForceRelease (.setRdm (.foldl (.ite h3.dropLoads.setFld.setFld h3) (fun ht => ht.endCmd)))

theorem State.Canon.lodgeRestart {c cause} (hs : s.Canon) : (s.lodgeRestart c cause).Canon := by
  unfold State.lodgeRestart
  extract_lets n s1
  have h1 : s1.Canon := hs.setFld.count.setFld.raise.raise.setFld
  split
  · exact h1.mgmtStops
  · exact h1.raise.pulse
  · exact h1.cipForceRelease.spdmRestart

theorem State.Canon.lodgeCause {c cause} (hs : s.Canon) : (s.lodgeCause c cause).Canon :=
  .ite hs (.ite hs.warmReset hs.setLdg.lodgeRestart)
theorem State.Canon.lodgeUp {c} (hs : s.Canon) : (s.lodgeUp c).Canon := .event0 (.ite hs.setFld.frame.setFld hs.setFld)

theorem State.Canon.activateFw (hs : s.Canon) : s.activateFw.Canon := by
  unfold State.activateFw
  exact hs.setFlash.setLdg.setFld.lodgeRestart

theorem State.Canon.execFwActivation (hs : s.Canon) : CanonNext (execFwActivation s) := by
  unfold Machine.execFwActivation
  refine .ite (.next hs) (.ite ?_ (.next hs.activateFw))
  dsimp only
  split
  · exact .ite (.next hs.setFld.setLdg.setEmu) (.next hs.setFld.setLdg.event0)
  · exact .next hs.setFld.setLdg.event0

theorem State.Canon.execFwDeferredActivate (hs : s.Canon) : CanonNext (execFwDeferredActivate s) := by
  unfold Machine.execFwDeferredActivate
  refine .ite (.next hs) ?_
  split
  · exact .next hs
  · exact .ite (.ite (.next hs.activateFw) (.next hs)) (.next hs.atLeast.activateFw)

theorem State.Canon.lodgeTake {c k} (hs : s.Canon) : (s.lodgeTake c k).Canon := by
  unfold State.lodgeTake
  split
  · exact hs.romAccept.frame.setFld
  · exact hs.frame

theorem State.Canon.actStep {a c} (hs : s.Canon) : (s.actStep a c).Canon := by
  unfold State.actStep
  refine .ite ?_ (.ite hs.setFld.setLdg hs.setFlash.setLdg.lodgeRestart)
  dsimp only
  split
  · exact hs.lodgeTake.lodgeUp.setLdg.lodgeRestart
  · exact hs.lodgeTake.lodgeUp.setLdg.setLdg.setFld.event0

theorem State.Canon.execLodgeRestartDone {c} (hs : s.Canon) : CanonNext (execLodgeRestartDone c s) := by
  unfold Machine.execLodgeRestartDone
  refine .ite (.next hs) ?_
  split
  · exact .ite (.next hs.actStep) (.next hs.lodgeUp)
  · exact .next hs.lodgeUp

/-! ### The functions of Machine.Mgmt -/

theorem State.Canon.execMctpRequest {m} (hs : s.Canon) : CanonNext (execMctpRequest m s) := by
  unfold Machine.execMctpRequest
  refine .ite (.next hs) ?_
  split
  · exact .next hs.emit
  · exact .next hs.emit
  · exact .next hs.frame.emit
  · exact .next hs.frame.emit
  · exact .next hs.emit
  · exact .next hs.emit

theorem State.Canon.execLogReadVdm {p start count} (hs : s.Canon) : CanonNext (execLogReadVdm p start count s) :=
  .ite (.next hs) (.ite (.next hs.emit) (.next hs.emit))

/-! ### The functions of Machine.Power -/

theorem State.Canon.setPwr {f} (hs : s.Canon) : (s.setPwr f).Canon := hs.frame

theorem State.Canon.loopAt {k period} (hs : s.Canon) : (s.loopAt k period).Canon := by
  unfold State.loopAt
  exact hs.atLeast.setPwr

theorem State.Canon.calmCheck (hs : s.Canon) : s.calmCheck.Canon := .ite hs.setPwr hs

theorem State.Canon.condEnter {n} (hs : s.Canon) : (s.condEnter n).Canon :=
  have h1 := hs.setFld.raise
  have h2 : State.Canon _ := .warnTrigger (.event0 (.ite h1.count.raise.setPwr h1))
  .ite h2.emit h2

theorem State.Canon.condClear {n} (hs : s.Canon) : (s.condClear n).Canon :=
  have h1 : State.Canon _ := .ite hs.setFld.setFld.event0.calmCheck hs.setFld
  .ite h1.emit h1

theorem State.Canon.evalCond {n enter clear} (hs : s.Canon) : (s.evalCond n enter clear).Canon :=
  .ite (.ite hs.condClear hs) (.ite hs.condEnter hs)
theorem State.Canon.pumpEval (hs : s.Canon) : s.pumpEval.Canon := .ite hs (.ite hs.setPwr hs.setPwr.setFld.emit)
theorem State.Canon.requestPace {n} (hs : s.Canon) : (s.requestPace n).Canon := hs.setFld.frame.ownPace
theorem State.Canon.paceEval (hs : s.Canon) : s.paceEval.Canon := .ite hs (.ite hs.requestPace hs)
theorem State.Canon.setVout {mv} (hs : s.Canon) : (s.setVout mv).Canon := hs.setPwr.emit

theorem State.Canon.execVoltageLoop {low} (hs : s.Canon) : CanonNext (execVoltageLoop low s) := by
  unfold Machine.execVoltageLoop
  refine .ite (.next hs) ?_
  dsimp only
  exact .ite (.next hs.loopAt) (.ite (.next hs.loopAt.setVout) (.ite (.next hs.loopAt.setVout) (.next hs.loopAt)))

theorem State.Canon.boostStep {t b} (hs : s.Canon) : (s.boostStep t b).Canon := by
  unfold State.boostStep
  exact hs.atTb.atLeast.setVout.setPwr

theorem State.Canon.execVoutBoostStep (hs : s.Canon) : CanonNext (execVoutBoostStep s) := by
  unfold Machine.execVoutBoostStep
  refine .ite (.next hs) ?_
  split
  · exact .next hs.boostStep
  · exact .ite (.next hs.boostStep) (.next hs)
  · exact .next hs

theorem State.Canon.execVoutBoostRelease (hs : s.Canon) : CanonNext (execVoutBoostRelease s) := by
  unfold Machine.execVoutBoostRelease
  split
  · exact .next hs
  · exact .ite (.next hs) (.ite (.next hs.setPwr) (.next hs.atLeast.setVout.setPwr))

theorem State.Canon.trip (hs : s.Canon) : s.trip.Canon := hs.coldState.setLdg.emit
theorem State.Canon.clampOn {tj} (hs : s.Canon) : (s.clampOn tj).Canon := hs.raise.count.pulse.event0.fault.evalCond.paceEval

theorem State.Canon.execSensorScan {r} (hs : s.Canon) : CanonNext (execSensorScan r s) := by
  unfold Machine.execSensorScan
  refine .ite (.next hs) ?_
  dsimp only
  split
  · exact .next hs.loopAt
  · exact .ite (.next hs.loopAt.setPwr.trip) (.ite (.next hs.loopAt.setPwr.clampOn) (.next hs.loopAt.setPwr))

theorem State.Canon.execClampRelease (hs : s.Canon) : CanonNext (execClampRelease s) := by
  unfold Machine.execClampRelease
  split
  · exact .next hs
  · exact .ite (.next hs) (.next hs.atLeast.setFld.pulse.evalCond)

theorem State.Canon.execTjSample (hs : s.Canon) : CanonNext (execTjSample s) := by
  unfold Machine.execTjSample
  refine .ite (.next hs) ?_
  dsimp only
  split
  · exact .next hs.loopAt.setFld
  · exact .next hs.loopAt

theorem State.Canon.execFeedforwardEval (hs : s.Canon) : CanonNext (execFeedforwardEval s) :=
  .ite (.next hs) (.next (.paceEval (.pumpEval (.setFld (.setPwr (.ite hs.loopAt.raise hs.loopAt))))))
theorem State.Canon.execJunctionLoop (hs : s.Canon) : CanonNext (execJunctionLoop s) :=
  .ite (.next hs) (.next hs.loopAt.setPwr.evalCond.evalCond.calmCheck.paceEval)
theorem State.Canon.senseRead {k ok} (hs : s.Canon) : (s.senseRead k ok).Canon := hs.setPwr
theorem State.Canon.sensorLost (hs : s.Canon) : s.sensorLost.Canon := hs.evalCond

theorem State.Canon.execCoolantLoop {x} (hs : s.Canon) : CanonNext (Machine.execCoolantLoop x s) := by
  unfold Machine.execCoolantLoop
  extract_lets s1 s2 s3 s4 t s5 out top wrn s6 s7 e ki lim u trim s8
  have h1 : s1.Canon := hs.loopAt
  have h2 : s2.Canon := .senseRead (by split; exacts [h1.setFld, h1])
  have h3 : s3.Canon := .senseRead (by split; exacts [h2.setFld, h2])
  have h5 : s5.Canon := by
    refine .ite ?_ h3.sensorLost
    split
    · exact h3.sensorLost.setFld.senseRead.evalCond
    · exact h3.sensorLost.raise.senseRead.evalCond
  have h7 : s7.Canon := .ite h5.evalCond.evalCond.evalCond h5.evalCond.evalCond
  exact .ite (.next hs) (.next h7.setPwr.calmCheck.pumpEval.paceEval)

theorem State.Canon.nodeOver (hs : s.Canon) : s.nodeOver.Canon := .ite hs.setPwr hs.setPwr.evalCond
theorem State.Canon.convert (hs : s.Canon) : s.convert.Canon := .ite hs.setFld hs.setFld.setPwr.emit

theorem State.Canon.execNodePowerLoop {x} (hs : s.Canon) : CanonNext (execNodePowerLoop x s) := by
  unfold Machine.execNodePowerLoop
  extract_lets s1 s2 t s3 s4 s5
  have h1 : s1.Canon := hs.loopAt
  have h2 : s2.Canon := .sensorLost (by split; exacts [h1.setFld.senseRead, h1.raise.senseRead])
  have h3 : s3.Canon := by
    unfold s3
    split
    · exact h2.setFld.setFld.senseRead.evalCond
    · exact h2.raise.senseRead.evalCond
  have h5 : s5.Canon := (State.Canon.ite h3.nodeOver h3).calmCheck
  clear_value s5
  exact .ite (.next hs) (.next (State.Canon.ite h5.convert h5).pumpEval.paceEval)

theorem State.Canon.execPaceLower (hs : s.Canon) : CanonNext (execPaceLower s) :=
  .ite (.next hs) (.ite (.next hs.atLeast) (.next hs.atLeast.setPwr.requestPace))
theorem State.Canon.execTachFlowCount {tach flow} (hs : s.Canon) : CanonNext (execTachFlowCount tach flow s) :=
  .ite (.next hs) (.next hs.loopAt.setFld.setFld.setPwr.evalCond.evalCond.evalCond.calmCheck.pumpEval.paceEval)

/-! ### The functions of Machine.Trf -/

theorem State.Canon.shaperWrite {i v} (hs : s.Canon) : (s.shaperWrite i v).Canon := .ite hs hs.refilled.setReg.setEth
theorem State.Canon.policerCommit {i v} (hs : s.Canon) : (s.policerCommit i v).Canon :=
  .ite hs (.ite hs.raise hs.refilled.setReg.setEth)
theorem State.Canon.chargeShaper {len i} (hs : s.Canon) : (s.chargeShaper len i).Canon := hs.setEth

theorem State.Canon.wfServe {level parent child bytes weight} (hs : s.Canon) :
    (s.wfServe level parent child bytes weight).Canon := by
  unfold State.wfServe
  exact hs.setEth

theorem State.Canon.txSend {f} (hs : s.Canon) : (s.txSend f).Canon :=
  have h1 := hs.setEth.count
  .emit (.ite h1 h1.frame)

theorem State.Canon.noteBlocked {l} (hs : s.Canon) : (s.noteBlocked l).Canon := hs.setEth.foldl fun ht => ht.shapeCmd

theorem State.Canon.execEthTxSelect {l sheaf} (hs : s.Canon) : CanonNext (execEthTxSelect l sheaf s) := by
  unfold Machine.execEthTxSelect
  extract_lets n s1 tree share flow first len
  have h1 : s1.Canon := hs.refilled.noteBlocked
  clear_value s1 tree
  refine .ite (.next hs) ?_
  split
  · exact .next hs.txSend
  · refine .ite (.next h1.wfServe.count.emit) ?_
    split
    · exact .next h1
    · extract_lets s2 c k s3 s4
      have h2 : s2.Canon := .ite h1.wfServe h1
      have h3 : s3.Canon := h2.wfServe.wfServe.wfServe
      have h4 : s4.Canon := h3.foldl fun ht => ht.chargeShaper
      exact .next h4.txSend.noteBlocked

/-! ### The functions of Machine.RegW -/

theorem State.Canon.plainWrite {off v} (hs : s.Canon) : (s.plainWrite off v).1.Canon := by
  unfold State.plainWrite
  split
  · exact hs.setReg
  · exact hs

theorem State.Canon.schWrite {off v} (hs : s.Canon) : (s.schWrite off v).Canon := by
  unfold State.schWrite
  refine .ite hs.schCtrl ?_
  split
  · exact hs.paceReqWrite
  · exact .ite hs.tsCtrlWrite (.ite hs.lastStatus.logRefused (.ite hs.plainWrite.lastStatus hs.plainWrite))

theorem State.Canon.fabWrite {off v} (hs : s.Canon) : (s.fabWrite off v).Canon :=
  .ite hs.devnumWrite (.ite hs.rtCtrlWrite (by split; exacts [hs.portCtrlWrite, hs.plainWrite]))
theorem State.Canon.memWindow {off v} (hs : s.Canon) : (s.memWindow off v).Canon :=
  .ite hs.memTrainWrite (by split; exacts [hs.memPtWrite, hs.memPtWrite, hs.plainWrite])

theorem State.Canon.cxmWindow {off v} (hs : s.Canon) : (s.cxmWindow off v).Canon := by
  unfold State.cxmWindow
  refine .ite hs.svcMaskWrite (.ite hs.svcMaskWrite ?_)
  split
  · exact hs.cxlCtrlWrite
  · exact hs.cxmCreditWrite
  · exact hs.plainWrite

theorem State.Canon.ckpWindow {off v} (hs : s.Canon) : (s.ckpWindow off v).Canon :=
  .ite hs.ckpCtrlWrite (.ite hs.raise (.ite hs (.ite hs hs.plainWrite)))

theorem State.Canon.hifWindow {off v} (hs : s.Canon) : (s.hifWindow off v).Canon := by
  unfold State.hifWindow
  dsimp only
  refine .ite hs.winCommit (.ite hs.dcfgAddrWrite ?_)
  split
  · exact hs.dsCtrlWrite
  · exact hs.slotCtrlWrite
  · exact hs.plainWrite

theorem State.Canon.queWindow {off v} (hs : s.Canon) : (s.queWindow off v).Canon :=
  .ite hs.adminCtrlWrite (.ite hs.raise hs.plainWrite)
theorem State.Canon.rdmWindow {off v} (hs : s.Canon) : (s.rdmWindow off v).Canon :=
  .ite hs.raise (by split; exacts [.ite hs.raise hs.plainWrite, hs.plainWrite])

theorem State.Canon.ethWindow {off v} (hs : s.Canon) : (s.ethWindow off v).Canon := by
  unfold State.ethWindow
  dsimp only
  refine .ite hs.ethModeWrite (.ite hs.entCmdWrite ?_)
  exact .ite (.ite hs (.ite hs.lportWrite hs.plainWrite)) (.ite hs.ethProgWrite (.ite hs.ethGnodeWrite hs.plainWrite))

theorem State.Canon.trfWindow {off v} (hs : s.Canon) : (s.trfWindow off v).Canon := by
  unfold State.trfWindow
  split
  · exact hs.shaperWrite
  · exact hs.policerCommit
  · exact hs.plainWrite

theorem State.Canon.cipWindow {w off v} (hs : s.Canon) : (s.cipWindow w off v).Canon := by
  unfold State.cipWindow
  split
  · exact hs
  · exact .ite hs.cipLockWrite (.ite hs.cipRingBaseWrite (.ite hs.cipRingCtrlWrite (.ite hs.cipTailWrite hs.plainWrite)))

theorem State.Canon.ldgWindow {w off v} (hs : s.Canon) : (s.ldgWindow w off v).Canon := by
  unfold State.ldgWindow
  dsimp only
  refine .ite ?_ hs.plainWrite
  split
  · exact .ite hs (.ite hs.evCtrlWrite (by split; exacts [hs.evSrcWrite, hs]))
  · exact hs

theorem State.Canon.pwrWindow {off v} (hs : s.Canon) : (s.pwrWindow off v).Canon := .ite hs.plainWrite.raise hs.plainWrite

theorem State.Canon.windowWrite {w off v b} (hs : s.Canon) : (s.windowWrite w off v b).Canon := by
  unfold State.windowWrite
  split
  · exact .ite hs.rstCtrlWrite hs.plainWrite
  · exact .ite hs.pavRstWrite hs.plainWrite
  · exact hs.schWrite
  · exact hs.fabWrite
  · exact hs.memWindow
  · exact hs.cxmWindow
  · exact hs.ckpWindow
  · exact hs.hifWindow
  · exact hs.queWindow
  · exact hs.rdmWindow
  · exact hs.ethWindow
  · exact hs.trfWindow
  · exact hs.cipWindow
  · exact hs.ldgWindow
  · exact hs.pwrWindow
  · exact hs.emuWrite
  · exact hs.plainWrite

theorem State.Canon.msixTableWrite {fn o size v} (hs : s.Canon) : (s.msixTableWrite fn o size v).Canon := hs.setHif.msixFlush
theorem State.Canon.msixPbaWrite {fn o size v} (hs : s.Canon) : (s.msixPbaWrite fn o size v).Canon := hs.setHif.msixFlush

theorem State.Canon.cycleEvents {off sets} (hs : s.Canon) : (s.cycleEvents off sets).Canon := by
  unfold State.cycleEvents
  split
  · exact hs
  · exact hs.foldl fun ht => .ite (.ite ht.raise ht.count) ht

theorem State.Canon.bar0Write {w off size v c} (hs : s.Canon) : (s.bar0Write w off size v c).Canon := by
  unfold State.bar0Write
  dsimp only
  refine .ite hs ?_
  split
  · refine .ite hs.msixTableWrite ?_
    exact .ite hs.msixPbaWrite (.ite hs.replyUr (.ite hs.hifCfgWrite (.ite hs.raise (.ite hs hs.windowWrite.cycleEvents))))
  · exact .ite hs hs.windowWrite.cycleEvents

theorem State.Canon.bar2Write {fn off size v} (hs : s.Canon) : (s.bar2Write fn off size v).Canon := by
  unfold State.bar2Write
  dsimp only
  split
  · refine .ite hs ?_
    split
    · exact .ite (.ite hs.negotiateQ hs) hs.dbMiss
    · exact .ite hs.pwCtrWrite (.ite (.ite hs.sqDoorbell hs.dbMiss) (.ite (.ite hs.cqDoorbell hs.dbMiss) hs))
  · exact hs

theorem State.Canon.execRegisterWrite {w bar off size v c} (hs : s.Canon) :
    CanonNext (execRegisterWrite w bar off size v c s) := by
  unfold Machine.execRegisterWrite
  split
  · exact .next hs.bar0Write
  · exact .next (.ite hs.poisonRx hs.bar0Write)
  · exact .next (.ite hs.poisonRx hs.bar2Write)
  · exact .next hs

/-! ### Every command and every step -/

/-- Every command keeps the form. -/
theorem State.Canon.exec {i} (hs : s.Canon) : CanonNext (exec i s) := by
  unfold Machine.exec
  cases i
  case powerOn => exact .next hs.setLdg.coldReset
  case porPinLow => exact hs.execPorPinLow
  case rootPllUnlock => exact hs.execRootPllUnlock
  case rootPllLossTimeout => exact .ite (.next hs) (.next hs.coldReset)
  case swCold | swWarm => exact .next hs.rstCtrlWrite
  case upstreamPerst => exact hs.execUpstreamPerst
  case powerDown => exact .next hs.coldState.setLdg
  case registerWrite => exact hs.execRegisterWrite
  case lodgeFwStart => exact hs.execLodgeFwStart
  case genHoldExpire => exact hs.execGenHoldExpire
  case terraceWave => exact hs.execTerraceWave
  case pavSelfTestDone => exact hs.execPavSelfTestDone
  case bringupReady => exact .ite (.next hs.raise.setLdg) (.next hs)
  case upLinkUp => exact hs.execUpLinkUp
  case meshRequestArrive => exact hs.execMeshRequestArrive
  case meshResponseArrive => exact hs.execMeshResponseArrive
  case meshWriteAck => exact hs.execMeshWriteAck
  case semaphoreAdd => exact .next (hs.foldl fun ht => ht.addArrives)
  case mapCommit => exact .ite (.next hs) (.next hs.buildMap)
  case pavilionReset => exact .next hs.pavRstWrite
  case pavResetComplete => exact hs.execPavResetComplete
  case nop | rett | cset | addp | addpr | addpw | cmpp | bcc | jmp | call | jmpr | callr | dbnz | waitc | waits | waitidle |
      fence => exact hs.onRun hs.setSeq
  case trap => exact hs.onRun hs.trap
  case push | signal => exact hs.onRun (.ite hs.trap hs.setPav)
  case pop => exact hs.execPop
  case aluMov | aluAdd | aluAdc | aluSub | aluSbc | aluAnd | aluOr | aluXor | aluCmp | aluTst | aluMul | aluMulhu =>
    exact hs.alu
  case aluShl | aluShr | aluSar => exact hs.aluShift
  case addi | movi | cmpi | shlImm | shrImm | sarImm | rorImm => exact hs.regOp
  case ld => exact hs.execLd
  case st => exact hs.execSt
  case issue => exact hs.execIssue
  case issueResume => exact hs.execIssueResume
  case waite => exact hs.onRun hs.setSeq.met
  case waitComplete => exact hs.execWaitComplete
  case waitTimeout => exact hs.execWaitTimeout
  case signalSend => exact hs.execSignalSend
  case sequencerRelease => exact hs.execSequencerRelease
  case engineCommandComplete => exact hs.execEngineCommandComplete
  case fadd | fsub | fmul | ffma | fmin | fmax | fcmpeq | fcmplt | fcmple | fcmpun | sel | fabs | fneg | fcopysign | fdiv |
      fsqrt | exp2 | log2 | rcp | rsqrt | iadd | isub | iand | ior | ixor | ishl | ishr | isar | icmpeq | icmplt | imul |
      imm => exact hs.lanes
  case cvt | mxq | mxd | acc2v | v2acc => exact hs.vecCmd
  case redsum | redmax | redmin => exact hs.reduce
  case tileStep | vload | aload => exact hs.runCmd fun ht => .ite ht.lineErrs.engFail ht.lineErrs.setEng
  case accClear | genSetup => exact hs.runCmd fun ht => ht.setEng
  case vstore | astore => exact hs.runCmd fun ht => ht.setSp
  case get => exact hs.execGet
  case put => exact hs.execPut
  case timesyncExchange => exact hs.execTimesyncExchange
  case timesyncRequestRx => exact .ite (.next hs.queueCtrl.frame) (.next hs)
  case timesyncReplyRx => exact hs.execTimesyncReplyRx
  case tbHoldExpire => exact .next hs.advance
  case timePulse => exact .ite (.next hs.atTb.frame.emit) (.next hs)
  case timePulseEnd => exact hs.execTimePulseEnd
  case schLoad | schAbort | schStop | schClear => exact .next hs.schCtrl
  case schLoadEnd => exact hs.execSchLoadEnd
  case schActivate => exact hs.execSchActivate
  case epochBoundary => exact .next hs.epochBoundary.holdBoost
  case pendingFillEnd => exact hs.execPendingFillEnd
  case replayBoundary => exact .next hs.replayBoundary.holdBoost
  case armedNoticeRx => exact hs.execArmedNoticeRx
  case faultNoticeRx => exact hs.execFaultNoticeRx
  case paceNoticeRx => exact hs.execPaceNoticeRx
  case genNoticeRx => exact hs.execGenNoticeRx
  case paceReqWrite => exact .next hs.paceReqWrite
  case moveStart => exact hs.execMoveStart
  case moveComplete => exact hs.execMoveComplete
  case slotTransmit => exact hs.execSlotTransmit
  case flitReceive => exact hs.execFlitReceive
  case flitRelease => exact hs.execFlitRelease
  case nakReceive => exact hs.execNakReceive
  case creditReceive => exact .ite (.next hs) (.next hs.setPort)
  case volunteerPacketReceive => exact hs.execVolunteerPacketReceive
  case routedMessageReceive => exact hs.execRoutedMessageReceive
  case fabRtCommit => exact .next hs.rtCtrlWrite
  case fabPortEnable | fabPortDisable | fabPortRetrain => exact .next hs.portCtrlWrite
  case fabDetectPoll => exact hs.execFabDetectPoll
  case fabTrainStateDone => exact hs.execFabTrainStateDone
  case fabTrainTimeout => exact .ite (.next hs) (.next hs.atLeast.trainFail)
  case fabLaneFault => exact .ite (.next hs.retrain) (.next hs)
  case fabDevnumWrite => exact .next hs.devnumWrite
  case memRequest => exact .ite (.next hs.emit) (.next hs.serve)
  case gddr7TrainDone => exact hs.execGddr7TrainDone
  case memTrainSave => exact .next hs.memTrainWrite
  case gddr7Refresh => exact .ite (.next hs.frame.setFld) (.next hs)
  case gddr7Tracking => exact .next hs
  case patrolScrub => exact .ite (.next hs.eccAt) (.next hs)
  case cxlPortEnable | cxlPortDisable => exact .next hs.cxlCtrlWrite
  case cxlPortActive => exact hs.execCxlPortActive
  case cxlLinkDown => exact .ite (.next hs.leaveCxl) (.next hs)
  case cxlEventRecord => exact .ite (.next hs.logWrite.noteCe) (.next hs)
  case cxlRequest => exact hs.execCxlRequest
  case cxmCreditWrite => exact .next hs.cxmCreditWrite
  case cxmSvcMaskWrite => exact .next hs.svcMaskWrite
  case memPtWrite => exact .next hs.memPtWrite
  case migrate => exact hs.execMigrate
  case migrateComplete => exact hs.execMigrateComplete
  case attend => exact hs.execAttend
  case serviceRequestStart => exact hs.execServiceRequestStart
  case sheaf => exact hs.execSheaf
  case diversionComplete => exact hs.execDiversionComplete
  case reserveSlotFree => exact hs.execReserveSlotFree
  case sheafStallLimit => exact hs.execSheafStallLimit
  case granuleBackgroundRead => exact hs.execGranuleBackgroundRead
  case shardWriteDone => exact hs.execShardWriteDone
  case sheafShardsDurable => exact hs.execSheafShardsDurable
  case manifestDurable => exact hs.execManifestDurable
  case ckpAbandon => exact .next hs.ckpCtrlWrite
  case ceTrigger => exact hs.execCeTrigger
  case ceWindowEnd => exact .next hs.atTb.setCkp
  case restoreSelect => exact hs.execRestoreSelect
  case restoreLoad => exact hs.execRestoreLoad
  case hifCtrlPfWrite => exact .next hs.hifCfgWrite
  case bar4Access => exact hs.execBar4Access
  case bar4Resize => exact .next hs.resizeBar4
  case romRead => exact .next hs.emit
  case pcieCompletionRx => exact hs.execPcieCompletionRx
  case completionTimeout => exact hs.execCompletionTimeout
  case tagQuarantineEnd => exact hs.execTagQuarantineEnd
  case dcfgRead | dcfgWrite => exact .next hs.dcfgAddrWrite
  case dcfgCrsTimeout => exact hs.execDcfgCrsTimeout
  case dsSplitWrite => exact .next hs.dsCtrlWrite
  case slotPresenceChange => exact hs.execSlotPresenceChange
  case slotButtonPress => exact .ite (.next hs) (.next hs.slotEvent)
  case slotPowerOn | slotPowerOff => exact .next hs.slotCtrlWrite
  case slotPowerRemove => exact hs.execSlotPowerRemove
  case slotResetRelease => exact hs.execSlotResetRelease
  case slotLinkUp => exact hs.execSlotLinkUp
  case slotEnumerate => exact hs.execSlotEnumerate
  case slotTrainTimeout => exact hs.execSlotTrainTimeout
  case slotLinkLost => exact hs.execSlotLinkLost
  case winCommit => exact .next hs.winCommit
  case winSwitch => exact hs.execWinSwitch
  case inboundAccess => exact hs.execInboundAccess
  case getVersion => exact hs.onSpdm hs.setSpdm.reply
  case getCapabilities => exact hs.onSpdm (hs.atStage hs.setSpdm.reply)
  case negotiateAlgorithms => exact hs.execNegotiateAlgorithms
  case getDigests => exact hs.onSpdm (hs.atStage hs.reply)
  case getCertificate => exact hs.execGetCertificate
  case challenge => exact hs.execChallenge
  case getMeasurements => exact hs.execGetMeasurements
  case keyExchange => exact hs.execKeyExchange
  case finish => exact hs.execFinish
  case heartbeat | keyUpdate => exact hs.onSpdm (hs.inSession hs.reply)
  case endSession => exact hs.onSpdm (hs.inSession hs.setSpdm.reply)
  case doeAbort => exact .next hs.doeAbort
  case ideKm => exact hs.execIdeKm
  case sqDoorbell => exact .ite (.next hs.sqDoorbell) (.next hs)
  case cqDoorbell => exact .ite (.next hs.cqDoorbell) (.next hs)
  case queueVersionWrite => exact .ite (.next hs.negotiateQ) (.next hs)
  case pwCtrWrite => exact .ite (.next hs.pwCtrWrite) (.next hs)
  case descriptorFetch => exact hs.execDescriptorFetch
  case commandStart => exact hs.execCommandStart
  case commandComplete => exact hs.execCommandComplete
  case msixCoalesceTimeout => exact hs.execMsixCoalesceTimeout
  case queAdminEnable => exact .next hs.adminCtrlWrite
  case cmdNop => exact hs.onCmd hs.endCmd
  case partCreate | partLimits => exact hs.mgmt (.ite hs.endCmd (.ite hs.endCmd hs.setPart.endCmd))
  case partDestroy => exact hs.execPartDestroy
  case queueCreate => exact hs.execQueueCreate
  case queueDelete => exact hs.execQueueDelete
  case sqDrainDone => exact hs.execSqDrainDone
  case queueReset => exact hs.execQueueReset
  case partFreeze => exact hs.execPartFreeze
  case freezeGraceEnd => exact hs.execFreezeGraceEnd
  case freezeDrained => exact hs.execFreezeDrained
  case freezeDrainTimeout => exact hs.execFreezeDrainTimeout
  case partSave => exact hs.execPartSave
  case partRestore => exact hs.execPartRestore
  case partResume => exact hs.execPartResume
  case partReset => exact hs.execPartReset
  case qpCreate => exact hs.execQpCreate
  case qpModify => exact hs.execQpModify
  case qpDestroy => exact hs.execQpDestroy
  case qpnHoldEnd => exact hs.execQpnHoldEnd
  case mrReg => exact hs.execMrReg
  case mrDereg => exact hs.execMrDereg
  case send | sendImm | rdmaWrite | writeImm | rdmaRead | fetchAdd | cmpSwap => exact hs.workReq
  case recv => exact hs.onCmd (.ite hs hs.endCmd)
  case rdmaPacketReceive => exact hs.execRdmaPacketReceive
  case qpcFetchDone => exact hs.execQpcFetchDone
  case qpcFetchTimeout => exact hs.execQpcFetchTimeout
  case retxTimeout => exact hs.execRetxTimeout
  case rnrTimerExpire => exact hs.execRnrTimerExpire
  case rdMessageAbandon => exact hs.execRdMessageAbandon
  case rdKeepExpire => exact hs.execRdKeepExpire
  case waitRelease => exact hs.execWaitRelease
  case trigHoldExpire => exact hs.execTrigHoldExpire
  case ccRecover => exact hs.execCcRecover
  case nsAttach => exact hs.execNsAttach
  case nsDetach => exact hs.execNsDetach
  case nsAttachTimeout => exact hs.execNsAttachTimeout
  case nsAssocLost => exact hs.execNsAssocLost
  case nsReconnect => exact hs.execNsReconnect
  case nsReconnectGiveup => exact hs.execNsReconnectGiveup
  case nvmeRead => exact hs.execNvmeRead
  case nvmeWrite => exact hs.execNvmeWrite
  case nvmeFlush => exact hs.execNvmeFlush
  case ethFrameReceive => exact hs.execEthFrameReceive
  case pfcPauseEnd => exact hs.execPfcPauseEnd
  case mgmtFrameReceive => exact hs.execMgmtFrameReceive
  case nextHopHoldExpire => exact hs.execNextHopHoldExpire
  case ptpEventMessage => exact hs.execPtpEventMessage
  case ethTxSelect => exact hs.execEthTxSelect
  case bucketRefill => exact .next hs.atTb.refillTo
  case ethEntWrite | ethEntRead | ethEntInvalidate => exact .next hs.entCmdWrite
  case ethEntDone => exact hs.execEthEntDone
  case ethModeWrite => exact .next hs.ethModeWrite
  case ethProgWrite => exact .next hs.ethProgWrite
  case ethGnodeWrite => exact .next hs.ethGnodeWrite
  case ethPortEnable => exact .next hs.lportWrite
  case ethLinkChange => exact .ite (.next hs.ethLink) (.next hs)
  case shaperWrite => exact .next hs.shaperWrite
  case policerCommit => exact .next hs.policerCommit
  case cipAcquire | cipRelease => exact .next hs.cipLockWrite
  case cipLockRevoke => exact hs.execCipLockRevoke
  case cipTailWrite => exact .next hs.cipTailWrite
  case cipRingCtrlWrite => exact .next hs.cipRingCtrlWrite
  case enc | dec | ctr | gcmEnc | xtsEnc | xtsDec => exact .next (hs.cipOp fun ht => ht.cipPut)
  case ghash | polyval => exact .next (hs.cipOp fun ht => ht.cipHash)
  case keyLoad => exact .next (hs.cipOp fun ht => ht.cipLoad)
  case keyUnwrap => exact hs.execKeyUnwrap
  case keyClear => exact .next (hs.cipOp fun ht => ht.cipClear)
  case gcmDec => exact hs.execGcmDec
  case cipCmdDone => exact hs.execCipCmdDone
  case fwStage => exact hs.execFwStage
  case fwActivate => exact hs.execFwActivate
  case fwCancel => exact hs.onEmu hs.setFld.setLdg.emuEnd
  case trainSave => exact hs.onEmu hs.setFlash.emuEnd
  case netCfg => exact hs.execNetCfg
  case distSend => exact hs.execDistSend
  case distRecv => exact hs.execDistRecv
  case distSegmentReceive => exact hs.execDistSegmentReceive
  case emuCmdDone => exact hs.execEmuCmdDone
  case fwActivation => exact hs.execFwActivation
  case fwDeferredActivate => exact hs.execFwDeferredActivate
  case lodgeWatchdogExpire | lodgeFault => exact .next hs.lodgeCause
  case lodgeRestartDone => exact hs.execLodgeRestartDone
  case eventSourceInput => exact .ite (.next hs.srcLevel) (.next hs)
  case eventDeliver => exact hs.execEventDeliver
  case coreWake => exact .ite (.next hs.emit) (.next hs)
  case ldgEvSrcWrite => exact .next hs.evSrcWrite
  case loaderSegment => exact hs.execLoaderSegment
  case loaderReport => exact hs.execLoaderReport
  case loaderReportTimeout => exact hs.execLoaderReportTimeout
  case repairRound => exact .next hs.repair.repair
  case voltageLoop => exact hs.execVoltageLoop
  case voutBoostStep => exact hs.execVoutBoostStep
  case voutBoostRelease => exact hs.execVoutBoostRelease
  case sensorScan => exact hs.execSensorScan
  case clampRelease => exact hs.execClampRelease
  case tjSample => exact hs.execTjSample
  case feedforwardEval => exact hs.execFeedforwardEval
  case junctionLoop => exact hs.execJunctionLoop
  case coolantLoop => exact hs.execCoolantLoop
  case nodePowerLoop => exact hs.execNodePowerLoop
  case paceLower => exact hs.execPaceLower
  case tachFlowCount => exact hs.execTachFlowCount
  case mctpRequest => exact hs.execMctpRequest
  case logReadVdm => exact hs.execLogReadVdm
  case reservedInstruction => exact hs.execReservedInstruction
  case schTsCtrlWrite => exact .next hs.tsCtrlWrite
  case partResetComplete => exact hs.execPartResetComplete
  case qpcWritebackDone => exact hs.execQpcWritebackDone
  case upstreamLinkDown => exact .ite (.next hs.dropLink) (.next hs)
  case configurationRequest => exact hs.execConfigurationRequest
  case nsKeepAlive => exact hs.execNsKeepAlive
  -- The goal left is that of `seal`, whose name is a keyword and names no `case`.
  exact hs.execSeal

/-- A step runs the next pending command, or lets time pass. -/
theorem State.Canon.step (hs : s.Canon) : CanonNext (step s) := by
  unfold Machine.step
  split
  · exact hs.frame.exec
  · exact .next hs.advance

end Sys2Proof.Machine
end

section
/-! SUPPORT. The settled obligation of the canonical form. -/

namespace Sys2Proof.Machine

/-- Settles O60: the state before is canonical, and every step keeps the form. -/
theorem stepKeepsWf : Obligations.StepKeepsWf := by
  unfold Obligations.StepKeepsWf
  intro s t hs ht
  exact (State.Canon.step ⟨hs⟩ t ht).wf

end Sys2Proof.Machine
end


section
/-! SUPPORT. What the machine right after reset reads as, and the settled obligation of the reset state. -/

namespace Sys2Proof.Machine

open Sys2Proof

/-- A map without entries reads as its default everywhere. -/
@[simp] theorem smGet_nil {α : Type} (d : Nat → α) (k : Nat) : smGet d ([] : SMap α) k = d k := rfl

/-- Where memory and scratch list no byte, every address outside the trouble log reads 0; the map of the pavilions does not
matter, since mapped scratch is empty and unmapped scratch reads 0. -/
theorem State.byte_of_mem_scratch_nil (s : State) (a : Nat) (hm : s.mem = []) (hs : s.scratch = [])
    (hl : a < 0x4010000000 ∨ 0x4010200000 ≤ a) : s.byte a = 0 := by
  have hlog : ¬(0x4010000000 ≤ a ∧ a < 0x4010200000) := by omega
  by_cases hsc : 0x4000000000 ≤ a ∧ a < 0x4010000000
  · rw [State.byte, if_pos hsc]
    split
    · rw [hs, smGet_nil, memDefault]
    · rfl
  · rw [State.byte, if_neg hsc, if_neg hlog, hm, smGet_nil, memDefault]

@[simp] theorem State.reset_reg (off : Nat) : State.reset.reg off = regReset off := smGet_nil regReset off

@[simp] theorem State.reset_pav (p : Fin 144) : State.reset.pav p = Pav.reset := by
  simp [State.pav, State.reset]

@[simp] theorem State.reset_seqOf (p : Fin 144) : State.reset.seqOf p = Seq.reset := by
  simp [State.seqOf, Pav.reset]

/-- A sequencer in reset is held (R113): it runs no program. -/
theorem Seq.reset_not_running : Seq.reset.mode ≠ .running := SeqMode.noConfusion

/-- Settles O58: reset lists no register and no byte and queues no command, and each of its pavilions is as a pavilion reset
leaves it. -/
theorem resetIsCanonical : Obligations.ResetIsCanonical := by
  unfold Obligations.ResetIsCanonical
  refine ⟨State.Canon.reset.wf, rfl, State.reset_reg, fun a hl => ?_, fun p => ?_⟩
  · exact State.byte_of_mem_scratch_nil State.reset a rfl rfl hl
  · rw [State.reset_seqOf]
    exact ⟨rfl, Seq.reset_not_running⟩

end Sys2Proof.Machine
end


section
/-! SUPPORT. Number formats: which FP32 codes are NaNs and which codes a rounding gives (R31, R34, R43), the order of values with
the minimum and maximum (R36), the stochastic quotient (R47), the tree of R51; and the settled obligations about them. -/

namespace Sys2Proof.Machine

open Sys2Proof

/-! ### NaNs (R31, R34) -/

/-- R31: the exponent field is all ones and the mantissa is not 0. -/
theorem val32_eq_nan_iff (x : BitVec 32) :
    val32 x = .nan ↔ bitsOf x.toNat 23 8 = 255 ∧ bitsOf x.toNat 0 23 ≠ 0 := by
  simp only [val32, Fmt.decode, fmtFP32]
  by_cases he : bitsOf x.toNat 23 8 = 255
  · by_cases hm : bitsOf x.toNat 0 23 = 0 <;> simp [he, hm]
  · by_cases h0 : bitsOf x.toNat 23 8 = 0 <;> simp [he, h0]

/-- A sign bit above a magnitude that is at most the code of infinity is no NaN. -/
theorem val32_signBit_add_ne_nan (s : Bool) {c : Nat} (hc : c ≤ fmtFP32.infCode) :
    val32 (BitVec.ofNat 32 (fmtFP32.signBit s + c)) ≠ .nan := by
  have hc' : c ≤ 2139095040 := hc
  have hs : fmtFP32.signBit s = 0 ∨ fmtFP32.signBit s = 2147483648 := by cases s <;> decide
  rw [Ne, val32_eq_nan_iff, BitVec.toNat_ofNat, bitsOf, bitsOf]
  omega

theorem Fmt.maxCode_le_infCode {f : Fmt} (hf : f.sp = .ieee) : f.maxCode ≤ f.infCode := by
  simp [Fmt.maxCode, Fmt.infCode, hf]

/-- An overflow of a format with infinities gives the largest finite magnitude or infinity (R43). -/
theorem overflowCode_le_infCode {f : Fmt} (hf : f.sp = .ieee) (rm : Nat) (s : Bool) : overflowCode f rm s ≤ f.infCode := by
  have hmax := Fmt.maxCode_le_infCode hf
  unfold overflowCode
  split
  · exact hmax
  · cases s <;> simp [hmax]
  · cases s <;> simp [hmax]
  · exact le_rfl

/-- A value that is no NaN is rounded, in a format with infinities, to a sign bit and a magnitude that is at most the code of
infinity: an overflow goes to the largest finite magnitude or to infinity, never past it (R43). -/
theorem Fmt.encode_eq_signBit_add {f : Fmt} (hf : f.sp = .ieee) (rm r : Nat) {v : FVal} (hv : v ≠ .nan) :
    ∃ s c, c ≤ f.infCode ∧ f.encode rm false r v = f.signBit s + c := by
  cases v with
  | nan => exact absurd rfl hv
  | inf s => exact ⟨s, f.infCode, le_rfl, by simp [Fmt.encode, hf]⟩
  | fin s m e =>
    simp only [Fmt.encode, hf]
    generalize f.magCode m e _ = c
    by_cases hc : c ≤ f.maxCode
    · exact ⟨s, c, hc.trans (Fmt.maxCode_le_infCode hf), if_pos hc⟩
    · exact ⟨s, overflowCode f rm s, overflowCode_le_infCode hf rm s, if_neg hc⟩

@[simp] theorem fp32_nan (rm : Nat) : fp32 rm .nan = nan32 := rfl

@[simp] theorem toG_nan : toG .nan = nan32 := rfl

/-- R34 for one rounding to FP32 (R44): only the NaN gives a NaN. -/
theorem fp32_eq_nan32 {rm : Nat} {v : FVal} (h : val32 (fp32 rm v) = .nan) : fp32 rm v = nan32 := by
  by_cases hv : v = .nan
  · rw [hv, fp32_nan]
  · obtain ⟨s, c, hc, he⟩ := Fmt.encode_eq_signBit_add (f := fmtFP32) rfl rm 0 hv
    rw [fp32, he] at h
    exact absurd h (val32_signBit_add_ne_nan s hc)

/-- A member of G is the FP32 code with two mantissa bits 0 below its own. -/
theorem toG_eq_signBit_add {v : FVal} (hv : v ≠ .nan) :
    ∃ s c, c ≤ fmtFP32.infCode ∧ toG v = BitVec.ofNat 32 (fmtFP32.signBit s + c) := by
  obtain ⟨s, c, hc, he⟩ := Fmt.encode_eq_signBit_add (f := fmtG) rfl 0 0 hv
  have hc' : c ≤ 534773760 := hc
  have hG : toG v = BitVec.ofNat 32 (bitsOf (fmtG.encode 0 false 0 v) 0 29 * 4 + bitsOf (fmtG.encode 0 false 0 v) 29 1 * 2 ^ 31) := by
    cases v with
    | nan => exact absurd rfl hv
    | inf _ | fin _ _ _ => rfl
  have hs : fmtG.signBit s = 0 ∧ fmtFP32.signBit s = 0 ∨ fmtG.signBit s = 536870912 ∧ fmtFP32.signBit s = 2147483648 := by
    cases s <;> decide
  refine ⟨s, 4 * c, show 4 * c ≤ 2139095040 by omega, ?_⟩
  rw [hG, he, bitsOf, bitsOf]
  congr 1
  omega

/-- R34 for a rounding to G (R60). -/
theorem toG_eq_nan32 {v : FVal} (h : val32 (toG v) = .nan) : toG v = nan32 := by
  by_cases hv : v = .nan
  · rw [hv, toG_nan]
  · obtain ⟨s, c, hc, he⟩ := toG_eq_signBit_add hv
    rw [he] at h
    exact absurd h (val32_signBit_add_ne_nan s hc)

@[simp] theorem addVal_nan_left (rm : Nat) (b : FVal) : addVal rm .nan b = .nan := rfl
@[simp] theorem mulVal_nan_left (b : FVal) : mulVal .nan b = .nan := rfl
@[simp] theorem divVal_nan_left (b : FVal) : divVal .nan b = .nan := rfl

/-- Settles O3: every arithmetic result is one rounding to FP32 or to G, and these write the canonical NaN alone; the NaN of
a first operand passes through the exact sum, product and quotient. -/
theorem canonicalNaN : Obligations.CanonicalNaN := by
  unfold Obligations.CanonicalNaN
  intro rm a b c
  refine ⟨?_, fun ha => ?_⟩
  · simp only [List.forall_mem_cons]
    exact ⟨fp32_eq_nan32, fp32_eq_nan32, fp32_eq_nan32, fp32_eq_nan32, fp32_eq_nan32, fp32_eq_nan32,
      toG_eq_nan32, toG_eq_nan32, toG_eq_nan32, toG_eq_nan32, List.forall_mem_nil _⟩
  · simp [fadd, fmul, fdiv, ffma, ha, nan32]

/-! ### Order, minimum and maximum (R36) -/

@[simp] theorem cmpVal_nan_left (b : FVal) : cmpVal .nan b = none := rfl

@[simp] theorem cmpVal_nan_right (a : FVal) : cmpVal a .nan = none := by cases a <;> rfl

/-- Two values that are no NaNs are ordered, and the order the other way round is the opposite one. -/
theorem cmpVal_ordered {a b : FVal} (ha : a ≠ .nan) (hb : b ≠ .nan) :
    ∃ o, cmpVal a b = some o ∧ cmpVal b a = some o.swap := by
  cases a with
  | nan => exact absurd rfl ha
  | inf s =>
    cases b with
    | nan => exact absurd rfl hb
    | inf t => cases s <;> cases t <;> simp [cmpVal]
    | fin t n g => cases s <;> simp [cmpVal]
  | fin s m e =>
    cases b with
    | nan => exact absurd rfl hb
    | inf t => cases t <;> simp [cmpVal]
    | fin t n g => exact ⟨_, rfl, by rw [cmpVal, min_comm g e, ← Std.OrientedOrd.eq_swap]⟩

/-- A value that is no NaN is equal to itself. -/
theorem cmpVal_self {a : FVal} (ha : a ≠ .nan) : cmpVal a a = some .eq := by
  obtain ⟨o, h, hswap⟩ := cmpVal_ordered ha ha
  rw [h] at hswap ⊢
  cases o <;> simp_all

/-- Of operands that are no NaNs FMIN takes one that is not greater and FMAX the other. -/
theorem fmin_fmax_of_ordered {a b : BitVec 32} {o : Ordering} (h : cmpVal (val32 a) (val32 b) = some o) :
    o ≠ .gt ∧ fmin a b = a ∧ fmax a b = b ∨ o ≠ .lt ∧ fmin a b = b ∧ fmax a b = a := by
  cases o with
  | lt | gt => simp [fmin, fmax, h]
  | eq => cases hs : a.msb <;> simp [fmin, fmax, h, hs]

/-- Settles O4: the order of two operands is the same read from either side, and FMIN and FMAX take its two ends. -/
theorem minMaxOrder : Obligations.MinMaxOrder := by
  unfold Obligations.MinMaxOrder
  intro a b
  refine ⟨?_, fun ha hb => ?_⟩
  · rintro (h | h) <;> simp [fmin, fmax, h, nan32]
  · obtain ⟨o, hab, hba⟩ := cmpVal_ordered ha hb
    have haa := cmpVal_self ha
    have hbb := cmpVal_self hb
    have hzeros : a = 0x80000000 ∧ b = 0 ∨ a = 0 ∧ b = 0x80000000 → fmin a b = 0x80000000 ∧ fmax a b = 0 := by
      rintro (⟨rfl, rfl⟩ | ⟨rfl, rfl⟩) <;> decide
    obtain ⟨ho, hmin, hmax⟩ | ⟨ho, hmin, hmax⟩ := fmin_fmax_of_ordered hab
    · refine ⟨.inl hmin, .inr hmax, ?_, hzeros⟩
      simp [hmin, hmax, haa, hab, hba, hbb, ho]
    · refine ⟨.inr hmin, .inl hmax, ?_, hzeros⟩
      simp [hmin, hmax, haa, hab, hba, hbb, ho]

/-! ### Stochastic rounding (R47) -/

/-- The discarded fraction of m / 2^sh in units of 2^−16, rounded down: D of R47. -/
def discarded (m sh : Nat) : Nat := m % 2 ^ sh * 65536 / 2 ^ sh

theorem discarded_lt (m sh : Nat) : discarded m sh < 65536 := by
  have hm : m % 2 ^ sh < 2 ^ sh := Nat.mod_lt _ (by positivity)
  rw [discarded, Nat.div_lt_iff_lt_mul (by positivity)]
  omega

theorem discarded_eq_zero {m sh : Nat} (h : m % 2 ^ sh = 0) : discarded m sh = 0 := by simp [discarded, h]

/-- Step 4 of R47; where the spacing is 1 nothing is discarded. -/
theorem roundQuot_sr {r : Nat} (hr : r < 65536) (m sh : Nat) :
    roundQuot m 0 sh (.sr r) = if 65536 ≤ discarded m sh + r then m / 2 ^ sh + 1 else m / 2 ^ sh := by
  cases sh with
  | zero => simp [roundQuot, discarded, Nat.mod_one, hr]
  | succ n =>
    rw [roundQuot, if_neg (by omega), Int.sub_zero, Int.toNat_natCast]
    rfl

/-- Of the numbers below N, the last d are those that reach N with d added. -/
theorem length_filter_range_le_add {d N : Nat} (h : d ≤ N) :
    ((List.range N).filter (fun w => decide (N ≤ d + w))).length = d := by
  obtain ⟨k, rfl⟩ := Nat.exists_eq_add_of_le' h
  have hlow : (List.range k).filter (fun w => decide (k + d ≤ d + w)) = [] := by
    rw [List.filter_eq_nil_iff]
    intro w hw
    have := List.mem_range.mp hw
    simp only [decide_eq_true_eq]
    omega
  have hhigh : ((List.range d).map (k + ·)).filter (fun w => decide (k + d ≤ d + w)) = (List.range d).map (k + ·) := by
    rw [List.filter_eq_self]
    intro w hw
    obtain ⟨i, -, rfl⟩ := List.mem_map.mp hw
    exact decide_eq_true (by omega)
  rw [List.range_add, List.filter_append, hlow, hhigh]
  simp

/-- Settles O5: the quotient goes up for the words that reach 65,536 with D added, and these are the last D of them. -/
theorem stochasticRounding : Obligations.StochasticRounding := by
  unfold Obligations.StochasticRounding
  intro m sh r hr
  refine ⟨roundQuot_sr hr m sh, ?_, fun h => ?_⟩
  · have hup : ∀ w ∈ List.range 65536,
        decide (roundQuot m 0 sh (.sr w) = m / 2 ^ sh + 1) = decide (65536 ≤ discarded m sh + w) := by
      intro w hw
      rw [roundQuot_sr (List.mem_range.mp hw)]
      by_cases h : 65536 ≤ discarded m sh + w <;> simp [h]
    rw [List.filter_congr hup]
    exact length_filter_range_le_add (discarded_lt m sh).le
  · rw [roundQuot_sr hr, discarded_eq_zero h, if_neg (by omega)]

/-! ### The fixed pairwise sum (R51) -/

/-- R51's combination of two adjacent entries, absent ones being `none`. -/
def pairEntry (f : BitVec 32 → BitVec 32 → BitVec 32) : Option (BitVec 32) → Option (BitVec 32) → Option (BitVec 32)
  | some a, some b => some (f a b)
  | some a, none => some a
  | none, b => b

theorem padTree_succ (f : BitVec 32 → BitVec 32 → BitVec 32) (n : Nat) (v : Nat → Option (BitVec 32)) (i : Nat) :
    padTree f (n + 1) v i = pairEntry f (padTree f n v i) (padTree f n v (i + 2 ^ n)) := by
  rw [padTree]
  cases padTree f n v i <;> cases padTree f n v (i + 2 ^ n) <;> rfl

/-- The tree over 2^(n+1) entries is the tree over the 2^n combinations of adjacent pairs: one pass of R51's loop. -/
theorem padTree_succ_eq_padTree_pairs (f : BitVec 32 → BitVec 32 → BitVec 32) (v : Nat → Option (BitVec 32)) (n i : Nat) :
    padTree f (n + 1) v (2 * i) = padTree f n (fun j => pairEntry f (v (2 * j)) (v (2 * j + 1))) i := by
  induction n generalizing i with
  | zero => exact padTree_succ f 0 v (2 * i)
  | succ n ih =>
    have hright : 2 * i + 2 ^ (n + 1) = 2 * (i + 2 ^ n) := by ring
    rw [padTree_succ f (n + 1), hright, ih, ih, ← padTree_succ]

/-- Entry j of a level is R51's combination of the entries 2j and 2j + 1 below it. -/
theorem getElem?_pairLevel (f : BitVec 32 → BitVec 32 → BitVec 32) :
    ∀ (l : List (BitVec 32)) (j : Nat), (pairLevel f l)[j]? = pairEntry f l[2 * j]? l[2 * j + 1]?
  | [], _ => rfl
  | [_], 0 => rfl
  | [_], _ + 1 => rfl
  | _ :: _ :: _, 0 => rfl
  | _ :: _ :: r, j + 1 => getElem?_pairLevel f r j

theorem length_pairLevel {α : Type} (f : α → α → α) : ∀ l : List α, (pairLevel f l).length = (l.length + 1) / 2
  | [] => by simp [pairLevel]
  | [_] => by simp [pairLevel]
  | _ :: _ :: r => by
    rw [pairLevel, List.length_cons, length_pairLevel f r, List.length_cons, List.length_cons]
    omega

/-- With fuel for its length, a tree is the tree of its lowest level; a list of at most one value is its own lowest level. -/
theorem pairTree_eq_pairTree_pairLevel {α : Type} (f : α → α → α) {k : Nat} {l : List α} (hk : l.length ≤ k) :
    ∃ k', (pairLevel f l).length ≤ k' ∧ pairTree f k l = pairTree f k' (pairLevel f l) := by
  match l, k, hk with
  | [], k, hk | [_], k, hk => exact ⟨k, hk, rfl⟩
  | a :: b :: r, k + 1, hk =>
    refine ⟨k, ?_, rfl⟩
    rw [List.length_cons, List.length_cons] at hk
    rw [length_pairLevel, List.length_cons, List.length_cons]
    omega

/-- The tree by levels gives the root of the padded tree, absent for the empty list. -/
theorem head?_pairTree (f : BitVec 32 → BitVec 32 → BitVec 32) {n k : Nat} {l : List (BitVec 32)}
    (hn : l.length ≤ 2 ^ n) (hk : l.length ≤ k) : (pairTree f k l).head? = padTree f n (fun i => l[i]?) 0 := by
  induction n generalizing k l with
  | zero =>
    match l, k with
    | [], k | [a], k => cases k <;> rfl
  | succ n ih =>
    obtain ⟨k', hk', heq⟩ := pairTree_eq_pairTree_pairLevel f hk
    have hn' : (pairLevel f l).length ≤ 2 ^ n := by rw [length_pairLevel]; omega
    rw [heq, ih hn' hk', ← Nat.mul_zero 2, padTree_succ_eq_padTree_pairs]
    simp only [getElem?_pairLevel]

/-- Settles O6: level by level, each pass of R51's loop over the padded entries is one level of the model's tree. -/
theorem pairwiseSum : Obligations.PairwiseSum := by
  unfold Obligations.PairwiseSum
  intro f l n hn
  rw [pairReduce, List.headD_eq_head?_getD, head?_pairTree f hn le_rfl]

end Sys2Proof.Machine
end


section
/-! SUPPORT. The pavilion array: what an ADD leaves (R70), the bits and fields of the committed map (R73, R83), the beginning and the
end of a pavilion's reset (R80 to R83); and the settled obligations about them. -/

namespace Sys2Proof.Machine

open Sys2Proof

/-! ### One field written -/

theorem State.sameRegsBut_setFld (s : State) (f : Fld) (v : Nat) : s.sameRegsBut (s.setFld f v) [f.off] :=
  fun o ho => State.reg_setFld_other s f v o (List.ne_of_not_mem_cons ho)

/-- A one-bit field written with a bit reads as that bit. -/
theorem State.flag_setFld_b2n (s : State) {f : Fld} (hw : f.w = 1) (hlo : f.lo < 64) (b : Bool) : (s.setFld f (b2n b)).flag f = b := by
  rw [State.flag, State.fld_setFld_same s f _ (by omega), hw]
  cases b <;> rfl

theorem State.flag_raise_same (s : State) {f : Fld} (hw : f.w = 1) (hlo : f.lo < 64) : (s.raise f).flag f = true :=
  s.flag_setFld_b2n hw hlo true

/-- A flag of another register stays as it is. -/
theorem State.flag_setFld_off (s : State) {f g : Fld} (v : Nat) (h : g.off ≠ f.off) : (s.setFld f v).flag g = s.flag g := by
  rw [State.flag, State.fld_setFld_off s f g v h, State.flag]

@[simp] theorem State.flag_setPav (s : State) (p : Fin 144) (x : Pav) (f : Fld) : (s.setPav p x).flag f = s.flag f := rfl

/-- The map in force depends on the registers of the map alone (R73). -/
theorem State.phys?_congr {s t : State} {l : Nat} (h : t.reg (rPAV_MAP l) = s.reg (rPAV_MAP l)) : t.phys? l = s.phys? l := by
  have hfld : ∀ f : Fld, f.off = rPAV_MAP l → t.fld f = s.fld f := fun f hf => by rw [State.fld, State.fld, hf, h]
  simp only [State.phys?, State.flag, hfld (fPAV_MAP_VALID l) rfl, hfld (fPAV_MAP_PHYS l) rfl]
  rfl

theorem State.phys?_setFld {s : State} {f : Fld} {v l : Nat} (h : rPAV_MAP l ≠ f.off) : (s.setFld f v).phys? l = s.phys? l :=
  State.phys?_congr (State.reg_setFld_other s f v _ h)

/-! ### Semaphores (R70) -/

/-- R70's three cases of an ADD: below 0, above 0xFFFF_FFFF, in range. -/
theorem semSum_cases (v : BitVec 32) (a : BitVec 16) :
    ((v.toNat : Int) + a.toInt < 0 ∧ semSum v a = (0, true)) ∨
    (0xFFFFFFFF < (v.toNat : Int) + a.toInt ∧ semSum v a = (0xFFFFFFFF, true)) ∨
    ((0 ≤ (v.toNat : Int) + a.toInt ∧ (v.toNat : Int) + a.toInt ≤ 0xFFFFFFFF) ∧
      semSum v a = (BitVec.ofNat 32 ((v.toNat : Int) + a.toInt).toNat, false)) := by
  unfold semSum
  dsimp only
  generalize (v.toNat : Int) + a.toInt = t
  by_cases hneg : t < 0
  · exact .inl ⟨hneg, if_pos hneg⟩
  · by_cases hbig : 0xFFFFFFFF < t
    · exact .inr (.inl ⟨hbig, by rw [if_neg hneg, if_pos hbig]⟩)
    · exact .inr (.inr ⟨by omega, by rw [if_neg hneg, if_neg hbig]⟩)

/-- A pavilion with one semaphore set. -/
def Pav.setSem (x : Pav) (m : Fin 64) (v : BitVec 32) : Pav := { x with sems := x.sems.set m v }

@[simp] theorem Pav.setSem_sems_same (x : Pav) (m : Fin 64) (v : BitVec 32) : (x.setSem m v).sems[m] = v := by
  simp [Pav.setSem]

theorem Pav.setSem_sems_other (x : Pav) {m i : Fin 64} (v : BitVec 32) (h : i ≠ m) : (x.setSem m v).sems[i] = x.sems[i] := by
  simp only [Pav.setSem, Fin.getElem_fin]
  exact Vector.getElem_set_ne _ _ fun e => h (Fin.ext e.symm)

/-- An ADD to a present pavilion sets its semaphore to the saturated sum, and SEM_SAT if it saturated. -/
theorem State.semAdd_of_phys {s : State} {l : Nat} {p : Fin 144} (h : s.phys? l = some p) (m : Fin 64) (a : BitVec 16) :
    s.semAdd l m a =
      if (semSum (s.pav p).sems[m] a).2 then
        (s.setPav p ((s.pav p).setSem m (semSum (s.pav p).sems[m] a).1)).raise fPAV_ERR_SEM_SAT
      else s.setPav p ((s.pav p).setSem m (semSum (s.pav p).sems[m] a).1) := by
  rw [State.semAdd, h]
  rfl

/-- What an ADD leaves: the pavilions with one semaphore set, and at most registers beside them. -/
theorem State.semAdd_pavs {s : State} {l : Nat} {p : Fin 144} (h : s.phys? l = some p) (m : Fin 64) (a : BitVec 16) :
    (s.semAdd l m a).pavs = s.pavs.set p ((s.pav p).setSem m (semSum (s.pav p).sems[m] a).1) := by
  rw [State.semAdd_of_phys h]
  split <;> rfl

theorem State.semAdd_frame {s : State} {l : Nat} {p : Fin 144} (h : s.phys? l = some p) (m : Fin 64) (a : BitVec 16) :
    s.semAdd l m a = { s with pavs := (s.semAdd l m a).pavs, regs := (s.semAdd l m a).regs } := by
  rw [State.semAdd_of_phys h]
  split <;> rfl

theorem State.pav_semAdd {s : State} {l : Nat} {p : Fin 144} (h : s.phys? l = some p) (m : Fin 64) (a : BitVec 16) (q : Fin 144) :
    (s.semAdd l m a).pav q = if q = p then (s.pav p).setSem m (semSum (s.pav p).sems[m] a).1 else s.pav q := by
  rw [← State.pav_setPav, State.pav, State.semAdd_pavs h]
  rfl

/-- An ADD that saturates raises SEM_SAT and changes no other register; one that does not changes none. -/
theorem State.semAdd_regs {s : State} {l : Nat} {p : Fin 144} (h : s.phys? l = some p) (m : Fin 64) (a : BitVec 16) :
    ((semSum (s.pav p).sems[m] a).2 = false → (s.semAdd l m a).regs = s.regs) ∧
    ((semSum (s.pav p).sems[m] a).2 = true → (s.semAdd l m a).flag fPAV_ERR_SEM_SAT = true ∧
      s.sameRegsBut (s.semAdd l m a) [fPAV_ERR_SEM_SAT.off]) := by
  rw [State.semAdd_of_phys h]
  refine ⟨fun hf => ?_, fun ht => ?_⟩
  · rw [hf]
    rfl
  · rw [if_pos ht]
    exact ⟨State.flag_raise_same _ rfl (by decide), State.sameRegsBut_setFld _ _ _⟩

/-- Settles O57: the sum falls in one of R70's three cases, and the ADD writes that case's value and flag. -/
theorem semaphoreSaturation : Obligations.SemaphoreSaturation := by
  unfold Obligations.SemaphoreSaturation
  intro s l p m a hp t v
  have hother : ∀ q, q ≠ p → t.pav q = s.pav q := fun q hq => by rw [State.pav_semAdd hp, if_neg hq]
  have hpav : t.pav p = (s.pav p).setSem m (semSum (s.pav p).sems[m] a).1 := by rw [State.pav_semAdd hp, if_pos rfl]
  have hsem : (t.pav p).sems[m] = (semSum (s.pav p).sems[m] a).1 := by rw [hpav, Pav.setSem_sems_same]
  obtain ⟨hkeep, hsat⟩ := State.semAdd_regs hp m a
  refine ⟨State.semAdd_frame hp m a, hother, by rw [hpav]; rfl, fun i hi => by rw [hpav, Pav.setSem_sems_other _ _ hi], ?_⟩
  rw [hsem]
  obtain ⟨hv, hr⟩ | ⟨hv, hr⟩ | ⟨⟨h0, h1⟩, hr⟩ := semSum_cases (s.pav p).sems[m] a
  · rw [hr] at hsat ⊢
    exact ⟨fun h => by omega, fun _ => rfl, fun h => by omega, fun _ => hsat rfl⟩
  · rw [hr] at hsat ⊢
    exact ⟨fun _ => rfl, fun h => by omega, fun _ h => by omega, fun _ => hsat rfl⟩
  · rw [hr] at hkeep ⊢
    refine ⟨fun h => by omega, fun h => by omega, fun _ _ => ⟨?_, hkeep rfl⟩, fun h => by omega⟩
    rw [BitVec.toNat_ofNat, Nat.mod_eq_of_lt (by omega)]
    exact Int.toNat_of_nonneg h0

/-! ### The working pavilions (R73) -/

theorem State.mem_working {s : State} {t : Nat} {p : Fin 144} : p ∈ s.working t ↔ p.val / 9 = t ∧ (s.pav p).excluded = false := by
  simp [State.working]

theorem State.nodup_working (s : State) (t : Nat) : (s.working t).Nodup := (List.nodup_finRange 144).filter _

/-- A pavilion stands at one place of one terrace: it has at most one logical number. -/
theorem State.working_place_unique {s : State} {l m : Nat} {p : Fin 144} (hl : (s.working (l / 8))[l % 8]? = some p)
    (hm : (s.working (m / 8))[m % 8]? = some p) : l = m := by
  have hlt : p.val / 9 = l / 8 := (State.mem_working.mp (List.mem_of_getElem? hl)).1
  have hmt : p.val / 9 = m / 8 := (State.mem_working.mp (List.mem_of_getElem? hm)).1
  have hterrace : l / 8 = m / 8 := hlt.symm.trans hmt
  obtain ⟨hlen, -⟩ := List.getElem?_eq_some_iff.mp hl
  have hplace : l % 8 = m % 8 :=
    (List.getElem?_inj hlen (s.nodup_working _)).mp (hl.trans (hterrace ▸ hm).symm)
  omega

/-! ### The fields of a map entry (R83) -/

theorem bitsOf_zero (lo w : Nat) : bitsOf 0 lo w = 0 := by rw [bitsOf, Nat.zero_div, Nat.zero_mod]

/-- The entry of an absent pavilion, and no other, is 0. -/
theorem State.mapEntry_eq_zero_iff (s : State) (l : Nat) : s.mapEntry l = 0 ↔ (s.working (l / 8))[l % 8]? = none := by
  unfold State.mapEntry
  split
  · next p hp => rw [hp]; simp
  · next hn => simp [hn]

theorem stopX_lt (p : Fin 144) : stopX p.val < 8 := by unfold stopX; omega
theorem stopY_lt (p : Fin 144) : stopY p.val < 8 := by unfold stopY; omega

/-- R83's fields of an entry, packed side by side below VALID. -/
theorem bitsOf_packed {t y x p : Nat} (ht : t < 16) (hy : y < 8) (hx : x < 8) (hp : p < 256) :
    let e := 2 ^ 31 + t * 65536 + y * 4096 + x * 256 + p
    bitsOf e 31 1 = 1 ∧ bitsOf e 12 3 = y ∧ bitsOf e 8 3 = x ∧ bitsOf e 0 8 = p ∧ e < 2 ^ 64 := by
  simp only [bitsOf]
  refine ⟨?_, ?_, ?_, ?_, ?_⟩ <;> omega

/-- The entry of a present pavilion is valid, names its stop and its physical number, and fits a register. -/
theorem State.mapEntry_fields {s : State} {l : Nat} {p : Fin 144} (h : (s.working (l / 8))[l % 8]? = some p) :
    bitsOf (s.mapEntry l) 31 1 = 1 ∧ bitsOf (s.mapEntry l) 12 3 = stopY p.val ∧ bitsOf (s.mapEntry l) 8 3 = stopX p.val ∧
      bitsOf (s.mapEntry l) 0 8 = p.val ∧ s.mapEntry l < 2 ^ 64 := by
  have hterrace : p.val / 9 = l / 8 := (State.mem_working.mp (List.mem_of_getElem? h)).1
  have hl : l / 8 < 16 := by omega
  have hx := stopX_lt p
  have hy := stopY_lt p
  have he : s.mapEntry l = 2 ^ 31 + (l / 8) * 65536 + stopY p.val * 4096 + stopX p.val * 256 + p.val := by
    rw [State.mapEntry, h]
  rw [he]
  exact bitsOf_packed hl hy hx (by omega)

/-! ### A mask of bits -/

/-- The number whose bit i is f i, for i below n. -/
def bitMask (f : Nat → Nat) (n : Nat) : Nat := (List.range n).foldl (fun a i => a + f i * 2 ^ i) 0

theorem bitMask_succ (f : Nat → Nat) (n : Nat) : bitMask f (n + 1) = bitMask f n + f n * 2 ^ n := by
  simp [bitMask, List.range_succ]

theorem bitMask_lt {f : Nat → Nat} (hf : ∀ i, f i < 2) (n : Nat) : bitMask f n < 2 ^ n := by
  induction n with
  | zero => exact Nat.one_pos
  | succ n ih =>
    rw [bitMask_succ, Nat.add_comm, Nat.add_comm n 1]
    have := parts_lt (f n) (bitMask f n) n 1 (hf n) ih
    rwa [Nat.add_comm 1 n]

theorem bitOf_eq_testBit (n i : Nat) : bitOf n i = n.testBit i := (Nat.testBit_eq_decide_div_mod_eq).symm

theorem bitOf_bitMask {f : Nat → Nat} (hf : ∀ i, f i < 2) {i n : Nat} (hi : i < n) : bitOf (bitMask f n) i = decide (f i = 1) := by
  rw [bitOf_eq_testBit]
  induction n with
  | zero => omega
  | succ n ih =>
    rw [bitMask_succ, Nat.add_comm, Nat.mul_comm, Nat.testBit_two_pow_mul_add _ (bitMask_lt hf n)]
    by_cases h : i < n
    · rw [if_pos h, ih h]
    · obtain rfl : i = n := by omega
      have := hf i
      rw [if_neg h, Nat.sub_self, Nat.testBit_zero]
      congr 1
      exact propext (by omega)

/-! ### The committed map -/

/-- A run of register writes leaves every other register. -/
theorem State.reg_foldl_setReg_other {k : Nat → Nat} {v : Nat → BitVec 64} {o : Nat} {ls : List Nat} (h : ∀ i ∈ ls, o ≠ k i)
    (s : State) :
    (ls.foldl (fun t i => t.setReg (k i) (v i)) s).reg o = s.reg o := by
  induction ls generalizing s with
  | nil => rfl
  | cons i r ih =>
    rw [List.foldl_cons, ih fun j hj => h j (List.mem_cons_of_mem _ hj), State.reg_setReg_other _ _ _ _ (h i List.mem_cons_self)]

/-- A run of writes to different registers leaves in each what was written to it. -/
theorem State.reg_foldl_setReg_mem {k : Nat → Nat} {v : Nat → BitVec 64} (hk : Function.Injective k) {ls : List Nat} (hn : ls.Nodup)
    {i : Nat} (hi : i ∈ ls) (s : State) : (ls.foldl (fun t i => t.setReg (k i) (v i)) s).reg (k i) = v i := by
  induction ls generalizing s with
  | nil => cases hi
  | cons j r ih =>
    obtain ⟨hj, hr⟩ := List.nodup_cons.mp hn
    obtain rfl | hi := List.mem_cons.mp hi
    · rw [List.foldl_cons, State.reg_foldl_setReg_other (fun m hm e => hj (by rwa [hk e])), State.reg_setReg_same]
    · exact ih hr hi _

theorem State.foldl_setReg_frame (k : Nat → Nat) (v : Nat → BitVec 64) (ls : List Nat) (s : State) :
    ls.foldl (fun t i => t.setReg (k i) (v i)) s = { s with regs := (ls.foldl (fun t i => t.setReg (k i) (v i)) s).regs } := by
  induction ls generalizing s with
  | nil => rfl
  | cons i r ih => exact ih _

/-- A field written after changes of the registers alone is one more such change. -/
theorem State.setFld_frame {s t : State} (h : t = { s with regs := t.regs }) (f : Fld) (v : Nat) :
    t.setFld f v = { s with regs := (t.setFld f v).regs } :=
  congrArg (fun u : State => { u with regs := (t.setFld f v).regs }) h

theorem State.buildMap_frame (s : State) : s.buildMap = { s with regs := s.buildMap.regs } := by
  unfold State.buildMap
  dsimp only
  exact State.setFld_frame (State.setFld_frame (State.setFld_frame (State.setFld_frame (State.setFld_frame (State.setFld_frame
    (State.foldl_setReg_frame _ _ _ s) _ _) _ _) _ _) _ _) _ _) _ _

theorem rPAV_MAP_injective : Function.Injective rPAV_MAP := fun i j h => by
  unfold rPAV_MAP at h
  omega

/-- The list of the map's entries, read at a logical pavilion. -/
theorem State.mapEntries_getD (s : State) {l : Nat} (hl : l < 128) :
    ((List.range 128).map (fun l => s.mapEntry l)).getD l 0 = s.mapEntry l := by
  simp [List.getD, hl]

/-- The other PAV registers lie below the map. -/
theorem State.reg_map_setFld (s : State) {f : Fld} (h : f.off < 0x101000) (v l : Nat) :
    (s.setFld f v).reg (rPAV_MAP l) = s.reg (rPAV_MAP l) :=
  State.reg_setFld_other s f v _ (by unfold rPAV_MAP; omega)

theorem State.reg_map_buildMap (s : State) (l : Fin 128) : s.buildMap.reg (rPAV_MAP l.val) = BitVec.ofNat 64 (s.mapEntry l.val) := by
  unfold State.buildMap
  simp (disch := decide) only [State.reg_map_setFld]
  rw [State.reg_foldl_setReg_mem (v := fun l => BitVec.ofNat 64 (((List.range 128).map (fun l => s.mapEntry l)).getD l 0))
    rPAV_MAP_injective List.nodup_range (List.mem_range.mpr l.isLt), State.mapEntries_getD s l.isLt]

/-- The fields of the committed map are those of its entries. -/
theorem State.fld_map_buildMap {s : State} {l : Fin 128} (hlt : s.mapEntry l.val < 2 ^ 64) {f : Fld} (hf : f.off = rPAV_MAP l.val) :
    s.buildMap.fld f = bitsOf (s.mapEntry l.val) f.lo f.w := by
  rw [State.fld, hf, State.reg_map_buildMap, BitVec.toNat_ofNat, Nat.mod_eq_of_lt hlt]

/-- R73: the committed map names the working pavilion at its place in the terrace, or none. -/
theorem State.phys?_buildMap (s : State) (l : Fin 128) : s.buildMap.phys? l.val = (s.working (l.val / 8))[l.val % 8]? := by
  cases hw : (s.working (l.val / 8))[l.val % 8]? with
  | none =>
    have hzero := (s.mapEntry_eq_zero_iff l.val).mpr hw
    have hvalid : s.buildMap.fld (fPAV_MAP_VALID l.val) = 0 := by
      rw [State.fld_map_buildMap (by rw [hzero]; decide) rfl, hzero]
      exact bitsOf_zero _ _
    rw [State.phys?, State.flag, hvalid]
    rfl
  | some p =>
    obtain ⟨hv, -, -, hp, hlt⟩ := State.mapEntry_fields hw
    have hvalid : s.buildMap.fld (fPAV_MAP_VALID l.val) = 1 := (State.fld_map_buildMap hlt rfl).trans hv
    have hphys : s.buildMap.fld (fPAV_MAP_PHYS l.val) = p.val := (State.fld_map_buildMap hlt rfl).trans hp
    simp [State.phys?, State.flag, hvalid, hphys]

/-- The presence of a logical pavilion in the map built anew, as a bit. -/
def State.mapBit (s : State) (l : Nat) : Nat := if ((List.range 128).map (fun l => s.mapEntry l)).getD l 0 = 0 then 0 else 1

theorem State.mapBit_lt_two (s : State) (l : Nat) : s.mapBit l < 2 := by
  unfold State.mapBit
  split <;> decide

theorem State.mapBit_eq_one_iff (s : State) (l : Fin 128) : s.mapBit l.val = 1 ↔ (s.buildMap.phys? l.val).isSome = true := by
  rw [State.mapBit, State.mapEntries_getD s l.isLt, State.phys?_buildMap, Option.isSome_iff_ne_none, ne_eq, ← State.mapEntry_eq_zero_iff]
  by_cases h : s.mapEntry l.val = 0 <;> simp [h]

theorem State.present0_buildMap (s : State) : s.buildMap.fld fPAV_PRESENT0_BITS = bitMask s.mapBit 64 := by
  unfold State.buildMap
  simp (disch := decide) only [State.fld_setFld_off, State.fld_setFld_same]
  exact Nat.mod_eq_of_lt (bitMask_lt s.mapBit_lt_two 64)

theorem State.present1_buildMap (s : State) : s.buildMap.fld fPAV_PRESENT1_BITS = bitMask (fun i => s.mapBit (64 + i)) 64 := by
  unfold State.buildMap
  simp (disch := decide) only [State.fld_setFld_off, State.fld_setFld_same]
  exact Nat.mod_eq_of_lt (bitMask_lt (fun i => s.mapBit_lt_two (64 + i)) 64)

/-- R83: the presence registers hold the bit of each logical pavilion. -/
theorem State.bitOf_present_buildMap (s : State) (l : Fin 128) :
    bitOf (if l.val < 64 then s.buildMap.fld fPAV_PRESENT0_BITS else s.buildMap.fld fPAV_PRESENT1_BITS) (l.val % 64) = true ↔
      (s.buildMap.phys? l.val).isSome = true := by
  have hi : l.val % 64 < 64 := Nat.mod_lt _ (by decide)
  rw [← State.mapBit_eq_one_iff]
  split
  · next h => rw [State.present0_buildMap, bitOf_bitMask s.mapBit_lt_two hi, decide_eq_true_eq, Nat.mod_eq_of_lt h]
  · next h =>
    rw [State.present1_buildMap, bitOf_bitMask (fun i => s.mapBit_lt_two (64 + i)) hi, decide_eq_true_eq,
      show 64 + l.val % 64 = l.val by omega]

theorem exec_mapCommit (s : State) : exec .mapCommit s = if s.running ∨ s.mapBusy then .next s else .next s.buildMap := rfl

/-- The logical map (R73, R75, R83): the commit writes the map of the working pavilions, or is refused. -/
theorem clause_logicalMap : Clause.logicalMap := by
  unfold Clause.logicalMap
  intro s
  refine ⟨fun h => by rw [exec_mapCommit, if_pos h], fun hrun hbusy => ?_⟩
  refine ⟨s.buildMap, ?_, s.buildMap_frame, ?_, ?_, ?_, s.bitOf_present_buildMap⟩
  · rw [exec_mapCommit, if_neg (by simp [hrun, hbusy])]
  · intro l p
    rw [State.phys?_buildMap]
  · intro l p hp
    rw [State.phys?_buildMap] at hp
    obtain ⟨hterrace, hgood⟩ := State.mem_working.mp (List.mem_of_getElem? hp)
    obtain ⟨-, hy, hx, -, hlt⟩ := State.mapEntry_fields hp
    exact ⟨hterrace, hgood, (State.fld_map_buildMap hlt rfl).trans hx, (State.fld_map_buildMap hlt rfl).trans hy⟩
  · intro l m p hl hm
    rw [State.phys?_buildMap] at hl hm
    exact Fin.ext (State.working_place_unique hl hm)

/-! ### The beginning of a reset (R80, R81, R83) -/

theorem State.beginPavReset_of_phys {s : State} {l : Nat} {p : Fin 144} (h : s.phys? l = some p) :
    s.beginPavReset l = s.setPav p (s.pav p).beginReset := by
  rw [State.beginPavReset, h]

/-- BUSY and LAST show the reset of a pavilion (R83). -/
def State.showReset (s : State) (l : Nat) : State := (s.setFld fPAV_RST_STATUS_LAST l).raise fPAV_RST_STATUS_BUSY

theorem State.phys?_showReset (s : State) (k l : Nat) : (s.showReset k).phys? l = s.phys? l := by
  have hmap : rPAV_MAP l ≠ rPAV_RST_STATUS := by unfold rPAV_MAP rPAV_RST_STATUS; omega
  exact (State.phys?_setFld hmap).trans (State.phys?_setFld hmap)

theorem State.fld_showReset_off (s : State) (l : Nat) {g : Fld} (h : g.off ≠ rPAV_RST_STATUS) : (s.showReset l).fld g = s.fld g :=
  (State.fld_setFld_off _ fPAV_RST_STATUS_BUSY g 1 h).trans (State.fld_setFld_off s fPAV_RST_STATUS_LAST g l h)

theorem State.busy_showReset (s : State) (l : Nat) : (s.showReset l).flag fPAV_RST_STATUS_BUSY = true :=
  State.flag_raise_same _ rfl (by decide)

theorem State.last_showReset (s : State) {l : Nat} (hl : l < 128) : (s.showReset l).fld fPAV_RST_STATUS_LAST = l := by
  have hbusy : (s.showReset l).fld fPAV_RST_STATUS_LAST = (s.setFld fPAV_RST_STATUS_LAST l).fld fPAV_RST_STATUS_LAST :=
    State.fld_setFld_bits _ fPAV_RST_STATUS_BUSY fPAV_RST_STATUS_LAST 1 (by decide) rfl (by decide)
  rw [hbusy, State.fld_setFld_same _ _ _ (by decide)]
  exact Nat.mod_eq_of_lt (by simp only [fPAV_RST_STATUS_LAST]; omega)

/-- The reset of a present pavilion that is neither coupled nor bound: the loads end, BUSY and LAST show it, the pavilion begins its
reset, and PAV_PAIR is written with what it held. -/
theorem State.startPavReset_of_single {s : State} {l : Nat} {p : Fin 144} (hp : s.phys? l = some p) (hc : s.coupled l = false)
    (hb : s.bound l = false) :
    s.startPavReset l = (((s.resetLoads [l]).showReset l).setPav p (s.pav p).beginReset).setFld fPAV_PAIR_BITS (s.fld fPAV_PAIR_BITS) := by
  have hset : s.resetSet l = [l] := by rw [State.resetSet, hc]; rfl
  have hbegin : ((s.resetLoads [l]).showReset l).beginPavReset l = ((s.resetLoads [l]).showReset l).setPav p (s.pav p).beginReset :=
    State.beginPavReset_of_phys ((State.phys?_showReset _ l l).trans hp)
  have hpair : (((s.resetLoads [l]).showReset l).setPav p (s.pav p).beginReset).fld fPAV_PAIR_BITS = s.fld fPAV_PAIR_BITS :=
    State.fld_showReset_off (s.resetLoads [l]) l (by decide)
  simp only [State.startPavReset, hset, hc, hb, List.any_cons, List.any_nil, Bool.or_self, Bool.false_eq_true, if_false, List.foldl_cons,
    List.foldl_nil, Nat.sub_zero]
  rw [← State.showReset, hbegin, hpair]

/-- The beginning of a reset writes pavilions, registers and loads alone. -/
theorem State.startPavReset_frame {s : State} {l : Nat} {p : Fin 144} (hp : s.phys? l = some p) (hc : s.coupled l = false)
    (hb : s.bound l = false) :
    s.startPavReset l =
      { s with pavs := (s.startPavReset l).pavs, regs := (s.startPavReset l).regs, ldg := (s.startPavReset l).ldg } := by
  rw [State.startPavReset_of_single hp hc hb]
  rfl

/-! ### The end of a reset (R80, R83) -/

/-- A map with the entries of some keys dropped reads as the default there, and as before elsewhere. -/
theorem smGet_filter_keys {α : Type} (d : Nat → α) (m : SMap α) (c : Nat → Bool) (k : Nat) :
    smGet d (m.filter (fun e => c e.1)) k = if c k then smGet d m k else d k := by
  induction m with
  | nil => simp [smGet]
  | cons e r ih =>
    obtain ⟨a, b⟩ := e
    by_cases hc : c a
    · by_cases ha : a = k
      · subst ha
        simp [hc, smGet]
      · simp [hc, smGet, ha, ih]
    · by_cases ha : a = k
      · subst ha
        simp [hc, ih]
      · simp [hc, smGet, ha, ih]

/-- Clearing a pavilion's scratch clears its bytes and no other's. -/
theorem State.sbyte_clearScratch (s : State) (p q : Fin 144) {k : Nat} (hk : k < 0x200000) :
    (s.clearScratch p).sbyte q k = if q = p then 0 else s.sbyte q k := by
  have hpav : (q.val * 0x200000 + k) / 0x200000 = q.val := by omega
  unfold State.sbyte State.clearScratch
  rw [smGet_filter_keys memDefault s.scratch (fun a => decide (a / 0x200000 ≠ p.val)), hpav]
  by_cases h : q = p
  · simp [h, memDefault]
  · simp [h, Fin.val_ne_of_ne h]

/-- Physical pavilion `p` is cleared, as at the end of its reset. -/
def State.clearPav (s : State) (p : Fin 144) : State := (s.clearScratch p).setPav p (s.pav p).endReset

theorem State.endPavReset_of_refusing {s : State} {l : Nat} {p : Fin 144} (hp : s.phys? l = some p) (hr : (s.pav p).refusing = true) :
    s.endPavReset l = s.clearPav p := by
  rw [State.endPavReset, hp]
  exact if_pos hr

/-- Nothing ends where the logical pavilion is absent or not being reset. -/
theorem State.endPavReset_of_not_refusing {s : State} {l : Nat} (h : ∀ q, s.phys? l = some q → (s.pav q).refusing = false) :
    s.endPavReset l = s := by
  unfold State.endPavReset
  split
  · rfl
  · next q hq => rw [h q hq]; rfl

theorem State.pav_clearPav (s : State) (p q : Fin 144) : (s.clearPav p).pav q = if q = p then (s.pav p).endReset else s.pav q :=
  State.pav_setPav _ _ _ _

/-- No pavilion is being reset once the only one that was has been cleared. -/
theorem State.refusing_clearPav {s : State} {p : Fin 144} (h : ∀ r, r ≠ p → (s.pav r).refusing = false) (q : Fin 144) :
    ((s.clearPav p).pav q).refusing = false := by
  rw [State.pav_clearPav]
  split
  · rfl
  · next hq => exact h q hq

/-- Where one pavilion alone is being reset, ending the reset of both halves of its pair ends that one. -/
theorem State.endPavReset_pair {s : State} {l : Nat} {p : Fin 144} (hp : s.phys? l = some p) (hr : (s.pav p).refusing = true)
    (hone : ∀ r, r ≠ p → (s.pav r).refusing = false) :
    (s.endPavReset (l / 2 * 2)).endPavReset (l / 2 * 2 + 1) = s.clearPav p := by
  have hdone : ∀ k, (s.clearPav p).endPavReset k = s.clearPav p := fun k =>
    State.endPavReset_of_not_refusing fun q _ => State.refusing_clearPav hone q
  obtain heven | hodd : l / 2 * 2 = l ∨ l / 2 * 2 + 1 = l := by omega
  · rw [heven, State.endPavReset_of_refusing hp hr, hdone]
  · rw [hodd]
    by_cases hsame : s.phys? (l / 2 * 2) = some p
    · rw [State.endPavReset_of_refusing hsame hr, hdone]
    · rw [State.endPavReset_of_not_refusing fun q hq => hone q fun e => hsame (e ▸ hq), State.endPavReset_of_refusing hp hr]

theorem exec_pavResetComplete_of_single {s : State} {l : Fin 128} {p : Fin 144} (hp : s.phys? l.val = some p)
    (hr : (s.pav p).refusing = true) (hone : ∀ r, r ≠ p → (s.pav r).refusing = false) :
    exec (.pavResetComplete l) s = .next ((s.clearPav p).setFld fPAV_RST_STATUS_BUSY 0) := by
  have hnone : (s.clearPav p).pavs.toList.any (fun x => x.refusing) = false := by
    rw [List.any_eq_false]
    intro x hx
    obtain ⟨i, hi, rfl⟩ := Vector.getElem_of_mem (Vector.mem_toList_iff.mp hx)
    exact Bool.eq_false_iff.mp (State.refusing_clearPav hone ⟨i, hi⟩)
  show execPavResetComplete l s = _
  rw [execPavResetComplete, hp]
  dsimp only
  rw [if_pos hr, State.endPavReset_pair hp hr hone, hnone]
  rfl

/-! ### The reset of a pavilion -/

theorem exec_pavilionReset (v : BitVec 32) (s : State) : exec (.pavilionReset v) s = .next (s.pavRstWrite v) := rfl

theorem State.pavRstWrite_of_no_key {s : State} {v : BitVec 32} (hk : bitsOf v.toNat 16 16 ≠ 0xA55A) : s.pavRstWrite v = s := if_pos hk

section

/-! With the key, a write of PAV_RST_CTRL is dropped while BUSY, refused for an absent pavilion, and begins a reset otherwise (R83). -/

variable {s : State} {v : BitVec 32} (hk : bitsOf v.toNat 16 16 = 0xA55A)
include hk

theorem State.pavRstWrite_of_busy (hb : s.flag fPAV_RST_STATUS_BUSY = true) : s.pavRstWrite v = s.raise fPAV_ERR_RST_DROP := by
  rw [State.pavRstWrite, if_neg (not_not.mpr hk), if_pos hb]

theorem State.pavRstWrite_of_absent (hb : s.flag fPAV_RST_STATUS_BUSY = false) (hp : s.present (bitsOf v.toNat 0 8) = false) :
    s.pavRstWrite v = s.raise fPAV_ERR_RST_BAD := by
  rw [State.pavRstWrite, if_neg (not_not.mpr hk), if_neg (Bool.eq_false_iff.mp hb), if_pos hp]

theorem State.pavRstWrite_of_present (hb : s.flag fPAV_RST_STATUS_BUSY = false) (hp : s.present (bitsOf v.toNat 0 8) = true) :
    s.pavRstWrite v = s.startPavReset (bitsOf v.toNat 0 8) := by
  rw [State.pavRstWrite, if_neg (not_not.mpr hk), if_neg (Bool.eq_false_iff.mp hb), if_neg (by rw [hp]; decide)]

end

/-- The engines of a pavilion that begins its reset have empty queues. -/
theorem Pav.beginReset_queue (x : Pav) (k : Fin 8) : (x.beginReset.eng[k]).q = [] := by simp [Pav.beginReset]

/-- The NI generation outlives the end of a reset (R81). -/
theorem Pav.endReset_niGen (x : Pav) : x.endReset.niGen = x.niGen := rfl

/-- The engines of a pavilion whose reset has ended are in their reset state. -/
theorem Pav.endReset_eng (x : Pav) (k : Fin 8) : x.endReset.eng[k] = Eng.reset := by simp [Pav.endReset, Pav.reset]

/-- Pavilion reset (R80, R81, R83, R113): the cases of a write of PAV_RST_CTRL, and the end of the reset that it begins. -/
theorem clause_pavilionReset : Clause.pavilionReset := by
  unfold Clause.pavilionReset
  intro s v l p
  refine ⟨fun hk => ?_, fun hk hb => ?_, fun hk hb hp => ?_, fun hk hb hl hp hc hbound => ?_, fun hp hr hone => ?_⟩
  · rw [exec_pavilionReset, State.pavRstWrite_of_no_key hk]
  · rw [exec_pavilionReset, State.pavRstWrite_of_busy hk hb]
    exact ⟨_, rfl, rfl, State.sameRegsBut_setFld _ _ _, State.flag_raise_same _ rfl (by decide)⟩
  · rw [exec_pavilionReset, State.pavRstWrite_of_absent hk hb hp]
    exact ⟨_, rfl, rfl, State.sameRegsBut_setFld _ _ _, State.flag_raise_same _ rfl (by decide)⟩
  · have hpresent : s.present (bitsOf v.toNat 0 8) = true := by simp [State.present, hl, hp]
    rw [exec_pavilionReset, State.pavRstWrite_of_present hk hb hpresent, hl]
    refine ⟨_, rfl, State.startPavReset_frame hp hc hbound, ?_⟩
    rw [State.startPavReset_of_single hp hc hbound]
    refine ⟨?_, ?_, fun q hq => State.pav_setPav_other s p q _ hq, ?_⟩
    · simp (disch := decide) only [State.flag_setFld_off, State.flag_setPav, State.busy_showReset]
    · simp (disch := decide) only [State.fld_setFld_off, State.fld_setPav]
      exact State.last_showReset _ l.isLt
    · have hpav := State.pav_setPav_same s p (s.pav p).beginReset
      refine ⟨congrArg Pav.refusing hpav, congrArg Pav.niGen hpav, fun k => ?_, congrArg (fun x => x.seq.mode) hpav⟩
      exact (congrArg (fun x => x.eng[k].q) hpav).trans (Pav.beginReset_queue _ k)
  · rw [exec_pavResetComplete_of_single hp hr hone]
    have hpav : (s.clearPav p).pav p = (s.pav p).endReset := State.pav_setPav_same _ _ _
    refine ⟨_, rfl, rfl, State.flag_setFld_b2n _ rfl (by decide) false, State.sameRegsBut_setFld (s.clearPav p) _ _,
      congrArg Pav.seq hpav, fun k => ?_, congrArg Pav.sems hpav, congrArg Pav.imem hpav, congrArg Pav.dmem hpav,
      congrArg Pav.refusing hpav, (congrArg Pav.niGen hpav).trans (Pav.endReset_niGen _), fun q hq => ?_,
      fun q k hk => s.sbyte_clearScratch p q hk⟩
    · exact (congrArg (fun x => x.eng[k]) hpav).trans (Pav.endReset_eng _ k)
    · exact (s.pav_clearPav p q).trans (if_neg hq)

/-- Settles O10: the four cases of a reset request with the end of the reset, and the commit of the logical map. -/
theorem pavilionsAndMap : Obligations.PavilionsAndMap := by
  unfold Obligations.PavilionsAndMap
  exact ⟨clause_pavilionReset, clause_logicalMap⟩

end Sys2Proof.Machine
end


section
/-! SUPPORT. The encodings of Berin-16 (R90, R91, R93, R94): the fields of a word of four nibbles, decoding what the encoder wrote,
the length of what the decoder reads; and the settled obligation about them. -/

namespace Sys2Proof.Machine

open Sys2Proof

/-! ### The fields of a word -/

section

/-! A word of two nibbles and a byte that is given as c × 16 + d. -/

variable {a b c d : Nat} (ha : a < 16) (hb : b < 16) (hcd : c * 16 + d < 256)
include ha hb hcd

theorem toNat_nib : (nib a b c d).toNat = a * 4096 + b * 256 + (c * 16 + d) := by
  rw [nib, BitVec.toNat_ofNat, Nat.mod_eq_of_lt (by omega)]
  omega

theorem nib_bits12_4 : bitsOf (nib a b c d).toNat 12 4 = a := by rw [toNat_nib ha hb hcd, bitsOf]; omega
theorem nib_bits8_4 : bitsOf (nib a b c d).toNat 8 4 = b := by rw [toNat_nib ha hb hcd, bitsOf]; omega
theorem nib_bits10_2 : bitsOf (nib a b c d).toNat 10 2 = b / 4 := by rw [toNat_nib ha hb hcd, bitsOf]; omega
theorem nib_bits8_2 : bitsOf (nib a b c d).toNat 8 2 = b % 4 := by rw [toNat_nib ha hb hcd, bitsOf]; omega
theorem nib_bits4_4 : bitsOf (nib a b c d).toNat 4 4 = (c * 16 + d) / 16 := by rw [toNat_nib ha hb hcd, bitsOf]; omega
theorem nib_bits6_2 : bitsOf (nib a b c d).toNat 6 2 = (c * 16 + d) / 64 := by rw [toNat_nib ha hb hcd, bitsOf]; omega
theorem nib_bits4_2 : bitsOf (nib a b c d).toNat 4 2 = (c * 16 + d) / 16 % 4 := by rw [toNat_nib ha hb hcd, bitsOf]; omega

end

/-- An immediate of 8 bits is the low byte of its word. -/
theorem nib_byte {a b : Nat} (ha : a < 16) (hb : b < 16) (n : BitVec 8) : BitVec.ofNat 8 (nib a b 0 n.toNat).toNat = n := by
  apply BitVec.eq_of_toNat_eq
  rw [toNat_nib ha hb (by omega), BitVec.toNat_ofNat]
  omega

theorem b2n_lt_two (b : Bool) : b2n b < 2 := by cases b <;> decide

theorem finOfNat_val {m : Nat} [NeZero m] (x : Fin m) : Fin.ofNat m x.val = x := Fin.ext (Nat.mod_eq_of_lt x.isLt)

/-! ### Decoding what the encoder wrote -/

section

variable {op d : Nat} (ho : op < 16) (hd : d < 16) (m : EA)
include ho hd

theorem encEA_opcode : bitsOf (encEA op d m).1.toNat 12 4 = op := by
  cases m <;> exact nib_bits12_4 ho hd (by omega)

theorem encEA_reg : bitsOf (encEA op d m).1.toNat 8 4 = d := by
  cases m <;> exact nib_bits8_4 ho hd (by omega)

/-- An addressing mode is read from its words (R91). -/
theorem decodeEA_encEA : decodeEA (encEA op d m).1.toNat (encEA op d m).2.toNat = some m := by
  cases m with
  | disp p k | postInc p s | preDec p s =>
    simp (disch := omega) only [decodeEA, encEA, nib_bits6_2, nib_bits4_2]
    grind [toNat_nib, bitsOf, Fin.ofNat]
  | index p i s e =>
    have hw : (BitVec.ofNat 16 (i.val * 4096 + s.val * 1024 + e.toNat)).toNat = i.val * 4096 + s.val * 1024 + e.toNat := by
      rw [BitVec.toNat_ofNat]
      omega
    have he : BitVec.ofNat 10 (i.val * 4096 + s.val * 1024 + e.toNat) = e := by
      apply BitVec.eq_of_toNat_eq
      rw [BitVec.toNat_ofNat]
      omega
    simp (disch := omega) only [decodeEA, encEA, nib_bits6_2, nib_bits4_2, hw, he]
    grind [toNat_nib, bitsOf, Fin.ofNat]

end

/-- The fifteen ALU functions are read, with an immediate shift amount below 16 (R94). -/
theorem decodeAlu_of_wellFormed {f : Fin 15} {d : Fin 16} {b : AluB} (h : (BOp.alu f d b).wellFormed = true) :
    decodeAlu f.val d b = some (.alu f d b) := by
  cases b with
  | reg s =>
    simp only [decodeAlu, Bool.false_eq_true, and_false, or_false, finOfNat_val]
    rw [if_neg (by omega)]
  | imm w =>
    simp only [BOp.wellFormed, Bool.not_eq_true', Bool.and_eq_false_iff, decide_eq_false_iff_not] at h
    simp only [decodeAlu, decide_eq_true_eq, finOfNat_val]
    rw [if_neg (by omega)]

/-- Every instruction is read from its words. -/
theorem decodeBerin_encodeBerin {o : BOp} (h : o.wellFormed = true) : decodeBerin (encodeBerin o).1 (encodeBerin o).2 = some o := by
  cases o with
  | nop | waite | waitidle | fence => rfl
  | jmp t | call t => simp [decodeBerin, encodeBerin, bitsOf]
  | alu f d b =>
    rw [← decodeAlu_of_wellFormed h]
    cases b <;>
      simp (disch := omega) only [decodeBerin, encodeBerin, nib_bits12_4, nib_bits8_4, nib_bits4_4] <;>
      grind [toNat_nib, Fin.ofNat]
  | ld d m | st d m =>
    simp (disch := omega) only [decodeBerin, encodeBerin, encEA_opcode, encEA_reg, decodeEA_encEA, Option.map_some, finOfNat_val]
  | trap | rett | push | pop | cset | addi | movi | cmpi | shift | addp | addpw | cmpp | bcc | jmpr | callr | dbnz | issue =>
    simp (disch := omega) only [decodeBerin, encodeBerin, nib_bits12_4, nib_bits8_4, nib_bits10_2, nib_bits8_2, nib_bits4_4,
      nib_bits6_2, nib_bits4_2, nib_byte]
    grind [toNat_nib, Fin.ofNat]
  | addpr p i k | signal p i k =>
    have hk := b2n_lt_two k
    simp (disch := omega) only [decodeBerin, encodeBerin, nib_bits12_4, nib_bits8_4, nib_bits10_2, nib_bits8_2, nib_bits4_4]
    grind [toNat_nib, Fin.ofNat, bitOf, b2n]
  | waitc c t k =>
    have hk := b2n_lt_two k
    have hw : (encodeBerin (.waitc c t k)).1 = nib 14 (4 + 2 * b2n k + c.val / 8) (2 * (c.val % 8) + t.val / 8) (2 * (t.val % 8)) :=
      congrArg (BitVec.ofNat 16) (by omega)
    have hkind : (4 + 2 * b2n k + c.val / 8) / 4 = 1 := by omega
    simp (disch := omega) only [hw, decodeBerin, nib_bits12_4, nib_bits10_2, hkind]
    grind [toNat_nib, bitsOf, Fin.ofNat, bitOf, b2n]
  | waits m t k =>
    have hk := b2n_lt_two k
    have hw : (encodeBerin (.waits m t k)).1 = nib 14 (8 + 2 * b2n k + m.val / 32) (m.val / 2 % 16) (8 * (m.val % 2)) :=
      congrArg (BitVec.ofNat 16) (by omega)
    have hv : (encodeBerin (.waits m t k)).2.toNat = 4096 * t.val := by
      rw [encodeBerin, BitVec.toNat_ofNat]
      omega
    have hkind : (8 + 2 * b2n k + m.val / 32) / 4 = 2 := by omega
    simp (disch := omega) only [hw, hv, decodeBerin, nib_bits12_4, nib_bits10_2, hkind]
    grind [toNat_nib, bitsOf, Fin.ofNat, bitOf, b2n]

/-- The second word of an instruction of one word is 0. -/
theorem encodeBerin_snd_of_words {o : BOp} (h : o.words = 1) : (encodeBerin o).2 = 0 := by
  cases o with
  | alu f d b =>
    cases b with
    | reg => rfl
    | imm => cases h
  | ld d m | st d m =>
    cases m with
    | index => cases h
    | _ => rfl
  | addpw | jmp | call | waits => cases h
  | _ => rfl

/-! ### What the decoder reads -/

theorem words_ld (d : Fin 16) (m : EA) : (BOp.ld d m).words = eaLen m := by cases m <;> rfl
theorem words_st (d : Fin 16) (m : EA) : (BOp.st d m).words = eaLen m := by cases m <;> rfl

theorem words_of_decodeAlu {f : Nat} {d : Fin 16} {b : AluB} {o : BOp} (h : decodeAlu f d b = some o) : o.words = aluLen b := by
  unfold decodeAlu at h
  cases b <;> grind [BOp.words, aluLen]

/-- The mode with a second word is the one with 3 in bits [7:6] (R90, R91). -/
theorem eaLen_of_decodeEA {n v : Nat} {m : EA} (h : decodeEA n v = some m) : eaLen m = if bitsOf n 6 2 = 3 then 2 else 1 := by
  have hlt : bitsOf n 6 2 < 4 := Nat.mod_lt _ (by decide)
  unfold decodeEA at h
  grind [eaLen]

/-- R90's length of the first word is the number of words of the instruction read. -/
theorem instLen_of_decodeBerin {w0 w1 : BitVec 16} {o : BOp} (h : decodeBerin w0 w1 = some o) : instLen w0 = o.words := by
  have hop : bitsOf w0.toNat 12 4 < 16 := Nat.mod_lt _ (by decide)
  have h8 : bitsOf w0.toNat 8 2 < 4 := Nat.mod_lt _ (by decide)
  have h10 : bitsOf w0.toNat 10 2 < 4 := Nat.mod_lt _ (by decide)
  unfold decodeBerin at h
  dsimp only at h
  split at h
  case h_2 e =>
    rw [instLen, e, words_of_decodeAlu h]
    rfl
  case h_7 e =>
    split at h
    · rw [instLen, e, words_of_decodeAlu h]
      rfl
    · cases h
  case h_12 e =>
    simp only [instLen, e]
    grind [BOp.words, bitsOf]
  case h_8 e =>
    obtain ⟨m, hm, rfl⟩ := Option.map_eq_some_iff.mp h
    rw [instLen, e, words_ld, eaLen_of_decodeEA hm]
    rfl
  case h_9 e =>
    obtain ⟨m, hm, rfl⟩ := Option.map_eq_some_iff.mp h
    rw [instLen, e, words_st, eaLen_of_decodeEA hm]
    rfl
  all_goals
    next e =>
      simp only [instLen, e]
      grind [BOp.words]

/-- The word of TRAP #n. -/
theorem word_of_decodeBerin_trap {w0 w1 : BitVec 16} {n : Fin 16} (h : decodeBerin w0 w1 = some (.trap n)) :
    w0 = BitVec.ofNat 16 (0x0200 + n.val) := by
  have hfields : bitsOf w0.toNat 12 4 = 0 ∧ bitsOf w0.toNat 8 4 = 2 ∧ bitsOf w0.toNat 4 4 = 0 ∧ Fin.ofNat 16 w0.toNat = n := by
    unfold decodeBerin at h
    dsimp only at h
    split at h <;> grind [decodeAlu, Option.map_eq_some_iff]
  obtain ⟨hop, ha, hb, rfl⟩ := hfields
  apply BitVec.eq_of_toNat_eq
  rw [BitVec.toNat_ofNat, Fin.val_ofNat]
  simp only [bitsOf] at hop ha hb
  omega

/-- Settles O19: the decoder inverts the encoder, and R90's length of any first word that it reads is the number of words. -/
theorem berinRoundTrip : Obligations.BerinRoundTrip := by
  unfold Obligations.BerinRoundTrip
  intro o h
  have hdec := decodeBerin_encodeBerin h
  exact ⟨hdec, by rw [instLen_of_decodeBerin hdec], encodeBerin_snd_of_words⟩

end Sys2Proof.Machine
end


section
/-! SUPPORT. The Berin-16 sequencer (R84 to R96, R110 to R112): what an instruction that runs leaves, sums and differences with their
flags, shifts, address pairs, traps and halts; and the settled obligations about them. -/

namespace Sys2Proof.Machine

open Sys2Proof

/-! ### An instruction that runs -/

@[simp] theorem Seq.g_past (x : Seq) (n : Nat) (i : Fin 16) : (x.past n).g i = x.g i := rfl

/-- The flags of `y` are those that an outcome gives, and those of `x` where it gives none. -/
def Seq.took (x y : Seq) (o : AluOut) : Prop :=
  y.n = o.n.getD x.n ∧ y.z = o.z.getD x.z ∧ y.c = o.c.getD x.c ∧ y.v = o.v.getD x.v

section

variable {s : State} {l : Fin 128} {p : Fin 144} {x : Seq} {o : BOp}

/-- An instruction whose whole effect is on its sequencer. -/
theorem State.onRun_seqOp (h : s.runsOp l p x o) (g : Seq → Seq) :
    ∃ t, s.onRun l (some o) (fun p x => s.setSeq p (g x)) = .next t ∧ s.onlySeq t p (g x) :=
  State.onRun_seq h.1 h.2 _ _ rfl

/-- An instruction that writes a result and its flags, and moves on. -/
theorem State.onRun_result (h : s.runsOp l p x o) (f : Seq → AluOut) (d : Fin 16) (n : Nat) :
    ∃ t y, s.onRun l (some o) (fun p x => s.setSeq p (((x.flags (f x)).setG d (f x).r).past n)) = .next t ∧ s.onlySeq t p y ∧
      x.moved y n [d] ∧ y.g d = (f x).r ∧ x.took y (f x) := by
  obtain ⟨t, ht, hs⟩ := State.onRun_seqOp h (fun x => ((x.flags (f x)).setG d (f x).r).past n)
  exact ⟨t, _, ht, hs, ⟨rfl, fun _ hi => Seq.g_setG_other _ _ _ _ (List.ne_of_not_mem_cons hi)⟩, Seq.g_setG_same .., rfl, rfl, rfl, rfl⟩

/-- An instruction that writes flags alone, and moves on. -/
theorem State.onRun_flags (h : s.runsOp l p x o) (f : Seq → AluOut) (n : Nat) :
    ∃ t y, s.onRun l (some o) (fun p x => s.setSeq p ((x.flags (f x)).past n)) = .next t ∧ s.onlySeq t p y ∧
      x.moved y n [] ∧ x.took y (f x) := by
  obtain ⟨t, ht, hs⟩ := State.onRun_seqOp h (fun x => (x.flags (f x)).past n)
  exact ⟨t, _, ht, hs, ⟨rfl, fun _ _ => rfl⟩, rfl, rfl, rfl, rfl⟩

end

/-! ### Sums and differences (R85, R94) -/

section

variable {x y : Seq} {a b : BitVec 16}

/-- The sum of the model is R85's, with its four flags. -/
theorem sumOf_of_took {c : Bool} (h : x.took y (addOut a b c)) : sumOf y (addOut a b c).r a b (b2n c) := by
  obtain ⟨hn, hz, hc, hv⟩ := h
  have hr : (BitVec.ofNat 16 (a.toNat + b.toNat + b2n c)).toNat = (a.toNat + b.toNat + b2n c) % 65536 := BitVec.toNat_ofNat _ _
  have ha := a.isLt
  have hb := b.isLt
  have hk := b2n_lt_two c
  refine ⟨hr, ⟨hn, hz⟩, hc, hv.trans ?_⟩
  simp only [addOut, Option.getD_some, BitVec.msb_eq_decide, BitVec.toInt_eq_toNat_cond, hr]
  grind

/-- Adding the complement and a carry is subtracting, and the carry then says that no borrow occurs (R85). -/
theorem diffOf_of_took {c : Bool} (h : x.took y (addOut a (~~~b) c)) : diffOf y (addOut a (~~~b) c).r a b (1 - b2n c) := by
  obtain ⟨hr, hnz, hc, hv⟩ := sumOf_of_took h
  have hb : (~~~b).toNat = 65535 - b.toNat := BitVec.toNat_not
  have hk := b2n_lt_two c
  refine ⟨by omega, hnz, hc.trans (decide_eq_decide.mpr (by omega)), hv.trans (decide_eq_decide.mpr ?_)⟩
  simp only [BitVec.toInt_eq_toNat_cond, hb]
  omega

/-- A logical result or a product sets N and Z. -/
theorem logic_of_took {r : BitVec 16} (h : x.took y (outNZ r)) : x.logic y r := by
  obtain ⟨hn, hz, hc, hv⟩ := h
  exact ⟨⟨hn, hz⟩, hc, hv⟩

theorem sameFlags_of_took {r : BitVec 16} (h : x.took y (outPlain r)) : x.sameFlags y := h

end

/-- Sums and differences (R85, R93, R94): each row is the model's sum or difference of its operands. -/
theorem clause_sequencerSums : Clause.sequencerSums := by
  unfold Clause.sequencerSums
  intro s l p x d b n
  refine ⟨fun h => ?_, fun h => ?_, fun h => ?_, fun h => ?_, fun h => ?_, fun h => ?_, fun h => ?_⟩
  · obtain ⟨t, y, ht, hs, hm, hr, hf⟩ := State.onRun_result h (fun x => addOut (x.g d) (x.aluB b) false) d (aluLen b)
    exact ⟨t, y, ht, hs, hm, hr ▸ sumOf_of_took hf⟩
  · obtain ⟨t, y, ht, hs, hm, hr, hf⟩ := State.onRun_result h (fun x => addOut (x.g d) (x.aluB b) x.c) d (aluLen b)
    exact ⟨t, y, ht, hs, hm, hr ▸ sumOf_of_took hf⟩
  · obtain ⟨t, y, ht, hs, hm, hr, hf⟩ := State.onRun_result h (fun x => subOut (x.g d) (x.aluB b)) d (aluLen b)
    exact ⟨t, y, ht, hs, hm, hr ▸ diffOf_of_took hf⟩
  · obtain ⟨t, y, ht, hs, hm, hr, hf⟩ := State.onRun_result h (fun x => addOut (x.g d) (~~~x.aluB b) x.c) d (aluLen b)
    exact ⟨t, y, ht, hs, hm, hr ▸ diffOf_of_took hf⟩
  · obtain ⟨t, y, ht, hs, hm, hf⟩ := State.onRun_flags h (fun x => subOut (x.g d) (x.aluB b)) (aluLen b)
    exact ⟨t, y, ht, hs, hm, _, diffOf_of_took hf⟩
  · obtain ⟨t, y, ht, hs, hm, hr, hf⟩ := State.onRun_result h (fun x => addOut (x.g d) (n.signExtend 16) false) d 1
    exact ⟨t, y, ht, hs, hm, hr ▸ sumOf_of_took hf⟩
  · obtain ⟨t, y, ht, hs, hm, hf⟩ := State.onRun_flags h (fun x => subOut (x.g d) (n.signExtend 16)) 1
    exact ⟨t, y, ht, hs, hm, _, diffOf_of_took hf⟩

/-! ### Logic and moves (R93, R94) -/

/-- Logic, moves and products (R93, R94): each row is the model's result of its operands. -/
theorem clause_sequencerLogic : Clause.sequencerLogic := by
  unfold Clause.sequencerLogic
  intro s l p x d b n
  refine ⟨fun h => ?_, fun h => ?_, fun h => ?_, fun h => ?_, fun h => ?_, fun h => ?_, fun h => ?_, fun h => ?_⟩
  · obtain ⟨t, y, ht, hs, hm, hr, hf⟩ := State.onRun_result h (fun x => outPlain (x.aluB b)) d (aluLen b)
    exact ⟨t, y, ht, hs, hm, hr, sameFlags_of_took hf⟩
  · obtain ⟨t, y, ht, hs, hm, hr, hf⟩ := State.onRun_result h (fun _ => outPlain (n.signExtend 16)) d 1
    exact ⟨t, y, ht, hs, hm, hr, sameFlags_of_took hf⟩
  · obtain ⟨t, y, ht, hs, hm, hr, hf⟩ := State.onRun_result h (fun x => outNZ (x.g d &&& x.aluB b)) d (aluLen b)
    exact ⟨t, y, ht, hs, hm, hr ▸ logic_of_took hf, fun i => hr ▸ BitVec.getLsbD_and⟩
  · obtain ⟨t, y, ht, hs, hm, hr, hf⟩ := State.onRun_result h (fun x => outNZ (x.g d ||| x.aluB b)) d (aluLen b)
    exact ⟨t, y, ht, hs, hm, hr ▸ logic_of_took hf, fun i => hr ▸ BitVec.getLsbD_or⟩
  · obtain ⟨t, y, ht, hs, hm, hr, hf⟩ := State.onRun_result h (fun x => outNZ (x.g d ^^^ x.aluB b)) d (aluLen b)
    exact ⟨t, y, ht, hs, hm, hr ▸ logic_of_took hf, fun i => hr ▸ BitVec.getLsbD_xor⟩
  · obtain ⟨t, y, ht, hs, hm, hf⟩ := State.onRun_flags h (fun x => outNZ (x.g d &&& x.aluB b)) (aluLen b)
    exact ⟨t, y, ht, hs, hm, logic_of_took hf⟩
  · obtain ⟨t, y, ht, hs, hm, hr, hf⟩ := State.onRun_result h (fun x => outNZ (x.g d * x.aluB b)) d (aluLen b)
    exact ⟨t, y, ht, hs, hm, hr ▸ logic_of_took hf, hr ▸ BitVec.toNat_mul _ _⟩
  · obtain ⟨t, y, ht, hs, hm, hr, hf⟩ :=
      State.onRun_result h (fun x => outNZ (BitVec.ofNat 16 ((x.g d).toNat * (x.aluB b).toNat / 65536))) d (aluLen b)
    refine ⟨t, y, ht, hs, hm, hr ▸ logic_of_took hf, ?_⟩
    have hlt : (x.g d).toNat * (x.aluB b).toNat < 65536 * 65536 := Nat.mul_lt_mul'' (x.g d).isLt (x.aluB b).isLt
    rw [hr]
    exact (BitVec.toNat_ofNat _ _).trans (Nat.mod_eq_of_lt (by omega))

/-! ### Shifts (R93, R94) -/

section

variable {x y : Seq} {d : Fin 16} {a : BitVec 16} {n : Nat}

theorem shlIs_of_took (h : x.took y (shlOut a n)) : y.v = x.v ∧ shlIs y (shlOut a n).r a n := by
  obtain ⟨hn, hz, hc, hv⟩ := h
  refine ⟨hv, ?_, ⟨hn, hz⟩, by simpa [shlOut, outNZC, wbit] using hc⟩
  exact BitVec.toNat_shiftLeft.trans (by rw [Nat.shiftLeft_eq])

theorem shrIs_of_took (h : x.took y (shrOut a n)) : y.v = x.v ∧ shrIs y (shrOut a n).r a n := by
  obtain ⟨hn, hz, hc, hv⟩ := h
  refine ⟨hv, ?_, ⟨hn, hz⟩, by simpa [shrOut, outNZC, wbit] using hc⟩
  exact (BitVec.toNat_ushiftRight _ _).trans (Nat.shiftRight_eq_div_pow _ _)

theorem sarIs_of_took (h : x.took y (sarOut a n)) : y.v = x.v ∧ sarIs y (sarOut a n).r a n := by
  obtain ⟨hn, hz, hc, hv⟩ := h
  refine ⟨hv, ?_, ⟨hn, hz⟩, by simpa [sarOut, outNZC, wbit] using hc⟩
  exact BitVec.toInt_sshiftRight.trans (Int.shiftRight_eq_div_pow _ _)

end

/-- A rotate right puts the bits shifted out on top. -/
theorem toNat_rotateRight_eq (a : BitVec 16) {n : Nat} (hn : n < 16) :
    (a.rotateRight n).toNat = (a.toNat / 2 ^ n + a.toNat * 2 ^ (16 - n)) % 65536 := by
  have hpow : 2 ^ (16 - n) * 2 ^ n = 65536 := by rw [← Nat.pow_add, Nat.sub_add_cancel hn.le]
  have hq : a.toNat / 2 ^ n < 2 ^ (16 - n) := by
    rw [Nat.div_lt_iff_lt_mul (by positivity), hpow]
    exact a.isLt
  have hsum : a.toNat * 2 ^ (16 - n) = a.toNat / 2 ^ n * 65536 + a.toNat % 2 ^ n * 2 ^ (16 - n) := by
    rw [← hpow]
    conv_lhs => rw [← Nat.div_add_mod a.toNat (2 ^ n)]
    ring
  have hlt : a.toNat % 2 ^ n * 2 ^ (16 - n) + a.toNat / 2 ^ n < 65536 := by
    have hparts := parts_lt _ _ (16 - n) n (Nat.mod_lt a.toNat (by positivity)) hq
    rwa [Nat.sub_add_cancel hn.le] at hparts
  have hhigh : a.toNat * 2 ^ (16 - n) % 65536 = a.toNat % 2 ^ n * 2 ^ (16 - n) := by omega
  rw [BitVec.toNat_rotateRight, Nat.mod_eq_of_lt hn, Nat.shiftRight_eq_div_pow, Nat.shiftLeft_eq, hhigh, Nat.or_comm,
    ← Nat.shiftLeft_eq, ← Nat.shiftLeft_add_eq_or_of_lt hq, Nat.shiftLeft_eq]
  omega

/-! ### Traps (R111) -/

/-- The sequencer that has taken a trap: `w` are the words at its PC. -/
def Seq.trapped (x : Seq) (w : BitVec 16 × BitVec 16) (cause : Nat) (info : Option Nat) : Seq :=
  { x with
    tpc := x.pc
    tnext := x.pc + BitVec.ofNat 16 (instLen w.1)
    tflags := x.flagBits
    tcause := BitVec.ofNat 16 cause
    tinst0 := w.1
    tinst1 := if instLen w.1 = 2 then w.2 else 0
    tinfo := match info with | some i => BitVec.ofNat 16 i | none => x.tinfo
    inTrap := true
    pc := x.tvec + BitVec.ofNat 16 (2 * cause)
    mode := .running }

theorem State.trap_of_not_inTrap {s : State} {l : Fin 128} {p : Fin 144} {x : Seq} (h : x.inTrap = false) (cause : Nat)
    (info : Option Nat) : s.trap l p x cause info = s.setSeq p (x.trapped ((s.pav p).fetch x.pc) cause info) := by
  unfold State.trap
  dsimp only
  rw [if_neg (Bool.eq_false_iff.mp h)]
  rfl

/-- A row that traps on a running sequencer outside a handler. -/
theorem State.onRun_trap {s : State} {l : Fin 128} {p : Fin 144} {x : Seq} {o : Option BOp} (h : s.runs l p x)
    (ho : (s.pav p).fetched = o) (hi : x.inTrap = false) {f : Fin 144 → Seq → State} {cause : Nat} {info : Option Nat}
    (hf : f p x = s.trap l p x cause info) :
    ∃ t, s.onRun l o f = .next t ∧ s.onlySeq t p (x.trapped ((s.pav p).fetch x.pc) cause info) :=
  State.onRun_seq h ho f _ (hf.trans (State.trap_of_not_inTrap hi cause info))

/-- The words at the PC of a running sequencer are those that its fetch reads. -/
theorem State.runs.pc_eq {s : State} {l : Fin 128} {p : Fin 144} {x : Seq} (h : s.runs l p x) : (s.pav p).seq.pc = x.pc :=
  congrArg Seq.pc h.2.1

/-! ### Reserved shift amounts (R94, R96) -/

/-- The words of opcode 0x6 are read as its function (R93). -/
theorem decodeBerin_aluImm (d : Fin 16) {f : Nat} (hf : f < 16) (w : BitVec 16) :
    decodeBerin (nib 6 d.val 0 f) w = decodeAlu f d (.imm w) := by
  have hfun : (nib 6 d.val 0 f).toNat % 16 = f := by
    rw [toNat_nib (by decide) d.isLt (by omega)]
    omega
  simp (disch := omega) only [decodeBerin, nib_bits12_4, nib_bits8_4, nib_bits4_4]
  rw [if_pos (by omega), hfun, finOfNat_val]

/-- The words of an ALU shift with an immediate amount above 15 are a reserved encoding of two words. -/
theorem decodeBerin_wide_shift {d : Fin 16} {f : Nat} (hf : f ∈ [0xA, 0xB, 0xC]) {w : BitVec 16} (hw : 16 ≤ w.toNat) :
    decodeBerin (BitVec.ofNat 16 (0x6000 + 256 * d.val + f)) w = none ∧
      instLen (BitVec.ofNat 16 (0x6000 + 256 * d.val + f)) = 2 := by
  have hlt : 10 ≤ f ∧ f ≤ 12 := by
    simp only [List.mem_cons, List.not_mem_nil, or_false] at hf
    omega
  have hnib : BitVec.ofNat 16 (0x6000 + 256 * d.val + f) = nib 6 d.val 0 f := congrArg (BitVec.ofNat 16) (by omega)
  rw [hnib]
  constructor
  · rw [decodeBerin_aluImm d (by omega)]
    simp [decodeAlu, hlt, Nat.lt_iff_add_one_le, hw]
  · rw [instLen, nib_bits12_4 (by decide) d.isLt (by omega)]
    rfl

/-- Shifts and rotates (R93, R94, R96): each row is the model's shift, and a wide immediate amount is a reserved encoding. -/
theorem clause_sequencerShifts : Clause.sequencerShifts := by
  unfold Clause.sequencerShifts
  intro s l p x d n b
  refine ⟨fun h => ?_, fun h => ?_, fun h => ?_, fun h => ?_, fun h => ?_, fun h => ?_, fun h => ?_, fun w hw f hf h hi hwords => ?_⟩
  · obtain ⟨t, y, ht, hs, hm, hr, hf⟩ := State.onRun_result h (fun x => shlOut (x.g d) n.val) d 1
    exact ⟨t, y, ht, hs, hm, hr ▸ shlIs_of_took hf⟩
  · obtain ⟨t, y, ht, hs, hm, hr, hf⟩ := State.onRun_result h (fun x => shrOut (x.g d) n.val) d 1
    exact ⟨t, y, ht, hs, hm, hr ▸ shrIs_of_took hf⟩
  · obtain ⟨t, y, ht, hs, hm, hr, hf⟩ := State.onRun_result h (fun x => sarOut (x.g d) n.val) d 1
    exact ⟨t, y, ht, hs, hm, hr ▸ sarIs_of_took hf⟩
  · obtain ⟨t, y, ht, hs, hm, hr, hn, hz, hc, hv⟩ := State.onRun_result h (fun x => rorOut (x.g d) n.val) d 1
    refine ⟨t, y, ht, hs, hm, hv, ?_⟩
    rw [hr]
    refine ⟨⟨hn, hz⟩, toNat_rotateRight_eq _ n.isLt, ?_⟩
    rw [decide_eq_decide.mpr (Fin.val_ne_zero_iff (a := n)).symm]
    exact hc
  · obtain ⟨t, y, ht, hs, hm, hr, hf⟩ := State.onRun_result h (fun x => shlOut (x.g d) ((x.aluB b).toNat % 16)) d (aluLen b)
    exact ⟨t, y, ht, hs, hm, hr ▸ shlIs_of_took hf⟩
  · obtain ⟨t, y, ht, hs, hm, hr, hf⟩ := State.onRun_result h (fun x => shrOut (x.g d) ((x.aluB b).toNat % 16)) d (aluLen b)
    exact ⟨t, y, ht, hs, hm, hr ▸ shrIs_of_took hf⟩
  · obtain ⟨t, y, ht, hs, hm, hr, hf⟩ := State.onRun_result h (fun x => sarOut (x.g d) ((x.aluB b).toNat % 16)) d (aluLen b)
    exact ⟨t, y, ht, hs, hm, hr ▸ sarIs_of_took hf⟩
  · obtain ⟨hnone, hlen⟩ := decodeBerin_wide_shift (d := d) hf hw
    have hfetched : (s.pav p).fetched = none := by rw [Pav.fetched, h.pc_eq, hwords, hnone]
    obtain ⟨t, ht, hs⟩ := State.onRun_trap h hfetched hi (f := fun p x => s.trap l p x 0 none) rfl
    refine ⟨t, _, ht, hs, rfl, BitVec.add_zero _, rfl, ?_, rfl⟩
    rw [Seq.trapped, hwords, hlen]
    rfl

/-- Settles O11: each row of logic, moves and shifts writes the model's result with its flags. -/
theorem sequencerLogicAndShifts : Obligations.SequencerLogicAndShifts := by
  unfold Obligations.SequencerLogicAndShifts
  exact ⟨clause_sequencerLogic, clause_sequencerShifts⟩

/-! ### Address pairs (R84, R87) -/

theorem pairHi_ne_pairLo : ∀ a : Fin 4, pairHi a ≠ pairLo a := by decide

/-- An address pair written reads as the value. -/
@[simp] theorem Seq.pair_setPair (x : Seq) (a : Fin 4) (v : BitVec 32) : (x.setPair a v).pair a = v := by
  rw [Seq.pair, Seq.setPair, Seq.g_setG_same, Seq.g_setG_other _ _ _ _ (pairHi_ne_pairLo a), Seq.g_setG_same]
  exact (BitVec.extractLsb'_append_extractLsb'_eq_extractLsb' (start₁ := 0) (len₁ := 16) rfl).trans BitVec.extractLsb'_eq_self

/-- A sign-extended operand adds its signed value modulo 2^32. -/
theorem toNat_add_signExtend {w : Nat} (a : BitVec 32) (n : BitVec w) :
    ((a + n.signExtend 32).toNat : Int) = (a.toNat + n.toInt) % 2 ^ 32 := by
  have hn : ((n.toInt % (2 ^ 32 : Nat)).toNat : Int) = n.toInt % 2 ^ 32 := Int.toNat_of_nonneg (Int.emod_nonneg _ (by decide))
  rw [BitVec.toNat_add, BitVec.signExtend, BitVec.toNat_ofInt, Int.natCast_mod, Int.natCast_add, hn]
  exact Int.add_emod_emod _ _ _

/-- An instruction that writes an address pair, and moves on. -/
theorem State.onRun_pair {s : State} {l : Fin 128} {p : Fin 144} {x : Seq} {o : BOp} (h : s.runsOp l p x o) (a : Fin 4)
    (f : Seq → BitVec 32) (n : Nat) :
    ∃ t y, s.onRun l (some o) (fun q x => s.setSeq q ((x.setPair a (f x)).past n)) = .next t ∧ s.onlySeq t p y ∧
      x.moved y n [pairLo a, pairHi a] ∧ x.sameFlags y ∧ y.pair a = f x := by
  obtain ⟨t, ht, hs⟩ := State.onRun_seqOp h (fun x => (x.setPair a (f x)).past n)
  refine ⟨t, _, ht, hs, ⟨rfl, fun i hi => ?_⟩, ⟨rfl, rfl, rfl, rfl⟩, Seq.pair_setPair x a (f x)⟩
  simp only [List.mem_cons, List.not_mem_nil, or_false, not_or] at hi
  rw [Seq.g_past, Seq.setPair, Seq.g_setG_other _ _ _ _ hi.1, Seq.g_setG_other _ _ _ _ hi.2]

/-- V of a 32-bit difference: the signed difference is out of range (R85). -/
theorem sub32Out_v (a b : BitVec 32) :
    (sub32Out a b).v = some (decide (a.toInt - b.toInt < -2 ^ 31 ∨ 2 ^ 31 ≤ a.toInt - b.toInt)) := by
  have ha := a.isLt
  have hb := b.isLt
  refine congrArg some (Bool.eq_iff_iff.mpr ?_)
  simp only [BitVec.msb_eq_decide, BitVec.toInt_eq_toNat_cond, BitVec.toNat_sub, Bool.and_eq_true, decide_eq_true_eq, ne_eq,
    decide_eq_decide]
  omega

/-- Address pairs (R84, R87): the additions are modulo 2^32, and CMPP has the flags of the difference. -/
theorem clause_sequencerPairs : Clause.sequencerPairs := by
  unfold Clause.sequencerPairs
  intro s l p x a b i n m
  refine ⟨fun h => ?_, fun h => ?_, fun h => ?_, fun h => ?_, fun h => ?_⟩
  · obtain ⟨t, y, ht, hs, hm, hf, hr⟩ := State.onRun_pair h a (fun x => x.pair a + n.signExtend 32) 1
    exact ⟨t, y, ht, hs, hm, hf, by rw [hr, toNat_add_signExtend]⟩
  · obtain ⟨t, y, ht, hs, hm, hf, hr⟩ := State.onRun_pair h a (fun x => x.pair a + (x.g i).signExtend 32) 1
    exact ⟨t, y, ht, hs, hm, hf, by rw [hr, toNat_add_signExtend]⟩
  · obtain ⟨t, y, ht, hs, hm, hf, hr⟩ := State.onRun_pair h a (fun x => x.pair a + (x.g i).zeroExtend 32) 1
    refine ⟨t, y, ht, hs, hm, hf, ?_⟩
    rw [hr, BitVec.toNat_add, BitVec.toNat_setWidth_of_le (by decide)]
  · obtain ⟨t, y, ht, hs, hm, hf, hr⟩ := State.onRun_pair h a (fun x => x.pair a + m.signExtend 32) 2
    exact ⟨t, y, ht, hs, hm, hf, by rw [hr, toNat_add_signExtend]⟩
  · obtain ⟨t, y, ht, hs, hm, hn, hz, hc, hv⟩ := State.onRun_flags h (fun x => sub32Out (x.pair a) (x.pair b)) 1
    refine ⟨t, y, ht, hs, hm, hn, hz.trans (decide_eq_decide.mpr sub_eq_zero), hc, ?_⟩
    rw [hv, sub32Out_v]
    rfl

/-- Settles O12: sums and differences of words, and of address pairs. -/
theorem sequencerArithmetic : Obligations.SequencerArithmetic := by
  unfold Obligations.SequencerArithmetic
  exact ⟨clause_sequencerSums, clause_sequencerPairs⟩

/-! ### Branches (R93, R95) -/

/-- Settles O14: each code is the condition of its row, by cases of the flags. -/
theorem branchConditions : Obligations.BranchConditions := by
  unfold Obligations.BranchConditions
  intro x
  simp [Seq.cond]

/-- The sequencer past a DBNZ, its register decremented. -/
def Seq.countedDown (x : Seq) (d : Fin 16) : Seq := (x.setG d (x.g d - 1)).past 1

/-- Settles O13: each row computes its target from the sequencer as it found it. -/
theorem sequencerBranches : Obligations.SequencerBranches := by
  unfold Obligations.SequencerBranches
  intro s l p x k n d c m
  refine ⟨fun h => ?_, fun h => ?_, fun h => ?_, fun h => ?_, fun h => ?_, fun h => ?_, fun h => ?_, fun h => ?_⟩
  · obtain ⟨t, ht, hs⟩ := State.onRun_seqOp h
      (fun x => if x.cond k.val then { x.past 1 with pc := (x.past 1).pc + n.signExtend 16 } else x.past 1)
    refine ⟨t, ht, ?_⟩
    by_cases hc : x.cond k.val = true
    · rw [if_pos hc] at hs ⊢
      exact hs
    · rw [if_neg hc] at hs ⊢
      exact hs
  · exact State.onRun_seqOp h (fun x => { x with pc := m })
  · exact State.onRun_seqOp h (fun x => { x with pc := x.g d })
  · exact State.onRun_seqOp h (fun x => x.past 1)
  · exact State.onRun_seqOp h (fun x => { x with ctr := x.ctr.set c (x.g d) }.past 1)
  · obtain ⟨t, ht, hs⟩ := State.onRun_seqOp h
      (fun x => if x.g d - 1 ≠ 0 then { x.countedDown d with pc := (x.countedDown d).pc + n.signExtend 16 } else x.countedDown d)
    refine ⟨t, _, ht, hs, ?_⟩
    have hone : x.g d - 1 ≠ 0 ↔ x.g d ≠ 1 := not_congr sub_eq_zero
    by_cases hd : x.g d = 1
    · rw [if_neg (by rw [hone]; exact not_not.mpr hd), if_pos hd]
      exact ⟨rfl, fun i hi => Seq.g_setG_other _ _ _ _ hi, Seq.g_setG_same _ _ _, rfl⟩
    · rw [if_pos (hone.mpr hd), if_neg hd]
      exact ⟨rfl, fun i hi => Seq.g_setG_other _ _ _ _ hi, Seq.g_setG_same _ _ _, rfl⟩
  · obtain ⟨t, ht, hs⟩ := State.onRun_seqOp h (fun x => { x.setG 14 (x.pc + 2) with pc := m })
    exact ⟨t, _, ht, hs, rfl, fun i hi => Seq.g_setG_other _ _ _ _ hi, Seq.g_setG_same _ _ _⟩
  · obtain ⟨t, ht, hs⟩ := State.onRun_seqOp h (fun x => { x.setG 14 (x.pc + 1) with pc := x.g d })
    exact ⟨t, _, ht, hs, rfl, fun i hi => Seq.g_setG_other _ _ _ _ hi, Seq.g_setG_same _ _ _⟩

end Sys2Proof.Machine
end


section
/-! SUPPORT. The scratch of a program (R58, R63, R78): its bytes after a write, and what a write leaves. -/

namespace Sys2Proof.Machine

open Sys2Proof

/-! ### One byte -/

/-- A byte of scratch as the program of `l` names it. -/
theorem State.spByte_of_phys {s : State} {l a : Nat} {p : Fin 144} (h : s.phys? (s.spHalf l a) = some p) :
    s.spByte l a = s.sbyte p (a % 0x200000) := by rw [State.spByte, h]

/-- A byte written to the program's scratch is the only byte of any scratch that changes. -/
theorem State.sbyte_setSpByte (s : State) (l a : Nat) (b : Byte) (q : Fin 144) {k : Nat} (hk : k < 0x200000) :
    (s.setSpByte l a b).sbyte q k = if s.phys? (s.spHalf l a) = some q ∧ a % 0x200000 = k then b else s.sbyte q k := by
  unfold State.setSpByte
  cases hp : s.phys? (s.spHalf l a) with
  | none => rfl
  | some p =>
    by_cases hkey : q.val * 0x200000 + k = p.val * 0x200000 + a % 0x200000
    · have hqp : p = q := Fin.ext (by omega)
      rw [if_pos ⟨congrArg some hqp, by omega⟩]
      simp only [State.sbyte, State.setSbytes, hkey, smGet_smSet_same]
    · rw [if_neg (by rintro ⟨⟨⟩, he⟩; omega)]
      exact smGet_smSet_other _ _ _ _ _ hkey

theorem State.setSpByte_frame (s : State) (l a : Nat) (b : Byte) :
    s.setSpByte l a b = { s with scratch := (s.setSpByte l a b).scratch } := by
  unfold State.setSpByte
  split <;> rfl

/-! ### Bytes -/

/-- Bytes written to the program's scratch change scratch alone. -/
theorem State.setSp_frame (s : State) (l a : Nat) (b : List Byte) : s.setSp l a b = { s with scratch := (s.setSp l a b).scratch } := by
  induction b generalizing s a with
  | nil => rfl
  | cons c r ih =>
    rw [State.setSp, ih, State.setSpByte_frame]

section

variable {s : State} {l a : Nat} {b : List Byte}

@[simp] theorem State.phys?_setSp (k : Nat) : (s.setSp l a b).phys? k = s.phys? k := by
  rw [State.setSp_frame]; rfl

@[simp] theorem State.spHalf_setSp (j i : Nat) : (s.setSp l a b).spHalf j i = s.spHalf j i := by
  rw [State.setSp_frame]; rfl

end

theorem State.setSp_append (s : State) (l a : Nat) (b c : List Byte) : s.setSp l a (b ++ c) = (s.setSp l a b).setSp l (a + b.length) c := by
  induction b generalizing s a with
  | nil => rfl
  | cons x r ih => rw [List.cons_append, State.setSp, ih, State.setSp, List.length_cons, Nat.add_right_comm, Nat.add_assoc]

/-- A byte of scratch that no written byte names stays. -/
theorem State.sbyte_setSp_other {s : State} {l a : Nat} {b : List Byte} {q : Fin 144} {k : Nat} (hk : k < 0x200000)
    (h : ∀ i, i < b.length → ¬ (s.phys? (s.spHalf l (a + i)) = some q ∧ (a + i) % 0x200000 = k)) :
    (s.setSp l a b).sbyte q k = s.sbyte q k := by
  induction b using List.reverseRecOn with
  | nil => rfl
  | append_singleton b c ih =>
    have hlast := h b.length (by simp)
    rw [State.setSp_append, State.setSp, State.setSp, State.sbyte_setSpByte _ _ _ _ _ hk, State.phys?_setSp, State.spHalf_setSp,
      if_neg hlast]
    exact ih fun i hi => h i (by rw [List.length_append]; omega)

/-- Two bytes of the program's scratch that is there are one byte of scratch only if their addresses are equal; the program of a
coupled pair is that of its even half (R78). -/
theorem State.scratchMapped.inj {s : State} {l i j : Nat} (h : s.scratchMapped l) (he : s.coupled l = true → l % 2 = 0)
    (hi : i < s.spLimit l) (hj : j < s.spLimit l) (hp : s.phys? (s.spHalf l i) = s.phys? (s.spHalf l j))
    (hk : i % 0x200000 = j % 0x200000) : i = j := by
  have hhalf : s.spHalf l i = s.spHalf l j := by
    by_contra hne
    exact h.2 i j hne hp
  unfold State.spLimit at hi hj
  unfold State.spHalf at hhalf
  cases hc : s.coupled l with
  | false =>
    simp only [hc, Bool.false_eq_true, if_false] at hi hj
    omega
  | true =>
    have := he hc
    simp only [hc, if_true, Bool.true_and, decide_eq_true_eq] at hi hj hhalf
    split at hhalf <;> split at hhalf <;> omega

/-- Bytes written within the program's scratch that is there read back, and no other byte of scratch changes. -/
theorem State.wroteSp_setSp {s : State} {l a : Nat} {b : List Byte} (h : s.scratchMapped l) (he : s.coupled l = true → l % 2 = 0)
    (hb : a + b.length ≤ s.spLimit l) : s.wroteSp (s.setSp l a b) l a b := by
  refine ⟨fun i hi => ?_, fun q k hk => State.sbyte_setSp_other hk⟩
  have hlim : a + i < s.spLimit l := by omega
  obtain ⟨p, hp⟩ := Option.isSome_iff_exists.mp (h.1 (a + i) hlim)
  have hsplit : s.setSp l a b = ((s.setSp l a (b.take i)).setSp l (a + i) [b[i]]).setSp l (a + i + 1) (b.drop (i + 1)) := by
    have hcons : b.take i ++ ([b[i]] ++ b.drop (i + 1)) = b := by simp
    have hlen : (b.take i).length = i := List.length_take_of_le hi.le
    conv_lhs => rw [← hcons, State.setSp_append, State.setSp_append, hlen]
    rfl
  have hmod : (a + i) % 0x200000 < 0x200000 := Nat.mod_lt _ (by decide)
  rw [State.spByte_of_phys (p := p) (by simpa using hp), hsplit, State.sbyte_setSp_other hmod]
  · rw [State.setSp, State.setSp, State.sbyte_setSpByte _ _ _ _ _ hmod, if_pos (by simpa using hp), List.getD_eq_getElem _ _ hi]
  · intro j hj
    rw [List.length_drop] at hj
    simp only [State.phys?_setSp, State.spHalf_setSp]
    rintro ⟨hpj, hkj⟩
    have := h.inj he (i := a + i + 1 + j) (j := a + i) (by omega) hlim (hpj.trans hp.symm) hkj
    omega

/-- The bytes of the program's scratch, one by one. -/
theorem State.spBytes_eq_map (s : State) (l a n : Nat) : s.spBytes l a n = (List.range n).map (fun i => s.spByte l (a + i)) := by
  induction n generalizing a with
  | zero => rfl
  | succ n ih =>
    rw [State.spBytes, ih, List.range_succ_eq_map, List.map_cons, List.map_map]
    simp [Function.comp_def, Nat.add_assoc, Nat.add_comm 1]

@[simp] theorem State.length_spBytes (s : State) (l a n : Nat) : (s.spBytes l a n).length = n := by
  rw [State.spBytes_eq_map, List.length_map, List.length_range]

/-- A part of the bytes of the program's scratch. -/
theorem State.take_drop_spBytes (s : State) (l a : Nat) {n o m : Nat} (h : o + m ≤ n) :
    ((s.spBytes l a n).drop o).take m = s.spBytes l (a + o) m := by
  apply List.ext_getElem
  · simp
    omega
  · intro i h1 h2
    simp [State.spBytes_eq_map, Nat.add_assoc]

end Sys2Proof.Machine
end


section
/-! SUPPORT. Loads, stores, traps and halts of the sequencer (R86, R91 to R93, R96, R110 to R112): data memory, what a halt leaves and
what it logs (R459, R470), the rows of a sequencer that does not run; and the settled obligations about them. -/

namespace Sys2Proof.Machine

open Sys2Proof

/-! ### The trouble log (R468, R470) -/

theorem alook_aput_same {κ α : Type} [DecidableEq κ] (k : κ) (v : α) (m : List (κ × α)) : alook k (aput k v m) = some v := by
  induction m with
  | nil => simp [aput, alook]
  | cons e r ih =>
    by_cases h : e.1 = k <;> simp [aput, alook, h, ih]

theorem alook_aput_other {κ α : Type} [DecidableEq κ] {j k : κ} (h : k ≠ j) (v : α) (m : List (κ × α)) :
    alook j (aput k v m) = alook j m := by
  induction m with
  | nil => simp [aput, alook, h]
  | cons e r ih =>
    by_cases hk : e.1 = k
    · simp [aput, alook, hk, h]
    · simp [aput, alook, hk, ih]

/-- The entry that the log takes next. -/
def State.logEntry (s : State) (kind block part : Nat) (st : Status) (detail arg0 arg1 : Nat) : LogEntry :=
  { tb := s.sch.tb, seq := BitVec.ofNat 32 (s.fld fLOG_WR_COUNT), kind := kind, block := block, part := part, st := st,
    detail := detail, arg0 := BitVec.ofNat 32 arg0, arg1 := BitVec.ofNat 64 arg1 }

section

variable (s : State) (kind block part : Nat) (st : Status) (detail arg0 arg1 : Nat)

/-- An entry is put in the log, and registers change. -/
theorem State.logWrite_frame :
    s.logWrite kind block part st detail arg0 arg1 =
      { s with regs := (s.logWrite kind block part st detail arg0 arg1).regs
               log := aput (s.fld fLOG_WR_COUNT % 65536) (s.logEntry kind block part st detail arg0 arg1) s.log } := by
  unfold State.logWrite
  dsimp only
  split <;> rfl

/-- LOG_WR counts the entry. -/
theorem State.count_logWrite :
    (s.logWrite kind block part st detail arg0 arg1).fld fLOG_WR_COUNT = (s.fld fLOG_WR_COUNT + 1) % 2 ^ 64 := by
  unfold State.logWrite
  dsimp only
  split
  · exact (State.fld_setFld_off _ fLOG_ERR_WRAP _ _ (by decide)).trans (State.fld_setFld_same _ _ _ (by decide))
  · exact State.fld_setFld_same _ _ _ (by decide)

end

/-! ### Event sources -/

/-- Steps that change registers alone change registers alone together. -/
theorem State.foldl_regs_frame {α : Type} {f : State → α → State} (hf : ∀ t a, f t a = { t with regs := (f t a).regs }) (r : List α)
    (s : State) : r.foldl f s = { s with regs := (r.foldl f s).regs } := by
  induction r generalizing s with
  | nil => rfl
  | cons a r ih => exact (ih (f s a)).trans (congrArg (fun t : State => { t with regs := (r.foldl f (f s a)).regs }) (hf s a))

theorem State.srcLevel_frame (s : State) (n : Nat) (b : Bool) : s.srcLevel n b = { s with regs := (s.srcLevel n b).regs } := by
  refine State.foldl_regs_frame (fun t c => ?_) _ s
  dsimp only
  split
  · rfl
  · split <;> rfl
  · split <;> rfl
  · split <;> rfl

theorem State.pulse_frame (s : State) (n : Nat) : s.pulse n = { s with regs := (s.pulse n).regs } :=
  (State.srcLevel_frame _ _ _).trans (congrArg (fun t : State => { t with regs := (s.pulse n).regs }) (s.srcLevel_frame n true))

/-- An entry and a pulse of an event source. -/
theorem State.pulse_logWrite_frame (s : State) (kind block part : Nat) (st : Status) (detail arg0 arg1 n : Nat) :
    (s.logWrite kind block part st detail arg0 arg1).pulse n =
      { s with regs := ((s.logWrite kind block part st detail arg0 arg1).pulse n).regs
               log := aput (s.fld fLOG_WR_COUNT % 65536) (s.logEntry kind block part st detail arg0 arg1) s.log } :=
  (State.pulse_frame _ _).trans
    (congrArg (fun t : State => { t with regs := ((s.logWrite kind block part st detail arg0 arg1).pulse n).regs })
      (s.logWrite_frame kind block part st detail arg0 arg1))

/-! ### Halts (R112) -/

/-- Which pavilions an epoch binds depends on the schedule alone. -/
theorem State.bound_congr {s t : State} (h : t.sch = s.sch) (l : Nat) : t.bound l = s.bound l := by
  simp only [State.bound, h]

theorem State.faultIfBound_of_not_bound {s : State} {l : Nat} (h : s.bound l = false) (cause : Nat) : s.faultIfBound l cause = s := by
  rw [State.faultIfBound, h]
  rfl

/-- The entry of a halt, with TCAUSE and both addresses of the first trap. -/
def State.haltEntry (s : State) (l : Fin 128) (x : Seq) : LogEntry :=
  s.logEntry 0x0002 blkPAV noPart .ok 0 (l.val + 256 * x.tcause.toNat) (x.tpc.toNat + 65536 * x.tnext.toNat)

section

variable {s : State} {l : Fin 128} (hb : s.bound l.val = false) (p : Fin 144) (x : Seq)
include hb

/-- A halt of a pavilion that the epoch does not bind halts the sequencer and logs one entry. -/
theorem State.haltSeq_frame :
    s.haltSeq l p x = { s with pavs := (s.setSeq p { x with mode := .halted }).pavs
                               regs := (s.haltSeq l p x).regs
                               log := aput (s.fld fLOG_WR_COUNT % 65536) (s.haltEntry l x) s.log } := by
  have hframe := (s.setSeq p { x with mode := .halted }).pulse_logWrite_frame 0x0002 blkPAV noPart .ok 0
    (l.val + 256 * x.tcause.toNat) (x.tpc.toNat + 65536 * x.tnext.toNat) (116 + l.val)
  have hsame : s.haltSeq l p x = _ :=
    State.faultIfBound_of_not_bound ((State.bound_congr (congrArg State.sch hframe) l.val).trans hb) 1
  rw [hsame]
  exact hframe

/-- A halt by a parity error logs the error, then the halt (R459). -/
theorem State.memHalt_frame :
    s.memHalt l p x = { s with pavs := (s.setSeq p { x with mode := .halted }).pavs
                               regs := (s.memHalt l p x).regs
                               log := aput ((s.fld fLOG_WR_COUNT + 1) % 2 ^ 64 % 65536) ((s.logUe blkPAV 0).haltEntry l x)
                                 (aput (s.fld fLOG_WR_COUNT % 65536) (s.logEntry 0x0003 blkPAV noPart .dataError 0 blkPAV 0) s.log) } := by
  have hue : s.logUe blkPAV 0 = _ := s.logWrite_frame 0x0003 blkPAV noPart .dataError 0 blkPAV 0
  have hhalt := State.haltSeq_frame (s := s.logUe blkPAV 0) (l := l) ((State.bound_congr (congrArg State.sch hue) l.val).trans hb) p x
  have hcount : (s.logUe blkPAV 0).fld fLOG_WR_COUNT = _ := s.count_logWrite 0x0003 blkPAV noPart .dataError 0 blkPAV 0
  rw [hcount] at hhalt
  exact hhalt.trans (congrArg (fun t : State => { t with pavs := (t.setSeq p { x with mode := .halted }).pavs
                                                         regs := (s.memHalt l p x).regs
                                                         log := aput ((s.fld fLOG_WR_COUNT + 1) % 2 ^ 64 % 65536)
                                                           ((s.logUe blkPAV 0).haltEntry l x) t.log }) hue)

end

/-! ### What a halt leaves -/

section

variable {s : State} {l : Fin 128} (hb : s.bound l.val = false) (p : Fin 144) (x : Seq)
include hb

/-- A halt halts its sequencer, and changes pavilions, registers and the log alone. -/
theorem State.haltSeq_leaves :
    (s.haltSeq l p x).seqOf p = { x with mode := .halted } ∧
      s.haltSeq l p x = { s with pavs := (s.haltSeq l p x).pavs, regs := (s.haltSeq l p x).regs, log := (s.haltSeq l p x).log } := by
  rw [State.haltSeq_frame hb]
  exact ⟨State.seqOf_setSeq _ _ _, rfl⟩

/-- The entry of a halt stands at the next index of the log. -/
theorem State.logged_haltSeq :
    s.logged (s.haltSeq l p x) 0x0002 blkPAV noPart .ok 0 (l.val + 256 * x.tcause.toNat) (x.tpc.toNat + 65536 * x.tnext.toNat) := by
  rw [State.haltSeq_frame hb]
  exact alook_aput_same _ _ _

theorem State.memHalt_leaves :
    (s.memHalt l p x).seqOf p = { x with mode := .halted } ∧
      s.memHalt l p x = { s with pavs := (s.memHalt l p x).pavs, regs := (s.memHalt l p x).regs, log := (s.memHalt l p x).log } := by
  rw [State.memHalt_frame hb]
  exact ⟨State.seqOf_setSeq _ _ _, rfl⟩

/-- The entry of the error stands at the next index, and that of the halt behind it. -/
theorem State.logged_memHalt : s.logged (s.memHalt l p x) 0x0003 blkPAV noPart .dataError 0 blkPAV 0 := by
  have hne : (s.fld fLOG_WR_COUNT + 1) % 2 ^ 64 % 65536 ≠ s.fld fLOG_WR_COUNT % 65536 := by omega
  rw [State.memHalt_frame hb]
  exact (alook_aput_other hne _ _).trans (alook_aput_same _ _ _)

end

/-! ### Traps and idle sequencers (R110 to R113) -/

theorem State.trap_of_inTrap {s : State} {l : Fin 128} {p : Fin 144} {x : Seq} (h : x.inTrap = true) (cause : Nat)
    (info : Option Nat) : s.trap l p x cause info = s.haltSeq l p x := by
  unfold State.trap
  dsimp only
  rw [if_pos h]

/-- A row that traps while a handler runs halts the sequencer. -/
theorem State.onRun_trap_halts {s : State} {l : Fin 128} {p : Fin 144} {x : Seq} {o : Option BOp} (h : s.runs l p x)
    (ho : (s.pav p).fetched = o) (hi : x.inTrap = true) (hb : s.bound l.val = false) (cause : Nat) (info : Option Nat) :
    ∃ t, s.onRun l o (fun p x => s.trap l p x cause info) = .next t ∧ t.seqOf p = { x with mode := .halted } ∧
      t = { s with pavs := t.pavs, regs := t.regs, log := t.log } ∧
      s.logged t 0x0002 blkPAV noPart .ok 0 (l.val + 256 * x.tcause.toNat) (x.tpc.toNat + 65536 * x.tnext.toNat) := by
  obtain ⟨hseq, hframe⟩ := State.haltSeq_leaves hb p x
  refine ⟨_, State.onRun_of_runs h ho _, ?_⟩
  rw [State.trap_of_inTrap hi]
  exact ⟨hseq, hframe, State.logged_haltSeq hb p x⟩

/-- A parity error at the fetch of a running sequencer (R112). -/
theorem State.exec_reservedInstruction_parity {s : State} {l : Fin 128} {p : Fin 144} {x : Seq} (h : s.runs l p x) :
    exec (.reservedInstruction l true) s = .next (s.memHalt l p x) := by
  obtain ⟨hp, rfl, hm⟩ := h
  change execReservedInstruction l true s = _
  simp [execReservedInstruction, hp, hm]

/-- Traps (R110 to R112): entry, return, and the halts. -/
theorem clause_trapEntry : Clause.trapEntry := by
  unfold Clause.trapEntry
  intro s l p x n k w0 w1
  refine ⟨fun hi => ⟨fun h => ?_, fun h ho hw => ?_⟩, fun h => ?_, fun c o hc h ho hi hb => ?_, fun h hb => ?_⟩
  · obtain ⟨t, ht, hs⟩ := State.onRun_trap h.1 h.2 hi (f := fun p x => s.trap l p x (16 + n.val) none) rfl
    have hdecode : decodeBerin ((s.pav p).fetch x.pc).1 ((s.pav p).fetch x.pc).2 = some (.trap n) := by
      rw [← h.1.pc_eq]
      exact h.2
    have hmode : x.mode = .running := h.1.2.2
    refine ⟨t, ht, ?_⟩
    rw [Seq.trapped, instLen_of_decodeBerin hdecode, word_of_decodeBerin_trap hdecode, ← hmode] at hs
    exact hs
  · obtain ⟨t, ht, hs⟩ := State.onRun_trap h ho hi (f := fun p x => s.trap l p x 0 none) rfl
    have hmode : x.mode = .running := h.2.2
    refine ⟨t, ht, ?_⟩
    rw [Seq.trapped, hw, ← hmode, show x.tvec + BitVec.ofNat 16 (2 * 0) = x.tvec from BitVec.add_zero _] at hs
    exact hs
  · exact State.onRun_seqOp h (fun x => { x.setFlagBits x.tflags with inTrap := false, pc := if k = 0 then x.tpc else x.tnext })
  · simp only [List.mem_cons, List.not_mem_nil, or_false, Prod.mk.injEq] at hc
    obtain ⟨rfl, rfl⟩ | ⟨rfl, rfl⟩ := hc
    · exact State.onRun_trap_halts h ho hi hb (16 + n.val) none
    · exact State.onRun_trap_halts h ho hi hb 0 none
  · obtain ⟨hseq, hframe⟩ := State.memHalt_leaves hb p x
    exact ⟨_, State.exec_reservedInstruction_parity h, hseq, hframe, State.logged_memHalt hb p x⟩

/-- A row that finds no running sequencer at its words changes nothing. -/
theorem State.onRun_idle {s : State} {l : Fin 128} {o : Option BOp} (h : ∀ p x, s.runs l p x → (s.pav p).fetched ≠ o)
    (f : Fin 144 → Seq → State) : s.onRun l o f = .next s := by
  unfold State.onRun
  cases hp : s.seqAt l with
  | none => rfl
  | some p => exact if_neg fun hrun => h p _ ⟨hp, rfl, hrun.1⟩ hrun.2

/-- Each row runs only on a running sequencer at its words (R93, R113; log entry 5). -/
theorem clause_idleSequencer : Clause.idleSequencer := by
  unfold Clause.idleSequencer
  intro s l c o hc h
  unfold instrOf at hc
  split at hc
  all_goals
    cases hc
  all_goals simp only [exec, execNop, execTrap, execRett, execPush, execPop, execCset, execAluMov, execAluAdd, execAluAdc, execAluSub,
    execAluSbc, execAluAnd, execAluOr, execAluXor, execAluCmp, execAluTst, execAluShl, execAluShr, execAluSar, execAluMul, execAluMulhu,
    execAddi, execMovi, execCmpi, execShlImm, execShrImm, execSarImm, execRorImm, execLd, execSt, execAddp, execAddpr, execAddpw,
    execCmpp, execBcc, execJmp, execCall, execJmpr, execCallr, execDbnz, execIssue, execWaite, execWaitc, execWaits, execWaitidle,
    execFence, execSignal, execReservedInstruction, Bool.false_eq_true, if_false, State.alu, State.aluShift, State.regOp,
    State.onRun_idle h]

/-- Settles O17: a trap is entered or halts, and a row without its instruction does nothing. -/
theorem trapsAndIdle : Obligations.TrapsAndIdle := by
  unfold Obligations.TrapsAndIdle
  exact ⟨clause_trapEntry, clause_idleSequencer⟩

/-! ### Data memory and the places of an address (R86, R91, R92) -/

theorem Pav.dword_setDword (x : Pav) (a k : Nat) (v : BitVec 16) :
    (x.setDword a v).dword k = if k = a then v else x.dword k := by
  by_cases h : k = a
  · rw [if_pos h, h]
    exact smGet_smSet_same _ _ _ _
  · rw [if_neg h]
    exact smGet_smSet_other _ _ _ _ _ h

/-- A word of scratch lies at an even offset. -/
theorem even_of_seqPlace_scratch {c : Bool} {n a : Nat} (h : seqPlace c n = some (.scratch a)) : a % 2 = 0 := by
  unfold seqPlace at h
  split_ifs at h <;> simp only [Option.some.injEq, Place.scratch.injEq, reduceCtorEq] at h <;> omega

/-- The two bytes of a word at an even offset of the program's scratch. -/
theorem State.sbyte_setSp_word {s : State} {l a : Nat} {r : Fin 144} (ha : a % 2 = 0) (hr : s.phys? (s.spHalf l a) = some r) (v : Nat)
    (q : Fin 144) {k : Nat} (hk : k < 0x200000) :
    (s.setSp l a (leBytes 2 v)).sbyte q k = if q = r ∧ k = a % 0x200000 then BitVec.ofNat 8 v
      else if q = r ∧ k = a % 0x200000 + 1 then BitVec.ofNat 8 (v / 256) else s.sbyte q k := by
  have hhalf : s.spHalf l (a + 1) = s.spHalf l a := by
    have hiff : (0x200000 ≤ a + 1) = (0x200000 ≤ a) := by simp only [eq_iff_iff]; omega
    simp only [State.spHalf, hiff]
  have hmod : (a + 1) % 0x200000 = a % 0x200000 + 1 := by omega
  have htwo : s.setSp l a (leBytes 2 v) = (s.setSp l a [BitVec.ofNat 8 v]).setSpByte l (a + 1) (BitVec.ofNat 8 (v / 256)) := rfl
  rw [htwo, State.sbyte_setSpByte _ _ _ _ _ hk, State.phys?_setSp, State.spHalf_setSp, hhalf, hr, hmod, State.setSp, State.setSp,
    State.sbyte_setSpByte _ _ _ _ _ hk, hr]
  simp only [Option.some.injEq]
  grind

section

variable {s : State} {l : Fin 128} {p : Fin 144} {x : Seq} {d : Fin 16} {m : EA} {a : Nat}

theorem State.exec_ld_data (h : s.runsOp l p x (.ld d m)) (hp : seqPlace (s.coupled l.val) (x.ea m).1.toNat = some (.data a)) :
    exec (.ld l d m .ok) s = .next (s.setSeq p (((x.ea m).2.setG d ((s.pav p).dword a)).past (eaLen m))) := by
  change execLd l d m .ok s = _
  simp only [execLd, State.onRun_of_runs h.1 h.2, hp]
  rfl

theorem State.exec_ld_data_parity (h : s.runsOp l p x (.ld d m)) (hp : seqPlace (s.coupled l.val) (x.ea m).1.toNat = some (.data a)) :
    exec (.ld l d m .ue) s = .next (s.memHalt l p x) := by
  change execLd l d m .ue s = _
  simp only [execLd, State.onRun_of_runs h.1 h.2, hp]
  rfl

theorem State.exec_ld_scratch (h : s.runsOp l p x (.ld d m)) (hp : seqPlace (s.coupled l.val) (x.ea m).1.toNat = some (.scratch a)) :
    exec (.ld l d m .ok) s = .next (s.setSeq p (((x.ea m).2.setG d (s.spWord l.val a)).past (eaLen m))) := by
  change execLd l d m .ok s = _
  simp only [execLd, State.onRun_of_runs h.1 h.2, hp]
  rfl

theorem State.exec_ld_control (h : s.runsOp l p x (.ld d m)) (hp : seqPlace (s.coupled l.val) (x.ea m).1.toNat = some (.control a)) :
    exec (.ld l d m .ok) s =
      .next (s.setSeq p (((s.ctrlRead l.val (x.ea m).2 a).2.setG d (s.ctrlRead l.val (x.ea m).2 a).1).past (eaLen m))) := by
  change execLd l d m .ok s = _
  simp only [execLd, State.onRun_of_runs h.1 h.2, hp]

theorem State.exec_st_data (h : s.runsOp l p x (.st d m)) (hp : seqPlace (s.coupled l.val) (x.ea m).1.toNat = some (.data a)) :
    exec (.st l d m .ok) s = .next (s.setPav p { (s.pav p).setDword a (x.g d) with seq := (x.ea m).2.past (eaLen m) }) := by
  change execSt l d m .ok s = _
  simp only [execSt, State.onRun_of_runs h.1 h.2, hp]

theorem State.exec_st_scratch (h : s.runsOp l p x (.st d m)) (hp : seqPlace (s.coupled l.val) (x.ea m).1.toNat = some (.scratch a)) :
    exec (.st l d m .ok) s = .next ((s.setSp l.val a (leBytes 2 (x.g d).toNat)).setSeq p ((x.ea m).2.past (eaLen m))) := by
  change execSt l d m .ok s = _
  simp only [execSt, State.onRun_of_runs h.1 h.2, hp]
  rfl

theorem State.exec_st_control (h : s.runsOp l p x (.st d m)) (hp : seqPlace (s.coupled l.val) (x.ea m).1.toNat = some (.control a)) :
    exec (.st l d m .ok) s = .next (s.setSeq p (((x.ea m).2.ctrlWrite a (x.g d)).past (eaLen m))) := by
  change execSt l d m .ok s = _
  simp only [execSt, State.onRun_of_runs h.1 h.2, hp]

theorem State.exec_ld_trap (h : s.runsOp l p x (.ld d m)) (hi : x.inTrap = false)
    (hp : seqPlace (s.coupled l.val) (x.ea m).1.toNat = none) :
    exec (.ld l d m .ok) s = .next (s.setSeq p (x.trapped ((s.pav p).fetch x.pc) 1 none)) := by
  change execLd l d m .ok s = _
  simp only [execLd, State.onRun_of_runs h.1 h.2, hp, State.trap_of_not_inTrap hi]

theorem State.exec_st_trap (h : s.runsOp l p x (.st d m)) (hi : x.inTrap = false)
    (hp : seqPlace (s.coupled l.val) (x.ea m).1.toNat = none) :
    exec (.st l d m .ok) s = .next (s.setSeq p (x.trapped ((s.pav p).fetch x.pc) 1 none)) := by
  change execSt l d m .ok s = _
  simp only [execSt, State.onRun_of_runs h.1 h.2, hp, State.trap_of_not_inTrap hi]

/-! ### The stack (R96) -/

theorem State.exec_push (h : s.runsOp l p x (.push d)) (ha : (x.g 15 - 1).toNat ≤ 0x7FFF) :
    exec (.push l d) s = .next (s.setPav p { (s.pav p).setDword (x.g 15 - 1).toNat (x.g d) with
      seq := (x.setG 15 (x.g 15 - 1)).past 1 }) := by
  change execPush l d s = _
  simp only [execPush, State.onRun_of_runs h.1 h.2, if_neg (Nat.not_lt.mpr ha)]

theorem State.exec_push_trap (h : s.runsOp l p x (.push d)) (hi : x.inTrap = false) (ha : 0x7FFF < (x.g 15 - 1).toNat) :
    exec (.push l d) s = .next (s.setSeq p (x.trapped ((s.pav p).fetch x.pc) 1 none)) := by
  change execPush l d s = _
  simp only [execPush, State.onRun_of_runs h.1 h.2, if_pos ha, State.trap_of_not_inTrap hi]

theorem State.exec_pop (h : s.runsOp l p x (.pop d)) (ha : (x.g 15).toNat ≤ 0x7FFF) :
    exec (.pop l d false) s =
      .next (s.setSeq p (((x.setG 15 (x.g 15 + 1)).setG d ((s.pav p).dword (x.g 15).toNat)).past 1)) := by
  change execPop l d false s = _
  simp only [execPop, State.onRun_of_runs h.1 h.2, if_neg (Nat.not_lt.mpr ha), Bool.false_eq_true, if_false]

theorem State.exec_pop_parity (h : s.runsOp l p x (.pop d)) (ha : (x.g 15).toNat ≤ 0x7FFF) :
    exec (.pop l d true) s = .next (s.memHalt l p x) := by
  change execPop l d true s = _
  simp only [execPop, State.onRun_of_runs h.1 h.2, if_neg (Nat.not_lt.mpr ha), if_true]

theorem State.exec_pop_trap (h : s.runsOp l p x (.pop d)) (hi : x.inTrap = false) (ha : 0x7FFF < (x.g 15).toNat) :
    exec (.pop l d false) s = .next (s.setSeq p (x.trapped ((s.pav p).fetch x.pc) 1 none)) := by
  change execPop l d false s = _
  simp only [execPop, State.onRun_of_runs h.1 h.2, if_pos ha, State.trap_of_not_inTrap hi]

/-- A store to scratch changes its sequencer and bytes of scratch alone. -/
theorem State.onlySeq_setSp_setSeq (s : State) (l a : Nat) (b : List Byte) (p : Fin 144) (y : Seq) :
    s.onlySeq { (s.setSp l a b).setSeq p y with scratch := s.scratch } p y := by
  rw [State.setSp_frame]
  exact State.onlySeq_setSeq s p y

end

/-- The sequencer that a trap of cause 1 leaves, of an instruction of known length. -/
theorem Seq.trapped_addr {s : State} {l : Fin 128} {p : Fin 144} {x : Seq} {o : BOp} (h : s.runsOp l p x o) (info : Option Nat) :
    (x.trapped ((s.pav p).fetch x.pc) 1 info).tnext = x.pc + BitVec.ofNat 16 o.words := by
  have hdecode : decodeBerin ((s.pav p).fetch x.pc).1 ((s.pav p).fetch x.pc).2 = some o := by
    rw [← h.1.pc_eq]
    exact h.2
  exact congrArg (fun n => x.pc + BitVec.ofNat 16 n) (instLen_of_decodeBerin hdecode)

/-- Settles O15: the place of the address decides between data memory, scratch, a control word and a trap. -/
theorem sequencerMemory : Obligations.SequencerMemory := by
  unfold Obligations.SequencerMemory
  intro s l p x d m a
  refine ⟨fun h ha => ?_, fun h ha => ?_, fun hp => ⟨fun h => ?_, fun h => ?_⟩, fun hp => ⟨fun h => ?_, fun h r hr => ?_⟩,
    fun hp => ⟨fun h => ?_, fun h => ?_⟩, fun hi hp c o hc h => ?_, fun h hi ha => ?_, fun h hi ha => ?_, fun c o hc h hb ha hp => ?_⟩
  case refine_1 =>
    refine ⟨_, State.exec_push h ha, rfl, fun q hq => State.pav_setPav_other _ _ _ _ hq, ?_⟩
    simp only [State.seqOf, State.pav_setPav_same]
    exact ⟨rfl, ⟨rfl, fun i hi => Seq.g_setG_other _ _ _ _ (List.ne_of_not_mem_cons hi)⟩, ⟨rfl, rfl, rfl, rfl⟩,
      Seq.g_setG_same _ _ _, fun k => Pav.dword_setDword _ _ _ _⟩
  case refine_2 =>
    refine ⟨_, _, State.exec_pop h ha, State.onlySeq_setSeq _ _ _, ⟨rfl, fun i hi => ?_⟩, ⟨rfl, rfl, rfl, rfl⟩, Seq.g_setG_same _ _ _,
      fun hd => ?_⟩
    · simp only [List.mem_cons, List.not_mem_nil, or_false, not_or] at hi
      rw [Seq.g_past, Seq.g_setG_other _ _ _ _ hi.2, Seq.g_setG_other _ _ _ _ hi.1]
    · rw [Seq.g_past, Seq.g_setG_other _ _ _ _ hd.symm, Seq.g_setG_same]
  case refine_3 => exact ⟨_, State.exec_ld_data h hp, State.onlySeq_setSeq _ _ _⟩
  case refine_4 =>
    refine ⟨_, State.exec_st_data h hp, rfl, fun q hq => State.pav_setPav_other _ _ _ _ hq, ?_⟩
    simp only [State.pav_setPav_same]
    exact ⟨rfl, fun k => Pav.dword_setDword _ _ _ _⟩
  case refine_5 => exact ⟨_, State.exec_ld_scratch h hp, State.onlySeq_setSeq _ _ _⟩
  case refine_6 =>
    exact ⟨_, State.exec_st_scratch h hp, State.onlySeq_setSp_setSeq _ _ _ _ _ _,
      fun q k hk => State.sbyte_setSp_word (even_of_seqPlace_scratch hp) hr _ q hk⟩
  case refine_7 => exact ⟨_, State.exec_ld_control h hp, State.onlySeq_setSeq _ _ _⟩
  case refine_8 => exact ⟨_, State.exec_st_control h hp, State.onlySeq_setSeq _ _ _⟩
  case refine_9 =>
    simp only [List.mem_cons, List.not_mem_nil, or_false, Prod.mk.injEq] at hc
    obtain ⟨rfl, rfl⟩ | ⟨rfl, rfl⟩ := hc
    · exact ⟨_, _, State.exec_ld_trap h hi hp, State.onlySeq_setSeq _ _ _, rfl, rfl, rfl, rfl,
        (Seq.trapped_addr h none).trans (by rw [words_ld])⟩
    · exact ⟨_, _, State.exec_st_trap h hi hp, State.onlySeq_setSeq _ _ _, rfl, rfl, rfl, rfl,
        (Seq.trapped_addr h none).trans (by rw [words_st])⟩
  case refine_10 => exact ⟨_, _, State.exec_push_trap h hi ha, State.onlySeq_setSeq _ _ _, rfl, rfl⟩
  case refine_11 => exact ⟨_, _, State.exec_pop_trap h hi ha, State.onlySeq_setSeq _ _ _, rfl, rfl⟩
  case refine_12 =>
    simp only [List.mem_cons, List.not_mem_nil, or_false, Prod.mk.injEq] at hc
    obtain ⟨rfl, rfl⟩ | ⟨rfl, rfl⟩ := hc
    · exact ⟨_, State.exec_pop_parity h ha, State.memHalt_leaves hb p x⟩
    · exact ⟨_, State.exec_ld_data_parity h hp, State.memHalt_leaves hb p x⟩

end Sys2Proof.Machine
end


section
/-! SUPPORT. The engines (R58 to R60, R98 to R101): the command that an engine starts next runs, and is marked as run; what the
lane-wise vector rows write (R59, R60, R100); and the settled obligation about them. -/

namespace Sys2Proof.Machine

open Sys2Proof

/-! ### One engine of the device -/

/-- An engine whose command at place `i` has started, with writes `ids` of its own. -/
def Eng.ranAt (g : Eng) (i : Nat) (ids : List Nat) : Eng := { g with q := ranIn g.q i ids }

theorem State.pav_setEng (s : State) (p q : Fin 144) (k : Fin 8) (g : Eng) :
    (s.setEng p k g).pav q = if q = p then { s.pav p with eng := (s.pav p).eng.set k g } else s.pav q :=
  State.pav_setPav _ _ _ _

theorem State.engOf_setEng_same (s : State) (p : Fin 144) (k : Fin 8) (g : Eng) : (s.setEng p k g).engOf p k = g := by
  rw [State.engOf, State.pav_setEng, if_pos rfl]
  exact Vector.getElem_set_self _

theorem State.engOf_setEng_other (s : State) (p : Fin 144) {j k : Fin 8} (h : j ≠ k) (g : Eng) :
    (s.setEng p k g).engOf p j = s.engOf p j := by
  simp only [State.engOf, State.pav_setEng, if_true, Fin.getElem_fin]
  exact Vector.getElem_set_ne _ _ fun e => h (Fin.ext e.symm)

/-- The engine alone changes. -/
theorem State.onlyEng_setEng (s : State) (p : Fin 144) (k : Fin 8) (g : Eng) : s.onlyEng (s.setEng p k g) p k g := by
  refine ⟨rfl, fun q hq => ?_, ?_, State.engOf_setEng_same .., fun j hj => State.engOf_setEng_other _ _ hj _⟩
  · rw [State.pav_setEng, if_neg hq]
  · rw [State.pav_setEng, if_pos rfl]

theorem State.setPav_setPav (s : State) (p : Fin 144) (x y : Pav) : (s.setPav p x).setPav p y = s.setPav p y := by
  simp only [State.setPav, Vector.set_set]

theorem State.setEng_setEng (s : State) (p : Fin 144) (k : Fin 8) (g h : Eng) : (s.setEng p k g).setEng p k h = s.setEng p k h := by
  rw [State.setEng, State.setEng, State.pav_setPav_same, State.setPav_setPav, State.setEng, Vector.set_set]

theorem State.markRan_eq (s : State) (p : Fin 144) (k : Fin 8) (i : Nat) (ids : List Nat) :
    s.markRan p k i ids = s.setEng p k ((s.engOf p k).ranAt i ids) := rfl

theorem State.engOf_markRan (s : State) (p : Fin 144) (k : Fin 8) (i : Nat) (ids : List Nat) :
    (s.markRan p k i ids).engOf p k = (s.engOf p k).ranAt i ids := State.engOf_setEng_same ..

theorem State.onlyEng_markRan_setEng (s : State) (p : Fin 144) (k : Fin 8) (i : Nat) (ids : List Nat) (g : Eng) :
    s.onlyEng ((s.markRan p k i ids).setEng p k g) p k g := by
  rw [State.markRan_eq, State.setEng_setEng]
  exact State.onlyEng_setEng _ _ _ _

/-! ### The command that an engine starts next -/

section

variable {s : State} {l : Fin 128} {e : Fin 16} {p : Fin 144} {k : Fin 8} {i cls op : Nat} {b : List (BitVec 16)}

/-- The command that the engine starts next runs with its block, marked as run. -/
theorem State.runCmd_of_starts (h : s.starts l e p k i cls op b) (f : State → Fin 144 → Fin 8 → Nat → List (BitVec 16) → State) :
    s.runCmd l e cls op f = .next (f (s.markRan p k i []) p k i b) := by
  obtain ⟨he, ⟨c, hn, rfl⟩, hc, ho⟩ := h
  simp [State.runCmd, he, hn, hc, ho]

/-- A class 0 command changes its engine, marked as run, alone. -/
theorem State.vecCmd_of_starts (h : s.starts l e p k i 0 op b) (f : VecOp → Eng → Eng) :
    ∃ t, s.vecCmd l e op f = .next t ∧ s.onlyEng t p k (f (vecOf b) ((s.engOf p k).ranAt i [])) := by
  refine ⟨_, State.runCmd_of_starts h _, ?_⟩
  rw [State.engOf_markRan]
  exact State.onlyEng_markRan_setEng _ _ _ _ _ _

end

/-! ### A register of an engine -/

theorem Eng.v_setV_same (g : Eng) (d : Fin 32) (v : VReg) : (g.setV d v).v[d] = v := Vector.getElem_set_self _

theorem Eng.v_setV_other (g : Eng) {d r : Fin 32} (h : r ≠ d) (v : VReg) : (g.setV d v).v[r] = g.v[r] := by
  simp only [Eng.setV, Fin.getElem_fin]
  exact Vector.getElem_set_ne _ _ fun e => h (Fin.ext e.symm)

/-- Lane `j` of a register given lane by lane. -/
theorem getElem_ofFn_fin {α : Type} {n : Nat} (f : Fin n → α) (j : Fin n) : (Vector.ofFn f)[j] = f j := Vector.getElem_ofFn _

/-! ### The lane-wise rows -/

/-- A row of the lanes with a function of the same values. -/
theorem laneWise_of_lanes {c : Fin 128 → Fin 16 → Instr} {op : Nat} {f g : VecOp → BitVec 32 → BitVec 32 → BitVec 32 → BitVec 32}
    (hc : ∀ l e s, exec (c l e) s = s.lanes l e op f) (hf : ∀ x u v w, f x u v w = g x u v w) : laneWise c op g := by
  intro s l e p k i b h
  obtain ⟨t, ht, hs⟩ := State.vecCmd_of_starts h
    (fun x g => g.setV x.vd (Vector.ofFn (fun i => f x g.v[x.va][i] g.v[x.vb][i] g.v[x.vc][i])))
  refine ⟨t, _, (hc l e s).trans ht, hs, rfl, fun r hr => Eng.v_setV_other _ hr _, fun j => ?_⟩
  rw [Eng.v_setV_same, getElem_ofFn_fin, hf]
  rfl

/-- The integer, select, sign and immediate rows (R59, R100). -/
theorem clause_vectorIntegers : Clause.vectorIntegers := by
  unfold Clause.vectorIntegers
  refine ⟨laneWise_of_lanes (f := fun _ a b _ => a + b) (fun _ _ _ => rfl) fun _ a b _ => ?_,
    laneWise_of_lanes (f := fun _ a b _ => a - b) (fun _ _ _ => rfl) fun _ a b _ => ?_,
    laneWise_of_lanes (f := fun _ a b _ => a &&& b) (fun _ _ _ => rfl) fun _ a b _ => ?_,
    laneWise_of_lanes (f := fun _ a b _ => a ||| b) (fun _ _ _ => rfl) fun _ a b _ => ?_,
    laneWise_of_lanes (f := fun _ a b _ => a ^^^ b) (fun _ _ _ => rfl) fun _ a b _ => ?_,
    laneWise_of_lanes (f := fun _ a b _ => a <<< (b.toNat % 32)) (fun _ _ _ => rfl) fun _ a b _ => ?_,
    laneWise_of_lanes (f := fun _ a b _ => a >>> (b.toNat % 32)) (fun _ _ _ => rfl) fun _ a b _ => ?_,
    laneWise_of_lanes (f := fun _ a b _ => a.sshiftRight (b.toNat % 32)) (fun _ _ _ => rfl) fun _ a b _ => ?_,
    laneWise_of_lanes (f := fun _ a b _ => mask32 (a = b)) (fun _ _ _ => rfl) fun _ a b _ => ?_,
    laneWise_of_lanes (f := fun _ a b _ => mask32 (a.slt b)) (fun _ _ _ => rfl) fun _ a b _ => ?_,
    laneWise_of_lanes (f := fun _ a b _ => a * b) (fun _ _ _ => rfl) fun _ a b _ => ?_,
    laneWise_of_lanes (f := fun _ a b c => if c ≠ 0 then a else b) (fun _ _ _ => rfl) fun _ a b c => ite_not _ _ _,
    laneWise_of_lanes (f := fun _ a _ _ => a &&& 0x7FFFFFFF) (fun _ _ _ => rfl) fun _ _ _ _ => rfl,
    laneWise_of_lanes (f := fun _ a _ _ => a ^^^ 0x80000000) (fun _ _ _ => rfl) fun _ _ _ _ => rfl,
    laneWise_of_lanes (f := fun _ a b _ => (a &&& 0x7FFFFFFF) ||| (b &&& 0x80000000)) (fun _ _ _ => rfl) fun _ _ _ _ => rfl,
    laneWise_of_lanes (f := fun x _ _ _ => x.imm) (fun _ _ _ => rfl) fun _ _ _ _ => rfl⟩
  case refine_1 => exact BitVec.eq_of_toNat_eq (by simp)
  case refine_2 =>
    apply BitVec.eq_of_toNat_eq
    rw [BitVec.toNat_sub, BitVec.toNat_ofInt]
    omega
  case refine_3 => simp [← BitVec.toNat_and]
  case refine_4 => simp [← BitVec.toNat_or]
  case refine_5 => simp [← BitVec.toNat_xor]
  case refine_6 => exact BitVec.eq_of_toNat_eq (by simp [Nat.shiftLeft_eq])
  case refine_7 =>
    apply BitVec.eq_of_toNat_eq
    rw [BitVec.toNat_ushiftRight, Nat.shiftRight_eq_div_pow, BitVec.toNat_ofNat,
      Nat.mod_eq_of_lt ((Nat.div_le_self _ _).trans_lt a.isLt)]
  case refine_8 => exact congrArg (BitVec.ofInt 32) (Int.shiftRight_eq_div_pow _ _)
  case refine_9 => simp [mask32, maskOf, BitVec.toNat_inj]
  case refine_10 => simp [mask32, maskOf, BitVec.slt]
  case refine_11 => exact BitVec.eq_of_toNat_eq (by simp)

/-- Two values are unordered exactly where one of them is NaN. -/
theorem cmpVal_eq_none_iff (a b : FVal) : cmpVal a b = none ↔ a = .nan ∨ b = .nan := by
  cases a <;> cases b <;> simp [cmpVal]

/-- The floating-point rows (R59, R60): each is the model's operation, and the masks are its comparisons. -/
theorem clause_vectorFloats : Clause.vectorFloats := by
  unfold Clause.vectorFloats
  refine ⟨laneWise_of_lanes (f := fun x a b _ => fadd x.rm.val a b) (fun _ _ _ => rfl) fun _ _ _ _ => rfl,
    laneWise_of_lanes (f := fun x a b _ => fsub x.rm.val a b) (fun _ _ _ => rfl) fun _ _ _ _ => rfl,
    laneWise_of_lanes (f := fun x a b _ => fmul x.rm.val a b) (fun _ _ _ => rfl) fun _ _ _ _ => rfl,
    laneWise_of_lanes (f := fun x a b c => ffma x.rm.val a b c) (fun _ _ _ => rfl) fun _ _ _ _ => rfl,
    laneWise_of_lanes (f := fun x a b _ => fdiv x.rm.val a b) (fun _ _ _ => rfl) fun _ _ _ _ => rfl,
    laneWise_of_lanes (f := fun x a _ _ => fsqrt x.rm.val a) (fun _ _ _ => rfl) fun _ _ _ _ => rfl,
    laneWise_of_lanes (f := fun _ a b _ => fmin a b) (fun _ _ _ => rfl) fun _ _ _ _ => rfl,
    laneWise_of_lanes (f := fun _ a b _ => fmax a b) (fun _ _ _ => rfl) fun _ _ _ _ => rfl,
    laneWise_of_lanes (f := fun _ a b _ => mask32 (cmpVal (val32 a) (val32 b) = some .eq)) (fun _ _ _ => rfl) fun _ _ _ _ => ?_,
    laneWise_of_lanes (f := fun _ a b _ => mask32 (cmpVal (val32 a) (val32 b) = some .lt)) (fun _ _ _ => rfl) fun _ _ _ _ => ?_,
    laneWise_of_lanes (f := fun _ a b _ => mask32 (cmpVal (val32 a) (val32 b) = some .lt || cmpVal (val32 a) (val32 b) = some .eq))
      (fun _ _ _ => rfl) fun _ _ _ _ => ?_,
    laneWise_of_lanes (f := fun _ a b _ => mask32 (cmpVal (val32 a) (val32 b) = none)) (fun _ _ _ => rfl) fun _ _ _ _ => ?_,
    laneWise_of_lanes (f := fun _ a _ _ => toG (exp2Val (val32 a))) (fun _ _ _ => rfl) fun _ _ _ _ => rfl,
    laneWise_of_lanes (f := fun _ a _ _ => toG (log2Val (val32 a))) (fun _ _ _ => rfl) fun _ _ _ _ => rfl,
    laneWise_of_lanes (f := fun _ a _ _ => toG (rcpVal (val32 a))) (fun _ _ _ => rfl) fun _ _ _ _ => rfl,
    laneWise_of_lanes (f := fun _ a _ _ => toG (rsqrtVal (val32 a))) (fun _ _ _ => rfl) fun _ _ _ _ => rfl⟩
  case refine_1 => simp [mask32, maskOf]
  case refine_2 => simp [mask32, maskOf]
  case refine_3 => simp [mask32, maskOf]
  case refine_4 => simp [mask32, maskOf, cmpVal_eq_none_iff]

/-- Settles O2: each row is the lane-wise function of its operation. -/
theorem vectorArithmetic : Obligations.VectorArithmetic := by
  unfold Obligations.VectorArithmetic
  exact ⟨clause_vectorIntegers, clause_vectorFloats⟩

end Sys2Proof.Machine
end


section
/-! SUPPORT. Conversions, reductions and the accumulators (R32, R42, R39, R40, R45, R46, R51, R58, R61, R62): packed elements of a
register, a register as a number, the registers of an accumulator, the operands of a tile step; and the settled obligation. -/

namespace Sys2Proof.Machine

open Sys2Proof

/-! ### Packed elements (R32) -/

theorem packNat_lt (w : Nat) (r : List Nat) : packNat w r < 2 ^ (w * r.length) := by
  induction r with
  | nil => simp [packNat]
  | cons x r ih =>
    have hx : x % 2 ^ w < 2 ^ w := Nat.mod_lt _ (by positivity)
    calc packNat w (x :: r) < 2 ^ w * (packNat w r + 1) := by rw [packNat, Nat.mul_add]; omega
      _ ≤ 2 ^ w * 2 ^ (w * r.length) := Nat.mul_le_mul_left _ ih
      _ = 2 ^ (w * (x :: r).length) := by rw [← Nat.pow_add, List.length_cons, Nat.mul_succ, Nat.add_comm]

theorem packNat_lt_of_le {w m : Nat} {r : List Nat} (h : w * r.length ≤ m) : packNat w r < 2 ^ m :=
  (packNat_lt w r).trans_le (Nat.pow_le_pow_right Nat.two_pos h)

/-- Element `j` of a packed run. -/
theorem bitsOf_packNat (w : Nat) (r : List Nat) (j : Nat) : bitsOf (packNat w r) (w * j) w = r.getD j 0 % 2 ^ w := by
  have hw : 0 < 2 ^ w := by positivity
  induction r generalizing j with
  | nil => simp [packNat, bitsOf]
  | cons x r ih =>
    cases j with
    | zero => simp [packNat, bitsOf]
    | succ j =>
      have hstep : (x % 2 ^ w + 2 ^ w * packNat w r) / 2 ^ w = packNat w r := by
        rw [Nat.add_mul_div_left _ _ hw, Nat.div_eq_of_lt (Nat.mod_lt _ hw), Nat.zero_add]
      rw [List.getD_cons_succ, ← ih, bitsOf, bitsOf, packNat, Nat.mul_succ, Nat.add_comm (w * j), Nat.pow_add,
        ← Nat.div_div_eq_div_mul, hstep]

/-- Packing takes each element modulo its width. -/
theorem packNat_map_mod (w : Nat) (r : List Nat) : packNat w (r.map (· % 2 ^ w)) = packNat w r := by
  induction r with
  | nil => rfl
  | cons x r ih => simp [packNat, ih]

/-- The digits of a number packed again. -/
theorem packNat_digits (w m n : Nat) : packNat w ((List.range m).map (fun i => n / 2 ^ (w * i))) = n % 2 ^ (w * m) := by
  induction m generalizing n with
  | zero => simp [packNat, Nat.mod_one]
  | succ m ih =>
    have hshift : ∀ i, n / 2 ^ (w * (i + 1)) = n / 2 ^ w / 2 ^ (w * i) := fun i => by
      rw [Nat.div_div_eq_div_mul, ← Nat.pow_add, Nat.mul_succ, Nat.add_comm]
    rw [List.range_succ_eq_map, List.map_cons, List.map_map, packNat]
    simp only [Function.comp_def, Nat.succ_eq_add_one, hshift, ih]
    rw [Nat.mul_succ, Nat.add_comm (w * m), Nat.pow_add, Nat.mod_mul]
    simp

theorem packNat_digits_of_lt {w m n : Nat} (h : n < 2 ^ (w * m)) : packNat w ((List.range m).map (fun i => n / 2 ^ (w * i))) = n :=
  (packNat_digits w m n).trans (Nat.mod_eq_of_lt h)

/-- Element `j` of those unpacked. -/
theorem getD_unpackNat (w : Nat) {m j : Nat} (h : j < m) (n : Nat) : (unpackNat w m n).getD j 0 = bitsOf n (w * j) w := by
  induction m generalizing n j with
  | zero => omega
  | succ m ih =>
    cases j with
    | zero => simp [unpackNat, bitsOf]
    | succ j =>
      rw [unpackNat, List.getD_cons_succ, ih (by omega), bitsOf, bitsOf, Nat.div_div_eq_div_mul, ← Nat.pow_add, Nat.mul_succ,
        Nat.add_comm]

@[simp] theorem length_unpackNat (w m n : Nat) : (unpackNat w m n).length = m := by
  induction m generalizing n with
  | zero => rfl
  | succ m ih => rw [unpackNat, List.length_cons, ih]

/-! ### A register as a number (R100) -/

/-- A number of 2,048 bits is that of its register. -/
theorem vregNat_vregOf {n : Nat} (h : n < 2 ^ (32 * 64)) : vregNat (vregOf n) = n := by
  have hlanes : (vregOf n).toList.map BitVec.toNat = ((List.range 64).map (fun i => n / 2 ^ (32 * i))).map (· % 2 ^ 32) := by
    apply List.ext_getElem
    · simp
    · intro j h1 h2
      simp [vregOf]
  rw [vregNat, hlanes, packNat_map_mod, packNat_digits_of_lt h]

theorem getElem_vregOf (n : Nat) (j : Fin 64) : (vregOf n)[j] = BitVec.ofNat 32 (n / 2 ^ (32 * j.val)) := getElem_ofFn_fin _ j

/-- Lane `j` of a register of 32-bit elements. -/
theorem getElem_vregOf_packNat (r : List Nat) (j : Fin 64) : (vregOf (packNat 32 r))[j] = BitVec.ofNat 32 (r.getD j.val 0) := by
  have h := bitsOf_packNat 32 r j.val
  rw [getElem_vregOf]
  apply BitVec.eq_of_toNat_eq
  rw [BitVec.toNat_ofNat, BitVec.toNat_ofNat]
  exact h

theorem fmtBits_le (c : Nat) : fmtBits c ≤ 32 := by
  unfold fmtBits
  split <;> omega

/-- The number of a register of 64 elements of a format. -/
theorem vregNat_pack (c : Nat) {r : List Nat} (h : r.length = 64) :
    vregNat (vregOf (packNat (fmtBits c) r)) = packNat (fmtBits c) r := by
  have hle : fmtBits c * r.length ≤ 32 * 64 := h ▸ Nat.mul_le_mul_right _ (fmtBits_le c)
  exact vregNat_vregOf (packNat_lt_of_le hle)

/-- Element `j` of a register in a format (R100). -/
theorem getD_vregElems (c : Nat) (v : VReg) {j : Nat} (h : j < 64) :
    (vregElems c v).getD j 0 = bitsOf (vregNat v) (fmtBits c * j) (fmtBits c) := by
  rw [vregElems, getD_unpackNat _ h]

@[simp] theorem length_vregElems (c : Nat) (v : VReg) : (vregElems c v).length = 64 := length_unpackNat _ _ _

/-- A list made of the numbers below 64 and the elements of a register. -/
theorem getD_zipWith_vregElems (f : Nat → Nat → Nat) (c : Nat) (v : VReg) {j : Nat} (h : j < 64) :
    ((List.range 64).zipWith f (vregElems c v)).getD j 0 = f j (bitsOf (vregNat v) (fmtBits c * j) (fmtBits c)) := by
  rw [← getD_vregElems c v h, List.getD_eq_getElem _ _ (by simpa using h), List.getD_eq_getElem _ _ (by simpa using h)]
  simp

theorem length_zipWith_vregElems (f : Nat → Nat → Nat) (c : Nat) (v : VReg) :
    ((List.range 64).zipWith f (vregElems c v)).length = 64 := by simp

/-! ### Blocks (R39) -/

theorem length_mxQuant (c rm : Nat) (r : List FVal) : (mxQuant c rm r).1.length = r.length := by
  unfold mxQuant
  split
  · exact List.length_map _
  · split <;> exact List.length_map _

/-- A scale is a byte. -/
theorem scale_mxQuant_lt (c rm : Nat) (r : List FVal) : (mxQuant c rm r).2 < 256 := by
  unfold mxQuant
  split
  · exact (by decide : 0xFF < 256)
  · split
    · exact (by decide : 0 < 256)
    · dsimp only
      omega

/-! ### Conversions and reductions -/

section

variable {s : State} {l : Fin 128} {e : Fin 16} {p : Fin 144} {k : Fin 8} {i : Nat} {b : List (BitVec 16)}

/-- A class 0 command that writes one register. -/
theorem State.vecCmd_setV {op : Nat} (h : s.starts l e p k i 0 op b) (f : VecOp → Eng → VReg) :
    ∃ t g, s.vecCmd l e op (fun x g => g.setV x.vd (f x g)) = .next t ∧ s.onlyEng t p k g ∧
      g = { s.engOf p k with v := g.v, q := ranIn (s.engOf p k).q i [] } ∧ (∀ r, r ≠ (vecOf b).vd → g.v[r] = (s.engOf p k).v[r]) ∧
      g.v[(vecOf b).vd] = f (vecOf b) ((s.engOf p k).ranAt i []) := by
  obtain ⟨t, ht, hs⟩ := State.vecCmd_of_starts h (fun x g => g.setV x.vd (f x g))
  exact ⟨t, _, ht, hs, rfl, fun r hr => Eng.v_setV_other _ hr _, Eng.v_setV_same _ _ _⟩

/-- A reduction writes lane 0 of VD, and +0 elsewhere. -/
theorem State.reduce_of_starts {op : Nat} (h : s.starts l e p k i 0 op b) (f : List (BitVec 32) → BitVec 32) :
    ∃ t g, s.reduce l e op f = .next t ∧ s.onlyEng t p k g ∧ g = { s.engOf p k with v := g.v, q := ranIn (s.engOf p k).q i [] } ∧
      (∀ r, r ≠ (vecOf b).vd → g.v[r] = (s.engOf p k).v[r]) ∧
      ∀ j : Fin 64, g.v[(vecOf b).vd][j] = if j = 0 then f (s.engOf p k).v[(vecOf b).va].toList else 0 := by
  obtain ⟨t, g, ht, hs, hg, hother, hvd⟩ := State.vecCmd_setV h (fun x g => lane0 (f g.v[x.va].toList))
  refine ⟨t, g, ht, hs, hg, hother, fun j => ?_⟩
  rw [hvd, lane0, getElem_ofFn_fin]
  simp only [Fin.ext_iff]
  rfl

/-- The vector registers after MXQ with different registers VD and VC: the elements in VD, the scales in lane 0 of VC. -/
theorem v_mxqEng (g : Eng) {x : VecOp} (hne : x.vc ≠ x.vd) (q0 q1 : List Nat × Nat)
    (h0 : q0 = mxQuant x.fmtD.val x.rm.val ((g.v[x.va].toList.take 32).map val32))
    (h1 : q1 = mxQuant x.fmtD.val x.rm.val ((g.v[x.va].toList.drop 32).map val32)) :
    (∀ r, r ≠ x.vd → r ≠ x.vc → (mxqEng g x).v[r] = g.v[r]) ∧
      (mxqEng g x).v[x.vc] = g.v[x.vc].set 0 (BitVec.ofNat 32 (q0.2 + 256 * q1.2)) ∧
      (mxqEng g x).v[x.vd] = vregOf (packNat (fmtBits x.fmtD.val) (q0.1 ++ q1.1)) := by
  subst h0 h1
  simp only [mxqEng, List.map_take, List.map_drop]
  refine ⟨fun r hd hc => ?_, ?_, ?_⟩
  · rw [Eng.v_setV_other _ hc, Eng.v_setV_other _ hd]
  · rw [Eng.v_setV_same, Eng.v_setV_other _ hne]
  · rw [Eng.v_setV_other _ hne.symm, Eng.v_setV_same]

/-- Conversions and reductions (R42, R39, R40, R51): the elements are packed and unpacked in their format's width. -/
theorem clause_vectorConversions : Clause.vectorConversions := by
  unfold Clause.vectorConversions
  intro s l e p k i b x g0 q
  refine ⟨fun h => ?_, fun h hne => ?_, fun h => ?_, fun c hc h => ?_⟩
  · obtain ⟨t, g, ht, hs, hg, hother, hvd⟩ := State.vecCmd_setV h (fun x g => cvtReg g x)
    refine ⟨t, g, ht, hs, hg, hother, ?_⟩
    rw [hvd, cvtReg, vregNat_pack _ (length_zipWith_vregElems _ _ _)]
    refine ⟨(packNat_lt _ _).trans_eq (by rw [length_zipWith_vregElems, Nat.mul_comm]), fun j hj => ?_⟩
    rw [bitsOf_packNat, getD_zipWith_vregElems _ _ _ hj]
    rfl
  · obtain ⟨t, ht, hs⟩ := State.vecCmd_of_starts h (fun x g => mxqEng g x)
    obtain ⟨hother, hscale, helems⟩ := v_mxqEng (g0.ranAt i []) hne _ _ rfl rfl
    refine ⟨t, _, ht, hs, rfl, hother, fun j hj => ?_, ?_, fun j hj => ?_⟩
    · rw [hscale]
      exact Vector.getElem_set_ne _ _ fun e => hj (Fin.ext e.symm)
    · have h0 := scale_mxQuant_lt x.fmtD.val x.rm.val ((g0.v[x.va].toList.take 32).map val32)
      have h1 := scale_mxQuant_lt x.fmtD.val x.rm.val ((g0.v[x.va].toList.drop 32).map val32)
      rw [hscale]
      refine (congrArg BitVec.toNat (Vector.getElem_set_self _)).trans ((BitVec.toNat_ofNat _ _).trans (Nat.mod_eq_of_lt ?_))
      change (mxQuant x.fmtD.val x.rm.val ((g0.v[x.va].toList.take 32).map val32)).2 +
        256 * (mxQuant x.fmtD.val x.rm.val ((g0.v[x.va].toList.drop 32).map val32)).2 < _
      omega
    · rw [helems, vregNat_pack _ (by simp [length_mxQuant]), bitsOf_packNat]
      rfl
  · obtain ⟨t, g, ht, hs, hg, hother, hvd⟩ := State.vecCmd_setV h (fun x g => mxdReg g x)
    refine ⟨t, g, ht, hs, hg, hother, fun j => ?_⟩
    rw [hvd, mxdReg, getElem_vregOf_packNat, getD_zipWith_vregElems _ _ _ j.isLt, BitVec.ofNat_toNat, BitVec.setWidth_eq]
    congr 1
    split <;> rfl
  · simp only [List.mem_cons, List.not_mem_nil, or_false] at hc
    obtain rfl | rfl | rfl := hc
    · exact State.reduce_of_starts h psum
    · exact State.reduce_of_starts h (pairReduce fmax 0)
    · exact State.reduce_of_starts h (pairReduce fmin 0)

end

/-! ### Accumulators (R58) -/

/-- The registers from `d` on wrap. -/
theorem vplus_inj {d : Fin 32} {m n : Nat} (hm : m < 32) (hn : n < 32) : vplus d m = vplus d n ↔ m = n := by
  simp only [vplus, Fin.ext_iff, Fin.ofNat]
  omega

theorem vplus_zero (d : Fin 32) : vplus d 0 = d := finOfNat_val d

/-- Four registers written from `d` on. -/
def Eng.setV4 (g : Eng) (d : Fin 32) (f : Nat → VReg) : Eng :=
  (((g.setV d (f 0)).setV (vplus d 1) (f 1)).setV (vplus d 2) (f 2)).setV (vplus d 3) (f 3)

theorem Eng.v_setV4_other (g : Eng) (d : Fin 32) (f : Nat → VReg) {r : Fin 32} (h : ∀ m, m < 4 → r ≠ vplus d m) :
    (g.setV4 d f).v[r] = g.v[r] := by
  have h0 : r ≠ d := vplus_zero d ▸ h 0 (by decide)
  rw [Eng.setV4, Eng.v_setV_other _ (h 3 (by decide)), Eng.v_setV_other _ (h 2 (by decide)), Eng.v_setV_other _ (h 1 (by decide)),
    Eng.v_setV_other _ h0]

theorem Eng.v_setV4 (g : Eng) (d : Fin 32) (f : Nat → VReg) {m : Nat} (hm : m < 4) : (g.setV4 d f).v[vplus d m] = f m := by
  have hne : ∀ {c : Nat}, c < 4 → m ≠ c → vplus d m ≠ vplus d c := fun hc hmc he => hmc ((vplus_inj (by omega) (by omega)).mp he)
  rw [Eng.setV4]
  by_cases h3 : m = 3
  · rw [h3, Eng.v_setV_same]
  rw [Eng.v_setV_other _ (hne (by decide) h3)]
  by_cases h2 : m = 2
  · rw [h2, Eng.v_setV_same]
  rw [Eng.v_setV_other _ (hne (by decide) h2)]
  by_cases h1 : m = 1
  · rw [h1, Eng.v_setV_same]
  obtain rfl : m = 0 := by omega
  rw [Eng.v_setV_other _ (hne (by decide) h1), vplus_zero, Eng.v_setV_same]

theorem getElem_accLane (a : AccReg) (m : Fin 4) (j : Fin 64) : (accLane a m.val)[j] = a[64 * m.val + j.val] := by
  rw [accLane, getElem_ofFn_fin, List.getD_eq_getElem _ _ (by simp; omega)]
  simp

/-- An accumulator of an engine replaced. -/
def Eng.setA (g : Eng) (c : Fin 4) (a : AccReg) : Eng := { g with a := g.a.set c a }

theorem Eng.a_setA_same (g : Eng) (c : Fin 4) (a : AccReg) : (g.setA c a).a[c] = a := Vector.getElem_set_self _

theorem Eng.a_setA_other (g : Eng) {c d : Fin 4} (h : d ≠ c) (a : AccReg) : (g.setA c a).a[d] = g.a[d] := by
  simp only [Eng.setA, Fin.getElem_fin]
  exact Vector.getElem_set_ne _ _ fun e => h (Fin.ext e.symm)

/-! ### Scratch and a pavilion replaced -/

@[simp] theorem State.spByte_setPav (s : State) (p : Fin 144) (x : Pav) (l a : Nat) : (s.setPav p x).spByte l a = s.spByte l a := rfl

@[simp] theorem State.spBytes_setPav (s : State) (p : Fin 144) (x : Pav) (l a n : Nat) :
    (s.setPav p x).spBytes l a n = s.spBytes l a n := by simp [State.spBytes_eq_map]

@[simp] theorem State.spByte_markRan (s : State) (p : Fin 144) (k : Fin 8) (i : Nat) (ids : List Nat) (l a : Nat) :
    (s.markRan p k i ids).spByte l a = s.spByte l a := rfl

@[simp] theorem State.spBytes_markRan (s : State) (p : Fin 144) (k : Fin 8) (i : Nat) (ids : List Nat) (l a n : Nat) :
    (s.markRan p k i ids).spBytes l a n = s.spBytes l a n := State.spBytes_setPav _ _ _ _ _ _

/-- Without errors the reads leave nothing. -/
theorem State.lineErrs_nil (s : State) (l : Nat) (reads : Nat → Bool) : s.lineErrs l reads [] = (s, false) := rfl

/-- Row `i` of a tile operand (R61). -/
theorem getD_tileRows_markRan (s : State) (p : Fin 144) (k : Fin 8) (j : Nat) (ids : List Nat) (l c n line pitch : Nat) {i : Nat}
    (hi : i < 16) : ((s.markRan p k j ids).tileRows l c n line pitch).getD i [] = s.tileRow l c n line pitch i := by
  rw [State.tileRows, List.getD_eq_getElem _ _ (by simpa using hi)]
  simp [State.tileRow]

/-- Scale `i` of a line of scales (R62). -/
theorem getD_scales_markRan (s : State) (p : Fin 144) (k : Fin 8) (j : Nat) (ids : List Nat) (l line : Nat) {i : Nat} (hi : i < 16) :
    (((s.markRan p k j ids).spBytes l (line * 64) 16).map BitVec.toNat).getD i 0 = (s.spByte l (64 * line + i)).toNat := by
  rw [List.getD_eq_getElem _ _ (by simpa using hi)]
  simp [State.spBytes_eq_map, Nat.mul_comm]

section

variable {s : State} {l : Fin 128} {e : Fin 16} {p : Fin 144} {k : Fin 8} {i : Nat} {b : List (BitVec 16)}

/-- A command that replaces one accumulator. -/
theorem State.onlyEng_setA (c : Fin 4) (a : AccReg) :
    ∃ g, s.onlyEng ((s.markRan p k i []).setEng p k (((s.engOf p k).ranAt i []).setA c a)) p k g ∧
      g = { s.engOf p k with a := g.a, q := ranIn (s.engOf p k).q i [] } ∧ (∀ j, j ≠ c → g.a[j] = (s.engOf p k).a[j]) ∧ g.a[c] = a :=
  ⟨_, State.onlyEng_markRan_setEng _ _ _ _ _ _, rfl, fun _ hj => Eng.a_setA_other _ hj _, Eng.a_setA_same _ _ _⟩

/-- A class 0 command that writes one accumulator. -/
theorem State.vecCmd_setA {op : Nat} (h : s.starts l e p k i 0 op b) (f : VecOp → Eng → AccReg) :
    ∃ t g, s.vecCmd l e op (fun x g => g.setA x.acc (f x g)) = .next t ∧ s.onlyEng t p k g ∧
      g = { s.engOf p k with a := g.a, q := ranIn (s.engOf p k).q i [] } ∧ (∀ c, c ≠ (vecOf b).acc → g.a[c] = (s.engOf p k).a[c]) ∧
      g.a[(vecOf b).acc] = f (vecOf b) ((s.engOf p k).ranAt i []) := by
  obtain ⟨t, ht, hs⟩ := State.vecCmd_of_starts h (fun x g => g.setA x.acc (f x g))
  exact ⟨t, _, ht, hs, rfl, fun c hc => Eng.a_setA_other _ hc _, Eng.a_setA_same _ _ _⟩

/-- Registers as an accumulator: element `64 m + j` is lane `j` of the `m`-th register from `d` on. -/
def accOfV (g : Eng) (d : Fin 32) : AccReg :=
  Vector.ofFn (fun i => g.v[vplus d (i.val / 64)][i.val % 64]'(Nat.mod_lt _ (by decide)))

theorem getElem_accOfV (g : Eng) (d : Fin 32) (m : Fin 4) (j : Fin 64) : (accOfV g d)[64 * m.val + j.val] = g.v[vplus d m.val][j] := by
  have hdiv : (64 * m.val + j.val) / 64 = m.val := by omega
  have hmod : (64 * m.val + j.val) % 64 = j.val := by omega
  simp only [accOfV, Vector.getElem_ofFn, hdiv, hmod]
  rfl

theorem State.exec_accClear (h : s.starts l e p k i 1 1 b) : exec (.accClear l e) s =
    .next ((s.markRan p k i []).setEng p k (((s.engOf p k).ranAt i []).setA (tileOf b).acc (Vector.replicate 256 0))) := by
  change execAccClear l e s = _
  rw [execAccClear, State.runCmd_of_starts h, State.engOf_markRan]
  rfl

theorem State.exec_genSetup (h : s.starts l e p k i 4 0 b) : exec (.genSetup l e) s =
    .next ((s.markRan p k i []).setEng p k { (s.engOf p k).ranAt i [] with
      seed := BitVec.ofNat 64 (blkAddr b 1), step := BitVec.ofNat 32 (blkWord b 5 + 65536 * blkWord b 6)
      purpose := BitVec.ofNat 8 (blkWord b 7 / 256) }) := by
  have hpurpose : BitVec.ofNat 8 (bitsOf (blkWord b 7) 8 8) = BitVec.ofNat 8 (blkWord b 7 / 256) :=
    BitVec.eq_of_toNat_eq (by simp [bitsOf])
  change execGenSetup l e s = _
  rw [execGenSetup, State.runCmd_of_starts h, State.engOf_markRan, hpurpose]
  rfl

/-- The accumulator after a tile step whose reads find no error (R45, R46, R61, R62), from the state in which it runs. -/
def State.tileAcc (s : State) (l : Fin 128) (x : TileOp) (n : Nat) (a : AccReg) : AccReg :=
  Vector.ofFn (fun i => tileElem x.fmtA x.fmtB a[i] ((s.tileRows l.val x.fmtA n x.aLine x.aPitch).getD (i.val / 16) [])
    ((s.tileRows l.val x.fmtB n x.bLine x.bPitch).getD (i.val % 16) [])
    (((s.spBytes l.val (x.saLine * 64) 16).map BitVec.toNat).getD (i.val / 16) 0)
    (((s.spBytes l.val (x.sbLine * 64) 16).map BitVec.toNat).getD (i.val % 16) 0))

theorem State.exec_tileStep (h : s.starts l e p k i 1 0 b) {n : Nat} (hn : tileK (tileOf b).fmtA (tileOf b).fmtB = some n) :
    exec (.tileStep l e []) s =
      .next ((s.markRan p k i []).setEng p k (((s.engOf p k).ranAt i []).setA (tileOf b).acc
        ((s.markRan p k i []).tileAcc l (tileOf b) n (s.engOf p k).a[(tileOf b).acc]))) := by
  change execTileStep l e [] s = _
  simp only [execTileStep, State.runCmd_of_starts h, State.lineErrs_nil, Bool.false_eq_true, if_false, State.engOf_markRan, hn,
    Option.getD_some]
  rfl

theorem getElem_tileAcc_markRan (x : TileOp) (n : Nat) (a : AccReg) (r c : Fin 16) :
    ((s.markRan p k i []).tileAcc l x n a)[16 * r.val + c.val] =
      tileElem x.fmtA x.fmtB (a[16 * r.val + c.val]) (s.tileRow l.val x.fmtA n x.aLine x.aPitch r.val)
        (s.tileRow l.val x.fmtB n x.bLine x.bPitch c.val) (s.spByte l.val (64 * x.saLine + r.val)).toNat
        (s.spByte l.val (64 * x.sbLine + c.val)).toNat := by
  have hdiv : (16 * r.val + c.val) / 16 = r.val := by omega
  have hmod : (16 * r.val + c.val) % 16 = c.val := by omega
  simp only [State.tileAcc, Vector.getElem_ofFn, hdiv, hmod, getD_tileRows_markRan _ _ _ _ _ _ _ _ _ _ r.isLt,
    getD_tileRows_markRan _ _ _ _ _ _ _ _ _ _ c.isLt, getD_scales_markRan _ _ _ _ _ _ _ r.isLt, getD_scales_markRan _ _ _ _ _ _ _ c.isLt]
  rfl

/-- Accumulators, the tile and the generator (R58, R61, R62, R99). -/
theorem clause_accumulators : Clause.accumulators := by
  unfold Clause.accumulators
  intro s l e p k i b x y g0 q
  refine ⟨fun h => ?_, fun h => ?_, fun h => ?_, fun n h hn => ?_, fun h => ?_⟩
  · obtain ⟨t, ht, hs⟩ := State.vecCmd_of_starts h (fun x g => g.setV4 x.vd (accLane g.a[x.acc]))
    refine ⟨t, _, ht, hs, rfl, fun m j => ?_, fun r hr => Eng.v_setV4_other _ _ _ fun m hm => hr ⟨m, hm⟩⟩
    have hreg := Eng.v_setV4 (g0.ranAt i []) x.vd (accLane g0.a[x.acc]) m.isLt
    exact (congrArg (fun v : VReg => v[j]) hreg).trans (getElem_accLane _ m j)
  · obtain ⟨t, g, ht, hs, hg, hother, hacc⟩ := State.vecCmd_setA h (fun x g => accOfV g x.va)
    refine ⟨t, g, ht, hs, hg, hother, fun m j => ?_⟩
    rw [hacc]
    exact getElem_accOfV _ _ m j
  · obtain ⟨g, hs, hg, hother, hacc⟩ := State.onlyEng_setA (s := s) (p := p) (k := k) (i := i) y.acc (Vector.replicate 256 0)
    refine ⟨_, g, State.exec_accClear h, hs, hg, hother, fun j => ?_⟩
    rw [hacc]
    exact Vector.getElem_replicate _
  · obtain ⟨g, hs, hg, hother, hacc⟩ := State.onlyEng_setA (s := s) (p := p) (k := k) (i := i) y.acc
      ((s.markRan p k i []).tileAcc l y n g0.a[y.acc])
    refine ⟨_, g, State.exec_tileStep h hn, hs, hg, hother, fun r c => ?_⟩
    rw [hacc]
    exact getElem_tileAcc_markRan y n _ r c
  · exact ⟨_, State.exec_genSetup h, State.onlyEng_markRan_setEng _ _ _ _ _ _⟩

end

/-- Settles O7: the vector rows over packed elements, and the rows over the accumulators. -/
theorem conversionsAndTiles : Obligations.ConversionsAndTiles := by
  unfold Obligations.ConversionsAndTiles
  exact ⟨clause_vectorConversions, clause_accumulators⟩

end Sys2Proof.Machine
end


section
/-! SUPPORT. Scratch moves and mesh transfers (R58, R63, R67, R68, R78, R99, R287, R494): lanes as bytes of scratch, bytes of one
populated region written and read back, what GET and PUT leave; and the settled obligation. -/

namespace Sys2Proof.Machine

open Sys2Proof

/-! ### Lanes as bytes -/

theorem leNat_lt (b : List Byte) : leNat b < 256 ^ b.length := by
  induction b with
  | nil => exact Nat.one_pos
  | cons c r ih =>
    have hc := c.isLt
    rw [leNat, List.length_cons, Nat.pow_succ]
    omega

/-- Lane `j` of bytes of the program's scratch. -/
theorem State.byteLane_spBytes (s : State) (l a : Nat) {n j : Nat} (h : 4 * j + 4 ≤ n) :
    (byteLane (s.spBytes l a n) j).toNat = leNat (s.spBytes l (a + 4 * j) 4) := by
  have hlt := leNat_lt (s.spBytes l (a + 4 * j) 4)
  rw [State.length_spBytes] at hlt
  rw [byteLane, fieldAt, State.take_drop_spBytes _ _ _ h, BitVec.toNat_ofNat]
  exact Nat.mod_eq_of_lt hlt

theorem length_laneBytes (r : List (BitVec 32)) : (laneBytes r).length = 4 * r.length := by
  simp [laneBytes, Laws.leBytes_len, Nat.mul_comm]

/-! ### Scratch moves -/

/-- The program of a coupled pair is that of its even half (R78). -/
theorem even_of_engAt {s : State} {l : Fin 128} {e : Fin 16} {x : Fin 144 × Fin 8} (h : s.engAt l e = some x)
    (hc : s.coupled l.val = true) : l.val % 2 = 0 := by
  by_contra hodd
  have hone : l.val % 2 = 1 := by omega
  simp [State.engAt, hc, hone] at h

section

variable {s : State} {l : Fin 128} {e : Fin 16} {p : Fin 144} {k : Fin 8} {i : Nat} {b : List (BitVec 16)}

theorem State.exec_vload (h : s.starts l e p k i 2 0 b) : exec (.vload l e []) s =
    .next ((s.markRan p k i []).setEng p k (((s.engOf p k).ranAt i []).setV (moveReg b)
      (Vector.ofFn (fun j => byteLane (s.spBytes l.val (moveLine b * 64) 256) j.val)))) := by
  change execVload l e [] s = _
  simp only [execVload, State.runCmd_of_starts h, State.lineErrs_nil, Bool.false_eq_true, if_false, State.engOf_markRan,
    State.spBytes_markRan]

theorem State.exec_aload (h : s.starts l e p k i 2 2 b) : exec (.aload l e []) s =
    .next ((s.markRan p k i []).setEng p k (((s.engOf p k).ranAt i []).setA (moveAcc b)
      (Vector.ofFn (fun j => byteLane (s.spBytes l.val (moveLine b * 64) 1024) j.val)))) := by
  change execAload l e [] s = _
  simp only [execAload, State.runCmd_of_starts h, State.lineErrs_nil, Bool.false_eq_true, if_false, State.engOf_markRan,
    State.spBytes_markRan]
  rfl

theorem State.exec_vstore (h : s.starts l e p k i 2 1 b) : exec (.vstore l e) s =
    .next ((s.markRan p k i []).setSp l.val (64 * moveLine b) (laneBytes (s.engOf p k).v[moveReg b].toList)) := by
  change execVstore l e s = _
  rw [execVstore, State.runCmd_of_starts h, State.engOf_markRan, Nat.mul_comm]
  rfl

theorem State.exec_astore (h : s.starts l e p k i 2 3 b) : exec (.astore l e) s =
    .next ((s.markRan p k i []).setSp l.val (64 * moveLine b) (laneBytes (s.engOf p k).a[moveAcc b].toList)) := by
  change execAstore l e s = _
  rw [execAstore, State.runCmd_of_starts h, State.engOf_markRan, Nat.mul_comm]
  rfl

/-- Bytes written to the program's scratch by a command that has been marked as run. -/
theorem State.markRan_setSp (hm : s.scratchMapped l.val) (he : s.engAt l e = some (p, k)) {a : Nat} {d : List Byte}
    (ha : a + d.length ≤ s.spLimit l.val) :
    s.onlyEng { (s.markRan p k i []).setSp l.val a d with scratch := s.scratch } p k
        { s.engOf p k with q := ranIn (s.engOf p k).q i [] } ∧
      s.wroteSp ((s.markRan p k i []).setSp l.val a d) l.val a d := by
  constructor
  · rw [State.setSp_frame]
    exact State.onlyEng_setEng _ _ _ _
  · exact State.wroteSp_setSp (s := s.markRan p k i []) hm (even_of_engAt he) ha

/-- Scratch moves (R58, R78, R99): a lane is four bytes, little-endian. -/
theorem clause_scratchMoves : Clause.scratchMoves := by
  unfold Clause.scratchMoves
  intro s l e p k i b g0 q a
  refine ⟨fun h => ?_, fun h => ?_, fun hm => ⟨fun h ha => ?_, fun h ha => ?_⟩⟩
  · refine ⟨_, _, State.exec_vload h, State.onlyEng_markRan_setEng _ _ _ _ _ _, rfl, fun r hr => Eng.v_setV_other _ hr _, fun j => ?_⟩
    rw [Eng.v_setV_same, getElem_ofFn_fin, State.byteLane_spBytes _ _ _ (by omega), Nat.mul_comm]
  · obtain ⟨g, hs, hg, hother, hacc⟩ := State.onlyEng_setA (s := s) (p := p) (k := k) (i := i) (moveAcc b)
      (Vector.ofFn (fun j => byteLane (s.spBytes l.val (moveLine b * 64) 1024) j.val))
    refine ⟨_, g, State.exec_aload h, hs, hg, hother, fun j => ?_⟩
    rw [hacc, getElem_ofFn_fin, State.byteLane_spBytes _ _ _ (by omega), Nat.mul_comm]
  · exact ⟨_, State.exec_vstore h, State.markRan_setSp hm h.1 (by rw [length_laneBytes]; simpa using ha)⟩
  · exact ⟨_, State.exec_astore h, State.markRan_setSp hm h.1 (by rw [length_laneBytes]; simpa using ha)⟩

end

/-! ### Bytes of the device-physical address space -/

/-- A byte of scratch by its address (R19). -/
theorem State.byte_of_scratchAt {s : State} {a : Nat} {q : Fin 144} {k : Nat} (h : s.scratchAt a = some (q, k)) :
    s.byte a = s.sbyte q k ∧ k < 0x200000 := by
  unfold State.scratchAt at h
  split at h
  case isTrue hin =>
    obtain ⟨p, hp, hpk⟩ := Option.map_eq_some_iff.mp h
    obtain ⟨rfl, rfl⟩ := Prod.mk.inj hpk
    refine ⟨?_, Nat.mod_lt _ (by decide)⟩
    rw [State.byte, if_pos hin, hp]
    rfl
  case isFalse => exact absurd h (by simp)

/-- A byte written changes memory and scratch alone. -/
theorem State.setByte_frame (s : State) (a : Nat) (v : Byte) :
    s.setByte a v = { s with mem := (s.setByte a v).mem, scratch := (s.setByte a v).scratch } := by
  unfold State.setByte
  split
  · split <;> rfl
  · split <;> rfl

theorem State.setBytes_frame (s : State) (a : Nat) (b : List Byte) :
    s.setBytes a b = { s with mem := (s.setBytes a b).mem, scratch := (s.setBytes a b).scratch } := by
  induction b generalizing s a with
  | nil => rfl
  | cons c r ih => rw [State.setBytes, ih, State.setByte_frame]

theorem State.setBytes_append (s : State) (a : Nat) (b c : List Byte) : s.setBytes a (b ++ c) = (s.setBytes a b).setBytes (a + b.length) c := by
  induction b generalizing s a with
  | nil => rfl
  | cons x r ih => rw [List.cons_append, State.setBytes, ih, State.setBytes, List.length_cons, Nat.add_right_comm, Nat.add_assoc]

@[simp] theorem State.scratchAt_setBytes (s : State) (a : Nat) (b : List Byte) (c : Nat) : (s.setBytes a b).scratchAt c = s.scratchAt c := by
  rw [State.setBytes_frame]
  rfl

theorem State.mem_setByte_other (s : State) {a c : Nat} (v : Byte) (h : c ≠ a) :
    smGet memDefault (s.setByte a v).mem c = smGet memDefault s.mem c := by
  unfold State.setByte
  split
  · split <;> rfl
  · split
    · rfl
    · exact smGet_smSet_other _ _ _ _ _ h

theorem State.sbyte_setByte_other (s : State) {a : Nat} (v : Byte) {q : Fin 144} {k : Nat} (hk : k < 0x200000)
    (h : s.scratchAt a ≠ some (q, k)) : (s.setByte a v).sbyte q k = s.sbyte q k := by
  unfold State.setByte
  split
  case isTrue hin =>
    cases hp : s.phys? ((a - 0x4000000000) / 0x200000) with
    | none => rfl
    | some p =>
      refine smGet_smSet_other _ _ _ _ _ fun he => h ?_
      rw [State.scratchAt, if_pos hin, hp]
      exact congrArg some (Prod.ext (Fin.ext (by dsimp only; omega)) (by dsimp only; omega))
  case isFalse =>
    split <;> rfl

/-- Bytes written from `a` upward change no other byte. -/
theorem State.onlyBytes_setBytes (s : State) (a : Nat) (b : List Byte) : s.onlyBytes (s.setBytes a b) a b.length := by
  induction b using List.reverseRecOn with
  | nil => exact ⟨fun _ _ => rfl, fun _ _ _ _ => rfl⟩
  | append_singleton b c ih =>
    obtain ⟨hmem, hscratch⟩ := ih
    rw [State.setBytes_append, State.setBytes, State.setBytes, List.length_append, List.length_singleton]
    refine ⟨fun d hd => ?_, fun q k hk hq => ?_⟩
    · rw [State.mem_setByte_other _ _ (by omega)]
      exact hmem d (by omega)
    · rw [State.sbyte_setByte_other _ _ hk (by rw [State.scratchAt_setBytes]; exact hq _ (by omega) (by omega))]
      exact hscratch q k hk fun d hd hd' => hq d hd (by omega)

/-- The `n` addresses from `a` name bytes that a write changes, each its own: none in the log, and those in scratch in pavilions that
are present, no two the same. -/
def State.writable (s : State) (a n : Nat) : Prop :=
  ∀ c, a ≤ c → c < a + n → ((c < 0x4000000000 ∨ 0x4010200000 ≤ c) ∨ ∃ q k, s.scratchAt c = some (q, k) ∧
    ∀ d, a ≤ d → d < a + n → d ≠ c → s.scratchAt d ≠ some (q, k))

/-- A byte keeps its value when others are written. -/
theorem State.byte_of_onlyBytes {s t : State} {a n c : Nat} (h : s.onlyBytes t a n) (ht : ∀ d, t.scratchAt d = s.scratchAt d)
    (hc : c < a ∨ a + n ≤ c) (hw : (c < 0x4000000000 ∨ 0x4010200000 ≤ c) ∨ ∃ q k, s.scratchAt c = some (q, k) ∧
      ∀ d, a ≤ d → d < a + n → s.scratchAt d ≠ some (q, k)) : t.byte c = s.byte c := by
  rcases hw with hplain | ⟨q, k, hq, hother⟩
  · have h1 : ¬ (0x4000000000 ≤ c ∧ c < 0x4010000000) := by omega
    have h2 : ¬ (0x4010000000 ≤ c ∧ c < 0x4010200000) := by omega
    rw [State.byte, State.byte, if_neg h1, if_neg h2, if_neg h1, if_neg h2]
    exact h.1 c hc
  · obtain ⟨hs, hk⟩ := State.byte_of_scratchAt hq
    rw [hs, (State.byte_of_scratchAt ((ht c).trans hq)).1]
    exact h.2 q k hk hother

theorem State.bytes_eq_map (s : State) (a n : Nat) : s.bytes a n = (List.range n).map (fun i => s.byte (a + i)) := by
  induction n generalizing a with
  | zero => rfl
  | succ n ih =>
    rw [State.bytes, ih, List.range_succ_eq_map, List.map_cons, List.map_map]
    simp [Function.comp_def, Nat.add_assoc, Nat.add_comm 1]

/-- A byte written in scratch that is present, or outside scratch and the log, reads back. -/
theorem State.byte_setByte_of_writable {s : State} {c : Nat} (h : (c < 0x4000000000 ∨ 0x4010200000 ≤ c) ∨ (s.scratchAt c).isSome)
    (v : Byte) : (s.setByte c v).byte c = v := by
  rcases h with hplain | hscratch
  · exact State.byte_setByte_same _ _ _ (by omega) (by omega)
  · unfold State.scratchAt at hscratch
    split at hscratch
    case isTrue hin =>
      rw [Option.isSome_map] at hscratch
      exact State.byte_setByte_same _ _ _ (by omega) fun _ _ => hscratch
    case isFalse => exact absurd hscratch (by simp)

/-- Bytes written where a write changes them read back, and no other byte changes. -/
theorem State.wrote_setBytes {s : State} {a : Nat} {b : List Byte} (h : s.writable a b.length) : s.wrote (s.setBytes a b) a b := by
  refine ⟨?_, State.onlyBytes_setBytes s a b⟩
  rw [State.bytes_eq_map]
  refine List.ext_getElem (by simp) fun i _ hi => ?_
  rw [List.getElem_map, List.getElem_range]
  have hsplit : s.setBytes a b = ((s.setBytes a (b.take i)).setByte (a + i) b[i]).setBytes (a + i + 1) (b.drop (i + 1)) := by
    have hcons : b.take i ++ ([b[i]] ++ b.drop (i + 1)) = b := by simp
    have hlen : (b.take i).length = i := List.length_take_of_le hi.le
    conv_lhs => rw [← hcons, State.setBytes_append, State.setBytes_append, hlen]
    rfl
  have hat : ∀ c, ((s.setBytes a (b.take i)).setByte (a + i) b[i]).scratchAt c = s.scratchAt c := fun c =>
    (State.scratchAt_setBytes _ (a + i) [b[i]] c).trans (State.scratchAt_setBytes _ _ _ c)
  rw [hsplit, State.byte_of_onlyBytes (State.onlyBytes_setBytes _ _ _) (State.scratchAt_setBytes _ _ _) (by omega)]
  · refine State.byte_setByte_of_writable ((h (a + i) (by omega) (by omega)).imp_right ?_) _
    rintro ⟨q, k, hq, -⟩
    rw [State.scratchAt_setBytes, hq]
    rfl
  · refine (h (a + i) (by omega) (by omega)).imp_right ?_
    rintro ⟨q, k, hq, hother⟩
    refine ⟨q, k, (hat _).trans hq, fun d hd hd' => ?_⟩
    rw [List.length_drop] at hd'
    rw [hat]
    exact hother d (by omega) (by omega) (by omega)

/-! ### Regions (R19, R20) -/

theorem State.gddrBytes_le (s : State) : s.gddrBytes ≤ 0x3000000000 := by
  unfold State.gddrBytes
  split <;> omega

theorem eq_of_some_region {r q : Region} {b c m n : Nat} (h : some (r, b, m) = some (q, c, n)) : r = q ∧ b = c ∧ m = n := by
  simpa using h

/-- A populated region holds its address; it is the log, the scratch of a pavilion that is present, or away from both. -/
theorem State.regionAt_cases {s : State} {a b m : Nat} {r : Region} (h : s.regionAt a = some (r, b, m)) :
    b ≤ a ∧ (r = .log ∨ (∃ l, l < 128 ∧ (s.phys? l).isSome ∧ b = 0x4000000000 + l * 0x200000 ∧ m = 0x200000) ∨
      (b + m ≤ 0x4000000000 ∨ 0x4010200000 ≤ b)) := by
  have hg := s.gddrBytes_le
  unfold State.regionAt at h
  by_cases h1 : a < s.gddrBytes
  · rw [if_pos h1] at h
    obtain ⟨-, rfl, rfl⟩ := eq_of_some_region h
    exact ⟨Nat.zero_le _, .inr (.inr (.inl (by omega)))⟩
  rw [if_neg h1] at h
  by_cases h2 : a < 0x4000000000
  · exact absurd ((if_pos h2).symm.trans h) nofun
  rw [if_neg h2] at h
  by_cases h3 : a < 0x4010000000
  · rw [if_pos h3] at h
    dsimp only at h
    by_cases hp : s.present ((a - 0x4000000000) / 0x200000) = true
    · rw [if_pos hp] at h
      obtain ⟨-, rfl, rfl⟩ := eq_of_some_region h
      obtain ⟨hl, hphys⟩ := Bool.and_eq_true_iff.mp hp
      exact ⟨by omega, .inr (.inl ⟨_, of_decide_eq_true hl, hphys, rfl, rfl⟩)⟩
    · exact absurd ((if_neg hp).symm.trans h) nofun
  rw [if_neg h3] at h
  by_cases h4 : a < 0x4010200000
  · rw [if_pos h4] at h
    obtain ⟨rfl, rfl, rfl⟩ := eq_of_some_region h
    exact ⟨by omega, .inl rfl⟩
  rw [if_neg h4] at h
  have hfar : b ≤ a ∧ 0x4010200000 ≤ b := by
    split_ifs at h
    all_goals
      obtain ⟨-, rfl, rfl⟩ := eq_of_some_region h
      omega
  exact ⟨hfar.1, .inr (.inr (.inr hfar.2))⟩

/-- The region of a range holds its first address and does not end before the range. -/
theorem State.regionAt_of_region? {s : State} {a n : Nat} {r : Region} (h : s.region? a n = some r) :
    ∃ b m, s.regionAt a = some (r, b, m) ∧ a + n ≤ b + m := by
  unfold State.region? at h
  split at h
  case h_1 r' b m hr =>
    split at h
    case isTrue hin => exact ⟨b, m, Option.some.inj h ▸ hr, hin⟩
    case isFalse => exact absurd h nofun
  case h_2 => exact absurd h nofun

theorem State.region?_of_accessSt {s : State} {a n : Nat} (h : s.accessSt a n = .ok) : ∃ r, s.region? a n = some r := by
  cases hr : s.region? a n with
  | some r => exact ⟨r, rfl⟩
  | none =>
    rw [State.accessSt, hr] at h
    exact absurd h nofun

/-- The bytes of an access that can be made, outside the log, are written by a write. -/
theorem State.writable_of_accessSt {s : State} {a n : Nat} (h : s.accessSt a n = .ok) (hlog : s.region? a n ≠ some .log) :
    s.writable a n := by
  obtain ⟨r, hr⟩ := State.region?_of_accessSt h
  obtain ⟨b, m, hat, hin⟩ := State.regionAt_of_region? hr
  obtain ⟨hb, rfl | ⟨l, hl, hp, rfl, rfl⟩ | hplain⟩ := State.regionAt_cases hat
  · exact absurd hr hlog
  · obtain ⟨p, hp⟩ := Option.isSome_iff_exists.mp hp
    have hscratch : ∀ c, a ≤ c → c < a + n → s.scratchAt c = some (p, c - (0x4000000000 + l * 0x200000)) := fun c hc hc' => by
      have hdiv : (c - 0x4000000000) / 0x200000 = l := by omega
      have hmod : (c - 0x4000000000) % 0x200000 = c - (0x4000000000 + l * 0x200000) := by omega
      rw [State.scratchAt, if_pos (by omega), hdiv, hmod, hp]
      rfl
    intro c hc hc'
    refine .inr ⟨_, _, hscratch c hc hc', fun d hd hd' hne he => hne ?_⟩
    have hoff := (Prod.mk.inj (Option.some.inj ((hscratch d hd hd').symm.trans he))).2
    omega
  · exact fun c hc hc' => .inl (by omega)

/-! ### Transfers (R67, R68, R494) -/

section

variable (s : State) (p : Fin 144) (k : Fin 8) (i : Nat) (ids : List Nat)

theorem State.accessSt_markRan (a n : Nat) : (s.markRan p k i ids).accessSt a n = s.accessSt a n := by
  have hrefusing : ∀ q, ((s.markRan p k i ids).pav q).refusing = (s.pav q).refusing := fun q => by
    rw [State.markRan_eq, State.pav_setEng]
    split
    case isTrue hq => rw [hq]
    case isFalse => rfl
  simp only [State.accessSt, hrefusing]
  rfl

theorem State.bytesHeld_markRan (a n : Nat) : (s.markRan p k i ids).bytesHeld a n = s.bytesHeld a n := by
  induction n generalizing a with
  | zero => rfl
  | succ n ih => exact congrArg _ (ih (a + 1))

end

theorem ranIn_ranIn (q : List QCmd) (i : Nat) (ids jds : List Nat) : ranIn (ranIn q i ids) i jds = ranIn q i jds := by
  apply List.ext_getElem
  · simp [ranIn]
  · intro j _ _
    simp only [ranIn, List.getElem_mapIdx]
    split <;> rfl

@[simp] theorem State.length_bytesHeld (s : State) (a n : Nat) : (s.bytesHeld a n).length = n := by
  induction n generalizing a with
  | zero => rfl
  | succ n ih => rw [State.bytesHeld, List.length_cons, ih]

section

variable {s : State} {l : Fin 128} {e : Fin 16} {p : Fin 144} {k : Fin 8} {i : Nat} {b : List (BitVec 16)}

theorem State.exec_get (h : s.starts l e p k i 3 0 b) (hacc : s.accessSt (xferAddr b) (64 * xferCount b) = .ok)
    (htag : s.noTag (xferAddr b) (64 * xferCount b) = false) : exec (.get l e []) s =
      .next ((s.markRan p k i []).setSp l.val (64 * xferLine b) (s.bytesHeld (xferAddr b) (64 * xferCount b))) := by
  have htag' : (s.markRan p k i []).noTag (xferAddr b) (64 * xferCount b) = false := htag
  change execGet l e [] s = _
  simp only [execGet, State.runCmd_of_starts h, htag', Bool.false_eq_true, if_false, State.accessSt_markRan, hacc, ne_eq,
    not_true_eq_false, State.bytesHeld_markRan, Nat.mul_comm (xferLine b)]
  rfl

/-- The state in which the lines of a PUT are written: the command is marked as run and its writes are issued. -/
def State.putting (s : State) (p : Fin 144) (k : Fin 8) (i : Nat) (b : List (BitVec 16)) : State :=
  (s.markRan p k i []).setPav p (((s.markRan p k i []).pav p).issueWrites (s.destOf (xferAddr b)) (xferCount b))

/-- A write that nothing holds lands at once. -/
theorem State.devWrite_of_not_held {s : State} {a : Nat} {d : List Byte} {sown : Bool} {o : HeldFor}
    (h : s.writeHeld a d.length o = false) : s.devWrite a d sown o = s.land a d o := if_neg (Bool.eq_false_iff.mp h)

theorem State.exec_put (h : s.starts l e p k i 3 1 b) (hacc : s.accessSt (xferAddr b) (64 * xferCount b) = .ok)
    (hheld : s.writeHeld (xferAddr b) (64 * xferCount b) (.put p (s.pav p).nextWrite (xferCount b)) = false) :
    exec (.put l e [] []) s = .next (((s.putting p k i b).land (xferAddr b) (s.spBytes l.val (64 * xferLine b) (64 * xferCount b))
      (.put p (s.pav p).nextWrite (xferCount b))).markRan p k i
        ((List.range (xferCount b)).map (fun j => (s.pav p).nextWrite + j))) := by
  have hnext : ((s.markRan p k i []).pav p).nextWrite = (s.pav p).nextWrite := by
    rw [State.markRan_eq, State.pav_setEng, if_pos rfl]
  have hheld' : (s.putting p k i b).writeHeld (xferAddr b) (64 * xferCount b) (.put p (s.pav p).nextWrite (xferCount b)) = false := hheld
  change execPut l e [] [] s = _
  simp only [execPut, State.runCmd_of_starts h, State.lineErrs_nil, State.accessSt_markRan, hacc, ne_eq, not_true_eq_false,
    List.any_nil, Bool.false_eq_true, or_false, if_false, hnext, State.spBytes_markRan, Nat.mul_comm (xferLine b)]
  rw [if_pos ⟨trivial, rfl⟩]
  exact congrArg (fun t : State => Host.Outcome.next (t.markRan p k i _)) (State.devWrite_of_not_held (by rwa [State.length_spBytes]))

end

/-- A write on a link changes what is sent alone. -/
theorem State.sendWr_frame (s : State) (f : Option Nat) (ro : Nat → Bool) (a : Nat) (d : List Byte) :
    s.sendWr f ro a d = { s with out := (s.sendWr f ro a d).out } := by
  unfold State.sendWr
  split <;> rfl

/-- A write that lands changes memory, scratch and what is sent alone. -/
theorem State.land_frame (s : State) (a : Nat) (d : List Byte) (o : HeldFor) :
    s.land a d o = { s with mem := (s.setBytes a d).mem, scratch := (s.setBytes a d).scratch, out := (s.land a d o).out } :=
  (State.sendWr_frame _ _ _ _ _).trans
    (congrArg (fun t : State => { t with out := (s.land a d o).out }) (s.setBytes_frame a d))

/-- A device write of a pavilion leaves on the link of its address, if it has one (R287, R296). -/
theorem State.out_land (s : State) (a : Nat) (d : List Byte) (p : Fin 144) (id n : Nat) :
    (s.linkOf a d.length = none → (s.land a d (.put p id n)).out = s.out) ∧
      ∀ h, s.linkOf a d.length = some h →
        (s.land a d (.put p id n)).out = .memWr h (reqFn h none) (s.relaxed h) (s.ideOn h) a d :: s.out := by
  have hlink : (s.setBytes a d).linkOf a d.length = s.linkOf a d.length := by rw [State.setBytes_frame]; rfl
  constructor
  · intro hn
    rw [State.land, State.sendWr, hlink, hn, State.setBytes_frame]
  · intro h hs
    rw [State.land, State.sendWr, hlink, hs, State.setBytes_frame]
    rfl

/-- Bytes written stay written where pavilions and what is sent change. -/
theorem State.wrote_of_frame {s t u : State} {a : Nat} {d : List Byte} (h : s.wrote t a d)
    (hu : u = { t with pavs := u.pavs, out := u.out }) : s.wrote u a d := by
  obtain ⟨hread, hother⟩ := h
  rw [hu]
  refine ⟨?_, hother⟩
  rw [State.bytes_eq_map] at hread ⊢
  exact hread

section

variable (s : State) (p : Fin 144) (k : Fin 8) (i : Nat) (b : List (BitVec 16))

/-- The lines of a PUT are writes of its pavilion, one each. -/
theorem State.pav_putting_same : (s.putting p k i b).pav p =
    { s.pav p with
      eng := (s.pav p).eng.set k ((s.engOf p k).ranAt i [])
      writes := (s.pav p).writes ++ (List.range (xferCount b)).map
        (fun j => { id := (s.pav p).nextWrite + j, dest := s.destOf (xferAddr b) })
      nextWrite := (s.pav p).nextWrite + xferCount b } := by
  rw [State.putting, State.pav_setPav_same, State.markRan_eq, State.pav_setEng, if_pos rfl]
  rfl

theorem State.pav_putting_other {q : Fin 144} (h : q ≠ p) : (s.putting p k i b).pav q = s.pav q := by
  rw [State.putting, State.pav_setPav_other _ _ _ _ h, State.markRan_eq, State.pav_setEng, if_neg h]

theorem State.engOf_putting_same : (s.putting p k i b).engOf p k = (s.engOf p k).ranAt i [] := by
  rw [State.engOf, State.pav_putting_same]
  exact Vector.getElem_set_self _

theorem State.engOf_putting_other {j : Fin 8} (h : j ≠ k) : (s.putting p k i b).engOf p j = s.engOf p j := by
  simp only [State.engOf, State.pav_putting_same, Fin.getElem_fin]
  exact Vector.getElem_set_ne _ _ fun e => h (Fin.ext e.symm)

end

@[simp] theorem State.pav_land (s : State) (a : Nat) (d : List Byte) (o : HeldFor) (q : Fin 144) : (s.land a d o).pav q = s.pav q := by
  rw [State.land_frame]
  rfl

@[simp] theorem State.engOf_land (s : State) (a : Nat) (d : List Byte) (o : HeldFor) (q : Fin 144) (j : Fin 8) :
    (s.land a d o).engOf q j = s.engOf q j := congrArg (fun x : Pav => x.eng[j]) (s.pav_land a d o q)

/-- Mesh transfers (R67, R68, R287, R494): the lines are copied, and each line of a PUT is a write to be acknowledged. -/
theorem clause_meshTransfers : Clause.meshTransfers := by
  unfold Clause.meshTransfers
  intro s l e p k i b g0 a n z first hacc
  refine ⟨fun h htag hm hz => ?_, fun h hlog hheld => ?_⟩
  · exact ⟨_, State.exec_get h hacc htag, State.markRan_setSp hm h.1 (by rwa [State.length_bytesHeld])⟩
  · have hd : (s.spBytes l.val z (64 * n)).length = 64 * n := State.length_spBytes _ _ _ _
    have hwritable : s.writable a (s.spBytes l.val z (64 * n)).length := by
      rw [hd]
      exact State.writable_of_accessSt hacc hlog
    have hwrote : s.wrote ((s.putting p k i b).setBytes a (s.spBytes l.val z (64 * n))) a (s.spBytes l.val z (64 * n)) :=
      State.wrote_setBytes (s := s.putting p k i b) hwritable
    obtain ⟨hquiet, hsent⟩ := State.out_land (s.putting p k i b) a (s.spBytes l.val z (64 * n)) p first n
    rw [hd] at hquiet hsent
    refine ⟨_, State.exec_put h hacc hheld, ?_, ?_, fun q hq => ?_, ?_, ?_, fun j hj => ?_, hquiet, hsent⟩
    · rw [State.land_frame]
      rfl
    · refine State.wrote_of_frame hwrote ?_
      rw [State.land, State.sendWr_frame]
      rfl
    · rw [State.markRan_eq, State.pav_setEng, if_neg hq, State.pav_land, State.pav_putting_other _ _ _ _ _ hq]
    · rw [State.markRan_eq, State.pav_setEng, if_pos rfl, State.pav_land, State.pav_putting_same]
    · rw [State.engOf_markRan, State.engOf_land, State.engOf_putting_same]
      exact congrArg (fun q => { g0 with q := q }) (ranIn_ranIn _ _ _ _)
    · rw [State.markRan_eq, State.engOf_setEng_other _ _ hj, State.engOf_land, State.engOf_putting_other _ _ _ _ _ hj]

/-- Settles O8: scratch moves and mesh transfers. -/
theorem scratchAndMesh : Obligations.ScratchAndMesh := by
  unfold Obligations.ScratchAndMesh
  exact ⟨clause_scratchMoves, clause_meshTransfers⟩

end Sys2Proof.Machine
end


section
/-! SUPPORT. ISSUE, completions and waits (R97, R102, R103, R105): a block queued, a command completed, a wait that ends or times
out; and the settled obligation. -/

namespace Sys2Proof.Machine

open Sys2Proof

/-! ### A sequencer and an engine -/

/-- An engine and a sequencer alone change. -/
theorem State.onlySeqEng_setEng_setSeq (s : State) (p q : Fin 144) (k : Fin 8) (y : Seq) (g : Eng) :
    s.onlySeqEng ((s.setEng q k g).setSeq p y) p y q k g := by
  have hpav : ∀ r, ((s.setEng q k g).setSeq p y).pav r =
      { (s.setEng q k g).pav r with seq := if r = p then y else (s.setEng q k g).seqOf r } := fun r => by
    rw [State.setSeq, State.pav_setPav]
    split
    case isTrue h => rw [h]
    case isFalse => rfl
  have heng : ∀ r j, ((s.setEng q k g).setSeq p y).engOf r j = (s.setEng q k g).engOf r j := fun r j => by
    rw [State.engOf, hpav]
    rfl
  have hseq : ∀ r, (s.setEng q k g).pav r = { s.pav r with eng := ((s.setEng q k g).pav r).eng } := fun r => by
    rw [State.pav_setEng]
    split
    case isTrue h => rw [h]
    case isFalse => rfl
  refine ⟨rfl, fun r => ?_, fun r hr => ?_, ?_, (heng q k).trans (State.engOf_setEng_same ..), fun r j hrj => (heng r j).trans ?_⟩
  · rw [hpav, hseq]
  · rw [State.seqOf, hpav, if_neg hr, State.seqOf, hseq]
    rfl
  · rw [State.seqOf, hpav, if_pos rfl]
  · by_cases hr : r = q
    · rw [hr]
      exact State.engOf_setEng_other _ _ (fun hj => hrj (by rw [hr, hj])) _
    · rw [State.engOf, State.pav_setEng, if_neg hr]
      rfl

theorem State.seqOf_setEng (s : State) (p q : Fin 144) (k : Fin 8) (g : Eng) : (s.setEng q k g).seqOf p = s.seqOf p := by
  rw [State.seqOf, State.pav_setEng]
  split
  case isTrue h => rw [h]; rfl
  case isFalse => rfl

/-- A condition met changes what the schedule keeps of it alone. -/
theorem State.met_frame (s : State) (l : Nat) : s.met l = { s with sch := (s.met l).sch } := by
  unfold State.met
  split
  · unfold State.metNow
    split <;> rfl
  · rfl

/-! ### ISSUE (R97) -/

section

variable {s : State} {l : Fin 128} {p q : Fin 144} {x : Seq} {e i c : Fin 16} {k : Fin 8}

/-- The engine with a block queued. -/
def Eng.queued (g : Eng) (b : List (BitVec 16)) (c : Fin 16) : Eng := { g with q := g.q ++ [{ blk := b, ctr := c, ran := false, ids := [] }] }

theorem State.enqueue_leaves (s : State) (p : Fin 144) (x : Seq) (q : Fin 144) (k : Fin 8) (b : List (BitVec 16)) (c : Fin 16) :
    s.onlySeqEng (s.enqueue p x q k b c) p { x with pc := x.pc + 1, mode := .running } q k ((s.engOf q k).queued b c) :=
  State.onlySeqEng_setEng_setSeq _ _ _ _ _ _

section

variable (h : s.runsOp l p x (.issue e i c)) (hal : (x.g i).toNat % 8 = 0) (hle : (x.g i).toNat ≤ 0x7FF8)
include h hal hle

theorem State.exec_issue_queued (he : s.engAt l e = some (q, k)) (hc : s.checkBlock l.val ((s.pav p).block (x.g i).toNat) = none)
    (hq : (s.engOf q k).q.length < 4) :
    exec (.issue l e i c false) s = .next (s.enqueue p x q k ((s.pav p).block (x.g i).toNat) c) := by
  change execIssue l e i c false s = _
  simp only [execIssue, State.onRun_of_runs h.1 h.2, hal, he, hc, ne_eq, not_true_eq_false, false_or, Nat.not_lt.mpr hle, if_false,
    Bool.false_eq_true, Nat.not_le.mpr hq]

theorem State.exec_issue_stalled (he : s.engAt l e = some (q, k)) (hc : s.checkBlock l.val ((s.pav p).block (x.g i).toNat) = none)
    (hq : 4 ≤ (s.engOf q k).q.length) :
    exec (.issue l e i c false) s = .next (s.setSeq p { x with mode := .issueStall e i c }) := by
  change execIssue l e i c false s = _
  simp only [execIssue, State.onRun_of_runs h.1 h.2, hal, he, hc, ne_eq, not_true_eq_false, false_or, Nat.not_lt.mpr hle, if_false,
    Bool.false_eq_true, hq, if_true]

theorem State.exec_issue_absent (hi : x.inTrap = false) (he : s.engAt l e = none) :
    exec (.issue l e i c false) s = .next (s.setSeq p (x.trapped ((s.pav p).fetch x.pc) 2 none)) := by
  change execIssue l e i c false s = _
  simp only [execIssue, State.onRun_of_runs h.1 h.2, hal, he, ne_eq, not_true_eq_false, false_or, Nat.not_lt.mpr hle, if_false,
    State.trap_of_not_inTrap hi]

theorem State.exec_issue_refused (hi : x.inTrap = false) (he : s.engAt l e = some (q, k)) {n : Nat}
    (hc : s.checkBlock l.val ((s.pav p).block (x.g i).toNat) = some n) :
    exec (.issue l e i c false) s = .next (s.setSeq p (x.trapped ((s.pav p).fetch x.pc) 3 (some n))) := by
  change execIssue l e i c false s = _
  simp only [execIssue, State.onRun_of_runs h.1 h.2, hal, he, hc, ne_eq, not_true_eq_false, false_or, Nat.not_lt.mpr hle, if_false,
    Bool.false_eq_true, State.trap_of_not_inTrap hi]

end

theorem State.exec_issue_misplaced (h : s.runsOp l p x (.issue e i c)) (ha : (x.g i).toNat % 8 ≠ 0 ∨ 0x7FF8 < (x.g i).toNat)
    (hi : x.inTrap = false) :
    exec (.issue l e i c false) s = .next (s.setSeq p (x.trapped ((s.pav p).fetch x.pc) 1 none)) := by
  change execIssue l e i c false s = _
  simp only [execIssue, State.onRun_of_runs h.1 h.2, if_pos ha, State.trap_of_not_inTrap hi]

theorem State.exec_issueResume (hs : s.seqAt l = some p) (hm : (s.seqOf p).mode = .issueStall e i c) (he : s.engAt l e = some (q, k))
    (hq : (s.engOf q k).q.length < 4) :
    exec (.issueResume l) s = .next (s.enqueue p (s.seqOf p) q k ((s.pav p).block ((s.seqOf p).g i).toNat) c) := by
  change execIssueResume l s = _
  simp only [execIssueResume, hs, hm, he, hq, if_true]

/-! ### Completion (R102, R103) -/

section

variable {j : Fin 4} {m : QCmd} (he : s.engAt l e = some (q, k)) (hp : s.phys? l.val = some p) (hm : (s.engOf q k).q[j.val]? = some m)
include he hp hm

/-- A command that has run and whose writes are acknowledged, without a signal, is removed and counted. -/
theorem State.exec_engineCommandComplete (hbit : bitOf (m.blk.getD 0 0).toNat 1 = false) (hran : m.ran = true)
    (hw : ∀ w ∈ (s.pav q).writes, w.id ∉ m.ids) :
    exec (.engineCommandComplete l e j) s =
      .next (((s.setEng q k { s.engOf q k with q := (s.engOf q k).q.eraseIdx j.val }).setSeq p ((s.seqOf p).bump m.ctr)).met l.val) := by
  have hbit' : bitOf (blkWord m.blk 0) 1 = false := hbit
  have hnone : ¬ (m.ran = false ∨ (s.pav q).writes.any (fun w => m.ids.contains w.id) = true) := by
    simpa [hran] using hw
  change execEngineCommandComplete l e j s = _
  simp only [execEngineCommandComplete, he, hp, hm, if_neg hnone, hbit', Bool.false_eq_true, false_and, if_false]
  rw [← State.seqOf_setEng s p q k]
  rfl

theorem State.exec_engineCommandComplete_early (h : m.ran = false ∨ ∃ w ∈ (s.pav q).writes, w.id ∈ m.ids) :
    exec (.engineCommandComplete l e j) s = .next s := by
  have hsome : m.ran = false ∨ (s.pav q).writes.any (fun w => m.ids.contains w.id) = true := by simpa using h
  change execEngineCommandComplete l e j s = _
  simp only [execEngineCommandComplete, he, hp, hm, if_pos hsome]

end

/-- ISSUE and completions (R97, R102, R103). -/
theorem clause_issueQueues : Clause.issueQueues := by
  unfold Clause.issueQueues
  intro s l p x e i c j
  refine ⟨fun h hal hle q k he hc => ⟨fun hq => ?_, fun hq => ?_⟩, fun hs hx hm q k he hq => ?_,
    fun q k m he hp hm hbit hx => ⟨fun hran hw => ?_, fun hwait => ?_⟩,
    fun h hi => ⟨fun ha => ?_, fun hal hle he => ?_, fun hal hle he n hc => ?_⟩⟩
  · have hmode : x.mode = .running := h.1.2.2
    have hleaves := s.enqueue_leaves p x q k ((s.pav p).block (x.g i).toNat) c
    rw [← hmode] at hleaves
    exact ⟨_, State.exec_issue_queued h hal hle he hc hq, hleaves⟩
  · exact ⟨_, State.exec_issue_stalled h hal hle he hc hq, State.onlySeq_setSeq _ _ _⟩
  · subst hx
    exact ⟨_, State.exec_issueResume hs hm he hq, State.enqueue_leaves _ _ _ _ _ _ _⟩
  · subst hx
    refine ⟨_, State.exec_engineCommandComplete he hp hm hbit hran hw, ?_⟩
    rw [State.met_frame]
    exact State.onlySeqEng_setEng_setSeq _ _ _ _ _ _
  · exact State.exec_engineCommandComplete_early he hp hm hwait
  · exact ⟨_, _, State.exec_issue_misplaced h ha hi, State.onlySeq_setSeq _ _ _, rfl, rfl⟩
  · exact ⟨_, _, State.exec_issue_absent h hal hle hi he, State.onlySeq_setSeq _ _ _, rfl, rfl⟩
  · obtain ⟨⟨q, k⟩, he⟩ := Option.ne_none_iff_exists'.mp he
    exact ⟨_, _, State.exec_issue_refused h hal hle hi he hc, State.onlySeq_setSeq _ _ _, rfl, rfl, rfl⟩

end

/-! ### Waits (R105) -/

section

variable {s : State} {l : Fin 128} {p : Fin 144}

/-- A pending wait whose condition holds and that has no threshold to subtract. -/
theorem State.exec_waitComplete_plain (hs : s.seqAt l = some p) (hh : s.waitHolds l.val p (s.seqOf p) = true)
    (hc : ∀ c t k n, (s.seqOf p).mode ≠ .waitC c t k n) (hm : ∀ m t k n, (s.seqOf p).mode ≠ .waitS m t k n) :
    exec (.waitComplete l) s = .next (s.setSeq p { (s.seqOf p).past 1 with mode := .running }) := by
  change execWaitComplete l s = _
  simp only [execWaitComplete, hs, hh, if_true]

/-- A local counter from which a consuming wait subtracts its threshold (R105). -/
def Seq.consumed (x : Seq) (c t : Fin 16) (k : Bool) : Seq := if k then { x with ctr := x.ctr.set c (x.ctr[c] - x.g t) } else x

theorem Seq.consumed_frame (x : Seq) (c t : Fin 16) (k : Bool) :
    { (x.consumed c t k).past 1 with mode := .running } =
      { x with ctr := (x.consumed c t k).ctr, pc := x.pc + 1, mode := .running } := by
  cases k <;> rfl

theorem Seq.ctr_consumed (x : Seq) (c t : Fin 16) (k : Bool) (j : Fin 16) :
    (x.consumed c t k).ctr[j] = if j = c ∧ k = true then x.ctr[c] - x.g t else x.ctr[j] := by
  cases k with
  | false => simp [Seq.consumed]
  | true =>
    by_cases hj : j = c
    · subst hj
      simp [Seq.consumed]
    · have hne : c.val ≠ j.val := fun e => hj (Fin.ext e.symm)
      simp [Seq.consumed, hj, Vector.getElem_set_ne _ _ hne]

theorem State.exec_waitComplete_waitC {c t : Fin 16} {k : Bool} {n : Nat} (hs : s.seqAt l = some p)
    (hm : (s.seqOf p).mode = .waitC c t k n) (h : ((s.seqOf p).g t).toNat ≤ (s.seqOf p).ctr[c].toNat) :
    exec (.waitComplete l) s = .next (s.setSeq p
      { ((s.seqOf p).consumed c t k).past 1 with mode := .running }) := by
  have hh : s.waitHolds l.val p (s.seqOf p) = true := by
    rw [State.waitHolds, hm]
    exact decide_eq_true h
  change execWaitComplete l s = _
  simp only [execWaitComplete, Seq.consumed, hs, hh, if_true, hm]

theorem State.exec_waitComplete_waitS {m : Fin 64} {t : Fin 16} {k : Bool} {n : Nat} (hs : s.seqAt l = some p)
    (hm : (s.seqOf p).mode = .waitS m t k n) (h : ((s.seqOf p).g t).toNat ≤ (s.pav p).sems[m].toNat) :
    exec (.waitComplete l) s = .next (s.setPav p { s.pav p with
      sems := if k then (s.pav p).sems.set m ((s.pav p).sems[m] - ((s.seqOf p).g t).zeroExtend 32) else (s.pav p).sems
      seq := { (s.seqOf p).past 2 with mode := .running } }) := by
  have hh : s.waitHolds l.val p (s.seqOf p) = true := by
    rw [State.waitHolds, hm]
    exact decide_eq_true h
  change execWaitComplete l s = _
  simp only [execWaitComplete, hs, hh, if_true, hm]

/-- A semaphore from which a consuming wait subtracts its threshold (R69). -/
theorem toNat_sems_consumed (v : Vector (BitVec 32) 64) (m j : Fin 64) (k : Bool) {a : BitVec 16} (h : a.toNat ≤ v[m].toNat) :
    (((if k then v.set m (v[m] - a.zeroExtend 32) else v)[j]).toNat : Int) = v[j].toNat - if j = m ∧ k = true then a.toNat else 0 := by
  have hv := v[m].isLt
  have ha : (a.zeroExtend 32).toNat = a.toNat := BitVec.toNat_setWidth_of_le (by decide)
  cases k with
  | false => simp
  | true =>
    by_cases hj : j = m
    · subst hj
      simp only [if_true, and_self, Fin.getElem_fin, Vector.getElem_set_self, BitVec.toNat_sub, ha]
      simp only [Fin.getElem_fin] at h hv
      omega
    · have hne : m.val ≠ j.val := fun e => hj (Fin.ext e.symm)
      simp [hj, Vector.getElem_set_ne _ _ hne]

/-- A wait still pending after its time traps. -/
theorem State.exec_waitTimeout {n : Nat} (hs : s.seqAt l = some p) (hn : (s.seqOf p).mode.since = some n) (hw : (s.seqOf p).wto ≠ 0)
    (hh : s.waitHolds l.val p (s.seqOf p) = false) (hi : (s.seqOf p).inTrap = false) :
    exec (.waitTimeout l) s = .next ((s.atLeast (n + (s.seqOf p).wto.toNat * 512)).setSeq p
      ((s.seqOf p).trapped ((s.pav p).fetch (s.seqOf p).pc) 4 none)) := by
  change execWaitTimeout l s = _
  simp only [execWaitTimeout, hs, hn, hh, hw, Bool.false_eq_true, or_false, if_false, State.trap_of_not_inTrap hi]
  rfl

/-- Waits (R93, R105, R111). -/
theorem clause_waits : Clause.waits := by
  unfold Clause.waits
  intro s l p x c t m k n hs hx
  subst hx
  refine ⟨fun hr => ?_, fun hm h => ?_, fun hm h => ?_, fun hm h => ?_, fun ids hm h => ?_, fun hn hh hw hi => ?_⟩
  · have hruns : s.runs l p (s.seqOf p) := ⟨hs, rfl, hr⟩
    refine ⟨fun ho => ?_, fun ho => ?_, fun ho => ?_, fun ho => ?_, fun ho => ?_⟩
    · refine ⟨_, State.onRun_of_runs hruns ho (fun p x => (s.setSeq p { x with mode := .waitE }).met l.val), ?_⟩
      rw [State.met_frame]
      exact State.onlySeq_setSeq _ _ _
    · exact State.onRun_seqOp ⟨hruns, ho⟩ (fun x => { x with mode := .waitC c t k s.now })
    · exact State.onRun_seqOp ⟨hruns, ho⟩ (fun x => { x with mode := .waitS m t k s.now })
    · exact State.onRun_seqOp ⟨hruns, ho⟩ (fun x => { x with mode := .waitIdle s.now })
    · exact State.onRun_seq hruns ho (fun p x => s.setSeq p { x with mode := .fence ((s.pav p).writes.map (fun w => w.id)) s.now }) _ rfl
  · exact ⟨_, _, State.exec_waitComplete_waitC hs hm h, State.onlySeq_setSeq _ _ _, Seq.consumed_frame _ _ _ _,
      fun j => Seq.ctr_consumed _ _ _ _ j⟩
  · refine ⟨_, State.exec_waitComplete_waitS hs hm h, rfl, fun q hq => State.pav_setPav_other _ _ _ _ hq, ?_⟩
    simp only [State.pav_setPav_same]
    exact ⟨rfl, fun j => toNat_sems_consumed _ m j k h⟩
  · refine ⟨_, State.exec_waitComplete_plain hs ?_ (by simp [hm]) (by simp [hm]), State.onlySeq_setSeq _ _ _⟩
    rw [State.waitHolds, hm]
    exact decide_eq_true h
  · refine ⟨_, State.exec_waitComplete_plain hs ?_ (by simp [hm]) (by simp [hm]), State.onlySeq_setSeq _ _ _⟩
    rw [State.waitHolds, hm]
    simpa using h
  · refine ⟨_, State.exec_waitTimeout hs hn hw hh hi, rfl, fun q hq => State.pav_setPav_other _ _ _ _ hq, ?_, ?_⟩
    · rw [Nat.mul_comm]
      exact (Nat.le_max_right _ _).trans_eq (State.atLeast_now s _).symm
    · rw [State.seqOf_setSeq]
      exact ⟨rfl, rfl, rfl, rfl, rfl, rfl, rfl, rfl⟩

end

/-- Settles O16: ISSUE and its queue, and the waits. -/
theorem issueAndWaits : Obligations.IssueAndWaits := by
  unfold Obligations.IssueAndWaits
  exact ⟨clause_issueQueues, clause_waits⟩

end Sys2Proof.Machine
end


section
/-! SUPPORT. Signals and the order of ADDs (R68 to R71, R106, R113, R497): an ADD held, sent and received, an acknowledgement, and
that the order in which the ADDs of one cycle are listed does not matter; and the settled obligation. -/

namespace Sys2Proof.Machine

open Sys2Proof

/-! ### Lists in an order -/

section

variable {α : Type} (le : α → α → Bool)

theorem insertBy_perm (x : α) (r : List α) : (insertBy le x r).Perm (x :: r) := by
  induction r with
  | nil => exact .refl _
  | cons y r ih =>
    rw [insertBy]
    split
    · exact .refl _
    · exact (ih.cons y).trans (.swap x y r)

theorem sortBy_perm (r : List α) : (sortBy le r).Perm r := by
  induction r with
  | nil => exact .refl _
  | cons x r ih => exact (insertBy_perm le x _).trans (ih.cons x)

end

/-- An element put in its place of a rising list leaves it rising. -/
theorem pairwise_insertBy {α : Type} (f : α → Nat) (x : α) {r : List α} (h : r.Pairwise (fun a b => f a ≤ f b)) :
    (insertBy (fun a b => decide (f a ≤ f b)) x r).Pairwise (fun a b => f a ≤ f b) := by
  induction r with
  | nil => exact List.pairwise_singleton _ _
  | cons y r ih =>
    obtain ⟨hy, hr⟩ := List.pairwise_cons.mp h
    rw [insertBy]
    split
    case isTrue hxy =>
      have hxy := of_decide_eq_true hxy
      exact List.pairwise_cons.mpr ⟨List.forall_mem_cons.mpr ⟨hxy, fun z hz => hxy.trans (hy z hz)⟩, h⟩
    case isFalse hxy =>
      have hyx : f y ≤ f x := (Nat.lt_of_not_le fun hle => hxy (decide_eq_true hle)).le
      refine List.pairwise_cons.mpr ⟨fun z hz => ?_, ih hr⟩
      rcases List.mem_cons.mp ((insertBy_perm _ x r).mem_iff.mp hz) with rfl | hz
      · exact hyx
      · exact hy z hz

theorem pairwise_sortBy {α : Type} (f : α → Nat) (r : List α) :
    (sortBy (fun a b => decide (f a ≤ f b)) r).Pairwise (fun a b => f a ≤ f b) := by
  induction r with
  | nil => exact .nil
  | cons x r ih => exact pairwise_insertBy f x ih

/-- A list whose ranks differ has one order, whichever way it is listed. -/
theorem sortBy_eq_of_perm {α : Type} (f : α → Nat) {a b : List α} (h : a.Perm b) (hn : (a.map f).Nodup) :
    sortBy (fun x y => decide (f x ≤ f y)) a = sortBy (fun x y => decide (f x ≤ f y)) b := by
  have hperm : (sortBy (fun x y => decide (f x ≤ f y)) a).Perm (sortBy (fun x y => decide (f x ≤ f y)) b) :=
    (sortBy_perm _ a).trans (h.trans (sortBy_perm _ b).symm)
  refine hperm.eq_of_pairwise (fun x y hx hy hxy hyx => ?_) (pairwise_sortBy f a) (pairwise_sortBy f b)
  have hxa : x ∈ a := (sortBy_perm _ a).mem_iff.mp hx
  have hya : y ∈ a := h.mem_iff.mpr ((sortBy_perm _ b).mem_iff.mp hy)
  exact List.inj_on_of_nodup_map hn hxa hya (Nat.le_antisymm hxy hyx)

/-! ### What an ADD changes (R69, R70) -/

/-- From `s` to `t` only pavilions, registers and the schedule have changed. -/
def State.addsLeave (s t : State) : Prop := t = { s with pavs := t.pavs, regs := t.regs, sch := t.sch }

theorem State.addsLeave.trans {s t u : State} (h : s.addsLeave t) (k : t.addsLeave u) : s.addsLeave u :=
  Eq.trans k (congrArg (fun z : State => { z with pavs := u.pavs, regs := u.regs, sch := u.sch }) h)

theorem State.addsLeave_semAdd (s : State) (l : Nat) (m : Fin 64) (a : BitVec 16) : s.addsLeave (s.semAdd l m a) := by
  unfold State.semAdd
  split
  · rfl
  · dsimp only
    split <;> rfl

theorem State.addsLeave_setPav (s : State) (p : Fin 144) (x : Pav) : s.addsLeave (s.setPav p x) := rfl

theorem State.addsLeave_met (s : State) (l : Nat) : s.addsLeave (s.met l) := by
  rw [State.met_frame]
  rfl

theorem State.addsLeave_addArrives (s : State) (l : Fin 128) (a : SemAdd) : s.addsLeave (s.addArrives l a) := by
  unfold State.addArrives
  split
  · split
    · rfl
    · split
      · rfl
      · exact ((State.addsLeave_setPav _ _ _).trans (State.addsLeave_semAdd _ _ _ _)).trans (State.addsLeave_met _ _)
  · exact State.addsLeave_semAdd _ _ _ _

theorem State.addsLeave_foldl (s : State) (l : Fin 128) (r : List SemAdd) : s.addsLeave (r.foldl (fun t a => t.addArrives l a) s) := by
  induction r generalizing s with
  | nil => rfl
  | cons a r ih => exact (State.addsLeave_addArrives s l a).trans (ih _)

/-- The order of the ADDs of one cycle is that of their sources (R71, R497). -/
theorem clause_semaphoreOrder : Clause.semaphoreOrder := by
  unfold Clause.semaphoreOrder
  intro s l a b h hn
  have hsort := sortBy_eq_of_perm (fun x : SemAdd => s.semRank x.src) h hn
  refine ⟨?_, _, rfl, State.addsLeave_foldl _ _ _⟩
  change execSemaphoreAdd l a s = execSemaphoreAdd l b s
  rw [execSemaphoreAdd, execSemaphoreAdd, hsort]

/-- The saturated sum of R70. -/
theorem toNat_semSum (v : BitVec 32) (a : BitVec 16) : ((semSum v a).1.toNat : Int) = max 0 (min 0xFFFFFFFF (v.toNat + a.toInt)) := by
  obtain ⟨hv, hr⟩ | ⟨hv, hr⟩ | ⟨⟨h0, h1⟩, hr⟩ := semSum_cases v a
  · rw [hr, max_eq_left (by omega)]
    rfl
  · rw [hr, min_eq_left (by omega)]
    rfl
  · rw [hr, min_eq_right h1, max_eq_right h0, BitVec.toNat_ofNat, Nat.mod_eq_of_lt (by omega)]
    exact Int.toNat_of_nonneg h0

@[simp] theorem State.pav_met (s : State) (l : Nat) (q : Fin 144) : (s.met l).pav q = s.pav q := by
  rw [State.met_frame]
  rfl

/-! ### Signals (R68, R106) -/

section

variable {s : State} {l : Fin 128} {p : Fin 144} {x : Seq} {t a : Fin 16} {all : Bool}

theorem State.exec_signal (h : s.runsOp l p x (.signal t a all)) (hg : (x.g t).toNat < 0x2000)
    (hp : s.present (bitsOf (x.g t).toNat 6 7) = true) :
    exec (.signal l t a all) s = .next (s.setPav p
      { (s.pav p).holdAdd (Fin.ofNat 128 (bitsOf (x.g t).toNat 6 7)) (Fin.ofNat 64 (x.g t).toNat) (x.g a) all with
        seq := x.past 1 }) := by
  change execSignal l t a all s = _
  simp only [execSignal, State.onRun_of_runs h.1 h.2, Nat.not_le.mpr hg, hp, Bool.true_eq_false, or_self, if_false]

theorem State.exec_signal_trap (h : s.runsOp l p x (.signal t a all)) (hi : x.inTrap = false)
    (hg : 0x2000 ≤ (x.g t).toNat ∨ s.present (bitsOf (x.g t).toNat 6 7) = false) :
    exec (.signal l t a all) s = .next (s.setSeq p (x.trapped ((s.pav p).fetch x.pc) 5 none)) := by
  change execSignal l t a all s = _
  simp only [execSignal, State.onRun_of_runs h.1 h.2, if_pos hg, State.trap_of_not_inTrap hi]

theorem State.exec_signalSend {h : HeldAdd} {r : List HeldAdd} (hp : s.phys? l.val = some p) (hh : (s.pav p).held = h :: r)
    (hw : ∀ w ∈ (s.pav p).writes, w.id ∉ h.waits) :
    exec (.signalSend l) s = .next (s.setPav p { s.pav p with held := r, flight := (s.pav p).flight ++ [h] }) := by
  have hnone : (s.pav p).writes.any (fun w => h.waits.contains w.id) = false := by simpa using hw
  change execSignalSend l s = _
  simp only [execSignalSend, hp, hh, hnone, Bool.false_eq_true, if_false]

/-! ### Acknowledgements (R68) -/

theorem State.exec_meshWriteAck {id : Nat} (hp : s.phys? l.val = some p) (hh : s.putHeld p id = false) :
    exec (.meshWriteAck l (s.pav p).niGen id) s = .next ((s.setPav p { s.pav p with
      writes := (s.pav p).writes.filter (fun w => decide (w.id ≠ id)) }).met l.val) := by
  change execMeshWriteAck l _ id s = _
  simp only [execMeshWriteAck, hp, hh, ne_eq, not_true_eq_false, Bool.false_eq_true, if_false]

theorem State.exec_meshWriteAck_stale {id : Nat} {g : BitVec 8} (hp : s.phys? l.val = some p) (hg : g ≠ (s.pav p).niGen) :
    exec (.meshWriteAck l g id) s = .next (s.count (fPAV_STALE_COUNT l.val) 1) := by
  change execMeshWriteAck l g id s = _
  simp only [execMeshWriteAck, hp, if_pos hg.symm]

/-! ### ADDs that arrive (R67, R69, R70) -/

/-- One ADD of a cycle. -/
theorem State.exec_semaphoreAdd_one (s : State) (l : Fin 128) (b : SemAdd) : exec (.semaphoreAdd l [b]) s = .next (s.addArrives l b) :=
  rfl

theorem State.addArrives_of_not_pav {b : SemAdd} (h : ∀ k, b.src ≠ .pav k) : s.addArrives l b = s.semAdd l.val b.sem b.amount := by
  unfold State.addArrives
  split
  case h_1 k hk => exact absurd hk (h k)
  case h_2 => rfl

theorem State.addArrives_of_dropFlight_none {k : Fin 128} {q : Fin 144} (hq : s.phys? k.val = some q) {m : Fin 64} {v : BitVec 16}
    (h : dropFlight l m v (s.pav q).flight = none) : s.addArrives l { src := .pav k, sem := m, amount := v } = s := by
  simp only [State.addArrives, hq, h]

theorem State.addArrives_of_dropFlight {k : Fin 128} {q : Fin 144} (hq : s.phys? k.val = some q) {m : Fin 64} {v : BitVec 16}
    {r : List HeldAdd} (h : dropFlight l m v (s.pav q).flight = some r) : s.addArrives l { src := .pav k, sem := m, amount := v } =
      ((s.setPav q { s.pav q with flight := r }).semAdd l.val m v).met k.val := by
  simp only [State.addArrives, hq, h]

/-- An ADD that arrives at a present pavilion leaves the saturated sum in its semaphore (R70). -/
theorem State.toNat_sems_semAdd (hp : s.phys? l.val = some p) (m : Fin 64) (v : BitVec 16) :
    ((((s.semAdd l.val m v).pav p).sems[m]).toNat : Int) = max 0 (min 0xFFFFFFFF ((s.pav p).sems[m].toNat + v.toInt)) := by
  rw [State.pav_semAdd hp, if_pos rfl, Pav.setSem_sems_same, toNat_semSum]

/-- An ADD changes no register but PAV_ERR. -/
theorem State.sameRegsBut_semAdd (hp : s.phys? l.val = some p) (m : Fin 64) (v : BitVec 16) :
    s.sameRegsBut (s.semAdd l.val m v) [fPAV_ERR_SEM_SAT.off] := by
  obtain ⟨hkeep, hsat⟩ := State.semAdd_regs hp m v
  cases hr : (semSum (s.pav p).sems[m] v).2 with
  | false => exact fun o _ => State.reg_congr (hkeep hr) o
  | true => exact (hsat hr).2

theorem State.exec_sequencerRelease (hp : s.phys? l.val = some p) (hm : (s.seqOf p).mode = .held) (hl : (s.seqOf p).loaded = true)
    (hr : (s.pav p).refusing = false) : exec (.sequencerRelease l) s = .next (s.setSeq p { s.seqOf p with mode := .waitE }) := by
  change execSequencerRelease l s = _
  simp only [execSequencerRelease, hp]
  rw [if_pos ⟨hm, hl, hr⟩]

/-- Signals, acknowledgements and ADDs (R68 to R71, R106, R113). -/
theorem clause_signals : Clause.signals := by
  unfold Clause.signals
  intro s l p x t a all
  refine ⟨fun h hg hp => ?_, fun h hi hg => ?_, fun h r hp hh hw => ?_, fun id hp hh => ?_, fun id g hp hg => ?_, fun m v b hp hb => ?_,
    fun k q h r m v hp hq hne hf hl => ⟨fun hm => ?_, fun hm => ?_⟩, fun hp hx hm hl hr => ?_⟩
  · refine ⟨_, State.exec_signal h hg hp, rfl, fun q hq => State.pav_setPav_other _ _ _ _ hq,
      { pav := Fin.ofNat 128 (bitsOf (x.g t).toNat 6 7), sem := Fin.ofNat 64 (x.g t).toNat, amount := x.g a
        waits := (s.pav p).fenceIds all (Fin.ofNat 128 (bitsOf (x.g t).toNat 6 7)) }, ?_, ?_, rfl, rfl, fun k => ?_⟩
    · rw [State.pav_setPav_same]
      rfl
    · exact Fin.ext (Nat.mod_mod _ _)
    · simp only [Pav.fenceIds, List.mem_map, List.mem_filter, Bool.or_eq_true, decide_eq_true_eq]
      exact exists_congr fun w => ⟨fun hw => ⟨hw.1.1, hw.2, hw.1.2⟩, fun hw => ⟨⟨hw.1, hw.2.2⟩, hw.2.1⟩⟩
  · exact ⟨_, _, State.exec_signal_trap h hi hg, State.onlySeq_setSeq _ _ _, rfl, rfl⟩
  · exact ⟨_, State.exec_signalSend hp hh hw, rfl, fun q hq => State.pav_setPav_other _ _ _ _ hq, State.pav_setPav_same _ _ _⟩
  · refine ⟨_, State.exec_meshWriteAck hp hh, ?_, fun q hq => ?_, ?_, fun w => ?_⟩
    · rw [State.met_frame]
      rfl
    · rw [State.pav_met, State.pav_setPav_other _ _ _ _ hq]
    · rw [State.pav_met, State.pav_setPav_same]
    · rw [State.pav_met, State.pav_setPav_same, List.mem_filter, decide_eq_true_eq]
  · refine ⟨_, State.exec_meshWriteAck_stale hp hg, rfl, State.sameRegsBut_setFld _ _ _, ?_⟩
    exact (State.fld_setFld_same _ _ _ (by decide : 0 + 32 ≤ 64)).trans
      (Nat.mod_eq_of_lt ((Nat.min_le_right _ _).trans_lt (Nat.sub_lt (Nat.two_pow_pos _) Nat.one_pos)))
  · obtain ⟨-, hother, hpav, hsems, -, -, -, hflag⟩ := semaphoreSaturation s l.val p m v hp
    have hexec := State.exec_semaphoreAdd_one s l { src := b, sem := m, amount := v }
    rw [State.addArrives_of_not_pav hb] at hexec
    exact ⟨_, hexec, State.addsLeave_semAdd _ _ _ _, hother, hpav, State.sameRegsBut_semAdd hp m v, hsems,
      State.toNat_sems_semAdd hp m v, fun h => (hflag h).1⟩
  · have hdrop : dropFlight l m v (s.pav q).flight = some r := by
      rw [hf, dropFlight, if_pos hl, if_pos hm]
    have hexec := State.exec_semaphoreAdd_one s l { src := .pav k, sem := m, amount := v }
    rw [State.addArrives_of_dropFlight hq hdrop] at hexec
    have hp' : (s.setPav q { s.pav q with flight := r }).phys? l.val = some p := hp
    refine ⟨_, hexec, ?_, ?_⟩
    · rw [State.pav_met, State.pav_semAdd hp', if_neg hne, State.pav_setPav_same]
    · rw [State.pav_met, State.toNat_sems_semAdd hp', State.pav_setPav_other _ _ _ _ hne.symm]
  · have hdrop : dropFlight l m v (s.pav q).flight = none := by
      rw [hf, dropFlight, if_pos hl, if_neg hm]
    have hexec := State.exec_semaphoreAdd_one s l { src := .pav k, sem := m, amount := v }
    rwa [State.addArrives_of_dropFlight_none hq hdrop] at hexec
  · subst hx
    exact ⟨_, State.exec_sequencerRelease hp hm hl hr, State.onlySeq_setSeq _ _ _⟩

end

/-- Settles O18: signals and ADDs, and the order of those of one cycle. -/
theorem signalsAndOrder : Obligations.SignalsAndOrder := by
  unfold Obligations.SignalsAndOrder
  exact ⟨clause_signals, clause_semaphoreOrder⟩

end Sys2Proof.Machine
end

section
/-! SUPPORT. Events, faults and notices (R140, R170, R430, R466 to R470, R498): what an event leaves, what the first fault of an
attempt shows and what every fault leaves, and the ports on which a notice waits. -/

namespace Sys2Proof.Machine

open Sys2Proof

/-! ### Registers below a window -/

/-- Every register below the offset `n` is as it was. -/
def State.sameRegsBelow (s t : State) (n : Nat) : Prop := ∀ o, o < n → t.reg o = s.reg o

theorem State.fld_of_sameReg {s t : State} {f : Fld} (h : t.reg f.off = s.reg f.off) : t.fld f = s.fld f := by
  rw [State.fld, State.fld, h]

theorem State.flag_of_sameReg {s t : State} {f : Fld} (h : t.reg f.off = s.reg f.off) : t.flag f = s.flag f := by
  rw [State.flag, State.flag, State.fld_of_sameReg h]

theorem State.sameRegsBelow_setFld (s : State) {f : Fld} {n : Nat} (h : n ≤ f.off) (v : Nat) : s.sameRegsBelow (s.setFld f v) n :=
  fun o ho => State.reg_setFld_other s f v o (by omega)

theorem State.sameRegsBelow.trans {s t u : State} {n : Nat} (h : s.sameRegsBelow t n) (k : t.sameRegsBelow u n) : s.sameRegsBelow u n :=
  fun o ho => (k o ho).trans (h o ho)

/-! ### Events -/

/-- From `s` to `t` there is at most what an event leaves (R430, R466 to R470): entries and records, messages, and registers of the
window of the queues and of those behind it. -/
def State.eventLeaves (s t : State) : Prop :=
  t = { s with regs := t.regs, mem := t.mem, scratch := t.scratch, out := t.out, log := t.log, que := t.que, hif := t.hif } ∧
    s.sameRegsBelow t 0x800000

theorem State.eventLeaves.refl (s : State) : s.eventLeaves s := ⟨rfl, fun _ _ => rfl⟩

theorem State.eventLeaves.trans {s t u : State} (h : s.eventLeaves t) (k : t.eventLeaves u) : s.eventLeaves u := by
  obtain ⟨hframe, hregs⟩ := h
  obtain ⟨kframe, kregs⟩ := k
  exact ⟨kframe.trans (congrArg (fun x : State =>
    { x with regs := u.regs, mem := u.mem, scratch := u.scratch, out := u.out, log := u.log, que := u.que, hif := u.hif }) hframe),
    hregs.trans kregs⟩

theorem State.eventLeaves_foldl {α : Type} {f : State → α → State} (hf : ∀ (t : State) (a : α), t.eventLeaves (f t a))
    (l : List α) (s : State) : s.eventLeaves (l.foldl f s) := by
  induction l generalizing s with
  | nil => exact .refl s
  | cons a r ih => exact (hf s a).trans (ih (f s a))

theorem State.eventLeaves_setFld (s : State) {f : Fld} (h : 0x800000 ≤ f.off) (v : Nat) : s.eventLeaves (s.setFld f v) :=
  ⟨rfl, State.sameRegsBelow_setFld s h v⟩

theorem State.eventLeaves_logWrite (s : State) (kind block part : Nat) (st : Status) (detail arg0 arg1 : Nat) :
    s.eventLeaves (s.logWrite kind block part st detail arg0 arg1) := by
  have hcount : ∀ (l : List (Nat × LogEntry)) (n : Nat), s.eventLeaves (({ s with log := l } : State).setFld fLOG_WR_COUNT n) :=
    fun l n => ⟨rfl, State.sameRegsBelow_setFld _ (by decide) n⟩
  unfold State.logWrite
  dsimp only
  split
  · exact (hcount _ _).trans (State.eventLeaves_setFld _ (by decide) 1)
  · exact hcount _ _

theorem State.eventLeaves_srcLevel (s : State) (n : Nat) (b : Bool) : s.eventLeaves (s.srcLevel n b) := by
  refine State.eventLeaves_foldl (fun t c => ?_) _ s
  have hraw : t.eventLeaves (t.setFld (fLDG_EV_SRC_RAW c n) (b2n b)) :=
    State.eventLeaves_setFld t (show 0x800000 ≤ 0xD01100 + 4096 * c + 4 * n by omega) _
  have hpend : ∀ v, t.eventLeaves ((t.setFld (fLDG_EV_SRC_RAW c n) (b2n b)).setFld (fLDG_EV_SRC_PENDING c n) v) := fun v =>
    hraw.trans (State.eventLeaves_setFld _ (show 0x800000 ≤ 0xD01100 + 4096 * c + 4 * n by omega) v)
  dsimp only
  split
  · exact hpend _
  all_goals
    split
    · exact hpend _
    · exact hraw

/-- A pulse of an event source (R434). -/
theorem State.eventLeaves_pulse (s : State) (n : Nat) : s.eventLeaves (s.pulse n) :=
  (s.eventLeaves_srcLevel n true).trans (State.eventLeaves_srcLevel _ n false)

theorem State.eventLeaves_msixSend (s : State) (fn : Fin 2) (v : Nat) : s.eventLeaves (s.msixSend fn v) := by
  unfold State.msixSend
  dsimp only
  split <;> exact ⟨rfl, fun _ _ => rfl⟩

theorem State.eventLeaves_setCq (s : State) (p : Fin 65) (q : Nat) (x : Cq) : s.eventLeaves (s.setCq p q x) := ⟨rfl, fun _ _ => rfl⟩

theorem State.eventLeaves_cqSignal (s : State) (p : Fin 65) (q : Nat) : s.eventLeaves (s.cqSignal p q) := by
  unfold State.cqSignal
  split
  · exact .refl s
  · exact (s.eventLeaves_setCq _ _ _).trans (State.eventLeaves_msixSend _ _ _)

theorem State.eventLeaves_setBytes (s : State) (a : Nat) (b : List Byte) : s.eventLeaves (s.setBytes a b) := by
  rw [State.setBytes_frame]
  exact ⟨rfl, fun _ _ => rfl⟩

theorem State.eventLeaves_sendWr (s : State) (f : Option Nat) (ro : Nat → Bool) (a : Nat) (b : List Byte) :
    s.eventLeaves (s.sendWr f ro a b) := by
  rw [State.sendWr_frame]
  exact ⟨rfl, fun _ _ => rfl⟩

/-- An entry of a completion queue (R316, R317). -/
theorem State.eventLeaves_cqPost (s : State) (p : Fin 65) (q : Nat) (e : CqEntry) : s.eventLeaves (s.cqPost p q e) := by
  unfold State.cqPost
  split
  · exact .refl s
  · split
    · exact .refl s
    · have hwrite : ∀ (a : Nat) (b : List Byte) (x : Cq),
          s.eventLeaves (((s.setBytes a b).sendWr none (fun _ => false) a b).setCq p q x) := fun a b x =>
        ((s.eventLeaves_setBytes a b).trans (State.eventLeaves_sendWr _ _ _ _ _)).trans (State.eventLeaves_setCq _ _ _ _)
      dsimp only
      split
      · exact (hwrite _ _ _).trans (State.eventLeaves_cqSignal _ _ _)
      · exact hwrite _ _ _

theorem State.eventLeaves_cqBreak (s : State) (p : Fin 65) (q : Nat) (x : Cq) : s.eventLeaves (s.cqBreak p q x) := by
  unfold State.cqBreak
  dsimp only
  split
  · exact (s.eventLeaves_setCq _ _ _).trans (State.eventLeaves_setFld _ (by decide) 1)
  · exact s.eventLeaves_setCq _ _ _

/-- A record that could not be kept is counted (R467). -/
theorem State.eventLeaves_dropEvent (s : State) (p : Fin 65) : s.eventLeaves (s.count (fQUE_PEVDROP_COUNT p.val) 1) :=
  State.eventLeaves_setFld s (show 0x800000 ≤ 0x801010 + 32 * p.val by omega) _

theorem State.eventLeaves_evWrite (s : State) {post : State → Fin 65 → EvRec → State}
    (hp : ∀ (t : State) (d : Fin 65) (r : EvRec), t.eventLeaves (post t d r))
    (p : Fin 65) (q : Nat) (c : Cq) (e : EvRec) : s.eventLeaves (s.evWrite post p q c e) := by
  unfold State.evWrite
  dsimp only
  split
  · exact s.eventLeaves_cqPost _ _ _
  · exact (((s.eventLeaves_dropEvent p).trans (State.eventLeaves_cqBreak _ _ _ _)).trans
      (State.eventLeaves_logWrite _ _ _ _ _ _ _ _)).trans (State.eventLeaves_foldl (fun t d => hp t d _) _ _)

/-- A record is written, kept, or dropped and counted, whatever a failing queue may add (R318, R322, R467). -/
theorem State.eventLeaves_evPostN (n : Nat) (s : State) (p : Fin 65) (e : EvRec) : s.eventLeaves (State.evPostN n s p e) := by
  induction n generalizing s p e with
  | zero =>
    unfold State.evPostN
    dsimp only
    split
    · exact s.eventLeaves_dropEvent p
    · split
      · exact s.eventLeaves_dropEvent p
      · split
        · exact s.eventLeaves_cqPost _ _ _
        · split
          · exact ⟨rfl, fun _ _ => rfl⟩
          · exact s.eventLeaves_dropEvent p
  | succ n ih =>
    unfold State.evPostN
    dsimp only
    split
    · exact s.eventLeaves_dropEvent p
    · split
      · exact s.eventLeaves_dropEvent p
      · split
        · exact s.eventLeaves_evWrite ih _ _ _ _
        · split
          · exact ⟨rfl, fun _ _ => rfl⟩
          · exact s.eventLeaves_dropEvent p

theorem State.eventLeaves_event (s : State) (block : Nat) (dests : List (Fin 65)) (e : EvRec) (a : Nat) :
    s.eventLeaves (s.event block dests e a) := by
  have hposts : ∀ t : State, t.eventLeaves (dests.foldl (fun t p => t.evPost p e) t) :=
    State.eventLeaves_foldl (fun t p => State.eventLeaves_evPostN 3 t p e) dests
  unfold State.event
  dsimp only
  split
  · exact ((s.eventLeaves_pulse _).trans (State.eventLeaves_logWrite _ _ _ _ _ _ _ _)).trans (hposts _)
  · exact (s.eventLeaves_logWrite _ _ _ _ _ _ _).trans (hposts _)

/-- The entry just written stands at the index that was next (R470). -/
theorem State.logged_logWrite (s : State) (kind block part : Nat) (st : Status) (detail arg0 arg1 : Nat) :
    s.logged (s.logWrite kind block part st detail arg0 arg1) kind block part st detail arg0 arg1 := by
  rw [State.logged, State.logWrite_frame]
  exact alook_aput_same _ _ _

/-! ### Notices that wait on the ports (R170) -/

theorem State.ports_setPort (s : State) (p q : Fin 24) (x : FabPort) :
    (s.setPort p x).fab.ports[q] = if q = p then x else s.fab.ports[q] := by
  simp only [State.setPort, Fin.getElem_fin]
  rw [Vector.getElem_set]
  simp only [Fin.ext_iff, eq_comm]

/-- The entries `l` behind the control messages of a port. -/
def FabPort.queued (x : FabPort) (l : List Queued) : FabPort := { x with ctrlQ := x.ctrlQ ++ l }

theorem FabPort.queued_nil (x : FabPort) : x.queued [] = x := by
  rw [FabPort.queued, List.append_nil]

theorem State.ports_queueCtrl (s : State) (p q : Fin 24) (m : Ctrl) (slot : Nat) :
    (s.queueCtrl p m slot).fab.ports[q] =
      s.fab.ports[q].queued (if q = p then [{ flit := .ctrl m, slot := slot }] else []) := by
  rw [State.queueCtrl, State.ports_setPort]
  split
  case isTrue h => rw [h]; rfl
  case isFalse => exact (FabPort.queued_nil _).symm

/-- A message queued on one port changes nothing else of the fabric. -/
theorem State.onlyPortQ_queueCtrl (s : State) (p : Fin 24) (m : Ctrl) (slot : Nat) :
    s.onlyPortQ (s.queueCtrl p m slot) p [{ flit := .ctrl m, slot := slot }] := by
  refine ⟨rfl, fun q hq => ?_, ?_⟩
  · rw [State.ports_queueCtrl, if_neg hq, FabPort.queued_nil]
  · rw [State.ports_queueCtrl, if_pos rfl]
    rfl

/-- What a flood does on one port: the notice waits there if the port carries notices and is not the one left out. -/
def State.floodOn (kind : Nat) (n : Notice) (but : Option (Fin 24)) (slot : Nat) (t : State) (p : Fin 24) : State :=
  if t.portV3 p.val && decide (but ≠ some p) then t.queueCtrl p (.notice kind n) slot else t

section

variable (kind : Nat) (n : Notice) (but : Option (Fin 24)) (slot : Nat)

/-- What waits on port `q` of a flood over the ports `l`. -/
def State.floodItems (s : State) (l : List (Fin 24)) (q : Fin 24) : List Queued :=
  if q ∈ l ∧ s.portV3 q.val = true ∧ but ≠ some q then [{ flit := .ctrl (.notice kind n), slot := slot }] else []

theorem State.floodOn_frame (s : State) (p : Fin 24) :
    State.floodOn kind n but slot s p = { s with fab := { s.fab with ports := (State.floodOn kind n but slot s p).fab.ports } } := by
  unfold State.floodOn
  split <;> rfl

theorem State.ports_floodOn (s : State) (p q : Fin 24) :
    (State.floodOn kind n but slot s p).fab.ports[q] = s.fab.ports[q].queued (s.floodItems kind n but slot [p] q) := by
  unfold State.floodOn State.floodItems
  by_cases hcond : s.portV3 p.val = true ∧ but ≠ some p
  · rw [if_pos (by simpa using hcond), State.ports_queueCtrl]
    congr 1
    refine if_congr ⟨fun h => ?_, fun h => List.mem_singleton.mp h.1⟩ rfl rfl
    rw [h]
    exact ⟨List.mem_singleton_self p, hcond⟩
  · rw [if_neg (by simpa using hcond), if_neg, FabPort.queued_nil]
    rintro ⟨hq, hrest⟩
    rw [List.mem_singleton.mp hq] at hrest
    exact hcond hrest

/-- A flood over ports that are named once changes their control queues alone. -/
theorem State.foldl_floodOn (l : List (Fin 24)) (hl : l.Nodup) (s : State) :
    l.foldl (State.floodOn kind n but slot) s =
        { s with fab := { s.fab with ports := (l.foldl (State.floodOn kind n but slot) s).fab.ports } } ∧
      ∀ q : Fin 24, (l.foldl (State.floodOn kind n but slot) s).fab.ports[q] =
        s.fab.ports[q].queued (s.floodItems kind n but slot l q) := by
  induction l generalizing s with
  | nil =>
    refine ⟨rfl, fun q => ?_⟩
    rw [State.floodItems, if_neg (by simp), FabPort.queued_nil]
    rfl
  | cons p r ih =>
    obtain ⟨hp, hr⟩ := List.nodup_cons.mp hl
    obtain ⟨hframe, hports⟩ := ih hr (State.floodOn kind n but slot s p)
    have hone := State.floodOn_frame kind n but slot s p
    have hv3 : ∀ q, (State.floodOn kind n but slot s p).portV3 q = s.portV3 q := fun q => by rw [hone]; rfl
    refine ⟨hframe.trans ?_, fun q => ?_⟩
    · exact congrArg (fun t : State => { t with fab := { t.fab with ports :=
        (r.foldl (State.floodOn kind n but slot) (State.floodOn kind n but slot s p)).fab.ports } }) hone
    · refine (hports q).trans ?_
      rw [State.ports_floodOn, FabPort.queued, FabPort.queued, FabPort.queued, List.append_assoc]
      congr 2
      simp only [State.floodItems, hv3, List.mem_cons, List.not_mem_nil, or_false]
      by_cases hq : q = p
      · subst hq
        simp [hp]
      · simp [hq]

/-- A flood changes the control queues of the ports alone: a notice waits on every port that is ACTIVE at version 3, but for one. -/
theorem State.flood_leaves (s : State) :
    s.flood kind n but slot = { s with fab := { s.fab with ports := (s.flood kind n but slot).fab.ports } } ∧
      ∀ q : Fin 24, (s.flood kind n but slot).fab.ports[q] =
        s.fab.ports[q].queued (s.floodItems kind n but slot (List.finRange 24) q) :=
  State.foldl_floodOn kind n but slot _ (List.nodup_finRange 24) s

end

/-- A notice of the device's own is counted, and waits on its ports. -/
theorem State.floodOwn_frame (s : State) (kind : Fin 5) (n : Notice) :
    s.floodOwn kind n = { s with sch := { s.sch with ownNum := (s.floodOwn kind n).sch.ownNum }
                                 fab := { s.fab with ports := (s.floodOwn kind n).fab.ports } } := by
  unfold State.floodOwn
  rw [(State.flood_leaves _ _ _ _ _).1]

/-! ### Faults (R140, R498) -/

/-- SCH_FAULT and its count show a fault. -/
def State.faultRegs (s : State) (cause origin : Nat) : State :=
  (((s.setFld fSCH_FAULT_CAUSE cause).setFld fSCH_FAULT_ORIGIN origin).setFld fSCH_FAULT_ATTEMPT
    (s.fld fSCH_ATTEMPT_ATTEMPT)).count fSCH_FAULT_COUNT_COUNT 1

/-- They show it, and it is the attempt's first. -/
def State.faultShown (s : State) (cause origin : Nat) : State :=
  { s.faultRegs cause origin with sch := { (s.faultRegs cause origin).sch with recorded := true } }

theorem State.regs_withSch (s : State) (x : Sch) : ({ s with sch := x } : State).regs = s.regs := rfl

section

variable (s : State) (cause origin : Nat)

theorem State.faultShown_regs : (s.faultShown cause origin).regs = (s.faultRegs cause origin).regs := State.regs_withSch _ _

theorem State.cause_faultRegs : (s.faultRegs cause origin).fld fSCH_FAULT_CAUSE = cause % 16 := by
  rw [State.faultRegs, State.count, State.fld_setFld_off _ _ _ _ (by decide), State.fld_setFld_bits _ _ _ _ (by decide) (by rfl) (by decide),
    State.fld_setFld_bits _ _ _ _ (by decide) (by rfl) (by decide), State.fld_setFld_same _ _ _ (by decide)]
  rfl

theorem State.origin_faultRegs : (s.faultRegs cause origin).fld fSCH_FAULT_ORIGIN = origin % 16384 := by
  rw [State.faultRegs, State.count, State.fld_setFld_off _ _ _ _ (by decide), State.fld_setFld_bits _ _ _ _ (by decide) (by rfl) (by decide),
    State.fld_setFld_same _ _ _ (by decide)]
  rfl

theorem State.reg_faultRegs {o : Nat} (ho : o ≠ rSCH_FAULT) (hc : o ≠ rSCH_FAULT_COUNT) :
    (s.faultRegs cause origin).reg o = s.reg o := by
  rw [State.faultRegs, State.count, State.reg_setFld_other _ _ _ _ hc, State.reg_setFld_other _ _ _ _ ho,
    State.reg_setFld_other _ _ _ _ ho, State.reg_setFld_other _ _ _ _ ho]

variable (carried : Nat)

/-- A recorded fault is shown, and its event is raised. -/
theorem State.eventLeaves_recordFault : (s.faultShown cause origin).eventLeaves (s.recordFault cause origin carried) := by
  unfold State.recordFault State.faultShown State.faultRegs
  exact State.eventLeaves_event _ _ _ _ _

theorem State.cause_recordFault : (s.recordFault cause origin carried).fld fSCH_FAULT_CAUSE = cause % 16 := by
  rw [State.fld_of_sameReg (f := fSCH_FAULT_CAUSE) ((s.eventLeaves_recordFault cause origin carried).2 _ (by decide)),
    State.fld_congr (s.faultShown_regs cause origin), State.cause_faultRegs]

theorem State.origin_recordFault : (s.recordFault cause origin carried).fld fSCH_FAULT_ORIGIN = origin % 16384 := by
  rw [State.fld_of_sameReg (f := fSCH_FAULT_ORIGIN) ((s.eventLeaves_recordFault cause origin carried).2 _ (by decide)),
    State.fld_congr (s.faultShown_regs cause origin), State.origin_faultRegs]

theorem State.reg_recordFault {o : Nat} (ho : o < 0x800000) (hf : o ≠ rSCH_FAULT) (hc : o ≠ rSCH_FAULT_COUNT) :
    (s.recordFault cause origin carried).reg o = s.reg o := by
  rw [(s.eventLeaves_recordFault cause origin carried).2 o ho, State.reg_congr (s.faultShown_regs cause origin),
    State.reg_faultRegs _ _ _ hf hc]

end

/-- From `s` to `t` there is at most what faults leave: what events leave, SCH_FAULT and its count, the notices of the fault on the
ports, and what the schedule unit holds of the faults of its attempt. -/
def State.faultLeaves (s t : State) : Prop :=
  t = { s with regs := t.regs, mem := t.mem, scratch := t.scratch, out := t.out, log := t.log, que := t.que, hif := t.hif,
               sch := t.sch, fab := t.fab } ∧
    t.sch = { s.sch with recorded := t.sch.recorded, ownSent := t.sch.ownSent, trs := t.sch.trs, ownNum := t.sch.ownNum } ∧
    ∀ o, o < 0x800000 → o ≠ rSCH_FAULT → o ≠ rSCH_FAULT_COUNT → t.reg o = s.reg o

theorem State.faultLeaves.refl (s : State) : s.faultLeaves s := ⟨rfl, rfl, fun _ _ _ _ => rfl⟩

theorem State.faultLeaves_recordFault (s : State) (cause origin carried : Nat) :
    s.faultLeaves (s.recordFault cause origin carried) ∧
      (s.recordFault cause origin carried).sch = { s.sch with recorded := true } ∧
      (s.recordFault cause origin carried).fab = s.fab := by
  obtain ⟨hframe, -⟩ := s.eventLeaves_recordFault cause origin carried
  have hsch := congrArg State.sch hframe
  have hfab := congrArg State.fab hframe
  refine ⟨⟨?_, ?_, fun o => State.reg_recordFault s cause origin carried⟩, hsch, hfab⟩
  · generalize s.recordFault cause origin carried = t at *
    rw [hframe]
    rfl
  · rw [hsch]
    rfl

theorem State.devNum_lt (s : State) : s.devNum < 16384 := Nat.mod_lt _ (by decide)

/-- A T_r is held, and the notice of the device's own fault is sent (R141, R498). -/
def State.holdAndSend (s : State) (tr : Nat) (n : Notice) : State :=
  { (s.holdTr tr).floodOwn 2 n with sch := { ((s.holdTr tr).floodOwn 2 n).sch with ownSent := true } }

theorem State.holdAndSend_frame (s : State) (tr : Nat) (n : Notice) :
    s.holdAndSend tr n = { s with
      sch := { s.sch with trs := tr :: s.sch.trs, ownSent := true, ownNum := (s.holdAndSend tr n).sch.ownNum }
      fab := { s.fab with ports := (s.holdAndSend tr n).fab.ports } } := by
  unfold State.holdAndSend
  rw [State.floodOwn_frame]
  rfl

theorem State.fault_eq_holdAndSend {s : State} (hrun : s.running = true) (hrec : s.sch.recorded = false) (cause : Nat) :
    s.fault cause = (s.recordFault cause s.devNum 0).holdAndSend s.replayTime
      { s.ownNotice 2 with cause := Fin.ofNat 16 cause, tr := BitVec.ofNat 64 s.replayTime } := by
  rw [State.fault, if_pos hrun, hrec]
  rfl

/-- The first fault of an attempt is recorded with its cause and this device as its origin, its T_r is held, and it is flooded. -/
theorem State.fault_first {s : State} (hrun : s.running = true) (hrec : s.sch.recorded = false) (cause : Nat) :
    s.faultLeaves (s.fault cause) ∧ (s.fault cause).sch.recorded = true ∧ (s.fault cause).sch.trs = s.replayTime :: s.sch.trs ∧
      (s.fault cause).fld fSCH_FAULT_CAUSE = cause % 16 ∧ (s.fault cause).fld fSCH_FAULT_ORIGIN = s.devNum := by
  obtain ⟨⟨hframe, -, hregs⟩, hsch, -⟩ := s.faultLeaves_recordFault cause s.devNum 0
  have hcause := s.cause_recordFault cause s.devNum 0
  have horigin := s.origin_recordFault cause s.devNum 0
  rw [Nat.mod_eq_of_lt s.devNum_lt] at horigin
  rw [State.fault_eq_holdAndSend hrun hrec]
  generalize s.recordFault cause s.devNum 0 = t at *
  rw [State.holdAndSend_frame]
  refine ⟨⟨?_, ?_, hregs⟩, ?_, ?_, hcause, horigin⟩
  · dsimp only
    rw [hframe]
  all_goals
    dsimp only
    rw [hsch]

/-- What a fault leaves, the first of its attempt or a later one; nothing while no schedule runs. -/
theorem State.faultLeaves_fault (s : State) (cause : Nat) : s.faultLeaves (s.fault cause) := by
  by_cases hrun : s.running = true
  · cases hrec : s.sch.recorded with
    | false => exact (State.fault_first hrun hrec cause).1
    | true =>
      have hfault : s.fault cause = (s.logWrite 0x0101 blkSCH 0 .epochFault (0x1000 + cause) 0 (s.fld fSCH_STEP_VALUE)).holdTr
          s.replayTime := by
        rw [State.fault, if_pos hrun, hrec]
        rfl
      obtain ⟨hframe, hregs⟩ := s.eventLeaves_logWrite 0x0101 blkSCH 0 .epochFault (0x1000 + cause) 0 (s.fld fSCH_STEP_VALUE)
      rw [hfault]
      generalize s.logWrite 0x0101 blkSCH 0 .epochFault (0x1000 + cause) 0 (s.fld fSCH_STEP_VALUE) = t at *
      refine ⟨?_, ?_, fun o ho _ _ => hregs o ho⟩
      all_goals
        rw [hframe]
        rfl
  · rw [State.fault, if_neg hrun]
    exact .refl s

end Sys2Proof.Machine
end

section
/-! SUPPORT. The time base (R115 to R118, R146, R169): time that has come, the exchange, the correction of the counter, the lock and its
loss, the pulses, a write of SCH_TS_CTRL; and the settled obligation. -/

namespace Sys2Proof.Machine

open Sys2Proof

/-! ### Time that has come -/

theorem State.advance_zero (s : State) : s.advance 0 = s := by
  simp [State.advance]

theorem State.atLeast_of_reached {s : State} {n : Nat} (h : n ≤ s.now) : s.atLeast n = s := by
  rw [State.atLeast, Nat.sub_eq_zero_of_le h, State.advance_zero]

theorem State.atTb_of_reached {s : State} {n : Nat} (h : n ≤ s.sch.tb.toNat) : s.atTb n = s := if_neg (by omega)

/-- Time that passes changes the clock, the counter and its hold. -/
theorem State.atTb_frame (s : State) (n : Nat) :
    s.atTb n = { s with now := (s.atTb n).now, sch := { s.sch with tb := (s.atTb n).sch.tb, hold := (s.atTb n).sch.hold } } := by
  unfold State.atTb
  split <;> rfl

/-- The counter reads the time waited for, modulo 2^64. -/
theorem State.tb_atTb {s : State} {n : Nat} (h : s.sch.tb.toNat ≤ n) : (s.atTb n).sch.tb.toNat = n % 2 ^ 64 := by
  by_cases hlt : s.sch.tb.toNat < n
  · rw [State.atTb, if_pos hlt]
    have hticks : n - s.sch.tb.toNat + s.sch.hold - min (n - s.sch.tb.toNat + s.sch.hold) s.sch.hold = n - s.sch.tb.toNat := by omega
    simp only [State.advance, hticks, BitVec.toNat_add, BitVec.toNat_ofNat]
    omega
  · have heq : n = s.sch.tb.toNat := by omega
    rw [State.atTb_of_reached heq.le, heq, Nat.mod_eq_of_lt s.sch.tb.isLt]

/-! ### The exchange (R115, R116, R169) -/

/-- The time of the next exchange has come: 1,024 ticks after the one before, if there was one. -/
def State.exchangeTime (s : State) : State := if s.sch.lastExch = 0 then s else s.atLeast (s.sch.lastExch + 1024)

theorem State.exchangeTime_regs (s : State) : s.exchangeTime.regs = s.regs := by
  unfold State.exchangeTime
  split <;> rfl

theorem State.exchangeTime_of_reached {s : State} (h : s.sch.lastExch + 1024 ≤ s.now ∨ s.sch.lastExch = 0) : s.exchangeTime = s := by
  unfold State.exchangeTime
  split
  case isTrue => rfl
  case isFalse hne => exact State.atLeast_of_reached (h.resolve_right hne)

theorem State.lastExch_le_exchangeTime {s : State} (h : s.sch.lastExch ≠ 0) : s.sch.lastExch + 1024 ≤ s.exchangeTime.now := by
  rw [State.exchangeTime, if_neg h, State.atLeast_now]
  exact le_max_right _ _

theorem State.parentPort?_congr {s t : State} (h : t.regs = s.regs) : t.parentPort? = s.parentPort? := by
  simp only [State.parentPort?, State.fld_congr h]

theorem State.portV3_congr {s t : State} (h : t.regs = s.regs) (p : Nat) : t.portV3 p = s.portV3 p := by
  rw [State.portV3, State.portV3, State.portState, State.portState, State.fld_congr h, State.fld_congr h]

section

variable {s : State} {p : Fin 24} (hv : s.portV3 p.val = true)
include hv

/-- A request is queued on the parent port. -/
theorem State.exec_timesyncExchange (hroot : s.flag fSCH_TS_CTRL_ROOT = false) (hp : s.parentPort? = some p) :
    exec .timesyncExchange s = .next (({ s.exchangeTime with sch := { s.exchangeTime.sch with lastExch := s.exchangeTime.now } } :
      State).queueCtrl p (.tsRequest 0) s.exchangeTime.slot) := by
  have hparent : ({ s.exchangeTime with sch := { s.exchangeTime.sch with lastExch := s.exchangeTime.now } } : State).parentPort? =
      some p := (State.parentPort?_congr s.exchangeTime_regs).trans hp
  have hv3 : ({ s.exchangeTime with sch := { s.exchangeTime.sch with lastExch := s.exchangeTime.now } } : State).portV3 p.val = true :=
    (State.portV3_congr s.exchangeTime_regs p.val).trans hv
  change execTimesyncExchange s = _
  unfold execTimesyncExchange
  rw [hroot, if_neg Bool.false_ne_true]
  dsimp only
  rw [← State.exchangeTime, hparent]
  dsimp only
  rw [hv3]
  rfl

/-- A reply is queued on the port of the request, which names a child. -/
theorem State.exec_timesyncRequestRx (t1 t2 : Int) : exec (.timesyncRequestRx p t1 t2) s =
    .next { s.queueCtrl p (.tsReply t1 t2 0 (s.flag fSCH_TS_STATUS_LOCKED) (s.fld fSCH_TS_STATUS_DEPTH)) s.slot with
      sch := { s.sch with kids := if s.sch.kids.contains p then s.sch.kids else p :: s.sch.kids } } := by
  change execTimesyncRequestRx p t1 t2 s = _
  rw [execTimesyncRequestRx, if_pos hv]
  rfl

end

/-- The exchange of time (R115, R116, R169). -/
theorem clause_timeExchange : Clause.timeExchange := by
  unfold Clause.timeExchange
  intro s p t1 t2 hv
  refine ⟨fun hroot hp => ⟨fun htime => ?_, ?_⟩, ?_⟩
  · have hexec := State.exec_timesyncExchange hv hroot hp
    rw [State.exchangeTime_of_reached htime] at hexec
    exact ⟨_, hexec, rfl, State.onlyPortQ_queueCtrl { s with sch := { s.sch with lastExch := s.now } } p _ _⟩
  · exact ⟨_, State.exec_timesyncExchange hv hroot hp, State.lastExch_le_exchangeTime⟩
  · refine ⟨_, State.exec_timesyncRequestRx hv t1 t2, rfl, fun q => ?_, s.onlyPortQ_queueCtrl p _ _⟩
    dsimp only
    split
    case isTrue hkid =>
      exact ⟨.inr, fun h => h.elim (fun e => e ▸ List.contains_iff_mem.mp hkid) id⟩
    case isFalse => exact List.mem_cons

/-! ### The correction of the counter (R115) -/

theorem twosOf_lt (w : Nat) (i : Int) : twosOf w i < 2 ^ w := by
  have hpos : (0 : Int) < (2 ^ w : Nat) := by positivity
  have hlt := Int.emod_lt_of_pos i hpos
  rw [twosOf]
  omega

section

variable (s : State) (th : Int)

theorem State.correct_frame : s.correct th = { s with sch := { s.sch with
    tb := (s.correct th).sch.tb, hold := (s.correct th).sch.hold, lastSlew := (s.correct th).sch.lastSlew } } := by
  unfold State.correct
  split_ifs <;> rfl

variable {s}

/-- With no schedule present and LOCKED 0 the counter is set by θ, or held. -/
theorem State.correct_of_absent (hs : s.schedPresent = false) (hl : s.flag fSCH_TS_STATUS_LOCKED = false) :
    (0 ≤ th → (s.correct th).sch.tb = s.sch.tb + BitVec.ofNat 64 (nearTicks th.natAbs) ∧ (s.correct th).sch.hold = s.sch.hold) ∧
      (th < 0 → (s.correct th).sch.tb = s.sch.tb ∧ (s.correct th).sch.hold = nearTicks th.natAbs) := by
  rw [State.correct, if_pos ⟨hs, hl⟩]
  constructor
  · intro h
    rw [if_pos h]
    exact ⟨rfl, rfl⟩
  · intro h
    rw [if_neg (by omega)]
    exact ⟨rfl, rfl⟩

/-- Otherwise the counter is slewed by one tick at most, and at most once in 1,024 ticks. -/
theorem State.correct_of_present (h : s.schedPresent = true ∨ s.flag fSCH_TS_STATUS_LOCKED = true) :
    ((s.correct th).sch.tb = s.sch.tb ∧ (s.correct th).sch.hold ≤ s.sch.hold + 1 ∨
        (s.correct th).sch.tb = s.sch.tb + 1 ∧ (s.correct th).sch.hold = s.sch.hold) ∧
      (s.now < s.sch.lastSlew + 1024 → (s.correct th).sch.tb = s.sch.tb ∧ (s.correct th).sch.hold = s.sch.hold) := by
  have hslew : ¬ (s.schedPresent = false ∧ s.flag fSCH_TS_STATUS_LOCKED = false) := by
    rintro ⟨hs, hl⟩
    rw [hs, hl] at h
    exact h.elim Bool.false_ne_true Bool.false_ne_true
  rw [State.correct, if_neg hslew]
  by_cases hdue : s.sch.lastSlew + 1024 ≤ s.now ∧ psTick < 2 * th.natAbs
  · rw [if_pos hdue]
    refine ⟨?_, fun hearly => absurd hdue.1 (by omega)⟩
    split
    · exact .inr ⟨rfl, rfl⟩
    · exact .inl ⟨rfl, le_rfl⟩
  · rw [if_neg hdue]
    exact ⟨.inl ⟨rfl, Nat.le_succ _⟩, fun _ => ⟨rfl, rfl⟩⟩

end

/-! ### The lock (R116, R117) -/

/-- From `s` to `t` there is at most what a judgement of the lock leaves: what faults leave, the counts of exchanges, and in
SCH_TS_STATUS another value of LOCKED or LOSS. -/
def State.lockLeaves (s t : State) : Prop :=
  t = { s with regs := t.regs, mem := t.mem, scratch := t.scratch, out := t.out, log := t.log, que := t.que, hif := t.hif,
               sch := t.sch, fab := t.fab } ∧
    t.sch = { s.sch with good := t.sch.good, bad := t.sch.bad, recorded := t.sch.recorded, ownSent := t.sch.ownSent,
                         trs := t.sch.trs, ownNum := t.sch.ownNum } ∧
    t.fld fSCH_TS_STATUS_DEPTH = s.fld fSCH_TS_STATUS_DEPTH ∧
    ∀ o, o < 0x800000 → o ≠ rSCH_FAULT → o ≠ rSCH_FAULT_COUNT → o ≠ rSCH_TS_STATUS → t.reg o = s.reg o

/-- A state with other counts of exchanges. -/
def State.withExchanges (s : State) (good bad : Nat) : State := { s with sch := { s.sch with good := good, bad := bad } }

theorem State.lockLeaves_withExchanges (s : State) (good bad : Nat) : s.lockLeaves (s.withExchanges good bad) :=
  ⟨rfl, rfl, rfl, fun _ _ _ _ _ => rfl⟩

theorem State.lockLeaves.trans {s t u : State} (h : s.lockLeaves t) (k : t.lockLeaves u) : s.lockLeaves u := by
  obtain ⟨hframe, hsch, hdepth, hregs⟩ := h
  obtain ⟨kframe, ksch, kdepth, kregs⟩ := k
  refine ⟨?_, ?_, kdepth.trans hdepth, fun o ho hf hc hl => (kregs o ho hf hc hl).trans (hregs o ho hf hc hl)⟩
  · exact kframe.trans (congrArg (fun x : State =>
      { x with
        regs := u.regs, mem := u.mem, scratch := u.scratch, out := u.out, log := u.log, que := u.que, hif := u.hif, sch := u.sch
        fab := u.fab }) hframe)
  · exact ksch.trans (congrArg (fun x : Sch =>
      { x with
        good := u.sch.good, bad := u.sch.bad, recorded := u.sch.recorded, ownSent := u.sch.ownSent, trs := u.sch.trs
        ownNum := u.sch.ownNum }) hsch)

theorem State.lockLeaves_raise (s : State) : s.lockLeaves (s.raise fSCH_TS_STATUS_LOCKED) :=
  ⟨rfl, rfl, State.fld_setFld_bits _ _ _ _ (by decide) (by rfl) (by decide), fun o _ _ _ ho => State.reg_setFld_other _ _ _ _ ho⟩

/-- The lock is lost: LOCKED reads 0 and LOSS 1. -/
def State.unlocked (s : State) : State := (s.setFld fSCH_TS_STATUS_LOCKED 0).raise fSCH_TS_STATUS_LOSS

theorem State.locked_unlocked (s : State) : s.unlocked.flag fSCH_TS_STATUS_LOCKED = false := by
  rw [State.unlocked, State.raise, State.flag, State.fld_setFld_bits _ _ _ _ (by decide) (by rfl) (by decide),
    State.fld_setFld_same _ _ _ (by decide)]
  rfl

theorem State.loss_unlocked (s : State) : s.unlocked.flag fSCH_TS_STATUS_LOSS = true := State.flag_raise_same _ rfl (by decide)

theorem State.depth_unlocked (s : State) : s.unlocked.fld fSCH_TS_STATUS_DEPTH = s.fld fSCH_TS_STATUS_DEPTH := by
  rw [State.unlocked, State.raise, State.fld_setFld_bits _ _ _ _ (by decide) (by rfl) (by decide),
    State.fld_setFld_bits _ _ _ _ (by decide) (by rfl) (by decide)]

theorem State.reg_unlocked (s : State) {o : Nat} (h : o ≠ rSCH_TS_STATUS) : s.unlocked.reg o = s.reg o := by
  rw [State.unlocked, State.raise, State.reg_setFld_other _ _ _ _ h, State.reg_setFld_other _ _ _ _ h]

/-- LOCKED reads 0 once the lock is lost; where it read 1, LOSS reads 1. -/
theorem State.loseLock_leaves (s : State) :
    s.lockLeaves s.loseLock ∧ s.loseLock.flag fSCH_TS_STATUS_LOCKED = false ∧
      (s.flag fSCH_TS_STATUS_LOCKED = true → s.loseLock.flag fSCH_TS_STATUS_LOSS = true) := by
  cases hl : s.flag fSCH_TS_STATUS_LOCKED with
  | false =>
    have hlose : s.loseLock = s.withExchanges 0 0 := by rw [State.loseLock, hl]; rfl
    rw [hlose]
    exact ⟨s.lockLeaves_withExchanges 0 0, hl, nofun⟩
  | true =>
    have hlose : s.loseLock = (((s.withExchanges 0 0).unlocked).event0 blkSCH 0x0104 (s.fld fSCH_TS_CTRL_PARENT_PORT) .timeout).fault 8 := by
      rw [State.loseLock, hl]
      rfl
    obtain ⟨eframe, eregs⟩ := State.eventLeaves_event (s.withExchanges 0 0).unlocked blkSCH [0]
      { code := 0x0104, result := s.fld fSCH_TS_CTRL_PARENT_PORT, st := .timeout, detail := 0 } 0
    obtain ⟨fframe, fsch, fregs⟩ := State.faultLeaves_fault (State.event (s.withExchanges 0 0).unlocked blkSCH [0]
      { code := 0x0104, result := s.fld fSCH_TS_CTRL_PARENT_PORT, st := .timeout, detail := 0 } 0) 8
    rw [← State.event0] at eframe eregs fframe fsch fregs
    rw [← hlose] at fframe fsch fregs
    have hregs : ∀ o, o < 0x800000 → o ≠ rSCH_FAULT → o ≠ rSCH_FAULT_COUNT → s.loseLock.reg o = (s.withExchanges 0 0).unlocked.reg o :=
      fun o ho hf hc => (fregs o ho hf hc).trans (eregs o ho)
    have hstatus := hregs rSCH_TS_STATUS (by decide) (by decide) (by decide)
    refine ⟨⟨?_, ?_, ?_, fun o ho hf hc hs => ?_⟩, ?_, fun _ => ?_⟩
    · rw [fframe, eframe]
      rfl
    · rw [fsch, eframe]
      rfl
    · rw [State.fld_of_sameReg (f := fSCH_TS_STATUS_DEPTH) hstatus, State.depth_unlocked]
      rfl
    · rw [hregs o ho hf hc, State.reg_unlocked _ hs]
      rfl
    · rw [State.flag_of_sameReg (f := fSCH_TS_STATUS_LOCKED) hstatus, State.locked_unlocked]
    · rw [State.flag_of_sameReg (f := fSCH_TS_STATUS_LOSS) hstatus, State.loss_unlocked]

/-- The lock after an exchange: lost behind a parent that is not locked, gained by the 64th good exchange at depth 8 or less. -/
theorem State.lockStep_leaves (s : State) (r : TsReply) (th : Nat) :
    s.lockLeaves (s.lockStep r th) ∧
      (r.locked = false → (s.lockStep r th).flag fSCH_TS_STATUS_LOCKED = false ∧
        (s.flag fSCH_TS_STATUS_LOCKED = true → (s.lockStep r th).flag fSCH_TS_STATUS_LOSS = true)) ∧
      (r.locked = true → th ≤ 500 → s.sch.good = 63 → r.depth ≤ 7 → (s.lockStep r th).flag fSCH_TS_STATUS_LOCKED = true) ∧
      (8 ≤ r.depth → s.flag fSCH_TS_STATUS_LOCKED = false → (s.lockStep r th).flag fSCH_TS_STATUS_LOCKED = false) := by
  unfold State.lockStep
  dsimp only
  set bad := if 1000 < th then s.sch.bad + 1 else 0 with hbad
  set good := if th ≤ 500 ∧ r.locked = true then s.sch.good + 1 else 0 with hgood
  have hcounts := s.lockLeaves_withExchanges good bad
  by_cases hlose : 2 ≤ bad ∨ r.locked = false
  · rw [if_pos hlose]
    obtain ⟨hleaves, hlocked, hloss⟩ := (s.withExchanges good bad).loseLock_leaves
    refine ⟨hcounts.trans hleaves, fun _ => ⟨hlocked, hloss⟩, fun hl hth => ?_, fun _ _ => hlocked⟩
    rw [if_neg (by omega)] at hbad
    rw [hbad, hl] at hlose
    exact absurd hlose (by simp)
  · rw [if_neg hlose]
    have hl : r.locked = true := by simpa using (not_or.mp hlose).2
    by_cases hgain : 64 ≤ good ∧ r.depth + 1 ≤ 8
    · rw [if_pos hgain]
      refine ⟨hcounts.trans (State.lockLeaves_raise _), fun h => Bool.noConfusion (hl.symm.trans h), fun _ _ _ _ => ?_,
        fun hd => absurd hgain.2 (by omega)⟩
      exact State.flag_raise_same _ rfl (by decide)
    · rw [if_neg hgain]
      refine ⟨hcounts, fun h => Bool.noConfusion (hl.symm.trans h), fun _ hth h63 hd => ?_, fun _ h => h⟩
      rw [if_pos ⟨hth, hl⟩, h63] at hgood
      exact absurd ⟨hgood.ge, by omega⟩ hgain

/-- The registers in which a child shows θ and its depth. -/
def State.showTheta (s : State) (r : TsReply) (th : Int) : State :=
  ((s.setFld fSCH_TS_OFFSET_THETA (twosOf 32 th)).setFld fSCH_TS_MAXOFS_MAX
    (max (s.fld fSCH_TS_MAXOFS_MAX) (min th.natAbs 0xFFFFFFFF))).setFld fSCH_TS_STATUS_DEPTH (min (r.depth + 1) 15)

section

variable (s : State) (r : TsReply) (th : Int)

theorem State.theta_showTheta : (s.showTheta r th).fld fSCH_TS_OFFSET_THETA = twosOf 32 th := by
  rw [State.showTheta, State.fld_setFld_off _ _ _ _ (by decide), State.fld_setFld_off _ _ _ _ (by decide),
    State.fld_setFld_same _ _ _ (by decide)]
  exact Nat.mod_eq_of_lt (twosOf_lt 32 th)

theorem State.depth_showTheta : (s.showTheta r th).fld fSCH_TS_STATUS_DEPTH = min (r.depth + 1) 15 := by
  rw [State.showTheta, State.fld_setFld_same _ _ _ (by decide)]
  exact Nat.mod_eq_of_lt (show min (r.depth + 1) 15 < 16 by omega)

theorem State.locked_showTheta : (s.showTheta r th).flag fSCH_TS_STATUS_LOCKED = s.flag fSCH_TS_STATUS_LOCKED := by
  rw [State.showTheta, State.flag, State.fld_setFld_bits _ _ _ _ (by decide) (by rfl) (by decide), State.fld_setFld_off _ _ _ _ (by decide),
    State.fld_setFld_off _ _ _ _ (by decide), State.flag]

variable {s}

theorem State.exec_timesyncReplyRx {p : Fin 24} (hroot : s.flag fSCH_TS_CTRL_ROOT = false) (hp : s.parentPort? = some p)
    (hth : tsTheta r (signedOf 32 (s.fld (fSCH_TS_ASYM_ASYM p.val))) = th) :
    exec (.timesyncReplyRx r) s = .next (((s.correct th).showTheta r th).lockStep r th.natAbs) := by
  subst hth
  change execTimesyncReplyRx r s = _
  rw [execTimesyncReplyRx, hroot, if_neg Bool.false_ne_true, hp]
  rfl

end

/-- The correction of the counter and the lock (R115 to R117, R146). -/
theorem clause_timeCorrection : Clause.timeCorrection := by
  unfold Clause.timeCorrection
  intro s r p hroot hp th n
  obtain ⟨⟨hframe, hsch, hdepth, hregs⟩, hlose, hgain, hdeep⟩ := ((s.correct th).showTheta r th).lockStep_leaves r th.natAbs
  have hcorrect := s.correct_frame th
  have hlocked : ((s.correct th).showTheta r th).flag fSCH_TS_STATUS_LOCKED = s.flag fSCH_TS_STATUS_LOCKED := by
    rw [State.locked_showTheta, hcorrect]
    rfl
  have htb : (((s.correct th).showTheta r th).lockStep r th.natAbs).sch.tb = (s.correct th).sch.tb := by
    rw [hsch]
    rfl
  have hhold : (((s.correct th).showTheta r th).lockStep r th.natAbs).sch.hold = (s.correct th).sch.hold := by
    rw [hsch]
    rfl
  have hgood : (s.correct th).sch.good = s.sch.good := by
    rw [hcorrect]
  have hother : ∀ {α : Type} (f : State → α), (∀ (t : State) regs mem scratch out log que hif sch fab, f { t with
      regs := regs, mem := mem, scratch := scratch, out := out, log := log, que := que, hif := hif, sch := sch, fab := fab } = f t) →
      f (((s.correct th).showTheta r th).lockStep r th.natAbs) = f s := fun f hf =>
    (((congrArg f hframe).trans (hf _ _ _ _ _ _ _ _ _ _)).trans (hf (s.correct th) _ _ _ _ _ _ _ _ _)).trans
      ((congrArg f hcorrect).trans (hf s _ _ _ _ _ _ _ _ _))
  rw [hlocked] at hlose hdeep
  refine ⟨_, State.exec_timesyncReplyRx r th hroot hp rfl, ?_, ?_, hother State.pavs (fun _ _ _ _ _ _ _ _ _ _ => rfl),
    hother State.rdm (fun _ _ _ _ _ _ _ _ _ _ => rfl), hother State.eth (fun _ _ _ _ _ _ _ _ _ _ => rfl),
    hother State.ldg (fun _ _ _ _ _ _ _ _ _ _ => rfl), fun hs hl => ?_, fun h => ?_, hlose, fun hl hth h63 => ?_, hdeep⟩
  · rw [State.fld_of_sameReg (f := fSCH_TS_OFFSET_THETA) (hregs _ (by decide) (by decide) (by decide) (by decide)), State.theta_showTheta]
  · rw [hdepth, State.depth_showTheta]
  · rw [htb, hhold]
    exact State.correct_of_absent th hs hl
  · rw [htb, hhold]
    exact State.correct_of_present th h
  · exact hgain hl hth (hgood.trans h63)

/-! ### Pulses (R118) -/

theorem State.exec_timePulse {s : State} (hen : s.flag fSCH_TS_CTRL_PULSE_EN = true) (hp : s.sch.pulse = none) :
    let u := s.atTb (ceilTo s.sch.tb.toNat (2 ^ s.fld fSCH_TS_CTRL_PULSE_SHIFT))
    exec .timePulse s = .next ({ u with sch := { u.sch with pulse := some (u.now + 8) } }.emit (.pin "gpio31" true)) := by
  change execTimePulse s = _
  rw [execTimePulse, if_pos ⟨hen, hp⟩]

theorem ceilTo_ge (a : Nat) {m : Nat} (hm : 0 < m) : a ≤ ceilTo a m := by
  rw [ceilTo]
  have hdiv := Nat.div_add_mod (a + m - 1) m
  have hlt := Nat.mod_lt (a + m - 1) hm
  rw [Nat.mul_comm] at hdiv
  omega

/-- The counter is at a multiple of 2^k when it has come to the next one, though it may have wrapped. -/
theorem State.tb_atTb_ceilTo (s : State) {k : Nat} (hk : k ≤ 64) : (s.atTb (ceilTo s.sch.tb.toNat (2 ^ k))).sch.tb.toNat % 2 ^ k = 0 := by
  rw [State.tb_atTb (ceilTo_ge _ (by positivity))]
  rw [Nat.mod_mod_of_dvd _ (pow_dvd_pow 2 hk), ceilTo, Nat.mul_mod_left]

theorem State.exec_timePulseEnd {s : State} {u : Nat} (hp : s.sch.pulse = some u) :
    exec .timePulseEnd s = .next
      ({ s.atLeast u with sch := { (s.atLeast u).sch with pulse := none } }.emit (.pin "gpio31" false)) := by
  change execTimePulseEnd s = _
  rw [execTimePulseEnd, hp]

/-! ### A refused register command (R9, R145, R146, R469) -/

/-- An entry written to a state in which registers have changed. -/
theorem State.logWrite_frame_of {s t : State} (h : t = { s with regs := t.regs }) (kind block part : Nat) (st : Status)
    (detail arg0 arg1 : Nat) :
    t.logWrite kind block part st detail arg0 arg1 =
      { s with regs := (t.logWrite kind block part st detail arg0 arg1).regs
               log := (t.logWrite kind block part st detail arg0 arg1).log } := by
  have hframe := t.logWrite_frame kind block part st detail arg0 arg1
  generalize t.logWrite kind block part st detail arg0 arg1 = u at *
  generalize aput (t.fld fLOG_WR_COUNT % 65536) (t.logEntry kind block part st detail arg0 arg1) t.log = l at hframe
  have hlog : u.log = l := congrArg State.log hframe
  rw [← hlog] at hframe
  exact hframe.trans (congrArg (fun x : State => { x with regs := u.regs, log := u.log }) h)

theorem State.lastStatus_frame (s : State) (x : Status) : s.lastStatus x = { s with regs := (s.lastStatus x).regs } :=
  State.setFld_frame rfl _ _

theorem State.reg_lastStatus (s : State) (x : Status) {o : Nat} (h : o ≠ rSCH_STATE) : (s.lastStatus x).reg o = s.reg o :=
  State.reg_setFld_other _ _ _ _ h

theorem State.fld_lastStatus_other (s : State) (x : Status) {f : Fld} (ho : f.off = rSCH_STATE) (h : f.lo + f.w ≤ 16) :
    (s.lastStatus x).fld f = s.fld f :=
  State.fld_setFld_bits _ _ _ _ (by decide) ho (.inl h)

theorem State.fld_lastStatus (s : State) (x : Status) : (s.lastStatus x).fld fSCH_STATE_LAST_STATUS = statusCode x := by
  rw [State.lastStatus, State.fld_setFld_same _ _ _ (by decide)]
  cases x <;> rfl

/-- A command or a write of the schedule unit's register `off` is refused: INVALID_STATE, and one entry. -/
def State.refuse (s : State) (off : Nat) (v : BitVec 32) : State := (s.lastStatus .invalidState).logRefused blkSCH off v.toNat

section

variable (s : State) (off : Nat) (v : BitVec 32)

theorem State.refuse_frame : s.refuse off v = { s with regs := (s.refuse off v).regs, log := (s.refuse off v).log } :=
  State.logWrite_frame_of (s.lastStatus_frame _) _ _ _ _ _ _ _

theorem State.reg_refuse {o : Nat} (ho : o < 0x800000) : (s.refuse off v).reg o = (s.lastStatus .invalidState).reg o :=
  (State.eventLeaves_logWrite _ _ _ _ _ _ _ _).2 o ho

theorem State.lastStatus_refuse : (s.refuse off v).fld fSCH_STATE_LAST_STATUS = 2 := by
  rw [State.fld_of_sameReg (f := fSCH_STATE_LAST_STATUS) (s.reg_refuse off v (by decide)), State.fld_lastStatus]
  rfl

theorem State.fld_refuse {f : Fld} (ho : f.off = rSCH_STATE) (h : f.lo + f.w ≤ 16) : (s.refuse off v).fld f = s.fld f := by
  rw [State.fld_of_sameReg (f := f) (s.reg_refuse off v (by rw [ho]; decide)), State.fld_lastStatus_other _ _ ho h]

theorem State.logged_refuse : s.logged (s.refuse off v) 0x0008 blkSCH noPart .invalidState 0 off v.toNat := by
  have hlog := (s.lastStatus .invalidState).logged_logWrite 0x0008 blkSCH noPart .invalidState 0 off v.toNat
  rw [State.logged, State.fld_of_sameReg (f := fLOG_WR_COUNT) (s.reg_lastStatus .invalidState (by decide))] at hlog
  exact hlog

end

/-! ### A write of SCH_TS_CTRL (R116, R146) -/

/-- A reserved PARENT_PORT or PULSE_SHIFT is refused in LAST_STATUS. -/
def State.tsJudged (s : State) (v : BitVec 32) : State :=
  if decide (23 < bitsOf v.toNat 0 5) || decide (bitsOf v.toNat 8 5 < 10) then s.lastStatus .invalidField else s

/-- The fields PARENT_PORT and PULSE_SHIFT that a write leaves: a reserved value keeps its field. -/
def State.tsPort (s : State) (v : BitVec 32) : Nat :=
  if 23 < bitsOf v.toNat 0 5 then s.fld fSCH_TS_CTRL_PARENT_PORT else bitsOf v.toNat 0 5
def State.tsShift (s : State) (v : BitVec 32) : Nat :=
  if bitsOf v.toNat 8 5 < 10 then s.fld fSCH_TS_CTRL_PULSE_SHIFT else bitsOf v.toNat 8 5

/-- The four fields of SCH_TS_CTRL written. -/
def State.tsFields (s : State) (port shift : Nat) (en root : Bool) : State :=
  (((s.setFld fSCH_TS_CTRL_PARENT_PORT port).setFld fSCH_TS_CTRL_PULSE_SHIFT shift).setFld fSCH_TS_CTRL_PULSE_EN (b2n en)).setFld
    fSCH_TS_CTRL_ROOT (b2n root)

section

variable (s : State) (port shift : Nat) (en root : Bool)

theorem State.reg_tsFields {o : Nat} (h : o ≠ rSCH_TS_CTRL) : (s.tsFields port shift en root).reg o = s.reg o := by
  rw [State.tsFields, State.reg_setFld_other _ _ _ _ h, State.reg_setFld_other _ _ _ _ h, State.reg_setFld_other _ _ _ _ h,
    State.reg_setFld_other _ _ _ _ h]

theorem State.root_tsFields : (s.tsFields port shift en root).flag fSCH_TS_CTRL_ROOT = root :=
  State.flag_setFld_b2n _ rfl (by decide) root

theorem State.port_tsFields : (s.tsFields port shift en root).fld fSCH_TS_CTRL_PARENT_PORT = port % 32 := by
  rw [State.tsFields, State.fld_setFld_bits _ _ _ _ (by decide) (by rfl) (by decide),
    State.fld_setFld_bits _ _ _ _ (by decide) (by rfl) (by decide),
    State.fld_setFld_bits _ _ _ _ (by decide) (by rfl) (by decide), State.fld_setFld_same _ _ _ (by decide)]
  rfl

theorem State.shift_tsFields : (s.tsFields port shift en root).fld fSCH_TS_CTRL_PULSE_SHIFT = shift % 32 := by
  rw [State.tsFields, State.fld_setFld_bits _ _ _ _ (by decide) (by rfl) (by decide),
    State.fld_setFld_bits _ _ _ _ (by decide) (by rfl) (by decide),
    State.fld_setFld_same _ _ _ (by decide)]
  rfl

variable {s} (v : BitVec 32)

theorem State.tsCtrlWrite_of_change (h : bitOf v.toNat 6 ≠ s.flag fSCH_TS_CTRL_ROOT) (hrun : s.run ≠ 0) :
    s.tsCtrlWrite v = s.refuse rSCH_TS_CTRL v := by
  rw [State.tsCtrlWrite, if_pos ⟨h, hrun⟩]
  rfl

theorem State.tsCtrlWrite_of_set (hbit : bitOf v.toNat 6 = true) (hroot : s.flag fSCH_TS_CTRL_ROOT = false) (hrun : s.run = 0) :
    s.tsCtrlWrite v = (((s.tsJudged v).tsFields (s.tsPort v) (s.tsShift v) (bitOf v.toNat 7) true).setFld
      fSCH_TS_STATUS_LOCKED 1).setFld fSCH_TS_STATUS_DEPTH 0 := by
  rw [State.tsCtrlWrite, if_neg (fun h => h.2 hrun), hbit, hroot]
  simp only [Bool.false_and, Bool.not_true, Bool.or_self, Bool.false_eq_true, if_false, Bool.not_false, Bool.and_self, if_true,
    decide_eq_true_eq]
  rfl

theorem State.tsCtrlWrite_of_clear (hbit : bitOf v.toNat 6 = false) (hroot : s.flag fSCH_TS_CTRL_ROOT = true) (hrun : s.run = 0) :
    s.tsCtrlWrite v = (s.tsJudged v).loseLock.tsFields (s.tsPort v) (s.tsShift v) (bitOf v.toNat 7) false := by
  rw [State.tsCtrlWrite, if_neg (fun h => h.2 hrun), hbit, hroot]
  simp only [Bool.not_false, Bool.and_true, Bool.true_or, if_true, Bool.false_and, Bool.false_eq_true, if_false, decide_eq_true_eq]
  rfl

/-- What the judgement leaves: LAST_STATUS alone. -/
theorem State.tsJudged_leaves : s.tsJudged v = { s with regs := (s.tsJudged v).regs } ∧
    ∀ o, o ≠ rSCH_STATE → (s.tsJudged v).reg o = s.reg o := by
  unfold State.tsJudged
  split
  · exact ⟨s.lastStatus_frame _, fun o ho => s.reg_lastStatus _ ho⟩
  · exact ⟨rfl, fun _ _ => rfl⟩

theorem State.tsPort_eq : s.tsPort v % 32 = if v.toNat % 32 < 24 then v.toNat % 32 else s.fld fSCH_TS_CTRL_PARENT_PORT := by
  have hfld : s.fld fSCH_TS_CTRL_PARENT_PORT < 32 := Nat.mod_lt _ (by decide)
  have hbits : bitsOf v.toNat 0 5 = v.toNat % 32 := by rw [bitsOf, pow_zero, Nat.div_one]; rfl
  rw [State.tsPort, hbits]
  split_ifs <;> omega

theorem State.tsShift_eq : s.tsShift v % 32 =
    if 10 ≤ v.toNat / 256 % 32 then v.toNat / 256 % 32 else s.fld fSCH_TS_CTRL_PULSE_SHIFT := by
  have hfld : s.fld fSCH_TS_CTRL_PULSE_SHIFT < 32 := Nat.mod_lt _ (by decide)
  have hbits : bitsOf v.toNat 8 5 = v.toNat / 256 % 32 := rfl
  rw [State.tsShift, hbits]
  split_ifs <;> omega

end

/-- The hold, the pulses and SCH_TS_CTRL (R115, R116, R118, R146). -/
theorem clause_timePulses : Clause.timePulses := by
  unfold Clause.timePulses
  intro s v
  have hexec : exec (.schTsCtrlWrite v) s = .next (s.tsCtrlWrite v) := rfl
  obtain ⟨hjudged, hjregs⟩ := State.tsJudged_leaves (s := s) v
  refine ⟨⟨_, rfl, ?_⟩, fun hen hp => ?_, fun u hp => ?_, fun hrun hbit hroot => ?_, fun hrun hne => ?_, fun hrun hbit hroot hlock => ?_⟩
  · simp [State.advance]
  · refine ⟨_, State.exec_timePulse hen hp, ?_, rfl, ?_⟩
    · rw [State.atTb_frame]
      rfl
    · exact s.tb_atTb_ceilTo (le_trans (Nat.lt_succ_iff.mp (show s.fld fSCH_TS_CTRL_PULSE_SHIFT < 32 from Nat.mod_lt _ (by decide)))
        (by decide))
  · refine ⟨_, State.exec_timePulseEnd hp, ?_, rfl⟩
    rw [← State.atLeast_now]
    rfl
  · rw [hexec, State.tsCtrlWrite_of_set v hbit hroot hrun]
    refine ⟨_, rfl, ?_, ?_, ?_, ?_, fun o ho => ?_, ?_, ?_⟩
    · rw [hjudged]
      rfl
    · rw [State.flag_setFld_off _ _ (by decide), State.flag_setFld_off _ _ (by decide), State.root_tsFields]
    · rw [State.flag, State.fld_setFld_bits _ _ _ _ (by decide) (by rfl) (by decide), State.fld_setFld_same _ _ _ (by decide)]
      rfl
    · rw [State.fld_setFld_same _ _ _ (by decide)]
      rfl
    · simp only [List.mem_cons, List.not_mem_nil, or_false, not_or] at ho
      obtain ⟨hctrl, hstatus, hstate⟩ := ho
      have hdepth : o ≠ fSCH_TS_STATUS_DEPTH.off := hstatus
      rw [State.reg_setFld_other _ _ _ _ hdepth, State.reg_setFld_other _ _ _ _ hstatus, State.reg_tsFields _ _ _ _ _ hctrl,
        hjregs o hstate]
    · rw [State.fld_setFld_off _ _ _ _ (by decide), State.fld_setFld_off _ _ _ _ (by decide), State.port_tsFields, State.tsPort_eq]
    · rw [State.fld_setFld_off _ _ _ _ (by decide), State.fld_setFld_off _ _ _ _ (by decide), State.shift_tsFields, State.tsShift_eq]
  · rw [hexec, State.tsCtrlWrite_of_change v hne hrun]
    exact ⟨_, rfl, s.refuse_frame _ v, s.lastStatus_refuse _ v, s.fld_refuse _ v rfl (by decide),
      (s.reg_refuse _ v (by decide)).trans (s.reg_lastStatus _ (by decide)), s.logged_refuse _ v⟩
  · rw [hexec, State.tsCtrlWrite_of_clear v hbit hroot hrun]
    have hlocked : (s.tsJudged v).flag fSCH_TS_STATUS_LOCKED = true :=
      (State.flag_of_sameReg (f := fSCH_TS_STATUS_LOCKED) (hjregs _ (by decide))).trans hlock
    obtain ⟨-, hnow, hloss⟩ := (s.tsJudged v).loseLock_leaves
    refine ⟨_, rfl, State.root_tsFields _ _ _ _ _, ?_, ?_⟩
    · rw [State.flag_of_sameReg (f := fSCH_TS_STATUS_LOCKED) (State.reg_tsFields _ _ _ _ _ (by decide)), hnow]
    · rw [State.flag_of_sameReg (f := fSCH_TS_STATUS_LOSS) (State.reg_tsFields _ _ _ _ _ (by decide)), hloss hlocked]

/-- Settles O20: the exchange, the correction of the counter with its lock, and the pulses. -/
theorem timeBase : Obligations.TimeBase := by
  unfold Obligations.TimeBase
  exact ⟨clause_timeExchange, clause_timeCorrection, clause_timePulses⟩

end Sys2Proof.Machine
end

section
/-! SUPPORT. Activation (R136, R138, R143, R145): what SCH_STATE and SCH_LOAD_STATUS show of an image, what the opening of an epoch
leaves of the schedule unit, and the settled obligation. -/

namespace Sys2Proof.Machine

open Sys2Proof

/-! ### IMG and SCH_LOAD_STATUS (R135, R145, R146) -/

section

variable (s : State) (n : Nat) (st : Status) (detail : Nat)

/-- IMG and the outcome of a load are shown. -/
def State.showImg : State := (s.setImg n).loadStatus st detail

theorem State.showImg_frame : s.showImg n st detail = { s with regs := (s.showImg n st detail).regs } :=
  State.setFld_frame (State.setFld_frame (State.setFld_frame (State.setFld_frame rfl _ _) _ _) _ _) _ _

theorem State.reg_showImg {o : Nat} (hs : o ≠ rSCH_STATE) (hl : o ≠ rSCH_LOAD_STATUS) : (s.showImg n st detail).reg o = s.reg o := by
  rw [State.showImg, State.loadStatus, State.raise, State.setImg, State.reg_setFld_other _ _ _ _ hs, State.reg_setFld_other _ _ _ _ hl,
    State.reg_setFld_other _ _ _ _ hl, State.reg_setFld_other _ _ _ _ hs]

theorem State.sameRegsBut_showImg : s.sameRegsBut (s.showImg n st detail) [rSCH_STATE, rSCH_LOAD_STATUS] := fun o ho => by
  simp only [List.mem_cons, List.not_mem_nil, or_false, not_or] at ho
  exact s.reg_showImg n st detail ho.1 ho.2

theorem State.img_showImg : (s.showImg n st detail).fld fSCH_STATE_IMG = n % 4 := by
  rw [State.showImg, State.loadStatus, State.raise, State.setImg, State.fld_setFld_bits _ _ _ _ (by decide) (by rfl) (by decide),
    State.fld_setFld_off _ _ _ _ (by decide), State.fld_setFld_off _ _ _ _ (by decide), State.fld_setFld_same _ _ _ (by decide)]
  rfl

theorem State.run_showImg : (s.showImg n st detail).run = s.run := by
  rw [State.run, State.showImg, State.loadStatus, State.raise, State.setImg,
    State.fld_setFld_bits _ _ _ _ (by decide) (by rfl) (by decide), State.fld_setFld_off _ _ _ _ (by decide),
    State.fld_setFld_off _ _ _ _ (by decide), State.fld_setFld_bits _ _ _ _ (by decide) (by rfl) (by decide), State.run]

theorem State.lastStatus_showImg : (s.showImg n st detail).fld fSCH_STATE_LAST_STATUS = s.fld fSCH_STATE_LAST_STATUS := by
  rw [State.showImg, State.loadStatus, State.raise, State.setImg, State.fld_setFld_bits _ _ _ _ (by decide) (by rfl) (by decide),
    State.fld_setFld_off _ _ _ _ (by decide), State.fld_setFld_off _ _ _ _ (by decide),
    State.fld_setFld_bits _ _ _ _ (by decide) (by rfl) (by decide)]

theorem State.done_showImg : (s.showImg n st detail).flag fSCH_STATE_LOAD_DONE = true := State.flag_raise_same _ rfl (by decide)

theorem State.status_showImg : (s.showImg n st detail).fld fSCH_LOAD_STATUS_STATUS = statusCode st := by
  rw [State.showImg, State.loadStatus, State.raise, State.fld_setFld_off _ _ _ _ (by decide),
    State.fld_setFld_bits _ _ _ _ (by decide) (by rfl) (by decide), State.fld_setFld_same _ _ _ (by decide)]
  cases st <;> rfl

theorem State.detail_showImg : (s.showImg n st detail).fld fSCH_LOAD_STATUS_DETAIL = detail % 65536 := by
  rw [State.showImg, State.loadStatus, State.raise, State.fld_setFld_off _ _ _ _ (by decide), State.fld_setFld_same _ _ _ (by decide)]
  rfl

end

/-- An image or a load that ends: it is shown, and nothing is held. -/
theorem State.endHeld_eq (s : State) (st : Status) (detail : Nat) :
    s.endHeld st detail = { s.showImg 0 st detail with sch := { s.sch with held := none, load := none } } := rfl

theorem State.endHeld_frame (s : State) (st : Status) (detail : Nat) :
    s.endHeld st detail = { s with regs := (s.showImg 0 st detail).regs, sch := { s.sch with held := none, load := none } } := by
  rw [State.endHeld_eq, State.showImg_frame]

theorem State.endHeld_regs (s : State) (st : Status) (detail : Nat) : (s.endHeld st detail).regs = (s.showImg 0 st detail).regs := by
  rw [State.endHeld_frame]

/-! ### What the opening of an epoch leaves (R138) -/

/-- From `s` to `t` the schedule unit keeps its images, its load and its open epoch, and its window keeps every register but SCH_FAULT and
SCH_FAULT_COUNT. -/
def State.keepsEpoch (s t : State) : Prop :=
  t.sch.active = s.sch.active ∧ t.sch.held = s.sch.held ∧ t.sch.load = s.sch.load ∧ t.sch.epoch = s.sch.epoch ∧
    ∀ o, 0x200000 ≤ o → o < 0x300000 → o ≠ rSCH_FAULT → o ≠ rSCH_FAULT_COUNT → t.reg o = s.reg o

namespace State.keepsEpoch

variable {s t u : State}

theorem refl (s : State) : s.keepsEpoch s := ⟨rfl, rfl, rfl, rfl, fun _ _ _ _ _ => rfl⟩

theorem trans (h : s.keepsEpoch t) (k : t.keepsEpoch u) : s.keepsEpoch u := by
  obtain ⟨hactive, hheld, hload, hepoch, hregs⟩ := h
  obtain ⟨kactive, kheld, kload, kepoch, kregs⟩ := k
  exact ⟨kactive.trans hactive, kheld.trans hheld, kload.trans hload, kepoch.trans hepoch,
    fun o hlo hhi hf hc => (kregs o hlo hhi hf hc).trans (hregs o hlo hhi hf hc)⟩

theorem ite {c : Prop} {_ : Decidable c} (h : s.keepsEpoch t) (k : s.keepsEpoch u) : s.keepsEpoch (if c then t else u) := by
  split
  · exact h
  · exact k

theorem foldl {α : Type} {f : State → α → State} (hf : ∀ (t : State) (a : α), t.keepsEpoch (f t a)) (l : List α) (s : State) :
    s.keepsEpoch (l.foldl f s) := by
  induction l generalizing s with
  | nil => exact refl s
  | cons a r ih => exact (hf s a).trans (ih (f s a))

/-- A register outside the window of the schedule unit. -/
theorem setFld (h : s.keepsEpoch t) {f : Fld} (hf : f.off < 0x200000 ∨ 0x300000 ≤ f.off) (v : Nat) : s.keepsEpoch (t.setFld f v) :=
  h.trans ⟨rfl, rfl, rfl, rfl, fun o _ _ _ _ => State.reg_setFld_other _ _ _ _ (by omega)⟩

theorem fault (h : s.keepsEpoch t) (cause : Nat) : s.keepsEpoch (t.fault cause) := by
  obtain ⟨-, hsch, hregs⟩ := t.faultLeaves_fault cause
  exact h.trans ⟨(congrArg Sch.active hsch :), (congrArg Sch.held hsch :), (congrArg Sch.load hsch :),
    (congrArg Sch.epoch hsch :),
    fun o _ hhi hf hc => hregs o (by omega) hf hc⟩

theorem onPav (h : s.keepsEpoch t) (l : Nat) (f : Pav → Pav) : s.keepsEpoch (t.onPav l f) := by
  unfold State.onPav
  split
  · exact h
  · exact h.trans ⟨rfl, rfl, rfl, rfl, fun _ _ _ _ _ => rfl⟩

theorem setCkp (h : s.keepsEpoch t) (f : Ckp → Ckp) : s.keepsEpoch (t.setCkp f) := h.trans ⟨rfl, rfl, rfl, rfl, fun _ _ _ _ _ => rfl⟩

/-- The count of a stall (R256). -/
theorem stallEpoch (h : s.keepsEpoch t) : s.keepsEpoch t.stallEpoch := by
  have hcount : s.keepsEpoch (t.stallCount t.slot) := by
    unfold State.stallCount
    split
    · exact h
    · exact (h.setFld (.inr (by decide)) _).setCkp _
  exact .ite ((hcount.setCkp _).setCkp _) (hcount.setCkp _)

theorem reg (h : s.keepsEpoch t) {o : Nat} (hlo : 0x200000 ≤ o) (hhi : o < 0x300000) (hf : o ≠ rSCH_FAULT)
    (hc : o ≠ rSCH_FAULT_COUNT) : t.reg o = s.reg o :=
  h.2.2.2.2 o hlo hhi hf hc

theorem fld (h : s.keepsEpoch t) {f : Fld} (hlo : 0x200000 ≤ f.off) (hhi : f.off < 0x300000) (hf : f.off ≠ rSCH_FAULT)
    (hc : f.off ≠ rSCH_FAULT_COUNT) : t.fld f = s.fld f :=
  State.fld_of_sameReg (h.reg hlo hhi hf hc)

end State.keepsEpoch

/-- Writes at other keys leave what is read. -/
theorem smGet_foldl_smSet_other {α β : Type} [DecidableEq α] (d : Nat → α) (k : β → Nat) (v : β → α) {j : Nat} :
    ∀ (l : List β) (m : SMap α), (∀ e ∈ l, j ≠ k e) → smGet d (l.foldl (fun m e => smSet d m (k e) (v e)) m) j = smGet d m j
  | [], _, _ => rfl
  | e :: r, m, h => by
    rw [List.foldl_cons, smGet_foldl_smSet_other d k v r _ fun x hx => h x (List.mem_cons_of_mem _ hx)]
    exact smGet_smSet_other _ _ _ _ _ (h e List.mem_cons_self)

/-- A switch of the routing banks changes no register below them and below their control register (R168). -/
theorem State.reg_switchRt (s : State) {o : Nat} (h : o < 0x300004) : s.switchRt.reg o = s.reg o := by
  have hlo : o < rFAB_RT 0 := lt_trans h (by decide)
  have hctrl : o ≠ rFAB_RT_CTRL := h.ne
  unfold State.switchRt
  extract_lets lo hi mid rest regs rt s1
  rw [State.reg_setFld_other _ _ _ _ hctrl, State.reg_setFld_other _ _ _ _ hctrl]
  change smGet regReset regs o = smGet regReset s.regs o
  have hset : smGet regReset regs o = smGet regReset rest o :=
    smGet_foldl_smSet_other regReset (fun e : Nat × BitVec 32 => lo + 4 * e.1) (fun e => e.2.zeroExtend 64) _ _ fun e _ => by
      change o ≠ rFAB_RT 0 + 4 * e.1
      omega
  rw [hset]
  exact (smGet_filter_keys regReset s.regs (fun a => decide (a < lo ∨ hi ≤ a)) o).trans (if_pos (decide_eq_true (.inl hlo)))

theorem State.keepsEpoch.rtBoundary {s t : State} (h : s.keepsEpoch t) : s.keepsEpoch t.rtBoundary :=
  .ite (h.trans ⟨rfl, rfl, rfl, rfl, fun o _ hhi _ _ => t.reg_switchRt (by omega)⟩) h

/-- The registers that show record `r` at an activation: the indices, and the pace in force. -/
def State.activateRegs (s : State) (r epoch step pace : Nat) : State :=
  ((((s.setFld fSCH_RECORD_VALUE r).setFld fSCH_EPOCH_VALUE epoch).setFld fSCH_STEP_VALUE step).setFld fSCH_ATTEMPT_ATTEMPT 0).setFld
    fSCH_PACE_IN_FORCE pace

section

variable (s : State) (r epoch step pace : Nat)

theorem State.reg_activateRegs {o : Nat} (hr : o ≠ rSCH_RECORD) (he : o ≠ rSCH_EPOCH) (hs : o ≠ rSCH_STEP) (ha : o ≠ rSCH_ATTEMPT)
    (hp : o ≠ rSCH_PACE) : (s.activateRegs r epoch step pace).reg o = s.reg o := by
  rw [State.activateRegs, State.reg_setFld_other _ _ _ _ hp, State.reg_setFld_other _ _ _ _ ha, State.reg_setFld_other _ _ _ _ hs,
    State.reg_setFld_other _ _ _ _ he, State.reg_setFld_other _ _ _ _ hr]

theorem State.indices_activateRegs :
    (s.activateRegs r epoch step pace).fld fSCH_RECORD_VALUE = r % 2 ^ 32 ∧
      (s.activateRegs r epoch step pace).fld fSCH_EPOCH_VALUE = epoch % 2 ^ 32 ∧
      (s.activateRegs r epoch step pace).fld fSCH_STEP_VALUE = step % 2 ^ 32 ∧
      (s.activateRegs r epoch step pace).fld fSCH_ATTEMPT_ATTEMPT = 0 := by
  unfold State.activateRegs
  refine ⟨?_, ?_, ?_, ?_⟩
  · rw [State.fld_setFld_off _ _ _ _ (by decide), State.fld_setFld_off _ _ _ _ (by decide), State.fld_setFld_off _ _ _ _ (by decide),
      State.fld_setFld_off _ _ _ _ (by decide), State.fld_setFld_same _ _ _ (by decide)]
    rfl
  · rw [State.fld_setFld_off _ _ _ _ (by decide), State.fld_setFld_off _ _ _ _ (by decide), State.fld_setFld_off _ _ _ _ (by decide),
      State.fld_setFld_same _ _ _ (by decide)]
    rfl
  · rw [State.fld_setFld_off _ _ _ _ (by decide), State.fld_setFld_off _ _ _ _ (by decide), State.fld_setFld_same _ _ _ (by decide)]
    rfl
  · rw [State.fld_setFld_off _ _ _ _ (by decide), State.fld_setFld_same _ _ _ (by decide)]
    rfl

end

/-- The epoch of a record of an image that has opened at `b`, with its paced length (R138, R143). -/
def OpenEpoch.opens (o : OpenEpoch) (i : Image) (r b : Nat) (paces : List PaceN) : Prop :=
  o.record = r ∧ o.opened = b ∧ o.closed = false ∧ o.blk = i.block r ∧
    o.lenPaced = (i.recAt r).len + (i.recAt r).len * paceAt paces b / 16

/-- At an activation the epoch opens with its indices, whatever faults it (R136, R138). -/
theorem State.openEpoch_activate (s : State) (i : Image) (r b epoch step : Nat) :
    ∃ (u : State) (o : OpenEpoch), u.keepsEpoch (s.openEpoch i r b (.activate epoch step)) ∧
      u.sch.active = s.sch.active ∧ u.sch.held = s.sch.held ∧ u.sch.epoch = some o ∧ o.opens i r b s.sch.paces ∧
      u.regs = (s.stallEpoch.rtBoundary.activateRegs r epoch step (paceAt s.sch.paces b)).regs := by
  have hstart : s.keepsEpoch s.stallEpoch.rtBoundary := (State.keepsEpoch.refl s).stallEpoch.rtBoundary
  obtain ⟨hactive, hheld, -, -, -⟩ := hstart
  unfold State.openEpoch
  extract_lets e k p len s1 t s2 s3 can o again sch fab s4 s4f s5 s6 s7
  have h4 : s4.keepsEpoch s4f := .ite ((State.keepsEpoch.refl s4).fault 1) (State.keepsEpoch.refl s4)
  have h5 : s4.keepsEpoch s5 := h4.setFld (.inl (by decide)) _
  have h6 : s4.keepsEpoch s6 := h5.trans (State.keepsEpoch.foldl (fun t x => (State.keepsEpoch.refl t).onPav _ _) _ _)
  have h7 : s4.keepsEpoch s7 := h6.trans ⟨rfl, rfl, rfl, rfl, fun _ _ _ _ _ => rfl⟩
  exact ⟨s4, o, .ite (.ite (h7.fault 4) h7) (h4.fault 2), hactive, hheld, rfl, ⟨rfl, rfl, rfl, rfl, rfl⟩, rfl⟩

/-! ### SCH_ACTIVATE (R136) -/

theorem State.armedTest_iff (s : State) (i : Image) (b : Nat) : s.armedTest i b = true ↔
    ∀ d ∈ i.devs, ∃ a ∈ s.sch.armed, a.image = i.id ∧ a.dev = d ∧ a.stamp + 16000 ≤ b := by
  simp [State.armedTest, and_assoc]

/-- The state in which an image becomes the active one: IMG is NONE, and RUN is RUNNING. -/
def State.becomeActive (s : State) (i : Image) : State :=
  { (s.showImg 0 .ok 0).setRun 1 with sch := { s.sch with held := none, active := some i, stepRec := 0 } }

theorem State.becomeActive_regs (s : State) (i : Image) : (s.becomeActive i).regs = ((s.showImg 0 .ok 0).setRun 1).regs := rfl

theorem State.activate_of_idle {s : State} (hrun : s.run = 0) (h : HeldImage) (b : Nat) :
    s.activate h b = (s.becomeActive h.img).openEpoch h.img 0 b (.activate h.actEpoch.toNat h.startStep.toNat) := by
  rw [State.activate, hrun]
  rfl

section

variable {s : State} {h : HeldImage} (hheld : s.sch.held = some h) (harmed : h.armed = true) (hidle : h.idleLoad = true)
  (hrun : s.run = 0)
include hheld harmed hidle hrun

theorem State.exec_schActivate : exec .schActivate s = .next (if (s.atTb h.actTb).armedTest h.img h.actTb then
    (s.atTb h.actTb).activate h h.actTb else (s.atTb h.actTb).endHeld .notReady 0) := by
  change execSchActivate s = _
  rw [execSchActivate, hheld]
  dsimp only
  rw [if_pos ⟨harmed, hidle, hrun⟩]
  split <;> rfl

end

/-- An idle image that becomes active shows RUNNING, IMG NONE and OK; its epoch 0 opens with the indices held with it. -/
theorem State.activate_leaves {s : State} (hrun : s.run = 0) (h : HeldImage) (b : Nat) :
    ∃ o : OpenEpoch, (s.activate h b).sch.epoch = some o ∧ o.opens h.img 0 b s.sch.paces ∧ (s.activate h b).sch.active = some h.img ∧
      (s.activate h b).sch.held = none ∧ (s.activate h b).run = 1 ∧ (s.activate h b).fld fSCH_STATE_IMG = 0 ∧
      (s.activate h b).fld fSCH_LOAD_STATUS_STATUS = 0 ∧ (s.activate h b).flag fSCH_STATE_LOAD_DONE = true ∧
      (s.activate h b).fld fSCH_EPOCH_VALUE = h.actEpoch.toNat ∧ (s.activate h b).fld fSCH_STEP_VALUE = h.startStep.toNat ∧
      (s.activate h b).fld fSCH_ATTEMPT_ATTEMPT = 0 ∧ (s.activate h b).fld fSCH_RECORD_VALUE = 0 := by
  obtain ⟨u, o, hkeep, hactive, hheld, hepoch, hopens, hregs⟩ :=
    (s.becomeActive h.img).openEpoch_activate h.img 0 b h.actEpoch.toNat h.startStep.toNat
  rw [← State.activate_of_idle hrun] at hkeep
  have hstart : (s.becomeActive h.img).keepsEpoch (s.becomeActive h.img).stallEpoch.rtBoundary :=
    (State.keepsEpoch.refl _).stallEpoch.rtBoundary
  obtain ⟨hrecord, hep, hstep, hattempt⟩ := (s.becomeActive h.img).stallEpoch.rtBoundary.indices_activateRegs 0 h.actEpoch.toNat
    h.startStep.toNat (paceAt (s.becomeActive h.img).sch.paces b)
  have hindex : ∀ f : Fld, 0x200000 ≤ f.off → f.off < 0x300000 → f.off ≠ rSCH_FAULT → f.off ≠ rSCH_FAULT_COUNT →
      (s.activate h b).fld f = ((s.becomeActive h.img).stallEpoch.rtBoundary.activateRegs 0 h.actEpoch.toNat h.startStep.toNat
        (paceAt (s.becomeActive h.img).sch.paces b)).fld f := fun f hlo hhi hf hc =>
    (hkeep.fld hlo hhi hf hc).trans (State.fld_congr hregs f)
  have hshown : ∀ o, o = rSCH_STATE ∨ o = rSCH_LOAD_STATUS → (s.activate h b).reg o = ((s.showImg 0 .ok 0).setRun 1).reg o := by
    rintro o (rfl | rfl)
    all_goals
      rw [hkeep.reg (by decide) (by decide) (by decide) (by decide), State.reg_congr hregs,
        State.reg_activateRegs _ _ _ _ _ (by decide) (by decide) (by decide) (by decide) (by decide),
        hstart.reg (by decide) (by decide) (by decide) (by decide), State.reg_congr (s.becomeActive_regs h.img)]
  have hstate : ∀ f : Fld, f.off = rSCH_STATE → (s.activate h b).fld f = ((s.showImg 0 .ok 0).setRun 1).fld f := fun f hf =>
    State.fld_of_sameReg (hshown _ (.inl hf))
  obtain ⟨kactive, kheld, -, kepoch, -⟩ := hkeep
  refine ⟨o, kepoch.trans hepoch, hopens, kactive.trans hactive, kheld.trans hheld, ?_, ?_, ?_, ?_, ?_, ?_, ?_, ?_⟩
  · rw [State.run, hstate _ rfl, State.setRun, State.fld_setFld_same _ _ _ (by decide)]
    rfl
  · rw [hstate _ rfl, State.setRun, State.fld_setFld_bits _ _ _ _ (by decide) (by rfl) (by decide), State.img_showImg]
  · rw [State.fld_of_sameReg (f := fSCH_LOAD_STATUS_STATUS) (hshown _ (.inr rfl)), State.setRun,
      State.fld_setFld_off _ _ _ _ (by decide), State.status_showImg]
    rfl
  · rw [State.flag, hstate _ rfl, State.setRun, State.fld_setFld_bits _ _ _ _ (by decide) (by rfl) (by decide)]
    exact State.done_showImg _ _ _ _
  · rw [hindex _ (by decide) (by decide) (by decide) (by decide), hep, Nat.mod_eq_of_lt h.actEpoch.isLt]
  · rw [hindex _ (by decide) (by decide) (by decide) (by decide), hstep, Nat.mod_eq_of_lt h.startStep.isLt]
  · rw [hindex _ (by decide) (by decide) (by decide) (by decide), hattempt]
  · rw [hindex _ (by decide) (by decide) (by decide) (by decide), hrecord]
    rfl

/-- Settles O22: the test of the ARMED notices decides between the activation and the end of the image. -/
theorem activation : Obligations.Activation := by
  unfold Obligations.Activation
  intro s h hheld harmed hidle hrun
  have hframe := s.atTb_frame h.actTb
  have harm : (s.atTb h.actTb).sch.armed = s.sch.armed := by rw [hframe]
  have hpaces : (s.atTb h.actTb).sch.paces = s.sch.paces := by rw [hframe]
  have hidleRun : (s.atTb h.actTb).run = 0 := by
    rw [hframe]
    exact hrun
  have htest := (s.atTb h.actTb).armedTest_iff h.img h.actTb
  have hexec := State.exec_schActivate hheld harmed hidle hrun
  rw [harm] at htest
  refine ⟨fun hall => ?_, fun ⟨d, hd, hnone⟩ => ?_⟩
  · rw [if_pos (htest.mpr hall)] at hexec
    obtain ⟨o, hepoch, ⟨hrecord, hopened, hclosed, hblk, hlen⟩, hactive, hgone, hrun1, himg, hst, hdone, hep, hstep, hattempt, hrec⟩ :=
      State.activate_leaves hidleRun h h.actTb
    rw [hpaces] at hlen
    exact ⟨_, o, hexec, hrun1, himg, hst, hdone, hep, hstep, hattempt, hrec, hactive, hgone, hepoch, hrecord, hopened, hclosed, hblk, hlen⟩
  · have hfail : ¬ (s.atTb h.actTb).armedTest h.img h.actTb = true := fun hpass => by
      obtain ⟨a, ha, himage, hdev, hstamp⟩ := htest.mp hpass d hd
      exact absurd (hnone a ha himage hdev) (by omega)
    rw [if_neg hfail] at hexec
    have hregs := (s.atTb h.actTb).endHeld_regs .notReady 0
    refine ⟨_, hexec, ?_, ?_, ?_, ?_, ?_, rfl⟩
    · rw [State.endHeld_frame, hframe]
    · rw [State.run, State.fld_congr hregs]
      exact (State.run_showImg _ _ _ _).trans hidleRun
    · rw [State.fld_congr hregs, State.img_showImg]
    · rw [State.fld_congr hregs, State.status_showImg]
      rfl
    · rw [State.flag, State.fld_congr hregs]
      exact State.done_showImg _ _ _ _

end Sys2Proof.Machine
end

section
/-! SUPPORT. SCH_CTRL and the end of a load (R132 to R136, R145, R146): what a write of the device leaves (R255), each command of
SCH_CTRL in each state, the image armed or refused; and the settled obligation. -/

namespace Sys2Proof.Machine

open Sys2Proof

/-! ### Device writes (R255, R256) -/

/-- From `s` to `t` the checkpoint unit may have begun to copy granules and counted stalls; the writes that it holds are as they were. -/
def State.holdLeaves (s t : State) : Prop := t = { s with regs := t.regs, ckp := t.ckp } ∧ t.ckp.held = s.ckp.held

namespace State.holdLeaves

variable {s t u : State}

theorem refl (s : State) : s.holdLeaves s := ⟨rfl, rfl⟩

theorem trans (h : s.holdLeaves t) (k : t.holdLeaves u) : s.holdLeaves u := by
  obtain ⟨hframe, hheld⟩ := h
  obtain ⟨kframe, kheld⟩ := k
  exact ⟨kframe.trans (congrArg (fun x : State => { x with regs := u.regs, ckp := u.ckp }) hframe), kheld.trans hheld⟩

theorem setFld (h : s.holdLeaves t) (f : Fld) (v : Nat) : s.holdLeaves (t.setFld f v) := h.trans ⟨rfl, rfl⟩

theorem divert (h : s.holdLeaves t) (g : Nat) : s.holdLeaves (t.divert g) := by
  refine h.trans ?_
  unfold State.divert
  split
  · exact refl t
  · split
    · split
      · exact refl t
      · exact ⟨rfl, rfl⟩
    · exact refl t

theorem divertRange (h : s.holdLeaves t) (a n : Nat) : s.holdLeaves (t.divertRange a n) := by
  unfold State.divertRange
  generalize granules a n = l
  induction l generalizing t with
  | nil => exact h
  | cons g r ih => exact ih (h.divert g)

theorem stallNote (h : s.holdLeaves t) : s.holdLeaves t.stallNote := by
  have hcount : s.holdLeaves (t.stallCount (t.slot + 1)) := by
    unfold State.stallCount
    split
    · exact h
    · exact h.trans ⟨rfl, rfl⟩
  unfold State.stallNote State.stallOn
  split
  · exact hcount.trans ⟨rfl, rfl⟩
  · exact hcount

end State.holdLeaves

/-- A write that must wait is the last of those that are held. -/
theorem State.devWrite_of_held {s : State} {a : Nat} {b : List Byte} {sown : Bool} {o : HeldFor} (h : s.writeHeld a b.length o = true) :
    (s.setCkp (fun k => { k with held := k.held ++ [{ addr := a, data := b, sown := sown, owner := o }] })).holdLeaves
      (s.devWrite a b sown o) := by
  rw [State.devWrite, if_pos h]
  exact ((State.holdLeaves.refl _).divertRange _ _).stallNote

/-- A write of the device changes memory, scratch, what is sent, and what the checkpoint unit holds and shows. -/
theorem State.devWrite_frame (s : State) (a : Nat) (b : List Byte) (sown : Bool) (o : HeldFor) :
    s.devWrite a b sown o = { s with
      regs := (s.devWrite a b sown o).regs, mem := (s.devWrite a b sown o).mem, scratch := (s.devWrite a b sown o).scratch
      out := (s.devWrite a b sown o).out, ckp := (s.devWrite a b sown o).ckp } := by
  cases h : s.writeHeld a b.length o with
  | false =>
    rw [State.devWrite_of_not_held h, State.land_frame]
  | true =>
    obtain ⟨hframe, -⟩ := State.devWrite_of_held (sown := sown) h
    generalize s.devWrite a b sown o = t at *
    rw [hframe]
    rfl

theorem State.freeBytes_frame (n : Nat) : ∀ (s : State) (a : Nat), s.freeBytes a n =
    { s with mem := (s.freeBytes a n).mem, scratch := (s.freeBytes a n).scratch, freeCtr := (s.freeBytes a n).freeCtr } := by
  induction n with
  | zero => exact fun _ _ => rfl
  | succ n ih =>
    intro s a
    unfold State.freeBytes
    dsimp only
    split
    · rw [ih, State.setByte_frame]
      rfl
    · rw [ih]
      rfl

/-! ### SCH_STATE (R145, R146) -/

section

variable (s : State) (n : Nat)

theorem State.run_setRun : (s.setRun n).run = n % 8 := State.fld_setFld_same _ _ _ (by decide)

theorem State.img_setRun : (s.setRun n).fld fSCH_STATE_IMG = s.fld fSCH_STATE_IMG :=
  State.fld_setFld_bits _ _ _ _ (by decide) (by rfl) (by decide)

theorem State.lastStatus_setRun : (s.setRun n).fld fSCH_STATE_LAST_STATUS = s.fld fSCH_STATE_LAST_STATUS :=
  State.fld_setFld_bits _ _ _ _ (by decide) (by rfl) (by decide)

theorem State.img_setImg : (s.setImg n).fld fSCH_STATE_IMG = n % 4 := State.fld_setFld_same _ _ _ (by decide)

theorem State.run_setImg : (s.setImg n).run = s.run := State.fld_setFld_bits _ _ _ _ (by decide) (by rfl) (by decide)

theorem State.lastStatus_setImg : (s.setImg n).fld fSCH_STATE_LAST_STATUS = s.fld fSCH_STATE_LAST_STATUS :=
  State.fld_setFld_bits _ _ _ _ (by decide) (by rfl) (by decide)

theorem State.run_lastStatus (x : Status) : (s.lastStatus x).run = s.run := s.fld_lastStatus_other x rfl (by decide)

theorem State.img_lastStatus (x : Status) : (s.lastStatus x).fld fSCH_STATE_IMG = s.fld fSCH_STATE_IMG :=
  s.fld_lastStatus_other x rfl (by decide)

/-- IMG or RUN set by a command that succeeds: SCH_STATE alone changes. -/
theorem State.sameRegsBut_state {t : State} (h : ∀ o, o ≠ rSCH_STATE → t.reg o = s.reg o) : s.sameRegsBut t [rSCH_STATE] :=
  fun o ho => h o (List.ne_of_not_mem_cons ho)

theorem State.sameRegsBut_setRun_lastStatus (x : Status) : s.sameRegsBut ((s.lastStatus x).setRun n) [rSCH_STATE] :=
  s.sameRegsBut_state fun _ ho => (State.reg_setFld_other _ _ _ _ ho).trans (s.reg_lastStatus x ho)

theorem State.sameRegsBut_setImg_lastStatus (x : Status) : s.sameRegsBut ((s.lastStatus x).setImg n) [rSCH_STATE] :=
  s.sameRegsBut_state fun _ ho => (State.reg_setFld_other _ _ _ _ ho).trans (s.reg_lastStatus x ho)

theorem State.setRun_lastStatus_frame (x : Status) :
    (s.lastStatus x).setRun n = { s with regs := ((s.lastStatus x).setRun n).regs } :=
  State.setFld_frame (s.lastStatus_frame x) _ _

theorem State.setImg_lastStatus_frame (x : Status) :
    (s.lastStatus x).setImg n = { s with regs := ((s.lastStatus x).setImg n).regs } :=
  State.setFld_frame (s.lastStatus_frame x) _ _

end

/-! ### The commands of SCH_CTRL (R145, R146) -/

theorem exec_schCommand (s : State) (v : BitVec 32) {c : Instr} (hc : c ∈ [Instr.schLoad v, .schAbort v, .schStop v, .schClear v]) :
    exec c s = .next (s.schCtrl v) := by
  simp only [List.mem_cons, List.not_mem_nil, or_false] at hc
  obtain rfl | rfl | rfl | rfl := hc <;> rfl

section

variable {s : State} {v : BitVec 32}

theorem State.schCtrl_of_no_key (hk : bitsOf v.toNat 16 16 ≠ 0xA55A) : s.schCtrl v = s := if_pos hk

variable (hk : bitsOf v.toNat 16 16 = 0xA55A)
include hk

theorem State.schCtrl_load (hn : bitsOf v.toNat 0 4 = 1) : s.schCtrl v =
    if s.fld fSCH_STATE_IMG = 0 ∧ (s.run = 0 ∨ s.run = 1) then (s.lastStatus .ok).schLoad else s.refuse rSCH_CTRL v := by
  rw [State.schCtrl, if_neg (not_not.mpr hk), hn, if_neg (by decide),
    if_pos rfl, State.refuse]

theorem State.schCtrl_abort (hn : bitsOf v.toNat 0 4 = 2) : s.schCtrl v =
    if s.fld fSCH_STATE_IMG = 1 ∨ s.fld fSCH_STATE_IMG = 2 then (s.lastStatus .ok).schAbort else s.refuse rSCH_CTRL v := by
  rw [State.schCtrl, if_neg (not_not.mpr hk), hn, if_neg (by decide), if_neg (by decide),
    if_pos rfl, State.refuse]

theorem State.schCtrl_stop (hn : bitsOf v.toNat 0 4 = 4) : s.schCtrl v =
    if s.run = 1 ∧ s.fld fSCH_STATE_IMG = 0 then (s.lastStatus .ok).setRun 2 else s.refuse rSCH_CTRL v := by
  rw [State.schCtrl, if_neg (not_not.mpr hk), hn, if_neg (by decide), if_neg (by decide), if_neg (by decide),
    if_pos rfl, State.refuse]

theorem State.schCtrl_clear (hn : bitsOf v.toNat 0 4 = 8) : s.schCtrl v =
    if s.run = 3 then (s.lastStatus .ok).setRun 0 else s.refuse rSCH_CTRL v := by
  rw [State.schCtrl, if_neg (not_not.mpr hk), hn, if_neg (by decide), if_neg (by decide), if_neg (by decide), if_neg (by decide),
    if_pos rfl, State.refuse]

theorem State.schCtrl_bits (hn : bitsOf v.toNat 0 4 ∉ [0, 1, 2, 4, 8]) : s.schCtrl v = s.lastStatus .invalidField := by
  simp only [List.mem_cons, List.not_mem_nil, or_false, not_or] at hn
  obtain ⟨h0, h1, h2, h4, h8⟩ := hn
  rw [State.schCtrl, if_neg (not_not.mpr hk), if_neg h0, if_neg h1, if_neg h2, if_neg h4, if_neg h8]

end

/-! ### LOAD (R132, R136) -/

theorem State.keepsEpoch_startPavReset (s : State) (l : Nat) : s.keepsEpoch (s.startPavReset l) := by
  unfold State.startPavReset
  extract_lets ls hit s0 s1 s2
  have h0 : s.keepsEpoch s0 := ((State.keepsEpoch.refl (s.resetLoads ls)).setFld (.inl (by decide)) _).setFld (.inl (by decide)) _
  have h1 : s.keepsEpoch s1 := h0.trans (State.keepsEpoch.foldl (fun t k => by
    unfold State.beginPavReset
    split
    · exact .refl t
    · exact ⟨rfl, rfl, rfl, rfl, fun _ _ _ _ _ => rfl⟩) ls s0)
  have h2 : s.keepsEpoch s2 := h1.setFld (.inl (by decide)) _
  exact .ite (h2.fault 6) h2

theorem State.keepsEpoch_beginLoads (s : State) (svc : Bool) (named : List (Nat × Prog)) : s.keepsEpoch (s.beginLoads svc named) := by
  unfold State.beginLoads
  extract_lets s1
  have h1 : s.keepsEpoch s1 := State.keepsEpoch.foldl (fun t x => t.keepsEpoch_startPavReset x.1) named s
  clear_value s1
  exact h1.trans ⟨rfl, rfl, rfl, rfl, fun _ _ _ _ _ => rfl⟩

/-- What is held of an image that LOAD has begun to load, with the settings of R136. -/
def State.loading (s : State) (i : Image) : HeldImage :=
  { img := i, idleLoad := s.run = 0, actTb := s.fld fSCH_ACT_TB_TIME, actEpoch := BitVec.ofNat 32 (s.fld fSCH_ACT_EPOCH_VALUE),
    startStep := BitVec.ofNat 32 (s.fld fSCH_START_STEP_VALUE), armed := false, doomed := false }

theorem State.schLoad_refused {s : State} {f : LoadFail} (h : s.checkImage = .error f) :
    s.schLoad = { s.setImg 1 with sch := { s.sch with load := some f, held := none } } := by
  rw [State.schLoad, h]
  rfl

theorem State.schLoad_begun {s : State} {i : Image} (h : s.checkImage = .ok i) :
    s.schLoad.sch.load = none ∧ s.schLoad.sch.held = some (s.loading i) ∧ s.schLoad.reg rSCH_STATE = (s.setImg 1).reg rSCH_STATE := by
  have hkeep : ({ s.setImg 1 with sch := { s.sch with load := none, held := some (s.loading i) } } : State).keepsEpoch s.schLoad := by
    rw [State.schLoad, h]
    exact State.keepsEpoch_beginLoads _ _ _
  have hstate := hkeep.reg (o := rSCH_STATE) (by decide) (by decide) (by decide) (by decide)
  obtain ⟨-, hheld, hload, -, -⟩ := hkeep
  exact ⟨hload, hheld, hstate.trans (State.reg_congr (State.regs_withSch _ _) _)⟩

/-! ### ABORT (R145) -/

/-- The ARMED notices but for the device's own for an image. -/
def State.armedBut (s : State) (id : BitVec 64) : List ArmedN :=
  s.sch.armed.filter (fun a => !(decide (a.image = id) && decide (a.dev = s.devNum)))

theorem State.mem_armedBut (s : State) (id : BitVec 64) (a : ArmedN) :
    a ∈ s.armedBut id ↔ a ∈ s.sch.armed ∧ ¬ (a.image = id ∧ a.dev = s.devNum) := by
  rw [State.armedBut, List.mem_filter, ← Bool.decide_and, ← decide_not, decide_eq_true_eq]

/-- The ARMED notices that an ABORT leaves. -/
def State.armedLeft (s : State) : List ArmedN :=
  match s.sch.held with
  | some h => s.armedBut h.img.id
  | none => s.sch.armed

theorem State.schAbort_frame (s : State) : s.schAbort = { s with
    regs := (s.showImg 0 .invalidState 0).regs
    sch := { s.sch with held := none, load := none, armed := s.armedLeft }
    ldg := (s.dropLoads false).ldg } := by
  have hkeep : s.schAbort = { (s.endHeld .invalidState 0).dropLoads false with
      sch := { ((s.endHeld .invalidState 0).dropLoads false).sch with armed := s.armedLeft } } := by
    unfold State.schAbort State.armedLeft
    cases s.sch.held <;> rfl
  rw [hkeep, State.endHeld_frame]
  rfl

theorem State.devNum_lastStatus (s : State) (x : Status) : (s.lastStatus x).devNum = s.devNum :=
  State.fld_of_sameReg (f := fFAB_DEVNUM_DEV) (s.reg_lastStatus x (by decide))

/-- SCH_CTRL (R145, R146). -/
theorem clause_scheduleCommands : Clause.scheduleCommands := by
  unfold Clause.scheduleCommands
  intro s v c hc
  rw [exec_schCommand s v hc]
  refine ⟨fun hk => congrArg _ (State.schCtrl_of_no_key hk), fun hk => ⟨fun hn himg hrun => ⟨fun f hf => ?_, fun i hi => ?_⟩,
    fun hn himg => ?_, fun hn hrun himg => ?_, fun hn hrun => ?_, fun hbad => ?_, fun hn => ?_⟩⟩
  · have hregs : (s.lastStatus .ok).schLoad.regs = ((s.lastStatus .ok).setImg 1).regs := by
      rw [State.schLoad_refused hf]
    rw [State.schCtrl_load hk hn, if_pos ⟨himg, hrun⟩]
    refine ⟨_, rfl, ?_, fun o ho => ?_, ?_, ?_, ?_⟩
    · rw [State.schLoad_refused hf, State.setImg_lastStatus_frame, s.lastStatus_frame .ok]
    · rw [State.reg_congr hregs, s.sameRegsBut_setImg_lastStatus 1 .ok o ho]
    · rw [State.fld_congr hregs, State.img_setImg]
    · rw [State.run, State.fld_congr hregs]
      exact (State.run_setImg _ 1).trans (s.run_lastStatus .ok)
    · rw [State.fld_congr hregs, State.lastStatus_setImg, s.fld_lastStatus .ok]
      rfl
  · obtain ⟨hload, hheld, hstate⟩ := State.schLoad_begun hi
    rw [State.schCtrl_load hk hn, if_pos ⟨himg, hrun⟩]
    refine ⟨_, _, rfl, hload, hheld, rfl, rfl, rfl, ?_, ?_, ?_, ?_, ?_⟩
    · exact decide_eq_decide.mpr (by rw [s.run_lastStatus .ok])
    · exact State.fld_of_sameReg (f := fSCH_ACT_TB_TIME) (s.reg_lastStatus .ok (by decide))
    · exact (State.fld_of_sameReg (f := fSCH_STATE_IMG) hstate).trans (State.img_setImg _ 1)
    · exact (State.fld_of_sameReg (f := fSCH_STATE_RUN) hstate).trans ((State.run_setImg _ 1).trans (s.run_lastStatus .ok))
    · exact (State.fld_of_sameReg (f := fSCH_STATE_LAST_STATUS) hstate).trans
        ((State.lastStatus_setImg _ 1).trans (s.fld_lastStatus .ok))
  · have hframe := (s.lastStatus .ok).schAbort_frame
    have hregs : (s.lastStatus .ok).schAbort.regs = ((s.lastStatus .ok).showImg 0 .invalidState 0).regs :=
      (congrArg State.regs hframe :)
    have hsch : (s.lastStatus .ok).schAbort.sch = { s.sch with held := none, load := none, armed := (s.lastStatus .ok).armedLeft } :=
      (congrArg State.sch hframe :)
    rw [State.schCtrl_abort hk hn, if_pos himg]
    refine ⟨_, rfl, ?_, ?_, ?_, ?_, ?_, ?_, ?_, fun o ho => ?_, fun h hh a => ?_⟩
    · generalize (s.lastStatus .ok).schAbort = t at *
      rw [hframe, s.lastStatus_frame .ok]
    · rw [State.fld_congr hregs, State.img_showImg]
    · rw [State.run, State.fld_congr hregs]
      exact (State.run_showImg _ _ _ _).trans (s.run_lastStatus .ok)
    · rw [State.fld_congr hregs, State.lastStatus_showImg, s.fld_lastStatus .ok]
      rfl
    · rw [State.flag, State.fld_congr hregs]
      exact State.done_showImg _ _ _ _
    · rw [State.fld_congr hregs, State.status_showImg]
      rfl
    · rw [hsch]
    · rw [State.reg_congr hregs, State.sameRegsBut_showImg _ _ _ _ o ho, s.reg_lastStatus .ok (List.ne_of_not_mem_cons ho)]
    · have harmed : (s.lastStatus .ok).armedLeft = (s.lastStatus .ok).armedBut h.img.id := by
        unfold State.armedLeft
        rw [show (s.lastStatus .ok).sch.held = some h from hh]
      rw [hsch, harmed]
      dsimp only
      rw [State.mem_armedBut, s.devNum_lastStatus]
      exact Iff.rfl
  · rw [State.schCtrl_stop hk hn, if_pos ⟨hrun, himg⟩]
    exact ⟨_, rfl, s.setRun_lastStatus_frame 2 .ok, s.sameRegsBut_setRun_lastStatus 2 .ok, State.run_setRun _ 2,
      ((State.img_setRun _ 2).trans (s.img_lastStatus .ok)).trans himg, (State.lastStatus_setRun _ 2).trans (s.fld_lastStatus .ok)⟩
  · rw [State.schCtrl_clear hk hn, if_pos hrun]
    exact ⟨_, rfl, s.setRun_lastStatus_frame 0 .ok, s.sameRegsBut_setRun_lastStatus 0 .ok, State.run_setRun _ 0,
      (State.img_setRun _ 0).trans (s.img_lastStatus .ok), (State.lastStatus_setRun _ 0).trans (s.fld_lastStatus .ok)⟩
  · have hrefuse : s.schCtrl v = s.refuse rSCH_CTRL v := by
      obtain ⟨hn, h⟩ | ⟨hn, h⟩ | ⟨hn, h⟩ | ⟨hn, h⟩ := hbad
      · rw [State.schCtrl_load hk hn, if_neg h]
      · rw [State.schCtrl_abort hk hn, if_neg h]
      · rw [State.schCtrl_stop hk hn, if_neg h]
      · rw [State.schCtrl_clear hk hn, if_neg h]
    rw [hrefuse]
    exact ⟨_, rfl, s.refuse_frame _ v, s.lastStatus_refuse _ v, s.fld_refuse _ v rfl (by decide), s.fld_refuse _ v rfl (by decide),
      s.logged_refuse _ v⟩
  · rw [State.schCtrl_bits hk hn]
    exact ⟨_, rfl, s.lastStatus_frame _, s.sameRegsBut_state fun o ho => s.reg_lastStatus _ ho, s.fld_lastStatus _, s.run_lastStatus _⟩

/-! ### The end of a load (R132 to R136) -/

/-- The image is held as armed and shown so. -/
def State.armedState (s : State) (h : HeldImage) : State :=
  { s.showImg 2 .ok 0 with sch := { s.sch with held := some { h with armed := true } } }

theorem State.locked_armedState (s : State) (h : HeldImage) :
    (s.armedState h).flag fSCH_TS_STATUS_LOCKED = s.flag fSCH_TS_STATUS_LOCKED :=
  State.flag_of_sameReg (f := fSCH_TS_STATUS_LOCKED)
    ((State.reg_congr (State.regs_withSch _ _) _).trans (s.reg_showImg 2 .ok 0 (by decide) (by decide)))

/-- An image that arms is held and shown; a LOCKED device holds its own ARMED notice, which it also sends. -/
theorem State.arm_leaves (s : State) (h : HeldImage) :
    s.arm h = { s with regs := (s.showImg 2 .ok 0).regs, sch := (s.arm h).sch, fab := (s.arm h).fab } ∧
      (s.arm h).sch.held = some { h with armed := true } ∧
      (s.arm h).sch.armed = if s.flag fSCH_TS_STATUS_LOCKED then
        { image := h.img.id, dev := s.devNum, stamp := s.sch.tb.toNat } :: s.sch.armed else s.sch.armed := by
  have harm : s.arm h = if (s.armedState h).flag fSCH_TS_STATUS_LOCKED then
      let u := (s.armedState h).floodOwn 1 { (s.armedState h).ownNotice 1 with image := h.img.id }
      { u with sch := { u.sch with armed := { image := h.img.id, dev := s.devNum, stamp := s.sch.tb.toNat } :: u.sch.armed } }
      else s.armedState h := rfl
  rw [harm, State.locked_armedState]
  have hshow := s.showImg_frame 2 .ok 0
  cases s.flag fSCH_TS_STATUS_LOCKED with
  | false =>
    refine ⟨?_, rfl, rfl⟩
    rw [if_neg Bool.false_ne_true, State.armedState, hshow]
  | true =>
    rw [if_pos rfl, State.floodOwn_frame]
    refine ⟨?_, rfl, rfl⟩
    dsimp only
    rw [State.armedState, hshow]

section

variable {s : State} {k : Fin 16} (himg : s.fld fSCH_STATE_IMG = 1)
include himg

theorem State.exec_schLoadEnd_readFailed {st : Status} (hst : st ≠ .ok) :
    exec (.schLoadEnd st k) s = .next ((s.endHeld st (0x1000 + k.val)).dropLoads false) := by
  change execSchLoadEnd st k s = _
  rw [execSchLoadEnd, if_neg (not_not.mpr himg), if_pos hst]

theorem State.exec_schLoadEnd_checkFailed {f : LoadFail} (hf : s.sch.load = some f) : exec (.schLoadEnd .ok k) s =
    .next ((if f.st = .refusedResource then s.writeReport f else if f.st = .invalidState then s.logLoad else s).endHeld f.st f.detail) := by
  change execSchLoadEnd .ok k s = _
  rw [execSchLoadEnd, if_neg (not_not.mpr himg), if_neg (not_not.mpr rfl), hf]

theorem State.exec_schLoadEnd_armed {h : HeldImage} (hload : s.sch.load = none) (hheld : s.sch.held = some h)
    (hopen : ∀ d ∈ s.ldg.loads, d.svc = false → d.open = false) (hcheck : (s.dropLoads false).recheck h.img = [])
    (hdoom : h.doomed = false) (htime : h.idleLoad = true → s.sch.tb.toNat < h.actTb) :
    exec (.schLoadEnd .ok k) s = .next ((s.dropLoads false).arm h) := by
  have hdone : ¬ s.ldg.loads.any (fun d => !d.svc && d.open) = true := by
    simp only [List.any_eq_true, Bool.and_eq_true, Bool.not_eq_true', not_exists, not_and]
    intro d hd hsvc
    rw [hopen d hd hsvc]
    exact Bool.false_ne_true
  have hgood : ¬ (h.doomed = true ∨ h.idleLoad = true ∧ h.actTb ≤ s.sch.tb.toNat) := by
    rintro (hd | ⟨hi, ht⟩)
    · exact Bool.false_ne_true (hdoom.symm.trans hd)
    · exact absurd (htime hi) (by omega)
  change execSchLoadEnd .ok k s = _
  rw [execSchLoadEnd, if_neg (not_not.mpr himg), if_neg (not_not.mpr rfl), hload, hheld]
  dsimp only
  rw [if_neg hdone, hcheck]
  dsimp only
  rw [if_neg hgood]

end

/-- The report of a refused load leaves the schedule unit, the pavilions and the queues (R134). -/
theorem State.writeReport_leaves (s : State) (f : LoadFail) :
    (s.writeReport f).sch = s.sch ∧ (s.writeReport f).pavs = s.pavs ∧ (s.writeReport f).que = s.que := by
  unfold State.writeReport
  dsimp only
  split
  · rw [State.devWrite_frame]
    exact ⟨rfl, rfl, rfl⟩
  · rw [State.freeBytes_frame]
    exact ⟨rfl, rfl, rfl⟩

theorem State.dropLoads_regs (s : State) (svc : Bool) : (s.dropLoads svc).regs = s.regs := rfl

theorem State.logLoad_leaves (s : State) : s.logLoad.sch = s.sch ∧ s.logLoad.pavs = s.pavs ∧ s.logLoad.que = s.que := by
  unfold State.logLoad State.logRefused
  rw [State.logWrite_frame]
  exact ⟨rfl, rfl, rfl⟩

/-- The end of a load (R132, R135, R136). -/
theorem clause_loadEnds : Clause.loadEnds := by
  unfold Clause.loadEnds
  intro s k himg
  refine ⟨fun h hload hheld hopen hcheck hdoom htime => ?_, fun st hst => ?_, fun f hf hdetail => ?_⟩
  · obtain ⟨hframe, harmed, hnotice⟩ := (s.dropLoads false).arm_leaves h
    have hregs : ((s.dropLoads false).arm h).regs = ((s.dropLoads false).showImg 2 .ok 0).regs :=
      (congrArg State.regs hframe :)
    refine ⟨_, State.exec_schLoadEnd_armed himg hload hheld hopen hcheck hdoom htime, ?_, ?_, ?_, ?_, ?_, harmed, fun o ho => ?_, hnotice⟩
    · generalize (s.dropLoads false).arm h = t at *
      rw [hframe]
      rfl
    · rw [State.fld_congr hregs, State.img_showImg]
    · rw [State.fld_congr hregs, State.status_showImg]
      rfl
    · rw [State.flag, State.fld_congr hregs]
      exact State.done_showImg _ _ _ _
    · rw [State.run, State.fld_congr hregs]
      exact State.run_showImg _ _ _ _
    · rw [State.reg_congr hregs]
      exact State.sameRegsBut_showImg _ _ _ _ o ho
  · have hregs : ((s.endHeld st (0x1000 + k.val)).dropLoads false).regs = (s.showImg 0 st (0x1000 + k.val)).regs :=
      (State.dropLoads_regs _ _).trans (s.endHeld_regs _ _)
    refine ⟨_, State.exec_schLoadEnd_readFailed himg hst, ?_, ?_, ?_, ?_, ?_, ?_⟩
    · rw [State.endHeld_frame]
      rfl
    · rw [State.fld_congr hregs, State.img_showImg]
    · rw [State.fld_congr hregs, State.status_showImg]
    · rw [State.fld_congr hregs, State.detail_showImg]
      omega
    · rw [State.flag, State.fld_congr hregs]
      exact State.done_showImg _ _ _ _
    · rw [State.endHeld_frame]
      rfl
  · have hexec := State.exec_schLoadEnd_checkFailed (k := k) himg hf
    have hleaves : ∀ t, t = (if f.st = .refusedResource then s.writeReport f else if f.st = .invalidState then s.logLoad else s) →
        t.sch = s.sch ∧ t.pavs = s.pavs ∧ t.que = s.que := by
      rintro t rfl
      split
      · exact s.writeReport_leaves f
      · split
        · exact s.logLoad_leaves
        · exact ⟨rfl, rfl, rfl⟩
    generalize (if f.st = .refusedResource then s.writeReport f else if f.st = .invalidState then s.logLoad else s) = u at *
    obtain ⟨hsch, hpavs, hque⟩ := hleaves u rfl
    have hregs := u.endHeld_regs f.st f.detail
    refine ⟨_, hexec, ?_, ?_, ?_, ?_, ?_, ?_, ?_⟩
    · rw [State.fld_congr hregs, State.img_showImg]
    · rw [State.fld_congr hregs, State.status_showImg]
    · rw [State.fld_congr hregs, State.detail_showImg, Nat.mod_eq_of_lt hdetail]
    · rw [State.flag, State.fld_congr hregs]
      exact State.done_showImg _ _ _ _
    · rw [State.endHeld_frame, hsch]
    · rw [State.endHeld_frame, hpavs]
    · rw [State.endHeld_frame, hque]

/-- Settles O21: the commands of SCH_CTRL in each state, and the end of a load. -/
theorem schedulesAndLoads : Obligations.SchedulesAndLoads := by
  unfold Obligations.SchedulesAndLoads
  exact ⟨clause_scheduleCommands, clause_loadEnds⟩

end Sys2Proof.Machine
end

section
/-! PROOF. Notices and bulk moves (R136, R141, R143, R170, R495, R498), of the family 05_deterministic_schedule. -/

namespace Sys2Proof.Machine

open Sys2Proof

/-! ### A notice that is accepted (R170) -/

/-- A notice is kept as the latest of its origin and kind. -/
def State.keepNotice (s : State) (kind : Nat) (n : Notice) : State :=
  { s with sch := { s.sch with seenNum := aput (n.origin.val, kind) n.num.toNat s.sch.seenNum } }

/-- A notice is kept, and waits on the ports on which it did not come. -/
def State.accepted (s : State) (kind : Nat) (p : Fin 24) (n : Notice) : State :=
  (s.keepNotice kind n).flood kind n (some p) (s.slot + 2)

section

variable (s : State) (kind : Nat) (p : Fin 24) (n : Notice)

/-- A notice is accepted when it comes on a port that carries notices and is later than the latest kept. -/
theorem State.acceptNotice?_of_later (hv : s.portV3 p.val = true) (hlater : isLater s kind n) :
    s.acceptNotice? kind p n = some (s.accepted kind p n) := by
  rw [State.acceptNotice?, hv]
  cases hseen : alook (n.origin.val, kind) s.sch.seenNum with
  | none => rfl
  | some k => exact if_pos (by simpa using hlater k hseen)

/-- Any other is discarded. -/
theorem State.acceptNotice?_of_not_later (h : ¬ (s.portV3 p.val = true ∧ isLater s kind n)) : s.acceptNotice? kind p n = none := by
  rw [State.acceptNotice?]
  refine if_neg fun hacc => h ?_
  obtain ⟨hv, hlater⟩ := Bool.and_eq_true_iff.mp hacc
  refine ⟨hv, fun k hseen => ?_⟩
  rw [hseen] at hlater
  simpa using hlater

/-- An accepted notice changes what is kept of notices and the control queues of the ports. -/
theorem State.accepted_frame : s.accepted kind p n = { s.keepNotice kind n with
    fab := { s.fab with ports := (s.accepted kind p n).fab.ports } } :=
  (State.flood_leaves kind n (some p) (s.slot + 2) (s.keepNotice kind n)).1

theorem State.accepted_regs : (s.accepted kind p n).regs = s.regs := by
  rw [State.accepted_frame]
  rfl

theorem State.accepted_sch : (s.accepted kind p n).sch = (s.keepNotice kind n).sch := by
  rw [State.accepted_frame]

theorem State.forwarded_accepted : forwarded s (s.accepted kind p n) kind p n := by
  refine ⟨?_, ?_, fun q => ?_⟩
  · rw [State.accepted_sch]
    exact alook_aput_same _ _ _
  · rw [State.accepted_frame]
  · refine ((State.flood_leaves kind n (some p) (s.slot + 2) (s.keepNotice kind n)).2 q).trans ?_
    have hv : (s.keepNotice kind n).portV3 q.val = s.portV3 q.val := State.portV3_congr (State.regs_withSch _ _) _
    rw [State.floodItems, FabPort.queued, hv]
    simp only [List.mem_finRange, true_and, ne_eq, Option.some.injEq, eq_comm]
    rfl

end

/-- What is forwarded shows in what is kept of notices and in the fabric alone. -/
theorem forwarded_congr {s t u : State} {kind : Nat} {p : Fin 24} {n : Notice} (h : forwarded s t kind p n)
    (hseen : u.sch.seenNum = t.sch.seenNum) (hfab : u.fab = t.fab) : forwarded s u kind p n := by
  rw [forwarded, hseen, hfab]
  exact h

section

variable {s : State} {p : Fin 24} {n : Notice}

theorem State.exec_armedNoticeRx (hv : s.portV3 p.val = true) (hlater : isLater s 1 n) : exec (.armedNoticeRx p n) s =
    .next { s.accepted 1 p n with sch := { (s.accepted 1 p n).sch with
      armed := { image := n.image, dev := n.origin.val, stamp := n.stamp.toNat } :: (s.accepted 1 p n).sch.armed } } := by
  change execArmedNoticeRx p n s = _
  rw [execArmedNoticeRx, State.acceptNotice?_of_later s 1 p n hv hlater]

/-- The pace that a notice tells. -/
def paceTold (n : Notice) : PaceN := { dev := n.origin.val, level := n.level.val, stamp := n.stamp.toNat }

/-- A PACE notice is accepted, pulses its event source and is kept. -/
def State.pacePut (s : State) (p : Fin 24) (n : Notice) : State :=
  { (s.accepted 3 p n).pulse 114 with
    sch := { ((s.accepted 3 p n).pulse 114).sch with paces := paceTold n :: ((s.accepted 3 p n).pulse 114).sch.paces } }

theorem State.pacePut_frame (s : State) (p : Fin 24) (n : Notice) : s.pacePut p n = { s with
    regs := (s.pacePut p n).regs
    sch := { (s.keepNotice 3 n).sch with paces := paceTold n :: s.sch.paces }
    fab := (s.accepted 3 p n).fab } := by
  unfold State.pacePut
  rw [State.pulse_frame, State.accepted_frame]
  rfl

theorem State.reg_pacePut (s : State) (p : Fin 24) (n : Notice) {o : Nat} (ho : o < 0x800000) : (s.pacePut p n).reg o = s.reg o := by
  rw [State.pacePut, State.reg_congr (State.regs_withSch _ _), (State.eventLeaves_pulse _ 114).2 o ho,
    State.reg_congr (s.accepted_regs 3 p n)]

theorem State.exec_paceNoticeRx (hv : s.portV3 p.val = true) (hlater : isLater s 3 n) : exec (.paceNoticeRx p n) s =
    .next (if s.sch.opens.any (lateFor s.sch.paces (paceTold n)) = true then (s.pacePut p n).fault 9 else s.pacePut p n) := by
  have hsch : ((s.accepted 3 p n).pulse 114).sch = (s.keepNotice 3 n).sch := by
    rw [State.pulse_frame]
    exact s.accepted_sch 3 p n
  change execPaceNoticeRx p n s = _
  rw [execPaceNoticeRx, State.acceptNotice?_of_later s 3 p n hv hlater]
  change Host.Outcome.next (if ((s.accepted 3 p n).pulse 114).sch.opens.any
      (lateFor ((s.accepted 3 p n).pulse 114).sch.paces (paceTold n)) = true then (s.pacePut p n).fault 9 else s.pacePut p n) = _
  rw [hsch]
  rfl

theorem State.running_congr {s t : State} (h : t.reg rSCH_STATE = s.reg rSCH_STATE) : t.running = s.running := by
  have hrun : t.run = s.run := State.fld_of_sameReg (f := fSCH_STATE_RUN) h
  rw [State.running, State.running, hrun]

theorem State.devNum_congr {s t : State} (h : t.reg fFAB_DEVNUM_DEV.off = s.reg fFAB_DEVNUM_DEV.off) : t.devNum = s.devNum :=
  State.fld_of_sameReg (f := fFAB_DEVNUM_DEV) h

theorem State.replayTime_congr {s t : State} (h : t.sch.tb = s.sch.tb) : t.replayTime = s.replayTime := by
  rw [State.replayTime, State.replayTime, h]

/-- A PACE notice that no boundary has missed. -/
theorem State.lateFor_of_ahead {l : List PaceN} (h : ∀ o ∈ s.sch.opens, o.1 < n.stamp.toNat + 16000) :
    s.sch.opens.any (lateFor l (paceTold n)) = false := by
  rw [List.any_eq_false]
  intro o ho hlate
  have hstamp : n.stamp.toNat + 16000 ≤ o.1 := of_decide_eq_true (Bool.and_eq_true_iff.mp hlate).1
  exact absurd (h o ho) (by omega)

/-- A PACE notice that a boundary has missed faults the epoch (R143). -/
theorem State.paceFault (hrun : s.running = true) (hrec : s.sch.recorded = false) :
    ((s.pacePut p n).fault 9).fld fSCH_FAULT_CAUSE = 9 ∧ ((s.pacePut p n).fault 9).fld fSCH_FAULT_ORIGIN = s.devNum ∧
      ((s.pacePut p n).fault 9).sch.recorded = true ∧ ((s.pacePut p n).fault 9).sch.trs = s.replayTime :: s.sch.trs := by
  have hsch := congrArg State.sch (s.pacePut_frame p n)
  have hrun' : (s.pacePut p n).running = true := (State.running_congr (s.reg_pacePut p n (by decide))).trans hrun
  have hdev : (s.pacePut p n).devNum = s.devNum := State.devNum_congr (s.reg_pacePut p n (by decide))
  generalize s.pacePut p n = t at *
  obtain ⟨-, hrecorded, htrs, hcause, horigin⟩ := State.fault_first hrun' ((congrArg Sch.recorded hsch).trans hrec) 9
  refine ⟨hcause, horigin.trans hdev, hrecorded, htrs.trans ?_⟩
  rw [State.replayTime_congr (congrArg Sch.tb hsch)]
  exact congrArg (s.replayTime :: ·) (congrArg Sch.trs hsch :)

/-- The fault that a notice tells is for the step and the attempt that run. -/
def State.tellsNow (s : State) (n : Notice) : Prop :=
  s.running = true ∧ s.sch.active.map (fun i => i.id) = some n.image ∧ n.step.toNat = s.fld fSCH_STEP_VALUE ∧
    n.attempt.toNat = s.fld fSCH_ATTEMPT_ATTEMPT

theorem State.tellsNow_congr {s t : State} (hregs : t.regs = s.regs) (hsch : t.sch.active = s.sch.active) (n : Notice) :
    t.tellsNow n ↔ s.tellsNow n := by
  rw [State.tellsNow, State.tellsNow, State.running_congr (State.reg_congr hregs _), hsch, State.fld_congr hregs, State.fld_congr hregs]

theorem State.exec_faultNoticeRx_now (hv : s.portV3 p.val = true) (hlater : isLater s 2 n) (hnow : s.tellsNow n)
    (htr : s.sch.tb.toNat < n.tr.toNat) (hrec : s.sch.recorded = false) : exec (.faultNoticeRx p n) s =
    .next (((s.accepted 2 p n).recordFault 10 n.origin.val n.cause.val).holdTr n.tr.toNat) := by
  have hsch := s.accepted_sch 2 p n
  have hnow' := (State.tellsNow_congr (s.accepted_regs 2 p n) (congrArg Sch.active hsch :) n).mpr hnow
  have htb : ¬ n.tr.toNat ≤ (s.accepted 2 p n).sch.tb.toNat := by
    rw [hsch]
    exact not_le_of_gt htr
  have hrec' : (s.accepted 2 p n).sch.recorded = false := (congrArg Sch.recorded hsch).trans hrec
  change execFaultNoticeRx p n s = _
  rw [execFaultNoticeRx, State.acceptNotice?_of_later s 2 p n hv hlater]
  generalize s.accepted 2 p n = t at *
  rw [State.tellsNow] at hnow'
  dsimp only
  rw [if_pos hnow', if_neg htb, hrec']
  rfl

theorem State.exec_faultNoticeRx_else (hv : s.portV3 p.val = true) (hlater : isLater s 2 n) (hnow : ¬ s.tellsNow n) :
    exec (.faultNoticeRx p n) s = .next (s.accepted 2 p n) := by
  have hnow' := (State.tellsNow_congr (s.accepted_regs 2 p n) (congrArg Sch.active (s.accepted_sch 2 p n) :) n).not.mpr hnow
  change execFaultNoticeRx p n s = _
  rw [execFaultNoticeRx, State.acceptNotice?_of_later s 2 p n hv hlater]
  exact if_neg hnow'

end

/-- The device's own level becomes the larger of the two requests; the schedule unit and the ports tell it. -/
theorem State.ownPace_leaves (s : State) :
    s.ownPace = { s with sch := s.ownPace.sch, fab := s.ownPace.fab, regs := s.ownPace.regs } ∧
      s.sameRegsBut s.ownPace [fSCH_PACE_OWN.off] ∧
      (s.fld fSCH_PACE_REQ_LEVEL < 16 → s.sch.pacePwr < 16 →
        s.ownPace.fld fSCH_PACE_OWN = max (s.fld fSCH_PACE_REQ_LEVEL) s.sch.pacePwr) := by
  unfold State.ownPace
  extract_lets v s1 own s2
  split
  case isTrue hsame => exact ⟨rfl, fun _ _ => rfl, fun _ _ => hsame.symm⟩
  case isFalse =>
    have hs1 : s1 = { s with regs := s1.regs } := rfl
    have hreg : s.sameRegsBut s1 [fSCH_PACE_OWN.off] := State.sameRegsBut_setFld s _ _
    have hown : s1.fld fSCH_PACE_OWN = v % 16 := State.fld_setFld_same _ _ _ (by decide)
    have hs2 := s1.floodOwn_frame 3 { own with level := Fin.ofNat 16 v }
    change s2 = { s1 with
      sch := { s1.sch with ownNum := s2.sch.ownNum }
      fab := { s1.fab with ports := s2.fab.ports } } at hs2
    have hregs2 : s2.regs = s1.regs := (congrArg State.regs hs2 :)
    clear_value s2 s1
    refine ⟨?_, fun o ho => (State.reg_congr ((State.regs_withSch _ _).trans hregs2) o).trans (hreg o ho), fun hreq hpwr => ?_⟩
    · rw [hs2, hs1]
    · exact ((State.fld_congr ((State.regs_withSch _ _).trans hregs2) _).trans hown).trans (Nat.mod_eq_of_lt (max_lt hreq hpwr))

/-- A write of SCH_PACE_REQ changes SCH_PACE_REQ and SCH_PACE, and what tells the device's own level. -/
theorem State.paceReqWrite_leaves (s : State) (v : BitVec 32) :
    s.paceReqWrite v = { s with sch := (s.paceReqWrite v).sch, fab := (s.paceReqWrite v).fab, regs := (s.paceReqWrite v).regs } ∧
      (s.paceReqWrite v).fld fSCH_PACE_REQ_LEVEL = v.toNat % 16 ∧
      (s.sch.pacePwr < 16 → (s.paceReqWrite v).fld fSCH_PACE_OWN = max (v.toNat % 16) s.sch.pacePwr) ∧
      s.sameRegsBut (s.paceReqWrite v) [fSCH_PACE_REQ_LEVEL.off, fSCH_PACE_OWN.off] := by
  have hbits : bitsOf v.toNat 0 4 = v.toNat % 16 := by simp [bitsOf]
  have hlt : v.toNat % 16 < 16 := Nat.mod_lt _ (by decide)
  have hframe := State.setFld_frame (s := s) (t := s) rfl fSCH_PACE_REQ_LEVEL (v.toNat % 16)
  have hlevel : (s.setFld fSCH_PACE_REQ_LEVEL (v.toNat % 16)).fld fSCH_PACE_REQ_LEVEL = v.toNat % 16 :=
    (State.fld_setFld_same _ _ _ (by decide)).trans (Nat.mod_mod _ _)
  have hreg := State.sameRegsBut_setFld s fSCH_PACE_REQ_LEVEL (v.toNat % 16)
  have hpwr : (s.setFld fSCH_PACE_REQ_LEVEL (v.toNat % 16)).sch.pacePwr = s.sch.pacePwr := rfl
  rw [State.paceReqWrite, hbits]
  generalize s.setFld fSCH_PACE_REQ_LEVEL (v.toNat % 16) = t at *
  obtain ⟨hown, hregOwn, hmax⟩ := t.ownPace_leaves
  rw [hlevel, hpwr] at hmax
  generalize t.ownPace = u at *
  refine ⟨?_, ?_, hmax hlt, fun o ho => ?_⟩
  · rw [hown, hframe]
  · exact (State.fld_of_sameReg (f := fSCH_PACE_REQ_LEVEL) (hregOwn _ (by decide))).trans hlevel
  · obtain ⟨hreq, ho⟩ := not_or.mp (mt List.mem_cons.mpr ho)
    exact (hregOwn o ho).trans (hreg o (mt List.mem_singleton.mp hreq))

/-- Notices (R136, R141, R143, R170, R498). -/
theorem clause_notices : Clause.notices := by
  unfold Clause.notices
  intro s p n v
  refine ⟨fun c hc hnot => ?_, fun hv => ⟨fun hlater => ?_, fun hlater hahead => ?_, fun hlater hrun hrec hlate => ?_,
    fun hlater i hi hrun himg hstep hatt htr hrec => ?_, fun hlater hother => ?_⟩, _, rfl, s.paceReqWrite_leaves v⟩
  · simp only [List.mem_cons, List.not_mem_nil, or_false] at hc
    obtain rfl | rfl | rfl := hc
    · change execArmedNoticeRx p n s = _
      rw [execArmedNoticeRx, State.acceptNotice?_of_not_later s 1 p n hnot]
    · change execFaultNoticeRx p n s = _
      rw [execFaultNoticeRx, State.acceptNotice?_of_not_later s 2 p n hnot]
    · change execPaceNoticeRx p n s = _
      rw [execPaceNoticeRx, State.acceptNotice?_of_not_later s 3 p n hnot]
  · refine ⟨_, State.exec_armedNoticeRx hv hlater, ?_, ?_, forwarded_congr (s.forwarded_accepted 1 p n) rfl rfl⟩
    · rw [State.accepted_frame]
      rfl
    · rw [State.accepted_sch]
      rfl
  · have hframe := s.pacePut_frame p n
    have hexec := State.exec_paceNoticeRx hv hlater
    rw [State.lateFor_of_ahead hahead, if_neg Bool.false_ne_true] at hexec
    have hforw := s.forwarded_accepted 3 p n
    refine ⟨_, hexec, ?_, congrArg (fun t : State => t.sch.paces) hframe, forwarded_congr hforw ?_ (congrArg State.fab hframe :)⟩
    · generalize s.pacePut p n = t at *
      rw [hframe]
    · rw [congrArg State.sch hframe, State.accepted_sch]
  · obtain ⟨o, ho, hstamp, hdiff⟩ := hlate
    have hany : s.sch.opens.any (lateFor s.sch.paces (paceTold n)) = true :=
      List.any_eq_true.mpr ⟨o, ho, Bool.and_eq_true_iff.mpr ⟨decide_eq_true hstamp, decide_eq_true hdiff⟩⟩
    have hexec := State.exec_paceNoticeRx hv hlater
    rw [if_pos hany] at hexec
    exact ⟨_, hexec, State.paceFault hrun hrec⟩
  · have hnow : s.tellsNow n := ⟨hrun, by rw [hi, himg]; rfl, hstep, hatt⟩
    have hforw := s.forwarded_accepted 2 p n
    obtain ⟨-, hsch, hfab⟩ := (s.accepted 2 p n).faultLeaves_recordFault 10 n.origin.val n.cause.val
    have hcause := (s.accepted 2 p n).cause_recordFault 10 n.origin.val n.cause.val
    have horigin := (s.accepted 2 p n).origin_recordFault 10 n.origin.val n.cause.val
    rw [Nat.mod_eq_of_lt n.origin.isLt] at horigin
    rw [State.accepted_sch] at hsch
    refine ⟨_, State.exec_faultNoticeRx_now hv hlater hnow htr hrec, ?_, ?_, ?_, ?_, ?_, ?_⟩
    · exact congrArg (n.tr.toNat :: ·) (congrArg Sch.trs hsch :)
    · exact (State.fld_congr (State.regs_withSch _ _) _).trans hcause
    · exact (State.fld_congr (State.regs_withSch _ _) _).trans horigin
    · exact congrArg Sch.recorded hsch
    · exact (congrArg Sch.ownSent hsch :)
    · refine forwarded_congr hforw ?_ hfab
      rw [State.accepted_sch]
      exact (congrArg Sch.seenNum hsch :)
  · have hnow : ¬ s.tellsNow n := by
      rintro ⟨hrun, himg, hstep, hatt⟩
      obtain h | h | h | h := hother
      · exact absurd (hrun.symm.trans h) (by decide)
      · exact h himg
      · exact h hstep
      · exact h hatt
    refine ⟨_, State.exec_faultNoticeRx_else hv hlater hnow, ?_, ?_, s.forwarded_accepted 2 p n⟩
    · rw [State.accepted_frame]
      rfl
    · rw [State.accepted_sch]
      rfl

end Sys2Proof.Machine
end

section
/-! PROOF. Bulk moves (R495), of the family 05_deterministic_schedule. -/

namespace Sys2Proof.Machine

open Sys2Proof

/-! ### What was written stays written -/

/-- Memory, scratch and the map that places scratch are as they were. -/
def State.sameMemory (t u : State) : Prop :=
  u.mem = t.mem ∧ u.scratch = t.scratch ∧ u.log = t.log ∧ ∀ l, l < 128 → u.phys? l = t.phys? l

theorem State.sameMemory.byte {t u : State} (h : t.sameMemory u) (a : Nat) : u.byte a = t.byte a := by
  obtain ⟨hmem, hscratch, hlog, hphys⟩ := h
  unfold State.byte
  rw [hmem, hscratch, hlog]
  refine if_ctx_congr Iff.rfl (fun hin => ?_) fun _ => rfl
  rw [hphys _ (by omega)]

/-- A write is still there where memory is as it was. -/
theorem State.sameMemory.wrote {s t u : State} {a : Nat} {d : List Byte} (h : t.sameMemory u) (hw : s.wrote t a d) : s.wrote u a d := by
  obtain ⟨hread, hmem, hscratch⟩ := hw
  refine ⟨?_, fun c hc => ?_, fun q k hk hother => ?_⟩
  · rw [State.bytes_eq_map] at hread ⊢
    simpa only [h.byte] using hread
  · rw [h.1]
    exact hmem c hc
  · refine Eq.trans ?_ (hscratch q k hk hother)
    rw [State.sbyte, State.sbyte, h.2.1]

theorem State.writable.mono {s : State} {a n m : Nat} (h : s.writable a n) (hm : m ≤ n) : s.writable a m := by
  intro c hc hc'
  refine (h c hc (by omega)).imp id fun ⟨q, k, hqk, hother⟩ => ⟨q, k, hqk, fun d hd hd' => hother d hd (by omega)⟩

/-- An access within a region is one to the region of each shorter access from its start. -/
theorem State.region?_mono {s : State} {a n m : Nat} {r : Region} (h : s.region? a n = some r) (hm : m ≤ n) : s.region? a m = some r := by
  obtain ⟨b, k, hat, hin⟩ := State.regionAt_of_region? h
  rw [State.region?, hat]
  exact if_pos (by omega)

/-! ### The write of a move -/

theorem State.takeBytes_leaves (n : Nat) : ∀ s : State, (s.takeBytes n).1.length = n ∧
    (s.takeBytes n).2 = { s with freeCtr := (s.takeBytes n).2.freeCtr } := by
  induction n with
  | zero => exact fun _ => ⟨rfl, rfl⟩
  | succ n ih =>
    intro s
    obtain ⟨hlen, hframe⟩ := ih (s.takeFree 8).2
    unfold State.takeBytes
    refine ⟨congrArg (· + 1) hlen, ?_⟩
    dsimp only
    rw [hframe]
    rfl

/-- A move is one write of its lines, after free bytes may have been taken. -/
theorem State.moveLines_eq_devWrite (s : State) (src dst n : Nat) (o : HeldFor) : ∃ (c : Nat) (b : List Byte), b.length = 64 * n ∧
    s.moveLines src dst n o = ({ s with freeCtr := c } : State).devWrite dst b true o := by
  unfold State.moveLines
  split
  case isTrue h =>
    obtain ⟨hlen, hframe⟩ := s.takeBytes_leaves (64 * n - (dst - src))
    refine ⟨(s.takeBytes (64 * n - (dst - src))).2.freeCtr,
      s.bytesHeld src (dst - src) ++ (s.takeBytes (64 * n - (dst - src))).1, ?_, ?_⟩
    · rw [List.length_append, State.length_bytesHeld, hlen]
      omega
    · rw [← hframe]
  case isFalse => exact ⟨s.freeCtr, s.bytesHeld src (64 * n), State.length_bytesHeld _ _ _, rfl⟩

/-- A move whose write is held leaves memory, the pavilions and the schedule as they were, and is waited for. -/
theorem State.moveLines_of_held {s : State} {src dst n i : Nat} (h : s.writeHeld dst (64 * n) (.move i) = true) :
    (s.moveLines src dst n (.move i)).holds (.move i) = true ∧ (s.moveLines src dst n (.move i)).sch = s.sch ∧
      (s.moveLines src dst n (.move i)).mem = s.mem ∧ (s.moveLines src dst n (.move i)).scratch = s.scratch ∧
      (s.moveLines src dst n (.move i)).pavs = s.pavs := by
  obtain ⟨c, b, hlen, hmove⟩ := s.moveLines_eq_devWrite src dst n (.move i)
  rw [← hlen] at h
  obtain ⟨hframe, hheld⟩ := State.devWrite_of_held (s := { s with freeCtr := c }) (sown := true) h
  rw [hmove]
  generalize ({ s with freeCtr := c } : State).devWrite dst b true (.move i) = t at *
  refine ⟨?_, (congrArg State.sch hframe :), (congrArg State.mem hframe :), (congrArg State.scratch hframe :),
    (congrArg State.pavs hframe :)⟩
  rw [State.holds, hheld]
  simp [State.setCkp]

/-! ### The end of a move -/

theorem bitsOf_lt (v lo w : Nat) : bitsOf v lo w < 2 ^ w := Nat.mod_lt _ (by positivity)

section

variable (s : State) (sig : BitVec 16)

/-- The signal of a move changes the pavilions and at most PAV_ERR. -/
theorem State.signalTarget_leaves : s.signalTarget sig = { s with
      pavs := (s.signalTarget sig).pavs, regs := (s.signalTarget sig).regs } ∧ s.sameMemory (s.signalTarget sig) := by
  unfold State.signalTarget
  cases hp : s.phys? (bitsOf sig.toNat 6 7) with
  | none =>
    rw [State.semAdd, hp]
    exact ⟨rfl, rfl, rfl, rfl, fun _ _ => rfl⟩
  | some q =>
    have hframe := State.semAdd_frame hp (Fin.ofNat 64 sig.toNat) 1
    have hregs : s.sameRegsBut (s.semAdd (bitsOf sig.toNat 6 7) (Fin.ofNat 64 sig.toNat) 1) [fPAV_ERR_SEM_SAT.off] :=
      State.sameRegsBut_semAdd (l := ⟨bitsOf sig.toNat 6 7, bitsOf_lt _ 6 7⟩) hp _ _
    generalize s.semAdd (bitsOf sig.toNat 6 7) (Fin.ofNat 64 sig.toNat) 1 = t at *
    refine ⟨hframe, ?_, ?_, ?_, fun l hl => State.phys?_congr (hregs _ ?_)⟩
    · rw [hframe]
    · rw [hframe]
    · rw [hframe]
    · rw [List.mem_singleton]
      change 0x101000 + 4 * l ≠ 0x100038
      omega

/-- It adds 1 to the semaphore that it names. -/
theorem State.toNat_sems_signalTarget {q : Fin 144} (hq : s.phys? (bitsOf sig.toNat 6 7) = some q) (j : Fin 64) :
    ((((s.signalTarget sig).pav q).sems[j]).toNat : Int) =
      if j.val = sig.toNat % 64 then min 0xFFFFFFFF ((s.pav q).sems[j].toNat + 1) else (s.pav q).sems[j].toNat := by
  have hj : j.val = sig.toNat % 64 ↔ j = Fin.ofNat 64 sig.toNat := by rw [Fin.ext_iff, Fin.val_ofNat]
  rw [State.signalTarget, State.pav_semAdd hq, if_pos rfl]
  by_cases h : j = Fin.ofNat 64 sig.toNat
  · rw [if_pos (hj.mpr h), h, Pav.setSem_sems_same, toNat_semSum]
    have hone : (1 : BitVec 16).toInt = 1 := by decide
    rw [hone]
    omega
  · rw [if_neg (hj.not.mpr h), Pav.setSem_sems_other _ _ h]

end

theorem State.metNow_of_epoch {s : State} {e : OpenEpoch} (h : s.sch.epoch = some e) :
    s.metNow = { s with sch := { s.sch with epoch := some { e with metAt := s.sch.tb.toNat } } } := by
  rw [State.metNow, h]

/-- Move `i` is done and its channel is free. -/
def State.moveEnded (s : State) (i : Nat) : State :=
  { s.setMove i .done with sch := { (s.setMove i .done).sch with chans := s.sch.chans.filter (fun k => decide (k ≠ i)) } }

/-- A move that ends is done, its channel is free, and its signal is sent. -/
theorem State.endMove_leaves {s : State} {e : OpenEpoch} (he : s.sch.epoch = some e) (i : Nat) (m : Mv) :
    s.endMove i m = { s with sch := (s.endMove i m).sch, pavs := (s.endMove i m).pavs, regs := (s.endMove i m).regs } ∧
      s.sameMemory (s.endMove i m) ∧ (s.endMove i m).sch.chans = s.sch.chans.filter (fun k => decide (k ≠ i)) ∧
      (∃ o, (s.endMove i m).sch.epoch = some o ∧ o.moves = e.moves.set i .done ∧ o.record = e.record ∧ o.opened = e.opened) ∧
      ∀ q, s.phys? (bitsOf m.sig.toNat 6 7) = some q → ∀ j : Fin 64, ((((s.endMove i m).pav q).sems[j]).toNat : Int) =
        if j.val = m.sig.toNat % 64 then min 0xFFFFFFFF ((s.pav q).sems[j].toNat + 1) else (s.pav q).sems[j].toNat := by
  have hend : s.endMove i m = ((s.moveEnded i).signalTarget m.sig).metNow := rfl
  have hended : s.moveEnded i = { s with sch := (s.moveEnded i).sch } := rfl
  have hepoch : (s.moveEnded i).sch.epoch = some { e with moves := e.moves.set i .done } := by
    change s.sch.epoch.map _ = _
    rw [he]
    rfl
  have hchans : (s.moveEnded i).sch.chans = s.sch.chans.filter (fun k => decide (k ≠ i)) := rfl
  have hphys : ∀ l, (s.moveEnded i).phys? l = s.phys? l := fun l => State.phys?_congr (State.reg_congr (State.regs_withSch _ _) _)
  have hpav : ∀ q, (s.moveEnded i).pav q = s.pav q := fun q => rfl
  obtain ⟨hsignal, hmem, hscratch, hlog, hmap⟩ := (s.moveEnded i).signalTarget_leaves m.sig
  have hadd := fun q (hq : (s.moveEnded i).phys? (bitsOf m.sig.toNat 6 7) = some q) => (s.moveEnded i).toNat_sems_signalTarget m.sig hq
  simp only [hphys, hpav] at hmap hadd
  rw [hend]
  generalize (s.moveEnded i).signalTarget m.sig = u at *
  generalize s.moveEnded i = t at *
  have hsch : u.sch = t.sch := (congrArg State.sch hsignal :)
  rw [State.metNow_of_epoch ((congrArg Sch.epoch hsch).trans hepoch)]
  refine ⟨?_, ⟨?_, ?_, ?_, fun l hl => ?_⟩, (congrArg Sch.chans hsch).trans hchans, ⟨_, rfl, rfl, rfl, rfl⟩, hadd⟩
  · rw [hsignal, hended]
  · exact hmem.trans (congrArg State.mem hended :)
  · exact hscratch.trans (congrArg State.scratch hended :)
  · exact hlog.trans (congrArg State.log hended :)
  · exact (State.phys?_congr (State.reg_congr (State.regs_withSch _ _) _)).trans (hmap l hl)

/-! ### The commands -/

section

variable {s : State} {e : OpenEpoch} {i : Nat} {m : Mv}

/-- A waiting move whose START has come takes a free channel when none of a lower index is due. -/
theorem State.exec_moveStart (he : s.sch.epoch = some e) (hrun : s.running = true) (hm : e.blk.moves[i]? = some m)
    (hwait : e.moves[i]? = some .waiting) (hopen : e.closed = false) (hfree : s.sch.chans.length < 16)
    (hstart : e.opened + 8 * m.start ≤ s.sch.tb.toNat)
    (hfirst : ∀ k x, k < i → e.blk.moves[k]? = some x → e.moves[k]? = some .waiting → s.sch.tb.toNat < e.opened + 8 * x.start) :
    exec (.moveStart i) s = .next (({ s with sch := { s.sch with chans := s.sch.chans ++ [i] } } : State).setMove i .running) := by
  change execMoveStart i s = _
  rw [execMoveStart, he]
  simp only [hm, State.atTb_of_reached hstart]
  refine if_neg ?_
  rintro (h | h | h | h | h)
  · exact absurd (hrun.symm.trans h) (by decide)
  · exact absurd (hopen.symm.trans h) (by decide)
  · omega
  · rw [hwait] at h
    exact absurd h (by simpa using hstart)
  · obtain ⟨k, hk, hdue⟩ := List.any_eq_true.mp h
    obtain ⟨hcome, hk_wait⟩ := Bool.and_eq_true_iff.mp hdue
    cases hx : e.blk.moves[k]? with
    | none =>
      rw [hx] at hcome
      exact absurd hcome Bool.false_ne_true
    | some x =>
      rw [hx] at hcome
      exact absurd (of_decide_eq_true hcome) (not_le_of_gt (hfirst k x (List.mem_range.mp hk) hx (of_decide_eq_true hk_wait)))

/-- The end of the accesses of a running move. -/
theorem State.exec_moveComplete (he : s.sch.epoch = some e) (hrun : s.running = true) (hm : e.blk.moves[i]? = some m)
    (hmove : e.moves[i]? = some .running) (st : Status) : exec (.moveComplete i st) s =
      if s.moveSt m st ≠ .ok then .next (s.fault 5)
      else .next (if (s.moveLines m.src m.dst (m.len / 64) (.move i)).holds (.move i) then
          (s.moveLines m.src m.dst (m.len / 64) (.move i)).setMove i .copied
        else (s.moveLines m.src m.dst (m.len / 64) (.move i)).endMove i m) := by
  have hstops : ¬ s.running = false := by simp [hrun]
  change execMoveComplete i st s = _
  rw [execMoveComplete, he]
  dsimp only
  rw [hm, hmove]
  exact if_neg hstops

theorem State.accessSt_dst_of_moveSt (h : s.moveSt m .ok = .ok) : s.accessSt m.dst m.len = .ok := by
  rw [State.moveSt] at h
  split at h
  case h_1 =>
    split at h
    case h_1 hdst => exact hdst
    case h_2 => exact h
  case h_2 hsrc => exact absurd h hsrc

/-- The lines of a move whose accesses succeed outside the log can be written. -/
theorem State.writable_of_moveSt (hst : s.moveSt m .ok = .ok) {r : Region}
    (hr : s.region? m.dst (64 * (m.len / 64)) = some r) (hlog : r ≠ .log) : s.writable m.dst (64 * (m.len / 64)) := by
  have hacc := State.accessSt_dst_of_moveSt hst
  have hlines : 64 * (m.len / 64) ≤ m.len := Nat.mul_div_le m.len 64
  obtain ⟨r', hr'⟩ := State.region?_of_accessSt hacc
  obtain rfl : r' = r := Option.some.inj ((State.region?_mono hr' hlines).symm.trans hr)
  refine (State.writable_of_accessSt hacc ?_).mono hlines
  rw [hr']
  exact fun h => hlog (Option.some.inj h)

end

/-- Bulk moves (R128, R140, R495). -/
theorem clause_bulkMoves : Clause.bulkMoves := by
  unfold Clause.bulkMoves
  intro s e i m he hrun hm
  refine ⟨fun hwait hopen hfree hstart hfirst => ?_, fun hmove hst hheld => ?_, fun hmove hst hholds r hr hlog hfree hapart => ?_,
    fun st hmove hst hrec => ?_⟩
  · refine ⟨_, State.exec_moveStart he hrun hm hwait hopen hfree hstart hfirst, rfl, ?_⟩
    rw [State.setMove]
    dsimp only
    rw [he]
    rfl
  · obtain ⟨hholds, hsch, hmem, hscratch, hpavs⟩ := State.moveLines_of_held (src := m.src) hheld
    have hexec := State.exec_moveComplete he hrun hm hmove .ok
    rw [if_neg (not_not_intro hst), if_pos hholds] at hexec
    generalize s.moveLines m.src m.dst (m.len / 64) (.move i) = t at *
    refine ⟨_, hexec, ⟨{ e with moves := e.moves.set i .copied }, ?_, rfl⟩, (congrArg Sch.chans hsch :), hmem, hscratch, hpavs⟩
    rw [State.setMove]
    dsimp only
    rw [hsch, he]
    rfl
  · have hlen := s.length_bytesHeld m.src (64 * (m.len / 64))
    have hlines : s.moveLines m.src m.dst (m.len / 64) (.move i) =
        s.land m.dst (s.bytesHeld m.src (64 * (m.len / 64))) (.move i) := by
      rw [State.moveLines, if_neg hapart]
      exact State.devWrite_of_not_held (hlen.symm ▸ hfree)
    have hland := s.land_frame m.dst (s.bytesHeld m.src (64 * (m.len / 64))) (.move i)
    have hwrote : s.wrote (s.land m.dst (s.bytesHeld m.src (64 * (m.len / 64))) (.move i)) m.dst
        (s.bytesHeld m.src (64 * (m.len / 64))) := by
      refine State.wrote_of_frame (State.wrote_setBytes (hlen.symm ▸ State.writable_of_moveSt hst hr hlog)) ?_
      rw [State.land, State.sendWr_frame]
    have hexec := State.exec_moveComplete he hrun hm hmove .ok
    rw [if_neg (not_not_intro hst), hlines] at hexec
    generalize s.land m.dst (s.bytesHeld m.src (64 * (m.len / 64))) (.move i) = t at *
    have hholds' : ¬ t.holds (.move i) = true := by
      rw [hland]
      exact Bool.eq_false_iff.mp hholds
    have hpav : ∀ q, t.pav q = s.pav q := fun q => by
      rw [hland]
      rfl
    have hphys : ∀ l, t.phys? l = s.phys? l := fun l => State.phys?_congr (State.reg_congr (congrArg State.regs hland :) _)
    have hsch : t.sch = s.sch := (congrArg State.sch hland :)
    rw [if_neg hholds'] at hexec
    obtain ⟨hframe, hmemory, hchans, hdone, hadd⟩ := State.endMove_leaves ((congrArg Sch.epoch hsch).trans he) i m
    simp only [hphys, hpav] at hadd
    refine ⟨_, hexec, ?_, hmemory.wrote hwrote, ?_, hdone, hadd⟩
    · generalize t.endMove i m = u at *
      rw [hframe, hland]
    · rw [hchans, hsch]
  · have hexec := State.exec_moveComplete he hrun hm hmove st
    rw [if_pos hst] at hexec
    obtain ⟨⟨-, hsch, -⟩, -, htrs, hcause, -⟩ := State.fault_first hrun hrec 5
    exact ⟨_, hexec, hcause, (congrArg Sch.epoch hsch :), (congrArg Sch.chans hsch :), htrs⟩

/-- Settles O24, notices from the rule for an accepted notice and the first fault of an attempt, moves from the rules for the write
of their lines and for their end. -/
theorem noticesAndMoves : Obligations.NoticesAndMoves := by
  unfold Obligations.NoticesAndMoves
  exact ⟨clause_notices, clause_bulkMoves⟩

end Sys2Proof.Machine
end

section
/-! PROOF. A boundary at which a bound pavilion is found through a register that the boundary's own event pulse writes (R138, R434),
of the family 05_deterministic_schedule. -/

namespace Sys2Proof.Machine

open Sys2Proof

/-! ### A boundary that something late faults -/

theorem State.keepsEpoch.pulse {s t : State} (h : s.keepsEpoch t) (n : Nat) : s.keepsEpoch (t.pulse n) := by
  obtain ⟨hframe, hregs⟩ := t.eventLeaves_pulse n
  have hsch : (t.pulse n).sch = t.sch := (congrArg State.sch hframe :)
  exact h.trans ⟨congrArg Sch.active hsch, congrArg Sch.held hsch, congrArg Sch.load hsch, congrArg Sch.epoch hsch,
    fun o _ hhi _ _ => hregs o (by omega)⟩

theorem State.keepsEpoch.dropLate {s t : State} (h : s.keepsEpoch t) (p : Fin 24) : s.keepsEpoch (t.dropLate p) := by
  have hport : s.keepsEpoch (t.setPort p { t.fab.ports[p] with late := [] }) := h.trans ⟨rfl, rfl, rfl, rfl, fun _ _ _ _ _ => rfl⟩
  exact hport.setFld (.inr (show 0x300000 ≤ 0x301020 + 64 * p.val by omega)) _

/-- The epoch is closed. -/
def State.closeEpoch (s : State) : State :=
  { s with sch := { s.sch with epoch := s.sch.epoch.map (fun x => { x with closed := true }) } }

/-- What the boundary looks at: the event source of the boundary has been pulsed, and a firmware activation may have fallen due. -/
def State.atBoundary (s : State) : State := (s.pulse 112).fwBoundary

theorem State.keepsEpoch_atBoundary (s : State) : s.keepsEpoch s.atBoundary := by
  have hpulse : s.keepsEpoch (s.pulse 112) := (State.keepsEpoch.refl s).pulse 112
  unfold State.atBoundary State.fwBoundary
  exact .ite (hpulse.trans ⟨rfl, rfl, rfl, rfl, fun _ _ _ _ _ => rfl⟩) hpulse

theorem State.doomLate_of_no_image {s : State} (h : s.sch.held = none) : s.doomLate = s := by
  have hheld : s.sch.held.map (fun x => if !x.armed && s.dueHere x then { x with doomed := true } else x) = s.sch.held := by
    rw [h]
    rfl
  rw [State.doomLate, hheld]

section

variable {s : State} {i : Image} {e : OpenEpoch}

/-- With something late at the end of the last record, each cause faults the epoch, which closes, and late forwards are dropped. -/
theorem State.epochBoundary_of_late (hi : s.sch.active = some i) (he : s.sch.epoch = some e) (hrun : s.running = true)
    (hopen : e.closed = false) (htrs : s.sch.trs = []) (hheld : s.sch.held = none) (htb : s.sch.tb.toNat = e.opened + 8 * e.lenPaced)
    (hlast : i.next? e.record = none) (hlate : s.atBoundary.closingFaults e none ≠ []) :
    s.epochBoundary = (List.finRange 24).foldl (fun u p => u.dropLate p)
      ((s.atBoundary.closingFaults e none).foldl (fun t c => t.fault c) s.atBoundary).closeEpoch := by
  have hgoes : ¬ (s.running = false ∨ e.closed ∨ s.sch.trs.any (fun t => decide (t ≤ e.opened + 8 * e.lenPaced))) := by
    simp [hrun, hopen, htrs]
  have hheld' : s.atBoundary.sch.held = none := s.keepsEpoch_atBoundary.2.1.trans hheld
  have hstart : ((s.atTb (e.opened + 8 * e.lenPaced)).pulse 112).fwBoundary.doomLate = s.atBoundary := by
    rw [State.atTb_of_reached htb.ge]
    exact State.doomLate_of_no_image hheld'
  unfold State.epochBoundary
  simp only [hi, he, if_neg hgoes, hstart, hheld', hlast, Option.isNone_none, Bool.true_or, if_true]
  exact if_pos (.inl hlate)

/-- A boundary at which something is late leaves RUN. -/
theorem State.run_epochBoundary_of_late (hi : s.sch.active = some i) (he : s.sch.epoch = some e) (hrun : s.running = true)
    (hopen : e.closed = false) (htrs : s.sch.trs = []) (hheld : s.sch.held = none) (htb : s.sch.tb.toNat = e.opened + 8 * e.lenPaced)
    (hlast : i.next? e.record = none) (hlate : s.atBoundary.closingFaults e none ≠ []) : s.epochBoundary.run = s.run := by
  rw [State.epochBoundary_of_late hi he hrun hopen htrs hheld htb hlast hlate]
  have hfaults := s.keepsEpoch_atBoundary.trans
    (State.keepsEpoch.foldl (fun t c => (State.keepsEpoch.refl t).fault c) (s.atBoundary.closingFaults e none) s.atBoundary)
  generalize (s.atBoundary.closingFaults e none).foldl (fun t c => t.fault c) s.atBoundary = u at *
  have hdrop := State.keepsEpoch.foldl (fun t p => (State.keepsEpoch.refl t).dropLate p) (List.finRange 24) u.closeEpoch
  have hclose : u.closeEpoch.run = u.run := State.fld_congr (State.regs_withSch _ _) _
  exact ((hdrop.fld (f := fSCH_STATE_RUN) (by decide) (by decide) (by decide) (by decide)).trans hclose).trans
    (hfaults.fld (f := fSCH_STATE_RUN) (by decide) (by decide) (by decide) (by decide))

/-- The causes for which an epoch is late do not depend on a firmware activation that falls due. -/
theorem State.closingFaults_atBoundary (e : OpenEpoch) (o : Option EpochBlock) :
    s.atBoundary.closingFaults e o = (s.pulse 112).closingFaults e o := by
  unfold State.atBoundary State.fwBoundary
  dsimp only
  split <;> rfl

end

/-- What a boundary adds to the voltage changes no register. -/
theorem State.run_holdBoost (t s : State) : (t.holdBoost s).run = t.run := by
  unfold State.holdBoost
  split
  · split <;> rfl
  · rfl

/-! ### The refuting state -/

/-- A block that binds the logical pavilion 0x3000B0: the place of its entry in the map of pavilions is that of the register
LDG_EV_SRC[0][112]. -/
def strayBlock : EpochBlock := { EpochBlock.empty with binds := [⟨0x3000B0, 0, 0, 0⟩] }

/-- An image of one record of 1,000 slots, which is a step, without a successor. -/
def strayImage : Image :=
  { id := 7, recs := [⟨1000, true, true, 0, 0⟩], loop := 5, devs := [0], vrankLog2 := 1, progs := [], blocks := [some strayBlock] }

/-- The epoch of that record, opened at 0. -/
def strayEpoch : OpenEpoch :=
  { record := 0, opened := 0, lenPaced := 1000, glean := 0, blk := strayBlock, moves := [], sent := [], metAt := 0, closed := false }

/-- The schedule runs and is at its end. The map's entry of the bound pavilion names physical pavilion 8, which waits at the end of
its epoch. -/
def strayState : State :=
  { (((State.reset.setSeq 8 { Seq.reset with mode := .waitE }).setFld fSCH_STATE_RUN 1).setFld (fPAV_MAP_VALID 0x3000B0) 1).setFld
      (fPAV_MAP_PHYS 0x3000B0) 8 with
    sch := { State.reset.sch with active := some strayImage, epoch := some strayEpoch, filled := true, tb := 8000 } }

theorem bound_strayEpoch : strayEpoch.blk.bound = [0x3000B0] := by
  simp [strayEpoch, strayBlock, EpochBlock.bound, EpochBlock.empty, bitOf]

/-- Nothing is late in it, -/
theorem closingFaults_strayState : strayState.closingFaults strayEpoch none = [] := by
  rw [State.closingFaults, bound_strayEpoch]
  decide

/-- but the pulse of event source 112 makes the entry name physical pavilion 0, which is held. -/
theorem closingFaults_pulse_strayState : (strayState.pulse 112).closingFaults strayEpoch none = [1] := by
  rw [State.closingFaults, bound_strayEpoch]
  decide

theorem strayState_at_end : strayState.running = true ∧ strayState.run = 1 ∧
    strayState.sch.tb.toNat = strayEpoch.opened + 8 * strayEpoch.lenPaced ∧ strayImage.next? strayEpoch.record = none := by decide

/-- The schedule does not end there. -/
theorem not_scheduleEnds : ¬ Clause.scheduleEnds := by
  unfold Clause.scheduleEnds
  intro h
  obtain ⟨hrunning, hrun, htb, hlast⟩ := strayState_at_end
  have hlate : strayState.atBoundary.closingFaults strayEpoch none ≠ [] := by
    rw [State.closingFaults_atBoundary, closingFaults_pulse_strayState]
    exact List.cons_ne_nil 1 []
  have hstays : strayState.epochBoundary.run = strayState.run :=
    State.run_epochBoundary_of_late (i := strayImage) rfl rfl hrunning rfl rfl rfl htb hlast hlate
  obtain ⟨t, hexec, hidle, -⟩ := h strayState strayImage strayEpoch rfl rfl rfl rfl rfl htb closingFaults_strayState
    (.inl ⟨hrunning, hlast⟩)
  have ht : strayState.epochBoundary.holdBoost strayState = t := Host.Outcome.next.inj hexec
  rw [← ht, State.run_holdBoost, hstays, hrun] at hidle
  exact absurd hidle (by decide)

/-- Refutes O23: the statement ranges over every block, also over one that binds a logical pavilion beyond the 128 that there are.
The boundary pulses event source 112 before it looks for what is late, and the register LDG_EV_SRC[0][112] stands where the map of
pavilions would have its entry 0x3000B0. So the schedule of `strayState`, at whose end nothing is late, faults there and RUN stays
RUNNING. -/
theorem not_epochsAndReplays : ¬ Obligations.EpochsAndReplays := by
  unfold Obligations.EpochsAndReplays
  exact fun ⟨_, hends, _⟩ => not_scheduleEnds hends

end Sys2Proof.Machine
end

section
/-! PROOF. A port that begins its training pulses its event source (R172, R434), of the family 06_fabric_links. -/
namespace Sys2Proof.Machine
open Sys2Proof

/-- The machine after reset, but event source 32, that of fabric port 0, is pending from a rising edge on. -/
def edgeState : State := State.reset.setFld (fLDG_EV_SRC_SENSE 0 32) 1

theorem edgeState_disabled : edgeState.gated (edgeState.skuField 8 4) 0 = false ∧ edgeState.portState 0 = 0 := by decide

theorem pending_edgeState : edgeState.fld (fLDG_EV_SRC_PENDING 0 32) = 0 := by decide

theorem pending_portCtrlWrite_edgeState : (edgeState.portCtrlWrite 0 1).fld (fLDG_EV_SRC_PENDING 0 32) = 1 := by decide

/-- Refutes O25: no register is to change but those of the port, yet a port that begins its training pulses its event source (R434),
and the input of `edgeState` keeps the rising edge of that pulse in PENDING. -/
theorem not_portTraining : ¬ Obligations.PortTraining := by
  unfold Obligations.PortTraining
  intro h
  obtain ⟨hgated, hstate⟩ := edgeState_disabled
  obtain ⟨t, hexec, -, -, -, hup, -⟩ := (h edgeState 0 1 ⟨true, 0, 0, 0, 0, 0⟩ 0 true).1 hgated (.fabPortEnable 0 1) (by simp)
  have ht : edgeState.portCtrlWrite 0 1 = t := Host.Outcome.next.inj hexec
  obtain ⟨⟨-, -, -, hregs⟩, -⟩ := hup (by decide) (.inl hstate)
  have hpending : t.fld (fLDG_EV_SRC_PENDING 0 32) = edgeState.fld (fLDG_EV_SRC_PENDING 0 32) :=
    State.fld_of_sameReg (hregs _ (by decide))
  rw [← ht, pending_edgeState, pending_portCtrlWrite_edgeState] at hpending
  exact absurd hpending (by decide)

end Sys2Proof.Machine
end

section
/-! SUPPORT. The fabric ports (R154 to R166, R178): a port replaced, a counter counted, a receive buffer that is left, the judgement of a
source's generation, and what ending the requests to another device leaves. -/

namespace Sys2Proof.Machine

open Sys2Proof

/-! ### A port replaced -/

theorem State.fport_setPort (s : State) (p q : Fin 24) (x : FabPort) : (s.setPort p x).fport q = if q = p then x else s.fport q :=
  s.ports_setPort p q x

@[simp] theorem State.fport_setPort_same (s : State) (p : Fin 24) (x : FabPort) : (s.setPort p x).fport p = x := by
  rw [State.fport_setPort, if_pos rfl]

theorem State.fport_setPort_other (s : State) {p q : Fin 24} (x : FabPort) (h : q ≠ p) : (s.setPort p x).fport q = s.fport q := by
  rw [State.fport_setPort, if_neg h]

/-- A port replaced by itself. -/
theorem State.setPort_fport (s : State) (p : Fin 24) : s.setPort p (s.fport p) = s := by
  have hports : s.fab.ports.set p (s.fport p) = s.fab.ports := Vector.set_getElem_self p.isLt
  rw [State.setPort, hports]

theorem State.setPort_setPort (s : State) (p : Fin 24) (x y : FabPort) : (s.setPort p x).setPort p y = s.setPort p y := by
  have hports : (s.fab.ports.set p x).set p y = s.fab.ports.set p y := by simp
  exact congrArg (fun l : Vector FabPort 24 => ({ s with fab := { s.fab with ports := l } } : State)) hports

/-! ### Counters -/

/-- A counter counts, up to all ones (R465). -/
theorem State.fld_count_same (s : State) (f : Fld) (k : Nat) (h : f.lo + f.w ≤ 64) : (s.count f k).fld f = min (s.fld f + k) (2 ^ f.w - 1) := by
  have hpos : 0 < 2 ^ f.w := by positivity
  rw [State.count, State.fld_setFld_same _ _ _ h, Nat.mod_eq_of_lt (by omega)]

/-- A 64-bit counter that is not at its end counts one more. -/
theorem State.fld_count_one (s : State) {f : Fld} (hlo : f.lo = 0) (hw : f.w = 64) (h : s.fld f + 1 < 2 ^ 64) :
    (s.count f 1).fld f = s.fld f + 1 := by
  rw [State.fld_count_same _ _ _ (by omega), hw]
  omega

/-! ### What a command leaves of the ports that it does not name -/

theorem onlyPorts_trans {s t u : State} {l : List (Fin 24)} (h : onlyPorts s t l) (k : onlyPorts t u l) : onlyPorts s u l := by
  obtain ⟨hframe, hfab, hports⟩ := h
  obtain ⟨kframe, kfab, kports⟩ := k
  exact ⟨kframe.trans (congrArg (fun x : State => { x with regs := u.regs, fab := u.fab }) hframe),
    kfab.trans (congrArg (fun x : Fab => { x with ports := u.fab.ports }) hfab), fun q hq => (kports q hq).trans (hports q hq)⟩

theorem onlyPorts_setPort (s : State) {p : Fin 24} {l : List (Fin 24)} (h : p ∈ l) (x : FabPort) : onlyPorts s (s.setPort p x) l :=
  ⟨rfl, rfl, fun _ hq => s.fport_setPort_other x fun he => hq (he ▸ h)⟩

theorem onlyPorts_setFld (s : State) (f : Fld) (v : Nat) (l : List (Fin 24)) : onlyPorts s (s.setFld f v) l := ⟨rfl, rfl, fun _ _ => rfl⟩

/-! ### Receive buffers (R166) -/

/-- `n` credits of a pair are owed on the port. -/
def FabPort.owing (x : FabPort) (pair n : Nat) : FabPort := { x with owed := x.owed.mapIdx (fun i k => if i = pair then k + n else k) }

theorem FabPort.owed_owing (x : FabPort) (pair n : Nat) (i : Fin 16) :
    (x.owing pair n).owed[i] = x.owed[i] + if i.val = pair then n else 0 := by
  simp only [FabPort.owing, Fin.getElem_fin, Vector.getElem_mapIdx]
  split <;> rfl

theorem State.freeBuf_port (s : State) (p : Fin 24) (pair n : Nat) : s.freeBuf p.val pair n = s.setPort p ((s.fport p).owing pair n) :=
  dif_pos p.isLt

/-- Only the credits owed change, whatever else but the ports changes. -/
theorem freedBuf_of_ports {s t : State} {p : Fin 24} {pair n : Nat} (h : t.fab.ports = (s.freeBuf p.val pair n).fab.ports) :
    freedBuf s t p pair n := by
  have hport : ∀ q, t.fport q = if q = p then (s.fport p).owing pair n else s.fport q := fun q => by
    rw [← State.fport_setPort, ← State.freeBuf_port, State.fport, h]
    rfl
  refine ⟨fun q => ?_, fun q i => ?_⟩
  · rw [hport q]
    split
    case isTrue hq => rw [hq]; rfl
    case isFalse => rfl
  · rw [hport q]
    by_cases hq : q = p
    · rw [if_pos hq, FabPort.owed_owing, hq]
      simp
    · simp [hq]

theorem freedBuf_none {s t : State} {p : Fin 24} {pair : Nat} (h : t.fab.ports = s.fab.ports) : freedBuf s t p pair 0 := by
  have hport : ∀ q, t.fport q = s.fport q := fun q => by rw [State.fport, h]; rfl
  exact ⟨fun q => by rw [hport q], fun q i => by rw [hport q]; simp⟩

/-! ### Generations (R178) -/

/-- A flit or message for this device is judged by its source's generation: one that is stale is counted, `n` for its flits. -/
def State.judged (s : State) (p : Fin 24) (src : Nat) (g : BitVec 8) (n : Nat) : State :=
  (s.genCheck src g).getD (s.count (fFAB_STALE_COUNT p.val) n)

section

variable {s : State} (p : Fin 24) {src : Nat} {g : BitVec 8} (n : Nat)

theorem State.judged_of_stale (hk : s.flag (fFAB_GEN_KNOWN src) = true) (hg : s.fld (fFAB_GEN_GEN src) ≠ g.toNat) :
    s.judged p src g n = s.count (fFAB_STALE_COUNT p.val) n := by
  rw [State.judged, State.genCheck, if_pos hk, if_neg hg]
  rfl

theorem State.judged_of_same (hk : s.flag (fFAB_GEN_KNOWN src) = true) (hg : s.fld (fFAB_GEN_GEN src) = g.toNat) :
    s.judged p src g n = s := by
  rw [State.judged, State.genCheck, if_pos hk, if_pos hg]
  rfl

/-- The entry of a device takes a generation. -/
def State.learned (s : State) (d : Nat) (g : BitVec 8) : State := (s.raise (fFAB_GEN_KNOWN d)).setFld (fFAB_GEN_GEN d) g.toNat

theorem State.judged_of_unknown (hk : s.flag (fFAB_GEN_KNOWN src) = false) : s.judged p src g n = s.learned src g := by
  rw [State.judged, State.genCheck, if_neg (Bool.eq_false_iff.mp hk)]
  rfl

theorem State.judged_frame (s : State) (p : Fin 24) (src : Nat) (g : BitVec 8) (n : Nat) :
    s.judged p src g n = { s with regs := (s.judged p src g n).regs } := by
  cases hk : s.flag (fFAB_GEN_KNOWN src) with
  | false =>
    rw [State.judged_of_unknown p n hk]
    exact State.setFld_frame (State.setFld_frame rfl _ _) _ _
  | true =>
    by_cases hg : s.fld (fFAB_GEN_GEN src) = g.toNat
    · rw [State.judged_of_same p n hk hg]
    · rw [State.judged_of_stale p n hk hg]
      exact State.setFld_frame rfl _ _

end

section

variable (s : State) (d : Nat) (g : BitVec 8)

theorem State.known_learned : (s.learned d g).flag (fFAB_GEN_KNOWN d) = true := by
  have hraised : (s.raise (fFAB_GEN_KNOWN d)).flag (fFAB_GEN_KNOWN d) = true := State.flag_raise_same s rfl (show 8 < 64 by omega)
  rw [State.learned, State.flag, State.fld_setFld_bits _ (fFAB_GEN_GEN d) (fFAB_GEN_KNOWN d) _ (show 0 + 8 ≤ 64 by omega) rfl
    (.inr (show 0 + 8 ≤ 8 by omega))]
  exact hraised

theorem State.gen_learned : (s.learned d g).fld (fFAB_GEN_GEN d) = g.toNat := by
  rw [State.learned, State.fld_setFld_same _ _ _ (show 0 + 8 ≤ 64 by omega)]
  exact Nat.mod_eq_of_lt g.isLt

theorem State.sameRegsBut_learned : s.sameRegsBut (s.learned d g) [fFAB_GEN_GEN d |>.off] := fun o ho => by
  have ho' : o ≠ rFAB_GEN d := List.ne_of_not_mem_cons ho
  rw [State.learned, State.raise, State.reg_setFld_other _ _ _ _ ho', State.reg_setFld_other _ _ _ _ ho']

end

/-! ### Requests to a device that has reset (R178) -/

/-- From `s` to `t` there is at most what ending requests leaves: what events leave, and the queue pairs. -/
def State.endLeaves (s t : State) : Prop := ({ s with rdm := t.rdm } : State).eventLeaves t

theorem State.endLeaves.refl (s : State) : s.endLeaves s := State.eventLeaves.refl s

theorem State.eventLeaves.endLeaves {s t : State} (h : s.eventLeaves t) : s.endLeaves t := by
  have hrdm : t.rdm = s.rdm := (congrArg State.rdm h.1 :)
  rw [State.endLeaves, hrdm]
  exact h

theorem State.endLeaves.trans {s t u : State} (h : s.endLeaves t) (k : t.endLeaves u) : s.endLeaves u := by
  refine State.eventLeaves.trans (t := { t with rdm := u.rdm }) ⟨?_, h.2⟩ k
  exact congrArg (fun x : State => { x with rdm := u.rdm }) h.1

theorem State.endLeaves_foldl {α : Type} {f : State → α → State} (hf : ∀ (t : State) (a : α), t.endLeaves (f t a)) (l : List α) (s : State) :
    s.endLeaves (l.foldl f s) := by
  induction l generalizing s with
  | nil => exact .refl s
  | cons a r ih => exact (hf s a).trans (ih (f s a))

theorem State.endLeaves_setRdm (s : State) (f : Rdm → Rdm) : s.endLeaves (s.setRdm f) := ⟨rfl, fun _ _ => rfl⟩

theorem State.endLeaves_endCmd (s : State) (id : Nat) (st : Status) (detail result : Nat) : s.endLeaves (s.endCmd id st detail result) := by
  unfold State.endCmd
  split
  · dsimp only
    split
    · exact ⟨rfl, fun _ _ => rfl⟩
    · exact .refl s
  · exact .refl s

theorem State.endLeaves_flushQp (s : State) (qpn : Nat) (st : Status) (detail : Nat) : s.endLeaves (s.flushQp qpn st detail) := by
  unfold State.flushQp
  split
  · exact .refl s
  · have hends : ∀ (l : List Wr) (r : List Cmd) (d : Nat) (f : Rdm → Rdm), s.endLeaves
        ((r.foldl (fun t c => t.endCmd c.id .invalidState d) (l.foldl (fun t w => t.endCmd w.cmd st detail) s)).setRdm f) := fun l r d f =>
      ((State.endLeaves_foldl (fun t w => t.endLeaves_endCmd _ _ _ _) l s).trans
        (State.endLeaves_foldl (fun t c => t.endLeaves_endCmd _ _ _ _) r _)).trans (State.endLeaves_setRdm _ f)
    dsimp only
    split
    · exact hends _ _ _ _
    · exact (hends _ _ _ _).trans (State.eventLeaves_logWrite _ _ _ _ _ _ _ _).endLeaves

theorem State.endLeaves_qpError (s : State) (qpn : Nat) (st : Status) (detail : Nat) : s.endLeaves (s.qpError qpn st detail) := by
  unfold State.qpError
  split
  · exact .refl s
  · exact (((s.endLeaves_setRdm _).trans (State.endLeaves_flushQp _ _ _ _)).trans
      (State.eventLeaves_setFld _ (show 0x800000 ≤ fRDM_ERR_FLUSH.off by decide) 1).endLeaves).trans
      (State.eventLeaves_event _ _ _ _ _).endLeaves

theorem State.endLeaves_endTo (s : State) (dev : Nat) : s.endLeaves (s.endTo dev) :=
  (s.endLeaves_setRdm _).trans (State.endLeaves_foldl (fun t _ => t.endLeaves_endCmd _ _ _ _) _ _)

theorem State.endLeaves_failTo (s : State) (dev : Nat) : s.endLeaves (s.failTo dev) := by
  refine (State.endLeaves_foldl (fun t x => ?_) _ s).trans (State.endLeaves_endTo _ dev)
  split
  · exact .refl t
  · dsimp only
    split
    · exact (t.endLeaves_setRdm _).trans (State.endLeaves_foldl (fun u _ => u.endLeaves_endCmd _ _ _ _) _ _)
    · split
      · exact t.endLeaves_qpError _ _ _
      · exact .refl t

end Sys2Proof.Machine
end

section
/-! SUPPORT. What events and faults add to the trouble log (R466 to R470): at most so many entries behind those that stand there. -/

namespace Sys2Proof.Machine

open Sys2Proof

/-- A step that keeps a register, over a list. -/
theorem State.reg_foldl {α : Type} {f : State → α → State} {o : Nat} {l : List α} (hf : ∀ t, ∀ a ∈ l, (f t a).reg o = t.reg o) (s : State) :
    (l.foldl f s).reg o = s.reg o := by
  induction l generalizing s with
  | nil => rfl
  | cons a r ih => exact (ih (fun t b hb => hf t b (List.mem_cons_of_mem a hb)) (f s a)).trans (hf s a List.mem_cons_self)

/-- An input of an event source that changes shows in the source's register of each lodge processor alone (R430). -/
theorem State.reg_srcLevel (s : State) {n o : Nat} {b : Bool} (h : ∀ c < 3, o ≠ rLDG_EV_SRC c n) : (s.srcLevel n b).reg o = s.reg o := by
  refine State.reg_foldl (fun t c hc => ?_) s
  have hc' := h c (List.mem_range.mp hc)
  have hraw : (t.setFld (fLDG_EV_SRC_RAW c n) (b2n b)).reg o = t.reg o := State.reg_setFld_other _ _ _ _ hc'
  have hpend : ∀ v, ((t.setFld (fLDG_EV_SRC_RAW c n) (b2n b)).setFld (fLDG_EV_SRC_PENDING c n) v).reg o = t.reg o := fun v =>
    (State.reg_setFld_other _ _ _ _ hc').trans hraw
  dsimp only
  split
  · exact hpend _
  all_goals
    split
    · exact hpend _
    · exact hraw

/-- From `s` to `t` at most `k` entries have been added to the trouble log, from its next index upward, and LOG_ERR shows an
uncorrectable table error as before. -/
def State.logAdds (s t : State) (k : Nat) : Prop :=
  ∃ j ≤ k, t.fld fLOG_WR_COUNT % 65536 = (s.fld fLOG_WR_COUNT + j) % 65536 ∧
    (∀ i, (∀ d < j, i ≠ (s.fld fLOG_WR_COUNT + d) % 65536) → alook i t.log = alook i s.log) ∧
    t.flag fLOG_ERR_DEV_UE = s.flag fLOG_ERR_DEV_UE

theorem State.log_withSch (s : State) (x : Sch) : ({ s with sch := x } : State).log = s.log := rfl

namespace State.logAdds

variable {s t u : State} {k m : Nat}

/-- A step that leaves the log and its two registers adds nothing. -/
theorem of_same (hlog : t.log = s.log) (hwr : t.reg rLOG_WR = s.reg rLOG_WR) (herr : t.reg rLOG_ERR = s.reg rLOG_ERR) : s.logAdds t 0 := by
  refine ⟨0, le_rfl, ?_, fun i _ => by rw [hlog], State.flag_of_sameReg (f := fLOG_ERR_DEV_UE) herr⟩
  rw [State.fld_of_sameReg (f := fLOG_WR_COUNT) hwr, Nat.add_zero]

theorem of_regs (hlog : t.log = s.log) (hregs : t.regs = s.regs) : s.logAdds t 0 :=
  of_same hlog (State.reg_congr hregs _) (State.reg_congr hregs _)

theorem refl (s : State) : s.logAdds s 0 := of_regs rfl rfl

theorem mono (h : s.logAdds t k) (hm : k ≤ m) : s.logAdds t m := by
  obtain ⟨j, hj, hrest⟩ := h
  exact ⟨j, hj.trans hm, hrest⟩

theorem trans (h : s.logAdds t k) (g : t.logAdds u m) : s.logAdds u (k + m) := by
  obtain ⟨j, hj, hwr, hlog, herr⟩ := h
  obtain ⟨i, hi, gwr, glog, gerr⟩ := g
  refine ⟨j + i, by omega, by omega, fun x hx => ?_, gerr.trans herr⟩
  have hlater : ∀ d < i, x ≠ (t.fld fLOG_WR_COUNT + d) % 65536 := fun d hd he => hx (j + d) (by omega) (by omega)
  rw [glog x hlater, hlog x fun d hd => hx d (by omega)]

theorem setFld (s : State) {f : Fld} (v : Nat) (hwr : rLOG_WR ≠ f.off) (herr : rLOG_ERR ≠ f.off) : s.logAdds (s.setFld f v) 0 :=
  of_same rfl (State.reg_setFld_other _ _ _ _ hwr) (State.reg_setFld_other _ _ _ _ herr)

/-- Steps of which each adds at most `k` entries. -/
theorem foldl {α : Type} {f : State → α → State} (hf : ∀ (t : State) (a : α), t.logAdds (f t a) k) (l : List α) (s : State) :
    s.logAdds (l.foldl f s) (l.length * k) := by
  induction l generalizing s with
  | nil => exact (refl s).mono (Nat.zero_le _)
  | cons a r ih =>
    refine ((hf s a).trans (ih (f s a))).mono ?_
    rw [List.length_cons, Nat.succ_mul]
    omega

theorem logWrite (s : State) (kind block part : Nat) (st : Status) (detail arg0 arg1 : Nat) :
    s.logAdds (s.logWrite kind block part st detail arg0 arg1) 1 := by
  refine ⟨1, le_rfl, ?_, fun i hi => ?_, ?_⟩
  · rw [State.count_logWrite]
    omega
  · rw [State.logWrite_frame]
    exact alook_aput_other (hi 0 Nat.one_pos).symm _ _
  · have hcount : ∀ (l : List (Nat × LogEntry)) (n : Nat),
        (({ s with log := l } : State).setFld fLOG_WR_COUNT n).fld fLOG_ERR_DEV_UE = s.fld fLOG_ERR_DEV_UE := fun l n =>
      State.fld_setFld_off _ _ _ _ (by decide)
    unfold State.logWrite State.flag
    dsimp only
    split
    · rw [State.raise, State.fld_setFld_bits _ _ _ _ (by decide) (by rfl) (by decide), hcount]
    · rw [hcount]

/-- A pulse of one of the 256 event sources. -/
theorem pulse (s : State) {n : Nat} (hn : n < 256) : s.logAdds (s.pulse n) 0 := by
  have hkeeps : ∀ o ∈ [rLOG_WR, rLOG_ERR], (s.pulse n).reg o = s.reg o := fun o ho => by
    have hfar : ∀ c < 3, o ≠ rLDG_EV_SRC c n := fun c hc he => by
      simp only [rLOG_WR, rLOG_ERR, rLDG_EV_SRC, List.mem_cons, List.not_mem_nil, or_false] at ho he
      omega
    rw [State.pulse, State.reg_srcLevel _ hfar, State.reg_srcLevel _ hfar]
  have hlog : (s.pulse n).log = s.log := (congrArg State.log (s.pulse_frame n) :)
  exact of_same hlog (hkeeps _ (by simp)) (hkeeps _ (by simp))

theorem cqPost (s : State) (p : Fin 65) (q : Nat) (e : CqEntry) : s.logAdds (s.cqPost p q e) 0 := by
  have hwritten : ∀ (a : Nat) (b : List Byte) (x : Cq),
      s.logAdds (((s.setBytes a b).sendWr none (fun _ => false) a b).setCq p q x) 0 := fun a b x => by
    rw [State.sendWr_frame, State.setBytes_frame]
    exact of_regs rfl rfl
  have hsignal : ∀ t : State, t.logAdds (t.cqSignal p q) 0 := fun t => by
    unfold State.cqSignal State.msixSend
    split
    · exact refl t
    · dsimp only
      split <;> exact of_regs rfl rfl
  unfold State.cqPost
  split
  · exact refl s
  · split
    · exact refl s
    · dsimp only
      split
      · exact (hwritten _ _ _).trans (hsignal _)
      · exact hwritten _ _ _

theorem dropEvent (s : State) (p : Fin 65) : s.logAdds (s.count (fQUE_PEVDROP_COUNT p.val) 1) 0 :=
  setFld s _ (show 0x1000000 ≠ 0x801010 + 32 * p.val by omega) (show 0x1000008 ≠ 0x801010 + 32 * p.val by omega)

theorem cqBreak (s : State) (p : Fin 65) (q : Nat) (x : Cq) : s.logAdds (s.cqBreak p q x) 0 := by
  have hset : s.logAdds (s.setCq p q { x with err := true }) 0 := of_regs rfl rfl
  unfold State.cqBreak
  dsimp only
  split
  · exact hset.trans (setFld _ 1 (by decide) (by decide))
  · exact hset

theorem length_ownerAnd0 (p : Fin 65) : (ownerAnd0 p).length ≤ 2 := by
  unfold ownerAnd0
  split <;> simp

/-- A queue that fails adds an entry, and what its own event adds for two partitions. -/
theorem evWrite (s : State) {post : State → Fin 65 → EvRec → State} (hp : ∀ (t : State) (d : Fin 65) (r : EvRec), t.logAdds (post t d r) k)
    (p : Fin 65) (q : Nat) (c : Cq) (e : EvRec) : s.logAdds (s.evWrite post p q c e) (1 + 2 * k) := by
  unfold State.evWrite
  dsimp only
  split
  · exact (cqPost s p q _).mono (Nat.zero_le _)
  · refine ((((dropEvent s p).trans (cqBreak _ p q c)).trans (logWrite _ _ _ _ _ _ _ _)).trans
      (foldl (fun t d => hp t d _) (ownerAnd0 p) _)).mono ?_
    have howners := Nat.mul_le_mul_right k (length_ownerAnd0 p)
    omega

theorem evPostN (n : Nat) (s : State) (p : Fin 65) (e : EvRec) : s.logAdds (State.evPostN n s p e) (2 ^ n - 1) := by
  induction n generalizing s p e with
  | zero =>
    unfold State.evPostN
    dsimp only
    split
    · exact dropEvent s p
    · split
      · exact dropEvent s p
      · split
        · exact cqPost s p _ _
        · split
          · exact of_regs rfl rfl
          · exact dropEvent s p
  | succ n ih =>
    have hcost : 1 + 2 * (2 ^ n - 1) = 2 ^ (n + 1) - 1 := by
      have hpos : 0 < 2 ^ n := by positivity
      omega
    unfold State.evPostN
    dsimp only
    split
    · exact (dropEvent s p).mono (Nat.zero_le _)
    · split
      · exact (dropEvent s p).mono (Nat.zero_le _)
      · split
        · exact hcost ▸ evWrite s ih p _ _ e
        · split
          · exact (of_regs rfl rfl).mono (Nat.zero_le _)
          · exact (dropEvent s p).mono (Nat.zero_le _)

/-- The records of an event for partition 0. -/
theorem evPost (s : State) (e : EvRec) : s.logAdds ([(0 : Fin 65)].foldl (fun t p => t.evPost p e) s) 7 :=
  foldl (fun t p => evPostN 3 t p e) [0] s

/-- An event for partition 0: its entry, and what queues that fail add. -/
theorem event (s : State) (block : Nat) (e : EvRec) (a : Nat) (hsrc : ∀ n, evSource e.code e.result = some n → n < 256) :
    s.logAdds (s.event block [0] e a) 8 := by
  unfold State.event
  dsimp only
  split
  case h_1 n hn => exact ((pulse s (hsrc n hn)).trans (logWrite _ _ _ _ _ _ _ _)).trans (evPost _ e)
  case h_2 => exact (logWrite s _ _ _ _ _ _ _).trans (evPost _ e)

theorem flood (s : State) (kind : Nat) (n : Notice) (but : Option (Fin 24)) (slot : Nat) : s.logAdds (s.flood kind n but slot) 0 := by
  rw [(State.flood_leaves kind n but slot s).1]
  exact of_regs rfl rfl

theorem faultRegs (s : State) (cause origin : Nat) : s.logAdds (s.faultRegs cause origin) 0 := by
  unfold State.faultRegs State.count
  exact (((setFld s _ (by decide) (by decide)).trans (setFld _ _ (by decide) (by decide))).trans (setFld _ _ (by decide) (by decide))).trans
    (setFld _ _ (by decide) (by decide))

theorem faultShown (s : State) (cause origin : Nat) : (s.faultRegs cause origin).logAdds (s.faultShown cause origin) 0 :=
  of_regs (State.log_withSch _ _) (s.faultShown_regs cause origin)

theorem recordFault_event (s : State) (cause origin carried : Nat) :
    (s.faultShown cause origin).logAdds (s.recordFault cause origin carried) 8 := by
  unfold State.recordFault State.faultShown State.faultRegs
  refine event _ _ _ _ fun n hn => ?_
  have hsource : 113 = n := Option.some.inj hn
  omega

theorem recordFault (s : State) (cause origin carried : Nat) : s.logAdds (s.recordFault cause origin carried) 8 :=
  ((faultRegs s cause origin).trans (faultShown s cause origin)).trans (recordFault_event s cause origin carried)

theorem holdTr (s : State) (t : Nat) : s.logAdds (s.holdTr t) 0 := of_regs (s.log_withSch _) (s.regs_withSch _)

/-- A later fault of an attempt makes an entry, and its T_r is held. -/
theorem fault_later {s : State} (hrun : s.running = true) (hrec : s.sch.recorded = true) (cause : Nat) : s.fault cause =
    (s.logWrite 0x0101 blkSCH 0 .epochFault (0x1000 + cause) 0 (s.fld fSCH_STEP_VALUE)).holdTr s.replayTime := by
  rw [State.fault, if_pos hrun, hrec]
  rfl

theorem holdAndSend (s : State) (tr : Nat) (n : Notice) : s.logAdds (s.holdAndSend tr n) 0 := by
  rw [State.holdAndSend_frame]
  exact of_regs rfl rfl

/-- A fault adds the entry of its event, or one entry (R140, R498). -/
theorem fault (s : State) (cause : Nat) : s.logAdds (s.fault cause) 8 := by
  by_cases hrun : s.running = true
  · cases hrec : s.sch.recorded with
    | false =>
      rw [State.fault_eq_holdAndSend hrun hrec]
      exact (recordFault s cause s.devNum 0).trans (holdAndSend _ _ _)
    | true =>
      rw [fault_later hrun hrec]
      exact ((logWrite s _ _ _ _ _ _ _).trans (holdTr _ _)).mono (by decide)
  · rw [State.fault, if_neg hrun]
    exact (refl s).mono (by decide)

/-- The loss of the lock (R116). -/
theorem loseLock (s : State) : s.logAdds s.loseLock 16 := by
  have hcounts : s.logAdds (s.withExchanges 0 0) 0 := of_regs rfl rfl
  have hunlocked : s.logAdds (s.withExchanges 0 0).unlocked 0 :=
    hcounts.trans ((setFld _ _ (by decide) (by decide)).trans (setFld _ _ (by decide) (by decide)))
  unfold State.loseLock
  dsimp only
  split
  · exact (hunlocked.trans (event _ _ { code := 0x0104, result := _, st := .timeout, detail := 0 } _
      fun n h => absurd (show (none : Option Nat) = some n from h) nofun)).trans (fault _ 8)
  · exact hcounts.mono (by decide)

end State.logAdds

/-- An uncorrectable error in a table is counted and flagged, -/
def State.ueShown (s : State) : State := (s.count fLOG_DEV_UE_COUNT 1).raise fLOG_ERR_DEV_UE

/-- and has its entry. -/
def State.ueLogged (s : State) (block k entry : Nat) : State :=
  s.ueShown.logWrite 0x0004 block noPart .dataError 0 (Config.structIndex k) entry

theorem State.devUe_eq (s : State) (block k entry : Nat) : s.devUe block k entry =
    (s.ueLogged block k entry).event block [0] { code := 0x0204, result := Config.structIndex k, st := .dataError, detail := 0 } := rfl

theorem State.eventLeaves_ueLogged (s : State) (block k entry : Nat) : s.eventLeaves (s.ueLogged block k entry) := by
  have hcount : s.eventLeaves (s.count fLOG_DEV_UE_COUNT 1) := s.eventLeaves_setFld (by decide) _
  have hshown : s.eventLeaves s.ueShown := hcount.trans (State.eventLeaves_setFld _ (by decide) 1)
  exact hshown.trans (State.eventLeaves_logWrite _ _ _ _ _ _ _ _)

/-- An uncorrectable error in a table leaves what its event leaves (R460), and shows in LOG_ERR. -/
theorem State.devUe_leaves (s : State) (block k entry : Nat) :
    s.eventLeaves (s.devUe block k entry) ∧ (s.devUe block k entry).flag fLOG_ERR_DEV_UE = true := by
  have hshown : s.ueShown.flag fLOG_ERR_DEV_UE = true := State.flag_raise_same _ rfl (by decide)
  have hlogged := s.eventLeaves_ueLogged block k entry
  obtain ⟨_, -, -, -, hentry⟩ : s.ueShown.logAdds (s.ueLogged block k entry) 1 := State.logAdds.logWrite _ _ _ _ _ _ _ _
  rw [State.devUe_eq]
  generalize s.ueLogged block k entry = t at *
  obtain ⟨_, -, -, -, hevent⟩ := State.logAdds.event t block
    { code := 0x0204, result := Config.structIndex k, st := .dataError, detail := 0 } 0
    fun m h => absurd (show (none : Option Nat) = some m from h) nofun
  exact ⟨hlogged.trans (State.eventLeaves_event _ _ _ _ _), (hevent.trans hentry).trans hshown⟩

/-- An entry stands where no more entries are added than the log holds. -/
theorem State.logged_of_logAdds {s t : State} {kind block part : Nat} {st : Status} {detail arg0 arg1 k : Nat} (hk : k < 65535)
    (h : (s.logWrite kind block part st detail arg0 arg1).logAdds t k) : s.logged t kind block part st detail arg0 arg1 := by
  obtain ⟨j, hj, -, hlog, -⟩ := h
  have hwr := s.count_logWrite kind block part st detail arg0 arg1
  rw [State.logged, hlog _ fun d hd => by omega]
  exact s.logged_logWrite kind block part st detail arg0 arg1

end Sys2Proof.Machine
end

section
/-! PROOF. Routing (R165, R167, R178, R460), of the family 06_fabric_links. -/

namespace Sys2Proof.Machine

open Sys2Proof

/-! ### The way of a packet (R167) -/

/-- The pair of the receive buffer in which a packet waits. -/
def bufOf (k : VolPacket) : Nat := 2 * k.vc.val + b2n k.hi

section

variable {s : State} {d path : Nat}

theorem State.wayTo_of_not_valid (h : bitOf (s.rtEntry d) 31 = false) : s.wayTo d path = .none := by
  rw [State.wayTo, if_pos h]

theorem State.wayTo_of_local (hv : bitOf (s.rtEntry d) 31 = true) (hl : bitOf (s.rtEntry d) 30 = true) : s.wayTo d path = .here := by
  rw [State.wayTo, if_neg (ne_false_of_eq_true hv), if_pos hl]

theorem State.wayTo_of_mask (hv : bitOf (s.rtEntry d) 31 = true) (hl : bitOf (s.rtEntry d) 30 = false) {o : Fin 24}
    (h : (maskPorts (s.rtEntry d % 2 ^ 24))[path % (maskPorts (s.rtEntry d % 2 ^ 24)).length]? = some o) : s.wayTo d path = .out o := by
  have hmask : bitsOf (s.rtEntry d) 0 24 = s.rtEntry d % 2 ^ 24 := by rw [bitsOf, Nat.pow_zero, Nat.div_one]
  rw [State.wayTo, if_neg (ne_false_of_eq_true hv), if_neg (Bool.eq_false_iff.mp hl), hmask]
  cases hm : maskPorts (s.rtEntry d % 2 ^ 24) with
  | nil => rw [hm] at h; exact absurd h nofun
  | cons q l =>
    rw [hm] at h
    dsimp only
    rw [List.getD, h]
    rfl

end

/-! ### A packet arrives (R165 to R167) -/

/-- The state after a packet has arrived and its entry has been read. -/
def State.volArrived (s : State) (p : Fin 24) (k : VolPacket) : State :=
  let n := (volFlits k k.hi).length
  let free := s.freeBuf p.val (bufOf k) n
  match s.wayTo k.dst.val k.path.toNat with
  | .none => free.noRoute p
  | .here => if s.fab.resetting then free.count (fFAB_DISCARD_COUNT p.val) n else free.judged p k.src.val k.gen n
  | .out o => s.queueVol o k p.val

theorem exec_volunteerPacketReceive {s t : State} {p : Fin 24} {k : VolPacket} {tab : EccOutcome} (hup : s.portUp p = true)
    (ht : s.tableRead tab (fun t => t.routeUe k.dst.val) = t) (htup : t.portUp p = true) :
    exec (.volunteerPacketReceive p k tab) s = .next (t.volArrived p k) := by
  have hs : (if s.portUp p = true then s.tableRead tab (fun t => t.routeUe k.dst.val) else s) = t := by rw [if_pos hup, ht]
  change execVolunteerPacketReceive p k tab s = _
  rw [execVolunteerPacketReceive, hs]
  dsimp only
  rw [if_neg (ne_false_of_eq_true htup), State.volArrived]
  cases t.wayTo k.dst.val k.path.toNat with
  | none => rfl
  | out o => rfl
  | here =>
    dsimp only
    by_cases hr : t.fab.resetting = true
    · rw [if_pos hr, if_pos hr]
      rfl
    · rw [if_neg hr, if_neg hr, State.judged, bufOf]
      cases (t.freeBuf p.val (2 * k.vc.val + b2n k.hi) (volFlits k k.hi).length).genCheck k.src.val k.gen <;> rfl

/-! ### What ends here (R167, R178) -/

/-- The verdict on a packet or message of `n` flits for this device: no route where its entry is not VALID, and else by its source's
generation. -/
def routeJudged (s t : State) (p : Fin 24) (dst src : Nat) (g : BitVec 8) (n : Nat) : Prop :=
  (bitOf (s.rtEntry dst) 31 = false → s.sameRegsBut t [fFAB_DISCARD_COUNT p.val |>.off, fFAB_ERR_NO_ROUTE.off] ∧
    t.flag fFAB_ERR_NO_ROUTE = true ∧
    (s.fld (fFAB_DISCARD_COUNT p.val) + 1 < 2 ^ 64 → t.fld (fFAB_DISCARD_COUNT p.val) = s.fld (fFAB_DISCARD_COUNT p.val) + 1)) ∧
  (bitOf (s.rtEntry dst) 31 = true → bitOf (s.rtEntry dst) 30 = true → s.fab.resetting = false →
    (s.flag (fFAB_GEN_KNOWN src) = true → s.fld (fFAB_GEN_GEN src) ≠ g.toNat →
      s.sameRegsBut t [fFAB_STALE_COUNT p.val |>.off] ∧
      t.fld (fFAB_STALE_COUNT p.val) = min (s.fld (fFAB_STALE_COUNT p.val) + n) (2 ^ 32 - 1)) ∧
    (s.flag (fFAB_GEN_KNOWN src) = true → s.fld (fFAB_GEN_GEN src) = g.toNat → t.regs = s.regs) ∧
    (s.flag (fFAB_GEN_KNOWN src) = false → t.flag (fFAB_GEN_KNOWN src) = true ∧
      t.fld (fFAB_GEN_GEN src) = g.toNat ∧ s.sameRegsBut t [fFAB_GEN_GEN src |>.off]))

section

variable {s t : State} (p : Fin 24) {dst src : Nat} {g : BitVec 8} {n : Nat}

theorem discard_noRoute (s : State) (p : Fin 24) :
    s.sameRegsBut (s.noRoute p) [fFAB_DISCARD_COUNT p.val |>.off, fFAB_ERR_NO_ROUTE.off] ∧ (s.noRoute p).flag fFAB_ERR_NO_ROUTE = true ∧
      (s.fld (fFAB_DISCARD_COUNT p.val) + 1 < 2 ^ 64 →
        (s.noRoute p).fld (fFAB_DISCARD_COUNT p.val) = s.fld (fFAB_DISCARD_COUNT p.val) + 1) := by
  refine ⟨fun o ho => ?_, State.flag_raise_same _ rfl (by decide), fun hlt => ?_⟩
  · have herr := List.ne_of_not_mem_cons (List.not_mem_of_not_mem_cons ho)
    rw [State.noRoute, State.raise, State.reg_setFld_other _ _ _ _ herr, State.discardFlit, State.count,
      State.reg_setFld_other _ _ _ _ (List.ne_of_not_mem_cons ho)]
  · rw [State.noRoute, State.raise, State.fld_setFld_off _ _ _ _ (show 0x301020 + 64 * p.val ≠ 0x300008 by omega)]
    exact State.fld_count_one s rfl rfl hlt

/-- Where no entry is VALID: discarded without a route. -/
theorem routeJudged_noRoute (h : bitOf (s.rtEntry dst) 31 = false) (ht : t.regs = (s.noRoute p).regs) : routeJudged s t p dst src g n := by
  obtain ⟨hregs, hflag, hcount⟩ := discard_noRoute s p
  refine ⟨fun _ => ⟨fun o ho => (State.reg_congr ht o).trans (hregs o ho), ?_, fun hlt => (State.fld_congr ht _).trans (hcount hlt)⟩,
    fun hv => absurd (h.symm.trans hv) nofun⟩
  rw [State.flag, State.fld_congr ht]
  exact hflag

/-- For this device: judged by the generation, unless a warm reset lasts. -/
theorem routeJudged_judged (h : bitOf (s.rtEntry dst) 31 = true) (ht : s.fab.resetting = false → t.regs = (s.judged p src g n).regs) :
    routeJudged s t p dst src g n := by
  refine ⟨fun hv => absurd (h.symm.trans hv) nofun, fun _ _ hr => ⟨fun hk hg => ?_, fun hk hg => ?_, fun hk => ?_⟩⟩
  · have hregs := ht hr
    rw [State.judged_of_stale p n hk hg] at hregs
    refine ⟨fun o ho => (State.reg_congr hregs o).trans (State.sameRegsBut_setFld _ _ _ o ho), (State.fld_congr hregs _).trans ?_⟩
    exact State.fld_count_same s _ n (show 0 + 32 ≤ 64 by omega)
  · rw [ht hr, State.judged_of_same p n hk hg]
  · have hregs := ht hr
    rw [State.judged_of_unknown p n hk] at hregs
    refine ⟨?_, (State.fld_congr hregs _).trans (s.gen_learned src g), fun o ho => ?_⟩
    · rw [State.flag, State.fld_congr hregs]
      exact s.known_learned src g
    · exact (State.reg_congr hregs o).trans (s.sameRegsBut_learned src g o ho)

end

/-! ### A packet that ends here -/

section

variable {s : State} (p : Fin 24) (k : VolPacket)

theorem State.volArrived_of_not_valid (hv : bitOf (s.rtEntry k.dst.val) 31 = false) :
    s.volArrived p k = (s.setPort p ((s.fport p).owing (bufOf k) (volFlits k k.hi).length)).noRoute p := by
  rw [State.volArrived, State.wayTo_of_not_valid hv, State.freeBuf_port]

theorem State.volArrived_of_local (hv : bitOf (s.rtEntry k.dst.val) 31 = true) (hl : bitOf (s.rtEntry k.dst.val) 30 = true) :
    s.volArrived p k = if s.fab.resetting then
        (s.setPort p ((s.fport p).owing (bufOf k) (volFlits k k.hi).length)).count (fFAB_DISCARD_COUNT p.val) (volFlits k k.hi).length
      else (s.setPort p ((s.fport p).owing (bufOf k) (volFlits k k.hi).length)).judged p k.src.val k.gen (volFlits k k.hi).length := by
  rw [State.volArrived, State.wayTo_of_local hv hl, State.freeBuf_port]

/-- A packet that does not go on leaves its receive buffer, and changes registers beside it. -/
theorem State.volArrived_ends (h : bitOf (s.rtEntry k.dst.val) 31 = false ∨ bitOf (s.rtEntry k.dst.val) 30 = true) :
    s.volArrived p k = { s.setPort p ((s.fport p).owing (bufOf k) (volFlits k k.hi).length) with regs := (s.volArrived p k).regs } := by
  cases hv : bitOf (s.rtEntry k.dst.val) 31 with
  | false =>
    rw [State.volArrived_of_not_valid p k hv]
    exact State.setFld_frame (State.setFld_frame rfl _ _) _ _
  | true =>
    rw [State.volArrived_of_local p k hv (h.resolve_left (ne_false_of_eq_true hv))]
    split
    · exact State.setFld_frame rfl _ _
    · exact State.judged_frame _ _ _ _ _

theorem State.volArrived_frees (h : bitOf (s.rtEntry k.dst.val) 31 = false ∨ bitOf (s.rtEntry k.dst.val) 30 = true) :
    s.volArrived p k = { s with regs := (s.volArrived p k).regs, fab := (s.volArrived p k).fab } ∧
      freedBuf s (s.volArrived p k) p (bufOf k) (volFlits k k.hi).length := by
  have hframe := State.volArrived_ends p k h
  generalize s.volArrived p k = t at *
  refine ⟨?_, freedBuf_of_ports ?_⟩
  · rw [hframe]
    rfl
  · rw [State.freeBuf_port, hframe]

theorem routeJudged_volArrived : routeJudged s (s.volArrived p k) p k.dst.val k.src.val k.gen (volFlits k k.hi).length := by
  change routeJudged (s.setPort p ((s.fport p).owing (bufOf k) (volFlits k k.hi).length)) _ _ _ _ _ _
  cases hv : bitOf (s.rtEntry k.dst.val) 31 with
  | false => exact routeJudged_noRoute p hv (by rw [State.volArrived_of_not_valid p k hv])
  | true =>
    cases hl : bitOf (s.rtEntry k.dst.val) 30 with
    | false => exact ⟨fun h => absurd (hv.symm.trans h) nofun, fun _ h => absurd (hl.symm.trans h) nofun⟩
    | true =>
      refine routeJudged_judged p hv fun hr => ?_
      rw [State.volArrived_of_local p k hv hl]
      exact congrArg State.regs (if_neg (Bool.eq_false_iff.mp hr))

end

/-! ### A ROUTED message (R167, R169) -/

/-- The device awaits other replies. -/
def State.withAwaiting (s : State) (l : List Nat) : State := { s with fab := { s.fab with awaiting := l } }

theorem State.withAwaiting_frame {s t : State} (h : t = { s with regs := t.regs }) (l : List Nat) :
    t.withAwaiting l = { s with regs := (t.withAwaiting l).regs, fab := (t.withAwaiting l).fab } :=
  congrArg (fun u : State => { u with regs := t.regs, fab := { t.fab with awaiting := l } }) h

theorem State.withAwaiting_awaiting (s : State) : s.withAwaiting s.fab.awaiting = s := rfl

section

variable {s : State} {p : Fin 24} (hup : s.portUp p = true) (m : RoutedMsg)

include hup

theorem exec_routedMessageReceive_of_not_valid (hv : bitOf (s.rtEntry m.dst.val) 31 = false) :
    exec (.routedMessageReceive p m) s = .next (s.noRoute p) := by
  change execRoutedMessageReceive p m s = _
  rw [execRoutedMessageReceive, if_neg (ne_false_of_eq_true hup)]
  exact if_pos hv

theorem exec_routedMessageReceive_of_local (hv : bitOf (s.rtEntry m.dst.val) 31 = true) (hl : bitOf (s.rtEntry m.dst.val) 30 = true) :
    ∃ l, exec (.routedMessageReceive p m) s = .next (State.withAwaiting (if s.fab.resetting then
        s.count (fFAB_DISCARD_COUNT p.val) (routedFlits m).length
      else s.judged p m.src.val m.gen (routedFlits m).length) l) := by
  change ∃ l, execRoutedMessageReceive p m s = _
  rw [execRoutedMessageReceive, if_neg (ne_false_of_eq_true hup)]
  dsimp only
  rw [if_neg (ne_false_of_eq_true hv), if_pos hl]
  split
  · exact ⟨_, congrArg Host.Outcome.next (State.withAwaiting_awaiting _).symm⟩
  · rw [State.judged]
    cases s.genCheck m.src.val m.gen with
    | none => exact ⟨_, congrArg Host.Outcome.next (State.withAwaiting_awaiting _).symm⟩
    | some t => exact ⟨t.fab.awaiting.erase m.src.val, rfl⟩

theorem exec_routedMessageReceive_of_port (hv : bitOf (s.rtEntry m.dst.val) 31 = true) (hl : bitOf (s.rtEntry m.dst.val) 30 = false)
    (o : Fin 24) (ho : s.rtEntry m.dst.val / 2 ^ 24 % 32 = o.val) : exec (.routedMessageReceive p m) s =
      .next (s.setPort o ((s.fport o).queued ((routedFlits m).map (fun f => { flit := .ctrl f, slot := s.slot, src := p.val })))) := by
  have hport : bitsOf (s.rtEntry m.dst.val) 24 5 = o.val := ho
  change execRoutedMessageReceive p m s = _
  rw [execRoutedMessageReceive, if_neg (ne_false_of_eq_true hup)]
  dsimp only
  rw [if_neg (ne_false_of_eq_true hv), if_neg (Bool.eq_false_iff.mp hl)]
  simp only [hport]
  exact dif_pos o.isLt

/-- A message ends here, or goes on; either way the packets of the receive buffers stay. -/
theorem routedMessage_judged : ∃ t, exec (.routedMessageReceive p m) s = .next t ∧
    (bitOf (s.rtEntry m.dst.val) 31 = false ∨ bitOf (s.rtEntry m.dst.val) 30 = true →
      t = { s with regs := t.regs, fab := t.fab } ∧ t.fab.ports = s.fab.ports) ∧
    routeJudged s t p m.dst.val m.src.val m.gen (routedFlits m).length := by
  cases hv : bitOf (s.rtEntry m.dst.val) 31 with
  | false =>
    exact ⟨_, exec_routedMessageReceive_of_not_valid hup m hv, fun _ => ⟨State.setFld_frame (State.setFld_frame rfl _ _) _ _, rfl⟩,
      routeJudged_noRoute p hv rfl⟩
  | true =>
    cases hl : bitOf (s.rtEntry m.dst.val) 30 with
    | false =>
      have hjudged : ∀ t, routeJudged s t p m.dst.val m.src.val m.gen (routedFlits m).length := fun t =>
        ⟨fun h => absurd (hv.symm.trans h) nofun, fun _ h => absurd (hl.symm.trans h) nofun⟩
      have hdone : ∃ t, exec (.routedMessageReceive p m) s = .next t := by
        by_cases ho : s.rtEntry m.dst.val / 2 ^ 24 % 32 < 24
        · exact ⟨_, exec_routedMessageReceive_of_port hup m hv hl ⟨_, ho⟩ rfl⟩
        · refine ⟨s.noRoute p, ?_⟩
          change execRoutedMessageReceive p m s = _
          rw [execRoutedMessageReceive, if_neg (ne_false_of_eq_true hup)]
          dsimp only
          rw [if_neg (ne_false_of_eq_true hv), if_neg (Bool.eq_false_iff.mp hl)]
          exact dif_neg ho
      obtain ⟨t, ht⟩ := hdone
      exact ⟨t, ht, fun h => absurd h (by simp), hjudged t⟩
    | true =>
      obtain ⟨l, hexec⟩ := exec_routedMessageReceive_of_local hup m hv hl
      refine ⟨_, hexec, fun _ => ?_, routeJudged_judged p hv fun hr => by rw [if_neg (Bool.eq_false_iff.mp hr)]; rfl⟩
      split
      · exact ⟨State.withAwaiting_frame (State.setFld_frame rfl _ _) l, rfl⟩
      · refine ⟨State.withAwaiting_frame (State.judged_frame _ _ _ _ _) l, ?_⟩
        rw [State.judged_frame]
        rfl

end

/-! ### A packet that goes on, and one whose entry is lost (R165, R460) -/

section

variable (s : State) (p : Fin 24) (k : VolPacket)

/-- The flits of a packet as they wait on its output port. -/
def State.volItems (s : State) (p : Fin 24) (k : VolPacket) : List Queued :=
  (volFlits k (k.hi || bitOf (s.rtEntry k.dst.val) 29)).map (fun b => { flit := .vol b, slot := s.slot, src := p.val, inPair := bufOf k })

theorem State.volArrived_of_out {o : Fin 24} (h : s.wayTo k.dst.val k.path.toNat = .out o) :
    s.volArrived p k = s.setPort o { s.fport o with volQ := (s.fport o).volQ ++ s.volItems p k } := by
  rw [State.volArrived, h]
  rfl

/-- What a routing entry that is lost leaves: the entry is cleared, and an uncorrectable table error is shown. -/
theorem State.routeUe_leaves (d : Nat) :
    ({ s with fab := { s.fab with rt := smSet (fun _ => (0 : BitVec 32)) s.fab.rt d 0 } } : State).eventLeaves (s.routeUe d) ∧
      (s.routeUe d).flag fLOG_ERR_DEV_UE = true := State.devUe_leaves _ blkFAB 0 d

theorem State.fab_routeUe (d : Nat) : (s.routeUe d).fab = { s.fab with rt := smSet (fun _ => (0 : BitVec 32)) s.fab.rt d 0 } :=
  (congrArg State.fab (s.routeUe_leaves d).1.1 :)

theorem State.rtEntry_routeUe_same (d : Nat) : (s.routeUe d).rtEntry d = 0 := by
  rw [State.rtEntry, State.fab_routeUe, smGet_smSet_same]
  rfl

theorem State.rtEntry_routeUe_other {c d : Nat} (h : c ≠ d) : (s.routeUe d).rtEntry c = s.rtEntry c := by
  rw [State.rtEntry, State.fab_routeUe, smGet_smSet_other _ _ _ _ _ h, State.rtEntry]

theorem State.portUp_routeUe (d : Nat) : (s.routeUe d).portUp p = s.portUp p := by
  have hreg := (s.routeUe_leaves d).1.2 (fFAB_PORT_STATUS_STATE p.val).off (show 0x301004 + 64 * p.val < 0x800000 by omega)
  rw [State.portUp, State.portState, State.fld_of_sameReg hreg]
  rfl

/-- A packet whose entry is lost has no route. -/
theorem volunteerPacket_ue (hup : s.portUp p = true) :
    ∃ t, exec (.volunteerPacketReceive p k .ue) s = .next t ∧ t.rtEntry k.dst.val = 0 ∧ t.flag fLOG_ERR_DEV_UE = true ∧
      t.flag fFAB_ERR_NO_ROUTE = true ∧ freedBuf s t p (bufOf k) (volFlits k k.hi).length ∧
      (∀ d, d ≠ k.dst.val → t.rtEntry d = s.rtEntry d) := by
  have hexec := exec_volunteerPacketReceive (k := k) (tab := .ue) hup rfl ((s.portUp_routeUe p k.dst.val).trans hup)
  have hzero := s.rtEntry_routeUe_same k.dst.val
  have hother := fun d => s.rtEntry_routeUe_other (c := d) (d := k.dst.val)
  have hports : (s.routeUe k.dst.val).fab.ports = s.fab.ports := by rw [State.fab_routeUe]
  have herr := (s.routeUe_leaves k.dst.val).2
  change exec _ s = .next ((s.routeUe k.dst.val).volArrived p k) at hexec
  generalize s.routeUe k.dst.val = u at *
  rw [State.volArrived_of_not_valid p k (by rw [hzero]; rfl)] at hexec
  refine ⟨_, hexec, hzero, ?_, (discard_noRoute _ p).2.1, freedBuf_of_ports ?_, hother⟩
  · rw [State.noRoute, State.raise, State.flag_setFld_off _ _ (by decide), State.discardFlit, State.count, State.flag_setFld_off]
    · exact herr
    · change 0x1000008 ≠ 0x301020 + 64 * p.val
      omega
  · have hport : u.fport p = s.fport p := congrArg (fun l : Vector FabPort 24 => l[p]) hports
    rw [State.freeBuf_port]
    change u.fab.ports.set p _ = s.fab.ports.set p _
    rw [hports, hport]

end

/-! ### A GEN notice (R178) -/

/-- What is kept of another device's notices is kept where those of one are forgotten. -/
theorem alook_filter_key {κ α : Type} [DecidableEq κ] {f : κ × α → Bool} {k : κ} (m : List (κ × α)) (h : ∀ v, f (k, v) = true) :
    alook k (m.filter f) = alook k m := by
  induction m with
  | nil => rfl
  | cons e r ih =>
    obtain ⟨a, v⟩ := e
    by_cases ha : a = k
    · subst ha
      rw [List.filter_cons_of_pos (h v), alook, alook, if_pos rfl, if_pos rfl]
    · cases hf : f (a, v) with
      | false => rw [List.filter_cons_of_neg (by simp [hf]), ih, alook, if_neg ha]
      | true => rw [List.filter_cons_of_pos hf, alook, alook, if_neg ha, if_neg ha, ih]

theorem alook_filter_none {κ α : Type} [DecidableEq κ] {f : κ × α → Bool} {k : κ} (m : List (κ × α)) (h : ∀ v, f (k, v) = false) :
    alook k (m.filter f) = none := by
  induction m with
  | nil => rfl
  | cons e r ih =>
    obtain ⟨a, v⟩ := e
    by_cases ha : a = k
    · subst ha
      rw [List.filter_cons_of_neg (by simp [h v]), ih]
    · cases hf : f (a, v) with
      | false => rw [List.filter_cons_of_neg (by simp [hf]), ih]
      | true => rw [List.filter_cons_of_pos hf, alook, if_neg ha, ih]

theorem exec_genNoticeRx_known {s : State} (p : Fin 24) {n : Notice} (hk : s.flag (fFAB_GEN_KNOWN n.origin.val) = true)
    (hg : s.fld (fFAB_GEN_GEN n.origin.val) = n.gen.toNat) : exec (.genNoticeRx p n) s = .next s := by
  have hlearn : s.learnGen? p n = none := by
    rw [State.learnGen?]
    exact if_pos (.inr ⟨hk, hg⟩)
  change execGenNoticeRx p n s = _
  rw [execGenNoticeRx, hlearn]

/-- The origin's entry takes the generation, its notice numbers and its replies are forgotten. -/
def State.genKept (s : State) (n : Notice) : State :=
  { s.learned n.origin.val n.gen with
    sch := { s.sch with seenNum := s.sch.seenNum.filter (fun e => decide (e.1.1 ≠ n.origin.val)) }
    fab := { s.fab with awaiting := s.fab.awaiting.filter (fun d => decide (d ≠ n.origin.val)) } }

/-- Messages that await a reply of the origin end. -/
def State.genEnds (s : State) (n : Notice) : State :=
  (s.fab.awaiting.filter (fun d => decide (d = n.origin.val))).foldl (fun t d => t.emit (.routedEnd d .targetReset)) (s.genKept n)

theorem exec_genNoticeRx_new {s : State} {p : Fin 24} {n : Notice} (hv : s.portV3 p.val = true)
    (h : s.flag (fFAB_GEN_KNOWN n.origin.val) = false ∨ s.fld (fFAB_GEN_GEN n.origin.val) ≠ n.gen.toNat) :
    exec (.genNoticeRx p n) s = .next (((s.genEnds n).flood 4 n (some p) (s.slot + 2)).failTo n.origin.val) := by
  have hlearn : s.learnGen? p n = some ((s.genEnds n).flood 4 n (some p) (s.slot + 2)) := by
    rw [State.learnGen?]
    refine if_neg ?_
    rintro (hlow | ⟨hk, hg⟩)
    · exact ne_false_of_eq_true hv hlow
    · exact h.elim (ne_false_of_eq_true hk) (absurd hg)
  change execGenNoticeRx p n s = _
  rw [execGenNoticeRx, hlearn]

theorem State.genEnds_frame (s : State) (n : Notice) : s.genEnds n = { s.genKept n with out := (s.genEnds n).out } := by
  unfold State.genEnds
  generalize s.fab.awaiting.filter (fun d => decide (d = n.origin.val)) = l
  generalize s.genKept n = t
  induction l generalizing t with
  | nil => rfl
  | cons d r ih => exact (ih (t.emit (.routedEnd d .targetReset))).trans rfl

/-- The notice floods on. -/
def State.genFlooded (s : State) (p : Fin 24) (n : Notice) : State := (s.genEnds n).flood 4 n (some p) (s.slot + 2)

section

variable (s : State) (p : Fin 24) (n : Notice)

theorem State.genFlooded_frame :
    s.genFlooded p n = { s.genEnds n with fab := { (s.genEnds n).fab with ports := (s.genFlooded p n).fab.ports } } :=
  (State.flood_leaves 4 n (some p) (s.slot + 2) (s.genEnds n)).1

theorem State.regs_genEnds : (s.genEnds n).regs = (s.learned n.origin.val n.gen).regs := (congrArg State.regs (s.genEnds_frame n) :)

theorem State.regs_genFlooded : (s.genFlooded p n).regs = (s.learned n.origin.val n.gen).regs :=
  (congrArg State.regs (s.genFlooded_frame p n) :).trans (s.regs_genEnds n)

theorem State.pavs_genKept : (s.genKept n).pavs = s.pavs := by
  simp only [State.genKept, State.learned, State.setFld_pavs, State.raise_pavs]

theorem State.pavs_genFlooded : (s.genFlooded p n).pavs = s.pavs := by
  rw [State.genFlooded_frame, State.genEnds_frame]
  dsimp only
  rw [State.pavs_genKept]

theorem State.seenNum_genFlooded : (s.genFlooded p n).sch.seenNum = s.sch.seenNum.filter (fun e => decide (e.1.1 ≠ n.origin.val)) := by
  rw [State.genFlooded_frame, State.genEnds_frame]
  rfl

theorem State.ports_genFlooded (q : Fin 24) : (s.genFlooded p n).fab.ports[q] = s.fab.ports[q].queued
    (if s.portV3 q.val = true ∧ q ≠ p then [{ flit := .ctrl (.notice 4 n), slot := s.slot + 2 }] else []) := by
  have hfab : (s.genEnds n).fab = (s.genKept n).fab := (congrArg State.fab (s.genEnds_frame n) :)
  have hfar : ∀ f : Fld, f.off < 0x320000 → (s.genEnds n).fld f = s.fld f := fun f hf =>
    State.fld_of_sameReg ((State.reg_congr (s.regs_genEnds n) _).trans (s.sameRegsBut_learned n.origin.val n.gen _
      (List.mem_singleton.not.mpr (show f.off ≠ 0x320000 + 4 * n.origin.val by omega))))
  have hv3 : (s.genEnds n).portV3 q.val = s.portV3 q.val := by
    have hstatus : 0x301004 + 64 * q.val < 0x320000 := by omega
    rw [State.portV3, State.portV3, State.portState, State.portState, hfar _ hstatus, hfar _ hstatus]
  have hport := (State.flood_leaves 4 n (some p) (s.slot + 2) (s.genEnds n)).2 q
  rw [State.floodItems, hv3, hfab] at hport
  refine hport.trans (congrArg (s.fab.ports[q].queued ·) (if_congr ?_ rfl rfl))
  exact ⟨fun ⟨_, hv, hne⟩ => ⟨hv, fun he => hne (he ▸ rfl)⟩,
    fun ⟨hv, hne⟩ => ⟨List.mem_finRange q, hv, fun he => hne (Option.some.inj he).symm⟩⟩

/-- A GEN notice that is new is learned, floods on, and ends what is held to its origin. -/
theorem genNotice_new {t : State} (ht : (s.genFlooded p n).failTo n.origin.val = t) :
    t.flag (fFAB_GEN_KNOWN n.origin.val) = true ∧ t.fld (fFAB_GEN_GEN n.origin.val) = n.gen.toNat ∧ t.pavs = s.pavs ∧
      (∀ kind, alook (n.origin.val, kind) t.sch.seenNum = none) ∧
      (∀ d kind, d ≠ n.origin.val → alook (d, kind) t.sch.seenNum = alook (d, kind) s.sch.seenNum) ∧
      ∀ q : Fin 24, t.fab.ports[q] = s.fab.ports[q].queued
        (if s.portV3 q.val = true ∧ q ≠ p then [{ flit := .ctrl (.notice 4 n), slot := s.slot + 2 }] else []) := by
  have hfail := State.endLeaves_failTo (s.genFlooded p n) n.origin.val
  have hregs := s.regs_genFlooded p n
  have hpavs := s.pavs_genFlooded p n
  have hseen := s.seenNum_genFlooded p n
  have hports := s.ports_genFlooded p n
  rw [ht] at hfail
  generalize s.genFlooded p n = u at *
  obtain ⟨hframe, hbelow⟩ := hfail
  have htsch : t.sch = u.sch := (congrArg State.sch hframe :)
  have htpavs : t.pavs = u.pavs := (congrArg State.pavs hframe :)
  have htfab : t.fab = u.fab := (congrArg State.fab hframe :)
  have hgen : t.reg (rFAB_GEN n.origin.val) = (s.learned n.origin.val n.gen).reg (rFAB_GEN n.origin.val) :=
    (hbelow _ (show 0x320000 + 4 * n.origin.val < 0x800000 by omega)).trans (State.reg_congr hregs _)
  refine ⟨?_, ?_, htpavs.trans hpavs, fun kind => ?_, fun d kind hd => ?_, fun q => ?_⟩
  · rw [State.flag_of_sameReg hgen]
    exact s.known_learned _ _
  · rw [State.fld_of_sameReg hgen]
    exact s.gen_learned _ _
  · rw [htsch, hseen]
    exact alook_filter_none _ fun _ => by simp
  · rw [htsch, hseen]
    exact alook_filter_key _ fun _ => by simpa using hd
  · rw [htfab]
    exact hports q

end

/-- Settles O29: packets and messages by the way of their entry and the generation of their source, and GEN notices. -/
theorem routing : Obligations.Routing := by
  unfold Obligations.Routing
  intro s p k m n hup
  have hok : exec (.volunteerPacketReceive p k .ok) s = .next (s.volArrived p k) := exec_volunteerPacketReceive hup rfl hup
  refine ⟨fun c hc => ?_, fun hv hl o ho => ?_, fun hv hl o ho => ?_, volunteerPacket_ue s p k hup, fun hv3 => ⟨fun hk hg => ?_, fun h => ?_⟩⟩
  · rcases List.mem_cons.mp hc with rfl | hc
    · exact ⟨_, hok, State.volArrived_frees p k, routeJudged_volArrived p k⟩
    · obtain rfl := List.mem_singleton.mp hc
      obtain ⟨t, hexec, hends, hjudged⟩ := routedMessage_judged hup m
      exact ⟨t, hexec, fun h => ⟨(hends h).1, freedBuf_none (hends h).2⟩, hjudged⟩
  · rw [State.volArrived_of_out s p k (State.wayTo_of_mask hv hl ho)] at hok
    exact ⟨_, hok, onlyPorts_setPort s (List.mem_singleton_self o) _, rfl, State.fport_setPort_same _ _ _⟩
  · exact ⟨_, exec_routedMessageReceive_of_port hup m hv hl o ho, onlyPorts_setPort s (List.mem_singleton_self o) _, rfl,
      State.fport_setPort_same _ _ _⟩
  · exact exec_genNoticeRx_known p hk hg
  · exact ⟨_, exec_genNoticeRx_new hv3 h, genNotice_new s p n rfl⟩

end Sys2Proof.Machine
end

section
/-! PROOF. Sown flits at the receiver (R159 to R163, R496), of the family 06_fabric_links. -/

namespace Sys2Proof.Machine

open Sys2Proof

/-! ### The elastic buffer lets a flit go (R159) -/

/-- The elastic buffer of a port holds the flits `l`. -/
def State.withElastic (s : State) (p : Fin 24) (l : List Elastic) : State := s.setPort p { s.fport p with elastic := l }

theorem exec_flitRelease {s : State} {p : Fin 24} {e : Elastic} {l : List Elastic} (ecc : EccOutcome) (hl : (s.fport p).elastic = e :: l)
    (ht : 8 * e.slot ≤ s.sch.tb.toNat) : exec (.flitRelease p ecc .ok) s = .next ((s.withElastic p l).handleFlit p e ecc) := by
  change execFlitRelease p ecc .ok s = _
  rw [execFlitRelease, hl]
  dsimp only
  rw [State.atTb_of_reached ht]
  simp only [State.tableRead, ite_self]
  rfl

/-! ### Held flits (R156) -/

/-- Nothing is released where nothing is held. -/
theorem State.releaseHeld_of_none {s : State} {p : Fin 24} (h : (s.fport p).holdRx = []) : s.releaseHeld p = s := by
  have hsame : ({ s.fport p with holdRx := [] } : FabPort) = s.fport p := by rw [← h]
  rw [State.releaseHeld, h]
  dsimp only [List.filter_nil, sortBy, List.foldl_nil]
  rw [hsame, State.setPort_fport]

/-- What is released may be counted as discarded, and is held no more. -/
theorem State.releaseHeld_frame (s : State) (p : Fin 24) :
    s.releaseHeld p = { s with regs := (s.releaseHeld p).regs, fab := (s.releaseHeld p).fab } := by
  have hpass : ∀ (t : State) (q : Nat × List Byte), t.passFlit p q.2 = { t with regs := (t.passFlit p q.2).regs } := fun t q => by
    unfold State.passFlit
    dsimp only
    split
    · exact State.setFld_frame rfl _ _
    · rfl
  unfold State.releaseHeld
  dsimp only
  rw [State.foldl_regs_frame hpass]
  rfl

section

variable {s : State} {p : Fin 24} {e : Elastic}

/-- A sown flit that was not missing is judged as it leaves. -/
theorem State.handleFlit_of_sown {b : List Byte} (ecc : EccOutcome) (hb : e.bytes = some b) (hc : (parseHdr b).cls = 1) (hm : e.miss = none) :
    s.handleFlit p e ecc = (s.sownRelease p e b ecc).releaseHeld p := by
  rw [State.handleFlit, hb]
  dsimp only
  rw [hm, if_pos hc]
  rfl

/-! ### The ways of a sown flit (R159 to R162, R496) -/

theorem State.sownRelease_of_closed {b : List Byte} (ecc : EccOutcome) (hs : s.slice? = none) : s.sownRelease p e b ecc = s.discardFlit p := by
  unfold State.sownRelease
  rw [hs]
  split <;> rfl

section

variable {b : List Byte} (ecc : EccOutcome) {k : List Run × Nat × Nat} (hv : s.fld (fFAB_PORT_STATUS_VERSION p.val) = 3)
  (hok : s.sownOk p = true) (hs : s.slice? = some k) (hm : e.miss = none) (ho : k.2.1 ≤ e.slot - (s.fport p).dsOn)

include hv hok hs hm ho

theorem State.sownRelease_of_transit {q j : Nat} (hq : q < 24)
    (hd : dealTo s.transit.1 p.val s.transit.2 e.slot e.pos = some (q, j)) : s.sownRelease p e b ecc =
      s.setPort ⟨q, hq⟩ { s.fport ⟨q, hq⟩ with fwd := (s.fport ⟨q, hq⟩).fwd ++ [(e.slot + 2, j, b)] } := by
  rw [State.sownRelease, if_neg (by simp [hv, hok]), hs, hm]
  dsimp only
  rw [if_neg (by omega), hd]
  exact dif_pos hq

theorem State.sownRelease_of_local (hd : dealTo s.transit.1 p.val s.transit.2 e.slot e.pos = none) :
    s.sownRelease p e b ecc = s.localFlit p b ecc := by
  rw [State.sownRelease, if_neg (by simp [hv, hok]), hs, hm]
  dsimp only
  rw [if_neg (by omega), hd]

end

end

/-! ### A local flit (R162) -/

theorem State.localFlit_of_misrouted {s : State} (p : Fin 24) {b : List Byte} (ecc : EccOutcome) (hr : s.fab.resetting = false)
    (h : (parseHdr b).dst ≠ s.devNum ∨ (parseHdr b).op = 3) : s.localFlit p b ecc = s.misroute := by
  rw [State.localFlit]
  dsimp only
  rw [if_neg (Bool.eq_false_iff.mp hr), if_pos (h.elim .inl fun h3 => .inr (.inr (.inr (.inr (.inl h3)))))]

/-- A local flit that is written at once lands, and completes for its target. -/
theorem State.localFlit_of_written {s : State} (p : Fin 24) {b : List Byte} {r : Region} (hr : s.fab.resetting = false)
    (hdst : (parseHdr b).dst = s.devNum) (hop : (parseHdr b).op = 0) (hlo : 1 ≤ (parseHdr b).plen) (hhi : (parseHdr b).plen ≤ 19)
    (hreg : s.region? (parseHdr b).addr (16 * (parseHdr b).plen) = some r)
    (hacc : s.accessSt (parseHdr b).addr (16 * (parseHdr b).plen) = .ok)
    (hheld : s.writeHeld (parseHdr b).addr ((b.drop 12).take (16 * (parseHdr b).plen)).length (.port p) = false) :
    s.localFlit p b .ok =
      (s.land (parseHdr b).addr ((b.drop 12).take (16 * (parseHdr b).plen)) (.port p)).complete p (parseHdr b) := by
  rw [← State.devWrite_of_not_held (sown := true) hheld, State.localFlit]
  dsimp only
  rw [if_neg (Bool.eq_false_iff.mp hr)]
  refine (if_neg ?_).trans ?_
  · rintro (h | h | h | h | h | ⟨h, -⟩ | ⟨h, -⟩)
    · exact h hdst
    · omega
    · omega
    · rw [hreg] at h
      exact absurd h nofun
    · omega
    · exact h hop
    · omega
  · rw [if_neg (not_not.mpr hacc), if_neg (fun h => absurd h.2 nofun), if_pos hop]
    simp only [State.eccAt, ite_self]

/-! ### The completion of a stream (R163) -/

/-- A semaphore's ADD of +1 is that of the signal target that names it (R99). -/
theorem State.semAdd_eq_signalTarget (s : State) {l m : Nat} (hl : l < 128) (hm : m < 64) :
    s.semAdd l (Fin.ofNat 64 m) 1 = s.signalTarget (BitVec.ofNat 16 (64 * l + m)) := by
  have hval : (BitVec.ofNat 16 (64 * l + m)).toNat = 64 * l + m := by
    rw [BitVec.toNat_ofNat]
    omega
  have hsem : Fin.ofNat 64 (64 * l + m) = Fin.ofNat 64 m := Fin.ext (by simp only [Fin.val_ofNat]; omega)
  have hpav : bitsOf (64 * l + m) 6 7 = l := by
    rw [bitsOf]
    omega
  rw [State.signalTarget, hval, hsem, hpav]

theorem State.metNow_frame (s : State) : s.metNow = { s with sch := s.metNow.sch } := by
  unfold State.metNow
  split <;> rfl

/-- The ADD of a semaphore and its moment do not depend on what the checkpoint unit holds. -/
theorem State.semAdd_metNow_setCkp (s : State) (f : Ckp → Ckp) (l : Nat) (m : Fin 64) (a : BitVec 16) :
    ((s.setCkp f).semAdd l m a).metNow = (s.semAdd l m a).metNow.setCkp f := by
  have hadd : (s.setCkp f).semAdd l m a = (s.semAdd l m a).setCkp f := by
    have hphys : (s.setCkp f).phys? l = s.phys? l := rfl
    rw [State.semAdd, State.semAdd, hphys]
    cases s.phys? l with
    | none => rfl
    | some q =>
      dsimp only
      rw [show (s.setCkp f).pav q = s.pav q from rfl]
      split <;> rfl
  rw [hadd]
  unfold State.metNow
  rw [show ((s.semAdd l m a).setCkp f).sch = (s.semAdd l m a).sch from rfl]
  split <;> rfl

theorem State.ckp_semAdd (s : State) (l : Nat) (m : Fin 64) (a : BitVec 16) : (s.semAdd l m a).ckp = s.ckp := by
  unfold State.semAdd
  split
  · rfl
  · dsimp only
    split <;> rfl

/-- With no ADD and no write held, the ADD of a port reaches its semaphore at once. -/
theorem State.portAdd_of_none_held {s : State} (hw : s.ckp.held = []) (ha : s.ckp.adds = []) (p : Fin 24) (l : Nat) (m : Fin 64) (all : Bool) :
    s.portAdd p l m all = (s.semAdd l m 1).metNow := by
  have hckp : ∀ u : State, u.ckp = s.ckp → ∀ x, (u.setCkp (fun k => { k with adds := x })).setCkp (fun k => { k with adds := [] }) = u :=
    fun u hu x => by
      have hsame : ({ u.ckp with adds := [] } : Ckp) = u.ckp := by rw [← ha, ← hu]
      exact congrArg (fun k : Ckp => ({ u with ckp := k } : State)) hsame
  have hmet : (s.semAdd l m 1).metNow.ckp = s.ckp := by
    rw [State.metNow_frame]
    exact s.ckp_semAdd l m 1
  rw [State.portAdd, hw, ha]
  simp only [List.filter_nil, List.nil_append, State.addsGo, List.any_nil, Bool.or_false, Bool.false_eq_true, if_false]
  rw [State.semAdd_metNow_setCkp]
  exact hckp _ hmet _

/-- From `s` to `t` there is at most what a local flit leaves. -/
def State.localLeaves (s t : State) : Prop :=
  t = { s with mem := t.mem, scratch := t.scratch, pavs := t.pavs, regs := t.regs, fab := t.fab, sch := t.sch, log := t.log,
               out := t.out, que := t.que, hif := t.hif }

theorem State.localLeaves.trans {s t u : State} (h : s.localLeaves t) (k : t.localLeaves u) : s.localLeaves u :=
  Eq.trans k (congrArg (fun x : State =>
    { x with
      mem := u.mem, scratch := u.scratch, pavs := u.pavs, regs := u.regs, fab := u.fab, sch := u.sch, log := u.log, out := u.out
      que := u.que, hif := u.hif }) h)

theorem State.localLeaves_fault (s : State) (cause : Nat) : s.localLeaves (s.fault cause) := by
  obtain ⟨hframe, -⟩ := s.faultLeaves_fault cause
  unfold State.localLeaves
  generalize s.fault cause = t at *
  rw [hframe]

/-- The ADD of a completed stream and its moment. -/
theorem State.signal_leaves (s : State) (sig : BitVec 16) : (s.signalTarget sig).metNow = { s with
      pavs := (s.signalTarget sig).pavs, regs := (s.signalTarget sig).regs, sch := (s.signalTarget sig).metNow.sch } ∧
    s.sameMemory (s.signalTarget sig).metNow := by
  obtain ⟨hframe, hmem⟩ := s.signalTarget_leaves sig
  rw [State.metNow_frame]
  generalize (s.signalTarget sig).metNow.sch = x
  generalize s.signalTarget sig = t at *
  refine ⟨?_, hmem⟩
  rw [hframe]

/-- The completion entries are others. -/
def State.withComps (s : State) (l : List (Nat × Comp)) : State := { s with fab := { s.fab with comps := l } }

theorem State.sameMemory_withComps (s : State) (l : List (Nat × Comp)) : s.sameMemory (s.withComps l) := ⟨rfl, rfl, rfl, fun _ _ => rfl⟩

/-- The key of the completion entry of a flit's target. -/
def Hdr.key (h : Hdr) : Nat := 64 * h.lpav + h.sem

section

variable (s : State) (p : Fin 24) (h : Hdr)

/-- What the completion of a flit's target can do: nothing after a clash, a clash, the ADD of a stream that is complete, or the entry of
one that is not (R163, R164). -/
theorem State.complete_cases {P : State → Prop} (hnone : P s)
    (hclash : ∀ x, P (((s.withComps (aput h.key x s.fab.comps)).raise fFAB_ERR_CLASH).fault 3))
    (hdone : P ((s.withComps (adel h.key s.fab.comps)).portAdd p h.lpav (Fin.ofNat 64 h.sem) h.scope))
    (hpart : ∀ x, P (s.withComps (aput h.key x s.fab.comps))) : P (s.complete p h) := by
  unfold State.complete
  extract_lets key n c twice first last sum put beyond
  clear_value beyond twice first last
  split
  · exact hnone
  · split
    · exact hclash _
    · split
      · split
        · exact hdone
        · exact hpart _
      · exact hpart _

/-- A stream of one flit is complete with it. -/
theorem State.complete_of_whole (hf : h.first = true) (hl : h.last = true) (hc : alook h.key s.fab.comps = none) :
    s.complete p h = (s.withComps (adel h.key s.fab.comps)).portAdd p h.lpav (Fin.ofNat 64 h.sem) h.scope := by
  rw [Hdr.key] at hc
  simp [State.complete, hc, hf, hl, State.withComps, Hdr.key]

/-- The first flit of a longer stream opens its entry. -/
theorem State.complete_of_first (hf : h.first = true) (hl : h.last = false) (hc : alook h.key s.fab.comps = none) :
    s.complete p h = s.withComps (aput h.key { first := some h.addr, last := none, sum := 16 * h.plen, scope := h.scope, clash := false }
      s.fab.comps) := by
  rw [Hdr.key] at hc
  simp [State.complete, hc, hf, hl, State.withComps, Hdr.key]

end

theorem adel_of_none {κ α : Type} [DecidableEq κ] {k : κ} {m : List (κ × α)} (h : alook k m = none) : adel k m = m := by
  refine List.filter_eq_self.mpr fun e he => decide_eq_true fun hk => ?_
  induction m with
  | nil => exact absurd he List.not_mem_nil
  | cons a r ih =>
    by_cases ha : a.1 = k
    · rw [alook, if_pos ha] at h
      exact absurd h nofun
    · rw [alook, if_neg ha] at h
      rcases List.mem_cons.mp he with rfl | he
      · exact ha hk
      · exact ih h he

section

variable {s : State} (hw : s.ckp.held = []) (ha : s.ckp.adds = []) (p : Fin 24) {h : Hdr} (hpav : h.lpav < 128) (hsem : h.sem < 64)

/-- The signal target of a flit. -/
def Hdr.target (h : Hdr) : BitVec 16 := BitVec.ofNat 16 (64 * h.lpav + h.sem)

include hw ha hpav hsem

theorem State.portAdd_eq_signal (all : Bool) :
    s.portAdd p h.lpav (Fin.ofNat 64 h.sem) all = (s.signalTarget h.target).metNow := by
  rw [State.portAdd_of_none_held hw ha, State.semAdd_eq_signalTarget _ hpav hsem, Hdr.target]

/-- Whatever the completion of a flit's target finds. -/
theorem State.complete_leaves : s.localLeaves (s.complete p h) := by
  refine State.complete_cases s p h rfl (fun x => ?_) ?_ fun x => rfl
  · have hraise : s.localLeaves ((s.withComps (aput h.key x s.fab.comps)).raise fFAB_ERR_CLASH) := rfl
    exact hraise.trans (State.localLeaves_fault _ 3)
  · have hcomps : s.localLeaves (s.withComps (adel h.key s.fab.comps)) := rfl
    rw [State.portAdd_eq_signal (s := s.withComps (adel h.key s.fab.comps)) hw ha p hpav hsem]
    refine hcomps.trans ?_
    unfold State.localLeaves
    rw [(State.signal_leaves _ _).1]

/-- A stream of one flit signals its target (R163). -/
theorem State.complete_whole (hf : h.first = true) (hl : h.last = true) (hc : alook h.key s.fab.comps = none) :
    s.complete p h = (s.signalTarget h.target).metNow := by
  rw [State.complete_of_whole s p h hf hl hc, adel_of_none hc]
  exact State.portAdd_eq_signal hw ha p hpav hsem _

end

theorem parseHdr_lpav_lt (b : List Byte) : (parseHdr b).lpav < 128 := bitsOf_lt _ 41 7

theorem parseHdr_sem_lt (b : List Byte) : (parseHdr b).sem < 64 := bitsOf_lt _ 35 6

/-! ### A sown flit arrives -/

section

variable (s : State) (p : Fin 24) (l : List Elastic)

theorem State.fport_withElastic : (s.withElastic p l).fport p = { s.fport p with elastic := l } := State.fport_setPort_same _ _ _

theorem State.fport_withElastic_other {q : Fin 24} (h : q ≠ p) : (s.withElastic p l).fport q = s.fport q :=
  State.fport_setPort_other _ _ h

theorem State.transit_withElastic : (s.withElastic p l).transit = s.transit := rfl

theorem onlyPorts_withElastic {r : List (Fin 24)} (h : p ∈ r) : onlyPorts s (s.withElastic p l) r := onlyPorts_setPort s h _

/-- What a flit that is discarded leaves. -/
theorem discardFlit_withElastic : onlyPorts s ((s.withElastic p l).discardFlit p) [p] ∧
    ((s.withElastic p l).discardFlit p).fport p = { s.fport p with elastic := l } ∧
    s.sameRegsBut ((s.withElastic p l).discardFlit p) [fFAB_DISCARD_COUNT p.val |>.off] ∧
    (s.fld (fFAB_DISCARD_COUNT p.val) + 1 < 2 ^ 64 →
      ((s.withElastic p l).discardFlit p).fld (fFAB_DISCARD_COUNT p.val) = s.fld (fFAB_DISCARD_COUNT p.val) + 1) :=
  ⟨onlyPorts_trans (onlyPorts_withElastic s p l (List.mem_singleton_self p)) (onlyPorts_setFld _ _ _ _), s.fport_withElastic p l,
    (s.withElastic p l).sameRegsBut_setFld _ _, State.fld_count_one (s.withElastic p l) rfl rfl⟩

/-- What a flit that is turned away leaves. -/
theorem misroute_withElastic : onlyPorts s (s.withElastic p l).misroute [p] ∧
    (s.withElastic p l).misroute.fport p = { s.fport p with elastic := l } ∧
    s.sameRegsBut (s.withElastic p l).misroute [fFAB_MISROUTE_COUNT.off, fFAB_ERR_MISROUTE.off] ∧
    (s.withElastic p l).misroute.fld fFAB_MISROUTE_COUNT = min (s.fld fFAB_MISROUTE_COUNT + 1) (2 ^ 32 - 1) ∧
    (s.withElastic p l).misroute.flag fFAB_ERR_MISROUTE = true := by
  refine ⟨?_, s.fport_withElastic p l, fun o ho => ?_, ?_, State.flag_raise_same _ rfl (by decide)⟩
  · exact onlyPorts_trans (onlyPorts_withElastic s p l (List.mem_singleton_self p))
      (onlyPorts_trans (onlyPorts_setFld _ _ _ _) (onlyPorts_setFld _ _ _ _))
  · have herr := List.ne_of_not_mem_cons (List.not_mem_of_not_mem_cons ho)
    rw [State.misroute, State.raise, State.reg_setFld_other _ _ _ _ herr, State.count,
      State.reg_setFld_other _ _ _ _ (List.ne_of_not_mem_cons ho)]
    rfl
  · rw [State.misroute, State.raise, State.fld_setFld_off _ _ _ _ (by decide)]
    exact State.fld_count_same _ fFAB_MISROUTE_COUNT 1 (by decide)

end

section

variable {s : State} {p : Fin 24} {e : Elastic} {l : List Elastic} {b : List Byte} (hh : (s.fport p).holdRx = [])

include hh

theorem State.releaseHeld_withElastic {t : State} (ht : t.fport p = { s.fport p with elastic := l }) : t.releaseHeld p = t :=
  State.releaseHeld_of_none (by rw [ht]; exact hh)

/-- A flit dealt to a TRANSIT run of another port waits there for its slot. -/
theorem transit_withElastic {q j : Nat} (hq : q < 24) (hne : q ≠ p.val) (x : Nat) :
    let t := (s.withElastic p l).setPort ⟨q, hq⟩ { (s.withElastic p l).fport ⟨q, hq⟩ with
      fwd := ((s.withElastic p l).fport ⟨q, hq⟩).fwd ++ [(x, j, b)] }
    t.releaseHeld p = t ∧ onlyPorts s t [p, Fin.ofNat 24 q] ∧ t.regs = s.regs ∧ t.fport p = { s.fport p with elastic := l } ∧
      t.fport (Fin.ofNat 24 q) = { s.fport (Fin.ofNat 24 q) with fwd := (s.fport (Fin.ofNat 24 q)).fwd ++ [(x, j, b)] } := by
  intro t
  have hval : Fin.ofNat 24 q = ⟨q, hq⟩ := Fin.ext (Nat.mod_eq_of_lt hq)
  have hport : (⟨q, hq⟩ : Fin 24) ≠ p := fun he => hne (congrArg Fin.val he)
  have hp : t.fport p = { s.fport p with elastic := l } :=
    (State.fport_setPort_other _ _ hport.symm).trans (s.fport_withElastic p l)
  rw [hval]
  refine ⟨State.releaseHeld_withElastic hh hp, ?_, rfl, hp, ?_⟩
  · exact onlyPorts_trans (onlyPorts_withElastic s p l List.mem_cons_self) (onlyPorts_setPort _ (by simp) _)
  · rw [State.fport_setPort_same, State.fport_withElastic_other s p l hport]

end

section

variable {s : State} {p : Fin 24} {b : List Byte} {l : List Elastic}

/-- The bytes that a local flit writes. -/
def flitData (b : List Byte) : List Byte := (b.drop 12).take (16 * (parseHdr b).plen)

/-- A local flit is written. -/
def State.flitLanded (s : State) (p : Fin 24) (l : List Elastic) (b : List Byte) : State :=
  (s.withElastic p l).land (parseHdr b).addr (flitData b) (.port p)

theorem length_flitData (hlen : b.length = 316) (hhi : (parseHdr b).plen ≤ 19) : (flitData b).length = 16 * (parseHdr b).plen := by
  rw [flitData, List.length_take, List.length_drop, hlen]
  omega

theorem State.flitLanded_frame (s : State) (p : Fin 24) (l : List Elastic) (b : List Byte) : s.flitLanded p l b =
    { s.withElastic p l with
      mem := ((s.withElastic p l).setBytes (parseHdr b).addr (flitData b)).mem
      scratch := ((s.withElastic p l).setBytes (parseHdr b).addr (flitData b)).scratch
      out := (s.flitLanded p l b).out } := State.land_frame _ _ _ _

theorem State.ckp_flitLanded : (s.flitLanded p l b).ckp = s.ckp := by
  rw [State.flitLanded_frame]
  rfl

theorem State.fab_flitLanded : (s.flitLanded p l b).fab = (s.withElastic p l).fab := by
  rw [State.flitLanded_frame]

theorem State.pavs_flitLanded : (s.flitLanded p l b).pavs = s.pavs := by
  rw [State.flitLanded_frame]
  rfl

theorem State.localLeaves_flitLanded : s.localLeaves (s.flitLanded p l b) := by
  unfold State.localLeaves
  rw [State.flitLanded_frame]
  rfl

theorem State.wrote_flitLanded (hlen : b.length = 316) (hhi : (parseHdr b).plen ≤ 19)
    (hacc : s.accessSt (parseHdr b).addr (16 * (parseHdr b).plen) = .ok)
    (hlog : s.region? (parseHdr b).addr (16 * (parseHdr b).plen) ≠ some .log) :
    s.wrote (s.flitLanded p l b) (parseHdr b).addr (flitData b) := by
  rw [← length_flitData hlen hhi] at hacc hlog
  have hwrote : s.wrote ((s.withElastic p l).setBytes (parseHdr b).addr (flitData b)) (parseHdr b).addr (flitData b) :=
    State.wrote_setBytes (s := s.withElastic p l) (State.writable_of_accessSt hacc hlog)
  refine State.wrote_of_frame hwrote ?_
  rw [State.flitLanded_frame]
  generalize (s.flitLanded p l b).out = x
  rw [State.setBytes_frame]

end

/-! ### A local flit completes -/

section

variable {s : State} {p : Fin 24} {b : List Byte} {l : List Elastic} (hw : s.ckp.held = []) (ha : s.ckp.adds = [])

/-- A local flit has been written and counted for its target. -/
def State.flitDone (s : State) (p : Fin 24) (l : List Elastic) (b : List Byte) : State :=
  (s.flitLanded p l b).complete p (parseHdr b)

include hw ha

theorem State.localLeaves_released : s.localLeaves ((s.flitDone p l b).releaseHeld p) := by
  have hckp : (s.flitLanded p l b).ckp = s.ckp := State.ckp_flitLanded
  have hdone : s.localLeaves (s.flitDone p l b) := State.localLeaves_flitLanded.trans
    (State.complete_leaves (hckp ▸ hw) (hckp ▸ ha) p (parseHdr_lpav_lt b) (parseHdr_sem_lt b))
  refine hdone.trans ?_
  rw [State.releaseHeld_frame]
  rfl

variable (hf : (parseHdr b).first = true) (hc : alook (parseHdr b).key s.fab.comps = none)

include hf hc

theorem State.flitDone_of_whole (hl : (parseHdr b).last = true) :
    s.flitDone p l b = ((s.flitLanded p l b).signalTarget (parseHdr b).target).metNow := by
  have hckp : (s.flitLanded p l b).ckp = s.ckp := State.ckp_flitLanded
  refine State.complete_whole (hckp ▸ hw) (hckp ▸ ha) p (parseHdr_lpav_lt b) (parseHdr_sem_lt b) hf hl ?_
  rw [State.fab_flitLanded]
  exact hc

omit hw ha in
theorem State.flitDone_of_first (hl : (parseHdr b).last = false) :
    s.flitDone p l b = (s.flitLanded p l b).withComps (aput (parseHdr b).key
      { first := some (parseHdr b).addr, last := none, sum := 16 * (parseHdr b).plen, scope := (parseHdr b).scope, clash := false }
      s.fab.comps) := by
  have hcomps : (s.flitLanded p l b).fab.comps = s.fab.comps := by
    rw [State.fab_flitLanded]
    rfl
  rw [← hcomps]
  exact State.complete_of_first _ p _ hf hl (hcomps ▸ hc)

theorem State.flitDone_whole (hh : (s.fport p).holdRx = []) (hl : (parseHdr b).last = true)
    (hwrote : s.wrote (s.flitLanded p l b) (parseHdr b).addr (flitData b)) :
    (s.flitDone p l b).releaseHeld p = s.flitDone p l b ∧
    s.wrote (s.flitDone p l b) (parseHdr b).addr (flitData b) ∧ (s.flitDone p l b).fab.comps = s.fab.comps ∧
    ∀ g, s.phys? (parseHdr b).lpav = some g → ∀ j : Fin 64, (((s.flitDone p l b).pav g).sems[j].toNat : Int) =
      if j.val = (parseHdr b).sem then min 0xFFFFFFFF ((s.pav g).sems[j].toNat + 1) else (s.pav g).sems[j].toNat := by
  have hlpav := parseHdr_lpav_lt b
  have hsemlt := parseHdr_sem_lt b
  have htarget : (parseHdr b).target.toNat = 64 * (parseHdr b).lpav + (parseHdr b).sem := by
    rw [Hdr.target, BitVec.toNat_ofNat]
    omega
  have hsem : (parseHdr b).target.toNat % 64 = (parseHdr b).sem := by omega
  have hpav : bitsOf (parseHdr b).target.toNat 6 7 = (parseHdr b).lpav := by
    rw [bitsOf]
    omega
  have hsame : ∀ g, (s.flitLanded p l b).pav g = s.pav g := fun g => State.pav_land _ _ _ _ g
  rw [State.flitDone_of_whole hw ha hf hc hl]
  obtain ⟨hframe, hmem⟩ := (s.flitLanded p l b).signal_leaves (parseHdr b).target
  have hfab : ((s.flitLanded p l b).signalTarget (parseHdr b).target).metNow.fab = (s.withElastic p l).fab := by
    rw [hframe]
    exact State.fab_flitLanded
  refine ⟨State.releaseHeld_withElastic (l := l) hh ?_, hmem.wrote hwrote, ?_, fun g hg j => ?_⟩
  · rw [State.fport, hfab]
    exact s.fport_withElastic p l
  · rw [hfab]
    rfl
  · have hphys : (s.flitLanded p l b).phys? (bitsOf (parseHdr b).target.toNat 6 7) = some g := by
      rw [hpav, State.flitLanded_frame]
      exact hg
    have hadd := State.toNat_sems_signalTarget (s.flitLanded p l b) (parseHdr b).target hphys j
    rw [hsem, hsame g] at hadd
    rw [State.metNow_frame]
    exact hadd

omit hw ha in
theorem State.flitDone_first (hh : (s.fport p).holdRx = []) (hl : (parseHdr b).last = false)
    (hwrote : s.wrote (s.flitLanded p l b) (parseHdr b).addr (flitData b)) :
    (s.flitDone p l b).releaseHeld p = s.flitDone p l b ∧
    s.wrote (s.flitDone p l b) (parseHdr b).addr (flitData b) ∧ (s.flitDone p l b).pavs = s.pavs ∧
    ∃ c, alook (parseHdr b).key (s.flitDone p l b).fab.comps = some c ∧ c.first = some (parseHdr b).addr ∧
      c.last = none ∧ c.sum = 16 * (parseHdr b).plen ∧ c.clash = false := by
  rw [State.flitDone_of_first hf hc hl]
  refine ⟨State.releaseHeld_withElastic (l := l) hh ?_, (State.sameMemory_withComps _ _).wrote hwrote, State.pavs_flitLanded, _,
    alook_aput_same _ _ _, rfl, rfl, rfl, rfl⟩
  have hfab : (s.flitLanded p l b).fab.ports = (s.withElastic p l).fab.ports := by rw [State.fab_flitLanded]
  rw [State.fport]
  change (s.flitLanded p l b).fab.ports[p] = _
  rw [hfab]
  exact s.fport_withElastic p l

end

/-! ### An uncorrectable flit (R160) -/

section

variable {s : State} {p : Fin 24} {e : Elastic} (l : List Elastic) (ecc : EccOutcome) (hb : e.bytes = none)

include hb

/-- What an uncorrectable flit leaves: at most the record of the port to which it was dealt. -/
theorem handleFlit_of_bad : onlyPorts s ((s.withElastic p l).handleFlit p e ecc) [p] ∧
    ((s.withElastic p l).handleFlit p e ecc).regs = s.regs ∧ (((s.withElastic p l).handleFlit p e ecc).fport p).elastic = l ∧
    ∀ q k, e.miss = none → dealTo s.transit.1 p.val s.transit.2 e.slot e.pos = some (q, k) →
      (((s.withElastic p l).handleFlit p e ecc).fport p).missing =
        (s.fport p).missing.map (fun m => if m.seq = e.seq then { m with dealt := some q } else m) := by
  have hport : onlyPorts s (s.withElastic p l) [p] := onlyPorts_withElastic s p l (List.mem_singleton_self p)
  have hsame : ((s.withElastic p l).fport p).elastic = l := by rw [State.fport_withElastic]
  rw [State.handleFlit, hb]
  dsimp only
  rw [State.transit_withElastic]
  cases hm : e.miss with
  | some m => exact ⟨hport, rfl, hsame, fun _ _ h => absurd h nofun⟩
  | none =>
    cases hd : dealTo s.transit.1 p.val s.transit.2 e.slot e.pos with
    | none => exact ⟨hport, rfl, hsame, fun _ _ _ h => absurd h nofun⟩
    | some y =>
      dsimp only
      refine ⟨onlyPorts_trans hport (onlyPorts_setPort _ (List.mem_singleton_self p) _), rfl, ?_, fun q k _ h => ?_⟩
      · rw [State.fport_setPort_same]
        exact hsame
      · cases h
        rw [State.fport_setPort_same, State.fport_withElastic]

end

/-! ### The statement -/

theorem State.slice?_of_epochSlot {s : State} {o : Nat} (h : s.epochSlot = some o) : ∃ k, s.slice? = some k ∧ k.2.1 = o :=
  Option.map_eq_some_iff.mp h

/-- Settles O28: by the way that the flit goes as it leaves the elastic buffer. -/
theorem sownArrival : Obligations.SownArrival := by
  unfold Obligations.SownArrival
  intro s p e l ecc hl ht hh
  have hexec : ∀ x, exec (.flitRelease p x .ok) s = .next ((s.withElastic p l).handleFlit p e x) := fun x => exec_flitRelease x hl ht
  refine ⟨fun b hb hc hv hm => ?_, fun hb => ⟨_, hexec ecc, handleFlit_of_bad l ecc hb⟩⟩
  have hrel : ∀ x, exec (.flitRelease p x .ok) s = .next (((s.withElastic p l).sownRelease p e b x).releaseHeld p) := fun x => by
    rw [hexec, State.handleFlit_of_sown x hb hc hm]
  refine ⟨fun hs => ?_, fun o ho hok hopen => ?_⟩
  · have hclosed : (s.withElastic p l).slice? = none := Option.map_eq_none_iff.mp hs
    have hleft := discardFlit_withElastic s p l
    refine ⟨_, (hrel ecc).trans ?_, hleft⟩
    rw [State.sownRelease_of_closed ecc hclosed, State.releaseHeld_withElastic hh hleft.2.1]
  obtain ⟨k, hk, rfl⟩ := State.slice?_of_epochSlot ho
  have hopen' : k.2.1 ≤ e.slot - ((s.withElastic p l).fport p).dsOn := by rwa [State.fport_withElastic]
  refine ⟨fun q j hq hne hd => ?_, fun hd hr => ?_⟩
  · obtain ⟨hheld, hleft⟩ := transit_withElastic (l := l) (b := b) (j := j) hh hq hne (e.slot + 2)
    refine ⟨_, (hrel ecc).trans ?_, hleft⟩
    rw [State.sownRelease_of_transit (s := s.withElastic p l) ecc hv hok hk hm hopen' hq hd, hheld]
  have hlocal : ∀ x, (s.withElastic p l).sownRelease p e b x = (s.withElastic p l).localFlit p b x := fun x =>
    State.sownRelease_of_local (s := s.withElastic p l) x hv hok hk hm hopen' hd
  refine ⟨fun hbad => ?_, fun r hdst hop hlo hhi hlen hreg hlog hacc hheld hw ha => ?_⟩
  · have hleft := misroute_withElastic s p l
    refine ⟨_, (hrel ecc).trans ?_, hleft⟩
    rw [hlocal, State.localFlit_of_misrouted (s := s.withElastic p l) p ecc hr hbad, State.releaseHeld_withElastic hh hleft.2.1]
  · have hdone : (s.withElastic p l).localFlit p b .ok = s.flitDone p l b :=
      State.localFlit_of_written (s := s.withElastic p l) p hr hdst hop hlo hhi hreg hacc ((length_flitData hlen hhi).symm ▸ hheld)
    have hwrote := State.wrote_flitLanded (p := p) (l := l) hlen hhi hacc (by rw [hreg]; exact fun h => hlog (Option.some.inj h))
    refine ⟨_, (hrel .ok).trans (by rw [hlocal, hdone]), State.localLeaves_released hw ha, fun hf hlast hc => ?_, fun hf hlast hc => ?_⟩
    · obtain ⟨hsame, hleft⟩ := State.flitDone_whole hw ha hf hc hh hlast hwrote
      rw [hsame]
      exact hleft
    · obtain ⟨hsame, hleft⟩ := State.flitDone_first hf hc hh hlast hwrote
      rw [hsame]
      exact hleft

end Sys2Proof.Machine
end

section
/-! PROOF. What fills the two positions of a slot (R149 to R155, R165, R166), of the family 06_fabric_links. -/

namespace Sys2Proof.Machine

open Sys2Proof

/-! ### A position of a slot is filled -/

/-- A position of port `p` carries `o`, and the port becomes `x`. -/
def State.filled (s : State) (p : Fin 24) (x : FabPort) (o : Out) : State := (s.setPort p x).emit o

/-- The flit on the wire (R149, R152). -/
def State.wired (s : State) (p : Fin 24) (slot pos seq : Nat) (f : Flit) : Out := .flit p.val slot pos (s.onWire p slot pos seq f)

/-- The port has sent a flit for the first time (R155). -/
def FabPort.sentNew (x : FabPort) (f : Flit) (epoch : BitVec 32) : FabPort :=
  { x with txSeq := (x.txSeq + 1) % 1024, replay := x.replay ++ [{ seq := x.txSeq, flit := f, epoch := epoch }] }

section

variable (s : State) (p : Fin 24) (x : FabPort) (o : Out)

@[simp] theorem State.fport_filled_same : (s.filled p x o).fport p = x := State.fport_setPort_same _ _ _

theorem State.fport_filled_other {q : Fin 24} (h : q ≠ p) : (s.filled p x o).fport q = s.fport q := State.fport_setPort_other _ _ h

theorem State.filled_frame : s.filled p x o = { s with out := o :: s.out, fab := { s.fab with ports := s.fab.ports.set p x } } := rfl

@[simp] theorem State.regs_filled : (s.filled p x o).regs = s.regs := rfl

theorem State.filled_fport : s.filled p (s.fport p) o = s.emit o := by rw [State.filled, State.setPort_fport]

end

/-- The wire depends on the device's number and on where the scrambler was seeded. -/
theorem State.wired_congr {s t : State} {p : Fin 24} (hregs : t.regs = s.regs) (hat : (t.fport p).scramAt = (s.fport p).scramAt)
    (slot pos seq : Nat) (f : Flit) : t.wired p slot pos seq f = s.wired p slot pos seq f := by
  have hdev : t.devNum = s.devNum := State.devNum_congr (by rw [State.reg, hregs]; rfl)
  rw [State.wired, State.onWire, hat, hdev]
  rfl

theorem State.wired_setPort {s : State} {p : Fin 24} {x : FabPort} (hat : x.scramAt = (s.fport p).scramAt) (slot pos seq : Nat) (f : Flit) :
    (s.setPort p x).wired p slot pos seq f = s.wired p slot pos seq f :=
  State.wired_congr (s := s) (t := s.setPort p x) rfl (by rw [State.fport_setPort_same, hat]) slot pos seq f

/-- A flit that is sent for the first time where the replay buffer has room. -/
theorem State.sendNew_of_room {s : State} {p : Fin 24} (h : (s.fport p).replay.length < 1024) (slot pos : Nat) (f : Flit) :
    s.sendNew p slot pos f = s.filled p ((s.fport p).sentNew f (BitVec.ofNat 32 (s.fld fSCH_EPOCH_VALUE)))
      (s.wired p slot pos (s.fport p).txSeq f) := by
  have hroom : (s.fport p).replay.length + 1 - 1024 = 0 := by omega
  unfold State.sendNew
  dsimp only
  rw [hroom, List.drop_zero]
  rfl

theorem State.sendNew_setPort {s : State} {p : Fin 24} {x : FabPort} (h : x.replay.length < 1024) (hat : x.scramAt = (s.fport p).scramAt)
    (slot pos : Nat) (f : Flit) : (s.setPort p x).sendNew p slot pos f =
      s.filled p (x.sentNew f (BitVec.ofNat 32 (s.fld fSCH_EPOCH_VALUE))) (s.wired p slot pos x.txSeq f) := by
  rw [State.sendNew_of_room (by rwa [State.fport_setPort_same]), State.wired_setPort hat, State.fport_setPort_same, State.filled,
    State.setPort_setPort]
  rfl

/-! ### The order in which a position is filled (R153, R154) -/

section

variable {s : State} {p : Fin 24} {slot pos : Nat}

/-- A run fills the position. -/
theorem State.sendPos_of_run {r : Run} {t : State} (hr : s.runAt p slot = some r) (h : s.sendRun p r slot pos = (t, true)) :
    s.sendPos p slot pos = t := by
  simp only [State.sendPos, hr, h, if_true]

/-- No run of the port reaches the position. -/
def State.unrun (s : State) (p : Fin 24) (slot pos : Nat) : Prop := ∀ r, s.runAt p slot = some r → r.flits ≤ pos

theorem State.sendRun_of_beyond {r : Run} (h : r.flits ≤ pos) : s.sendRun p r slot pos = (s, false) := by rw [State.sendRun, if_pos h]

/-- What comes after runs, retransmissions and late forwards: a control flit, else a volunteer flit, else IDLE. -/
def State.fillRest (s : State) (p : Fin 24) (slot pos : Nat) : State :=
  match s.sendCtrl p slot pos with
  | some t => t
  | none =>
    match s.sendVol p slot pos with
    | some t => t
    | none => s.emit (s.wired p slot pos (s.fport p).txSeq (.ctrl .idle))

variable (hrun : s.unrun p slot pos)

include hrun

/-- A retransmission fills the position. -/
theorem State.sendPos_of_again {t : State} (h : s.sendRetx p slot pos (s.fport p).retx = (t, true)) : s.sendPos p slot pos = t := by
  cases hr : s.runAt p slot with
  | none => simp only [State.sendPos, hr, h, Bool.false_eq_true, if_false, if_true]
  | some r => simp only [State.sendPos, hr, State.sendRun_of_beyond (hrun r hr), h, Bool.false_eq_true, if_false, if_true]

/-- With no retransmission and no late forward the others follow. -/
theorem State.sendPos_of_rest (hretx : (s.fport p).retx = []) (hlate : (s.fport p).late = []) :
    s.sendPos p slot pos = s.fillRest p slot pos := by
  have hagain : s.sendRetx p slot pos (s.fport p).retx = (s, false) := by rw [hretx, State.sendRetx]
  have hnone : s.sendLate p slot pos = none := by
    rw [State.sendLate, hlate]
    rfl
  cases hr : s.runAt p slot with
  | none => simp only [State.sendPos, hr, hagain, hnone, Bool.false_eq_true, if_false] <;> rfl
  | some r => simp only [State.sendPos, hr, State.sendRun_of_beyond (hrun r hr), hagain, hnone, Bool.false_eq_true, if_false] <;> rfl

end

/-! ### One retransmission, one control flit, one volunteer flit -/

section

variable {s : State} {p : Fin 24} {slot pos : Nat}

/-- The one flit that is to be sent again may leave. -/
theorem State.sendRetx_of_one {k f : Nat} {e : Sent} (h : (s.fport p).retx = [(k, f)]) (hf : f ≤ slot)
    (he : (s.fport p).replay.find? (fun y => y.seq == k) = some e) (hs : e.flit.isSown = false) :
    s.sendRetx p slot pos (s.fport p).retx =
      (s.filled p { s.fport p with retx := [] } (s.wired p slot pos k e.flit), true) := by
  have hseq : e.seq = k := eq_of_beq (List.find?_some (p := fun y : Sent => y.seq == k) he)
  have herase : [(k, f)].erase (k, f) = [] := List.erase_cons_head _ _
  rw [h, State.sendRetx, if_neg (by exact Nat.not_lt.mpr hf)]
  dsimp only
  rw [he]
  dsimp only
  rw [if_pos (by rw [hs]; rfl), h, herase, State.sendAgain, hseq, State.filled, ← State.wired_setPort (x := { s.fport p with retx := [] }) rfl]
  rfl

/-- Where one element alone answers, its answer is found. -/
theorem findSome?_of_only {α β : Type} [DecidableEq α] {f : α → Option β} {l : List α} {a : α} {b : β} (ha : a ∈ l)
    (h : ∀ x ∈ l, f x = if a = x then some b else none) : l.findSome? f = some b := by
  induction l with
  | nil => exact absurd ha List.not_mem_nil
  | cons x r ih =>
    rw [List.findSome?_cons, h x List.mem_cons_self]
    by_cases hx : a = x
    · rw [if_pos hx]
    · rw [if_neg hx]
      exact ih ((List.mem_cons.mp ha).resolve_left hx) fun y hy => h y (List.mem_cons_of_mem x hy)

theorem ctrlRank_lt (c : Queued) : ctrlRank c < 3 := by
  unfold ctrlRank
  split <;> omega

/-- The one control flit that waits may leave. -/
theorem State.sendCtrl_of_one {c : Queued} (h : (s.fport p).ctrlQ = [c]) (hc : c.slot ≤ slot) (hown : c.src ≠ 24 ∨ s.ownFree = true)
    (hroom : (s.fport p).replay.length < 1024) : s.sendCtrl p slot pos =
      some (s.filled p (({ s.fport p with ctrlQ := [] } : FabPort).sentNew (s.stamped c.flit) (BitVec.ofNat 32 (s.fld fSCH_EPOCH_VALUE)))
        (s.wired p slot pos (s.fport p).txSeq (s.stamped c.flit))) := by
  unfold State.sendCtrl
  extract_lets x ready
  have hready : ∀ k, ready k c = (ctrlRank c == k) := fun k => by
    simp only [ready, hc]
    split
    · simp [hown]
    · simp
  have hpick : (List.range 3).findSome? (fun k => x.ctrlQ.find? (ready k)) = some c := by
    have hrank := ctrlRank_lt c
    have hx : x.ctrlQ = [c] := h
    have hone : ∀ k, [c].find? (ready k) = if ctrlRank c = k then some c else none := fun k => by
      rw [List.find?_singleton, hready]
      simp
    rw [hx]
    exact findSome?_of_only (List.mem_range.mpr hrank) fun k _ => hone k
  rw [hpick]
  dsimp only
  have hleft : x.ctrlQ.erase c = [] := by
    rw [show x.ctrlQ = [c] from h, List.erase_cons_head]
  rw [hleft, State.sendNew_setPort]
  · exact hroom
  · rfl

theorem State.sendCtrl_of_none (h : (s.fport p).ctrlQ = []) : s.sendCtrl p slot pos = none := by
  rw [State.sendCtrl, h]
  rfl

theorem State.sendVol_of_none (h : (s.fport p).volQ = []) : s.sendVol p slot pos = none := by
  unfold State.sendVol
  extract_lets x ok pick
  have hpick : ∀ c, pick c = none := fun c => by
    have hx : x.volQ = [] := h
    simp [pick, hx]
  have hnone : (List.finRange 8).reverse.findSome? (fun c => (pick c).map (fun q => (c, q))) = none :=
    List.findSome?_eq_none_iff.mpr fun c _ => by rw [hpick c, Option.map_none]
  rw [hnone]

/-- The one volunteer flit that waits has left the queue, against a credit (R166). -/
def FabPort.volSent (x : FabPort) (c : Queued) : FabPort :=
  { x with
    volQ := []
    rrIn := x.rrIn.set (volPair c / 2 % 8) (c.src, !(match c.flit with | .vol b => (parseHdr b).last | _ => true))
    credits := x.credits.mapIdx (fun i n => if i = volPair c then n - 1 else n) }

/-- The next input in round-robin order is the one from which the flit came. -/
theorem findSome?_roundRobin {α : Type} {f : Nat → Option α} {n : Nat} {b : α} (hn : n ≤ 24) (hf : ∀ k, f k = if n = k then some b else none)
    (start : Nat) : (List.range 25).findSome? (fun i => f ((start + 1 + i) % 25)) = some b := by
  have hwhen : ∀ i ∈ List.range 25, f ((start + 1 + i) % 25) = if (n + 24 - start % 25) % 25 = i then some b else none := fun i hi => by
    have hlt := List.mem_range.mp hi
    rw [hf]
    exact if_congr (by omega) rfl rfl
  exact findSome?_of_only (List.mem_range.mpr (Nat.mod_lt _ (by omega))) hwhen

section

variable {c : Queued} (h : (s.fport p).volQ = [c]) (hslot : c.slot ≤ slot) (hsrc : c.src ≤ 24) (hown : c.src = 24 → s.ownFree = true)
  (hrr : (s.fport p).rrIn[volPair c / 2 % 8].2 = false) (hpair : volPair c < 16)

include h hslot hsrc hown hrr hpair

/-- The one volunteer flit that waits leaves against a credit, and waits without one. -/
theorem State.sendVol_of_one : s.sendVol p slot pos = if 1 ≤ (s.fport p).credits[volPair c % 16] then
    some (((s.setPort p ((s.fport p).volSent c)).freeBuf c.src c.inPair 1).sendNew p slot pos c.flit) else none := by
  unfold State.sendVol
  extract_lets x ok pick
  have hx : x.volQ = [c] := h
  have hok : ok c = decide (1 ≤ (s.fport p).credits[volPair c % 16]) := by
    have hget : x.credits.toList.getD (volPair c) 0 = (s.fport p).credits[volPair c % 16] := by
      simp [x, hpair, Nat.mod_eq_of_lt hpair]
    have hfree : (decide (c.src ≠ 24) || s.ownFree) = true := by
      by_cases hc : c.src = 24
      · rw [hown hc, Bool.or_true]
      · rw [decide_eq_true hc, Bool.true_or]
    simp only [ok, hget, hslot, decide_true, Bool.true_and, hfree, Bool.and_true]
  have hheads : ∀ (k : Fin 8) (i : Nat), ((x.volQ.filter (fun q => volPair q / 2 == k.val)).find? (fun q => q.src == i)).filter ok =
      if c.src = i then (if volPair c / 2 = k.val ∧ ok c = true then some c else none) else none := fun k i => by
    rw [hx]
    by_cases hk : volPair c / 2 = k.val
    · by_cases hi : c.src = i
      · simp [hk, hi, Option.filter]
      · simp [hk, hi]
    · simp [hk]
  have hnone : ∀ k : Fin 8, ¬ (volPair c / 2 = k.val ∧ ok c = true) → pick k = none := fun k hk => by
    simp only [pick, hheads, if_neg hk, ite_self]
    split
    · rfl
    · exact List.findSome?_eq_none_iff.mpr fun _ _ => rfl
  by_cases hcr : 1 ≤ (s.fport p).credits[volPair c % 16]
  · have hclass : volPair c / 2 < 8 := by omega
    have hturn : (s.fport p).rrIn[volPair c / 2].2 = false := by simpa only [Nat.mod_eq_of_lt hclass] using hrr
    have hcur : x.rrIn[(⟨volPair c / 2, hclass⟩ : Fin 8)].2 = false := hturn
    have hhere : pick ⟨volPair c / 2, hclass⟩ = some c := by
      simp only [pick, hcur, Bool.false_eq_true, if_false]
      have hready : volPair c / 2 = (⟨volPair c / 2, hclass⟩ : Fin 8).val ∧ ok c = true := ⟨rfl, hok.trans (decide_eq_true hcr)⟩
      exact findSome?_roundRobin hsrc (fun i => (hheads ⟨volPair c / 2, hclass⟩ i).trans (if_congr Iff.rfl (if_pos hready) rfl)) _
    have hpick : (List.finRange 8).reverse.findSome? (fun k => (pick k).map (fun q => (k, q))) = some (⟨volPair c / 2, hclass⟩, c) := by
      refine findSome?_of_only (a := ⟨volPair c / 2, hclass⟩) (by simp) fun k _ => ?_
      by_cases hk : (⟨volPair c / 2, hclass⟩ : Fin 8) = k
      · rw [if_pos hk, ← hk, hhere, Option.map_some]
      · rw [if_neg hk, hnone k fun he => hk (Fin.ext he.1), Option.map_none]
    have hleft : x.volQ.erase c = [] := by rw [hx, List.erase_cons_head]
    have hmod : volPair c / 2 % 8 = volPair c / 2 := Nat.mod_eq_of_lt hclass
    rw [hpick, if_pos hcr]
    dsimp only
    simp only [hleft, FabPort.volSent, hmod]
    rfl
  · have hpick : (List.finRange 8).reverse.findSome? (fun k => (pick k).map (fun q => (k, q))) = none :=
      List.findSome?_eq_none_iff.mpr fun k _ => by
        rw [hnone k fun he => hcr (of_decide_eq_true (hok.symm.trans he.2)), Option.map_none]
    rw [hpick, if_neg hcr]

end

end

/-! ### A run's own flit (R128, R153) -/

section

variable {s : State} {p : Fin 24} {slot : Nat} {e : OpenEpoch} {r : Run} {w : Strm} {n : Nat}

/-- Stream `k` of the open epoch has sent `n` flits. -/
def OpenEpoch.sentTo (e : OpenEpoch) (k n : Nat) : OpenEpoch := { e with sent := e.sent.set k n }

/-- The flit `n` of a stream. -/
def State.streamData (s : State) (w : Strm) (n : Nat) : Flit :=
  .sown (sownFlit w n (s.bytes (w.src + 304 * n) (min 304 (w.len - 304 * n))))

/-- The epoch that is open becomes `e`. -/
def State.withEpoch (s : State) (e : OpenEpoch) : State := { s with sch := { s.sch with epoch := some e } }

/-- A stream whose source answers has its next flit; with its last one a condition of the epoch is met. -/
theorem State.streamFlit_of_ok {k : Nat} (he : s.sch.epoch = some e) (hw : e.blk.streams[k]? = some w) (hn : e.sent[k]? = some n)
    (hlt : n < strmFlits w) (hacc : s.accessSt (w.src + 304 * n) (min 304 (w.len - 304 * n)) = .ok) :
    ∃ m, s.streamFlit k = some (s.withEpoch { e.sentTo k (n + 1) with metAt := m }, some (s.streamData w n)) := by
  rw [State.streamFlit, he]
  dsimp only
  rw [hw, hn]
  dsimp only
  rw [if_neg (by omega), if_neg (not_not.mpr hacc)]
  split
  · exact ⟨_, rfl⟩
  · exact ⟨e.metAt, rfl⟩

variable (he : s.sch.epoch = some e) (hr : s.runAt p slot = some r) (hkind : r.kind = 1) (hflits : r.flits = 1)
  (hw : e.blk.streams[r.stream]? = some w) (hn : e.sent[r.stream]? = some n) (hlt : n < strmFlits w)
  (hacc : s.accessSt (w.src + 304 * n) (min 304 (w.len - 304 * n)) = .ok) (hroom : (s.fport p).replay.length < 1024)

include he

/-- The runs do not depend on what their streams have sent. -/
theorem State.runAt_withEpoch (k j m : Nat) (q : Fin 24) (i : Nat) :
    (s.withEpoch { e.sentTo k j with metAt := m }).runAt q i = s.runAt q i := by
  have hslice : (s.withEpoch { e.sentTo k j with metAt := m }).slice? = s.slice? := by
    rw [State.slice?, State.slice?, he]
    rfl
  rw [State.runAt, State.runAt, hslice]
  rfl

include hr hkind hflits hw hn hlt hacc hroom

/-- The run's stream fills position 0. -/
theorem State.sendPos_of_stream : ∃ m, s.sendPos p slot 0 = (s.withEpoch { e.sentTo r.stream (n + 1) with metAt := m }).filled p
    ((s.fport p).sentNew (s.streamData w n) (BitVec.ofNat 32 (s.fld fSCH_EPOCH_VALUE)))
    (s.wired p slot 0 (s.fport p).txSeq (s.streamData w n)) := by
  obtain ⟨m, hm⟩ := State.streamFlit_of_ok he hw hn hlt hacc
  refine ⟨m, State.sendPos_of_run hr ?_⟩
  rw [State.sendRun, if_neg (by omega), if_pos hkind, hm]
  refine congrArg (fun t : State => (t, true)) ?_
  refine (State.sendNew_of_room (s := s.withEpoch _) hroom slot 0 _).trans ?_
  rw [State.wired_congr (s := s) rfl rfl]
  rfl

end

/-! ### The command -/

theorem foldl_of_fixed {α : Type} {f : State → α → State} {s : State} {l : List α} (h : ∀ a ∈ l, f s a = s) : l.foldl f s = s := by
  induction l with
  | nil => rfl
  | cons a r ih =>
    rw [List.foldl_cons, h a List.mem_cons_self]
    exact ih fun b hb => h b (List.mem_cons_of_mem a hb)

/-- Where one port alone acts, it acts once. -/
theorem foldl_finRange_of_only {f : State → Fin 24 → State} {s t : State} {p : Fin 24} (hp : f s p = t) (hs : ∀ q, q ≠ p → f s q = s)
    (ht : ∀ q, q ≠ p → f t q = t) : (List.finRange 24).foldl f s = t := by
  obtain ⟨l, r, hsplit⟩ := List.append_of_mem (List.mem_finRange p)
  have hnodup : (l ++ p :: r).Nodup := hsplit ▸ List.nodup_finRange 24
  have hl : ∀ q ∈ l, q ≠ p := fun q hq => (List.nodup_append.mp hnodup).2.2 q hq p List.mem_cons_self
  have hr : ∀ q ∈ r, q ≠ p := fun q hq he => (List.nodup_cons.mp (List.nodup_append.mp hnodup).2.1).1 (he ▸ hq)
  rw [hsplit, List.foldl_append, foldl_of_fixed fun q hq => hs q (hl q hq), List.foldl_cons, hp, foldl_of_fixed fun q hq => ht q (hr q hq)]

/-- The slot is transmitted, and the next one comes after it. -/
def State.atSlot (s : State) : State := { s with fab := { s.fab with nextTx := s.slot + 1 } }

theorem State.fport_atSlot (s : State) (p : Fin 24) : s.atSlot.fport p = s.fport p := rfl

theorem State.fld_atSlot (s : State) (f : Fld) : s.atSlot.fld f = s.fld f := rfl

theorem State.streamData_atSlot (s : State) (w : Strm) (n : Nat) : s.atSlot.streamData w n = s.streamData w n := by
  rw [State.streamData, State.streamData, State.bytes_eq_map, State.bytes_eq_map]
  rfl

/-- Port `p` has filled the two positions of the slot. -/
def State.slotDone (s : State) (p : Fin 24) : State := (s.atSlot.sendPos p s.slot 0).sendPos p s.slot 1

/-- No credits are returned where none are owed. -/
theorem State.returnCredits_of_none {s : State} {p : Fin 24} (h : (s.fport p).owed = Vector.replicate 16 0) (slot : Nat) :
    s.returnCredits p slot = s := by
  rw [State.returnCredits, h]
  rfl

/-- One port alone is ACTIVE, and owes no credits: it fills the two positions of the slot. -/
theorem exec_slotTransmit {s : State} {p : Fin 24} (hup : s.portUp p = true) (hother : ∀ q, q ≠ p → s.portUp q = false)
    (hnext : s.fab.nextTx ≤ s.slot) (htb : s.sch.tb.toNat % 8 = 0) (howed : (s.fport p).owed = Vector.replicate 16 0)
    (hregs : (s.slotDone p).regs = s.regs) : exec .slotTransmit s = .next (s.slotDone p) := by
  have hslot : max (ceilDiv s.sch.tb.toNat 8) s.fab.nextTx = s.slot := by
    have hceil : ceilDiv s.sch.tb.toNat 8 = s.slot := by
      rw [ceilDiv, State.slot]
      omega
    rw [hceil]
    exact Nat.max_eq_left hnext
  have hreached : s.atTb (8 * s.slot) = s := State.atTb_of_reached (by rw [State.slot]; omega)
  have hdown : ∀ q, q ≠ p → (s.slotDone p).portUp q = false := fun q hq => by
    have hstate : (s.slotDone p).portState q.val = s.portState q.val :=
      State.fld_of_sameReg (f := fFAB_PORT_STATUS_STATE q.val) (by rw [State.reg, hregs]; rfl)
    rw [← hother q hq, State.portUp, State.portUp, hstate]
  change execSlotTransmit s = _
  unfold execSlotTransmit
  rw [hslot]
  dsimp only
  rw [hreached]
  refine congrArg _ (foldl_finRange_of_only (p := p) ?_ (fun q hq => if_neg ?_) fun q hq => if_neg ?_)
  · refine (if_pos hup).trans ?_
    exact congrArg (fun u : State => (u.sendPos p s.slot 0).sendPos p s.slot 1)
      (State.returnCredits_of_none (s := s.atSlot) howed s.slot)
  · exact Bool.eq_false_iff.mp (hother q hq)
  · exact Bool.eq_false_iff.mp (hdown q hq)

/-! ### A position, by what waits -/

section

variable {s t : State} {p : Fin 24} {slot pos : Nat} (hregs : t.regs = s.regs) (hat : (t.fport p).scramAt = (s.fport p).scramAt)
  (hrun : t.unrun p slot pos)

include hregs hat hrun

/-- With nothing to send the port sends IDLE. -/
theorem State.sendPos_of_idle (hretx : (t.fport p).retx = []) (hlate : (t.fport p).late = []) (hctrl : (t.fport p).ctrlQ = [])
    (hvol : t.sendVol p slot pos = none) : t.sendPos p slot pos =
      t.filled p (t.fport p) (s.wired p slot pos (t.fport p).txSeq (.ctrl .idle)) := by
  rw [State.sendPos_of_rest hrun hretx hlate, State.fillRest, State.sendCtrl_of_none hctrl, hvol, State.filled_fport,
    State.wired_congr hregs hat]

/-- The one retransmission that is due goes first. -/
theorem State.sendPos_of_retx {k f : Nat} {e : Sent} (hretx : (t.fport p).retx = [(k, f)]) (hf : f ≤ slot)
    (he : (t.fport p).replay.find? (fun y => y.seq == k) = some e) (hs : e.flit.isSown = false) :
    t.sendPos p slot pos = t.filled p { t.fport p with retx := [] } (s.wired p slot pos k e.flit) := by
  rw [State.sendPos_of_again hrun (State.sendRetx_of_one hretx hf he hs), State.wired_congr hregs hat]

/-- The one control flit follows. -/
theorem State.sendPos_of_ctrl {c : Queued} (hretx : (t.fport p).retx = []) (hlate : (t.fport p).late = [])
    (hctrl : (t.fport p).ctrlQ = [c]) (hc : c.slot ≤ slot) (hown : c.src ≠ 24 ∨ t.ownFree = true)
    (hroom : (t.fport p).replay.length < 1024) : t.sendPos p slot pos =
      t.filled p (({ t.fport p with ctrlQ := [] } : FabPort).sentNew (t.stamped c.flit) (BitVec.ofNat 32 (t.fld fSCH_EPOCH_VALUE)))
        (s.wired p slot pos (t.fport p).txSeq (t.stamped c.flit)) := by
  rw [State.sendPos_of_rest hrun hretx hlate, State.fillRest, State.sendCtrl_of_one hctrl hc hown hroom, State.wired_congr hregs hat]

end

/-! ### The statement -/

/-- From `s` to `t` the slot has been transmitted: port `p` has sent `o`, and no other port has changed. -/
def State.slotSent (s t : State) (p : Fin 24) (o : List Out) : Prop :=
  t.out = o ++ s.out ∧ t.fab.nextTx = s.slot + 1 ∧ t = { s with out := t.out, fab := t.fab, sch := t.sch, regs := t.regs } ∧
    ∀ q, q ≠ p → t.fport q = s.fport q

theorem State.slotSent_filled (s : State) (c : Sch) (p : Fin 24) (x y : FabPort) (o u : Out) :
    s.slotSent ((State.filled { s.atSlot with sch := c } p x o).filled p y u) p [u, o] := by
  refine ⟨?_, ?_, ?_, fun q hq => ?_⟩
  · rw [State.filled_frame, State.filled_frame]
    rfl
  · rw [State.filled_frame, State.filled_frame]
    rfl
  · rw [State.filled_frame, State.filled_frame]
    rfl
  rw [State.fport_filled_other _ _ _ _ hq, State.fport_filled_other _ _ _ _ hq]
  rfl

/-- A place that is freed is owed on the port it came from, if it came from one. -/
theorem State.freeBuf_leaves (s : State) (src pair : Nat) :
    s.freeBuf src pair 1 = { s with fab := { s.fab with ports := (s.freeBuf src pair 1).fab.ports } } ∧
    (∀ q, (s.freeBuf src pair 1).fport q = { s.fport q with owed := ((s.freeBuf src pair 1).fport q).owed }) ∧
    ∀ (q : Fin 24) (i : Fin 16), ((s.freeBuf src pair 1).fport q).owed[i] =
      (s.fport q).owed[i] + if q.val = src ∧ i.val = pair then 1 else 0 := by
  by_cases h : src < 24
  · obtain ⟨hport, howed⟩ := freedBuf_of_ports (s := s) (t := s.freeBuf src pair 1) (p := ⟨src, h⟩) (pair := pair) (n := 1) rfl
    refine ⟨?_, hport, fun q i => ?_⟩
    · rw [State.freeBuf_port s ⟨src, h⟩]
      rfl
    · rw [howed]
      simp only [Fin.ext_iff]
  · have hsame : s.freeBuf src pair 1 = s := dif_neg h
    refine ⟨by rw [hsame], fun q => by rw [hsame], fun q i => ?_⟩
    rw [hsame, if_neg (fun hq : q.val = src ∧ i.val = pair => h (hq.1 ▸ q.isLt)), Nat.add_zero]

section

variable {s u : State} {p : Fin 24} {slot pos : Nat} (hregs : u.regs = s.regs) {y : FabPort} {o : Out}
  (hat : y.scramAt = (s.fport p).scramAt) (hrun : u.unrun p slot pos)

include hregs hat hrun

/-- IDLE follows where nothing else waits. -/
theorem State.sendPos_filled_idle (hretx : y.retx = []) (hlate : y.late = []) (hctrl : y.ctrlQ = [])
    (hvol : (u.filled p y o).sendVol p slot pos = none) : (u.filled p y o).sendPos p slot pos =
      (u.filled p y o).filled p y (s.wired p slot pos y.txSeq (.ctrl .idle)) := by
  have hy := u.fport_filled_same p y o
  rw [State.sendPos_of_idle (s := s) (t := u.filled p y o) hregs (by rw [hy, hat]) hrun (by rw [hy, hretx]) (by rw [hy, hlate])
    (by rw [hy, hctrl]) hvol, hy]

end

section

variable {s : State} {p : Fin 24} (hrun : s.runAt p s.slot = none) (hlate : (s.fport p).late = [])

include hrun

theorem State.unrun_atSlot (pos : Nat) : s.atSlot.unrun p s.slot pos := fun _ hr => absurd (hrun.symm.trans hr) nofun

include hlate

/-- Nothing waits that may leave: both positions carry IDLE. -/
theorem State.slotDone_of_idle (hretx : (s.fport p).retx = []) (hctrl : (s.fport p).ctrlQ = [])
    (hvol : ∀ o pos, (s.atSlot.filled p (s.fport p) o).sendVol p s.slot pos = none) (hvol0 : s.atSlot.sendVol p s.slot 0 = none) :
    s.slotDone p = (s.atSlot.filled p (s.fport p) (s.wired p s.slot 0 (s.fport p).txSeq (.ctrl .idle))).filled p (s.fport p)
      (s.wired p s.slot 1 (s.fport p).txSeq (.ctrl .idle)) := by
  have hfirst : s.atSlot.sendPos p s.slot 0 = s.atSlot.filled p (s.fport p) (s.wired p s.slot 0 (s.fport p).txSeq (.ctrl .idle)) :=
    State.sendPos_of_idle (s := s) rfl rfl (State.unrun_atSlot hrun 0) hretx hlate hctrl hvol0
  rw [State.slotDone, hfirst]
  exact State.sendPos_filled_idle (s := s) (u := s.atSlot) rfl rfl (State.unrun_atSlot hrun 1) hretx hlate hctrl (hvol _ 1)

/-- A retransmission, then a control flit. -/
theorem State.slotDone_of_retx_ctrl {k f : Nat} {e : Sent} {c : Queued} (hretx : (s.fport p).retx = [(k, f)]) (hf : f ≤ s.slot)
    (he : (s.fport p).replay.find? (fun y => y.seq == k) = some e) (hs : e.flit.isSown = false) (hctrl : (s.fport p).ctrlQ = [c])
    (hc : c.slot ≤ s.slot) (hown : c.src ≠ 24 ∨ s.ownFree = true) (hroom : (s.fport p).replay.length < 1024) :
    s.slotDone p = (s.atSlot.filled p { s.fport p with retx := [] } (s.wired p s.slot 0 k e.flit)).filled p
      (({ s.fport p with retx := [], ctrlQ := [] } : FabPort).sentNew (s.stamped c.flit) (BitVec.ofNat 32 (s.fld fSCH_EPOCH_VALUE)))
      (s.wired p s.slot 1 (s.fport p).txSeq (s.stamped c.flit)) := by
  have hfirst : s.atSlot.sendPos p s.slot 0 = s.atSlot.filled p { s.fport p with retx := [] } (s.wired p s.slot 0 k e.flit) :=
    State.sendPos_of_retx (s := s) (t := s.atSlot) rfl rfl (State.unrun_atSlot hrun 0) hretx hf he hs
  rw [State.slotDone, hfirst]
  have hy := s.atSlot.fport_filled_same p { s.fport p with retx := [] } (s.wired p s.slot 0 k e.flit)
  have hsecond := State.sendPos_of_ctrl (s := s) (t := s.atSlot.filled p { s.fport p with retx := [] } (s.wired p s.slot 0 k e.flit)) rfl
    (by rw [hy]) (State.unrun_atSlot hrun 1) (by rw [hy]) (by rw [hy]; exact hlate) (by rw [hy]; exact hctrl) hc hown
    (by rw [hy]; exact hroom)
  rw [hsecond, hy]
  rfl

/-- The state in which the one volunteer flit has left its queue and its buffer. -/
def State.volLeft (s : State) (p : Fin 24) (c : Queued) : State :=
  (s.atSlot.setPort p ((s.fport p).volSent c)).freeBuf c.src c.inPair 1

omit hlate in
theorem State.volLeft_leaves (c : Queued) : s.volLeft p c = { s with fab := (s.volLeft p c).fab } ∧ (s.volLeft p c).unrun p s.slot 1 ∧
    (s.volLeft p c).fab.nextTx = s.slot + 1 ∧
    (s.volLeft p c).fport p = { (s.fport p).volSent c with owed := ((s.volLeft p c).fport p).owed } ∧
    (∀ q, q ≠ p → (s.volLeft p c).fport q = { s.fport q with owed := ((s.volLeft p c).fport q).owed }) ∧
    ∀ (q : Fin 24) (i : Fin 16), ((s.volLeft p c).fport q).owed[i] =
      (s.fport q).owed[i] + if q.val = c.src ∧ i.val = c.inPair then 1 else 0 := by
  obtain ⟨hframe, hport, howed⟩ := State.freeBuf_leaves (s.atSlot.setPort p ((s.fport p).volSent c)) c.src c.inPair
  rw [← State.volLeft] at hframe
  refine ⟨?_, ?_, ?_, ?_, fun q hq => ?_, fun q i => (howed q i).trans ?_⟩
  · rw [hframe]
    rfl
  · rw [hframe]
    exact State.unrun_atSlot hrun 1
  · rw [hframe]
    rfl
  · have hp := hport p
    rwa [State.fport_setPort_same] at hp
  · have hother := hport q
    rwa [State.fport_setPort_other _ _ hq] at hother
  · by_cases hq : q = p
    · rw [hq, State.fport_setPort_same]
      rfl
    · rw [State.fport_setPort_other _ _ hq]
      rfl

/-- A volunteer flit that leaves against a credit, then IDLE. -/
theorem State.slotDone_of_vol {c : Queued} (hretx : (s.fport p).retx = []) (hctrl : (s.fport p).ctrlQ = [])
    (hvol : s.atSlot.sendVol p s.slot 0 = some ((s.volLeft p c).sendNew p s.slot 0 c.flit)) (hroom : (s.fport p).replay.length < 1024) :
    s.slotDone p = ((s.volLeft p c).filled p
      (((s.volLeft p c).fport p).sentNew c.flit (BitVec.ofNat 32 (s.fld fSCH_EPOCH_VALUE))) (s.wired p s.slot 0 (s.fport p).txSeq c.flit)).filled p
      (((s.volLeft p c).fport p).sentNew c.flit (BitVec.ofNat 32 (s.fld fSCH_EPOCH_VALUE)))
      (s.wired p s.slot 1 (((s.fport p).txSeq + 1) % 1024) (.ctrl .idle)) := by
  obtain ⟨hframe, hrun', -, hp, -, -⟩ := State.volLeft_leaves (p := p) hrun c
  generalize s.volLeft p c = u at *
  have hregs : u.regs = s.regs := by rw [hframe]
  have hepoch : u.fld fSCH_EPOCH_VALUE = s.fld fSCH_EPOCH_VALUE := by rw [State.fld, State.reg, hregs, State.fld, State.reg]
  have hat : (u.fport p).scramAt = (s.fport p).scramAt := by
    rw [hp]
    rfl
  have htx : (u.fport p).txSeq = (s.fport p).txSeq := by
    rw [hp]
    rfl
  have hfirst : s.atSlot.sendPos p s.slot 0 = u.filled p
      ((u.fport p).sentNew c.flit (BitVec.ofNat 32 (s.fld fSCH_EPOCH_VALUE))) (s.wired p s.slot 0 (s.fport p).txSeq c.flit) := by
    have hctrl0 : s.atSlot.sendCtrl p s.slot 0 = none := State.sendCtrl_of_none hctrl
    rw [State.sendPos_of_rest (State.unrun_atSlot hrun 0) hretx hlate, State.fillRest, hctrl0, hvol]
    dsimp only
    rw [State.sendNew_of_room (by rw [hp]; exact hroom), State.wired_congr hregs hat, hepoch, htx]
  have hretx' : (u.fport p).retx = [] := by
    rw [hp]
    exact hretx
  have hlate' : (u.fport p).late = [] := by
    rw [hp]
    exact hlate
  have hctrl' : (u.fport p).ctrlQ = [] := by
    rw [hp]
    exact hctrl
  have hvol' : (u.fport p).volQ = [] := by rw [hp, FabPort.volSent]
  rw [State.slotDone, hfirst, State.sendPos_filled_idle (s := s) (u := u) hregs (y := (u.fport p).sentNew _ _) hat hrun' hretx' hlate' hctrl'
    (State.sendVol_of_none (by rw [State.fport_filled_same]; exact hvol'))]
  refine congrArg _ (congrArg (s.wired p s.slot 1 · _) ?_)
  rw [FabPort.sentNew, htx]

/-- What is left when a volunteer flit has left against a credit. -/
theorem State.slotDone_vol_leaves {c : Queued} (hretx : (s.fport p).retx = []) (hctrl : (s.fport p).ctrlQ = [])
    (hvol : s.atSlot.sendVol p s.slot 0 = some ((s.volLeft p c).sendNew p s.slot 0 c.flit)) (hroom : (s.fport p).replay.length < 1024)
    (hpair : volPair c < 16) :
    s.slotDone p = { s with out := (s.slotDone p).out, fab := (s.slotDone p).fab } ∧
    (s.slotDone p).out = [s.wired p s.slot 1 (((s.fport p).txSeq + 1) % 1024) (.ctrl .idle),
      s.wired p s.slot 0 (s.fport p).txSeq c.flit] ++ s.out ∧
    (s.slotDone p).fab.nextTx = s.slot + 1 ∧ ((s.slotDone p).fport p).txSeq = ((s.fport p).txSeq + 1) % 1024 ∧
    ((s.slotDone p).fport p).volQ = [] ∧
    ((s.slotDone p).fport p).credits[volPair c % 16] = (s.fport p).credits[volPair c % 16] - 1 ∧
    (∀ q, q ≠ p → (s.slotDone p).fport q = { s.fport q with owed := ((s.slotDone p).fport q).owed }) ∧
    ∀ (q : Fin 24) (i : Fin 16), ((s.slotDone p).fport q).owed[i] =
      (s.fport q).owed[i] + if q.val = c.src ∧ i.val = c.inPair then 1 else 0 := by
  have hdone := State.slotDone_of_vol hrun hlate hretx hctrl hvol hroom
  obtain ⟨hframe, -, hnextTx, hp, hothers, howes⟩ := State.volLeft_leaves (p := p) hrun c
  generalize s.volLeft p c = u at *
  generalize hz : (u.fport p).sentNew c.flit (BitVec.ofNat 32 (s.fld fSCH_EPOCH_VALUE)) = z at hdone
  have hport : (s.slotDone p).fport p = z := by rw [hdone, State.fport_filled_same]
  have hother : ∀ q, q ≠ p → (s.slotDone p).fport q = u.fport q := fun q hq => by
    rw [hdone, State.fport_filled_other _ _ _ _ hq, State.fport_filled_other _ _ _ _ hq]
  have hzowed : z.owed = (u.fport p).owed := by
    rw [← hz]
    rfl
  have howed : ∀ q, ((s.slotDone p).fport q).owed = (u.fport q).owed := fun q => by
    by_cases hq : q = p
    · rw [hq, hport, hzowed]
    · rw [hother q hq]
  have hzport : z.txSeq = ((s.fport p).txSeq + 1) % 1024 ∧ z.volQ = [] ∧ z.credits = ((s.fport p).volSent c).credits := by
    rw [← hz, hp]
    exact ⟨rfl, rfl, rfl⟩
  obtain ⟨hztx, hzvol, hzcredits⟩ := hzport
  have hframe' : s.slotDone p = { s with out := (s.slotDone p).out, fab := (s.slotDone p).fab } := by
    rw [hdone, State.filled_frame, State.filled_frame, hframe]
  refine ⟨hframe', ?_, ?_, ?_, ?_, ?_, fun q hq => ?_, fun q i => ?_⟩
  · rw [hdone, State.filled_frame, State.filled_frame, hframe]
    rfl
  · rw [hdone, State.filled_frame, State.filled_frame]
    exact hnextTx
  · rw [hport, hztx]
  · rw [hport, hzvol]
  · rw [hport]
    simp only [hzcredits, FabPort.volSent, Vector.getElem_mapIdx, Nat.mod_eq_of_lt hpair, if_true]
  · rw [hother q hq]
    exact hothers q hq
  · rw [howed q]
    exact howes q i

end

section

variable {s : State} {p : Fin 24} {slot : Nat} {e : OpenEpoch} {r : Run} {w : Strm} {n : Nat}

/-- The run's stream, then a retransmission. -/
theorem State.slotDone_of_stream {k f : Nat} {y : Sent} (he : s.sch.epoch = some e) (hr : s.runAt p s.slot = some r) (hkind : r.kind = 1)
    (hflits : r.flits = 1) (hw : e.blk.streams[r.stream]? = some w) (hn : e.sent[r.stream]? = some n) (hlt : n < strmFlits w)
    (hacc : s.accessSt (w.src + 304 * n) (min 304 (w.len - 304 * n)) = .ok) (hroom : (s.fport p).replay.length < 1024)
    (hretx : (s.fport p).retx = [(k, f)]) (hf : f ≤ s.slot) (hy : (s.fport p).replay.find? (fun y => y.seq == k) = some y)
    (hs : y.flit.isSown = false) : ∃ m z x, s.slotDone p =
      ((s.atSlot.withEpoch { e.sentTo r.stream (n + 1) with metAt := m }).filled p z
        (s.wired p s.slot 0 (s.fport p).txSeq (s.streamData w n))).filled p x (s.wired p s.slot 1 k y.flit) ∧
      x.txSeq = ((s.fport p).txSeq + 1) % 1024 := by
  obtain ⟨m, hfirst⟩ := State.sendPos_of_stream (s := s.atSlot) he hr hkind hflits hw hn hlt hacc hroom
  have hrun : (s.atSlot.withEpoch { e.sentTo r.stream (n + 1) with metAt := m }).unrun p s.slot 1 := fun r' hr' => by
    rw [State.runAt_withEpoch (s := s.atSlot) he] at hr'
    cases hr.symm.trans hr'
    exact hflits.le
  have hregs : (s.atSlot.withEpoch { e.sentTo r.stream (n + 1) with metAt := m }).regs = s.regs := rfl
  rw [State.wired_congr (s := s) (t := s.atSlot) rfl rfl, State.streamData_atSlot, State.fport_atSlot, State.fld_atSlot] at hfirst
  generalize hu : s.atSlot.withEpoch { e.sentTo r.stream (n + 1) with metAt := m } = u at *
  have hfind : ((s.fport p).sentNew (s.streamData w n) (BitVec.ofNat 32 (s.fld fSCH_EPOCH_VALUE))).replay.find? (fun y => y.seq == k) = some y := by
    rw [FabPort.sentNew, List.find?_append, hy]
    rfl
  generalize hz : (s.fport p).sentNew (s.streamData w n) (BitVec.ofNat 32 (s.fld fSCH_EPOCH_VALUE)) = z at hfind hfirst
  have hport := u.fport_filled_same p z (s.wired p s.slot 0 (s.fport p).txSeq (s.streamData w n))
  have hzsame : z.retx = (s.fport p).retx ∧ z.scramAt = (s.fport p).scramAt ∧ z.txSeq = ((s.fport p).txSeq + 1) % 1024 := by
    rw [← hz]
    exact ⟨rfl, rfl, rfl⟩
  obtain ⟨hzretx, hzat, hztx⟩ := hzsame
  have hsecond := State.sendPos_of_retx (s := s) (t := u.filled p z (s.wired p s.slot 0 (s.fport p).txSeq (s.streamData w n)))
    hregs (by rw [hport, hzat]) hrun (by rw [hport, hzretx, hretx]) hf (by rw [hport, hfind]) hs
  rw [hport] at hsecond
  exact ⟨m, z, { z with retx := [] }, by rw [State.slotDone, hfirst, hsecond, ← hu], hztx⟩

end

/-- Settles O27: position by position, in the order of R153 and R154. -/
theorem slotTransmission : Obligations.SlotTransmission := by
  unfold Obligations.SlotTransmission
  intro s p hup hother hnext htb howed hlate hlen x flit idle sent nxt
  have hroom : (s.fport p).replay.length < 1024 := Nat.lt_succ_of_lt hlen
  have hexec : (s.slotDone p).regs = s.regs → exec .slotTransmit s = .next (s.slotDone p) := exec_slotTransmit hup hother hnext htb howed
  have hsent : ∀ {o}, (s.slotDone p).regs = s.regs → s.slotSent (s.slotDone p) p o → sent (s.slotDone p) o := fun hr h => ⟨hexec hr, h⟩
  refine ⟨fun hrun => ⟨fun hretx hctrl hvol => ?_, fun k f e hretx hf he hsown hvol c hctrl hslot hown => ?_,
    fun c hretx hctrl hvol hsrc hown hslot hrr hpair => ?_⟩,
    fun e r w n k f y he hr hkind hflits hw hn hlt hacc hretx hf hy hsown hctrl hvol => ?_⟩
  · have hdone := State.slotDone_of_idle hrun hlate hretx hctrl
      (fun o pos => State.sendVol_of_none (by rw [State.fport_filled_same, hvol])) (State.sendVol_of_none hvol)
    have hregs : (s.slotDone p).regs = s.regs := by
      rw [hdone, State.regs_filled, State.regs_filled]
      rfl
    refine ⟨s.slotDone p, hsent hregs ?_, ?_, hregs⟩
    · rw [hdone]
      exact s.slotSent_filled s.sch p _ _ _ _
    · rw [hdone, State.fport_filled_same]
  · have hdone := State.slotDone_of_retx_ctrl hrun hlate hretx hf he hsown hctrl hslot hown hroom
    have hregs : (s.slotDone p).regs = s.regs := by
      rw [hdone, State.regs_filled, State.regs_filled]
      rfl
    have hport : (s.slotDone p).fport p = ({ s.fport p with retx := [], ctrlQ := [] } : FabPort).sentNew (s.stamped c.flit)
        (BitVec.ofNat 32 (s.fld fSCH_EPOCH_VALUE)) := by rw [hdone, State.fport_filled_same]
    refine ⟨s.slotDone p, hsent hregs ?_, ?_, ?_, ?_, ?_, hregs⟩
    · rw [hdone]
      exact s.slotSent_filled s.sch p _ _ _ _
    · rw [hport]
      rfl
    · rw [hport]
      rfl
    · rw [hport]
      rfl
    · rw [hport]
      exact ⟨_, List.mem_append_right _ (List.mem_singleton_self _), rfl, rfl⟩
  · have hvol0 := State.sendVol_of_one (s := s.atSlot) (p := p) (pos := 0) hvol hslot hsrc hown hrr hpair
    have hvol1 := fun o pos => State.sendVol_of_one (s := s.atSlot.filled p (s.fport p) o) (p := p) (pos := pos)
      (by rw [State.fport_filled_same, hvol]) hslot hsrc hown (by rw [State.fport_filled_same, hrr]) hpair
    refine ⟨fun hcr => ?_, fun hcr => ?_⟩
    · obtain ⟨hframe, hleft⟩ := State.slotDone_vol_leaves hrun hlate hretx hctrl (hvol0.trans (if_pos hcr)) hroom hpair
      exact ⟨s.slotDone p, hexec (by rw [hframe]), hleft.1, hframe, hleft.2⟩
    · have hno : ¬ 1 ≤ (s.fport p).credits[volPair c % 16] := Nat.not_le.mpr (Nat.lt_one_iff.mpr hcr)
      have hdone := State.slotDone_of_idle hrun hlate hretx hctrl
        (fun o pos => (hvol1 o pos).trans (if_neg (by rwa [State.fport_filled_same]))) (hvol0.trans (if_neg hno))
      have hregs : (s.slotDone p).regs = s.regs := by
        rw [hdone, State.regs_filled, State.regs_filled]
        rfl
      refine ⟨s.slotDone p, hsent hregs ?_, ?_, ?_⟩
      · rw [hdone]
        exact s.slotSent_filled s.sch p _ _ _ _
      · rw [hdone, State.fport_filled_same, hvol]
      · rw [hdone, State.fport_filled_same]
  · obtain ⟨m, z, v, hdone, htx⟩ := State.slotDone_of_stream he hr hkind hflits hw hn hlt hacc hroom hretx hf hy hsown
    have hregs : (s.slotDone p).regs = s.regs := by
      rw [hdone, State.regs_filled, State.regs_filled]
      rfl
    refine ⟨s.slotDone p, hsent hregs ?_, ?_, { e.sentTo r.stream (n + 1) with metAt := m }, ?_, rfl⟩
    · rw [hdone]
      exact s.slotSent_filled _ p _ _ _ _
    · rw [hdone, State.fport_filled_same, htx]
    · rw [hdone]
      rfl

end Sys2Proof.Machine
end

section
/-! PROOF. A port leaves ACTIVE and trains again (R116, R148, R158, R172), of the family 06_fabric_links. -/

namespace Sys2Proof.Machine

open Sys2Proof

/-! ### What the loss of a port leaves beside the port -/

theorem State.faultLeaves.lockLeaves {s t : State} (h : s.faultLeaves t) : s.lockLeaves t := by
  obtain ⟨hframe, hsch, hregs⟩ := h
  refine ⟨hframe, ?_, State.fld_of_sameReg (hregs rSCH_TS_STATUS (by decide) (by decide) (by decide)), fun o ho hf hc _ => hregs o ho hf hc⟩
  generalize t.sch = x at *
  rw [hsch]

theorem State.eventLeaves.lockLeaves {s t : State} (h : s.eventLeaves t) : s.lockLeaves t := by
  obtain ⟨hframe, hregs⟩ := h
  have hsch : t.sch = s.sch := by rw [hframe]
  have hfab : t.fab = s.fab := by rw [hframe]
  refine ⟨?_, ?_, State.fld_of_sameReg (hregs rSCH_TS_STATUS (by decide)), fun o ho _ _ _ => hregs o ho⟩
  · rw [hsch, hfab]
    exact hframe
  · rw [hsch]

theorem State.fport_of_fab {s t : State} (h : t.fab = s.fab) (q : Fin 24) : t.fport q = s.fport q := by
  rw [State.fport, h]
  rfl

/-- From `s` to `t` there is at most what a judgement of the lock leaves, and the ports have other control messages that wait. -/
def State.lossLeaves (s t : State) : Prop :=
  s.lockLeaves t ∧ ∀ q, t.fport q = { s.fport q with ctrlQ := (t.fport q).ctrlQ }

theorem State.lossLeaves.trans {s t u : State} (h : s.lossLeaves t) (k : t.lossLeaves u) : s.lossLeaves u := by
  obtain ⟨hlock, hports⟩ := h
  obtain ⟨klock, kports⟩ := k
  exact ⟨hlock.trans klock, fun q => (kports q).trans (congrArg (fun x : FabPort => { x with ctrlQ := (u.fport q).ctrlQ }) (hports q))⟩

theorem State.lossLeaves_of_fab {s t : State} (h : s.lockLeaves t) (hfab : t.fab = s.fab) : s.lossLeaves t := by
  refine ⟨h, fun q => ?_⟩
  rw [State.fport_of_fab hfab]

theorem State.eventLeaves.fab_eq {s t : State} (h : s.eventLeaves t) : t.fab = s.fab := by
  obtain ⟨hframe, -⟩ := h
  rw [hframe]

theorem State.eventLeaves.sch_eq {s t : State} (h : s.eventLeaves t) : t.sch = s.sch := by
  obtain ⟨hframe, -⟩ := h
  rw [hframe]

theorem State.eventLeaves.lossLeaves {s t : State} (h : s.eventLeaves t) : s.lossLeaves t :=
  State.lossLeaves_of_fab h.lockLeaves h.fab_eq

/-- A flood changes what waits on the ports. -/
theorem State.fport_floodOwn (s : State) (kind : Fin 5) (n : Notice) (q : Fin 24) :
    (s.floodOwn kind n).fport q = { s.fport q with ctrlQ := ((s.floodOwn kind n).fport q).ctrlQ } := by
  obtain ⟨-, hports⟩ := State.flood_leaves kind.val n none s.slot
    ({ s with sch := { s.sch with ownNum := s.sch.ownNum.set kind ((s.sch.ownNum[kind] + 1) % 65536) } } : State)
  rw [← State.floodOwn] at hports
  have hq : (s.floodOwn kind n).fport q = _ := hports q
  rw [hq]
  rfl

theorem State.fport_holdAndSend (s : State) (tr : Nat) (n : Notice) (q : Fin 24) :
    (s.holdAndSend tr n).fport q = { s.fport q with ctrlQ := ((s.holdAndSend tr n).fport q).ctrlQ } := by
  have hfab : (s.holdAndSend tr n).fab = ((s.holdTr tr).floodOwn 2 n).fab := rfl
  rw [State.fport_of_fab hfab]
  exact (s.holdTr tr).fport_floodOwn 2 n q

theorem State.lossLeaves_fault (s : State) (cause : Nat) : s.lossLeaves (s.fault cause) := by
  refine ⟨(s.faultLeaves_fault cause).lockLeaves, fun q => ?_⟩
  by_cases hrun : s.running = true
  · cases hrec : s.sch.recorded with
    | false =>
      obtain ⟨-, -, hfab⟩ := s.faultLeaves_recordFault cause s.devNum 0
      have hport : (s.recordFault cause s.devNum 0).fport q = s.fport q := State.fport_of_fab hfab q
      rw [State.fault_eq_holdAndSend hrun hrec, ← hport]
      exact State.fport_holdAndSend _ _ _ q
    | true =>
      have hfab : (s.fault cause).fab = s.fab := by
        rw [State.logAdds.fault_later hrun hrec, State.holdTr, State.logWrite_frame]
      rw [State.fport_of_fab hfab]
  · rw [State.fault, if_neg hrun]

/-- Where the first fault of the attempt is recorded, a fault keeps SCH_FAULT and what is held of T_r. -/
theorem State.fault_of_recorded {s : State} (hrec : s.sch.recorded = true) (cause : Nat) :
    (s.fault cause).reg rSCH_FAULT = s.reg rSCH_FAULT ∧ ∀ x ∈ s.sch.trs, x ∈ (s.fault cause).sch.trs := by
  by_cases hrun : s.running = true
  · rw [State.logAdds.fault_later hrun hrec]
    obtain ⟨hframe, hregs⟩ := s.eventLeaves_logWrite 0x0101 blkSCH 0 .epochFault (0x1000 + cause) 0 (s.fld fSCH_STEP_VALUE)
    generalize s.logWrite 0x0101 blkSCH 0 .epochFault (0x1000 + cause) 0 (s.fld fSCH_STEP_VALUE) = t at *
    refine ⟨hregs rSCH_FAULT (by decide), fun x hx => List.mem_cons_of_mem _ ?_⟩
    rw [hframe]
    exact hx
  · rw [State.fault, if_neg hrun]
    exact ⟨rfl, fun _ hx => hx⟩

/-- While LOCKED reads 0, only a count ends with the loss of the lock. -/
theorem State.loseLock_of_unlocked {s : State} (hl : s.flag fSCH_TS_STATUS_LOCKED = false) : s.loseLock = s.withExchanges 0 0 := by
  rw [State.loseLock, hl]
  rfl

/-- The loss of the lock is shown, and told with its event. -/
def State.lockLost (s : State) : State :=
  (s.withExchanges 0 0).unlocked.event0 blkSCH 0x0104 (s.fld fSCH_TS_CTRL_PARENT_PORT) .timeout

theorem State.loseLock_of_locked {s : State} (hl : s.flag fSCH_TS_STATUS_LOCKED = true) : s.loseLock = s.lockLost.fault 8 := by
  rw [State.loseLock, hl]
  rfl

theorem State.eventLeaves_lockLost (s : State) : (s.withExchanges 0 0).unlocked.eventLeaves s.lockLost := by
  rw [State.lockLost, State.event0]
  exact State.eventLeaves_event _ _ _ _ _

theorem State.lossLeaves_loseLock (s : State) : s.lossLeaves s.loseLock := by
  refine ⟨s.loseLock_leaves.1, fun q => ?_⟩
  cases hl : s.flag fSCH_TS_STATUS_LOCKED with
  | false =>
    rw [State.loseLock_of_unlocked hl]
    rfl
  | true =>
    have hport : s.lockLost.fport q = s.fport q := State.fport_of_fab s.eventLeaves_lockLost.fab_eq q
    rw [State.loseLock_of_locked hl, ← hport]
    exact (State.lossLeaves_fault _ 8).2 q

/-- Once the first fault of an attempt is recorded, the loss of the lock keeps SCH_FAULT, and a T_r that is held. -/
theorem State.loseLock_of_recorded {s : State} (hrec : s.sch.recorded = true) :
    s.loseLock.reg rSCH_FAULT = s.reg rSCH_FAULT ∧ ∀ x ∈ s.sch.trs, x ∈ s.loseLock.sch.trs := by
  cases hl : s.flag fSCH_TS_STATUS_LOCKED with
  | false =>
    rw [State.loseLock_of_unlocked hl]
    exact ⟨rfl, fun _ hx => hx⟩
  | true =>
    rw [State.loseLock_of_locked hl]
    have hsch := s.eventLeaves_lockLost.sch_eq
    obtain ⟨hreg, htrs⟩ := State.fault_of_recorded (s := s.lockLost) (by rw [hsch]; exact hrec) 8
    refine ⟨?_, fun x hx => htrs x (by rw [hsch]; exact hx)⟩
    rw [hreg, s.eventLeaves_lockLost.2 rSCH_FAULT (by decide), State.reg_unlocked _ (by decide)]
    rfl

/-! ### A port leaves ACTIVE -/

theorem State.reg_pulse (s : State) {n o : Nat} (h : ∀ c < 3, o ≠ rLDG_EV_SRC c n) : (s.pulse n).reg o = s.reg o := by
  rw [State.pulse, State.reg_srcLevel _ h, State.reg_srcLevel _ h]

/-- The control messages that outlast their link (R148). -/
def outlasts (q : Queued) : Bool := match q.flit with
  | .ctrl (.nak _) => false | .ctrl (.credit _) => false | .ctrl (.tsRequest _) => false | .ctrl (.tsReply ..) => false
  | _ => true

/-- What a port keeps of an ACTIVE link that ends. -/
def FabPort.lost (x : FabPort) : FabPort :=
  { FabPort.reset with
    ctrlQ := x.ctrlQ.filter outlasts, volQ := x.volQ, coeffs := x.coeffs, dsOn := x.dsOn, maxOn := x.maxOn, retxCount := x.retxCount }

/-- The port shows the loss of its link. -/
def State.lossShown (s : State) (p : Fin 24) : State :=
  (((s.setPort p (s.fport p).lost).setFld (fFAB_PORT_STATUS_SOWN_OK p.val) 0).setFld (fFAB_PORT_STATUS_VERSION p.val) 0).raise
    (fFAB_PORT_STATUS_LOSS p.val)

/-- It is told with its event. -/
def State.lossTold (s : State) (p : Fin 24) : State := (s.lossShown p).event0 blkFAB 0x0105 p.val .targetReset

/-- An open epoch has a run on the port. -/
def State.runsOn (s : State) (p : Fin 24) : Prop := ∃ e, s.sch.epoch = some e ∧ e.blk.usesPort p.val = true

section

variable {s : State} {p : Fin 24}

/-- A port that leaves ACTIVE faults an epoch with a run on it, and its parent link ends with it. -/
theorem State.leaveFab_of_up (h : s.portUp p = true) : ∃ u, (s.runsOn p ∧ u = (s.lossTold p).fault 4 ∨ ¬ s.runsOn p ∧ u = s.lossTold p) ∧
    (s.leaveFab p = u ∨ s.leaveFab p = u.loseLock) := by
  have hup : ¬ s.portUp p = false := by rw [h]; nofun
  have hlock : ∀ u : State, s.leaveFab p = (if s.flag fSCH_TS_CTRL_ROOT = false ∧ s.fld fSCH_TS_CTRL_PARENT_PORT = p.val then u.loseLock else u) →
      s.leaveFab p = u ∨ s.leaveFab p = u.loseLock := fun u hu => by
    rw [hu]
    split
    · exact .inr rfl
    · exact .inl rfl
  cases he : s.sch.epoch with
  | none =>
    refine ⟨s.lossTold p, .inr ⟨?_, rfl⟩, hlock _ ?_⟩
    · rintro ⟨e, heq, -⟩
      exact absurd (he.symm.trans heq) nofun
    · simp only [State.leaveFab, if_neg hup, he]
      rfl
  | some e =>
    cases hon : e.blk.usesPort p.val with
    | true =>
      refine ⟨(s.lossTold p).fault 4, .inl ⟨⟨e, he, hon⟩, rfl⟩, hlock _ ?_⟩
      simp only [State.leaveFab, if_neg hup, he, hon, if_true]
      rfl
    | false =>
      refine ⟨s.lossTold p, .inr ⟨?_, rfl⟩, hlock _ ?_⟩
      · rintro ⟨e', heq, hon'⟩
        cases he.symm.trans heq
        exact absurd (hon.symm.trans hon') nofun
      · simp only [State.leaveFab, if_neg hup, he, hon, Bool.false_eq_true, if_false]
        rfl

theorem State.reg_lossShown {o : Nat} (h : o ≠ rFAB_PORT_STATUS p.val) : (s.lossShown p).reg o = s.reg o := by
  rw [State.lossShown, State.raise, State.reg_setFld_other _ _ _ _ h, State.reg_setFld_other _ _ _ _ h, State.reg_setFld_other _ _ _ _ h]
  rfl

/-- LOSS reads 1, VERSION and SOWN_OK 0. -/
theorem State.status_lossShown : (s.lossShown p).flag (fFAB_PORT_STATUS_LOSS p.val) = true ∧
    (s.lossShown p).fld (fFAB_PORT_STATUS_VERSION p.val) = 0 ∧ (s.lossShown p).sownOk p = false := by
  have hver : ∀ t : State, (t.raise (fFAB_PORT_STATUS_LOSS p.val)).fld (fFAB_PORT_STATUS_VERSION p.val) = t.fld (fFAB_PORT_STATUS_VERSION p.val) :=
    fun t => State.fld_setFld_bits t (fFAB_PORT_STATUS_LOSS p.val) (fFAB_PORT_STATUS_VERSION p.val) 1 (show 10 + 1 ≤ 64 by decide) rfl
      (.inr (show 10 + 1 ≤ 12 by decide))
  have hown : ∀ t : State, (t.raise (fFAB_PORT_STATUS_LOSS p.val)).fld (fFAB_PORT_STATUS_SOWN_OK p.val) = t.fld (fFAB_PORT_STATUS_SOWN_OK p.val) :=
    fun t => State.fld_setFld_bits t (fFAB_PORT_STATUS_LOSS p.val) (fFAB_PORT_STATUS_SOWN_OK p.val) 1 (show 10 + 1 ≤ 64 by decide) rfl
      (.inr (show 10 + 1 ≤ 11 by decide))
  have hown' : ∀ t : State, (t.setFld (fFAB_PORT_STATUS_VERSION p.val) 0).fld (fFAB_PORT_STATUS_SOWN_OK p.val) =
      t.fld (fFAB_PORT_STATUS_SOWN_OK p.val) := fun t =>
    State.fld_setFld_bits t (fFAB_PORT_STATUS_VERSION p.val) (fFAB_PORT_STATUS_SOWN_OK p.val) 0 (show 12 + 4 ≤ 64 by decide) rfl
      (.inl (show 11 + 1 ≤ 12 by decide))
  refine ⟨State.flag_raise_same _ rfl (show 10 < 64 by decide), ?_, ?_⟩
  · rw [State.lossShown, hver, State.fld_setFld_same _ _ _ (show 12 + 4 ≤ 64 by decide)]
    rfl
  · rw [State.sownOk, State.flag, State.lossShown, hown, hown', State.fld_setFld_same _ _ _ (show 11 + 1 ≤ 64 by decide)]
    rfl

end

section

variable (s : State) (p : Fin 24)

theorem State.lossShown_frame : s.lossShown p = { s.setPort p (s.fport p).lost with regs := (s.lossShown p).regs } :=
  State.setFld_frame (State.setFld_frame (State.setFld_frame (s := s.setPort p (s.fport p).lost) (t := s.setPort p (s.fport p).lost) rfl
    (fFAB_PORT_STATUS_SOWN_OK p.val) 0) (fFAB_PORT_STATUS_VERSION p.val) 0) (fFAB_PORT_STATUS_LOSS p.val) 1

theorem State.fport_lossShown (q : Fin 24) : (s.lossShown p).fport q = if q = p then (s.fport p).lost else s.fport q := by
  have hfab : (s.lossShown p).fab = (s.setPort p (s.fport p).lost).fab := by rw [State.lossShown_frame]
  rw [State.fport_of_fab hfab, State.fport_setPort]

theorem State.eventLeaves_lossTold : (s.lossShown p).eventLeaves (s.lossTold p) := by
  rw [State.lossTold, State.event0]
  exact State.eventLeaves_event _ _ _ _ _

/-- The registers that the schedule unit reads are as they were. -/
theorem State.reg_lossTold {o : Nat} (h : o < 0x800000) (hs : o ≠ rFAB_PORT_STATUS p.val) : (s.lossTold p).reg o = s.reg o :=
  ((s.eventLeaves_lossTold p).2 o h).trans (State.reg_lossShown hs)

theorem State.sch_lossTold : (s.lossTold p).sch = s.sch := by
  rw [(s.eventLeaves_lossTold p).sch_eq, State.lossShown_frame]
  rfl

/-- The entry of the event comes first. -/
theorem State.lossTold_logged : ∃ t : State, t.fld fLOG_WR_COUNT = s.fld fLOG_WR_COUNT ∧ t.sch.tb = s.sch.tb ∧
    (t.logWrite 0x0105 blkFAB 0 .targetReset 0 0 p.val).logAdds (s.lossTold p) 7 := by
  refine ⟨(s.lossShown p).pulse (32 + p.val), State.fld_of_sameReg ?_, ?_, State.logAdds.evPost _ _⟩
  · have hfar : ∀ c < 3, fLOG_WR_COUNT.off ≠ rLDG_EV_SRC c (32 + p.val) := fun c hc he => by
      have he' : 0x1000000 = 0xD01100 + 4096 * c + 4 * (32 + p.val) := he
      omega
    have hstatus : fLOG_WR_COUNT.off ≠ rFAB_PORT_STATUS p.val := show 0x1000000 ≠ 0x301004 + 64 * p.val by omega
    rw [State.reg_pulse _ hfar, State.reg_lossShown hstatus]
  · rw [State.pulse_frame, State.lossShown_frame]
    rfl

end

/-! ### A port trains again -/

/-- The port shows EQUALIZE. -/
def State.equalizing (s : State) (p : Fin 24) : State :=
  ((s.setFld (fFAB_PORT_STATUS_STATE p.val) 2).setFld (fFAB_PORT_STATUS_REASON p.val) 0).pulse (32 + p.val)

/-- The port as its training starts. -/
def State.restarted (s : State) (p : Fin 24) : FabPort :=
  { s.fport p with
    since := s.now, coeffs := (s.fport p).coeffs || s.fabRecord p, dsOn := s.fld (fFAB_PORT_CTRL_DS p.val)
    maxOn := s.fld (fFAB_PORT_CTRL_MAX_VERSION p.val) }

/-- The port trains again, and the retrain is counted. -/
def State.retrained (s : State) (p : Fin 24) : State :=
  ((s.equalizing p).setPort p ((s.equalizing p).restarted p)).count (fFAB_RETRAIN_COUNT p.val) 1

theorem State.retrain_eq (s : State) (p : Fin 24) : s.retrain p = (s.leaveFab p).retrained p := rfl

section

variable (s : State) (p : Fin 24)

theorem State.equalizing_frame : s.equalizing p = { s with regs := (s.equalizing p).regs } := by
  have hset := State.setFld_frame (State.setFld_frame (s := s) (t := s) rfl (fFAB_PORT_STATUS_STATE p.val) 2) (fFAB_PORT_STATUS_REASON p.val) 0
  unfold State.equalizing
  generalize (s.setFld (fFAB_PORT_STATUS_STATE p.val) 2).setFld (fFAB_PORT_STATUS_REASON p.val) 0 = t at *
  exact (State.pulse_frame t _).trans (congrArg (fun x : State => { x with regs := (t.pulse (32 + p.val)).regs }) hset)

theorem State.fport_equalizing (q : Fin 24) : (s.equalizing p).fport q = s.fport q := by
  rw [State.equalizing_frame]
  rfl

theorem State.retrained_frame : s.retrained p = { s with
    regs := (s.retrained p).regs, fab := { s.fab with ports := s.fab.ports.set p ((s.equalizing p).restarted p) } } := by
  have hframe := s.equalizing_frame p
  rw [State.retrained]
  generalize (s.equalizing p).restarted p = x
  generalize s.equalizing p = t at *
  rw [State.count]
  generalize min (_ : Nat) _ = k
  rw [hframe]
  rfl

theorem State.fport_retrained_same : (s.retrained p).fport p = (s.equalizing p).restarted p := by
  rw [State.retrained, State.count]
  exact State.fport_setPort_same _ _ _

theorem State.fport_retrained_other {q : Fin 24} (h : q ≠ p) : (s.retrained p).fport q = s.fport q := by
  rw [State.retrained, State.count, ← s.fport_equalizing p q]
  exact State.fport_setPort_other _ _ h

theorem State.reg_equalizing {o : Nat} (h : o < 0x800000) (hs : o ≠ rFAB_PORT_STATUS p.val) : (s.equalizing p).reg o = s.reg o := by
  have hfar : ∀ c < 3, o ≠ rLDG_EV_SRC c (32 + p.val) := fun c hc he => by
    rw [rLDG_EV_SRC] at he
    omega
  rw [State.equalizing, State.reg_pulse _ hfar, State.reg_setFld_other _ _ _ _ hs, State.reg_setFld_other _ _ _ _ hs]

theorem State.reg_retrained {o : Nat} (h : o ≠ rFAB_RETRAIN p.val) : (s.retrained p).reg o = (s.equalizing p).reg o := by
  rw [State.retrained, State.count, State.reg_setFld_other _ _ _ _ h]
  rfl

/-- Of its status the port changes STATE and REASON. -/
theorem State.status_retrained : (s.retrained p).portState p.val = 2 ∧
    ∀ f : Fld, f.off = rFAB_PORT_STATUS p.val → 8 ≤ f.lo → (s.retrained p).fld f = s.fld f := by
  have hreg : (s.retrained p).reg (rFAB_PORT_STATUS p.val) =
      ((s.setFld (fFAB_PORT_STATUS_STATE p.val) 2).setFld (fFAB_PORT_STATUS_REASON p.val) 0).reg (rFAB_PORT_STATUS p.val) := by
    have hfar : ∀ c < 3, rFAB_PORT_STATUS p.val ≠ rLDG_EV_SRC c (32 + p.val) := fun c hc he => by
      rw [rLDG_EV_SRC, rFAB_PORT_STATUS] at he
      omega
    rw [State.reg_retrained _ _ (by rw [rFAB_PORT_STATUS, rFAB_RETRAIN]; omega), State.equalizing, State.reg_pulse _ hfar]
  refine ⟨?_, fun f hoff hlo => ?_⟩
  · rw [State.portState, State.fld_of_sameReg (f := fFAB_PORT_STATUS_STATE p.val) hreg,
      State.fld_setFld_bits _ (fFAB_PORT_STATUS_REASON p.val) (fFAB_PORT_STATUS_STATE p.val) 0 (show 4 + 4 ≤ 64 by decide) rfl
        (.inl (show 0 + 4 ≤ 4 by decide)), State.fld_setFld_same _ _ _ (show 0 + 4 ≤ 64 by decide)]
    rfl
  · have hsame : (s.retrained p).fld f = ((s.setFld (fFAB_PORT_STATUS_STATE p.val) 2).setFld (fFAB_PORT_STATUS_REASON p.val) 0).fld f := by
      rw [← hoff] at hreg
      exact State.fld_of_sameReg hreg
    rw [hsame, State.fld_setFld_bits _ (fFAB_PORT_STATUS_REASON p.val) f 0 (show 4 + 4 ≤ 64 by decide) hoff (.inr hlo),
      State.fld_setFld_bits _ (fFAB_PORT_STATUS_STATE p.val) f 2 (show 0 + 4 ≤ 64 by decide) hoff (.inr (le_trans (show 0 + 4 ≤ 8 by decide) hlo))]

theorem State.logAdds_setFld_below (s : State) (f : Fld) (v : Nat) (h : f.off < 0x800000) : s.logAdds (s.setFld f v) 0 :=
  State.logAdds.setFld s v (by rw [rLOG_WR]; omega) (by rw [rLOG_ERR]; omega)

theorem State.logAdds_retrained : s.logAdds (s.retrained p) 0 := by
  have hshown : s.logAdds ((s.setFld (fFAB_PORT_STATUS_STATE p.val) 2).setFld (fFAB_PORT_STATUS_REASON p.val) 0) 0 :=
    (State.logAdds_setFld_below s (fFAB_PORT_STATUS_STATE p.val) 2 (show 0x301004 + 64 * p.val < 0x800000 by omega)).trans
      (State.logAdds_setFld_below _ (fFAB_PORT_STATUS_REASON p.val) 0 (show 0x301004 + 64 * p.val < 0x800000 by omega))
  have hpulsed : s.logAdds (s.equalizing p) 0 := hshown.trans (State.logAdds.pulse _ (by omega))
  have hport : (s.equalizing p).logAdds ((s.equalizing p).setPort p ((s.equalizing p).restarted p)) 0 := State.logAdds.of_regs rfl rfl
  rw [State.retrained, State.count]
  exact (hpulsed.trans hport).trans
    (State.logAdds_setFld_below _ (fFAB_RETRAIN_COUNT p.val) _ (show 0x301030 + 64 * p.val < 0x800000 by omega))

end

/-! ### What is left of the port, and of the others -/

section

variable {s : State} {p : Fin 24} (h : s.portUp p = true)

include h

theorem State.lossLeaves_leaveFab : (s.lossShown p).lossLeaves (s.leaveFab p) ∧ (s.lossTold p).logAdds (s.leaveFab p) 24 := by
  obtain ⟨u, hu, hv⟩ := State.leaveFab_of_up h
  have hfault : (s.lossShown p).lossLeaves u ∧ (s.lossTold p).logAdds u 8 := by
    rcases hu with ⟨-, rfl⟩ | ⟨-, rfl⟩
    · exact ⟨(s.eventLeaves_lossTold p).lossLeaves.trans (State.lossLeaves_fault _ 4), State.logAdds.fault _ 4⟩
    · exact ⟨(s.eventLeaves_lossTold p).lossLeaves, (State.logAdds.refl _).mono (by decide)⟩
  obtain ⟨hleaves, hadds⟩ := hfault
  rcases hv with hv | hv
  · rw [hv]
    exact ⟨hleaves, hadds.mono (by decide)⟩
  · rw [hv]
    exact ⟨hleaves.trans u.lossLeaves_loseLock, hadds.trans (State.logAdds.loseLock u)⟩

/-- An open epoch with a run on the port faults with cause GLEAN. -/
theorem State.leaveFab_faults (hon : s.runsOn p) (hrun : s.running = true) (hrec : s.sch.recorded = false) :
    (s.leaveFab p).fld fSCH_FAULT_CAUSE = 4 ∧ (s.leaveFab p).fld fSCH_FAULT_ORIGIN = s.devNum ∧
      s.replayTime ∈ (s.leaveFab p).sch.trs := by
  obtain ⟨u, hu, hv⟩ := State.leaveFab_of_up h
  have hsch := s.sch_lossTold p
  have hrun' : (s.lossTold p).running = true := by
    rw [State.running_congr (State.reg_lossTold s p (by decide) (by rw [rFAB_PORT_STATUS, rSCH_STATE]; omega)), hrun]
  obtain ⟨-, hfirst, htrs, hcause, horigin⟩ := State.fault_first hrun' (by rw [hsch]; exact hrec) 4
  have hdev : (s.lossTold p).devNum = s.devNum := State.devNum_congr
    (State.reg_lossTold s p (show 0x300000 < 0x800000 by decide) (show 0x300000 ≠ 0x301004 + 64 * p.val by omega))
  rw [hdev] at horigin
  rw [State.replayTime_congr (congrArg Sch.tb hsch)] at htrs
  rcases hu with ⟨-, rfl⟩ | ⟨hoff, -⟩
  · rcases hv with hv | hv
    · rw [hv]
      exact ⟨hcause, horigin, by rw [htrs]; exact List.mem_cons_self⟩
    · obtain ⟨hreg, hkept⟩ := State.loseLock_of_recorded hfirst
      rw [hv]
      exact ⟨(State.fld_of_sameReg (f := fSCH_FAULT_CAUSE) hreg).trans hcause,
        (State.fld_of_sameReg (f := fSCH_FAULT_ORIGIN) hreg).trans horigin, hkept _ (by rw [htrs]; exact List.mem_cons_self)⟩
  · exact absurd hon hoff

/-- With no run on the port and no lock to lose, no fault is found. -/
theorem State.leaveFab_quiet (hoff : ¬ s.runsOn p) (hlock : s.flag fSCH_TS_STATUS_LOCKED = false) :
    (s.leaveFab p).sch.trs = s.sch.trs := by
  obtain ⟨u, hu, hv⟩ := State.leaveFab_of_up h
  have hsch := s.sch_lossTold p
  rcases hu with ⟨hon, -⟩ | ⟨-, rfl⟩
  · exact absurd hon hoff
  · have hlock' : (s.lossTold p).flag fSCH_TS_STATUS_LOCKED = false := by
      rw [State.flag_of_sameReg (f := fSCH_TS_STATUS_LOCKED)
        (State.reg_lossTold s p (by decide) (show rSCH_TS_STATUS ≠ 0x301004 + 64 * p.val by rw [rSCH_TS_STATUS]; omega)), hlock]
    rcases hv with hv | hv
    · rw [hv, hsch]
    · rw [hv, State.loseLock_of_unlocked hlock', State.withExchanges]
      dsimp only
      rw [hsch]

/-- The trouble log names the port's loss. -/
theorem State.logged_retrain : s.logged (s.retrain p) 0x0105 blkFAB 0 .targetReset 0 0 p.val := by
  obtain ⟨t, hcount, htb, hadds⟩ := s.lossTold_logged p
  have hall := (hadds.trans (State.lossLeaves_leaveFab h).2).trans (State.logAdds_retrained (s.leaveFab p) p)
  rw [← State.retrain_eq] at hall
  have hlogged := State.logged_of_logAdds (by decide) hall
  rw [State.logged, hcount, htb] at hlogged
  exact hlogged

/-- The port's status after its loss: STATE is EQUALIZE, LOSS 1, VERSION and SOWN_OK 0. -/
theorem State.status_retrain : (s.retrain p).portState p.val = 2 ∧ (s.retrain p).flag (fFAB_PORT_STATUS_LOSS p.val) = true ∧
    (s.retrain p).fld (fFAB_PORT_STATUS_VERSION p.val) = 0 ∧ (s.retrain p).sownOk p = false := by
  obtain ⟨⟨-, -, -, hregs⟩, -⟩ := (State.lossLeaves_leaveFab h).1
  obtain ⟨hstate, hkept⟩ := State.status_retrained (s.leaveFab p) p
  obtain ⟨hloss, hversion, hown⟩ := State.status_lossShown (s := s) (p := p)
  have hreg : (s.leaveFab p).reg (rFAB_PORT_STATUS p.val) = (s.lossShown p).reg (rFAB_PORT_STATUS p.val) := by
    refine hregs _ ?_ ?_ ?_ ?_
    all_goals
      simp only [rFAB_PORT_STATUS, rSCH_FAULT, rSCH_FAULT_COUNT, rSCH_TS_STATUS]
      omega
  have hsame : ∀ f : Fld, f.off = rFAB_PORT_STATUS p.val → 8 ≤ f.lo → (s.retrain p).fld f = (s.lossShown p).fld f := fun f hoff hlo => by
    rw [State.retrain_eq, hkept f hoff hlo]
    exact State.fld_of_sameReg (hoff ▸ hreg)
  refine ⟨hstate, ?_, ?_, ?_⟩
  · rw [State.flag, hsame (fFAB_PORT_STATUS_LOSS p.val) rfl (show 8 ≤ 10 by decide)]
    exact hloss
  · rw [hsame (fFAB_PORT_STATUS_VERSION p.val) rfl (show 8 ≤ 12 by decide)]
    exact hversion
  · rw [State.sownOk, State.flag, hsame (fFAB_PORT_STATUS_SOWN_OK p.val) rfl (show 8 ≤ 11 by decide)]
    exact hown

/-- A port that retrains has left ACTIVE (R148, R158). -/
theorem leftActive_retrain : (s.retrain p).portState p.val = 2 ∧ leftActive s (s.retrain p) p := by
  obtain ⟨hstate, hloss, hversion, hown⟩ := State.status_retrain h
  obtain ⟨⟨hframe, -, -, -⟩, hports⟩ := (State.lossLeaves_leaveFab h).1
  have hlost : (s.leaveFab p).fport p = { (s.fport p).lost with ctrlQ := ((s.leaveFab p).fport p).ctrlQ } := by
    have hp := hports p
    rwa [State.fport_lossShown, if_pos rfl] at hp
  have hport : (s.retrain p).fport p = ((s.leaveFab p).equalizing p).restarted p := by
    rw [State.retrain_eq, State.fport_retrained_same]
  rw [State.restarted, State.fport_equalizing, hlost] at hport
  have hsame : (s.retrain p).rdm = s.rdm ∧ (s.retrain p).eth = s.eth ∧ (s.retrain p).ckp = s.ckp ∧
      (s.retrain p).sch = (s.leaveFab p).sch := by
    rw [State.retrain_eq, State.retrained_frame]
    dsimp only
    rw [hframe, State.lossShown_frame]
    exact ⟨rfl, rfl, rfl, rfl⟩
  obtain ⟨hrdm, heth, hckp, hsch⟩ := hsame
  have hfld : ∀ f : Fld, f.off < 0x800000 → f.off ≠ rFAB_PORT_STATUS p.val → f.off ≠ rFAB_RETRAIN p.val →
      (s.retrain p).fld f = (s.leaveFab p).fld f := fun f hlo hst hre => State.fld_of_sameReg (by
    rw [State.retrain_eq, State.reg_retrained _ _ hre, State.reg_equalizing _ _ hlo hst])
  refine ⟨hstate, hloss, hversion, hown, State.logged_retrain h, ?_, ?_, ?_, ?_, ?_, hrdm, heth, hckp, ?_, ?_, fun q hq => ?_⟩
  · rw [hport]
    rfl
  · rw [hport]
    rfl
  · rw [hport]
    rfl
  · rw [hport]
    rfl
  · rw [hport]
    rfl
  · intro e he hon hrun hrec
    obtain ⟨hcause, horigin, htrs⟩ := State.leaveFab_faults h ⟨e, he, hon⟩ hrun hrec
    have hfault : ∀ f : Fld, f.off = rSCH_FAULT → (s.retrain p).fld f = (s.leaveFab p).fld f := fun f hf => by
      refine hfld f ?_ ?_ ?_
      all_goals
        simp only [hf, rSCH_FAULT, rFAB_PORT_STATUS, rFAB_RETRAIN]
        omega
    rw [hfault fSCH_FAULT_CAUSE rfl, hfault fSCH_FAULT_ORIGIN rfl, hsch]
    exact ⟨hcause, horigin, htrs⟩
  · intro e he hoff hlock
    rw [hsch]
    refine State.leaveFab_quiet h (fun hon => ?_) hlock
    obtain ⟨e', he', hon⟩ := hon
    cases he.symm.trans he'
    exact absurd (hoff.symm.trans hon) nofun
  · have hother : (s.retrain p).fport q = (s.leaveFab p).fport q := by rw [State.retrain_eq, State.fport_retrained_other _ _ hq]
    have hq' := hports q
    rw [State.fport_lossShown, if_neg hq, ← hother] at hq'
    exact hq'

end

end Sys2Proof.Machine
end

section
/-! PROOF. Sequence numbers, retransmission and credits on a link (R151, R154 to R159, R166), of the family 06_fabric_links. -/

namespace Sys2Proof.Machine

open Sys2Proof

/-! ### SEQs that are named in NAKs (R155) -/

/-- A NAK in the queue names the SEQ. -/
def nakNames (l : List Queued) (q : Nat) : Prop := ∃ e ∈ l, ∃ k, e.flit = .ctrl (.nak k) ∧ BitVec.ofNat 10 q ∈ k

/-- A NAK that names fewer than 16 SEQs. -/
def nakRoom (x : Queued) : Bool := match x.flit with | .ctrl (.nak k) => k.length < 16 | _ => false

/-- The queue up to an entry, with the SEQ in the first NAK that has room. -/
def nakStep (q : Nat) (a : List Queued × Bool) (x : Queued) : List Queued × Bool :=
  match x.flit with
  | .ctrl (.nak k) => if !a.2 && k.length < 16 then (a.1 ++ [{ x with flit := .ctrl (.nak (k ++ [BitVec.ofNat 10 q])) }], true)
                      else (a.1 ++ [x], a.2)
  | _ => (a.1 ++ [x], a.2)

theorem addNak_eq (slot : Nat) (l : List Queued) (q : Nat) : addNak slot l q =
    if l.any nakRoom then (l.foldl (nakStep q) ([], false)).1 else l ++ [{ flit := .ctrl (.nak [BitVec.ofNat 10 q]), slot := slot }] := rfl

theorem nakNames.mono {l r : List Queued} {q : Nat} (h : nakNames l q) (hs : l ⊆ r) : nakNames r q := by
  obtain ⟨e, he, hrest⟩ := h
  exact ⟨e, hs he, hrest⟩

section

variable (q : Nat)

/-- An entry is put behind the others: itself, or with the SEQ, which then has its place. -/
theorem nakStep_cases (a : List Queued × Bool) (x : Queued) :
    (nakStep q a x = (a.1 ++ [x], a.2) ∧ (a.2 = true ∨ nakRoom x = false)) ∨
    (∃ k, x.flit = .ctrl (.nak k) ∧ nakStep q a x = (a.1 ++ [{ x with flit := .ctrl (.nak (k ++ [BitVec.ofNat 10 q])) }], true)) := by
  unfold nakStep nakRoom
  split
  case h_1 k hk =>
    split
    case isTrue h => exact .inr ⟨k, hk, rfl⟩
    case isFalse h =>
      refine .inl ⟨rfl, ?_⟩
      cases ha : a.2 with
      | true => exact .inl rfl
      | false =>
        rw [ha] at h
        exact .inr (by simpa using h)
  case h_2 => exact .inl ⟨rfl, .inr rfl⟩

/-- What the queue named it still names. -/
theorem nakNames_foldl {j : Nat} (l : List Queued) (a : List Queued × Bool) (h : nakNames (a.1 ++ l) j) :
    nakNames (l.foldl (nakStep q) a).1 j := by
  induction l generalizing a with
  | nil =>
    rw [List.append_nil] at h
    exact h
  | cons x r ih =>
    rw [List.foldl_cons]
    refine ih _ ?_
    rcases nakStep_cases q a x with ⟨hstep, -⟩ | ⟨k, hk, hstep⟩
    · rw [hstep, List.append_assoc]
      exact h
    · obtain ⟨e, he, m, hm, hj⟩ := h
      rw [hstep]
      rcases List.mem_append.mp he with he | he
      · exact ⟨e, by simp [he], m, hm, hj⟩
      · rcases List.mem_cons.mp he with rfl | he
        · cases hk.symm.trans hm
          exact ⟨{ e with flit := .ctrl (.nak (k ++ [BitVec.ofNat 10 q])) }, by simp, _, rfl, List.mem_append_left _ hj⟩
        · exact ⟨e, by simp [he], m, hm, hj⟩

/-- Where an entry has room, the SEQ is named. -/
theorem nakNames_foldl_self (l : List Queued) (a : List Queued × Bool) (ha : a.2 = false) (h : l.any nakRoom = true) :
    nakNames (l.foldl (nakStep q) a).1 q := by
  induction l generalizing a with
  | nil => exact absurd h nofun
  | cons x r ih =>
    rw [List.foldl_cons]
    rcases nakStep_cases q a x with ⟨hstep, hfull⟩ | ⟨k, -, hstep⟩
    · rw [hstep]
      rw [List.any_cons, hfull.resolve_left (by rw [ha]; nofun), Bool.false_or] at h
      exact ih _ ha h
    · rw [hstep]
      exact nakNames_foldl q r _ ⟨{ x with flit := .ctrl (.nak (k ++ [BitVec.ofNat 10 q])) }, by simp, _, rfl,
        List.mem_append_right _ (List.mem_singleton_self _)⟩

theorem nakNames_addNak_self (slot : Nat) (l : List Queued) : nakNames (addNak slot l q) q := by
  rw [addNak_eq]
  split
  case isTrue h => exact nakNames_foldl_self q l _ rfl h
  case isFalse => exact ⟨_, List.mem_append_right _ (List.mem_singleton_self _), _, rfl, List.mem_singleton_self _⟩

theorem nakNames_addNak (slot : Nat) {l : List Queued} {j : Nat} (h : nakNames l j) : nakNames (addNak slot l q) j := by
  rw [addNak_eq]
  split
  · exact nakNames_foldl q l _ h
  · exact h.mono (List.subset_append_left _ _)

end

/-- A flit waits in the elastic buffer for its receive slot. -/
def FabPort.buffered (x : FabPort) (slot pos seq : Nat) (b : Option (List Byte)) (m : Option Missing) : FabPort :=
  { x with elastic := x.elastic ++ [{ slot := slot + x.dsOn, pos := pos, seq := seq, bytes := b, miss := m }] }

/-! ### SEQs that are found missing (R155, R496) -/

/-- A SEQ is found missing: recorded, if it is not, and named in a NAK. -/
def FabPort.missOne (slot : Nat) (epoch : BitVec 32) (x : FabPort) (q : Nat) : FabPort :=
  { x with
    missing := if x.missing.any (fun m => m.seq == q) then x.missing else x.missing ++ [{ seq := q, dealt := none, epoch := epoch }]
    ctrlQ := addNak slot x.ctrlQ q }

/-- The SEQs `l` are found missing. -/
def FabPort.missed (slot : Nat) (epoch : BitVec 32) (x : FabPort) (l : List Nat) : FabPort := l.foldl (FabPort.missOne slot epoch) x

section

variable (slot : Nat) (epoch : BitVec 32) (x : FabPort) (l : List Nat)

theorem FabPort.missed_nil : x.missed slot epoch [] = x := rfl

/-- Only what is missing changes, and the NAKs. -/
theorem FabPort.missed_frame : x.missed slot epoch l =
    { x with missing := (x.missed slot epoch l).missing, ctrlQ := (x.missed slot epoch l).ctrlQ } := by
  induction l generalizing x with
  | nil => rfl
  | cons q r ih => exact ih (x.missOne slot epoch q)

theorem FabPort.missed_keeps {j : Nat} : (∀ m ∈ x.missing, m ∈ (x.missed slot epoch l).missing) ∧
    (nakNames x.ctrlQ j → nakNames (x.missed slot epoch l).ctrlQ j) := by
  induction l generalizing x with
  | nil => exact ⟨fun _ hm => hm, id⟩
  | cons q r ih =>
    obtain ⟨hmissing, hnak⟩ := ih (x.missOne slot epoch q)
    refine ⟨fun m hm => hmissing m ?_, fun h => hnak (nakNames_addNak q slot h)⟩
    rw [FabPort.missOne]
    dsimp only
    split
    · exact hm
    · exact List.mem_append_left _ hm

/-- Each of them is missing, and named in a NAK. -/
theorem FabPort.missed_names {q : Nat} (h : q ∈ l) :
    (∃ m ∈ (x.missed slot epoch l).missing, m.seq = q) ∧ nakNames (x.missed slot epoch l).ctrlQ q := by
  induction l generalizing x with
  | nil => exact absurd h List.not_mem_nil
  | cons a r ih =>
    rcases List.mem_cons.mp h with rfl | hr
    · obtain ⟨hmissing, hnak⟩ := FabPort.missed_keeps slot epoch (x.missOne slot epoch q) r (j := q)
      have hone : ∃ m ∈ (x.missOne slot epoch q).missing, m.seq = q := by
        rw [FabPort.missOne]
        dsimp only
        split
        case isTrue hany =>
          obtain ⟨m, hm, hq⟩ := List.any_eq_true.mp hany
          exact ⟨m, hm, eq_of_beq hq⟩
        case isFalse => exact ⟨_, List.mem_append_right _ (List.mem_singleton_self _), rfl⟩
      obtain ⟨m, hm, hq⟩ := hone
      exact ⟨⟨m, hmissing m hm, hq⟩, hnak (nakNames_addNak_self q slot x.ctrlQ)⟩
    · exact ih (x.missOne slot epoch a) hr

end

/-- A port has taken an uncorrectable flit that stands for the SEQ expected, `q`. -/
def FabPort.tookBad (x : FabPort) (n slot pos q : Nat) (epoch : BitVec 32) : FabPort :=
  (({ x with badRun := x.badRun + 1, rxSeq := (q + 1) % 1024 } : FabPort).missed n epoch [q]).buffered slot pos q none none

theorem FabPort.tookBad_leaves (x : FabPort) (n slot pos q : Nat) (epoch : BitVec 32) :
    (x.tookBad n slot pos q epoch).badRun = x.badRun + 1 ∧ (x.tookBad n slot pos q epoch).rxSeq = (q + 1) % 1024 ∧
    (∃ m ∈ (x.tookBad n slot pos q epoch).missing, m.seq = q) ∧ named (x.tookBad n slot pos q epoch) q ∧
    (x.tookBad n slot pos q epoch).elastic =
      x.elastic ++ [{ slot := slot + x.dsOn, pos := pos, seq := q, bytes := none, miss := none }] := by
  obtain ⟨hmissing, hnamed⟩ := FabPort.missed_names n epoch
    ({ x with badRun := x.badRun + 1, rxSeq := (q + 1) % 1024 } : FabPort) [q] (List.mem_singleton_self q)
  exact ⟨rfl, rfl, hmissing, hnamed, rfl⟩

theorem State.missSeqs_eq (s : State) (p : Fin 24) (sent : Nat) (l : List Nat) :
    ∃ slot epoch, s.missSeqs p sent l = s.setPort p ((s.fport p).missed slot epoch l) := by
  have hfold : ∀ (slot : Nat) (epoch : BitVec 32) (t : State), l.foldl (fun t q => t.setPort p ((t.fport p).missOne slot epoch q)) t =
      t.setPort p ((t.fport p).missed slot epoch l) := fun slot epoch t => by
    induction l generalizing t with
    | nil => rw [FabPort.missed_nil, State.setPort_fport, List.foldl_nil]
    | cons q r ih =>
      rw [List.foldl_cons, ih, State.fport_setPort_same, State.setPort_setPort]
      rfl
  unfold State.missSeqs
  extract_lets e slot
  exact ⟨slot, BitVec.ofNat 32 e, hfold slot _ s⟩

theorem mem_seqRange {a b k : Nat} (h : k < (b + 1024 - a) % 1024) : (a + k) % 1024 ∈ seqRange a b :=
  List.mem_map.mpr ⟨k, List.mem_range.mpr h, rfl⟩

theorem seqRange_self (a : Nat) : seqRange a a = [] := by
  have hzero : (a + 1024 - a) % 1024 = 0 := by omega
  rw [seqRange, hzero]
  rfl

/-! ### A flit arrives (R151, R154, R155, R159) -/

/-- A corrected flit is counted. -/
def State.corrected (s : State) (p : Fin 24) (f : Bool) : State := if f then s.count (fFAB_CORR_COUNT p.val) 1 else s

section

variable {s : State} {p : Fin 24} {slot : Nat} {pos : Fin 2} {q : Fin 1024} {bytes : List Byte} (hup : s.portUp p = true)

theorem State.buffer_of_aligned (h : s.sownOk p = true) (pos seq : Nat) (b : Option (List Byte)) (m : Option Missing) :
    s.buffer p slot pos seq b m = s.setPort p ((s.fport p).buffered slot pos seq b m) := if_pos h

theorem State.buffer_setPort (h : s.sownOk p = true) (x : FabPort) (pos seq : Nat) (b : Option (List Byte)) (m : Option Missing) :
    (s.setPort p x).buffer p slot pos seq b m = s.setPort p (x.buffered slot pos seq b m) := by
  rw [State.buffer_of_aligned (s := s.setPort p x) h, State.fport_setPort_same, State.setPort_setPort]

theorem State.sownOk_corrected (f : Bool) : (s.corrected p f).sownOk p = s.sownOk p := by
  unfold State.corrected
  split
  · exact State.flag_setFld_off s (f := fFAB_CORR_COUNT p.val) (g := fFAB_PORT_STATUS_SOWN_OK p.val) _
      (show 0x301004 + 64 * p.val ≠ rFAB_CORR p.val by rw [rFAB_CORR]; omega)
  · rfl

include hup

/-- A flit that can be read is judged by its SEQ. -/
theorem exec_flitReceive_read {b : List Byte} {f : Bool} (hb : checkFlit bytes = some (b, f))
    (hidle : ¬ ((parseHdr b).cls = 0 ∧ (parseHdr b).typ = 0)) :
    (∀ m, (s.fport p).missing.find? (fun m => m.seq == (parseHdr b).seq) = some m → exec (.flitReceive p slot pos q bytes) s = .next
      (if (s.fport p).elastic.any (fun y => y.seq == (parseHdr b).seq && y.miss.isSome && y.bytes.isSome) then
        (s.corrected p f).setPort p { s.fport p with badRun := 0 }
      else ((s.corrected p f).setPort p { s.fport p with badRun := 0 }).buffer p slot pos.val (parseHdr b).seq (some b) (some m))) ∧
    ((s.fport p).missing.find? (fun m => m.seq == (parseHdr b).seq) = none → exec (.flitReceive p slot pos q bytes) s = .next
      (if seqBefore (parseHdr b).seq (s.fport p).rxSeq then (s.corrected p f).setPort p { s.fport p with badRun := 0 }
      else (((s.corrected p f).setPort p { s.fport p with badRun := 0, rxSeq := ((parseHdr b).seq + 1) % 1024 }).missSeqs p slot
        (seqRange (s.fport p).rxSeq (parseHdr b).seq)).buffer p slot pos.val (parseHdr b).seq (some b) none)) := by
  have hnot : ¬ s.portUp p = false := by rw [hup]; nofun
  refine ⟨fun m hm => ?_, fun hm => ?_⟩
  · change execFlitReceive p slot pos q bytes s = _
    rw [execFlitReceive, if_neg hnot, hb]
    dsimp only
    rw [if_neg hidle, State.fport_setPort_same]
    dsimp only
    rw [hm]
    dsimp only
    rw [apply_ite Host.Outcome.next]
    rfl
  · change execFlitReceive p slot pos q bytes s = _
    rw [execFlitReceive, if_neg hnot, hb]
    dsimp only
    rw [if_neg hidle, State.fport_setPort_same]
    dsimp only
    rw [hm]
    dsimp only
    rw [State.setPort_setPort, apply_ite Host.Outcome.next]
    rfl

end

theorem State.missSeqs_setPort (s : State) (p : Fin 24) (x : FabPort) (sent : Nat) (l : List Nat) :
    ∃ slot epoch, (s.setPort p x).missSeqs p sent l = s.setPort p (x.missed slot epoch l) := by
  obtain ⟨slot, epoch, heq⟩ := (s.setPort p x).missSeqs_eq p sent l
  exact ⟨slot, epoch, by rw [heq, State.fport_setPort_same, State.setPort_setPort]⟩

/-- What is recorded of a flit's SEQ as missing. -/
def FabPort.record (x : FabPort) (b : List Byte) : Option Missing := x.missing.find? (fun m => m.seq == (parseHdr b).seq)

/-- From `x` to `y` an aligned port has taken a flit that can be read. -/
def FabPort.takes (x y : FabPort) (slot pos : Nat) (b : List Byte) : Prop :=
  y.badRun = 0 ∧
  (∀ m, x.record b = some m → y.rxSeq = x.rxSeq ∧ y.missing = x.missing ∧ y.ctrlQ = x.ctrlQ ∧
    y.elastic = if x.elastic.any (fun e => e.seq == (parseHdr b).seq && e.miss.isSome && e.bytes.isSome) then x.elastic
      else x.elastic ++ [{ slot := slot + x.dsOn, pos := pos, seq := (parseHdr b).seq, bytes := some b, miss := some m }]) ∧
  (x.record b = none →
    (seqBefore (parseHdr b).seq x.rxSeq = true → y = { x with badRun := 0 }) ∧
    (seqBefore (parseHdr b).seq x.rxSeq = false → y.rxSeq = ((parseHdr b).seq + 1) % 1024 ∧
      y.elastic = x.elastic ++ [{ slot := slot + x.dsOn, pos := pos, seq := (parseHdr b).seq, bytes := some b, miss := none }] ∧
      ((parseHdr b).seq = x.rxSeq → y.missing = x.missing ∧ y.ctrlQ = x.ctrlQ) ∧
      ∀ k, k < ((parseHdr b).seq + 1024 - x.rxSeq) % 1024 →
        (∃ m ∈ y.missing, m.seq = (x.rxSeq + k) % 1024) ∧ named y ((x.rxSeq + k) % 1024)))

/-- A flit whose SEQ is next or later is taken, and the SEQs that it skips are missing. -/
theorem FabPort.takes_later {x : FabPort} {slot pos n : Nat} {epoch : BitVec 32} {b : List Byte} (hm : x.record b = none)
    (hlater : seqBefore (parseHdr b).seq x.rxSeq = false) :
    x.takes ((({ x with badRun := 0, rxSeq := ((parseHdr b).seq + 1) % 1024 } : FabPort).missed n epoch
      (seqRange x.rxSeq (parseHdr b).seq)).buffered slot pos (parseHdr b).seq (some b) none) slot pos b := by
  have hframe := FabPort.missed_frame n epoch ({ x with badRun := 0, rxSeq := ((parseHdr b).seq + 1) % 1024 } : FabPort)
    (seqRange x.rxSeq (parseHdr b).seq)
  have hnames : ∀ k, k < ((parseHdr b).seq + 1024 - x.rxSeq) % 1024 → _ := fun k hk =>
    FabPort.missed_names n epoch ({ x with badRun := 0, rxSeq := ((parseHdr b).seq + 1) % 1024 } : FabPort) _ (mem_seqRange hk)
  have hnext : (parseHdr b).seq = x.rxSeq → seqRange x.rxSeq (parseHdr b).seq = [] := fun h => by rw [h, seqRange_self]
  generalize seqRange x.rxSeq (parseHdr b).seq = l at *
  refine ⟨?_, fun m h => absurd (hm.symm.trans h) nofun,
    fun _ => ⟨fun h => absurd (hlater.symm.trans h) nofun, fun _ => ⟨?_, ?_, ?_, hnames⟩⟩⟩
  · rw [FabPort.buffered, hframe]
  · rw [FabPort.buffered, hframe]
  · rw [FabPort.buffered, hframe]
  · intro h
    rw [hnext h]
    exact ⟨rfl, rfl⟩

section

variable {s : State} {p : Fin 24} {slot : Nat} {pos : Fin 2} {q : Fin 1024} {bytes : List Byte} (hup : s.portUp p = true)

include hup

/-- An aligned port takes a flit that can be read. -/
theorem exec_flitReceive_aligned {b : List Byte} {f : Bool} (hb : checkFlit bytes = some (b, f))
    (hidle : ¬ ((parseHdr b).cls = 0 ∧ (parseHdr b).typ = 0)) (hok : s.sownOk p = true) :
    ∃ y, exec (.flitReceive p slot pos q bytes) s = .next ((s.corrected p f).setPort p y) ∧ (s.fport p).takes y slot pos.val b := by
  obtain ⟨hfound, hnone⟩ := exec_flitReceive_read (slot := slot) (pos := pos) (q := q) hup hb hidle
  have hok' : (s.corrected p f).sownOk p = true := by rw [State.sownOk_corrected, hok]
  cases hm : (s.fport p).record b with
  | some m =>
    rw [hfound m hm]
    by_cases hheld : (s.fport p).elastic.any (fun y => y.seq == (parseHdr b).seq && y.miss.isSome && y.bytes.isSome) = true
    · refine ⟨{ s.fport p with badRun := 0 }, by rw [if_pos hheld], rfl,
        fun m' hm' => ⟨rfl, rfl, rfl, (if_pos hheld).symm⟩, fun h => absurd (hm.symm.trans h) nofun⟩
    · refine ⟨({ s.fport p with badRun := 0 } : FabPort).buffered slot pos.val (parseHdr b).seq (some b) (some m),
        by rw [if_neg hheld, State.buffer_setPort hok'], rfl, fun m' hm' => ?_, fun h => absurd (hm.symm.trans h) nofun⟩
      cases hm.symm.trans hm'
      exact ⟨rfl, rfl, rfl, (if_neg hheld).symm⟩
  | none =>
    rw [hnone hm]
    cases hbefore : seqBefore (parseHdr b).seq (s.fport p).rxSeq with
    | true => exact ⟨{ s.fport p with badRun := 0 }, rfl, rfl, fun m h => absurd (hm.symm.trans h) nofun,
        fun _ => ⟨fun _ => rfl, fun h => absurd (hbefore.symm.trans h) nofun⟩⟩
    | false =>
      obtain ⟨n, epoch, hmiss⟩ := (s.corrected p f).missSeqs_setPort p { s.fport p with badRun := 0, rxSeq := ((parseHdr b).seq + 1) % 1024 } slot
        (seqRange (s.fport p).rxSeq (parseHdr b).seq)
      refine ⟨_, ?_, FabPort.takes_later (n := n) (epoch := epoch) hm hbefore⟩
      rw [if_neg Bool.false_ne_true, hmiss, State.buffer_setPort hok']

end

section

variable (s : State) (p : Fin 24) (f : Bool) (y : FabPort)

/-- What counting a corrected flit leaves beside the port. -/
theorem corrected_setPort : onlyPorts s ((s.corrected p f).setPort p y) [p] ∧
    s.sameRegsBut ((s.corrected p f).setPort p y) [fFAB_CORR_COUNT p.val |>.off] ∧
    (f = true → s.fld (fFAB_CORR_COUNT p.val) + 1 < 2 ^ 64 →
      ((s.corrected p f).setPort p y).fld (fFAB_CORR_COUNT p.val) = s.fld (fFAB_CORR_COUNT p.val) + 1) ∧
    (f = false → ((s.corrected p f).setPort p y).fld (fFAB_CORR_COUNT p.val) = s.fld (fFAB_CORR_COUNT p.val)) := by
  have hport := onlyPorts_setPort (s.corrected p f) (List.mem_singleton_self p) y
  cases f with
  | true =>
    exact ⟨onlyPorts_trans (onlyPorts_setFld s _ _ _) hport, s.sameRegsBut_setFld (fFAB_CORR_COUNT p.val) _,
      fun _ hlt => s.fld_count_one rfl rfl hlt, nofun⟩
  | false => exact ⟨hport, fun _ _ => rfl, nofun, fun _ => rfl⟩

end

section

variable {s : State} {p : Fin 24} {slot : Nat} {pos : Fin 2} {q : Fin 1024} {bytes : List Byte} (hup : s.portUp p = true)

/-- The one held flit that no missing SEQ precedes is passed on. -/
theorem State.releaseHeld_of_one {t : State} {n : Nat} {b : List Byte} (hm : (t.fport p).missing = []) (hh : (t.fport p).holdRx = [(n, b)]) :
    t.releaseHeld p = (t.setPort p { t.fport p with holdRx := [] }).passFlit p b := by
  have hport : ({ t.fport p with holdRx := [] } : FabPort) = { t.fport p with holdRx := [], missing := [] } := by rw [← hm]
  rw [State.releaseHeld, hm, hh, hport]
  rfl

/-- A volunteer flit that nothing precedes is passed on, and stays in the receive buffer. -/
theorem State.handleFlit_of_volunteer {e : Elastic} {b : List Byte} (hb : e.bytes = some b) (he : e.miss = none) (hc : (parseHdr b).cls = 2)
    (hm : (s.fport p).missing = []) (hh : (s.fport p).holdRx = []) (ecc : EccOutcome) : s.handleFlit p e ecc = s := by
  have hpass : ∀ t : State, t.passFlit p b = t := fun t => by
    rw [State.passFlit]
    exact if_neg (by omega)
  have hnot : ¬ (parseHdr b).cls = 1 := by omega
  rw [State.handleFlit, hb]
  dsimp only
  rw [he, if_neg hnot]
  dsimp only [Option.isSome_none, Bool.false_eq_true, if_false]
  rw [if_neg Bool.false_ne_true, hh, List.nil_append]
  have hport := s.fport_setPort_same p { s.fport p with holdRx := [(e.seq, b)] }
  rw [State.releaseHeld_of_one (n := e.seq) (b := b) (by rw [hport, hm]) (by rw [hport]), hpass, hport, State.setPort_setPort]
  have hsame : ({ s.fport p with holdRx := [] } : FabPort) = s.fport p := by rw [← hh]
  exact (congrArg (s.setPort p) hsame).trans (s.setPort_fport p)

include hup

/-- A port without slot alignment passes a volunteer flit on at once. -/
theorem exec_flitReceive_volunteer {b : List Byte} {f : Bool} (hb : checkFlit bytes = some (b, f)) (hok : s.sownOk p = false)
    (hm : (s.fport p).missing = []) (hh : (s.fport p).holdRx = []) (hc : (parseHdr b).cls = 2) (hseq : (parseHdr b).seq = (s.fport p).rxSeq) :
    exec (.flitReceive p slot pos q bytes) s =
      .next ((s.corrected p f).setPort p { s.fport p with badRun := 0, rxSeq := ((s.fport p).rxSeq + 1) % 1024 }) := by
  have hnone : (s.fport p).missing.find? (fun m => m.seq == (parseHdr b).seq) = none := by rw [hm]; rfl
  have hnext : ¬ seqBefore (parseHdr b).seq (s.fport p).rxSeq = true := by simp [seqBefore, hseq]
  rw [(exec_flitReceive_read hup hb (by omega)).2 hnone, if_neg hnext, hseq, seqRange_self]
  obtain ⟨n, epoch, hmiss⟩ := (s.corrected p f).missSeqs_setPort p { s.fport p with badRun := 0, rxSeq := ((s.fport p).rxSeq + 1) % 1024 } slot []
  have hport := (s.corrected p f).fport_setPort_same p { s.fport p with badRun := 0, rxSeq := ((s.fport p).rxSeq + 1) % 1024 }
  rw [hmiss, FabPort.missed_nil, State.buffer, if_neg, State.handleFlit_of_volunteer (b := b) rfl rfl hc]
  · rw [hport, hm]
  · rw [hport, hh]
  · have hno : (s.corrected p f).sownOk p = false := by rw [State.sownOk_corrected, hok]
    exact fun h => absurd (hno.symm.trans h) nofun

/-! ### A flit that cannot be read (R151, R155, R158) -/

/-- The 16th in a row makes the port retrain. -/
theorem exec_flitReceive_retrain (hb : checkFlit bytes = none) (hrun : 15 ≤ (s.fport p).badRun) :
    exec (.flitReceive p slot pos q bytes) s = .next (s.retrain p) := by
  have hnot : ¬ s.portUp p = false := by rw [hup]; nofun
  change execFlitReceive p slot pos q bytes s = _
  rw [execFlitReceive, if_neg hnot, hb]
  exact if_pos (by omega)

/-- One with the SEQ expected stands for it in the elastic buffer, and its SEQ is missing. -/
theorem exec_flitReceive_bad (hb : checkFlit bytes = none) (hrun : (s.fport p).badRun < 15) (hok : s.sownOk p = true)
    (hq : (s.fport p).rxSeq = q.val) (hm : ∀ m ∈ (s.fport p).missing, m.seq ≠ q.val) : ∃ n epoch,
    exec (.flitReceive p slot pos q bytes) s =
      .next ((s.discardFlit p).setPort p ((s.fport p).tookBad n slot pos.val q.val epoch)) := by
  have hnot : ¬ s.portUp p = false := by rw [hup]; nofun
  have hold : (s.fport p).missing.any (fun m => decide (m.seq = q.val)) = false :=
    List.any_eq_false.mpr fun m hmem => by simpa using hm m hmem
  have hfind : (s.fport p).missing.find? (fun m => m.seq == q.val) = none :=
    List.find?_eq_none.mpr fun m hmem => by simpa using hm m hmem
  have hbefore : seqBefore q.val q.val = false := by simp [seqBefore]
  have hok' : (s.discardFlit p).sownOk p = true := by
    rw [← hok]
    exact State.flag_setFld_off s (f := fFAB_DISCARD_COUNT p.val) (g := fFAB_PORT_STATUS_SOWN_OK p.val) _
      (show 0x301004 + 64 * p.val ≠ rFAB_DISCARD p.val by rw [rFAB_DISCARD]; omega)
  obtain ⟨n, epoch, hmiss⟩ := (s.discardFlit p).missSeqs_setPort p
    { s.fport p with badRun := (s.fport p).badRun + 1, rxSeq := (q.val + 1) % 1024 } slot [q.val]
  refine ⟨n, epoch, ?_⟩
  change execFlitReceive p slot pos q bytes s = _
  rw [execFlitReceive, if_neg hnot, hb]
  dsimp only
  rw [if_neg (by omega), hold, hq, hbefore, hfind]
  refine congrArg Host.Outcome.next (Eq.trans ?_ (State.buffer_setPort hok' _ _ _ _ _))
  rw [← hmiss]
  rfl

/-- The others leave some state. -/
theorem exec_flitReceive_unread (hb : checkFlit bytes = none) (hrun : (s.fport p).badRun < 15) :
    ∃ t, exec (.flitReceive p slot pos q bytes) s = .next t := by
  have hnot : ¬ s.portUp p = false := by rw [hup]; nofun
  change ∃ t, execFlitReceive p slot pos q bytes s = .next t
  rw [execFlitReceive, if_neg hnot, hb]
  exact ⟨_, if_neg (by omega)⟩

/-! ### NAK and CREDIT (R155, R158, R166) -/

/-- A NAK of flits that stand in the replay buffer queues them. -/
theorem exec_nakReceive_held {l : List (BitVec 10)} (h : ∀ k ∈ l.take 16, ∃ e ∈ (s.fport p).replay, e.seq = k.toNat) :
    exec (.nakReceive p l) s = .next (s.setPort p { s.fport p with retx := (s.fport p).retx ++ (((l.take 16).map (fun k => k.toNat)).filter
      (fun k => (s.fport p).retx.all (fun e => decide (e.1 ≠ k)))).map (fun k => (k, s.slot + 2)) }) := by
  have hnot : ¬ s.portUp p = false := by rw [hup]; nofun
  change execNakReceive p l s = _
  rw [execNakReceive, if_neg hnot]
  refine if_neg fun hany => ?_
  obtain ⟨j, hj, hall⟩ := List.any_eq_true.mp hany
  obtain ⟨k, hk, rfl⟩ := List.mem_map.mp hj
  obtain ⟨e, he, hseq⟩ := h k hk
  exact of_decide_eq_true (List.all_eq_true.mp hall e he) hseq

/-- A NAK of a flit that has left the replay buffer makes the port retrain. -/
theorem exec_nakReceive_left {l : List (BitVec 10)} (h : ∃ k ∈ l.take 16, ∀ e ∈ (s.fport p).replay, e.seq ≠ k.toNat) :
    exec (.nakReceive p l) s = .next (s.retrain p) := by
  have hnot : ¬ s.portUp p = false := by rw [hup]; nofun
  obtain ⟨k, hk, hall⟩ := h
  change execNakReceive p l s = _
  rw [execNakReceive, if_neg hnot]
  exact if_pos (List.any_eq_true.mpr ⟨k.toNat, List.mem_map.mpr ⟨k, hk, rfl⟩, List.all_eq_true.mpr fun e he => decide_eq_true (hall e he)⟩)

theorem exec_creditReceive (l : List Nat) : exec (.creditReceive p l) s = .next (s.setPort p { s.fport p with
    credits := (s.fport p).credits.mapIdx (fun i c => min 53 (c + l.getD i 0)) }) :=
  if_neg (by rw [hup]; nofun)

end

/-! ### The statement -/

/-- Settles O26: by what arrives. -/
theorem linkLevel : Obligations.LinkLevel := by
  unfold Obligations.LinkLevel
  intro s p slot pos q bytes hup x
  refine ⟨fun b f hb hidle => ?_, fun hb => ?_, fun l => ?_, fun l => ?_⟩
  · cases hok : s.sownOk p with
    | true =>
      obtain ⟨y, hexec, hrun, hfound, hnone⟩ := exec_flitReceive_aligned (slot := slot) (pos := pos) (q := q) hup hb hidle hok
      obtain ⟨hports, hregs, hcounted, hkept⟩ := corrected_setPort s p f y
      have hy := (s.corrected p f).fport_setPort_same p y
      refine ⟨_, hexec, fun _ => ⟨hports, hregs, ?_, hcounted, hkept, ?_, fun hm => ?_⟩, nofun⟩
      · rw [hy]
        exact hrun
      · rw [hy]
        exact hfound
      · obtain ⟨holder, hlater⟩ := hnone hm
        rw [hy]
        refine ⟨holder, fun hnext => ?_⟩
        obtain ⟨hseq, helastic, hsame, hskipped⟩ := hlater hnext
        exact ⟨hseq, helastic, hsame, fun k hk => ⟨(hskipped k hk).1, fun _ => (hskipped k hk).2⟩⟩
    | false =>
      by_cases hvol : (s.fport p).missing = [] ∧ (s.fport p).holdRx = [] ∧ (parseHdr b).cls = 2 ∧ (parseHdr b).seq = (s.fport p).rxSeq
      · obtain ⟨hm, hh, hc, hseq⟩ := hvol
        refine ⟨_, exec_flitReceive_volunteer hup hb hok hm hh hc hseq, nofun, fun _ _ _ _ _ => ⟨(corrected_setPort s p f _).1, ?_⟩⟩
        rw [State.fport_setPort_same]
      · obtain ⟨hfound, hnone⟩ := exec_flitReceive_read (slot := slot) (pos := pos) (q := q) hup hb hidle
        have hnever : ∀ t, (s.fport p).missing = [] → (s.fport p).holdRx = [] → (parseHdr b).cls = 2 → (parseHdr b).seq = (s.fport p).rxSeq →
            onlyPorts s t [p] ∧ t.fport p = { s.fport p with badRun := 0, rxSeq := ((s.fport p).rxSeq + 1) % 1024 } :=
          fun t hm hh hc hseq => absurd ⟨hm, hh, hc, hseq⟩ hvol
        cases hm : (s.fport p).missing.find? (fun m => m.seq == (parseHdr b).seq) with
        | some m => exact ⟨_, hfound m hm, nofun, fun _ => hnever _⟩
        | none => exact ⟨_, hnone hm, nofun, fun _ => hnever _⟩
  · by_cases hrun : 15 ≤ (s.fport p).badRun
    · exact ⟨_, exec_flitReceive_retrain hup hb hrun, fun _ => leftActive_retrain hup, fun hlt => absurd hlt (Nat.not_lt.mpr hrun)⟩
    · have hlt : (s.fport p).badRun < 15 := Nat.not_le.mp hrun
      by_cases hnext : s.sownOk p = true ∧ (s.fport p).rxSeq = q.val ∧ ∀ m ∈ (s.fport p).missing, m.seq ≠ q.val
      · obtain ⟨hok, hq, hm⟩ := hnext
        obtain ⟨n, epoch, hexec⟩ := exec_flitReceive_bad (slot := slot) (pos := pos) hup hb hlt hok hq hm
        have hports := onlyPorts_trans (onlyPorts_setFld s (fFAB_DISCARD_COUNT p.val) _ [p])
          (onlyPorts_setPort (s.discardFlit p) (List.mem_singleton_self p) ((s.fport p).tookBad n slot pos.val q.val epoch))
        obtain ⟨hbad, hrest⟩ := FabPort.tookBad_leaves (s.fport p) n slot pos.val q.val epoch
        refine ⟨_, hexec, fun h => absurd h hrun, fun _ _ _ _ => ⟨hports, s.sameRegsBut_setFld (fFAB_DISCARD_COUNT p.val) _, ?_,
          fun hcount => s.fld_count_one rfl rfl hcount, ?_⟩⟩
        · rw [State.fport_setPort_same, hbad]
        · rw [State.fport_setPort_same]
          exact hrest
      · obtain ⟨t, ht⟩ := exec_flitReceive_unread (slot := slot) (pos := pos) (q := q) hup hb hlt
        exact ⟨t, ht, fun h => absurd h hrun, fun _ hok hq hm => absurd ⟨hok, hq, hm⟩ hnext⟩
  · by_cases hleft : ∃ k ∈ l.take 16, ∀ e ∈ (s.fport p).replay, e.seq ≠ k.toNat
    · refine ⟨_, exec_nakReceive_left hup hleft, fun hheld => ?_, fun _ => leftActive_retrain hup⟩
      obtain ⟨k, hk, hno⟩ := hleft
      obtain ⟨e, he, hseq⟩ := hheld k hk
      exact absurd hseq (hno e he)
    · have hheld : ∀ k ∈ l.take 16, ∃ e ∈ (s.fport p).replay, e.seq = k.toNat := by simpa using hleft
      refine ⟨_, exec_nakReceive_held hup hheld, fun _ => ⟨onlyPorts_setPort s (List.mem_singleton_self p) _, rfl, ?_⟩, fun h => absurd h hleft⟩
      rw [State.fport_setPort_same]
  · refine ⟨_, exec_creditReceive hup l, onlyPorts_setPort s (List.mem_singleton_self p) _, rfl, ?_, fun i => ?_⟩
    · rw [State.fport_setPort_same]
    · rw [State.fport_setPort_same]
      simp only [Fin.getElem_fin, Vector.getElem_mapIdx]
      rfl

end Sys2Proof.Machine
end

section
/-! SUPPORT. What the transport leaves of the pavilions and of the CXL ports (R221 to R223, R228): a migration that ends lets what waited
for it go on, which may run the whole transport, and none of it changes a pavilion or a register of a CXL port. For each function
that the end of a migration may call there is one lemma under the function's name; its proof follows the function's body. -/

namespace Sys2Proof.Machine

open Sys2Proof

/-- From `r` to `s` the pavilions are as they were, and so are the registers of the CXL ports and the credits (R243). -/
structure State.CxlKept (r s : State) : Prop where
  pavs : s.pavs = r.pavs
  regs : ∀ o, 0x500100 ≤ o → o < 0x600000 → s.reg o = r.reg o

/-- They are so in the state that is answered, where there is one. -/
def CxlKeptSome (r : State) (o : Option State) : Prop := ∀ t, o = some t → r.CxlKept t

theorem CxlKeptSome.none {r : State} : CxlKeptSome r none := by
  rintro _ ⟨⟩

theorem CxlKeptSome.some {r t : State} (ht : r.CxlKept t) : CxlKeptSome r (some t) := by
  rintro _ ⟨⟩
  exact ht

theorem CxlKeptSome.ite {r : State} {c : Prop} {_ : Decidable c} {a b : Option State} (ha : CxlKeptSome r a) (hb : CxlKeptSome r b) :
    CxlKeptSome r (if c then a else b) := by
  split
  · exact ha
  · exact hb

theorem CxlKeptSome.map {r : State} {o : Option State} {f : State → State} (ho : CxlKeptSome r o)
    (hf : ∀ {t}, r.CxlKept t → r.CxlKept (f t)) : CxlKeptSome r (o.map f) := by
  cases o with
  | none => exact .none
  | some t => exact .some (hf (ho t rfl))

namespace State.CxlKept

variable {r s t : State}

theorem refl (s : State) : s.CxlKept s := ⟨rfl, fun _ _ _ => rfl⟩

/-- A step that leaves the pavilions and the registers. -/
theorem of_same (hs : r.CxlKept s) (hpavs : t.pavs = s.pavs) (hregs : t.regs = s.regs) : r.CxlKept t :=
  ⟨hpavs.trans hs.pavs, fun o ho ho' => (State.reg_congr hregs o).trans (hs.regs o ho ho')⟩

/-- The other parts of the state may change. -/
theorem frame {pending mem scratch now freeCtr out log sch fab que hif ldg gmem ckp tru rdm eth cip pwr} (hs : r.CxlKept s) :
    r.CxlKept (State.mk pending s.regs mem scratch now freeCtr out log s.pavs sch fab que hif ldg gmem ckp tru rdm eth cip pwr) :=
  hs.of_same rfl rfl

theorem ite {c : Prop} {_ : Decidable c} {a b : State} (ha : r.CxlKept a) (hb : r.CxlKept b) : r.CxlKept (if c then a else b) := by
  split
  · exact ha
  · exact hb

theorem getD {o : Option State} (ho : CxlKeptSome r o) (hs : r.CxlKept s) : r.CxlKept (o.getD s) := by
  cases o with
  | none => exact hs
  | some t => exact ho t rfl

/-- The state of a pair, under the name that a `match` on the pair gives it. -/
theorem ofFst {α : Type} {p : State × α} {a : α} (hp : r.CxlKept p.1) (e : p = (t, a)) : r.CxlKept t := by
  subst e; exact hp

theorem foldl {α : Type} {f : State → α → State} {l : List α} (hs : r.CxlKept s) (hf : ∀ {t x}, r.CxlKept t → r.CxlKept (f t x)) :
    r.CxlKept (l.foldl f s) := by
  induction l generalizing s with
  | nil => exact hs
  | cons x l ih => exact ih (hf hs)

/-! The plain updates of the state, and the functions whose effect is stated already. -/

theorem setFld {f v} (hs : r.CxlKept s) (hf : f.off < 0x500100 ∨ 0x600000 ≤ f.off := by decide) : r.CxlKept (s.setFld f v) :=
  ⟨hs.pavs, fun o ho ho' => (State.reg_setFld_other s f v o (by omega)).trans (hs.regs o ho ho')⟩

theorem raise {f} (hs : r.CxlKept s) (hf : f.off < 0x500100 ∨ 0x600000 ≤ f.off := by decide) : r.CxlKept (s.raise f) := hs.setFld hf
theorem count {f k} (hs : r.CxlKept s) (hf : f.off < 0x500100 ∨ 0x600000 ≤ f.off := by decide) : r.CxlKept (s.count f k) := hs.setFld hf

/-- A discarded answer is counted for its partition (R327). -/
theorem countStale {p k} (hs : r.CxlKept s) : r.CxlKept (s.count (fQUE_PSTALE_COUNT p) k) :=
  hs.setFld (.inr (show 0x600000 ≤ rQUE_PSTALE p by unfold rQUE_PSTALE; omega))

theorem eventLeaves (hs : r.CxlKept s) (h : s.eventLeaves t) : r.CxlKept t :=
  ⟨(congrArg State.pavs h.1 :).trans hs.pavs, fun o ho ho' => (h.2 o (by omega)).trans (hs.regs o ho ho')⟩

theorem endLeaves (hs : r.CxlKept s) (h : s.endLeaves t) : r.CxlKept t := eventLeaves (s := { s with rdm := t.rdm }) hs.frame h

theorem emit {o} (hs : r.CxlKept s) : r.CxlKept (s.emit o) := hs.frame
theorem setCmd {c} (hs : r.CxlKept s) : r.CxlKept (s.setCmd c) := hs.frame
theorem setCkp {f} (hs : r.CxlKept s) : r.CxlKept (s.setCkp f) := hs.frame
theorem noteCe {n} (hs : r.CxlKept s) : r.CxlKept (s.noteCe n) := hs.frame
theorem setPort {p x} (hs : r.CxlKept s) : r.CxlKept (s.setPort p x) := hs.frame
theorem devUe {block k entry} (hs : r.CxlKept s) : r.CxlKept (s.devUe block k entry) := hs.eventLeaves (s.devUe_leaves _ _ _).1
theorem endCmd {id st detail result} (hs : r.CxlKept s) : r.CxlKept (s.endCmd id st detail result) := hs.endLeaves (s.endLeaves_endCmd _ _ _ _)
theorem qpError {qpn st detail} (hs : r.CxlKept s) : r.CxlKept (s.qpError qpn st detail) := hs.endLeaves (s.endLeaves_qpError _ _ _)

end State.CxlKept

variable {r s : State}

/-! ### Commands and writes -/

theorem State.CxlKept.holdCmd {id} (hs : r.CxlKept s) : r.CxlKept (s.holdCmd id) := by
  unfold State.holdCmd
  split
  · exact hs.setCmd
  · exact hs

theorem State.CxlKept.divert {g} (hs : r.CxlKept s) : r.CxlKept (s.divert g) := by
  unfold State.divert
  split
  · exact hs
  · refine .ite ?_ hs
    split
    · exact hs
    · exact (hs.setCkp (f := fun k => { k with sheaf := _ })).setFld.setFld

theorem State.CxlKept.stallNote (hs : r.CxlKept s) : r.CxlKept s.stallNote := by
  have hcount : r.CxlKept (s.stallCount (s.slot + 1)) := by
    unfold State.stallCount
    split
    · exact hs
    · exact hs.count.setCkp
  exact .ite hcount.setCkp hcount

theorem State.CxlKept.land {a b o} (hs : r.CxlKept s) : r.CxlKept (s.land a b o) := by
  rw [State.land_frame]
  exact hs.frame

theorem State.CxlKept.devWrite {a b sown o} (hs : r.CxlKept s) : r.CxlKept (s.devWrite a b sown o) :=
  .ite (State.CxlKept.stallNote (hs.setCkp.foldl fun ht => ht.divert)) hs.land

theorem State.CxlKept.rangeWrite {l b} (hs : r.CxlKept s) : r.CxlKept (s.rangeWrite l b) := by
  induction l generalizing s b with
  | nil => exact hs
  | cons x l ih => exact ih hs.devWrite

/-! ### Packets on their way (R165, R339) -/

theorem State.CxlKept.inject {k} (hs : r.CxlKept s) : r.CxlKept (s.inject k) := by
  unfold State.inject
  split
  · exact hs.raise
  · exact hs
  · exact hs.setPort

theorem State.CxlKept.setEth {f} (hs : r.CxlKept s) : r.CxlKept (s.setEth f) := hs.frame

theorem State.CxlKept.holdFor {hop f} (hs : r.CxlKept s) : r.CxlKept (s.holdFor hop f) := by
  unfold State.holdFor
  exact hs.setEth

theorem State.CxlKept.sendRdma {k qpn cmd} (hs : r.CxlKept s) : r.CxlKept (s.sendRdma k qpn cmd) := by
  unfold State.sendRdma
  split
  · exact hs.emit.inject
  · exact .ite hs.setEth hs.holdFor

/-! ### The functions of Machine.Rdma -/

theorem State.CxlKept.setRdm {f} (hs : r.CxlKept s) : r.CxlKept (s.setRdm f) := hs.frame
theorem State.CxlKept.setQp {n q} (hs : r.CxlKept s) : r.CxlKept (s.setQp n q) := hs.setRdm
theorem State.CxlKept.modQp {n f} (hs : r.CxlKept s) : r.CxlKept (s.modQp n f) := hs.setRdm
theorem State.CxlKept.answer {q k destQp psn op data} (hs : r.CxlKept s) : r.CxlKept (s.answer q k destQp psn op data) := hs.sendRdma

theorem State.CxlKept.placeAt {p a b t} (hs : r.CxlKept s) (e : s.placeAt p a b = .ok t) : r.CxlKept t := by
  unfold State.placeAt at e
  split at e
  · cases e
    exact hs
  · split at e
    · cases e
    · cases e
    · split at e
      · cases e
        exact hs.rangeWrite
      · cases e

theorem State.CxlKept.deliver {c b result} (hs : r.CxlKept s) : r.CxlKept (s.deliver c b result) := by
  unfold State.deliver
  split
  · exact (hs.placeAt ‹_›).endCmd
  · exact hs.endCmd
  · exact hs.setRdm

theorem State.CxlKept.finishRecv {id len imm src} (hs : r.CxlKept s) : r.CxlKept (s.finishRecv id len imm src) := hs.endCmd

theorem State.CxlKept.sendPkts {qpn q w c l} (hs : r.CxlKept s) : r.CxlKept (s.sendPkts qpn q w c l).1 := by
  induction l generalizing s with
  | nil => exact hs
  | cons i l ih =>
    unfold State.sendPkts
    split
    · exact ih hs.sendRdma
    · exact hs
    · exact hs

theorem State.CxlKept.pumpGo {qpn l} (hs : r.CxlKept s) : r.CxlKept (s.pumpGo qpn l) := by
  induction l generalizing s with
  | nil => exact hs
  | cons w l ih =>
    unfold State.pumpGo
    split
    · refine .ite hs ?_
      dsimp only
      split
      · exact ih (hs.sendPkts.ofFst ‹_›).modQp
      · exact (hs.sendPkts.ofFst ‹_›).qpError
    · exact ih hs

theorem State.CxlKept.pump {qpn} (hs : r.CxlKept s) : r.CxlKept (s.pump qpn) := by
  unfold State.pump
  split
  · exact hs.pumpGo
  · exact hs

theorem State.CxlKept.resendGo {qpn l} (hs : r.CxlKept s) : r.CxlKept (s.resendGo qpn l) := by
  induction l generalizing s with
  | nil => exact hs
  | cons w l ih =>
    unfold State.resendGo
    split
    · split
      · exact ih (hs.sendPkts.ofFst ‹_›).count
      · exact (hs.sendPkts.ofFst ‹_›).qpError
    · exact ih hs

theorem State.CxlKept.resend {qpn} (hs : r.CxlKept s) : r.CxlKept (s.resend qpn) := by
  unfold State.resend
  split
  · exact hs.resendGo.modQp
  · exact hs

theorem State.CxlKept.finishWrs {qpn} (hs : r.CxlKept s) : r.CxlKept (s.finishWrs qpn) := by
  unfold State.finishWrs
  split
  · exact hs
  · exact hs.modQp.foldl fun ht => ht.endCmd

theorem State.CxlKept.ackTo {qpn psn} (hs : r.CxlKept s) : r.CxlKept (s.ackTo qpn psn) := by
  unfold State.ackTo
  split
  · exact hs
  · exact .ite hs.modQp.finishWrs.pump hs.finishWrs

theorem State.CxlKept.touchQp {qpn} (hs : r.CxlKept s) : r.CxlKept (s.touchQp qpn) := hs.modQp.setRdm

theorem State.CxlKept.launch {qpn c rd} (hs : r.CxlKept s) : r.CxlKept (s.launch qpn c rd) := by
  unfold State.launch
  split
  · exact hs.endCmd
  · refine .ite hs.endCmd (.ite hs.endCmd.qpError ?_)
    split
    · exact hs.endCmd
    · exact hs.holdCmd
    · exact .ite hs.modQp.pump.touchQp.modQp.endCmd hs.modQp.pump.touchQp

theorem State.CxlKept.wantCtx {qpn} (hs : r.CxlKept s) : r.CxlKept (s.wantCtx qpn) := by
  unfold State.wantCtx
  split
  · exact .ite hs (.ite hs.setQp (by split; exacts [hs.modQp.setQp, hs.setQp]))
  · exact hs

theorem State.CxlKept.runWr {qpn c rd} (hs : r.CxlKept s) : r.CxlKept (s.runWr qpn c rd) := by
  unfold State.runWr
  split
  · exact hs.endCmd
  · exact .ite hs.launch hs.setQp.wantCtx

theorem State.CxlKept.releaseTag {part tag} (hs : r.CxlKept s) : r.CxlKept (s.releaseTag part tag) :=
  hs.foldl fun ht => by split; exacts [.ite ht.setCmd.runWr ht, ht]
theorem State.CxlKept.trigger {part tag} (hs : r.CxlKept s) : CxlKeptSome r (s.trigger part tag) :=
  .ite (.some hs.count.releaseTag) (.ite (.some hs.setRdm) .none)

theorem State.CxlKept.deliverImm {q len src imm} (hs : r.CxlKept s) : CxlKeptSome r (s.deliverImm q len src imm) := by
  unfold State.deliverImm
  split
  · exact .some hs
  · refine .ite hs.trigger ?_
    split
    · exact .some hs.finishRecv
    · exact .some hs

theorem State.CxlKept.rxAdvance {qpn n} (hs : r.CxlKept s) : r.CxlKept (s.rxAdvance qpn n) := hs.modQp
theorem State.CxlKept.rcNak {q k code} (hs : r.CxlKept s) : r.CxlKept (s.rcNak q k code) := hs.answer
theorem State.CxlKept.rcRnr {q k code} (hs : r.CxlKept s) : r.CxlKept (s.rcRnr q k code) := hs.answer
theorem State.CxlKept.rcAck {q k} (hs : r.CxlKept s) : r.CxlKept (s.rcAck q k) := .ite hs.answer hs
theorem State.CxlKept.readRsps {q k b} (hs : r.CxlKept s) : r.CxlKept (s.readRsps q k b) := hs.foldl fun ht => ht.answer

theorem State.CxlKept.rcSend {qpn q k first last imm} (hs : r.CxlKept s) : CxlKeptSome r (s.rcSend qpn q k first last imm) := by
  unfold State.rcSend
  extract_lets n cur
  clear_value cur
  refine .ite ?_ (.ite (.some hs.rcNak) ?_)
  · split
    · exact .some (hs.deliverImm _ ‹_›).rxAdvance.rcAck
    · exact .some hs.rcRnr
  · split
    · exact .some (.ite hs.rcRnr hs.rcNak)
    · split
      · exact .some hs
      · extract_lets drop
        have hdrop : ∀ {t st}, r.CxlKept t → r.CxlKept (drop t st) := fun ht => .ite ht ht.modQp.endCmd
        clear_value drop
        refine .ite (.some (hdrop hs.rcNak)) (.ite (.some hs.rcRnr) ?_)
        split
        · exact .none
        · exact .some (hdrop hs.rcNak)
        · extract_lets t1 t2
          have h1 : r.CxlKept t1 := (hs.placeAt ‹_›).rxAdvance.modQp
          have h2 : r.CxlKept t2 := .ite h1 (.ite (.getD h1.deliverImm h1) h1.finishRecv)
          exact .some h2.rcAck

theorem State.CxlKept.rcWrite {qpn q k reth last imm} (hs : r.CxlKept s) : CxlKeptSome r (s.rcWrite qpn q k reth last imm) := by
  unfold State.rcWrite
  extract_lets n cur
  clear_value cur
  split
  · exact .some hs.rcNak
  · refine .ite (.some hs.rcNak) (.ite (.some hs.rcNak) ?_)
    split
    · exact .some hs.rcRnr
    · split
      · exact .none
      · exact .some hs.rcNak
      · extract_lets t1
        have h1 : r.CxlKept t1 := (hs.placeAt ‹_›).rxAdvance.modQp
        exact .some (State.CxlKept.getD h1.deliverImm h1).rcAck

theorem State.CxlKept.rcIn {qpn q k} (hs : r.CxlKept s) : CxlKeptSome r (s.rcIn qpn q k) := by
  unfold State.rcIn
  extract_lets d s1
  have h1 : r.CxlKept s1 := hs.count
  clear_value s1
  refine .ite ?_ (.ite (.some hs.rcNak) ?_)
  · split
    · refine .ite ?_ (.some h1)
      split
      · exact .some h1.readRsps
      · exact .some h1
    · split
      · exact .some h1.answer
      · exact .some h1
    · exact .some h1.answer
  · split
    · exact hs.rcSend
    · exact hs.rcWrite
    · refine .ite (.some hs.rcNak) ?_
      split
      · exact .some hs.rxAdvance.readRsps
      · exact .some hs.rcNak
      · exact .none
    · refine .ite (.some hs.rcNak) (.ite (.some hs.rcNak) ?_)
      split
      · exact .none
      · exact .some hs.rcNak
      · extract_lets old
        split
        · exact .none
        · exact .some hs.rcNak
        · exact .some (hs.placeAt ‹_›).rxAdvance.modQp.answer
    · exact .some hs.rcNak

theorem State.CxlKept.sprayRecord {qpn k whole} (hs : r.CxlKept s) : r.CxlKept (s.sprayRecord qpn k whole) := by
  unfold State.sprayRecord
  split
  · exact hs
  · exact .ite hs.setQp hs.setQp.answer

theorem State.CxlKept.sprayRsps {q k h b} (hs : r.CxlKept s) : r.CxlKept (s.sprayRsps q k h b) := hs.foldl fun ht => ht.answer

theorem State.CxlKept.sprayIn {qpn q k} (hs : r.CxlKept s) : CxlKeptSome r (s.sprayIn qpn q k) := by
  unfold State.sprayIn
  extract_lets d again s0 n
  refine .ite (.some hs) ?_
  split
  · have h0 : r.CxlKept s0 := .ite hs.count hs
    clear_value s0
    refine .ite (.some h0.rcNak) ?_
    split
    · exact .some (State.CxlKept.ite h0 h0.sprayRecord).sprayRsps
    · exact .some h0.rcNak
    · exact .none
  · refine .ite (.some hs.count.answer) ?_
    extract_lets bytes whole
    clear_value bytes
    refine .ite (.some hs.rcNak) (.ite (.some hs.rcNak) ?_)
    split
    · exact .some hs.rcRnr
    · split
      · exact .none
      · exact .some hs.rcNak
      · extract_lets t1 t2
        have h1 : r.CxlKept t1 := (hs.placeAt ‹_›).modQp
        have h2 : r.CxlKept t2 := .ite (.getD h1.deliverImm h1) h1
        exact .some h2.sprayRecord
  · exact .some hs.rcNak

theorem State.CxlKept.udIn {q k qkey src imm} (hs : r.CxlKept s) : CxlKeptSome r (s.udIn q k qkey src imm) := by
  unfold State.udIn
  refine .ite (.some hs) (.ite (.some (.getD hs.deliverImm hs)) ?_)
  split
  · exact .some hs
  · refine .ite (.some hs) ?_
    split
    · exact .none
    · exact .some hs
    · exact .some (hs.placeAt ‹_›).finishRecv

theorem State.CxlKept.rdNak {q k h reason} (hs : r.CxlKept s) : r.CxlKept (s.rdNak q k h reason) := hs.answer
theorem State.CxlKept.rdAck {q k h} (hs : r.CxlKept s) : r.CxlKept (s.rdAck q k h) := hs.answer

theorem State.CxlKept.rdPlace {q k h m} (hs : r.CxlKept s) : CxlKeptSome r (s.rdPlace q k h m) := by
  unfold State.rdPlace
  extract_lets n got whole isSend trig recvIn dst m1
  clear_value dst
  split
  · exact .some hs.rdNak
  · split
    · exact .none
    · exact .some hs.rdNak
    · next t e =>
      have ht : r.CxlKept t := by
        split at e
        · exact hs.placeAt e
        · cases e
          exact hs
      extract_lets t1 t2
      have h1 : r.CxlKept t1 := ht.setRdm
      have h2 : r.CxlKept t2 := by
        unfold t2
        split
        · exact h1.finishRecv
        · exact .getD h1.deliverImm h1
      exact .ite (.some ht.setRdm) (.some h2.rdAck)

theorem State.CxlKept.rdAbandon {m} (hs : r.CxlKept s) : r.CxlKept (s.rdAbandon m) := by
  unfold State.rdAbandon
  dsimp only
  split
  · exact hs.setRdm.endCmd
  · exact hs.setRdm

theorem State.CxlKept.rdInPkt {qpn q k h} (hs : r.CxlKept s) : CxlKeptSome r (s.rdInPkt qpn q k h) := by
  unfold State.rdInPkt
  extract_lets id isSend recv m
  split
  · exact .some hs.rdAbandon
  · split
    · exact .some hs.rdAck
    · exact .some hs
    · refine .ite (.some hs.rdNak) (.ite (.some hs.rdNak) ?_)
      split
      · exact .ite (.some hs.count) hs.rdPlace
      · refine .ite (.some hs.rdNak) ?_
        split
        · exact .some hs.rdNak
        · exact .ite (.some hs.rdNak) (.ite (.some hs.rdNak) hs.setRdm.rdPlace)

theorem State.CxlKept.staleRsp {q} (hs : r.CxlKept s) : r.CxlKept (s.staleRsp q) := hs.countStale

theorem State.CxlKept.placeRsp {qpn q w off b} (hs : r.CxlKept s) : CxlKeptSome r (s.placeRsp qpn q w off b) := by
  unfold State.placeRsp
  split
  · exact .some hs
  · refine .ite (.some hs.count) ?_
    split
    · exact .none
    · exact .some hs.endCmd.qpError
    · exact .some (hs.placeAt ‹_›).modQp

theorem State.CxlKept.rdGiveUp {qpn w} (hs : r.CxlKept s) : r.CxlKept (s.rdGiveUp qpn w) := by
  unfold State.rdGiveUp
  dsimp only
  split
  · exact hs.modQp.endCmd
  · exact hs.modQp.endCmd

theorem State.CxlKept.rspIn {qpn q k} (hs : r.CxlKept s) : CxlKeptSome r (s.rspIn qpn q k) := by
  unfold State.rspIn
  extract_lets psn prev s1
  have h1 : r.CxlKept s1 := hs.ackTo
  clear_value s1
  split
  · exact .some hs.ackTo
  · exact .some (by split; exacts [h1.resend, h1.qpError, h1.qpError, h1.qpError])
  · split
    · exact .some h1
    · exact .ite (.some h1.qpError) (.some h1.setQp)
  · split
    · exact .some hs.staleRsp
    · exact .map hs.placeRsp fun ht => ht.ackTo
  · split
    · exact .some hs.staleRsp
    · exact .map hs.placeRsp fun ht => ht.ackTo
  · split
    · exact .some hs.staleRsp
    · exact .map hs.placeRsp fun ht => ht.finishWrs
  · split
    · exact .some hs.staleRsp
    · exact .ite (.some hs.rdGiveUp) (.some hs.modQp.endCmd)
  · split
    · exact .some hs.staleRsp
    · exact .ite (.some hs.rdGiveUp) (.ite (.some hs.modQp) (.some hs.modQp.endCmd))
  · exact .some hs

theorem State.CxlKept.sendCnp {qpn k} (hs : r.CxlKept s) : r.CxlKept (s.sendCnp qpn k) := by
  unfold State.sendCnp
  split
  · exact hs
  · exact .ite hs.setQp.count.answer hs

theorem State.CxlKept.cnpIn {qpn q} (hs : r.CxlKept s) : r.CxlKept (s.cnpIn qpn q) := hs.count.setQp

theorem State.CxlKept.handlePkt {qpn k} (hs : r.CxlKept s) : CxlKeptSome r (s.handlePkt qpn k) := by
  unfold State.handlePkt
  split
  · exact .some hs
  · extract_lets s0 s1 q up
    have h0 : r.CxlKept s0 := .ite hs.count.noteCe (.ite hs.devUe hs)
    have h1 : r.CxlKept s1 := h0.sendCnp.touchQp
    clear_value q s1
    refine .ite (.some h1.devUe.qpError) (.ite (.ite (.some h1.countStale) (.ite h1.rspIn (.some h1))) (.ite (.some h1.cnpIn) ?_))
    split
    case h_3 => exact .ite h1.udIn (.some h1)
    case h_4 => exact .ite (.some h1) (.ite (.some h1.rcRnr) (.ite h1.rcIn h1.sprayIn))
    all_goals exact .ite (.some h1) (.ite (.some h1.rdNak) (.ite (.some h1.rdNak) h1.rdInPkt))

theorem State.CxlKept.missShow (hs : r.CxlKept s) : r.CxlKept (s.missShow) := hs.setFld.setFld

theorem State.CxlKept.drainQp {qpn n} (hs : r.CxlKept s) : r.CxlKept (s.drainQp qpn n) := by
  induction n generalizing s with
  | zero => exact hs
  | succ n ih =>
    unfold State.drainQp
    split
    · exact hs
    · refine .ite hs ?_
      split
      · split
        · exact ih (hs.setQp.handlePkt _ ‹_›)
        · exact hs
      · dsimp only
        split
        · exact ih hs.setQp.launch
        · exact ih hs.setQp
      · exact hs

theorem State.CxlKept.drainAll {qpn} (hs : r.CxlKept s) : r.CxlKept (s.drainAll qpn) := by
  unfold State.drainAll
  split
  · exact hs.drainQp.missShow
  · exact hs

theorem State.CxlKept.drainWaits (hs : r.CxlKept s) : r.CxlKept (s.drainWaits) :=
  (hs.foldl fun ht => .ite ht ht.drainAll).setRdm.foldl fun ht => by split; exacts [ht.deliver, ht]

/-! ### Migrations that end, and memory that stops serving (R222, R228) -/

theorem State.CxlKept.setMigs {l} (hs : r.CxlKept s) : r.CxlKept (s.setMigs l) := hs.frame.setFld
theorem State.CxlKept.svcLeave {id} (hs : r.CxlKept s) : r.CxlKept (s.svcLeave id) := hs.frame

theorem State.CxlKept.migFail {id st} (hs : r.CxlKept s) : r.CxlKept (s.migFail id st) := by
  unfold State.migFail
  split
  · exact hs
  · exact hs.setMigs.devWrite.endCmd.drainWaits

theorem State.CxlKept.loseRegion {q} (hs : r.CxlKept s) : r.CxlKept (s.loseRegion q) :=
  hs.foldl fun ht => .ite ht.migFail ht.svcLeave.endCmd

end Sys2Proof.Machine
end

section
/-! SUPPORT. What memory, its migrations and its ports share: registers of which several fields are written, commands that end, what
events leave of the fetched commands, and the entry that an event writes. -/

namespace Sys2Proof.Machine

open Sys2Proof

/-! ### Several fields written -/

theorem State.sameRegsBut.refl (s : State) (l : List Nat) : s.sameRegsBut s l := fun _ _ => rfl

/-- One more field written, of a register that is named. -/
theorem State.sameRegsBut.setFld {s t : State} {l : List Nat} (h : s.sameRegsBut t l) {f : Fld} (hf : f.off ∈ l) (v : Nat) :
    s.sameRegsBut (t.setFld f v) l :=
  fun o ho => (State.reg_setFld_other t f v o fun e => ho (e ▸ hf)).trans (h o ho)

/-- A flag beside the field that is written, in its register, stays as it is. -/
theorem State.flag_setFld_bits (s : State) {f g : Fld} (v : Nat) (hf : f.lo + f.w ≤ 64) (ho : g.off = f.off)
    (h : g.lo + g.w ≤ f.lo ∨ f.lo + f.w ≤ g.lo) : (s.setFld f v).flag g = s.flag g := by
  rw [State.flag, State.fld_setFld_bits s f g v hf ho h, State.flag]

/-! ### Commands -/

theorem State.id_of_cmd? {s : State} {id : Nat} {c : Cmd} (h : s.cmd? id = some c) : c.id = id :=
  eq_of_beq (List.find?_some (p := fun c : Cmd => c.id == id) h)

theorem State.cmd?_setCmd_same {s : State} {id : Nat} {c : Cmd} (h : s.cmd? id = some c) {x : Cmd} (hx : x.id = id) :
    (s.setCmd x).cmd? id = some x := by
  subst hx
  unfold State.cmd? State.setCmd at *
  dsimp only
  generalize s.que.cmds = l at *
  induction l with
  | nil => exact absurd h nofun
  | cons y r ih =>
    rw [List.map_cons, List.find?_cons]
    rw [List.find?_cons] at h
    by_cases hy : y.id = x.id
    · rw [if_pos hy, beq_self_eq_true]
    · rw [beq_false_of_ne hy] at h
      rw [if_neg hy, beq_false_of_ne hy]
      exact ih h

theorem State.cmd?_setCmd_other (s : State) {x : Cmd} {j : Nat} (h : j ≠ x.id) : (s.setCmd x).cmd? j = s.cmd? j := by
  unfold State.cmd? State.setCmd
  dsimp only
  generalize s.que.cmds = l
  induction l with
  | nil => rfl
  | cons y r ih =>
    rw [List.map_cons, List.find?_cons, List.find?_cons, ih]
    by_cases hy : y.id = x.id
    · rw [if_pos hy, hy, beq_false_of_ne h.symm]
    · rw [if_neg hy]

/-- The command as `endCmd` leaves it. -/
def Cmd.over (c : Cmd) (now : Nat) (st : Status) (detail result : Nat) : Cmd :=
  { (if c.shaped then { c with paged := false } else c.release now) with
    done := some (st, detail, BitVec.ofNat 64 result), watch := false, parked := none }

theorem Cmd.over_id (c : Cmd) (now : Nat) (st : Status) (detail result : Nat) : (c.over now st detail result).id = c.id := by
  unfold Cmd.over
  split <;> rfl

section

variable {s : State} {id : Nat} {c : Cmd} (h : s.cmd? id = some c) (hd : c.done = none) (st : Status) (detail result : Nat)
include h

theorem State.endCmd_of_done (hdone : c.done ≠ none) : s.endCmd id st detail result = s := by
  rw [State.endCmd, h]
  exact if_neg hdone

include hd

theorem State.endCmd_of_cmd? : s.endCmd id st detail result = s.setCmd (c.over s.now st detail result) := by
  rw [State.endCmd, h]
  exact if_pos hd

/-- A command that has not ended ends, and nothing else of the device changes. -/
theorem State.ended_endCmd : (s.endCmd id st detail result).ended id st detail result ∧ s.onlyCmd (s.endCmd id st detail result) id := by
  have hid := (c.over_id s.now st detail result).trans (State.id_of_cmd? h)
  rw [State.endCmd_of_cmd? h hd]
  exact ⟨⟨_, State.cmd?_setCmd_same h hid, rfl⟩, rfl, rfl, fun j hj => State.cmd?_setCmd_other s (hid ▸ hj)⟩

end

/-- Ending a command changes the fetched commands alone. -/
theorem State.endCmd_frame (s : State) (id : Nat) (st : Status) (detail result : Nat) :
    s.endCmd id st detail result = { s with que := { s.que with cmds := (s.endCmd id st detail result).que.cmds } } := by
  unfold State.endCmd
  split
  · dsimp only
    split <;> rfl
  · rfl

theorem State.ended_of_cmds {s t : State} (h : t.que.cmds = s.que.cmds) {id detail result : Nat} {st : Status}
    (he : s.ended id st detail result) : t.ended id st detail result := by
  rwa [State.ended, State.cmd?, h]

/-- Where no queue pair is and nothing waits for a delivery, nothing goes on at the end of a migration (R228). -/
theorem State.drainWaits_of_idle {s : State} (hq : s.rdm.qps = []) (hl : s.rdm.late = []) : s.drainWaits = s := by
  have hsame : s.setRdm (fun r => { r with late := [] }) = s := by
    unfold State.setRdm
    rw [← hl]
  unfold State.drainWaits
  rw [hq]
  dsimp only [List.foldl_nil]
  rw [hl, hsame]
  rfl

/-! ### What events leave of the fetched commands -/

theorem State.cmds_foldl {α : Type} {f : State → α → State} (hf : ∀ t a, (f t a).que.cmds = t.que.cmds) (l : List α) (s : State) :
    (l.foldl f s).que.cmds = s.que.cmds := by
  induction l generalizing s with
  | nil => rfl
  | cons a l ih => exact (ih (f s a)).trans (hf s a)

theorem State.cmds_logWrite (s : State) (kind block part : Nat) (st : Status) (detail arg0 arg1 : Nat) :
    (s.logWrite kind block part st detail arg0 arg1).que.cmds = s.que.cmds :=
  (congrArg (fun t : State => t.que.cmds) (s.logWrite_frame kind block part st detail arg0 arg1) :)

theorem State.cmds_msixSend (s : State) (fn : Fin 2) (v : Nat) : (s.msixSend fn v).que.cmds = s.que.cmds := by
  unfold State.msixSend
  dsimp only
  split <;> rfl

theorem State.cmds_cqPost (s : State) (p : Fin 65) (q : Nat) (e : CqEntry) : (s.cqPost p q e).que.cmds = s.que.cmds := by
  have hwritten : ∀ (a : Nat) (b : List Byte) (x : Cq),
      (((s.setBytes a b).sendWr none (fun _ => false) a b).setCq p q x).que.cmds = s.que.cmds := fun a b x => by
    rw [State.sendWr_frame, State.setBytes_frame]
    rfl
  have hsignal : ∀ t : State, (t.cqSignal p q).que.cmds = t.que.cmds := fun t => by
    unfold State.cqSignal
    split
    · rfl
    · exact State.cmds_msixSend _ _ _
  unfold State.cqPost
  split
  · rfl
  · split
    · rfl
    · dsimp only
      split
      · exact (hsignal _).trans (hwritten _ _ _)
      · exact hwritten _ _ _

theorem State.cmds_cqBreak (s : State) (p : Fin 65) (q : Nat) (x : Cq) : (s.cqBreak p q x).que.cmds = s.que.cmds := by
  unfold State.cqBreak
  dsimp only
  split <;> rfl

theorem State.cmds_evWrite (s : State) {post : State → Fin 65 → EvRec → State}
    (hp : ∀ (t : State) (d : Fin 65) (r : EvRec), (post t d r).que.cmds = t.que.cmds)
    (p : Fin 65) (q : Nat) (c : Cq) (e : EvRec) : (s.evWrite post p q c e).que.cmds = s.que.cmds := by
  unfold State.evWrite
  dsimp only
  split
  · exact s.cmds_cqPost _ _ _
  · exact (State.cmds_foldl (fun t d => hp t d _) _ _).trans
      ((State.cmds_logWrite _ _ _ _ _ _ _ _).trans (State.cmds_cqBreak (s.count (fQUE_PEVDROP_COUNT p.val) 1) _ _ _))

theorem State.cmds_evPostN (n : Nat) (s : State) (p : Fin 65) (e : EvRec) : (State.evPostN n s p e).que.cmds = s.que.cmds := by
  induction n generalizing s p e with
  | zero =>
    unfold State.evPostN
    dsimp only
    split
    · rfl
    · split
      · rfl
      · split
        · exact s.cmds_cqPost _ _ _
        · split <;> rfl
  | succ n ih =>
    unfold State.evPostN
    dsimp only
    split
    · rfl
    · split
      · rfl
      · split
        · exact s.cmds_evWrite ih _ _ _ _
        · split <;> rfl

/-- An event changes no fetched command. -/
theorem State.cmds_event (s : State) (block : Nat) (dests : List (Fin 65)) (e : EvRec) (a : Nat) :
    (s.event block dests e a).que.cmds = s.que.cmds := by
  have hposts : ∀ t : State, (dests.foldl (fun t p => t.evPost p e) t).que.cmds = t.que.cmds :=
    State.cmds_foldl (fun t p => State.cmds_evPostN 3 t p e) dests
  unfold State.event
  dsimp only
  split
  · exact ((hposts _).trans (State.cmds_logWrite _ _ _ _ _ _ _ _)).trans (congrArg (fun t : State => t.que.cmds) (s.pulse_frame _) :)
  · exact (hposts _).trans (State.cmds_logWrite _ _ _ _ _ _ _ _)

/-! ### The entry of an event (R466, R470) -/

/-- An entry that stands for one state stands for another whose log goes on at the same index, at the same time. -/
theorem State.logged_of_same {s t u : State} {kind block part : Nat} {st : Status} {detail arg0 arg1 : Nat}
    (hwr : t.reg rLOG_WR = s.reg rLOG_WR) (htb : t.sch.tb = s.sch.tb) (h : t.logged u kind block part st detail arg0 arg1) :
    s.logged u kind block part st detail arg0 arg1 := by
  rwa [State.logged, State.fld_of_sameReg (f := fLOG_WR_COUNT) hwr, htb] at h

theorem State.pulse_wr (s : State) {n : Nat} (hn : n < 256) : (s.pulse n).reg rLOG_WR = s.reg rLOG_WR :=
  State.reg_pulse s fun c hc he => by
    simp only [rLOG_WR, rLDG_EV_SRC] at he
    omega

/-- The event of partition 0 has its entry, whatever the queues that fail may add. -/
theorem State.logged_event0 (s : State) (block code result : Nat) (st : Status) (detail : Nat)
    (hsrc : ∀ n, evSource code result = some n → n < 256) :
    s.logged (s.event0 block code result st detail) code block 0 st detail 0 result := by
  have hadds := fun t : State => State.logged_of_logAdds (by decide) (State.logAdds.evPost
    (t.logWrite code block 0 st detail 0 result) { code := code, result := result, st := st, detail := detail })
  unfold State.event0 State.event
  dsimp only
  split
  case h_1 n hn =>
    exact State.logged_of_same (s.pulse_wr (hsrc n hn)) (congrArg (fun t : State => t.sch.tb) (s.pulse_frame n) :) (hadds _)
  case h_2 => exact hadds s

end Sys2Proof.Machine
end

section
/-! PROOF. GDDR7 training and refresh, the CXL ports, their credits and records, and the placement registers (R217, R218, R221 to R223,
R226), of the family 08_memory_and_context. -/

namespace Sys2Proof.Machine

open Sys2Proof

/-! ### Training (R217, R218) -/

/-- The registers at the end of a training that passed: RATE, the devices found, FAST, HOT, READY. -/
def State.trainShown (s : State) (x : GddrX) (fast : Bool) : State :=
  s |>.setFld fMEM_CFG_RATE 36 |>.setFld fMEM_CFG_DEVICES 24 |>.setFld fMEM_CFG_CLAMSHELL 0 |>.setFld fMEM_STATUS_FAST (b2n fast)
    |>.setFld fMEM_STATUS_HOT (b2n (85 < x.celsius)) |>.raise fMEM_STATUS_READY

section

variable (s : State) (x : GddrX) (fast : Bool)

theorem State.trainShown_frame : s.trainShown x fast = { s with regs := (s.trainShown x fast).regs } :=
  State.setFld_frame (State.setFld_frame (State.setFld_frame (State.setFld_frame (State.setFld_frame (State.setFld_frame rfl _ _) _ _) _ _)
    _ _) _ _) _ _

theorem State.sameRegsBut_trainShown : s.sameRegsBut (s.trainShown x fast) [fMEM_CFG_RATE.off, fMEM_STATUS_READY.off] :=
  ((((((State.sameRegsBut.refl s _).setFld (by decide) _).setFld (by decide) _).setFld (by decide) _).setFld (by decide) _).setFld
    (by decide) _).setFld (by decide) _

theorem State.config_trainShown : (s.trainShown x fast).fld fMEM_CFG_RATE = 36 ∧ (s.trainShown x fast).fld fMEM_CFG_DEVICES = 24 ∧
    (s.trainShown x fast).flag fMEM_CFG_CLAMSHELL = false := by
  unfold State.trainShown State.raise State.flag
  simp (disch := decide) only [State.fld_setFld_off, State.fld_setFld_bits, State.fld_setFld_same]
  decide

theorem State.status_trainShown : (s.trainShown x fast).flag fMEM_STATUS_READY = true ∧
    (s.trainShown x fast).flag fMEM_STATUS_FAST = fast ∧ (s.trainShown x fast).flag fMEM_STATUS_HOT = decide (85 < x.celsius) := by
  refine ⟨State.flag_raise_same _ rfl (by decide), ?_, ?_⟩
  · unfold State.trainShown State.raise
    rw [State.flag_setFld_bits _ _ (by decide) (by rfl) (by decide), State.flag_setFld_bits _ _ (by decide) (by rfl) (by decide)]
    exact State.flag_setFld_b2n _ rfl (by decide) fast
  · unfold State.trainShown State.raise
    rw [State.flag_setFld_bits _ _ (by decide) (by rfl) (by decide)]
    exact State.flag_setFld_b2n _ rfl (by decide) _

end

/-- The devices found and their temperature, as a training that passed leaves them. -/
def Mem.trained (m : Mem) (x : GddrX) : Mem := { m with training := none, ident := x.ident, temps := Vector.replicate 12 x.celsius }

theorem exec_gddr7TrainDone_ok {s : State} {x : GddrX} {f : Bool} {u : Nat} (ht : s.gmem.training = some (f, u)) (hok : x.ok = true)
    (hc : x.clamshell = false) :
    exec (.gddr7TrainDone x) s = .next (({ s with gmem := s.gmem.trained x } : State).trainShown x (s.fastStart f x)) := by
  show execGddr7TrainDone x s = _
  unfold execGddr7TrainDone
  rw [ht]
  dsimp only
  rw [if_pos ⟨hok, .inl hc⟩, hc]
  rfl

theorem exec_gddr7TrainDone_failed {s : State} {x : GddrX} {f : Bool} {u : Nat} (ht : s.gmem.training = some (f, u)) (hok : x.ok = false) :
    exec (.gddr7TrainDone x) s =
      .next { s with gmem := { s.gmem with training := if s.fastStart f x then some (false, s.now) else none } } := by
  show execGddr7TrainDone x s = _
  unfold execGddr7TrainDone
  rw [ht]
  dsimp only
  rw [if_neg fun h => Bool.false_ne_true (hok.symm.trans h.1)]
  split <;> rfl

theorem bitOf_zero_eq (n : Nat) : b2n (bitOf n 0) = n % 2 := by
  rcases Nat.mod_two_eq_zero_or_one n with h | h <;> simp [bitOf, b2n, h]

section

variable {s : State} {v : BitVec 32}

theorem key_eq (v : BitVec 32) : bitsOf v.toNat 16 16 = v.toNat / 65536 := Nat.mod_eq_of_lt (by have := v.isLt; omega)

theorem exec_memTrainSave_keyed (hk : v.toNat / 65536 = 0xA55A) (hsave : bitOf v.toNat 1 = true) (hr : s.flag fMEM_STATUS_READY = true) :
    exec (.memTrainSave v) s = .next { s.setFld fMEM_TRAIN_CTRL_FORCE_FULL (v.toNat % 2) with
      gmem := { s.gmem with saved := some (s.gmem.ident, s.gmem.temps[0]) } } := by
  show Host.Outcome.next (s.memTrainWrite v) = _
  rw [State.memTrainWrite, if_neg (not_not.mpr ((key_eq v).trans hk)), bitOf_zero_eq, if_pos ⟨hsave, hr⟩]
  rfl

theorem exec_memTrainSave_unkeyed (hk : v.toNat / 65536 ≠ 0xA55A) : exec (.memTrainSave v) s = .next s := by
  show Host.Outcome.next (s.memTrainWrite v) = _
  rw [State.memTrainWrite, if_pos ((key_eq v).symm ▸ hk)]

end

/-- A refresh notes the group's temperature, and HOT says whether any group is above 85 °C. -/
def State.refreshed (s : State) (g : Fin 12) (d : Int) : State :=
  ({ s with gmem := { s.gmem with temps := s.gmem.temps.set g d } } : State).setFld fMEM_STATUS_HOT
    (b2n ((s.gmem.temps.set g d).toList.any (fun c => 85 < c)))

theorem exec_gddr7Refresh_ready {s : State} (hr : s.flag fMEM_STATUS_READY = true) (g : Fin 12) (d : Int) :
    exec (.gddr7Refresh g d) s = .next (s.refreshed g d) := if_pos hr

/-- A vector with one element replaced has an element of a kind where the new one or another is of it. -/
theorem any_set_iff {n : Nat} (l : Vector Int n) (g : Fin n) (d : Int) (p : Int → Bool) :
    (l.set g d).toList.any p = true ↔ p d = true ∨ ∃ j : Fin n, j ≠ g ∧ p l[j] = true := by
  rw [List.any_eq_true]
  constructor
  · rintro ⟨c, hc, hp⟩
    obtain ⟨i, hi, rfl⟩ := Vector.getElem_of_mem (Vector.mem_toList_iff.mp hc)
    rw [Vector.getElem_set] at hp
    split at hp
    case isTrue => exact .inl hp
    case isFalse hne => exact .inr ⟨⟨i, hi⟩, fun e => hne (congrArg Fin.val e).symm, hp⟩
  · rintro (hp | ⟨j, hj, hp⟩)
    · have hsame : (l.set g d)[g] = d := Vector.getElem_set_self _
      exact ⟨d, Vector.mem_toList_iff.mpr (hsame.subst (motive := fun c => c ∈ l.set g d) (Vector.getElem_mem _)), hp⟩
    · refine ⟨l[j], Vector.mem_toList_iff.mpr ?_, hp⟩
      have hsame : (l.set g d)[j] = l[j] := Vector.getElem_set_ne _ _ fun e => hj (Fin.ext e.symm)
      rw [← hsame]
      exact Vector.getElem_mem _

theorem State.hot_refreshed (s : State) (g : Fin 12) (d : Int) :
    (s.refreshed g d).flag fMEM_STATUS_HOT = true ↔ 85 < d ∨ ∃ j : Fin 12, j ≠ g ∧ 85 < s.gmem.temps[j] := by
  rw [State.refreshed, State.flag_setFld_b2n _ rfl (by decide), any_set_iff]
  simp only [decide_eq_true_eq]

/-! ### The state of a CXL port (R221, R434) -/

section

variable (s : State) (n st : Nat)

theorem State.setCxl_frame : s.setCxl n st = { s with regs := (s.setCxl n st).regs } := State.pulse_frame _ _

theorem State.reg_setCxl {o : Nat} (h : o < 0x800000) (ho : o ≠ rCXM_PORT_STATUS n) : (s.setCxl n st).reg o = s.reg o :=
  ((State.eventLeaves_pulse _ _).2 o h).trans (State.reg_setFld_other s (fCXM_PORT_STATUS_STATE n) st o ho)

variable (hn : n < 2)
include hn

theorem State.status_setCxl : (s.setCxl n st).reg (rCXM_PORT_STATUS n) = (s.setFld (fCXM_PORT_STATUS_STATE n) st).reg (rCXM_PORT_STATUS n) :=
  (State.eventLeaves_pulse _ _).2 _ (show 0x500104 + 32 * n < 0x800000 by omega)

theorem State.state_setCxl (hst : st < 16) : (s.setCxl n st).fld (fCXM_PORT_STATUS_STATE n) = st := by
  rw [State.fld_of_sameReg (f := fCXM_PORT_STATUS_STATE n) (s.status_setCxl n st hn),
    State.fld_setFld_same _ _ _ (show 0 + 4 ≤ 64 by decide)]
  exact Nat.mod_eq_of_lt hst

theorem State.cap_setCxl : (s.setCxl n st).fld (fCXM_PORT_STATUS_CAP n) = s.fld (fCXM_PORT_STATUS_CAP n) := by
  rw [State.fld_of_sameReg (f := fCXM_PORT_STATUS_CAP n) (s.status_setCxl n st hn)]
  exact State.fld_setFld_bits _ _ _ _ (show 0 + 4 ≤ 64 by decide) rfl (.inr (show 0 + 4 ≤ 16 by decide))

theorem State.wr_setCxl : (s.setCxl n st).reg rLOG_WR = s.reg rLOG_WR :=
  (State.pulse_wr _ (by omega)).trans (State.reg_setFld_other s (fCXM_PORT_STATUS_STATE n) st _
    (show 0x1000000 ≠ 0x500104 + 32 * n by omega))

end

/-- The event source of a port's change of state. -/
theorem evSource_cxl {n : Nat} (hn : n < 2) : ∀ k, evSource 0x0203 n = some k → k < 256 := by
  rintro k ⟨⟩
  omega

/-! ### A port leaves ACTIVE (R222) -/

/-- The loss of a port shows: its state, the count, the flag. -/
def State.cxlLost (s : State) (n st : Nat) : State := ((s.setCxl n st).count (fCXM_LINK_DOWN_COUNT n) 1).raise fCXM_ERR_LINK_DOWN

section

variable {s : State} {n : Nat} (hn : n < 2) (st : Nat)

theorem State.leaveCxl_of_active (h : s.fld (fCXM_PORT_STATUS_STATE n) = 3) :
    s.leaveCxl n st = ((s.loseRegion (.cxl n)).cxlLost n st).event0 blkCXM 0x0203 n .targetReset := if_pos h

theorem State.leaveCxl_of_inactive (h : s.fld (fCXM_PORT_STATUS_STATE n) ≠ 3) : s.leaveCxl n st = s.setCxl n st := if_neg h

theorem State.cxlLost_frame (s : State) (n st : Nat) : s.cxlLost n st = { s with regs := (s.cxlLost n st).regs } :=
  State.setFld_frame (State.setFld_frame (s.setCxl_frame n st) _ _) _ _

theorem State.reg_cxlLost (s : State) {o : Nat} (h : o < 0x800000) (ho : o ∉ [rCXM_PORT_STATUS n, rCXM_LINK_DOWN n, rCXM_ERR]) :
    (s.cxlLost n st).reg o = s.reg o := by
  simp only [List.mem_cons, List.not_mem_nil, or_false, not_or] at ho
  obtain ⟨hs, hd, he⟩ := ho
  exact ((State.reg_setFld_other _ fCXM_ERR_LINK_DOWN _ _ he).trans (State.reg_setFld_other _ (fCXM_LINK_DOWN_COUNT n) _ _ hd)).trans
    (s.reg_setCxl n st h hs)

include hn

theorem State.fields_cxlLost (s : State) {st : Nat} (hst : st < 16) :
    (s.cxlLost n st).fld (fCXM_PORT_STATUS_STATE n) = st ∧ (s.cxlLost n st).flag fCXM_ERR_LINK_DOWN = true ∧
      (s.cxlLost n st).fld (fCXM_LINK_DOWN_COUNT n) = min (s.fld (fCXM_LINK_DOWN_COUNT n) + 1) (2 ^ 32 - 1) := by
  refine ⟨?_, State.flag_raise_same _ rfl (by decide), ?_⟩
  · have herr : rCXM_PORT_STATUS n ≠ rCXM_ERR := show 0x500104 + 32 * n ≠ 0x500000 by omega
    have hdown : rCXM_PORT_STATUS n ≠ rCXM_LINK_DOWN n := show 0x500104 + 32 * n ≠ 0x50010C + 32 * n by omega
    exact ((State.fld_setFld_off _ fCXM_ERR_LINK_DOWN (fCXM_PORT_STATUS_STATE n) _ herr).trans
      (State.fld_setFld_off _ (fCXM_LINK_DOWN_COUNT n) (fCXM_PORT_STATUS_STATE n) _ hdown)).trans
      (s.state_setCxl n st hn hst)
  · have herr : rCXM_LINK_DOWN n ≠ rCXM_ERR := show 0x50010C + 32 * n ≠ 0x500000 by omega
    have hstatus : rCXM_LINK_DOWN n ≠ rCXM_PORT_STATUS n := show 0x50010C + 32 * n ≠ 0x500104 + 32 * n by omega
    have hsame : (s.setCxl n st).fld (fCXM_LINK_DOWN_COUNT n) = s.fld (fCXM_LINK_DOWN_COUNT n) :=
      State.fld_of_sameReg (s.reg_setCxl n st (show 0x50010C + 32 * n < 0x800000 by omega) hstatus)
    exact (State.fld_setFld_off _ fCXM_ERR_LINK_DOWN (fCXM_LINK_DOWN_COUNT n) _ herr).trans
      ((State.fld_count_same _ _ _ (show 0 + 32 ≤ 64 by decide)).trans (by rw [hsame]; rfl))

theorem State.wr_cxlLost (s : State) (st : Nat) : (s.cxlLost n st).reg rLOG_WR = s.reg rLOG_WR :=
  ((State.reg_setFld_other _ fCXM_ERR_LINK_DOWN _ _ (by decide)).trans
    (State.reg_setFld_other _ (fCXM_LINK_DOWN_COUNT n) _ _ (show 0x1000000 ≠ 0x50010C + 32 * n by omega))).trans (s.wr_setCxl n st hn)

/-- A port that leaves ACTIVE shows it, and leaves the pavilions and its own control register. -/
theorem State.leaveCxl_leaves (h : s.fld (fCXM_PORT_STATUS_STATE n) = 3) (hst : st < 16) :
    (s.leaveCxl n st).fld (fCXM_PORT_STATUS_STATE n) = st ∧ (s.leaveCxl n st).flag fCXM_ERR_LINK_DOWN = true ∧
      (s.leaveCxl n st).pavs = s.pavs ∧ (s.leaveCxl n st).reg (rCXM_PORT_CTRL n) = s.reg (rCXM_PORT_CTRL n) ∧
      (s.leaveCxl n st).fld (fCXM_LINK_DOWN_COUNT n) = min (s.fld (fCXM_LINK_DOWN_COUNT n) + 1) (2 ^ 32 - 1) := by
  obtain ⟨hpavs, hregs⟩ : s.CxlKept (s.loseRegion (.cxl n)) := (State.CxlKept.refl s).loseRegion
  have hcount : (s.loseRegion (.cxl n)).fld (fCXM_LINK_DOWN_COUNT n) = s.fld (fCXM_LINK_DOWN_COUNT n) :=
    State.fld_of_sameReg (hregs _ (show 0x500100 ≤ 0x50010C + 32 * n by omega) (show 0x50010C + 32 * n < 0x600000 by omega))
  have hctrl := hregs (rCXM_PORT_CTRL n) (show 0x500100 ≤ 0x500100 + 32 * n by omega) (show 0x500100 + 32 * n < 0x600000 by omega)
  rw [State.leaveCxl_of_active st h]
  generalize s.loseRegion (.cxl n) = u at *
  obtain ⟨hframe, hevent⟩ := (u.cxlLost n st).eventLeaves_event blkCXM [0]
    { code := 0x0203, result := n, st := .targetReset, detail := 0 } 0
  obtain ⟨hstate, hflag, hdown⟩ := State.fields_cxlLost hn u hst
  refine ⟨(State.fld_of_sameReg (hevent _ (show 0x500104 + 32 * n < 0x800000 by omega))).trans hstate,
    (State.flag_of_sameReg (hevent _ (by decide))).trans hflag, ?_, ?_, ?_⟩
  · exact ((congrArg State.pavs hframe :).trans (congrArg State.pavs (u.cxlLost_frame n st) :)).trans hpavs
  · refine (hevent _ (show 0x500100 + 32 * n < 0x800000 by omega)).trans ((State.reg_cxlLost st u ?_ ?_).trans hctrl)
    · exact show 0x500100 + 32 * n < 0x800000 by omega
    · simp only [rCXM_PORT_STATUS, rCXM_LINK_DOWN, rCXM_ERR, List.mem_cons, List.not_mem_nil, or_false]
      omega
  · exact (State.fld_of_sameReg (hevent _ (show 0x50010C + 32 * n < 0x800000 by omega))).trans (hdown.trans (by rw [hcount]))

end

/-- Where no command is in the memory that stops serving, none ends (R222). -/
theorem State.loseRegion_of_idle {s : State} (hsvc : s.gmem.svcRun = []) (hmigs : s.gmem.migs = []) (r : Region) : s.loseRegion r = s := by
  unfold State.loseRegion
  extract_lets hit
  have hnone : s.que.cmds.filter hit = [] := List.filter_eq_nil_iff.mpr fun c _ => by
    simp [hit, State.svcRuns, hsvc, hmigs]
  rw [hnone]
  rfl

/-- The event of a port that leaves ACTIVE has its entry. -/
theorem State.logged_leaveCxl {s : State} {n : Nat} (hn : n < 2) (st : Nat) (h : s.fld (fCXM_PORT_STATUS_STATE n) = 3)
    (hsvc : s.gmem.svcRun = []) (hmigs : s.gmem.migs = []) : s.logged (s.leaveCxl n st) 0x0203 blkCXM 0 .targetReset 0 0 n := by
  rw [State.leaveCxl_of_active st h, State.loseRegion_of_idle hsvc hmigs]
  exact State.logged_of_same (State.wr_cxlLost hn s st) (congrArg (fun t : State => t.sch.tb) (s.cxlLost_frame n st) :)
    (State.logged_event0 _ _ _ _ _ _ (evSource_cxl hn))

/-! ### A migration that loses its port (R222) -/

section

variable {s : State} {id : Nat} {c : Cmd} (h : s.cmd? id = some c) (hd : c.done = none) (hqps : s.rdm.qps = []) (hlate : s.rdm.late = [])
include h hd hqps hlate

/-- The end of a migration's command in a state whose commands and queue pairs are those of `s`: nothing was waiting for it. -/
theorem State.endMig_leaves {w : State} (hcmds : w.que.cmds = s.que.cmds) (hrdm : w.rdm = s.rdm) (st : Status) :
    ((w.endCmd id st).drainWaits).ended id st 0 0 ∧ (w.endCmd id st).drainWaits = { w with que := (w.endCmd id st).que } := by
  have hcmd : w.cmd? id = some c := by
    rw [State.cmd?, hcmds]
    exact h
  have hend := w.endCmd_frame id st 0 0
  have hframe : w.endCmd id st = { w with que := (w.endCmd id st).que } :=
    hend.trans (congrArg (fun q => { w with que := q }) (congrArg State.que hend).symm)
  have hsame : (w.endCmd id st).rdm = s.rdm := (congrArg State.rdm hframe :).trans hrdm
  rw [State.drainWaits_of_idle (by rw [hsame]; exact hqps) (by rw [hsame]; exact hlate)]
  exact ⟨(State.ended_endCmd hcmd hd st 0 0).1, hframe⟩

/-- A migration that fails ends its command and is no more. -/
theorem State.migFail_of_find {m : Mig} (hm : s.gmem.migs.find? (fun m => m.cmd = id) = some m) (st : Status) :
    (s.migFail id st).ended id st 0 0 ∧
      (s.migFail id st).gmem = { s.gmem with migs := s.gmem.migs.filter (fun x => decide (x.cmd ≠ id)) } := by
  have hput := (s.setMigs (s.gmem.migs.filter (fun x => decide (x.cmd ≠ id)))).devWrite_frame m.entry
    (leBytes 8 (putBits (s.readN m.entry 8) 61 1 0)) false .plain
  unfold State.migFail
  rw [hm]
  dsimp only
  unfold State.putEntry
  generalize State.devWrite _ m.entry _ = w at *
  obtain ⟨hended, hframe⟩ := State.endMig_leaves h hd hqps hlate (congrArg (fun t : State => t.que.cmds) hput :)
    (congrArg State.rdm hput :) st
  exact ⟨hended, (congrArg State.gmem hframe :).trans (congrArg State.gmem hput :)⟩

end

/-- The command of the one migration has ended, and there is none left. -/
def State.migOver (t : State) (id : Nat) : Prop := t.ended id .targetReset 0 0 ∧ t.gmem.migs = [] ∧ t.gmem.svcRun = []

/-- Ending it again changes nothing. -/
theorem State.migOver.again {t : State} {id : Nat} (h : t.migOver id) (op : Nat) :
    (if op = 0x10 then t.migFail id .targetReset else t.svcEnd id .targetReset 0) = t := by
  obtain ⟨⟨c, hc, hdone⟩, hmigs, hsvc⟩ := h
  split
  · unfold State.migFail
    rw [hmigs]
    rfl
  · have hleave : t.svcLeave id = t := by
      unfold State.svcLeave
      rw [hsvc, List.filter_nil, ← hsvc]
    rw [State.svcEnd, hleave]
    exact State.endCmd_of_done hc _ _ _ (by rw [hdone]; simp)

theorem State.migOver.foldl {t : State} {id : Nat} (h : t.migOver id) : ∀ l : List Cmd, (∀ c ∈ l, c.id = id) →
    l.foldl (fun t c => if c.op = 0x10 then t.migFail c.id .targetReset else t.svcEnd c.id .targetReset 0) t = t
  | [], _ => rfl
  | c :: l, hl => by
    obtain ⟨hc, hl⟩ := List.forall_mem_cons.mp hl
    rw [List.foldl_cons, hc, h.again]
    exact State.migOver.foldl h l hl

/-- A list's elements that meet a condition which only those of one key meet begin with the first of that key. -/
theorem filter_of_find? {α : Type} {p q : α → Bool} {a : α} (hq : ∀ x, q x = true → p x = true) (ha : q a = true) :
    ∀ {l : List α}, l.find? p = some a → ∃ l', l.filter q = a :: l' ∧ ∀ x ∈ l', p x = true
  | [], h => by cases h
  | x :: l, h => by
    by_cases hx : p x = true
    · obtain rfl : x = a := by rwa [List.find?_cons_of_pos hx, Option.some.injEq] at h
      exact ⟨l.filter q, List.filter_cons_of_pos ha, fun y hy => hq y (List.mem_filter.mp hy).2⟩
    · rw [List.find?_cons_of_neg hx] at h
      rw [List.filter_cons_of_neg fun k => hx (hq x k)]
      exact filter_of_find? hq ha h

section

variable {s : State} {id n : Nat} {c : Cmd} {m : Mig} (h : s.cmd? id = some c) (hd : c.done = none) (hop : c.op = 0x10) (hm : m.cmd = id)
  (hsvc : s.gmem.svcRun = []) (hmigs : s.gmem.migs = [m]) (hqps : s.rdm.qps = []) (hlate : s.rdm.late = [])
  (hsrc : ∃ z, s.regionAt m.src = some (.cxl n, z))
include h hd hop hm hsvc hmigs hqps hlate hsrc

/-- The migration that reads a lost memory ends with TARGET_RESET. -/
theorem State.migOver_loseRegion : (s.loseRegion (.cxl n)).migOver id := by
  obtain ⟨z, hz⟩ := hsrc
  have hid := State.id_of_cmd? h
  unfold State.loseRegion
  extract_lets hit
  have hkey : ∀ x, hit x = true → (x.id == id) = true := fun x hx => by
    simp only [hit, State.svcRuns, hsvc, hmigs, hm, List.any_nil, List.any_cons, Bool.false_or, Bool.or_false, Bool.and_eq_true,
      decide_eq_true_eq] at hx
    exact beq_iff_eq.mpr hx.1.1.symm
  have hc : hit c = true := by
    simp [hit, State.svcRuns, State.cmdSpans, hsvc, hmigs, hm, hid, hd, hop, hz]
  obtain ⟨l, hl, hrest⟩ := filter_of_find? hkey hc h
  have hfind : s.gmem.migs.find? (fun m => m.cmd = id) = some m := by simp [hmigs, hm]
  obtain ⟨hended, hgmem⟩ := State.migFail_of_find h hd hqps hlate hfind .targetReset
  have hover : (s.migFail id .targetReset).migOver id := ⟨hended, by rw [hgmem]; simp [hmigs, hm], by rw [hgmem]; exact hsvc⟩
  rw [hl, List.foldl_cons, if_pos hop, hid, hover.foldl l fun x hx => beq_iff_eq.mp (hrest x hx)]
  exact hover

theorem State.migOver_leaveCxl (hactive : s.fld (fCXM_PORT_STATUS_STATE n) = 3) (st : Nat) : (s.leaveCxl n st).migOver id := by
  obtain ⟨hended, hnone, hrun⟩ := State.migOver_loseRegion h hd hop hm hsvc hmigs hqps hlate hsrc
  rw [State.leaveCxl_of_active st hactive]
  generalize s.loseRegion (.cxl n) = u at *
  obtain ⟨hframe, -⟩ := (u.cxlLost n st).eventLeaves_event blkCXM [0] { code := 0x0203, result := n, st := .targetReset, detail := 0 } 0
  have hgmem := (congrArg State.gmem hframe :).trans (congrArg State.gmem (u.cxlLost_frame n st) :)
  exact ⟨State.ended_of_cmds ((State.cmds_event _ _ _ _ _).trans (congrArg (fun t : State => t.que.cmds) (u.cxlLost_frame n st) :)) hended,
    (congrArg Mem.migs hgmem).trans hnone, (congrArg Mem.svcRun hgmem).trans hrun⟩

end

/-! ### The enable bit of a port (R221) -/

/-- The two settings of a port stand in its control register. -/
def State.cxlSet (s : State) (n : Nat) (v : BitVec 32) : State :=
  (s.setFld (fCXM_PORT_CTRL_ENABLE n) (b2n (bitOf v.toNat 0))).setFld (fCXM_PORT_CTRL_LAT_OPT n) (b2n (bitOf v.toNat 1))

theorem State.cxlSet_frame (s : State) (n : Nat) (v : BitVec 32) : s.cxlSet n v = { s with regs := (s.cxlSet n v).regs } :=
  State.setFld_frame (State.setFld_frame rfl _ _) _ _

theorem State.flags_cxlSet (s : State) (n : Nat) (v : BitVec 32) :
    (s.cxlSet n v).flag (fCXM_PORT_CTRL_ENABLE n) = bitOf v.toNat 0 ∧ (s.cxlSet n v).flag (fCXM_PORT_CTRL_LAT_OPT n) = bitOf v.toNat 1 := by
  unfold State.cxlSet
  constructor
  · rw [State.flag_setFld_bits _ (f := fCXM_PORT_CTRL_LAT_OPT n) _ (show 1 + 1 ≤ 64 by decide) (by rfl) (.inl (show 0 + 1 ≤ 1 by decide))]
    exact State.flag_setFld_b2n _ (f := fCXM_PORT_CTRL_ENABLE n) (by rfl) (show 0 < 64 by decide) _
  · exact State.flag_setFld_b2n _ (f := fCXM_PORT_CTRL_LAT_OPT n) (by rfl) (show 1 < 64 by decide) _

theorem State.state_cxlSet (s : State) (n : Nat) (v : BitVec 32) (k : Nat) :
    (s.cxlSet n v).fld (fCXM_PORT_STATUS_STATE k) = s.fld (fCXM_PORT_STATUS_STATE k) := by
  have hoff : rCXM_PORT_STATUS k ≠ rCXM_PORT_CTRL n := show 0x500104 + 32 * k ≠ 0x500100 + 32 * n by omega
  exact (State.fld_setFld_off _ (fCXM_PORT_CTRL_LAT_OPT n) (fCXM_PORT_STATUS_STATE k) _ hoff).trans
    (State.fld_setFld_off _ (fCXM_PORT_CTRL_ENABLE n) (fCXM_PORT_STATUS_STATE k) _ hoff)

theorem State.cxlCtrlWrite_of_open {s : State} {n : Nat} (hgate : s.gated (s.skuField 12 2) (8 + n) = false) (v : BitVec 32) :
    s.cxlCtrlWrite n v = if bitOf v.toNat 0 then
        (if s.fld (fCXM_PORT_STATUS_STATE n) = 0 ∨ s.fld (fCXM_PORT_STATUS_STATE n) = 4 then (s.cxlSet n v).setCxl n 1 else s.cxlSet n v)
      else (s.cxlSet n v).leaveCxl n 0 := by
  rw [State.cxlCtrlWrite, hgate]
  rfl

/-- The state of a port after a write of its enable bit. -/
def State.cxlNext (s : State) (n : Nat) (v : BitVec 32) : Nat :=
  if bitOf v.toNat 0 = false then 0
  else if s.fld (fCXM_PORT_STATUS_STATE n) = 0 ∨ s.fld (fCXM_PORT_STATUS_STATE n) = 4 then 1 else s.fld (fCXM_PORT_STATUS_STATE n)

/-- A write of a port's control register sets its two bits and moves its state; only a port that leaves ACTIVE does more. -/
theorem State.cxlCtrlWrite_leaves {s : State} {n : Nat} (hn : n < 2) (hgate : s.gated (s.skuField 12 2) (8 + n) = false) (v : BitVec 32) :
    ∃ t, s.cxlCtrlWrite n v = t ∧ t.flag (fCXM_PORT_CTRL_ENABLE n) = bitOf v.toNat 0 ∧
      t.flag (fCXM_PORT_CTRL_LAT_OPT n) = bitOf v.toNat 1 ∧ t.pavs = s.pavs ∧ t.fld (fCXM_PORT_STATUS_STATE n) = s.cxlNext n v ∧
      (bitOf v.toNat 0 = true ∨ s.fld (fCXM_PORT_STATUS_STATE n) ≠ 3 → t = { s with regs := t.regs }) := by
  refine ⟨_, rfl, ?_⟩
  rw [State.cxlCtrlWrite_of_open hgate]
  have hframe := s.cxlSet_frame n v
  have hstate := s.state_cxlSet n v n
  obtain ⟨hen, hlat⟩ := s.flags_cxlSet n v
  have hctrl : rCXM_PORT_CTRL n ≠ rCXM_PORT_STATUS n := show 0x500100 + 32 * n ≠ 0x500104 + 32 * n by omega
  have hset : ∀ st, ((s.cxlSet n v).setCxl n st).reg (rCXM_PORT_CTRL n) = (s.cxlSet n v).reg (rCXM_PORT_CTRL n) := fun st =>
    State.reg_setCxl _ n st (show 0x500100 + 32 * n < 0x800000 by omega) hctrl
  have hset_frame : ∀ st, (s.cxlSet n v).setCxl n st = { s with regs := ((s.cxlSet n v).setCxl n st).regs } := fun st =>
    ((s.cxlSet n v).setCxl_frame n st).trans (congrArg (fun t : State => { t with regs := ((s.cxlSet n v).setCxl n st).regs }) hframe)
  have hpavs : (s.cxlSet n v).pavs = s.pavs := (congrArg State.pavs hframe :)
  unfold State.cxlNext
  by_cases hb : bitOf v.toNat 0 = true
  · rw [if_pos hb, if_neg (show ¬ bitOf v.toNat 0 = false by simp [hb])]
    by_cases hst : s.fld (fCXM_PORT_STATUS_STATE n) = 0 ∨ s.fld (fCXM_PORT_STATUS_STATE n) = 4
    · rw [if_pos hst, if_pos hst]
      exact ⟨(State.flag_of_sameReg (hset 1)).trans hen, (State.flag_of_sameReg (hset 1)).trans hlat,
        (congrArg State.pavs (hset_frame 1) :), State.state_setCxl _ n 1 hn (by decide), fun _ => hset_frame 1⟩
    · rw [if_neg hst, if_neg hst]
      exact ⟨hen, hlat, hpavs, hstate, fun _ => hframe⟩
  · rw [if_neg hb, if_pos (show bitOf v.toNat 0 = false by simpa using hb)]
    by_cases hst : s.fld (fCXM_PORT_STATUS_STATE n) = 3
    · obtain ⟨hstate', -, hpavs', hreg, -⟩ := State.leaveCxl_leaves hn 0 (hstate.trans hst) (by decide)
      exact ⟨(State.flag_of_sameReg hreg).trans hen, (State.flag_of_sameReg hreg).trans hlat, hpavs'.trans hpavs,
        hstate', by simp [hb, hst]⟩
    · rw [State.leaveCxl_of_inactive 0 (by rwa [hstate])]
      exact ⟨(State.flag_of_sameReg (hset 0)).trans hen, (State.flag_of_sameReg (hset 0)).trans hlat,
        (congrArg State.pavs (hset_frame 0) :), State.state_setCxl _ n 0 hn (by decide), fun _ => hset_frame 0⟩

/-! ### The end of a port's training (R221) -/

/-- The port is ACTIVE with the capacity found. -/
def State.cxlFound (s : State) (n : Nat) (x : CxlX) : State :=
  (s.setFld (fCXM_PORT_STATUS_CAP n) (min (x.bytes / 0x10000000) 16384)).setCxl n 3

section

variable {s : State} {n : Fin 2} (h : s.fld (fCXM_PORT_STATUS_STATE n.val) = 1 ∨ s.fld (fCXM_PORT_STATUS_STATE n.val) = 2) (x : CxlX)
include h

theorem exec_cxlPortActive_found (ht : x.trained = true) (h3 : x.type3 = true) :
    exec (.cxlPortActive n x) s = .next ((s.cxlFound n.val x).event0 blkCXM 0x0203 n.val .ok) :=
  (if_neg (by omega)).trans (if_pos ⟨ht, h3⟩)

theorem exec_cxlPortActive_failed (hf : x.trained = false ∨ x.type3 = false) :
    exec (.cxlPortActive n x) s = .next (s.setCxl n.val 4) :=
  (if_neg (by omega)).trans (if_neg (by rcases hf with hf | hf <;> simp [hf]))

end

theorem State.status_cxlFound (s : State) {n : Nat} (hn : n < 2) (x : CxlX) :
    (s.cxlFound n x).fld (fCXM_PORT_STATUS_STATE n) = 3 ∧
      (s.cxlFound n x).fld (fCXM_PORT_STATUS_CAP n) = min (x.bytes / 0x10000000) 16384 := by
  refine ⟨State.state_setCxl _ n 3 hn (by decide), (State.cap_setCxl _ n 3 hn).trans ?_⟩
  exact (State.fld_setFld_same _ _ _ (show 16 + 15 ≤ 64 by decide)).trans
    (Nat.mod_eq_of_lt (lt_of_le_of_lt (Nat.min_le_right _ _) (show 16384 < 2 ^ 15 by decide)))

theorem State.wr_cxlFound (s : State) {n : Nat} (hn : n < 2) (x : CxlX) : (s.cxlFound n x).reg rLOG_WR = s.reg rLOG_WR :=
  (State.wr_setCxl _ n 3 hn).trans (State.reg_setFld_other s (fCXM_PORT_STATUS_CAP n) _ _ (show 0x1000000 ≠ 0x500104 + 32 * n by omega))

theorem State.tb_cxlFound (s : State) (n : Nat) (x : CxlX) : (s.cxlFound n x).sch.tb = s.sch.tb :=
  (congrArg (fun t : State => t.sch.tb) (State.setCxl_frame _ n 3) :)

/-- A port that becomes ACTIVE shows its capacity and has its entry. -/
theorem State.cxlFound_event (s : State) {n : Nat} (hn : n < 2) (x : CxlX) :
    let t := (s.cxlFound n x).event0 blkCXM 0x0203 n .ok
    t.fld (fCXM_PORT_STATUS_STATE n) = 3 ∧ t.fld (fCXM_PORT_STATUS_CAP n) = min (x.bytes / 0x10000000) 16384 ∧
      s.logged t 0x0203 blkCXM 0 .ok 0 0 n := by
  obtain ⟨hstate, hcap⟩ := s.status_cxlFound hn x
  obtain ⟨-, hevent⟩ := (s.cxlFound n x).eventLeaves_event blkCXM [0] { code := 0x0203, result := n, st := .ok, detail := 0 } 0
  have hstatus := hevent (rCXM_PORT_STATUS n) (show 0x500104 + 32 * n < 0x800000 by omega)
  exact ⟨(State.fld_of_sameReg hstatus).trans hstate, (State.fld_of_sameReg hstatus).trans hcap,
    State.logged_of_same (s.wr_cxlFound hn x) (s.tb_cxlFound n x) (State.logged_event0 _ _ _ _ _ _ (evSource_cxl hn))⟩

/-! ### The record of a port's device (R222) -/

theorem exec_cxlEventRecord_active {s : State} {n : Fin 2} (h : s.fld (fCXM_PORT_STATUS_STATE n.val) = 3) (b : List Byte) (e : Nat) :
    exec (.cxlEventRecord n b e) s = .next ((s.logWrite 0x0005 blkCXM noPart .ok 0 n.val (fieldAt b 0 8)).noteCe e) := if_pos h

/-- The record is logged, and its corrected errors are counted. -/
theorem State.cxlRecord_leaves (s : State) (n e x : Nat) :
    let t := (s.logWrite 0x0005 blkCXM noPart .ok 0 n x).noteCe e
    t = { s with regs := t.regs, log := t.log, ckp := t.ckp } ∧ t.ckp = { s.ckp with ceCount := s.ckp.ceCount + e } ∧
      s.logged t 0x0005 blkCXM noPart .ok 0 n x := by
  refine ⟨?_, ?_, s.logged_logWrite _ _ _ _ _ _ _⟩
  · exact (congrArg (fun t : State => t.noteCe e) (s.logWrite_frame _ _ _ _ _ _ _)).trans (by rw [State.logWrite_frame]; rfl)
  · rw [State.logWrite_frame]
    rfl

/-! ### Credits (R223) -/

/-- The sum of the others and of one is the sum of all with that one in place. -/
theorem sum_map_replace {α : Type} [DecidableEq α] (f : α → Nat) (p : α) (k : Nat) :
    ∀ {l : List α}, l.Nodup → p ∈ l →
      (l.map (fun q => if q = p then k else f q)).sum = ((l.filter (fun q => decide (q ≠ p))).map f).sum + k
  | [], _, h => by cases h
  | x :: l, hl, h => by
    obtain ⟨hx, hl⟩ := List.nodup_cons.mp hl
    by_cases hxp : x = p
    · subst hxp
      have hrest : ∀ q ∈ l, q ≠ x := fun q hq he => hx (he ▸ hq)
      have hmap : l.map (fun q => if q = x then k else f q) = l.map f := List.map_congr_left fun q hq => if_neg (hrest q hq)
      have hfilter : l.filter (fun q => decide (q ≠ x)) = l := List.filter_eq_self.mpr fun q hq => decide_eq_true (hrest q hq)
      rw [List.map_cons, if_pos rfl, hmap, List.sum_cons, List.filter_cons_of_neg (by simp), hfilter, Nat.add_comm]
    · have hp : p ∈ l := (List.mem_cons.mp h).resolve_left (Ne.symm hxp)
      have ih := sum_map_replace f p k hl hp
      simp [hxp, ih, Nat.add_assoc]

theorem sum_credits (f : Nat → Nat) (p : Fin 65) (k : Nat) :
    ((List.finRange 65).map (fun q => if q = p then k else f q.val)).sum =
      (((List.range 65).filter (fun q => decide (q ≠ p.val))).map f).sum + k := by
  rw [← sum_map_replace f p.val k List.nodup_range (List.mem_range.mpr p.isLt), ← List.map_coe_finRange_eq_range, List.map_map]
  exact congrArg List.sum (List.map_congr_left fun q _ => by simp [Fin.ext_iff])

section

variable (s : State) (p : Fin 65) {v : BitVec 32} (hv : v.toNat % 8192 ≤ 4096)
include hv

theorem exec_cxmCreditWrite : exec (.cxmCreditWrite p v) s = .next
    (if 8192 < ((List.finRange 65).map (fun q => if q = p then v.toNat % 8192 else s.fld (fCXM_CREDIT_CREDITS q.val))).sum
      then s.raise fCXM_ERR_CFG_DROP else s.setFld (fCXM_CREDIT_CREDITS p.val) (v.toNat % 8192)) := by
  have hbits : bitsOf v.toNat 0 13 = v.toNat % 8192 := by simp [bitsOf]
  rw [sum_credits (fun q => s.fld (fCXM_CREDIT_CREDITS q)) p]
  change Host.Outcome.next (s.cxmCreditWrite p.val v) = _
  unfold State.cxmCreditWrite
  dsimp only
  rw [hbits, if_neg (Nat.not_lt.mpr hv)]

/-- A credit write takes effect, or is dropped with a flag. -/
theorem cxmCreditWrite_leaves : ∃ t, exec (.cxmCreditWrite p v) s = .next t ∧ t = { s with regs := t.regs } ∧
    if 8192 < ((List.finRange 65).map (fun q => if q = p then v.toNat % 8192 else s.fld (fCXM_CREDIT_CREDITS q.val))).sum then
      t.flag fCXM_ERR_CFG_DROP = true ∧ s.sameRegsBut t [fCXM_ERR_CFG_DROP.off]
    else t.fld (fCXM_CREDIT_CREDITS p.val) = v.toNat % 8192 ∧ s.sameRegsBut t [(fCXM_CREDIT_CREDITS p.val).off] := by
  rw [exec_cxmCreditWrite s p hv]
  generalize (List.map (fun q => if q = p then v.toNat % 8192 else s.fld (fCXM_CREDIT_CREDITS q.val)) (List.finRange 65)).sum = total
  refine ⟨_, rfl, ?_⟩
  by_cases h : 8192 < total
  · rw [if_pos h, if_pos h]
    exact ⟨State.setFld_frame rfl _ _, State.flag_raise_same _ rfl (by decide),
      (State.sameRegsBut.refl s _).setFld (List.mem_singleton.mpr rfl) _⟩
  · rw [if_neg h, if_neg h]
    exact ⟨State.setFld_frame rfl _ _,
      (State.fld_setFld_same _ _ _ (show 0 + 13 ≤ 64 by decide)).trans (Nat.mod_eq_of_lt (show v.toNat % 8192 < 2 ^ 13 by omega)),
      (State.sameRegsBut.refl s _).setFld (List.mem_singleton.mpr rfl) _⟩

end

/-! ### Placement registers (R226) -/

section

variable (s : State) (p : Fin 65) (w : BitVec 64)

theorem State.memPtWrite_frame (len : Bool) : s.memPtWrite p len w = { s with regs := (s.memPtWrite p len w).regs } := by
  unfold State.memPtWrite
  repeat' split
  all_goals rfl

theorem State.memPtWrite_of_closed (len : Bool) (h : s.ptOpen p = false) : s.memPtWrite p len w = s.raise fMEM_ERR_CFG_DROP := if_pos h

theorem State.ptOpen_iff : s.ptOpen p = true ↔ (s.part p).st = .frozen ∨ (s.part p).st = .unassigned := by
  rw [State.ptOpen, Bool.or_eq_true, decide_eq_true_eq, decide_eq_true_eq, State.part]

variable {s p w}

theorem State.memPtWrite_base (h : s.ptOpen p = true) (hw : w.toNat % 64 = 0) :
    (s.memPtWrite p false w).fld (fMEM_PT_BASE_BASE p.val) = w.toNat ∧
      s.sameRegsBut (s.memPtWrite p false w) [(fMEM_PT_BASE_BASE p.val).off] := by
  have heq : s.memPtWrite p false w = s.setFld (fMEM_PT_BASE_BASE p.val) w.toNat := by
    rw [State.memPtWrite, h, if_neg (by decide), if_neg (by decide), if_pos hw]
  rw [heq]
  exact ⟨(State.fld_setFld_same _ _ _ (show 0 + 64 ≤ 64 by decide)).trans (Nat.mod_eq_of_lt w.isLt),
    (State.sameRegsBut.refl s _).setFld (List.mem_singleton.mpr rfl) _⟩

theorem State.memPtWrite_len (h : s.ptOpen p = true) (hw : w.toNat % 2 ^ 32 ≤ 2 ^ 27) :
    (s.memPtWrite p true w).fld (fMEM_PT_LEN_LEN p.val) = w.toNat % 2 ^ 32 ∧
      s.sameRegsBut (s.memPtWrite p true w) [(fMEM_PT_LEN_LEN p.val).off] := by
  have hbits : bitsOf w.toNat 0 32 = w.toNat % 2 ^ 32 := by simp [bitsOf]
  have heq : s.memPtWrite p true w = s.setFld (fMEM_PT_LEN_LEN p.val) (w.toNat % 2 ^ 32) := by
    rw [State.memPtWrite, h, if_neg (by decide), if_pos rfl, hbits, if_pos hw]
  rw [heq]
  exact ⟨(State.fld_setFld_same _ _ _ (show 0 + 32 ≤ 64 by decide)).trans (Nat.mod_mod _ _),
    (State.sameRegsBut.refl s _).setFld (List.mem_singleton.mpr rfl) _⟩

theorem State.memPtWrite_dropped (len : Bool) (h : (s.part p).st = .active ∨ (s.part p).st = .freezing ∨ (s.part p).st = .resetting) :
    (s.memPtWrite p len w).flag fMEM_ERR_CFG_DROP = true ∧ s.sameRegsBut (s.memPtWrite p len w) [fMEM_ERR_CFG_DROP.off] := by
  have hclosed : s.ptOpen p = false := Bool.eq_false_iff.mpr fun ho => by
    rcases (s.ptOpen_iff p).mp ho with ho | ho <;> simp [ho] at h
  rw [State.memPtWrite_of_closed s p w len hclosed]
  exact ⟨State.flag_raise_same _ rfl (by decide), (State.sameRegsBut.refl s _).setFld (List.mem_singleton.mpr rfl) _⟩

end

/-- Settles O31: each operation of the memory's control has its own equation, and what it leaves is read off it. The port that
leaves ACTIVE is the one with a tail: `State.CxlKept` says that the commands it ends reach neither the pavilions nor the ports'
registers, and `State.migOver_loseRegion` that the migration which reads it has ended before its event is posted. -/
theorem memoryControl : Obligations.MemoryControl := by
  unfold Obligations.MemoryControl
  intro s x y v w n p g d
  refine ⟨fun f u hf => ⟨fun hok hclam => ?_, fun hbad => ?_⟩, fun hk hsave hr => ?_, fun hk => exec_memTrainSave_unkeyed hk,
    fun hr => ?_, rfl, fun c hc hgate => ?_, fun hst => ?_, fun hst => ?_, fun hst b e => ?_, fun hv => cxmCreditWrite_leaves s p hv, ?_⟩
  · refine ⟨_, exec_gddr7TrainDone_ok hf hok hclam, State.trainShown_frame _ x _, State.sameRegsBut_trainShown _ x _, ?_⟩
    obtain ⟨hrate, hdev, hshell⟩ := State.config_trainShown { s with gmem := s.gmem.trained x } x (s.fastStart f x)
    obtain ⟨hready, hfast, hhot⟩ := State.status_trainShown { s with gmem := s.gmem.trained x } x (s.fastStart f x)
    exact ⟨hready, hrate, hdev, hshell, hfast, hhot, rfl, rfl, rfl⟩
  · exact ⟨_, exec_gddr7TrainDone_failed hf hbad, rfl, rfl⟩
  · exact ⟨_, exec_memTrainSave_keyed hk hsave hr, rfl, rfl,
      (State.fld_setFld_same s fMEM_TRAIN_CTRL_FORCE_FULL _ (by decide)).trans (Nat.mod_mod _ 2),
      (State.sameRegsBut.refl s _).setFld (f := fMEM_TRAIN_CTRL_FORCE_FULL) (by decide) (v.toNat % 2)⟩
  · exact ⟨_, exec_gddr7Refresh_ready hr g d, rfl, rfl,
      (State.sameRegsBut.refl s _).setFld (f := fMEM_STATUS_HOT) (by decide) _,
      (State.flag_setFld_bits _ _ (by decide) (by rfl) (by decide)).trans hr, s.hot_refreshed g d⟩
  · obtain ⟨t, ht, hleaves⟩ := State.cxlCtrlWrite_leaves n.isLt hgate v
    simp only [List.mem_cons, List.not_mem_nil, or_false] at hc
    rcases hc with rfl | rfl
    · exact ⟨t, congrArg Host.Outcome.next ht, hleaves⟩
    · exact ⟨t, congrArg Host.Outcome.next ht, hleaves⟩
  · by_cases hfound : y.trained = true ∧ y.type3 = true
    · obtain ⟨ht, h3⟩ := hfound
      exact ⟨_, exec_cxlPortActive_found hst y ht h3, fun _ _ => s.cxlFound_event n.isLt y, by simp [ht, h3]⟩
    · have hf : y.trained = false ∨ y.type3 = false := by
        rwa [← Bool.not_eq_true, ← Bool.not_eq_true, ← not_and_or]
      exact ⟨_, exec_cxlPortActive_failed hst y hf, fun ht h3 => absurd ⟨ht, h3⟩ hfound,
        fun _ => ⟨s.setCxl_frame n.val 4, s.state_setCxl n.val 4 n.isLt (by decide)⟩⟩
  · obtain ⟨hstate, hflag, hpavs, -, hcount⟩ := State.leaveCxl_leaves n.isLt 4 hst (by decide)
    refine ⟨_, if_pos hst, hstate, hflag, hpavs, State.logged_leaveCxl n.isLt 4 hst, hcount, ?_⟩
    intro id c m hc hd hop hm hsvc hmigs hqps hlate hsrc
    obtain ⟨hended, hnone, -⟩ := State.migOver_leaveCxl hc hd hop hm hsvc hmigs hqps hlate hsrc hst 4
    exact ⟨hended, hnone⟩
  · exact ⟨_, exec_cxlEventRecord_active hst b e, s.cxlRecord_leaves n.val e (fieldAt b 0 8)⟩
  · refine ⟨_, _, rfl, rfl, s.memPtWrite_frame p w false, s.memPtWrite_frame p w true, fun ho => ?_, fun hc z hz => ?_⟩
    · have hopen := (s.ptOpen_iff p).mpr ho
      exact ⟨State.memPtWrite_base hopen, State.memPtWrite_len hopen⟩
    · simp only [List.mem_cons, List.not_mem_nil, or_false] at hz
      rcases hz with rfl | rfl
      · exact State.memPtWrite_dropped false hc
      · exact State.memPtWrite_dropped true hc

end Sys2Proof.Machine
end

section
/-! SUPPORT. Plain memory, that of GDDR7 and CXL (R19, R216): which region holds an address, with what status an access is answered, what
a write there leaves. -/

namespace Sys2Proof.Machine

open Sys2Proof

/-- The `n` addresses from `a` are outside scratch and the log. -/
def plainRange (a n : Nat) : Prop := ∀ c, a ≤ c → c < a + n → c < 0x4000000000 ∨ 0x4010200000 ≤ c

/-! ### Regions and accesses -/

section

variable {s : State} {a n : Nat}

theorem State.regionAt_gddr (h : a < s.gddrBytes) : s.regionAt a = some (.gddr, 0, s.gddrBytes) := if_pos h

theorem State.region?_gddr (h : a < s.gddrBytes) (hn : a + n ≤ s.gddrBytes) : s.region? a n = some .gddr := by
  rw [State.region?, State.regionAt_gddr h]
  exact if_pos (by omega)

theorem State.region?_of_regionAt {r : Region} {b m : Nat} (h : s.regionAt a = some (r, b, m)) (hn : a + n ≤ b + m) :
    s.region? a n = some r := by
  rw [State.region?, h]
  exact if_pos hn

theorem State.accessSt_gddr (h : s.region? a n = some .gddr) : s.accessSt a n = if s.flag fMEM_STATUS_READY then .ok else .notReady := by
  rw [State.accessSt, h]

theorem State.accessSt_cxl {p : Nat} (h : s.region? a n = some (.cxl p)) :
    s.accessSt a n = if s.fld (fCXM_PORT_STATUS_STATE p) = 3 then .ok else .notReady := by
  rw [State.accessSt, h]

/-- The memory of GDDR7 and of the CXL ports is outside scratch and the log; there are two CXL ports. -/
theorem State.regionAt_plain {r : Region} {b m : Nat} (h : s.regionAt a = some (r, b, m)) (hr : r = .gddr ∨ ∃ p, r = .cxl p) :
    b ≤ a ∧ (b + m ≤ 0x4000000000 ∨ 0x4010200000 ≤ b) ∧ (r = .gddr → a < s.gddrBytes) ∧
      ∀ p, r = .cxl p → p < 2 ∧ s.gddrBytes ≤ a := by
  have hg := s.gddrBytes_le
  obtain ⟨hb, -⟩ := State.regionAt_cases h
  refine ⟨hb, ?_⟩
  unfold State.regionAt at h
  by_cases h1 : a < s.gddrBytes
  · rw [if_pos h1] at h
    obtain ⟨rfl, rfl, rfl⟩ := eq_of_some_region h
    exact ⟨.inl (by omega), fun _ => h1, nofun⟩
  rw [if_neg h1] at h
  by_cases h2 : a < 0x4000000000
  · exact absurd ((if_pos h2).symm.trans h) nofun
  rw [if_neg h2] at h
  by_cases h3 : a < 0x4010000000
  · rw [if_pos h3] at h
    dsimp only at h
    split at h
    · obtain ⟨rfl, -, -⟩ := eq_of_some_region h
      rcases hr with hr | ⟨p, hr⟩ <;> cases hr
    · cases h
  rw [if_neg h3] at h
  by_cases h4 : a < 0x4010200000
  · rw [if_pos h4] at h
    obtain ⟨rfl, -, -⟩ := eq_of_some_region h
    rcases hr with hr | ⟨p, hr⟩ <;> cases hr
  rw [if_neg h4] at h
  split_ifs at h
  all_goals
    obtain ⟨rfl, rfl, rfl⟩ := eq_of_some_region h
    exact ⟨.inr (by omega), nofun, fun p hp => by cases hp <;> omega⟩

theorem plainRange_of_regionAt {r : Region} {b m : Nat} (h : s.regionAt a = some (r, b, m)) (hr : r = .gddr ∨ ∃ p, r = .cxl p)
    (hn : a + n ≤ b + m) : plainRange a n := fun c hc hc' => by
  obtain ⟨hb, hfar, -, -⟩ := State.regionAt_plain h hr
  omega

theorem plainRange_of_region? {r : Region} (h : s.region? a n = some r) (hr : r = .gddr ∨ ∃ p, r = .cxl p) : plainRange a n := by
  obtain ⟨b, m, hat, hn⟩ := State.regionAt_of_region? h
  exact plainRange_of_regionAt hat hr hn

end

/-! ### Bytes -/

/-- A byte outside scratch and the log is what memory holds. -/
theorem State.byte_plain (s : State) {a : Nat} (h : a < 0x4000000000 ∨ 0x4010200000 ≤ a) : s.byte a = smGet memDefault s.mem a := by
  rw [State.byte, if_neg (by omega), if_neg (by omega)]

theorem State.bytes_of_mem {s t : State} {a n : Nat} (hmem : t.mem = s.mem) (hp : plainRange a n) : t.bytes a n = s.bytes a n := by
  rw [State.bytes_eq_map, State.bytes_eq_map]
  refine List.map_congr_left fun i hi => ?_
  have hi := List.mem_range.mp hi
  have hplain := hp (a + i) (by omega) (by omega)
  rw [State.byte_plain _ hplain, State.byte_plain _ hplain, hmem]

/-- A write outside scratch and the log changes memory alone. -/
theorem State.setBytes_plain {s : State} {a : Nat} {b : List Byte} (hp : plainRange a b.length) :
    s.setBytes a b = { s with mem := (s.setBytes a b).mem } := by
  induction b generalizing s a with
  | nil => rfl
  | cons x b ih =>
    have hx := hp a le_rfl (by simp)
    have hbyte : s.setByte a x = { s with mem := (s.setByte a x).mem } := by
      rw [State.setByte, if_neg (by omega), if_neg (by omega)]
    have hrest : plainRange (a + 1) b.length := fun c hc hc' => hp c (by omega) (by rw [List.length_cons]; omega)
    exact (ih hrest).trans (congrArg (fun t : State => { t with mem := (s.setBytes a (x :: b)).mem }) hbyte)

/-- A write outside scratch and the log writes its bytes and no others. -/
theorem State.wrote_plain {s u : State} {a : Nat} {b : List Byte} (hmem : u.mem = s.mem) (hscratch : u.scratch = s.scratch)
    (hp : plainRange a b.length) : s.wrote (u.setBytes a b) a b := by
  obtain ⟨hread, hother, hsp⟩ := State.wrote_setBytes (s := u) fun c hc hc' => .inl (hp c hc hc')
  have hnone : ∀ c, a ≤ c → c < a + b.length → u.scratchAt c = none := fun c hc hc' => if_neg (by have := hp c hc hc'; omega)
  refine ⟨hread, fun c hc => by rw [hother c hc, hmem], fun q k hk _ => ?_⟩
  rw [hsp q k hk fun c hc hc' => by rw [hnone c hc hc']; nofun, State.sbyte, State.sbyte, hscratch]

/-- A write on no link leaves nothing to send. -/
theorem State.land_of_unlinked {s : State} {a : Nat} {b : List Byte} (h : s.linkOf a b.length = none) (o : HeldFor) :
    s.land a b o = s.setBytes a b := by
  have hlink : (s.setBytes a b).linkOf a b.length = none := by
    rw [State.setBytes_frame]
    exact h
  rw [State.land, State.sendWr, hlink]

theorem State.linkOf_of_region? {s : State} {a n : Nat} {r : Region} (h : s.region? a n = some r) (hr : r = .gddr ∨ ∃ p, r = .cxl p) :
    s.linkOf a n = none := by
  rw [State.linkOf, h]
  rcases hr with rfl | ⟨p, rfl⟩ <;> rfl

/-- A write to plain memory that nothing holds is made at once. -/
theorem State.devWrite_plain {s : State} {a : Nat} {b : List Byte} {r : Region} (h : s.region? a b.length = some r)
    (hr : r = .gddr ∨ ∃ p, r = .cxl p) {sown : Bool} {o : HeldFor} (hheld : s.writeHeld a b.length o = false) :
    s.devWrite a b sown o = s.setBytes a b :=
  (State.devWrite_of_not_held hheld).trans (State.land_of_unlinked (State.linkOf_of_region? h hr) o)

end Sys2Proof.Machine
end

section
/-! PROOF. Requests to GDDR7 and CXL, and the patrol scrub (R216 to R219, R222, R223, R459), of the family 08_memory_and_context. -/

namespace Sys2Proof.Machine

open Sys2Proof

/-! ### What a request does -/

/-- The bytes that a request is about. -/
def reqSize (q : MemReq) : Nat := match q.wr with | some b => b.length | none => q.len

/-- A request is answered with a status and no data, and where sown work made it the epoch has a fault. -/
def State.reqFails (s : State) (q : MemReq) (st : Status) : State :=
  if q.sown then (s.emit (.memRsp st [])).fault 5 else s.emit (.memRsp st [])

/-- The repeats of a request after CRC failures are counted (R219). -/
def State.crcCounted (s : State) (q : MemReq) : State := s.count (fMEM_CRC_RETRY_COUNT (gddrGroup q.addr)) (min q.crcFails 4)

/-- A fifth CRC failure shows. -/
def State.crcFailed (s : State) (a : Nat) : State :=
  ((s.raise fMEM_ERR_CRC_FAIL).setFld fMEM_UE_ADDR_ADDR (a / 64 * 64)).logUe blkMEM (a / 64 * 64)

section

variable {s : State} {q : MemReq}

theorem State.serve_refused {st : Status} (h : s.accessSt q.addr (reqSize q) = st) (hne : st ≠ .ok) : s.serve q = s.reqFails q st := by
  unfold State.serve
  change (match s.accessSt q.addr (reqSize q) with | .ok => _ | st => _) = _
  rw [h]
  cases st
  case ok => exact absurd rfl hne
  all_goals rfl

variable (h : s.accessSt q.addr (reqSize q) = .ok)
include h

section

variable (hg : q.addr < s.gddrBytes)
include hg

theorem State.serve_bufUe (hb : q.bufUe = true) : s.serve q = ((s.crcCounted q).gddrUe q.addr).reqFails q .dataError := by
  unfold State.serve
  change (match s.accessSt q.addr (reqSize q) with | .ok => _ | st => _) = _
  rw [h]
  simp only [hb, hg, if_true]
  rfl

theorem State.serve_crc (hb : q.bufUe = false) (hc : 5 ≤ q.crcFails) :
    s.serve q = ((s.crcCounted q).crcFailed q.addr).reqFails q .dataError := by
  unfold State.serve
  change (match s.accessSt q.addr (reqSize q) with | .ok => _ | st => _) = _
  rw [h]
  simp only [hb, hg, hc, and_self, if_true, Bool.false_eq_true, if_false]
  rfl

/-- A write of whole lines reads nothing. -/
theorem State.serve_write {b : List Byte} (hb : q.bufUe = false) (hc : q.crcFails ≤ 4) (hw : q.wr = some b)
    (hlines : wholeLines q.addr b.length 64 = true) :
    s.serve q = if s.writeHeld q.addr b.length then (s.crcCounted q).devWrite q.addr b q.sown .rsp
      else ((s.crcCounted q).devWrite q.addr b q.sown).emit (.memRsp .ok []) := by
  have hsize : reqSize q = b.length := by rw [reqSize, hw]
  rw [hsize] at h
  unfold State.serve
  rw [hw]
  dsimp only
  rw [h]
  simp only [hb, hg, hlines, Nat.not_le.mpr (Nat.lt_succ_of_le hc), if_true, Bool.false_eq_true, if_false, and_false, reduceCtorEq,
    decide_false, Bool.not_true, Bool.or_self, false_and]
  rfl

end

/-- A read that nothing fails before its data meets what ECC finds. -/
theorem State.serve_read (hw : q.wr = none) (hb : q.bufUe = false) (hc : q.crcFails ≤ 4 ∨ s.gddrBytes ≤ q.addr) :
    let u := (if q.addr < s.gddrBytes then s.crcCounted q else s).eccAt q.addr q.ecc
    s.serve q = if q.ecc = .ue then u.reqFails q .dataError else u.emit (.memRsp .ok (u.bytes q.addr q.len)) := by
  have hsize : reqSize q = q.len := by rw [reqSize, hw]
  have hcrc : ¬ (q.addr < s.gddrBytes ∧ 5 ≤ q.crcFails) := by omega
  rw [hsize] at h
  unfold State.serve
  rw [hw]
  dsimp only
  rw [h]
  simp only [hb, hcrc, Bool.false_eq_true, if_false, decide_true, Bool.true_or, if_true, true_and]
  rfl

end


/-! ### Uncorrectable errors (R219, R459) -/

/-- From `s` to `t` an uncorrectable error of the line `l` of GDDR7 has been noted: its line is recorded, it has its entry, and what an
event may leave has been left. -/
structure State.ueNoted (s t : State) (l : Nat) : Prop where
  frame : t = { s with
    regs := t.regs, mem := t.mem, scratch := t.scratch, out := t.out, log := t.log, que := t.que, hif := t.hif }
  addr : t.fld fMEM_UE_ADDR_ADDR = l
  run : t.reg rSCH_STATE = s.reg rSCH_STATE
  entry : ∃ v : State, v.reg rLOG_WR = s.reg rLOG_WR ∧ v.sch.tb = s.sch.tb ∧
    (v.logWrite 0x0003 blkMEM noPart .dataError 0 blkMEM l).logAdds t 8

/-- The registers of an uncorrectable error: the group's count, the flag, the line. -/
def State.ueShownAt (s : State) (a : Nat) : State :=
  ((s.count (fMEM_UE_COUNT (gddrGroup a)) 1).raise fMEM_ERR_UE).setFld fMEM_UE_ADDR_ADDR (a / 64 * 64)

theorem gddrGroup_lt (a : Nat) : gddrGroup a < 12 := Nat.mod_lt _ (by decide)

section

variable (s : State) {a : Nat}

theorem State.ueShownAt_frame : s.ueShownAt a = { s with regs := (s.ueShownAt a).regs } :=
  State.setFld_frame (State.setFld_frame (State.setFld_frame rfl _ _) _ _) _ _

theorem State.reg_ueShownAt {o : Nat} (ho : o < 0x400000 ∨ 0x500000 ≤ o) : (s.ueShownAt a).reg o = s.reg o := by
  have hcount : o ≠ rMEM_UE (gddrGroup a) := by
    have := gddrGroup_lt a
    unfold rMEM_UE
    omega
  have herr : o ≠ rMEM_ERR := by unfold rMEM_ERR; omega
  have haddr : o ≠ rMEM_UE_ADDR := by unfold rMEM_UE_ADDR; omega
  exact ((State.reg_setFld_other _ fMEM_UE_ADDR_ADDR _ _ haddr).trans (State.reg_setFld_other _ fMEM_ERR_UE _ _ herr)).trans
    (State.reg_setFld_other s (fMEM_UE_COUNT (gddrGroup a)) _ _ hcount)

theorem State.addr_setFld {s : State} (ha : a < 2 ^ 64) : (s.setFld fMEM_UE_ADDR_ADDR (a / 64 * 64)).fld fMEM_UE_ADDR_ADDR = a / 64 * 64 :=
  (State.fld_setFld_same _ _ _ (by decide)).trans (Nat.mod_eq_of_lt (show a / 64 * 64 < 2 ^ 64 by omega))

theorem State.gddrUe_eq : s.gddrUe a = ((s.ueShownAt a).logUe blkMEM (a / 64 * 64)).event0 blkMEM 0x0202 (a / 64 * 64) .dataError := rfl

/-- An uncorrectable error of GDDR7 acts on the line where it is met. -/
theorem State.eccAt_gddr_ue (hg : a < s.gddrBytes) : s.eccAt a .ue = s.gddrUe a := by
  unfold State.eccAt
  rw [State.regionAt_gddr hg]

/-- An error is noted where registers show its line, its entry is written, and an event may follow. -/
theorem State.ueNoted_of_shown {s u t : State} {l : Nat} (hshown : u = { s with regs := u.regs }) (haddr : u.fld fMEM_UE_ADDR_ADDR = l)
    (hrun : u.reg rSCH_STATE = s.reg rSCH_STATE) (hwr : u.reg rLOG_WR = s.reg rLOG_WR) (hev : u.eventLeaves t)
    (hadds : (u.logUe blkMEM l).logAdds t 8) : s.ueNoted t l := by
  obtain ⟨hframe, hregs⟩ := hev
  refine ⟨?_, (State.fld_of_sameReg (hregs _ (by decide))).trans haddr, (hregs _ (by decide)).trans hrun, u, hwr, ?_, hadds⟩
  · exact hframe.trans (congrArg (fun x : State => { x with
      regs := t.regs, mem := t.mem, scratch := t.scratch, out := t.out, log := t.log, que := t.que, hif := t.hif }) hshown)
  · exact (congrArg (fun x : State => x.sch.tb) hshown :)

/-- An error that memory finds is flagged, and noted. -/
theorem State.gddrUe_leaves (ha : a < 2 ^ 64) : (s.gddrUe a).flag fMEM_ERR_UE = true ∧ s.ueNoted (s.gddrUe a) (a / 64 * 64) := by
  have hflag : (s.ueShownAt a).flag fMEM_ERR_UE = true :=
    (State.flag_setFld_off _ _ (by decide)).trans (State.flag_raise_same _ rfl (by decide))
  have hlog := (s.ueShownAt a).eventLeaves_logWrite 0x0003 blkMEM noPart .dataError 0 blkMEM (a / 64 * 64)
  have hevent := State.eventLeaves_event ((s.ueShownAt a).logUe blkMEM (a / 64 * 64)) blkMEM [0]
    { code := 0x0202, result := a / 64 * 64, st := .dataError, detail := 0 } 0
  have hsrc : ∀ n, evSource 0x0202 (a / 64 * 64) = some n → n < 256 := by
    rintro n ⟨⟩
    omega
  have hadds := State.logAdds.event ((s.ueShownAt a).logUe blkMEM (a / 64 * 64)) blkMEM
    { code := 0x0202, result := a / 64 * 64, st := .dataError, detail := 0 } 0 hsrc
  exact ⟨(State.flag_of_sameReg ((hlog.trans hevent).2 _ (by decide))).trans hflag,
    State.ueNoted_of_shown s.ueShownAt_frame (State.addr_setFld ha) (s.reg_ueShownAt (by decide)) (s.reg_ueShownAt (.inr (by decide)))
      (hlog.trans hevent) hadds⟩

/-- A fifth CRC failure is flagged, and noted. -/
theorem State.crcFailed_leaves (ha : a < 2 ^ 64) :
    (s.crcFailed a).flag fMEM_ERR_CRC_FAIL = true ∧ s.ueNoted (s.crcFailed a) (a / 64 * 64) := by
  have hreg : ∀ o, o ≠ rMEM_ERR → o ≠ rMEM_UE_ADDR →
      ((s.raise fMEM_ERR_CRC_FAIL).setFld fMEM_UE_ADDR_ADDR (a / 64 * 64)).reg o = s.reg o := fun o herr haddr =>
    (State.reg_setFld_other _ fMEM_UE_ADDR_ADDR _ _ haddr).trans (State.reg_setFld_other _ fMEM_ERR_CRC_FAIL _ _ herr)
  have hlog := ((s.raise fMEM_ERR_CRC_FAIL).setFld fMEM_UE_ADDR_ADDR (a / 64 * 64)).eventLeaves_logWrite 0x0003 blkMEM noPart .dataError 0
    blkMEM (a / 64 * 64)
  refine ⟨(State.flag_of_sameReg (hlog.2 _ (by decide))).trans ?_,
    State.ueNoted_of_shown (State.setFld_frame (State.setFld_frame rfl _ _) _ _) (State.addr_setFld ha) (hreg _ (by decide) (by decide))
      (hreg _ (by decide) (by decide)) hlog ((State.logAdds.refl _).mono (by decide))⟩
  exact (State.flag_setFld_off _ _ (by decide)).trans (State.flag_raise_same _ rfl (by decide))

theorem State.reg_crcCounted (q : MemReq) {o : Nat} (ho : o < 0x400100 ∨ 0x500000 ≤ o) : (s.crcCounted q).reg o = s.reg o := by
  refine State.reg_setFld_other s (fMEM_CRC_RETRY_COUNT (gddrGroup q.addr)) _ _ ?_
  have := gddrGroup_lt q.addr
  show o ≠ 0x400108 + 16 * gddrGroup q.addr
  omega

end

/-- An error noted after repeats were counted is noted. -/
theorem State.ueNoted.of_crcCounted {s t : State} {q : MemReq} {l : Nat} (h : (s.crcCounted q).ueNoted t l) : s.ueNoted t l := by
  obtain ⟨hframe, haddr, hrun, v, hwr, htb, hadds⟩ := h
  exact ⟨hframe, haddr, hrun.trans (s.reg_crcCounted q (by decide)), v, hwr.trans (s.reg_crcCounted q (by decide)), htb, hadds⟩

section

variable {s t : State} {l : Nat} (h : s.ueNoted t l) (q : MemReq)
include h

/-- What a request that failed for an uncorrectable error has left. -/
theorem State.ueNoted.reqFails :
    (t.reqFails q .dataError).pavs = s.pavs ∧ (t.reqFails q .dataError).rdm = s.rdm ∧
      (t.reqFails q .dataError).fld fMEM_UE_ADDR_ADDR = l ∧
      s.logged (t.reqFails q .dataError) 0x0003 blkMEM noPart .dataError 0 blkMEM l ∧
      (t.reqFails q .dataError).reg rMEM_ERR = t.reg rMEM_ERR ∧
      (q.sown = false → (t.reqFails q .dataError).out.head? = some (.memRsp .dataError []) ∧ (t.reqFails q .dataError).sch = s.sch) ∧
      (q.sown = true → s.running = true → s.sch.recorded = false → (t.reqFails q .dataError).fld fSCH_FAULT_CAUSE = 5 ∧
        (t.reqFails q .dataError).sch.trs = s.replayTime :: s.sch.trs) := by
  obtain ⟨hframe, haddr, hrun, v, hwr, htb, hadds⟩ := h
  have hpavs : t.pavs = s.pavs := (congrArg State.pavs hframe :)
  have hrdm : t.rdm = s.rdm := (congrArg State.rdm hframe :)
  have hsch : t.sch = s.sch := (congrArg State.sch hframe :)
  have hlogged : ∀ u : State, t.logAdds u 8 → s.logged u 0x0003 blkMEM noPart .dataError 0 blkMEM l := fun u hu =>
    State.logged_of_same hwr htb (State.logged_of_logAdds (by decide) (hadds.trans hu))
  unfold State.reqFails
  cases hsown : q.sown with
  | false =>
    exact ⟨hpavs, hrdm, haddr, hlogged _ ((State.logAdds.of_regs rfl rfl).mono (Nat.zero_le 8)), rfl, fun _ => ⟨rfl, hsch⟩, nofun⟩
  | true =>
    rw [if_pos rfl]
    have hemit : t.logAdds (t.emit (.memRsp .dataError [])) 0 := State.logAdds.of_regs rfl rfl
    obtain ⟨fframe, -, fregs⟩ := (t.emit (.memRsp .dataError [])).faultLeaves_fault 5
    refine ⟨(congrArg State.pavs fframe :).trans hpavs, (congrArg State.rdm fframe :).trans hrdm,
      (State.fld_of_sameReg (fregs _ (by decide) (by decide) (by decide))).trans haddr,
      hlogged _ (hemit.trans (State.logAdds.fault _ 5)), fregs _ (by decide) (by decide) (by decide), nofun, fun _ hr hrec => ?_⟩
    have hr' : (t.emit (.memRsp .dataError [])).running = true := (State.running_congr hrun).trans hr
    have hrec' : (t.emit (.memRsp .dataError [])).sch.recorded = false := (congrArg Sch.recorded hsch).trans hrec
    obtain ⟨-, -, htrs, hcause, -⟩ := State.fault_first hr' hrec' 5
    have htime : (t.emit (.memRsp .dataError [])).replayTime = s.replayTime := State.replayTime_congr (congrArg Sch.tb hsch)
    exact ⟨hcause, htrs.trans (by rw [htime]; exact congrArg (fun x : Sch => s.replayTime :: x.trs) hsch)⟩

end

/-! ### Requests to GDDR7 (R216, R218, R219) -/

section

variable {s : State} {q : MemReq} (hg : q.addr < s.gddrBytes)
include hg

theorem exec_memRequest : exec (.memRequest q) s = .next (s.serve q) := if_neg (Nat.not_le.mpr hg)

theorem addr_lt_of_gddr : q.addr < 2 ^ 64 := by
  have := s.gddrBytes_le
  omega

theorem State.accessSt_req (hin : q.addr + reqSize q ≤ s.gddrBytes) (hr : s.flag fMEM_STATUS_READY = true) :
    s.accessSt q.addr (reqSize q) = .ok := by
  rw [State.accessSt_gddr (State.region?_gddr hg hin), if_pos hr]

omit hg in
theorem State.gddrBytes_crcCounted : (s.crcCounted q).gddrBytes = s.gddrBytes := by
  rw [State.gddrBytes, State.gddrBytes, State.flag_of_sameReg (f := fMEM_CFG_CLAMSHELL) (s.reg_crcCounted q (by decide))]

/-- A read of GDDR7 that fails notes its error. -/
theorem State.serve_gddr_ue (hacc : s.accessSt q.addr (reqSize q) = .ok) (hw : q.wr = none)
    (hue : q.bufUe = true ∨ 5 ≤ q.crcFails ∨ q.ecc = .ue) :
    ∃ u, s.serve q = u.reqFails q .dataError ∧ s.ueNoted u (q.addr / 64 * 64) ∧
      (q.bufUe = false → 5 ≤ q.crcFails → u.flag fMEM_ERR_CRC_FAIL = true) ∧
      (q.bufUe = true ∨ q.crcFails ≤ 4 → u.flag fMEM_ERR_UE = true) := by
  have hlt := addr_lt_of_gddr hg
  obtain ⟨hflag, hnoted⟩ := (s.crcCounted q).gddrUe_leaves hlt
  cases hb : q.bufUe with
  | true => exact ⟨_, State.serve_bufUe hacc hg hb, hnoted.of_crcCounted, nofun, fun _ => hflag⟩
  | false =>
    by_cases hc : 5 ≤ q.crcFails
    · obtain ⟨hcrc, hnoted⟩ := (s.crcCounted q).crcFailed_leaves hlt
      exact ⟨_, State.serve_crc hacc hg hb hc, hnoted.of_crcCounted, fun _ _ => hcrc, fun h => absurd h (by simp; omega)⟩
    · have hecc : q.ecc = .ue := by simpa [hb, hc] using hue
      have hserve := State.serve_read hacc hw hb (.inl (by omega))
      dsimp only at hserve
      rw [if_pos hg, if_pos hecc, hecc, State.eccAt_gddr_ue _ (State.gddrBytes_crcCounted.symm ▸ hg)] at hserve
      exact ⟨_, hserve, hnoted.of_crcCounted, fun _ h => absurd h hc, fun _ => hflag⟩

end


section

variable {s : State} {q : MemReq} (hg : q.addr < s.gddrBytes) (hr : s.flag fMEM_STATUS_READY = true)
include hg hr

/-- A read of trained GDDR7 answers its bytes, and its repeats are counted. -/
theorem State.serve_gddr_read (hin : q.addr + q.len ≤ s.gddrBytes) (hw : q.wr = none) (hb : q.bufUe = false) (hc : q.crcFails ≤ 4)
    (hecc : q.ecc = .ok) : s.serve q = (s.crcCounted q).emit (.memRsp .ok (s.bytes q.addr q.len)) := by
  have hsize : reqSize q = q.len := by rw [reqSize, hw]
  have hplain := plainRange_of_regionAt (n := q.len) (State.regionAt_gddr hg) (.inl rfl) (by omega)
  have hserve := State.serve_read (State.accessSt_req hg (by rwa [hsize]) hr) hw hb (.inl hc)
  dsimp only at hserve
  rw [if_pos hg, hecc, if_neg (by decide)] at hserve
  exact hserve.trans (congrArg (fun b => (s.crcCounted q).emit (.memRsp .ok b)) (State.bytes_of_mem rfl hplain))

omit hg hr in
theorem State.crcCounted_leaves (hc : q.crcFails ≤ 4) : s.sameRegsBut (s.crcCounted q) [(fMEM_CRC_RETRY_COUNT (gddrGroup q.addr)).off] ∧
    (s.crcCounted q).fld (fMEM_CRC_RETRY_COUNT (gddrGroup q.addr)) =
      min (s.fld (fMEM_CRC_RETRY_COUNT (gddrGroup q.addr)) + q.crcFails) (2 ^ 32 - 1) := by
  refine ⟨(State.sameRegsBut.refl s _).setFld (List.mem_singleton.mpr rfl) _, ?_⟩
  rw [State.crcCounted, State.fld_count_same _ _ _ (show 0 + 32 ≤ 64 by decide), Nat.min_eq_left hc]
  rfl

/-- A write of whole lines is made and answered, or it waits and is answered when it is made (R256). -/
theorem State.serve_gddr_write {b : List Byte} (hw : q.wr = some b) (hin : q.addr + b.length ≤ s.gddrBytes) (hb : q.bufUe = false)
    (hc : q.crcFails ≤ 4) (ha : q.addr % 64 = 0) (hlen : b.length % 64 = 0) :
    (s.writeHeld q.addr b.length = false → s.serve q = ((s.crcCounted q).setBytes q.addr b).emit (.memRsp .ok [])) ∧
      (s.writeHeld q.addr b.length = true → s.serve q = (s.crcCounted q).devWrite q.addr b q.sown .rsp) := by
  have hsize : reqSize q = b.length := by rw [reqSize, hw]
  have hserve := State.serve_write (State.accessSt_req hg (by rwa [hsize]) hr) hg hb hc hw (by simp [wholeLines, ha, hlen])
  refine ⟨fun hh => ?_, fun hh => hserve.trans (if_pos hh)⟩
  have hregion : (s.crcCounted q).region? q.addr b.length = some .gddr :=
    State.region?_gddr (by rwa [State.gddrBytes_crcCounted]) (by rwa [State.gddrBytes_crcCounted])
  rw [hserve, if_neg (by simp [hh]), State.devWrite_plain hregion (.inl rfl) hh]

end

/-- A write of a request that is held waits behind those held before, and nothing is sent. -/
theorem State.devWrite_req_held {s : State} {q : MemReq} {b : List Byte} (h : s.writeHeld q.addr b.length = true) :
    let t := (s.crcCounted q).devWrite q.addr b q.sown .rsp
    t.mem = s.mem ∧ t.scratch = s.scratch ∧ t.out = s.out ∧
      t.ckp.held = s.ckp.held ++ [{ addr := q.addr, data := b, sown := q.sown, owner := .rsp }] := by
  obtain ⟨hframe, hheld⟩ := State.devWrite_of_held (s := s.crcCounted q) (sown := q.sown) (o := .rsp) h
  exact ⟨(congrArg State.mem hframe :), (congrArg State.scratch hframe :), (congrArg State.out hframe :), hheld⟩

/-! ### The limit of a partition's CXL requests (R223) -/

theorem State.cxlOut_length (s : State) (p : Fin 65) :
    (s.cxlOut p).length = (s.gmem.cxl.filter (fun e => e.1 = p.val && s.now < e.2)).length := by
  rw [State.cxlOut, (sortBy_perm _ _).length_eq, List.length_map]

/-- Of a list in order, no more elements are beyond the one at `i` than come behind it. -/
theorem length_filter_lt_of_pairwise {l : List Nat} (h : l.Pairwise (· ≤ ·)) {i n : Nat} (hi : i < l.length) (hn : l[i] ≤ n) :
    (l.filter (fun x => decide (n < x))).length ≤ l.length - (i + 1) := by
  have htake : (l.take (i + 1)).filter (fun x => decide (n < x)) = [] := List.filter_eq_nil_iff.mpr fun x hx => by
    obtain ⟨j, hj, rfl⟩ := List.getElem_of_mem hx
    rw [List.length_take] at hj
    rw [List.getElem_take]
    have hle : l[j] ≤ l[i] := by
      rcases Nat.lt_or_ge j i with hji | hji
      · exact List.pairwise_iff_getElem.mp h j i (by omega) hi hji
      · obtain rfl : j = i := by omega
        exact le_rfl
    simp only [decide_eq_true_eq]
    omega
  rw [← List.take_append_drop (i + 1) l, List.filter_append, htake, List.nil_append, List.take_append_drop]
  exact (List.length_filter_le _ _).trans (List.length_drop).le

/-- The requests of `p` that are still outstanding at the later time `n`. -/
theorem State.cxlOut_after (s : State) (p : Fin 65) {n : Nat} (hn : s.now ≤ n) :
    (s.gmem.cxl.filter (fun e => e.1 = p.val && n < e.2)).length = ((s.cxlOut p).filter (fun x => decide (n < x))).length := by
  rw [State.cxlOut, ((sortBy_perm _ _).filter _).length_eq, List.filter_map, List.length_map, List.filter_filter]
  congr 1
  refine List.filter_congr fun e _ => ?_
  by_cases he : n < e.2
  · have hnow : s.now < e.2 := by omega
    simp [he, hnow]
  · simp [he]

section

variable (s : State) (p : Fin 65) (a n k : Nat)

/-- The time at which command work of a partition may issue its requests. -/
def State.cxlTime (want : Nat) : Nat :=
  if (s.cxlOut p).length + want ≤ s.fld (fCXM_CREDIT_CREDITS p.val) then s.now
  else max s.now ((s.cxlOut p).getD ((s.cxlOut p).length + want - s.fld (fCXM_CREDIT_CREDITS p.val) - 1) s.now)

/-- At that time there is room for them. -/
theorem State.room_cxlTime {want : Nat} (hw : want ≤ s.fld (fCXM_CREDIT_CREDITS p.val)) :
    (s.gmem.cxl.filter (fun e => e.1 = p.val && s.cxlTime p want < e.2)).length + want ≤ s.fld (fCXM_CREDIT_CREDITS p.val) := by
  unfold State.cxlTime
  split
  case isTrue h =>
    rw [← State.cxlOut_length]
    exact h
  case isFalse h =>
    set i := (s.cxlOut p).length + want - s.fld (fCXM_CREDIT_CREDITS p.val) - 1 with hi
    have hlt : i < (s.cxlOut p).length := by omega
    have horder : (s.cxlOut p).Pairwise (· ≤ ·) := pairwise_sortBy id _
    have hget : (s.cxlOut p)[i] ≤ max s.now ((s.cxlOut p).getD i s.now) := by
      rw [List.getD_eq_getElem _ _ hlt]
      exact le_max_right _ _
    have hcount := length_filter_lt_of_pairwise horder hlt hget
    rw [State.cxlOut_after s p (le_max_left _ _)]
    omega

/-- The requests of `n` bytes at `a`, no more than the limit. -/
def State.cxlWant : Nat := min (s.fld (fCXM_CREDIT_CREDITS p.val)) ((a + max n 1 - 1) / 64 - a / 64 + 1)

theorem State.cxlIssue_leaves : ∃ w, s.cxlIssue p a n k = w ∧ w.now = s.cxlTime p (s.cxlWant p a n) ∧
    w = { s with now := w.now, sch := { s.sch with tb := w.sch.tb, hold := w.sch.hold }, gmem := { s.gmem with cxl := w.gmem.cxl } } ∧
    w.gmem.cxl = s.gmem.cxl.filter (fun e => decide (w.now < e.2)) ++ List.replicate (s.cxlWant p a n) (p.val, w.now + k) := by
  refine ⟨_, rfl, ?_⟩
  unfold State.cxlIssue State.cxlTime State.cxlWant
  dsimp only
  split
  case isTrue => exact ⟨rfl, rfl, rfl⟩
  case isFalse =>
    refine ⟨?_, rfl, rfl⟩
    show s.now + (_ - s.now) = _
    omega

/-- Command work never has more requests outstanding than its partition's limit. -/
theorem State.cxlOut_cxlIssue : ((s.cxlIssue p a n k).cxlOut p).length ≤ s.fld (fCXM_CREDIT_CREDITS p.val) := by
  obtain ⟨w, hw, hnow, -, hcxl⟩ := s.cxlIssue_leaves p a n k
  have hroom := s.room_cxlTime p (want := s.cxlWant p a n) (Nat.min_le_left _ _)
  rw [hw, State.cxlOut_length, hcxl, hnow, List.filter_append, List.length_append, List.filter_filter]
  have hnew := List.length_filter_le (fun e : Nat × Nat => e.1 = p.val && s.cxlTime p (s.cxlWant p a n) < e.2)
    (List.replicate (s.cxlWant p a n) (p.val, s.cxlTime p (s.cxlWant p a n) + k))
  rw [List.length_replicate] at hnew
  simp only [Bool.and_assoc, Bool.and_self]
  omega

end


/-! ### Requests to CXL (R222, R223) -/

/-- Poison that a read of CXL memory meets is counted, flagged and logged. -/
def State.poisoned (s : State) (n a : Nat) : State :=
  ((s.count (fCXM_POISON_COUNT n) 1).raise fCXM_ERR_POISON).logUe blkCXM (a / 64 * 64)

theorem State.poisoned_leaves (s : State) {n : Nat} (hn : n < 2) (a : Nat) :
    s.poisoned n a = { s with regs := (s.poisoned n a).regs, log := (s.poisoned n a).log } ∧ (s.poisoned n a).flag fCXM_ERR_POISON = true ∧
      (s.poisoned n a).fld (fCXM_POISON_COUNT n) = min (s.fld (fCXM_POISON_COUNT n) + 1) (2 ^ 32 - 1) := by
  obtain ⟨-, hregs⟩ := ((s.count (fCXM_POISON_COUNT n) 1).raise fCXM_ERR_POISON).eventLeaves_logWrite 0x0003 blkCXM noPart
    .dataError 0 blkCXM (a / 64 * 64)
  have hoff : rCXM_POISON n ≠ rCXM_ERR := show 0x500108 + 32 * n ≠ 0x500000 by omega
  have hflag : ((s.count (fCXM_POISON_COUNT n) 1).raise fCXM_ERR_POISON).flag fCXM_ERR_POISON = true :=
    State.flag_raise_same _ rfl (by decide)
  have hcount : ((s.count (fCXM_POISON_COUNT n) 1).raise fCXM_ERR_POISON).fld (fCXM_POISON_COUNT n) =
      min (s.fld (fCXM_POISON_COUNT n) + 1) (2 ^ 32 - 1) :=
    (State.fld_setFld_off _ fCXM_ERR_POISON (fCXM_POISON_COUNT n) _ hoff).trans
      (State.fld_count_same s (fCXM_POISON_COUNT n) 1 (show 0 + 32 ≤ 64 by decide))
  refine ⟨?_, (State.flag_of_sameReg (hregs _ (by decide))).trans hflag,
    (State.fld_of_sameReg (hregs _ (show 0x500108 + 32 * n < 0x800000 by omega))).trans hcount⟩
  exact State.logWrite_frame_of (State.setFld_frame (State.setFld_frame rfl _ _) _ _) _ _ _ _ _ _ _

section

variable {s : State} {q : MemReq} {n b m : Nat} (h : s.regionAt q.addr = some (.cxl n, b, m)) (hin : q.addr + q.len ≤ b + m)
  (hw : q.wr = none) (hb : q.bufUe = false) (hsown : q.sown = false)
include h hin hw

theorem State.accessSt_cxlReq : s.accessSt q.addr (reqSize q) = if s.fld (fCXM_PORT_STATUS_STATE n) = 3 then .ok else .notReady := by
  have hsize : reqSize q = q.len := by rw [reqSize, hw]
  rw [hsize]
  exact State.accessSt_cxl (State.region?_of_regionAt h hin)

include hsown

theorem State.serve_cxl_inactive (hst : s.fld (fCXM_PORT_STATUS_STATE n) ≠ 3) : s.serve q = s.emit (.memRsp .notReady []) := by
  rw [State.serve_refused ((State.accessSt_cxlReq h hin hw).trans (if_neg hst)) (by decide), State.reqFails, hsown]
  rfl

include hb

theorem State.serve_cxl_active (hst : s.fld (fCXM_PORT_STATUS_STATE n) = 3) :
    s.serve q = if q.ecc = .ue then (s.poisoned n q.addr).emit (.memRsp .dataError [])
      else s.emit (.memRsp .ok (s.bytes q.addr q.len)) := by
  obtain ⟨-, -, -, hcxl⟩ := State.regionAt_plain h (.inr ⟨n, rfl⟩)
  obtain ⟨hn, hge⟩ := hcxl n rfl
  have hserve := State.serve_read ((State.accessSt_cxlReq h hin hw).trans (if_pos hst)) hw hb (.inr hge)
  dsimp only at hserve
  rw [if_neg (Nat.not_lt.mpr hge)] at hserve
  rw [hserve]
  unfold State.eccAt
  rw [h]
  cases q.ecc with
  | ok => rfl
  | ce => rfl
  | ue =>
    rw [if_pos rfl, if_pos rfl, State.reqFails, hsown]
    rfl

/-- What a read of CXL memory answers and leaves, whatever its port and its data are. -/
theorem State.serve_cxl_leaves : s.serve q = { s with regs := (s.serve q).regs, log := (s.serve q).log, out := (s.serve q).out } ∧
    (s.fld (fCXM_PORT_STATUS_STATE n) = 3 → q.ecc = .ok →
      (s.serve q).out = .memRsp .ok (s.bytes q.addr q.len) :: s.out ∧ (s.serve q).regs = s.regs ∧ (s.serve q).log = s.log) ∧
    (s.fld (fCXM_PORT_STATUS_STATE n) = 3 → q.ecc = .ue → (s.serve q).out = .memRsp .dataError [] :: s.out ∧
      (s.serve q).flag fCXM_ERR_POISON = true ∧
      (s.serve q).fld (fCXM_POISON_COUNT n) = min (s.fld (fCXM_POISON_COUNT n) + 1) (2 ^ 32 - 1)) ∧
    (s.fld (fCXM_PORT_STATUS_STATE n) ≠ 3 →
      (s.serve q).out = .memRsp .notReady [] :: s.out ∧ (s.serve q).regs = s.regs ∧ (s.serve q).log = s.log) := by
  by_cases hst : s.fld (fCXM_PORT_STATUS_STATE n) = 3
  · have hserve := State.serve_cxl_active h hin hw hb hsown hst
    by_cases hue : q.ecc = .ue
    · obtain ⟨-, -, -, hcxl⟩ := State.regionAt_plain h (.inr ⟨n, rfl⟩)
      obtain ⟨hframe, hflag, hcount⟩ := s.poisoned_leaves (hcxl n rfl).1 q.addr
      have hout : (s.poisoned n q.addr).out = s.out := (congrArg State.out hframe :)
      rw [if_pos hue] at hserve
      rw [hserve]
      refine ⟨?_, fun _ hok => absurd (hue.symm.trans hok) (by decide), fun _ _ => ⟨?_, hflag, hcount⟩, fun hne => absurd hst hne⟩
      · exact congrArg (fun t : State => { t with out := .memRsp .dataError [] :: (s.poisoned n q.addr).out }) hframe
      · exact congrArg (Out.memRsp .dataError [] :: ·) hout
    · rw [if_neg hue] at hserve
      rw [hserve]
      exact ⟨rfl, fun _ _ => ⟨rfl, rfl, rfl⟩, fun _ h => absurd h hue, fun hne => absurd hst hne⟩
  · rw [State.serve_cxl_inactive h hin hw hsown hst]
    exact ⟨rfl, fun h3 => absurd h3 hst, fun h3 => absurd h3 hst, fun _ => ⟨rfl, rfl, rfl⟩⟩

end

section

variable {s : State} {q : MemReq} {n b m : Nat} (h : s.regionAt q.addr = some (.cxl n, b, m)) (hsown : q.sown = false)
include h

theorem exec_cxlRequest_none (hp : q.part = none) : exec (.cxlRequest q) s = .next (s.serve q) := by
  show execCxlRequest q s = _
  unfold execCxlRequest
  rw [h, hp]

include hsown

theorem exec_cxlRequest_noCredit {p : Fin 65} (hp : q.part = some p) (hc : s.fld (fCXM_CREDIT_CREDITS p.val) = 0) :
    exec (.cxlRequest q) s = .next (s.emit (.memRsp .invalidState [])) := by
  show execCxlRequest q s = _
  unfold execCxlRequest
  rw [h, hp]
  exact if_pos ⟨hsown, hc⟩

theorem exec_cxlRequest_some {p : Fin 65} (hp : q.part = some p) (hc : s.fld (fCXM_CREDIT_CREDITS p.val) ≠ 0) :
    exec (.cxlRequest q) s = .next ((s.cxlIssue p q.addr (reqSize q) q.ticks).serve q) := by
  show execCxlRequest q s = _
  unfold execCxlRequest
  rw [h, hp]
  exact (if_neg fun hcon => hc hcon.2).trans (if_neg (by simp [hsown]))

end

/-- From `s` to `w` time may have passed, and the requests that a partition has outstanding may be others. -/
def State.cxlWaited (s w : State) : Prop :=
  w = { s with now := w.now, sch := { s.sch with tb := w.sch.tb, hold := w.sch.hold }, gmem := { s.gmem with cxl := w.gmem.cxl } }

/-- Command work with credits is served in a state in which it has issued its requests. -/
theorem exec_cxlRequest_served {s : State} {q : MemReq} {n b m : Nat} (h : s.regionAt q.addr = some (.cxl n, b, m)) (hsown : q.sown = false)
    (hp : q.part = none ∨ ∃ p, q.part = some p ∧ s.fld (fCXM_CREDIT_CREDITS p.val) ≠ 0) :
    ∃ w, exec (.cxlRequest q) s = .next (w.serve q) ∧ s.cxlWaited w ∧
      (∀ p, q.part = some p → (w.cxlOut p).length ≤ s.fld (fCXM_CREDIT_CREDITS p.val)) ∧ (q.part = none → w.now = s.now) := by
  rcases hp with hp | ⟨p, hp, hc⟩
  · exact ⟨s, exec_cxlRequest_none h hp, rfl, fun p hp' => absurd (hp.symm.trans hp') nofun, fun _ => rfl⟩
  · obtain ⟨w, rfl, -, hframe, -⟩ := s.cxlIssue_leaves p q.addr (reqSize q) q.ticks
    refine ⟨_, exec_cxlRequest_some h hsown hp hc, hframe, fun p' hp' => ?_, fun hp' => absurd (hp.symm.trans hp') nofun⟩
    obtain rfl : p = p' := Option.some.inj (hp.symm.trans hp')
    exact s.cxlOut_cxlIssue p q.addr (reqSize q) q.ticks

/-! ### The patrol scrub (R217) -/

/-- A corrected error of GDDR7 shows. -/
def State.gddrCe (s : State) (a : Nat) : State := ((s.count (fMEM_CE_COUNT (gddrGroup a)) 1).raise fMEM_ERR_CE).noteCe 1

section

variable {s : State} {a : BitVec 64} (hg : a.toNat < s.gddrBytes) (hr : s.flag fMEM_STATUS_READY = true)
include hg hr

theorem exec_patrolScrub (o : EccOutcome) : exec (.patrolScrub a o) s = .next (s.eccAt a.toNat o) := if_pos ⟨hg, hr⟩

theorem exec_patrolScrub_ce : exec (.patrolScrub a .ce) s = .next (s.gddrCe a.toNat) := by
  rw [exec_patrolScrub hg hr]
  unfold State.eccAt
  rw [State.regionAt_gddr hg]
  rfl

theorem exec_patrolScrub_ue : exec (.patrolScrub a .ue) s = .next (s.gddrUe a.toNat) := by
  rw [exec_patrolScrub hg hr, State.eccAt_gddr_ue s hg]

end

theorem State.reg_noteCe (s : State) (n o : Nat) : (s.noteCe n).reg o = s.reg o := rfl

theorem State.gddrCe_leaves (s : State) (a : Nat) : s.gddrCe a = { s with regs := (s.gddrCe a).regs, ckp := (s.gddrCe a).ckp } ∧
    (s.gddrCe a).flag fMEM_ERR_CE = true ∧
    (s.gddrCe a).fld (fMEM_CE_COUNT (gddrGroup a)) = min (s.fld (fMEM_CE_COUNT (gddrGroup a)) + 1) (2 ^ 32 - 1) := by
  have hoff : (fMEM_CE_COUNT (gddrGroup a)).off ≠ fMEM_ERR_CE.off := show 0x400100 + 16 * gddrGroup a ≠ 0x40000C by omega
  refine ⟨rfl, (State.flag_of_sameReg (State.reg_noteCe _ 1 _)).trans (State.flag_raise_same _ (by rfl) (by decide)),
    (State.fld_of_sameReg (State.reg_noteCe _ 1 _)).trans ((State.fld_setFld_off _ _ _ _ hoff).trans ?_)⟩
  exact State.fld_count_same _ _ _ (show 0 + 32 ≤ 64 by decide)

/-- Settles O30: `State.serve` has an equation for each way a request can go; `State.ueNoted` is what every uncorrectable error
leaves, with the log's next entry; and `State.room_cxlTime` counts the requests that are still outstanding when command work may issue its
own. -/
theorem memoryRequests : Obligations.MemoryRequests := by
  unfold Obligations.MemoryRequests
  intro s q
  refine ⟨fun hg hin hr hw hb hc hecc => ?_, fun b hw hg hin hr ha hlen hc => ?_, fun hg hin hr hw hue => ?_,
    fun hg hin hr hw hsown => ?_,
    fun n b m h hin hw _ => ⟨fun p hp hsown hc => exec_cxlRequest_noCredit h hsown hp hc, fun hp hsown hb => ?_⟩, fun a hg hr => ?_⟩
  · refine ⟨_, (exec_memRequest hg).trans (congrArg Host.Outcome.next (State.serve_gddr_read hg hr hin hw hb hc hecc)), rfl, ?_⟩
    exact State.crcCounted_leaves hc
  · have hsize : reqSize q = b.length := by rw [reqSize, hw]
    have hacc := State.accessSt_req hg (by rwa [hsize]) hr
    refine ⟨_, exec_memRequest hg, fun hb hh => ?_, fun hb hh => ?_, fun hb hsown => ?_⟩
    · rw [(State.serve_gddr_write hg hr hw hin hb hc ha hlen).1 hh]
      have hplain := plainRange_of_regionAt (n := b.length) (State.regionAt_gddr hg) (.inl rfl) (by omega)
      have hset := State.setBytes_plain (s := s.crcCounted q) hplain
      have hregs : ((s.crcCounted q).setBytes q.addr b).regs = (s.crcCounted q).regs := (congrArg State.regs hset :)
      have hframe : (s.crcCounted q).setBytes q.addr b = { s with
          mem := ((s.crcCounted q).setBytes q.addr b).mem, regs := ((s.crcCounted q).setBytes q.addr b).regs } :=
        hset.trans (by rw [hregs]; rfl)
      exact ⟨congrArg (fun t : State => t.emit (.memRsp .ok [])) hframe,
        State.wrote_of_frame (State.wrote_plain (u := s.crcCounted q) rfl rfl hplain) rfl⟩
    · rw [(State.serve_gddr_write hg hr hw hin hb hc ha hlen).2 hh]
      exact State.devWrite_req_held hh
    · obtain ⟨hflag, hnoted⟩ := (s.crcCounted q).gddrUe_leaves (addr_lt_of_gddr hg)
      obtain ⟨hpavs, -, haddr, -, herr, hown, -⟩ := hnoted.of_crcCounted.reqFails q
      rw [State.serve_bufUe hacc hg hb]
      exact ⟨hpavs, haddr, (State.flag_of_sameReg herr).trans hflag, (hown hsown).1⟩
  · have hsize : reqSize q = q.len := by rw [reqSize, hw]
    obtain ⟨u, hserve, hnoted, hcrc, hflag⟩ := State.serve_gddr_ue hg (State.accessSt_req hg (by rwa [hsize]) hr) hw hue
    obtain ⟨hpavs, hrdm, haddr, hlogged, herr, hown, hsown⟩ := hnoted.reqFails q
    refine ⟨_, (exec_memRequest hg).trans (congrArg Host.Outcome.next hserve), hpavs, hrdm, haddr, hlogged, fun hb hc => ?_, fun hc => ?_,
      hown, hsown⟩
    · exact (State.flag_of_sameReg herr).trans (hcrc hb hc)
    · exact (State.flag_of_sameReg herr).trans (hflag hc)
  · have hsize : reqSize q = q.len := by rw [reqSize, hw]
    have hacc : s.accessSt q.addr (reqSize q) = .notReady := by
      rw [hsize, State.accessSt_gddr (State.region?_gddr hg hin), hr]
      rfl
    rw [exec_memRequest hg, State.serve_refused hacc (by decide), State.reqFails, hsown]
    rfl
  · obtain ⟨w, hexec, hwait, hcredits, hnow⟩ := exec_cxlRequest_served h hsown hp
    obtain ⟨hserve, hok, hue, hnot⟩ := State.serve_cxl_leaves (s := w) (by rw [hwait]; exact h) hin hw hb hsown
    have hfld : ∀ f, w.fld f = s.fld f := State.fld_congr (congrArg State.regs hwait :)
    have hregs : w.regs = s.regs := (congrArg State.regs hwait :)
    have hlog : w.log = s.log := (congrArg State.log hwait :)
    have hout : w.out = s.out := (congrArg State.out hwait :)
    have hbytes := State.bytes_of_mem (s := s) (t := w) (congrArg State.mem hwait :) (plainRange_of_regionAt h (.inr ⟨n, rfl⟩) hin)
    generalize w.serve q = u at *
    have hunow : u.now = w.now := (congrArg State.now hserve :)
    have husch : u.sch = w.sch := (congrArg State.sch hserve :)
    have hugmem : u.gmem = w.gmem := (congrArg State.gmem hserve :)
    have huout : ∀ p, u.cxlOut p = w.cxlOut p := fun p => by rw [State.cxlOut, State.cxlOut, hunow, hugmem]
    rw [hfld] at hok hue hnot
    rw [hbytes, hout, hregs, hlog] at hok
    rw [hfld, hout] at hue
    rw [hout, hregs, hlog] at hnot
    refine ⟨u, hexec, ?_, fun p hp => ?_, fun hp => hunow.trans (hnow hp), hok, hue, hnot⟩
    · rw [hunow, husch, hugmem]
      exact hserve.trans (congrArg (fun x : State => { x with regs := u.regs, log := u.log, out := u.out }) hwait)
    · rw [huout]
      exact hcredits p hp
  · obtain ⟨hflag, hnoted⟩ := s.gddrUe_leaves (a := a.toNat) a.isLt
    exact ⟨exec_patrolScrub hg hr .ok, ⟨_, exec_patrolScrub_ce hg hr, s.gddrCe_leaves a.toNat⟩,
      _, exec_patrolScrub_ue hg hr, hflag, hnoted.addr, (congrArg State.sch hnoted.frame :)⟩

end Sys2Proof.Machine
end

section
/-! SUPPORT. Fetched commands and numbers in memory, for the migrations and the granary (R227 to R241). -/

namespace Sys2Proof.Machine

open Sys2Proof

/-! ### A command that its row acts on -/

section

variable {s : State} {id op : Nat} {c : Cmd} (h : s.doing id op c)
include h

theorem State.onCmd_doing (f : Cmd → State) (n : Nat) : s.onCmd id op f n = .next (f c) := by
  obtain ⟨hc, hstarted, hd, hop⟩ := h
  unfold State.onCmd
  rw [hc]
  exact if_pos ⟨hstarted, hd, hop⟩

/-- The command ends, and nothing else changes. -/
theorem State.ended_doing (st : Status) (detail result : Nat) :
    s.onlyCmd (s.endCmd id st detail result) id ∧ (s.endCmd id st detail result).ended id st detail result := by
  obtain ⟨hc, -, hd, -⟩ := h
  exact (State.ended_endCmd hc hd st detail result).symm

end

/-! ### Numbers in memory -/

theorem leNat_leBytes (n v : Nat) : leNat (leBytes n v) = v % 256 ^ n := by
  induction n generalizing v with
  | zero => simp [leBytes, leNat, Nat.mod_one]
  | succ n ih =>
    rw [leBytes, leNat, ih, BitVec.toNat_ofNat]
    exact (Nat.pow_succ' ▸ Nat.mod_mul : v % 256 ^ (n + 1) = v % 256 + 256 * (v / 256 % 256 ^ n)).symm

/-- A number of eight bytes that is written reads back. -/
theorem State.readN_of_bytes {t : State} {a n v : Nat} (h : t.bytes a n = leBytes n v) : t.readN a n = v % 256 ^ n := by
  rw [State.readN, h, leNat_leBytes]

theorem State.readN_lt (s : State) (a n : Nat) : s.readN a n < 256 ^ n := by
  have h := leNat_lt (s.bytes a n)
  rwa [State.bytes_eq_map, List.length_map, List.length_range, ← State.bytes_eq_map] at h

theorem State.readN_of_mem {s t : State} {a n : Nat} (hmem : t.mem = s.mem) (hp : plainRange a n) : t.readN a n = s.readN a n := by
  rw [State.readN, State.readN, State.bytes_of_mem hmem hp]

/-- Bytes outside a range that is written are as they were. -/
theorem State.bytes_of_apart {s : State} {a b n : Nat} {d : List Byte} (ha : plainRange a n) (hapart : a + n ≤ b ∨ b + d.length ≤ a) :
    (s.setBytes b d).bytes a n = s.bytes a n := by
  obtain ⟨hother, -⟩ := State.onlyBytes_setBytes s b d
  rw [State.bytes_eq_map, State.bytes_eq_map]
  refine List.map_congr_left fun i hi => ?_
  have hi := List.mem_range.mp hi
  have hplain := ha (a + i) (by omega) (by omega)
  rw [State.byte_plain _ hplain, State.byte_plain _ hplain]
  exact hother _ (by omega)

/-! ### Memory of GDDR7 -/

theorem State.gddrBytes_congr {s t : State} (h : t.reg rMEM_CFG = s.reg rMEM_CFG) : t.gddrBytes = s.gddrBytes := by
  rw [State.gddrBytes, State.gddrBytes, State.flag_of_sameReg (f := fMEM_CFG_CLAMSHELL) h]

theorem State.region?_gddr_iff {s : State} {a n : Nat} : s.region? a n = some .gddr ↔ a < s.gddrBytes ∧ a + n ≤ s.gddrBytes := by
  refine ⟨fun h => ?_, fun ⟨ha, hn⟩ => State.region?_gddr ha hn⟩
  obtain ⟨b, m, hat, hin⟩ := State.regionAt_of_region? h
  obtain ⟨-, -, hg, -⟩ := State.regionAt_plain hat (.inl rfl)
  rw [State.regionAt_gddr (hg rfl)] at hat
  obtain ⟨-, rfl, rfl⟩ := eq_of_some_region hat
  exact ⟨hg rfl, by omega⟩

theorem State.region?_gddr_congr {s t : State} (h : t.reg rMEM_CFG = s.reg rMEM_CFG) {a n : Nat} (hr : s.region? a n = some .gddr) :
    t.region? a n = some .gddr := by
  rw [State.region?_gddr_iff] at hr ⊢
  rwa [State.gddrBytes_congr h]

/-- Which region holds an address is a matter of the registers. -/
theorem State.region?_congr {s t : State} (h : t.regs = s.regs) (a n : Nat) : t.region? a n = s.region? a n := by
  have hreg := State.reg_congr h
  have hpresent : ∀ l, t.present l = s.present l := fun l => by
    rw [State.present, State.present, State.phys?_congr (hreg _)]
  have hcxl : ∀ p, t.cxlBytes p = s.cxlBytes p := fun p => by
    rw [State.cxlBytes, State.cxlBytes, State.fld_congr h]
  have hat : t.regionAt a = s.regionAt a := by
    unfold State.regionAt
    dsimp only
    rw [State.gddrBytes_congr (hreg _), hpresent, hcxl, hcxl, State.flag_of_sameReg (f := fHIF_CFG_BIF) (hreg _)]
  rw [State.region?, State.region?, hat]

/-! ### Bytes with the held writes made -/

theorem State.writeHeld_congr {s t : State} (hckp : t.ckp = s.ckp) (a n : Nat) (o : HeldFor) : t.writeHeld a n o = s.writeHeld a n o := by
  have hunsaved : t.unsaved = s.unsaved := by
    funext g
    rw [State.unsaved, State.unsaved, hckp]
  rw [State.writeHeld, State.writeHeld, hunsaved, hckp]

theorem State.bytesHeld_congr {s t : State} (hckp : t.ckp = s.ckp) (hbyte : ∀ a, t.byte a = s.byte a) (a n : Nat) :
    t.bytesHeld a n = s.bytesHeld a n := by
  induction n generalizing a with
  | zero => rfl
  | succ n ih => rw [State.bytesHeld, State.bytesHeld, ih, State.byteHeld, State.byteHeld, hckp, hbyte]

end Sys2Proof.Machine
end

section
/-! PROOF. Migrations (R227, R228), of the family 08_memory_and_context. -/

namespace Sys2Proof.Machine

open Sys2Proof

/-! ### The table of migrations -/

theorem State.reg_setMigs (s : State) (l : List Mig) {o : Nat} (h : o ≠ rCXM_MIG_STATUS) : (s.setMigs l).reg o = s.reg o :=
  State.reg_setFld_other _ fCXM_MIG_STATUS_ACTIVE _ _ h

theorem State.active_setMigs (s : State) {l : List Mig} (h : l.length < 32) : (s.setMigs l).fld fCXM_MIG_STATUS_ACTIVE = l.length :=
  (State.fld_setFld_same _ _ _ (by decide)).trans (Nat.mod_eq_of_lt h)

theorem State.byte_setMigs (s : State) (l : List Mig) (a : Nat) : (s.setMigs l).byte a = s.byte a :=
  State.sameMemory.byte (t := s) (u := s.setMigs l) ⟨rfl, rfl, rfl, fun k hk => State.phys?_congr (s.reg_setMigs l
    (show 0x101000 + 4 * k ≠ 0x500004 by omega))⟩ a

theorem State.readN_setMigs (s : State) (l : List Mig) (a n : Nat) : (s.setMigs l).readN a n = s.readN a n := by
  rw [State.readN, State.readN, State.bytes_eq_map, State.bytes_eq_map]
  exact congrArg leNat (List.map_congr_left fun i _ => s.byte_setMigs l (a + i))

/-! ### The start -/

/-- Command `id` asks to migrate the page of entry `n` of partition `p` from `src` to `dst`, and its fields and the entry allow it. -/
structure State.migrates (s : State) (id : Nat) (c : Cmd) (p : Fin 65) (n dst src : Nat) : Prop where
  doing : s.doing id 0x10 c
  tenant : p ≠ 0
  part : c.f 0 1 = p.val
  index : c.f 4 4 = n
  target : c.f 8 8 = dst
  clean : c.clean [at8 0 0 8, at8 4 0 32, at8 8 0 64] = true
  targetOk : s.migDst dst = true
  inTable : n < s.fld (fMEM_PT_LEN_LEN p.val)
  table : s.region? (s.ptAddr p n) 8 = some .gddr
  ready : s.flag fMEM_STATUS_READY = true
  source : s.migSrc (s.ptEntry p n) = some src
  new : ∀ m ∈ s.gmem.migs, m.cmd ≠ id

section

variable {s : State} {id : Nat} {c : Cmd} {p : Fin 65} {n dst src : Nat} (h : s.migrates id c p n dst src)
include h

theorem exec_migrate : exec (.migrate id) s = .next
    (if bitOf (s.ptEntry p n) 61 then s.endCmd id .busy
      else if 16 ≤ s.gmem.migs.length then s.endCmd id .refusedResource 0x2800
      else match s.usable 0 [(src, pageBytes), (dst, pageBytes)] with
        | .ok => (s.putEntry (s.ptAddr p n) (s.ptEntry p n + 2 ^ 61)).setMigs (s.gmem.migs ++
            [{ cmd := id, part := p.val, entry := s.ptAddr p n, src := src, dst := dst }])
        | st => s.endCmd id st) := by
  obtain ⟨hdo, hp0, hp, hn, hdst, hclean, hdstOk, hin, htable, hready, hsrc, hnew⟩ := h
  have hany : s.gmem.migs.any (fun m => decide (m.cmd = id)) = false := List.any_eq_false.mpr fun m hm => by simpa using hnew m hm
  have hacc : s.accessSt (s.ptAddr p n) 8 = .ok := by rw [State.accessSt_gddr htable, if_pos hready]
  have hpart : Fin.ofNat 65 (c.f 0 1) = p := Fin.ext (by rw [hp]; exact Nat.mod_eq_of_lt p.isLt)
  have hpos : p.val ≠ 0 := fun h0 => hp0 (Fin.ext h0)
  have hfields : ¬ (c.f 0 1 = 0 ∨ 64 < c.f 0 1 ∨ c.clean [at8 0 0 8, at8 4 0 32, at8 8 0 64] = false ∨ s.migDst dst = false ∨
      s.fld (fMEM_PT_LEN_LEN p.val) ≤ n) := by
    simp only [hclean, hdstOk, hp, Bool.true_eq_false, false_or]
    omega
  show s.onCmd id 0x10 _ = _
  rw [State.onCmd_doing hdo]
  dsimp only
  rw [hany, hpart, hn, hdst, if_neg (by decide), if_neg hfields, if_neg (not_not.mpr hacc), hsrc] <;> rfl

omit h in
/-- An entry that is not BUSY has room for BUSY. -/
theorem State.ptEntry_busy (hbusy : bitOf (s.ptEntry p n) 61 = false) : s.ptEntry p n + 2 ^ 61 < 2 ^ 64 := by
  have hlt : s.ptEntry p n < 2 ^ 64 := s.readN_lt _ 8
  have hbit := of_decide_eq_false hbusy
  omega

/-- A migration that starts sets BUSY in one write and is counted. -/
theorem exec_migrate_starts (hbusy : bitOf (s.ptEntry p n) 61 = false) (hfull : s.gmem.migs.length < 16)
    (huse : s.usable 0 [(src, pageBytes), (dst, pageBytes)] = .ok) (hheld : s.writeHeld (s.ptAddr p n) 8 = false) :
    ∃ t, exec (.migrate id) s = .next t ∧ t = { s with mem := t.mem, regs := t.regs, gmem := t.gmem } ∧ s.onlyBytes t (s.ptAddr p n) 8 ∧
      t.ptEntry p n = s.ptEntry p n + 2 ^ 61 ∧ t.fld fCXM_MIG_STATUS_ACTIVE = s.gmem.migs.length + 1 ∧
      t.gmem.migs = s.gmem.migs ++ [{ cmd := id, part := p.val, entry := s.ptAddr p n, src := src, dst := dst }] := by
  have hexec := exec_migrate h
  have hlt := State.ptEntry_busy hbusy
  have hlen : (leBytes 8 (s.ptEntry p n + 2 ^ 61)).length = 8 := Laws.leBytes_len _ _
  have hplain : plainRange (s.ptAddr p n) 8 := plainRange_of_region? h.table (.inl rfl)
  have hput : s.putEntry (s.ptAddr p n) (s.ptEntry p n + 2 ^ 61) = s.setBytes (s.ptAddr p n) (leBytes 8 (s.ptEntry p n + 2 ^ 61)) :=
    State.devWrite_plain (r := .gddr) (by rw [hlen]; exact h.table) (.inl rfl) (by rw [hlen]; exact hheld)
  rw [hbusy, if_neg (by decide), if_neg (Nat.not_le.mpr hfull), huse, hput] at hexec
  dsimp only at hexec
  refine ⟨_, hexec, ?_, ?_, ?_, ?_, rfl⟩
  · have hframe := State.setBytes_plain (s := s) (a := s.ptAddr p n) (b := leBytes 8 (s.ptEntry p n + 2 ^ 61)) (by rwa [hlen])
    generalize s.setBytes _ _ = u at *
    rw [hframe]
    rfl
  · have hbytes := State.onlyBytes_setBytes s (s.ptAddr p n) (leBytes 8 (s.ptEntry p n + 2 ^ 61))
    rw [hlen] at hbytes
    exact hbytes
  · obtain ⟨hread, -⟩ := State.wrote_plain (s := s) (u := s) (a := s.ptAddr p n) (b := leBytes 8 (s.ptEntry p n + 2 ^ 61)) rfl rfl
      (by rwa [hlen])
    rw [hlen] at hread
    have hbase : ((s.setBytes (s.ptAddr p n) (leBytes 8 (s.ptEntry p n + 2 ^ 61))).setMigs (s.gmem.migs ++
        [{ cmd := id, part := p.val, entry := s.ptAddr p n, src := src, dst := dst }])).ptAddr p n = s.ptAddr p n := by
      have hreg : rMEM_PT_BASE p.val ≠ rCXM_MIG_STATUS := show 0x401000 + 16 * p.val ≠ 0x500004 by have := p.isLt; omega
      rw [State.ptAddr, State.fld_of_sameReg (f := fMEM_PT_BASE_BASE p.val) (State.reg_setMigs _ _ hreg), State.setBytes_frame]
      rfl
    rw [State.ptEntry, hbase, State.readN_setMigs, State.readN_of_bytes hread]
    exact Nat.mod_eq_of_lt hlt
  · rw [State.active_setMigs _ (by simp; omega), List.length_append, List.length_singleton]

end


/-! ### The end (R228) -/

/-- An uncorrectable error of GDDR7 ends no command. -/
theorem State.cmds_gddrUe (s : State) (a : Nat) : (s.gddrUe a).que.cmds = s.que.cmds := by
  have hshown := (congrArg (fun t : State => t.que.cmds) (s.ueShownAt_frame (a := a)) :)
  rw [State.gddrUe_eq]
  exact ((State.cmds_event _ _ _ _ _).trans (State.cmds_logWrite _ _ _ _ _ _ _ _)).trans hshown

/-- The entry of a migration without BUSY, and with its new page. -/
def State.entryFreed (s : State) (m : Mig) : Nat := putBits (s.readN m.entry 8) 61 1 0
def State.entryMoved (s : State) (m : Mig) : Nat := putBits (s.entryFreed m) 0 29 (m.dst / pageBytes)

theorem bitOf_eq_bitsOf (n i : Nat) : bitOf n i = decide (bitsOf n i 1 = 1) := rfl

/-- The new page stands in the entry, BUSY does not, and the protection bits are as they were. -/
theorem State.entryMoved_fields (s : State) (m : Mig) : s.entryMoved m < 2 ^ 64 ∧ bitOf (s.entryMoved m) 61 = false ∧
    bitsOf (s.entryMoved m) 0 29 = m.dst / 0x200000 % 2 ^ 29 ∧ bitsOf (s.entryMoved m) 62 2 = bitsOf (s.readN m.entry 8) 62 2 := by
  have hlt : s.entryFreed m < 2 ^ 64 := putBits_lt _ _ _ _ (s.readN_lt m.entry 8) (by decide)
  unfold State.entryMoved
  refine ⟨putBits_lt _ _ _ _ hlt (by decide), ?_, bitsOf_putBits_same _ _ _ _, ?_⟩
  · rw [bitOf_eq_bitsOf, bitsOf_putBits_other _ _ _ _ _ _ (by decide), State.entryFreed, bitsOf_putBits_same]
    rfl
  · rw [bitsOf_putBits_other _ _ _ _ _ _ (by decide), State.entryFreed, bitsOf_putBits_other _ _ _ _ _ _ (by decide)]

/-- The migrations but for those of a command. -/
def State.migsBut (s : State) (id : Nat) : List Mig := s.gmem.migs.filter (fun x => decide (x.cmd ≠ id))

section

variable {s : State} {id : Nat} {c : Cmd} {m : Mig} (hm : s.gmem.migs.find? (fun m => m.cmd = id) = some m)

section

include hm

theorem exec_migrateComplete_none (hheld : s.writeHeld m.dst pageBytes = false) : exec (.migrateComplete id none) s = .next
    (((((s.setMigs (s.migsBut id)).devWrite m.dst (s.bytesHeld m.src pageBytes)).putEntry m.entry (s.entryMoved m)).endCmd id
      .ok).drainWaits) := by
  have hbytes := State.bytesHeld_congr (s := s) (t := s.setMigs (s.migsBut id)) rfl (s.byte_setMigs _) m.src pageBytes
  show execMigrateComplete id none s = _
  unfold execMigrateComplete
  rw [hm]
  dsimp only
  rw [hheld, State.readN_setMigs, if_neg (by decide)]
  exact congrArg (fun b => Host.Outcome.next ((((s.setMigs (s.migsBut id)).devWrite m.dst b).putEntry m.entry (s.entryMoved m)).endCmd id
    .ok).drainWaits) hbytes

theorem exec_migrateComplete_some (a : BitVec 64) : exec (.migrateComplete id (some a)) s = .next
    ((((((s.setMigs (s.migsBut id)).eccAt a.toNat .ue).putEntry m.entry (s.entryFreed m)).raise fCXM_ERR_MIG_FAIL).endCmd id
      .dataError).drainWaits) := by
  show execMigrateComplete id (some a) s = _
  unfold execMigrateComplete
  rw [hm]
  dsimp only
  rw [State.readN_setMigs]
  rfl

end

variable (h : s.doing id 0x10 c) (hqps : s.rdm.qps = []) (hlate : s.rdm.late = [])
include h hqps hlate hm

/-- A migration that ends well has copied its page and moved its entry. -/
theorem migrateComplete_copies (hentry : s.region? m.entry 8 = some .gddr) (hentryFree : s.writeHeld m.entry 8 = false)
    (hdst : s.region? m.dst pageBytes = some .gddr) (hdstFree : s.writeHeld m.dst pageBytes = false)
    (hapart : m.entry + 8 ≤ m.dst ∨ m.dst + pageBytes ≤ m.entry) :
    ∃ t, exec (.migrateComplete id none) s = .next t ∧ t.ended id .ok 0 0 ∧ t.bytes m.dst pageBytes = s.bytesHeld m.src pageBytes ∧
      t.readN m.entry 8 = s.entryMoved m ∧ t.gmem.migs = s.migsBut id := by
  obtain ⟨hc, -, hd, -⟩ := h
  have hplain : plainRange m.dst pageBytes := plainRange_of_region? hdst (.inl rfl)
  have hplainEntry : plainRange m.entry 8 := plainRange_of_region? hentry (.inl rfl)
  have hlen := s.length_bytesHeld m.src pageBytes
  have hlen8 : (leBytes 8 (s.entryMoved m)).length = 8 := Laws.leBytes_len _ _
  have hcfg : (s.setMigs (s.migsBut id)).reg rMEM_CFG = s.reg rMEM_CFG := s.reg_setMigs _ (by decide)
  have huframe := State.setBytes_plain (s := s.setMigs (s.migsBut id)) (a := m.dst) (b := s.bytesHeld m.src pageBytes) (by rwa [hlen])
  have hcopy : (s.setMigs (s.migsBut id)).devWrite m.dst (s.bytesHeld m.src pageBytes) = _ :=
    State.devWrite_plain (r := .gddr) (by rw [hlen]; exact State.region?_gddr_congr hcfg hdst) (.inl rfl)
      (by rw [hlen]; exact (State.writeHeld_congr rfl _ _ _).trans hdstFree)
  obtain ⟨hcopied, -⟩ := State.wrote_plain (s := s) (u := s.setMigs (s.migsBut id)) (b := s.bytesHeld m.src pageBytes)
    rfl rfl (by rwa [hlen])
  have hexec := exec_migrateComplete_none hm hdstFree
  rw [hcopy] at hexec
  rw [hlen] at hcopied
  generalize (s.setMigs (s.migsBut id)).setBytes m.dst (s.bytesHeld m.src pageBytes) = u at *
  have huregs : u.regs = (s.setMigs (s.migsBut id)).regs := (congrArg State.regs huframe :)
  have hucfg : u.reg rMEM_CFG = s.reg rMEM_CFG := (State.reg_congr huregs rMEM_CFG).trans hcfg
  have huheld : u.writeHeld m.entry 8 = false := (State.writeHeld_congr (congrArg State.ckp huframe :) _ _ _).trans hentryFree
  have hput : u.putEntry m.entry (s.entryMoved m) = u.setBytes m.entry (leBytes 8 (s.entryMoved m)) :=
    State.devWrite_plain (r := .gddr) (by rw [hlen8]; exact State.region?_gddr_congr hucfg hentry) (.inl rfl) (by rw [hlen8]; exact huheld)
  obtain ⟨hmoved, -⟩ := State.wrote_plain (s := u) (u := u) (a := m.entry) (b := leBytes 8 (s.entryMoved m)) rfl rfl (by rwa [hlen8])
  have hkept := State.bytes_of_apart (s := u) (d := leBytes 8 (s.entryMoved m)) hplain (by rw [hlen8]; exact hapart.symm)
  rw [hput] at hexec
  rw [hlen8] at hmoved
  have hwframe : u.setBytes m.entry (leBytes 8 (s.entryMoved m)) = { s.setMigs (s.migsBut id) with
      mem := (u.setBytes m.entry (leBytes 8 (s.entryMoved m))).mem } :=
    (State.setBytes_plain (s := u) (by rwa [hlen8])).trans
      (congrArg (fun x : State => { x with mem := (u.setBytes m.entry (leBytes 8 (s.entryMoved m))).mem }) huframe)
  generalize u.setBytes m.entry (leBytes 8 (s.entryMoved m)) = w at *
  obtain ⟨hended, hframe⟩ := State.endMig_leaves hc hd hqps hlate (w := w) (by rw [hwframe]; rfl) (by rw [hwframe]; rfl) .ok
  have hmem : (w.endCmd id .ok).drainWaits.mem = w.mem := (congrArg State.mem hframe :)
  refine ⟨_, hexec, hended, ?_, ?_, ?_⟩
  · exact (State.bytes_of_mem hmem hplain).trans (hkept.trans hcopied)
  · rw [State.readN_of_mem hmem hplainEntry, State.readN_of_bytes hmoved]
    exact Nat.mod_eq_of_lt (s.entryMoved_fields m).1
  · exact (congrArg (fun t : State => t.gmem.migs) hframe :).trans (congrArg (fun t : State => t.gmem.migs) hwframe :)

/-- A migration that meets an uncorrectable error keeps its page, and shows. -/
theorem migrateComplete_fails {a : BitVec 64} (ha : a.toNat < s.gddrBytes) : ∃ t, exec (.migrateComplete id (some a)) s = .next t ∧
    t.ended id .dataError 0 0 ∧ t.flag fCXM_ERR_MIG_FAIL = true ∧ t.gmem.migs = s.migsBut id := by
  obtain ⟨hc, -, hd, -⟩ := h
  have hcfg : (s.setMigs (s.migsBut id)).reg rMEM_CFG = s.reg rMEM_CFG := s.reg_setMigs _ (by decide)
  have hecc := (s.setMigs (s.migsBut id)).eccAt_gddr_ue (a := a.toNat) (by rwa [State.gddrBytes_congr hcfg])
  have hexec := exec_migrateComplete_some hm a
  obtain ⟨-, hnoted⟩ := (s.setMigs (s.migsBut id)).gddrUe_leaves a.isLt
  have hcmds := (s.setMigs (s.migsBut id)).cmds_gddrUe a.toNat
  rw [hecc] at hexec
  generalize (s.setMigs (s.migsBut id)).gddrUe a.toNat = u at *
  have hput := u.devWrite_frame m.entry (leBytes 8 (s.entryFreed m)) false .plain
  have hwcmds : ((u.putEntry m.entry (s.entryFreed m)).raise fCXM_ERR_MIG_FAIL).que.cmds = s.que.cmds :=
    (congrArg (fun t : State => t.que.cmds) hput :).trans hcmds
  have hwrdm : ((u.putEntry m.entry (s.entryFreed m)).raise fCXM_ERR_MIG_FAIL).rdm = s.rdm :=
    (congrArg State.rdm hput :).trans (congrArg State.rdm hnoted.frame :)
  have hwgmem : ((u.putEntry m.entry (s.entryFreed m)).raise fCXM_ERR_MIG_FAIL).gmem.migs = s.migsBut id :=
    (congrArg (fun t : State => t.gmem.migs) hput :).trans (congrArg (fun t : State => t.gmem.migs) hnoted.frame :)
  have hwflag : ((u.putEntry m.entry (s.entryFreed m)).raise fCXM_ERR_MIG_FAIL).flag fCXM_ERR_MIG_FAIL = true :=
    State.flag_raise_same _ rfl (by decide)
  generalize (u.putEntry m.entry (s.entryFreed m)).raise fCXM_ERR_MIG_FAIL = w at *
  obtain ⟨hended, hframe⟩ := State.endMig_leaves hc hd hqps hlate hwcmds hwrdm .dataError
  refine ⟨_, hexec, hended, ?_, (congrArg (fun t : State => t.gmem.migs) hframe :).trans hwgmem⟩
  exact (State.flag_of_sameReg (State.reg_congr (congrArg State.regs hframe :) _)).trans hwflag

end

end Sys2Proof.Machine
end

section
/-! PROOF. Service pavilions and their requests (R233 to R236), of the family 08_memory_and_context. -/

namespace Sys2Proof.Machine

open Sys2Proof

/-! ### The named pavilions are loaded (R235) -/

/-- From `s` to `t` pavilions may have been reset: of the registers below the queues only those that show a reset or a fault may be
others. -/
def State.resetKeeps (s t : State) : Prop :=
  ∀ o, o < 0x800000 → o ∉ [rPAV_RST_STATUS, rPAV_PAIR, rSCH_FAULT, rSCH_FAULT_COUNT] → t.reg o = s.reg o

namespace State.resetKeeps

variable {s t u : State}

theorem refl (s : State) : s.resetKeeps s := fun _ _ _ => rfl

theorem trans (h : s.resetKeeps t) (k : t.resetKeeps u) : s.resetKeeps u := fun o ho hne => (k o ho hne).trans (h o ho hne)

theorem foldl {α : Type} {f : State → α → State} (hf : ∀ t a, State.resetKeeps t (f t a)) (l : List α) (s : State) :
    s.resetKeeps (l.foldl f s) := by
  induction l generalizing s with
  | nil => exact .refl s
  | cons a r ih => exact (hf s a).trans (ih (f s a))

theorem setFld (h : s.resetKeeps t) {f : Fld} (hf : f.off ∈ [rPAV_RST_STATUS, rPAV_PAIR, rSCH_FAULT, rSCH_FAULT_COUNT]) (v : Nat) :
    s.resetKeeps (t.setFld f v) :=
  h.trans fun o _ hne => State.reg_setFld_other t f v o fun he => hne (he ▸ hf)

theorem fault (h : s.resetKeeps t) (cause : Nat) : s.resetKeeps (t.fault cause) := by
  obtain ⟨-, -, hregs⟩ := t.faultLeaves_fault cause
  refine h.trans fun o ho hne => ?_
  simp only [List.mem_cons, List.not_mem_nil, or_false, not_or] at hne
  obtain ⟨-, -, hf, hc⟩ := hne
  exact hregs o ho hf hc

theorem beginPavReset (t : State) (k : Nat) : t.resetKeeps (t.beginPavReset k) := by
  unfold State.beginPavReset
  split
  · exact .refl t
  · exact fun _ _ _ => rfl

theorem startPavReset (s : State) (l : Nat) : s.resetKeeps (s.startPavReset l) := by
  unfold State.startPavReset
  extract_lets ls hit s0 s1 s2
  have hloads : s.resetKeeps (s.resetLoads ls) := fun _ _ _ => rfl
  have h0 : s.resetKeeps s0 := (hloads.setFld (by decide) _).setFld (by decide) _
  have h1 : s.resetKeeps s1 := h0.trans (foldl beginPavReset ls s0)
  have h2 : s.resetKeeps s2 := h1.setFld (by decide) _
  split
  · exact h2.fault 6
  · exact h2

theorem beginLoads (s : State) (svc : Bool) (named : List (Nat × Prog)) : s.resetKeeps (s.beginLoads svc named) := by
  unfold State.beginLoads
  extract_lets s1
  have h1 : s.resetKeeps s1 := foldl (fun t x => startPavReset t x.1) named s
  exact fun o ho hne => h1 o ho hne

end State.resetKeeps

theorem State.service_congr {s t : State} (h : ∀ o ∈ [rCXM_SVC_MASK0, rCXM_SVC_MASK1], t.reg o = s.reg o) (l : Nat) :
    t.service l = s.service l := by
  rw [State.service, State.service, State.fld_of_sameReg (f := fCXM_SVC_MASK0_BITS) (h _ (by decide)),
    State.fld_of_sameReg (f := fCXM_SVC_MASK1_BITS) (h _ (by decide))]

theorem State.present_congr {s t : State} {l : Nat} (h : l < 128 → t.reg (rPAV_MAP l) = s.reg (rPAV_MAP l)) :
    t.present l = s.present l := by
  unfold State.present
  by_cases hl : l < 128
  · rw [State.phys?_congr (h hl)]
  · simp [hl]

/-- The pavilions that a mask names are loaded with the granary program, and no others. -/
theorem State.beginLoads_svc (s : State) (named : List (Nat × Prog)) (l : Nat) :
    (∃ d ∈ (s.beginLoads true named).ldg.loads, d.svc = true ∧ d.lpav = l) ↔ l ∈ named.map Prod.fst := by
  unfold State.beginLoads
  extract_lets s1
  simp only [List.mem_append, List.mem_filter, List.mem_map]
  constructor
  · rintro ⟨d, (⟨-, hd⟩ | ⟨x, hx, rfl⟩), hsvc, rfl⟩
    · simp [hsvc] at hd
    · exact ⟨x, hx, rfl⟩
  · rintro ⟨x, hx, rfl⟩
    exact ⟨_, .inr ⟨x, hx, rfl⟩, rfl, rfl⟩

/-- The field of a service mask. -/
def svcMaskFld (k : Fin 2) : Fld := if k = 0 then fCXM_SVC_MASK0_BITS else fCXM_SVC_MASK1_BITS

/-- The pavilions that are present and named as service pavilions, with their program. -/
def State.svcNamed (s : State) : List (Nat × Prog) :=
  ((List.range 128).filter (fun l => s.service l && s.present l)).map (fun l =>
    (l, { mask := 0, imem := Config.granaryImem, dmem := Config.granaryDmem }))

theorem State.mem_svcNamed (s : State) {l : Nat} (hl : l < 128) :
    l ∈ s.svcNamed.map Prod.fst ↔ s.service l = true ∧ s.present l = true := by
  simp [State.svcNamed, hl]

section

variable {s : State} (k : Fin 2) (v : BitVec 64)

theorem State.svcMaskWrite_of_sched (h : s.schedPresent = true) : s.svcMaskWrite k v = s.raise fCXM_ERR_CFG_DROP := if_pos h

theorem State.svcMaskWrite_of_idle (h : s.schedPresent = false) :
    s.svcMaskWrite k v = (s.setFld (svcMaskFld k) v.toNat).beginLoads true (s.setFld (svcMaskFld k) v.toNat).svcNamed := by
  rw [State.svcMaskWrite, h]
  rfl

/-- A mask that is written names the pavilions that are loaded with the granary program. -/
theorem State.svcMaskWrite_leaves (h : s.schedPresent = false) : (s.svcMaskWrite k v).fld (svcMaskFld k) = v.toNat ∧
    ∀ l, l < 128 → ((s.svcMaskWrite k v).service l = true ∧ s.present l = true ↔
      ∃ d ∈ (s.svcMaskWrite k v).ldg.loads, d.svc = true ∧ d.lpav = l) := by
  rw [State.svcMaskWrite_of_idle k v h]
  have hwide : (svcMaskFld k).lo + (svcMaskFld k).w ≤ 64 ∧ (svcMaskFld k).w = 64 ∧
      (svcMaskFld k).off ∈ [rCXM_SVC_MASK0, rCXM_SVC_MASK1] := by
    revert k
    decide
  obtain ⟨hfit, hw, hoff⟩ := hwide
  set u := s.setFld (svcMaskFld k) v.toNat with hu
  have hmasks : ∀ o ∈ [rCXM_SVC_MASK0, rCXM_SVC_MASK1], (u.beginLoads true u.svcNamed).reg o = u.reg o := fun o ho => by
    simp only [List.mem_cons, List.not_mem_nil, or_false] at ho
    rcases ho with rfl | rfl
    · exact State.resetKeeps.beginLoads u true _ _ (by decide) (by decide)
    · exact State.resetKeeps.beginLoads u true _ _ (by decide) (by decide)
  refine ⟨?_, fun l hl => ?_⟩
  · rw [State.fld_of_sameReg (hmasks _ hoff), hu, State.fld_setFld_same _ _ _ hfit, hw]
    exact Nat.mod_eq_of_lt v.isLt
  · have hpresent : u.present l = s.present l := State.present_congr fun _ => State.reg_setFld_other s (svcMaskFld k) _ _ fun he => by
      rw [← he] at hoff
      simp only [rPAV_MAP, rCXM_SVC_MASK0, rCXM_SVC_MASK1, List.mem_cons, List.not_mem_nil, or_false] at hoff
      omega
    rw [State.beginLoads_svc, State.mem_svcNamed u hl, State.service_congr hmasks, hpresent]

end

/-! ### A request is taken (R235) -/

section

variable {s : State} {c : Cmd} {l q cls : Nat} {p : Fin 65}

theorem exec_serviceRequestStart_none (h : s.svcFree? = none) : exec .serviceRequestStart s = .next s := by
  show execServiceRequestStart s = _
  unfold execServiceRequestStart
  rw [h]

/-- The request of a queue is taken: its wait ends, and the next turn is another's. -/
def State.svcTaken (s : State) (c : Cmd) (p : Fin 65) (q cls : Nat) : State :=
  let s1 := (s.setPart p ((s.part p).served s.que.virtSvc 1)).setCmd { c with wait := s.now - c.fetched }
  { s1 with que := { s1.que with virtSvc := max s.que.virtSvc (s.part p).fin, rrSvc := aput (p.val, cls) q s1.que.rrSvc } }

theorem exec_serviceRequestStart_some (hfree : s.svcFree? = some l) (hturn : s.chooseBy s.svcSqs s.que.rrSvc = some (p, q, cls))
    (hc : s.svcOf p q = some c) : exec .serviceRequestStart s = .next (match s.svcCheck c with
      | some st => (s.svcTaken c p q cls).endCmd c.id st (svcDetail st)
      | none => { s.svcTaken c p q cls with gmem := { s.gmem with svcRun := s.gmem.svcRun ++ [(c.id, l)] } }) := by
  show execServiceRequestStart s = _
  unfold execServiceRequestStart
  rw [hfree, hturn]
  dsimp only
  rw [hc]
  dsimp only
  cases s.svcCheck c with
  | none => rfl
  | some st => rfl

theorem State.cmd?_svcTaken (hc : s.cmd? c.id = some c) : (s.svcTaken c p q cls).cmd? c.id = some { c with wait := s.now - c.fetched } :=
  State.cmd?_setCmd_same (s := s.setPart p ((s.part p).served s.que.virtSvc 1)) hc rfl

end


/-! ### The tests of a request (R233, R236) -/

section

variable {s : State} {c : Cmd} {b : List Byte}

theorem State.svcCheck_seal {x : Gran × Nat × Nat × Nat} (hop : c.op = 0x02) (hx : s.sealOf c = .ok x)
    (hb : s.partRead c.p (x.1.sealedAt x.2.1) 4 = .ok b) : s.svcCheck c =
      if x.2.2.1 ≠ leNat b then some .invalidState else if x.1.cap ≤ x.2.2.1 then some .refusedResource else none := by
  have hcheck : s.sealCheck c =
      if x.2.2.1 ≠ leNat b then .fail .invalidState else if x.1.cap ≤ x.2.2.1 then .fail .refusedResource else .ok x := by
    rw [State.sealCheck, hx, Acc.bind, hb, Acc.bind]
  rw [State.svcCheck, if_pos hop, hcheck]
  split_ifs <;> rfl

theorem State.svcCheck_att {a : Att} (hop : c.op = 0x03) (ha : s.attOf c = .ok a)
    (hb : s.partRead c.p (a.g.sealedAt a.stream) 4 = .ok b) :
    s.svcCheck c = if leNat b < a.pages then some .invalidState else none := by
  have hcheck : s.attCheck c = if leNat b < a.pages then .fail .invalidState else .ok a := by
    rw [State.attCheck, ha, Acc.bind, hb, Acc.bind]
  rw [State.svcCheck, if_neg (by rw [hop]; decide), hcheck]
  split_ifs <;> rfl

end

section

variable {s : State} {c : Cmd} {l q cls : Nat} {p : Fin 65}

/-- A request that is taken ends with the status of its tests, or runs on its pavilion. -/
theorem serviceRequestStart_leaves (hfree : s.svcFree? = some l) (hturn : s.chooseBy s.svcSqs s.que.rrSvc = some (p, q, cls))
    (hc : s.svcOf p q = some c) (hcmd : s.cmd? c.id = some c) (hd : c.done = none) :
    ∃ t, exec .serviceRequestStart s = .next t ∧ t.mem = s.mem ∧ t.scratch = s.scratch ∧ t.regs = s.regs ∧
      (∀ st, s.svcCheck c = some st → t.ended c.id st (svcDetail st) 0 ∧ t.gmem = s.gmem) ∧
      (s.svcCheck c = none → t.gmem.svcRun = s.gmem.svcRun ++ [(c.id, l)]) := by
  have hexec := exec_serviceRequestStart_some hfree hturn hc
  cases hst : s.svcCheck c with
  | none =>
    rw [hst] at hexec
    exact ⟨_, hexec, rfl, rfl, rfl, nofun, fun _ => rfl⟩
  | some st =>
    rw [hst] at hexec
    have hend := (s.svcTaken c p q cls).endCmd_frame c.id st (svcDetail st) 0
    obtain ⟨hended, -⟩ := State.ended_endCmd (State.cmd?_svcTaken (p := p) (q := q) (cls := cls) hcmd) hd st (svcDetail st) 0
    refine ⟨_, hexec, (congrArg State.mem hend :), (congrArg State.scratch hend :), (congrArg State.regs hend :), ?_, nofun⟩
    rintro st' ⟨⟩
    exact ⟨hended, (congrArg State.gmem hend :)⟩

end

/-! ### A request that runs -/

section

variable {s : State} {id op : Nat} {c : Cmd} (h : s.doing id op c)
include h

/-- A request that its pavilion carries out. -/
theorem State.svcDo_runs (ln : BitVec 64) (f : Cmd → State) (hrun : ∃ l, (id, l) ∈ s.gmem.svcRun) :
    s.svcDo id op .ok ln f = .next (f c) := by
  obtain ⟨l, hl⟩ := hrun
  have hany : s.gmem.svcRun.any (fun r => decide (r.1 = id)) = true := List.any_eq_true.mpr ⟨(id, l), hl, decide_eq_true rfl⟩
  rw [State.svcDo, State.onCmd_doing h, if_pos hany, if_pos rfl]

/-- The end of a request in a state whose commands are those of `s`: its pavilion is free. -/
theorem State.svcEnd_leaves {w : State} (hcmds : w.que.cmds = s.que.cmds) (st : Status) (detail : Nat) :
    (w.svcEnd id st detail).ended id st detail 0 ∧
      w.svcEnd id st detail = { w with que := (w.svcEnd id st detail).que, gmem := (w.svcEnd id st detail).gmem } ∧
      ∀ l, (id, l) ∉ (w.svcEnd id st detail).gmem.svcRun := by
  obtain ⟨hc, -, hd, -⟩ := h
  have hcmd : (w.svcLeave id).cmd? id = some c := by
    rw [State.cmd?]
    exact (congrArg (List.find? _) hcmds).trans hc
  have hend := (w.svcLeave id).endCmd_frame id st detail 0
  have hgmem : (w.svcEnd id st detail).gmem = (w.svcLeave id).gmem := (congrArg State.gmem hend :)
  refine ⟨(State.ended_endCmd hcmd hd st detail 0).1, ?_, fun l hl => ?_⟩
  · rw [hgmem]
    exact hend.trans (congrArg (fun q => { w.svcLeave id with que := q }) (congrArg State.que hend).symm)
  · rw [hgmem] at hl
    simp [State.svcLeave] at hl

end

/-! ### Writes of a request of partition 0 -/

theorem State.partRanges_ok {s : State} {p : Fin 65} {a n : Nat} {l : List (Nat × Nat)} (h : s.partRanges p a n = .ok l) :
    s.translate p a n true = .ok l ∧ s.usable p l = .ok ∧ l.any (fun r => s.writeHeld r.1 r.2) = false := by
  unfold State.partRanges at h
  split at h
  case h_1 => cases h
  case h_2 => cases h
  case h_3 l' htr =>
    split at h
    case h_1 huse =>
      split at h
      case isTrue => cases h
      case isFalse hheld =>
        cases h
        exact ⟨htr, huse, Bool.eq_false_iff.mpr hheld⟩
    case h_2 => cases h

theorem State.writeHeld_of_partRanges {s : State} {p : Fin 65} {a n b m : Nat} (h : s.partRanges p a n = .ok [(b, m)]) :
    s.writeHeld b m = false := by
  obtain ⟨-, -, hheld⟩ := State.partRanges_ok h
  simpa using hheld

theorem State.rangeWrite_one (s : State) {a n : Nat} {b : List Byte} (hb : b.length = n) : s.rangeWrite [(a, n)] b = s.devWrite a b := by
  rw [State.rangeWrite, State.rangeWrite, ← hb, List.take_length]

theorem plainAt_iff {s : State} {a n : Nat} (h : s.plainAt a n) : ∃ r, s.region? a n = some r ∧ (r = .gddr ∨ ∃ p, r = .cxl p) := by
  obtain ⟨r, hr, hregion⟩ := h
  refine ⟨r, hregion, ?_⟩
  simp only [List.mem_cons, List.not_mem_nil, or_false] at hr
  rcases hr with rfl | rfl | rfl
  · exact .inl rfl
  · exact .inr ⟨0, rfl⟩
  · exact .inr ⟨1, rfl⟩

/-- A write of plain memory that `s` allows is made where the registers and the held writes are those of `s`. -/
theorem State.rangeWrite_plain {s t : State} (hregs : t.regs = s.regs) (hckp : t.ckp = s.ckp) {p : Fin 65} {a n : Nat} {b : List Byte}
    (hopen : s.partRanges p a n = .ok [(a, n)]) (hplain : s.plainAt a n) (hb : b.length = n) :
    t.rangeWrite [(a, n)] b = t.setBytes a b ∧ t.setBytes a b = { t with mem := (t.setBytes a b).mem } := by
  obtain ⟨r, hregion, hr⟩ := plainAt_iff hplain
  have hheld : t.writeHeld a n = false := (State.writeHeld_congr hckp _ _ _).trans (State.writeHeld_of_partRanges hopen)
  subst hb
  rw [State.rangeWrite_one t rfl]
  exact ⟨State.devWrite_plain ((State.region?_congr hregs _ _).trans hregion) hr hheld,
    State.setBytes_plain (plainRange_of_region? hregion hr)⟩


end Sys2Proof.Machine
end

section
/-! PROOF. SEAL and ATTEND (R233, R236 to R241), and the granary's settled obligation, of the family 08_memory_and_context. -/

namespace Sys2Proof.Machine

open Sys2Proof

/-! ### What a SEAL writes (R230 to R233) -/

/-- A part of a page that is trimmed is as long as the part of 64 tokens. -/
theorem length_trimPart {src : List Byte} {o w n : Nat} (hn : n ≤ 64) (hin : o + 64 * w ≤ src.length) :
    ((src.drop o).take (n * w) ++ List.replicate ((64 - n) * w) (0 : Byte)).length = 64 * w := by
  have hle : n * w ≤ 64 * w := Nat.mul_le_mul_right w hn
  have hsplit : n * w + (64 - n) * w = 64 * w := by rw [← Nat.add_mul, Nat.add_sub_cancel' hn]
  rw [List.length_append, List.length_replicate, List.length_take_of_le (by rw [List.length_drop]; omega), hsplit]

theorem Gran.length_trim (g : Gran) {src : List Byte} {n : Nat} (hn : n ≤ 64) (hsrc : src.length = g.pageBytes) :
    (g.trim src n).length = g.pageBytes := by
  have helem : g.elemBytes = 64 * (g.d * g.eb) := Nat.mul_assoc _ _ _
  have hscale : g.scaleBytes = 64 * g.scales := rfl
  have hpage : src.length = 2 * (g.elemBytes + g.scaleBytes) := hsrc
  have hpart : ∀ o w, o + 64 * w ≤ src.length →
      ((src.drop o).take (n * w) ++ List.replicate ((64 - n) * w) (0 : Byte)).length = 64 * w := fun o w => length_trimPart hn
  have h1 := hpart 0 (g.d * g.eb) (by omega)
  have h2 := hpart g.elemBytes g.scales (by omega)
  have h3 := hpart (g.elemBytes + g.scaleBytes) (g.d * g.eb) (by omega)
  have h4 := hpart (2 * g.elemBytes + g.scaleBytes) g.scales (by omega)
  rw [Gran.trim, List.length_append, List.length_append, List.length_append, h1, h2, h3, h4, Gran.pageBytes]
  omega

theorem length_leWords (l : List (BitVec 32)) : (l.flatMap (fun x => leBytes 4 x.toNat)).length = 4 * l.length := by
  induction l with
  | nil => rfl
  | cons x l ih => rw [List.flatMap_cons, List.length_append, ih, Laws.leBytes_len, List.length_cons, Nat.mul_succ, Nat.add_comm]

theorem Gran.length_sumEntry (g : Gran) (i n first : Nat) (page : List Byte) : (g.sumEntry i n first page).length = g.sumBytes := by
  have hkey : (if n < 64 then List.replicate (4 * g.d) (0 : Byte)
      else (g.summary page).flatMap (fun x => leBytes 4 x.toNat)).length = 4 * g.d := by
    split
    · exact List.length_replicate
    · rw [length_leWords, Gran.summary, List.length_map, List.length_range]
  simp only [Gran.sumEntry, List.length_append, hkey, Laws.leBytes_len, List.length_replicate, Gran.sumBytes]

theorem State.translate_zero {s : State} {a n : Nat} {w : Bool} {l : List (Nat × Nat)} (h : s.translate 0 a n w = .ok l) :
    l = [(a, n)] ∧ ¬ (w = true ∧ s.region? a n = some .log) := by
  rw [State.translate, if_pos rfl] at h
  split at h
  case isTrue hin =>
    cases h
    refine ⟨rfl, fun ⟨hw, hlog⟩ => ?_⟩
    simp [hw, hlog] at hin
  case isFalse => cases h

theorem State.length_partRead {s : State} {a n : Nat} {b : List Byte} (h : s.partRead 0 a n = .ok b) : b.length = n := by
  unfold State.partRead at h
  split at h
  case h_1 => cases h
  case h_2 => cases h
  case h_3 l htr =>
    obtain ⟨rfl, -⟩ := State.translate_zero htr
    split at h
    case isTrue => cases h
    case isFalse =>
      split at h
      case h_1 =>
        cases h
        simp [State.rangeBytes]
      case h_2 => cases h

theorem plainRange_of_plainAt {s : State} {a n : Nat} (h : s.plainAt a n) : plainRange a n := by
  obtain ⟨r, hregion, hr⟩ := plainAt_iff h
  exact plainRange_of_region? hregion hr

/-- Command `c` asks to seal `n` tokens of page `i`, and the three places that it may write are plain and apart. -/
structure State.seals (s : State) (c : Cmd) (g : Gran) (st i n : Nat) (src : List Byte) : Prop where
  fields : s.sealOf c = .ok (g, st, i, n)
  source : s.partRead 0 (c.f 8 8) g.pageBytes = .ok src
  page : s.partRanges 0 (g.pageAt st i) g.pageBytes = .ok [(g.pageAt st i, g.pageBytes)]
  sum : s.partRanges 0 (g.sumAt st i) g.sumBytes = .ok [(g.sumAt st i, g.sumBytes)]
  count : s.partRanges 0 (g.sealedAt st) 4 = .ok [(g.sealedAt st, 4)]
  pageSum : apart (g.pageAt st i) g.pageBytes (g.sumAt st i) g.sumBytes
  pageCount : apart (g.pageAt st i) g.pageBytes (g.sealedAt st) 4
  sumCount : apart (g.sumAt st i) g.sumBytes (g.sealedAt st) 4
  tokens : n ≤ 64
  pagePlain : s.plainAt (g.pageAt st i) g.pageBytes
  sumPlain : s.plainAt (g.sumAt st i) g.sumBytes
  countPlain : s.plainAt (g.sealedAt st) 4

/-- The page and the summary entry of a seal have been written. -/
def State.sealed (s : State) (g : Gran) (st i : Nat) (page sum : List Byte) : State :=
  (s.setBytes (g.pageAt st i) page).setBytes (g.sumAt st i) sum

section

variable {s : State} {c : Cmd} {g : Gran} {st i n : Nat} {src : List Byte} (h : s.seals c g st i n src)
include h

theorem State.sealWrites_of_seals (hp : c.p = 0) : s.sealWrites c = .ok ([([(g.pageAt st i, g.pageBytes)], g.trim src n),
    ([(g.sumAt st i, g.sumBytes)], g.sumEntry i n (c.f 16 8) (g.trim src n))] ++
      if n = 64 then [([(g.sealedAt st, 4)], leBytes 4 (i + 1))] else []) := by
  obtain ⟨hfields, hsource, hpage, hsum, hcount, -⟩ := h
  unfold State.sealWrites
  rw [hfields, hp]
  dsimp only [Acc.bind]
  rw [hsource]
  dsimp only
  rw [hpage]
  dsimp only
  rw [hsum]
  dsimp only
  rw [hcount]
  split_ifs <;> rfl

/-- The page and the summary entry are written, each in its place, and the sealed count is as it was. -/
theorem State.sealed_leaves {page sum : List Byte} (hpage : page.length = g.pageBytes) (hsum : sum.length = g.sumBytes) :
    (s.rangeWrite [(g.pageAt st i, g.pageBytes)] page).rangeWrite [(g.sumAt st i, g.sumBytes)] sum = s.sealed g st i page sum ∧
      s.sealed g st i page sum = { s with mem := (s.sealed g st i page sum).mem } ∧
      (s.sealed g st i page sum).bytes (g.pageAt st i) g.pageBytes = page ∧
      (s.sealed g st i page sum).bytes (g.sumAt st i) g.sumBytes = sum ∧
      (s.sealed g st i page sum).readN (g.sealedAt st) 4 = s.readN (g.sealedAt st) 4 := by
  have hpagePlain := plainRange_of_plainAt h.pagePlain
  have hsumPlain := plainRange_of_plainAt h.sumPlain
  have hcountPlain := plainRange_of_plainAt h.countPlain
  obtain ⟨hwrite1, hframe1⟩ := State.rangeWrite_plain (s := s) (t := s) rfl rfl h.page h.pagePlain hpage
  obtain ⟨hread1, -⟩ := State.wrote_plain (s := s) (u := s) (a := g.pageAt st i) (b := page) rfl rfl (by rwa [hpage])
  have hcount1 := State.bytes_of_apart (s := s) (d := page) hcountPlain (by rw [hpage]; exact h.pageCount.symm)
  rw [hwrite1]
  unfold State.sealed
  rw [hpage] at hread1
  generalize s.setBytes (g.pageAt st i) page = u at *
  obtain ⟨hwrite2, hframe2⟩ := State.rangeWrite_plain (s := s) (t := u) (congrArg State.regs hframe1 :) (congrArg State.ckp hframe1 :)
    h.sum h.sumPlain hsum
  obtain ⟨hread2, -⟩ := State.wrote_plain (s := u) (u := u) (a := g.sumAt st i) (b := sum) rfl rfl (by rwa [hsum])
  have hkept := State.bytes_of_apart (s := u) (d := sum) hpagePlain (by rw [hsum]; exact h.pageSum)
  have hcount2 := State.bytes_of_apart (s := u) (d := sum) hcountPlain (by rw [hsum]; exact h.sumCount.symm)
  rw [hsum] at hread2
  refine ⟨hwrite2, ?_, hkept.trans hread1, hread2, congrArg leNat (hcount2.trans hcount1)⟩
  exact hframe2.trans (congrArg (fun x : State => { x with mem := (u.setBytes (g.sumAt st i) sum).mem }) hframe1)

/-- What all the writes of a seal leave. -/
theorem State.sealWrites_leave (hp : c.p = 0) : ∃ l w, s.sealWrites c = .ok l ∧ l.foldl (fun t x => t.rangeWrite x.1 x.2) s = w ∧
    w = { s with mem := w.mem } ∧ w.bytes (g.pageAt st i) g.pageBytes = g.trim src n ∧
    w.bytes (g.sumAt st i) g.sumBytes = g.sumEntry i n (c.f 16 8) (g.trim src n) ∧
    w.readN (g.sealedAt st) 4 = if n = 64 then (i + 1) % 2 ^ 32 else s.readN (g.sealedAt st) 4 := by
  have hpage := g.length_trim h.tokens (State.length_partRead h.source)
  have hsum := g.length_sumEntry i n (c.f 16 8) (g.trim src n)
  obtain ⟨hwrite, hframe, hreadPage, hreadSum, hcount⟩ := State.sealed_leaves h hpage hsum
  refine ⟨_, _, State.sealWrites_of_seals h hp, rfl, ?_⟩
  simp only [List.foldl_append, List.foldl_cons, List.foldl_nil]
  rw [hwrite]
  generalize s.sealed g st i (g.trim src n) (g.sumEntry i n (c.f 16 8) (g.trim src n)) = u at *
  by_cases hn : n = 64
  · rw [if_pos hn, if_pos hn]
    have hlen : (leBytes 4 (i + 1)).length = 4 := Laws.leBytes_len _ _
    obtain ⟨hwrite3, hframe3⟩ := State.rangeWrite_plain (s := s) (t := u) (congrArg State.regs hframe :) (congrArg State.ckp hframe :)
      h.count h.countPlain hlen
    obtain ⟨hread3, -⟩ := State.wrote_plain (s := u) (u := u) (a := g.sealedAt st) (b := leBytes 4 (i + 1)) rfl rfl
      (by rw [hlen]; exact plainRange_of_plainAt h.countPlain)
    have hkeptPage := State.bytes_of_apart (s := u) (d := leBytes 4 (i + 1)) (plainRange_of_plainAt h.pagePlain)
      (by rw [hlen]; exact h.pageCount)
    have hkeptSum := State.bytes_of_apart (s := u) (d := leBytes 4 (i + 1)) (plainRange_of_plainAt h.sumPlain)
      (by rw [hlen]; exact h.sumCount)
    rw [hlen] at hread3
    simp only [List.foldl_cons, List.foldl_nil]
    rw [hwrite3]
    refine ⟨?_, hkeptPage.trans hreadPage, hkeptSum.trans hreadSum, State.readN_of_bytes hread3⟩
    exact hframe3.trans (congrArg (fun x : State => { x with mem := (u.setBytes (g.sealedAt st) (leBytes 4 (i + 1))).mem }) hframe)
  · rw [if_neg hn, if_neg hn]
    exact ⟨hframe, hreadPage, hreadSum, hcount⟩

/-- A seal that its pavilion carries out. -/
theorem exec_seal_leaves {id : Nat} (hdo : s.doing id 0x02 c) (hrun : ∃ l, (id, l) ∈ s.gmem.svcRun) (hp : c.p = 0) (ln : BitVec 64) :
    ∃ t, exec (.seal id .ok ln) s = .next t ∧ t.ended id .ok 0 0 ∧
      t = { s with mem := t.mem, scratch := t.scratch, que := t.que, gmem := t.gmem } ∧
      t.bytes (g.pageAt st i) g.pageBytes = g.trim src n ∧
      t.bytes (g.sumAt st i) g.sumBytes = g.sumEntry i n (c.f 16 8) (g.trim src n) ∧
      t.readN (g.sealedAt st) 4 = (if n = 64 then (i + 1) % 2 ^ 32 else s.readN (g.sealedAt st) 4) ∧ ∀ l, (id, l) ∉ t.gmem.svcRun := by
  obtain ⟨l, w, hwrites, hfold, hframe, hreadPage, hreadSum, hcount⟩ := State.sealWrites_leave h hp
  have hexec : exec (.seal id .ok ln) s = .next (w.svcEnd id .ok 0) := by
    show execSeal id .ok ln s = _
    rw [execSeal, State.svcDo_runs hdo ln _ hrun, hwrites]
    exact congrArg (fun x : State => Host.Outcome.next (x.svcEnd id .ok 0)) hfold
  obtain ⟨hended, hend, hgone⟩ := State.svcEnd_leaves hdo (w := w) (congrArg (fun t : State => t.que.cmds) hframe :) .ok 0
  have hmem : (w.svcEnd id .ok 0).mem = w.mem := (congrArg State.mem hend :)
  refine ⟨_, hexec, hended, ?_, (State.bytes_of_mem hmem (plainRange_of_plainAt h.pagePlain)).trans hreadPage,
    (State.bytes_of_mem hmem (plainRange_of_plainAt h.sumPlain)).trans hreadSum,
    (State.readN_of_mem hmem (plainRange_of_plainAt h.countPlain)).trans hcount, hgone⟩
  generalize w.svcEnd id .ok 0 = t at *
  have hscratch : t.scratch = s.scratch := (congrArg State.scratch hend :).trans (congrArg State.scratch hframe :)
  rw [hscratch, hmem]
  exact hend.trans (congrArg (fun x : State => { x with que := t.que, gmem := t.gmem }) hframe)

end

/-! ### ATTEND (R236 to R241) -/

section

variable {s : State} {id : Nat} {c : Cmd} (hdo : s.doing id 0x03 c) (hrun : ∃ l, (id, l) ∈ s.gmem.svcRun) {a : Att}
  (ha : s.attOf c = .ok a)
include hdo hrun ha

/-- A page that is not sound ends the request. -/
theorem exec_attend_unsound {k : Nat} (hr : s.attend c a = .ok (.error k)) (ln : BitVec 64) : ∃ t, exec (.attend id .ok ln) s = .next t ∧
    t.ended id .dataError (0x2800 + k % 2048) 0 ∧ t.mem = s.mem ∧ t.scratch = s.scratch := by
  have hexec : exec (.attend id .ok ln) s = .next (s.svcEnd id .dataError (0x2800 + k % 2048)) := by
    show execAttend id .ok ln s = _
    rw [execAttend, State.svcDo_runs hdo ln _ hrun, ha]
    dsimp only [Acc.bind]
    rw [hr]
  obtain ⟨hended, hend, -⟩ := State.svcEnd_leaves hdo (w := s) rfl .dataError (0x2800 + k % 2048)
  exact ⟨_, hexec, hended, (congrArg State.mem hend :), (congrArg State.scratch hend :)⟩

theorem exec_attend_sound {recs : List Byte} {ids : List Nat} (hr : s.attend c a = .ok (.ok (recs, ids))) (hp : c.p = 0) (hsel : c.f 24 8 = 0)
    (hopen : s.partRanges 0 (c.f 16 8) recs.length = .ok [(c.f 16 8, recs.length)]) (ln : BitVec 64) :
    exec (.attend id .ok ln) s = .next ((s.land (c.f 16 8) recs .plain).svcEnd id .ok 0) := by
  show execAttend id .ok ln s = _
  rw [execAttend, State.svcDo_runs hdo ln _ hrun, ha]
  dsimp only [Acc.bind]
  rw [hr, hp]
  dsimp only
  rw [hopen]
  dsimp only
  rw [if_pos hsel]
  dsimp only [List.foldl_cons, List.foldl_nil]
  rw [State.rangeWrite_one s rfl, State.devWrite_of_not_held (State.writeHeld_of_partRanges hopen)]

end

theorem State.accessSt_of_usable {s : State} {p : Fin 65} {a n : Nat} (h : s.usable p [(a, n)] = .ok) : s.accessSt a n = .ok := by
  unfold State.usable at h
  split at h
  case isTrue => cases h
  case isFalse =>
    by_contra hne
    have hst : s.rangesSt [(a, n)] = s.accessSt a n := by simp [State.rangesSt, hne]
    exact hne (hst.symm.trans h)

/-- A write that may be made at once, answered by nothing, is written. -/
theorem State.wrote_land {s : State} {a : Nat} {b : List Byte} (hacc : s.accessSt a b.length = .ok)
    (hlog : s.region? a b.length ≠ some .log) :
    s.wrote (s.land a b .plain) a b := by
  have hland : s.land a b .plain = { s.setBytes a b with out := (s.land a b .plain).out } := State.sendWr_frame _ _ _ _ _
  have hpavs : (s.land a b .plain).pavs = (s.setBytes a b).pavs := (congrArg State.pavs hland :)
  exact State.wrote_of_frame (State.wrote_setBytes (State.writable_of_accessSt hacc hlog)) (by rw [hpavs]; exact hland)

/-- What a sound ATTEND leaves: its records. -/
theorem exec_attend_leaves {s : State} {id : Nat} {c : Cmd} (hdo : s.doing id 0x03 c) (hrun : ∃ l, (id, l) ∈ s.gmem.svcRun) {a : Att}
    (ha : s.attOf c = .ok a) {recs : List Byte} {ids : List Nat} (hr : s.attend c a = .ok (.ok (recs, ids))) (hp : c.p = 0)
    (hsel : c.f 24 8 = 0) (hopen : s.partRanges 0 (c.f 16 8) recs.length = .ok [(c.f 16 8, recs.length)]) (ln : BitVec 64) :
    ∃ t, exec (.attend id .ok ln) s = .next t ∧ t.ended id .ok 0 0 ∧ s.wrote t (c.f 16 8) recs ∧ t.regs = s.regs := by
  obtain ⟨htr, huse, -⟩ := State.partRanges_ok hopen
  obtain ⟨-, hlog⟩ := State.translate_zero htr
  have hwrote := State.wrote_land (State.accessSt_of_usable huse) fun hl => hlog ⟨rfl, hl⟩
  have hland := s.land_frame (c.f 16 8) recs .plain
  have hexec := exec_attend_sound hdo hrun ha hr hp hsel hopen ln
  obtain ⟨hended, hend, -⟩ := State.svcEnd_leaves hdo (w := s.land (c.f 16 8) recs .plain)
    (congrArg (fun t : State => t.que.cmds) hland :) .ok 0
  have hregs : (s.land (c.f 16 8) recs .plain).regs = s.regs := (congrArg State.regs hland :)
  generalize s.land (c.f 16 8) recs .plain = w at *
  have htregs : (w.svcEnd id .ok 0).regs = w.regs := (congrArg State.regs hend :)
  have hsame : w.sameMemory (w.svcEnd id .ok 0) := ⟨(congrArg State.mem hend :), (congrArg State.scratch hend :),
    (congrArg State.log hend :),
    fun l _ => State.phys?_congr (State.reg_congr htregs _)⟩
  exact ⟨_, hexec, hended, hsame.wrote hwrote, htregs.trans hregs⟩

theorem Cmd.p_of_part {c : Cmd} (h : c.part = 0) : c.p = 0 := by
  unfold Cmd.p
  rw [h]
  rfl

/-- Settles O32: a migration's start and end each have an equation with its writes at plain addresses; a request's tests decide what its
start does; and the writes of a seal are made one after the other, each in its place (`State.sealWrites_leave`). -/
theorem granary : Obligations.Granary := by
  unfold Obligations.Granary
  intro s id c
  refine ⟨fun hdo p n dst src hp0 hp hn hdst hclean hok hin htable hready hsrc hnew => ?_,
    fun hdo m hm hqps hlate hentry hfree => ⟨?_, ?_⟩, fun k v => ?_, exec_serviceRequestStart_none,
    fun l p q cls hsvc hturn hc hcmd hd => ?_,
    fun hdo hrun hpart x src hx hsource hpage hsum hcount hps hpc hsc htok hpp hsp hcp ln => ?_,
    fun hdo hrun hpart hsel a r ha hr => ⟨?_, ?_⟩⟩
  · have h : s.migrates id c p n dst src := ⟨hdo, hp0, hp, hn, hdst, hclean, hok, hin, htable, hready, hsrc, hnew⟩
    have hexec := exec_migrate h
    refine ⟨fun hbusy => ?_, fun hbusy hfull => ?_, fun hbusy hroom huse hheld => exec_migrate_starts h hbusy hroom huse hheld⟩
    · rw [if_pos hbusy] at hexec
      exact ⟨_, hexec, State.ended_doing hdo .busy 0 0⟩
    · rw [hbusy, if_neg (by decide), if_pos hfull] at hexec
      exact ⟨_, hexec, State.ended_doing hdo .refusedResource 0x2800 0⟩
  · intro hregion halign hdstFree hapart
    obtain ⟨hlt, hbusy, hnumber, hprot⟩ := s.entryMoved_fields m
    obtain ⟨t, hexec, hended, hbytes, hread, hmigs⟩ := migrateComplete_copies hm hdo hqps hlate hentry hfree hregion hdstFree hapart
    refine ⟨t, hexec, hended, hbytes, ?_, ?_, ?_, hmigs⟩
    · rw [hread]
      exact hbusy
    · rw [hread]
      exact hnumber
    · rw [hread]
      exact hprot
  · exact fun a ha => migrateComplete_fails hm hdo hqps hlate ha
  · refine ⟨s.svcMaskWrite k v, rfl, fun hsched => ?_, fun hidle => State.svcMaskWrite_leaves k v hidle⟩
    rw [State.svcMaskWrite_of_sched k v hsched]
    exact ⟨rfl, State.flag_raise_same _ rfl (by decide), (State.sameRegsBut.refl s _).setFld (List.mem_singleton.mpr rfl) _⟩
  · obtain ⟨t, hexec, hmem, hscratch, hregs, hrefused, htaken⟩ := serviceRequestStart_leaves hsvc hturn hc hcmd hd
    refine ⟨t, hexec, hmem, hscratch, hregs, fun x b hop hx hb => ?_, fun a b hop ha hb => ?_⟩
    · have hcheck := State.svcCheck_seal hop hx hb
      refine ⟨fun hne => ?_, fun heq hcap => ?_, fun heq hcap => ?_⟩
      · exact hrefused _ (hcheck.trans (if_pos hne))
      · exact hrefused _ (hcheck.trans ((if_neg (not_not.mpr heq)).trans (if_pos hcap)))
      · exact htaken (hcheck.trans ((if_neg (not_not.mpr heq)).trans (if_neg (Nat.not_le.mpr hcap))))
    · have hcheck := State.svcCheck_att hop ha hb
      exact ⟨fun hlt => hrefused _ (hcheck.trans (if_pos hlt)), fun hle => htaken (hcheck.trans (if_neg (Nat.not_lt.mpr hle)))⟩
  · exact exec_seal_leaves ⟨hx, hsource, hpage, hsum, hcount, hps, hpc, hsc, htok, hpp, hsp, hcp⟩ hdo hrun (Cmd.p_of_part hpart) ln
  · rintro k ln rfl
    exact exec_attend_unsound hdo hrun ha hr ln
  · rintro recs ids rfl hopen ln
    exact exec_attend_leaves hdo hrun ha hr (Cmd.p_of_part hpart) hsel hopen ln

end Sys2Proof.Machine
end
